-- ==== Sys2Proof/Word.lean ====
section
/-!
DEFINITION. The word types: a 64-bit instruction, parameter or register word and a byte (R10, R444).
-/
namespace Sys2Proof

/-- A 64-bit word: an instruction word, a parameter word, a reply word or a Ledger word. -/
abbrev Word := BitVec 64
/-- A byte of a transfer or of the Barn. -/
abbrev Byte := BitVec 8

end Sys2Proof
end

