-- ==== Sys2Proof/Syntax.lean ====
section
/-!
DEFINITION. The commands of the block, one constructor per row of spec/opcode_table.json, with their operands.
A command of an instruction row is one issue of that instruction by a Lamplighter thread: it carries the word's
FLAGS and operand bits and its parameter words (R444). A command of an event row carries what the outside world
supplies at that event (a received line, a packet, a message, an edge). Every command carries `dt`, the time since
the command before it, in the grains of Config.
-/
namespace Sys2Proof

/-- One issue of a Delnos instruction: thread `th` issues, `dt` after the previous command, a word with FLAGS
[55:52] and operand bits [51:0], followed by parameter words (R444, R446). -/
structure Issue where
  dt : Nat
  th : Nat
  flags : BitVec 4
  ops : BitVec 52
  params : List Word
deriving DecidableEq, Repr

/-- A message of the Alley (Table 15.2) or the Footpath (Table 19.7): TYPE, MSG_SEQ, body words and the CRC that its last word
carries (R416). -/
structure LinkMsg where
  typ : Nat
  seq : Nat
  body : List Word
  crc : BitVec 32
deriving DecidableEq, Repr


/-- A Haywain codeword received at the bit offset under trial: the levels of its 5,440 bits on the line (0 to 3 for a bit pair at PAM4
rates, else 0 and 1), and the symbol errors that the RS decoder finds: place and value to be added (R167 to R171). -/
structure CodewordIn where
  levels : List Nat
  fixes : List (Nat × Nat)
deriving DecidableEq, Repr

/-- A line whose last beat a Cell emits now (R188): its number, the stream of a multi-stream Granary input that carries it, and on a
FOLLOW Cell how long ago its SOL beat was emitted (grains) and, where a cut ended it, how many words it had (0: all, R122). -/
structure LineOut where
  line : Nat
  stream : Nat
  age : Nat
  len : Nat
deriving DecidableEq, Repr

/-- One line of active picture as code values: Y, Cb and Cr, the chroma lists half as long for 4:2:2; or G, B and R. -/
structure PicLine where
  a : List Nat
  b : List Nat
  c : List Nat
deriving DecidableEq, Repr

/-- What a payload ID says of a picture: sampling (0 YCbCr 4:2:2, 1 YCbCr 4:4:4, 2 RGB 4:4:4), 12-bit depth,
colourimetry (Table 4.7), full range. -/
structure Payload where
  sampling : Nat
  depth12 : Bool
  colour : Nat
  full : Bool
deriving DecidableEq, Repr

/-- One sample instant of a de-embedded seat (R187, R307): the 24-bit sample of each seat channel that is present, and
how many groups came at another rate. -/
structure AudioIn where
  samples : List (Option Int)
  wrongRate : Nat
deriving DecidableEq, Repr

/-- A frame received by a Stook side (R353 to R357): grains since its FS edge or first preamble, its length in bit
periods, its slot words (or 24-bit subframe words), and for AES3 the parity errors, V, U and C bits of its subframes and
whether it begins a block. -/
structure StookIn where
  age : Nat
  bits : Nat
  words : List (BitVec 32)
  parityBad : List Bool
  v : List Bool
  u : List Bool
  c : List Bool
  z : Bool
deriving DecidableEq, Repr

/-- A PTP message as a port received it (R394 to R402): whether its version and length, and its UDP checksum, are good;
whether it came by multicast to a PTP address; transport and VLAN; domain, sequenceId, sourcePortIdentity, twoStepFlag,
correctionField in units of 2^-16 ns, the timestamp it carries, logMessageInterval, its UDP checksum field; whether the
requestingPortIdentity is the device's; and for an Announce the grandmaster and UTC fields and whether the Steward's best
master clock algorithm selects its sender. -/
structure PtpIn where
  versionOk : Bool
  checksumOk : Bool
  multicast : Bool
  transport : Nat
  vlan : Nat
  domain : Nat
  seq : Nat
  port : BitVec 80
  twoStep : Bool
  cf : Int
  sec : Nat
  ns : Nat
  logInterval : Int
  checksum : Nat
  ours : Bool
  gm : BitVec 64
  gmClass : Nat
  gmAccuracy : Nat
  steps : Nat
  utcOffset : Nat
  utcFlags : Nat
  selected : Bool
deriving DecidableEq, Repr

/-- A membership query as the Steward reads it (R250 to R252): IPv6 (MLD) or IPv4 (IGMP); whether its checksum, length and router
alert are good; protocol version; source; group queried (0 general); robustness (0 where it carries none); querier's interval in
seconds; maximum response time in milliseconds. -/
structure QueryIn where
  v6 : Bool
  ok : Bool
  version : Nat
  src : Nat
  group : Nat
  robust : Nat
  interval : Nat
  resp : Nat
deriving DecidableEq, Repr

/-- What the boot sequence meets from step 4 on (R513): whether the flash answers, for each slot whether its image's migration
of the settings succeeds (R533), the capacity in MB that each Barn channel reports, 0 for one that fails training (R540, R541). -/
structure BootEnv where
  flashOk : Bool
  migrates : List Bool
  barnMB : List Nat
deriving DecidableEq, Repr

/-- The release of RESET_N: levels of PWRGOOD, RECOVERY_N, BOOT, ADDR and TWIN_SIDE; bytes that the card has placed in the boot
flash since the last reset; KEY_HASH and the number of SVN fuses as provisioned, where they are new; what the sequence meets; and
the milliseconds that it takes. -/
structure ResetIn where
  pwrgood : Bool
  recoveryN : Bool
  boot : Nat
  addr : Nat
  side : Bool
  flash : List (Nat × Byte)
  otp : Option (BitVec 384 × Nat)
  env : BootEnv
  bootMs : Nat
deriving DecidableEq, Repr


/-- A command: one constructor per row of spec/opcode_table.json. -/
inductive Instr where
  /-- A nop instruction executes and does nothing (R454) -/
  | nop (i : Issue)
  /-- A halt instruction moves a Ledger thread to HALTED, discarding any open salvo; in an errand it returns FORMAT (R450) -/
  | halt (i : Issue)
  /-- An unconditional branch moves execution forward in an errand or to a Ledger index, skipped words reporting DONE (R450) -/
  | br (i : Issue)
  /-- A predicated branch is taken if the named predicate is 1, or 0 with NOT (R450) -/
  | bp (i : Issue)
  /-- A call pushes the 8-deep call stack and continues at a Ledger index (R450) -/
  | call (i : Issue)
  /-- A ret returns from a call, or halts or returns FORMAT on an empty stack (R450) -/
  | ret (i : Issue)
  /-- SALVO opens a salvo, strict or not, in the errand or Ledger program (R106) -/
  | salvo (i : Issue)
  /-- ENDSALVO closes the salvo; every member counts as staged at its completion, and a strict salvo with a failed member is dropped (R106) -/
  | endsalvo (i : Issue)
  /-- A Ledger thread enters TICK_WAIT for a count of ticks or for an absolute tick of its bound plan (R452) -/
  | waittick (i : Issue)
  /-- A Ledger thread enters TICK_WAIT until a system time held in two registers (R409) -/
  | waittime (i : Issue)
  /-- A Ledger thread enters EVENT_WAIT until the next capture on a CAPT pin (R409) -/
  | waitcapt (i : Issue)
  /-- The target instruction sets or clears the intended tick for the thread's later TICKED effects (R452) -/
  | target (i : Issue)
  /-- A thread enters EVENT_WAIT until every BACKGROUND operation it started has its final code (R452) -/
  | sync (i : Issue)
  /-- Loads a sign-extended immediate, or its high half, into a general register (R451) -/
  | li (i : Issue)
  /-- Copies one general register to another (R451) -/
  | mov (i : Issue)
  /-- Adds a register or immediate to a register modulo 2^64 (R451) -/
  | add (i : Issue)
  /-- Subtracts a register or immediate modulo 2^64 (R451) -/
  | sub (i : Issue)
  /-- Bitwise AND of a register with a register or immediate (R451) -/
  | andOp (i : Issue)
  /-- Bitwise OR of a register with a register or immediate (R451) -/
  | orOp (i : Issue)
  /-- Bitwise XOR of a register with a register or immediate (R451) -/
  | xorOp (i : Issue)
  /-- Shifts a register left by the operand modulo 64 (R451) -/
  | shl (i : Issue)
  /-- Shifts a register logically right by the operand modulo 64 (R451) -/
  | shr (i : Issue)
  /-- Compares a register with an operand under COND and writes a predicate (R451) -/
  | cmp (i : Issue)
  /-- Copies one bit of a register into a predicate (R451) -/
  | bit (i : Issue)
  /-- Sets a predicate to an immediate 0 or 1 (R451) -/
  | pset (i : Issue)
  /-- Stages a source as the selection of one Cell or of every Cell of a group (R116) -/
  | take (i : Issue)
  /-- Stages one source into a range of consecutive destination Cells as a group instruction (R118) -/
  | taker (i : Issue)
  /-- Stages each member of a source bundle into the matching member of a destination bundle, all or none (R129) -/
  | btake (i : Issue)
  /-- Sets a Cell's LOCK state to LOCKED and records the owner thread (R124) -/
  | lock (i : Issue)
  /-- Sets a Cell's LOCK state to PROTECTED and records the owner thread (R124) -/
  | protect (i : Issue)
  /-- Sets a Cell's LOCK state to FREE, from the owner or a forcing priority-7 thread (R124) -/
  | unlock (i : Issue)
  /-- Stages a whole Sheaf entry at a named index of an output slot (R318) -/
  | sheafset (i : Issue)
  /-- Stages a Sheaf entry at the lowest inactive index and returns the index chosen (R318) -/
  | sheafadd (i : Issue)
  /-- Stages GAIN 0 on a Sheaf entry so its contribution ramps out (R318) -/
  | sheafclr (i : Issue)
  /-- Stages a restart of a loudness meter's integrated loudness and TP_MAX (R349) -/
  | loudreset (i : Issue)
  /-- Writes head parameters into a Plaza head's shadow configuration (R283) -/
  | headset (i : Issue)
  /-- Writes a four-word layer descriptor into a head's shadow (R290) -/
  | layerset (i : Issue)
  /-- Copies the shadows of the named heads into their staged generations for commit at a tick, waking scalers (R291) -/
  | headcommit (i : Issue)
  /-- Stages the parameters of a Granary slot (R255) -/
  | grancfg (i : Issue)
  /-- Stages the parameters of a Granary sub-slot (R255) -/
  | subcfg (i : Issue)
  /-- Configures a Timing Plan's raster, phase, switching line, tick unit, slew and enable (R51) -/
  | plancfg (i : Issue)
  /-- Stages a Cell's mode, plan, loss policy and fallback seat (R113) -/
  | cellcfg (i : Issue)
  /-- Stages a Kerb's mode, plan and concealment (R66) -/
  | kerbcfg (i : Issue)
  /-- Stages the membership of a source or destination bundle, or dissolves it (R127) -/
  | bundlecfg (i : Issue)
  /-- Stages the parameters of a Signpost generator (R138) -/
  | signcfg (i : Issue)
  /-- Stages the function of a Watchman probe, a CAPTURE reporting at completion (R140) -/
  | watchcfg (i : Issue)
  /-- Stages the MIRROR destination of a return seat (R141) -/
  | retcfg (i : Issue)
  /-- Maps a tributary index to a lane pair and slot, or unmaps it (R164) -/
  | tribcfg (i : Issue)
  /-- Starts setting the family of an Avenue PLL, final code at lock (R144) -/
  | pllcfg (i : Issue)
  /-- Sets a lane pair's mode, rate, PLL and options, waking and retraining it (R146) -/
  | lanecfg (i : Issue)
  /-- Sets a lane's TX FFE taps and RX adaptation values (R152) -/
  | laneeq (i : Issue)
  /-- Starts or restarts link training on a lane (R154) -/
  | lanetrain (i : Issue)
  /-- Sets the power state of one or both sides of a lane pair (R155) -/
  | lanepwr (i : Issue)
  /-- Sets a lane's PRBS generator and checker, error injection and loopback (R158) -/
  | lanetest (i : Issue)
  /-- Binds a MAC to an Ethernet port and sets its addresses and MTU (R196) -/
  | maccfg (i : Issue)
  /-- Stages an output slot's plan, rate, trim, mute and polarity (R310) -/
  | slotcfg (i : Issue)
  /-- Sets the length and law of a ramp profile (R320) -/
  | rampcfg (i : Issue)
  /-- Stages a de-embedder's a-channels, count and rate (R307) -/
  | deembcfg (i : Issue)
  /-- Stages the tone channels of a Signpost generator (R308) -/
  | tonecfg (i : Issue)
  /-- Stages the audio-for-video map of a source seat (R326) -/
  | afvcfg (i : Issue)
  /-- Stages an embedder's groups, rate, fade and channel sources (R327) -/
  | embcfg (i : Issue)
  /-- Stages a slot limiter's ceiling, lookahead and release (R339) -/
  | limcfg (i : Issue)
  /-- Stages a compressor's assignment and parameters (R341) -/
  | compcfg (i : Issue)
  /-- Stages a slot's delay, with Barn admission (R343) -/
  | delaycfg (i : Issue)
  /-- Stages the channel-status mode of a slot pair (R358) -/
  | cscfg (i : Issue)
  /-- Sets a detector profile (R347) -/
  | detcfg (i : Issue)
  /-- Assigns a detector profile to a range of a-channels or slots (R347) -/
  | detassign (i : Issue)
  /-- Configures a loudness meter's space and channels (R349) -/
  | loudcfg (i : Issue)
  /-- Configures a correlation meter's two channels (R350) -/
  | corrcfg (i : Issue)
  /-- Stages the settings of one side of a Stook port (R352) -/
  | stookcfg (i : Issue)
  /-- Stages the attachment of ASRC to a source or SLAVE transmit side (R360) -/
  | asrccfg (i : Issue)
  /-- Stages the parameters of a Barn audio tap (R362) -/
  | tapcfg (i : Issue)
  /-- Sets the parameters of one Tower reference candidate (R367) -/
  | towercand (i : Issue)
  /-- Sets one Tower priority table (R372) -/
  | towertable (i : Issue)
  /-- Sets the Tower's active table and loop parameters (R377) -/
  | towercfg (i : Issue)
  /-- towersteer with TRIM stores a frequency trim for FREERUN and the monitor base (R383) -/
  | freqTrim (i : Issue)
  /-- towersteer with STEP adds a phase to PHASE_PENDING for slewing (R383) -/
  | phaseStep (i : Issue)
  /-- towersteer with SET sets the seconds of system time at the next whole second (R383) -/
  | seconds (i : Issue)
  /-- Sets the source, plan, offset and squelch of a clock output (R387) -/
  | clkoutcfg (i : Issue)
  /-- Sets a MAC's timestamp compensation and transparent-clock group (R392) -/
  | ptpport (i : Issue)
  /-- Configures a PTP receiver instance (R394) -/
  | ptpcfg (i : Issue)
  /-- Sets a transparent-clock group to E2E or P2P (R398) -/
  | tccfg (i : Issue)
  /-- Sets the captured edges and event posting of a CAPT pin (R405) -/
  | captcfg (i : Issue)
  /-- Sets a time-trigger output, cancelling undriven edges of the old setting (R407) -/
  | ttcfg (i : Issue)
  /-- Sets the twin mode, plan, auto-yield, compare and takeover hold (R442) -/
  | twincfg (i : Issue)
  /-- Stages a level change of a LEVEL-mode TT output at a tick plus offset (R408) -/
  | ttset (i : Issue)
  /-- Stages the parameters of a receive flow context (R207) -/
  | rxflow (i : Issue)
  /-- Stages the parameters and legs of a transmit flow context (R227) -/
  | txflow (i : Issue)
  /-- Stages an ST 2110-22 forwarding output's input, legs and rate (R247) -/
  | fwdcfg (i : Issue)
  /-- Writes an exact-match classifier entry, relocating keys if needed (R205) -/
  | clsadd (i : Issue)
  /-- Removes an exact-match classifier key (R205) -/
  | clsdel (i : Issue)
  /-- Writes a wildcard classifier entry (R206) -/
  | clswild (i : Issue)
  /-- Starts writing words into the Ledger from an index (R458) -/
  | ldload (i : Issue)
  /-- Starts writing data words into the Barn host region (R455) -/
  | barnwr (i : Issue)
  /-- Starts loading a 3D LUT bank of a Granary slot from the Barn (R271) -/
  | lutload (i : Issue)
  /-- Reads 1–255 words at an Arcade address into the reply or a register (R459) -/
  | rd (i : Issue)
  /-- Reads one word at an address held in a register (R459) -/
  | rdind (i : Issue)
  /-- Reads system time and Milestone coherently into two registers (R459) -/
  | rdtime (i : Issue)
  /-- Arms a Harvest capture for NOW, a TIME or the next TAKE_IN edge, replacing any armed capture (R467) -/
  | harvest (i : Issue)
  /-- Stages an exchange of twin roles at a tick of TWIN_PLAN (R435) -/
  | twinswitch (i : Issue)
  /-- Sets or clears the suspect marking of either twin and clears DECIDE (R442) -/
  | twinmark (i : Issue)
  /-- twinmark with SUB bit 2 clears TWIN.STATUS.UNREPLICATED (R438) -/
  | clearUnreplicated (i : Issue)
  /-- Writes an image segment into the inactive or recovery slot, optionally distributing it on the Footpath ring (R520) -/
  | imgload (i : Issue)
  /-- imgload with KIND SETTINGS replaces settings records and writes a new settings copy (R534) -/
  | imgloadSettings (i : Issue)
  /-- Starts hitless activation of the image in the inactive slot, or in recovery reboots into the recovery slot (R524) -/
  | imgactivate (i : Issue) (recoveryN : Bool) (pMin pMax : Nat) (env : BootEnv)
  /-- imgadvance with CONFIRM writes the boot record with TRIAL 0 (R530) -/
  | confirm (i : Issue)
  /-- imgadvance with ADVANCE starts blowing SVN fuses up to the running image's SVN (R531) -/
  | advance (i : Issue)
  /-- thrcfg ACTION CONFIGURE sets a thread's priority, plan, queue and entry and puts it in IDLE or QUEUE_WAIT (R78) -/
  | configure (i : Issue)
  /-- thrcfg ACTION START configures a thread and sets it RUNNING at its entry (R78) -/
  | start (i : Issue)
  /-- Moves a thread to HALTED, at the end of any errand it executes (R456) -/
  | thrstop (i : Issue)
  /-- Sets the common ENABLE of a unit or group, power-gating or restoring it (R457) -/
  | unitcfg (i : Issue)
  /-- A host ERRAND transfer writes one errand to a Postbox queue after room checks (R493) -/
  | errand (dt queue : Nat) (bytes : List Byte) (bad : Option Nat)
  /-- A host transfer carries an errand for queue 8 of the twin partner over the Alley (R495) -/
  | errandPartner (dt : Nat) (bytes : List Byte) (bad : Option Nat)
  /-- Sets the host port's read address and starts any Ledger or Barn fetch (R488) -/
  | setaddr (dt : Nat) (bytes : List Byte) (bad : Option Nat)
  /-- Writes words at an address in the unit register space; words without a writable field count in RO_WRITES (R491) -/
  | regwr (dt : Nat) (bytes : List Byte) (bad : Option Nat)
  /-- A host private read returns up to MRL bytes from the set address (R489) -/
  | read (dt n : Nat) (hdr : Bool)
  /-- A write of CRIER.STATUS.READ_PTR frees Crier records and may post CRIER_RESUMED (R479) -/
  | readPtr (dt : Nat) (w : Word)
  /-- A write of a queue's REPLY_RD_PTR frees reply ring words (R497) -/
  | replyRdPtr (dt queue : Nat) (w : Word)
  /-- A write of HOST.STATUS.IBI_MASK enables or disables IBI sources (R498) -/
  | ibiMask (dt : Nat) (w : Word)
  /-- A write of IO.SLEW changes output slew settings within 1 µs (R560) -/
  | ioSlew (dt : Nat) (w : Word)
  /-- ENEC CCC sets ENINT (R484) -/
  | enec (dt : Nat) (events : Byte)
  /-- DISEC CCC clears ENINT (R484) -/
  | disec (dt : Nat) (events : Byte)
  /-- RSTDAA clears the dynamic address and returns the device to I2C operation (R484) -/
  | rstdaa (dt : Nat)
  /-- ENTDAA takes part in dynamic address assignment (R484) -/
  | entdaa (dt addr : Nat)
  /-- SETMWL stores the maximum write length (R484) -/
  | setmwl (dt v : Nat)
  /-- SETMRL sets MRL rounded down to a multiple of 8 (R484) -/
  | setmrl (dt v : Nat)
  /-- ENTHDR0 enters HDR-DDR (R484) -/
  | enthdr0 (dt : Nat)
  /-- RSTACT selects the reset action of the target reset pattern (R486) -/
  | rstact (dt action : Nat) (get : Bool)
  /-- SETDASA assigns the dynamic address from the static address (R484) -/
  | setdasa (dt addr : Nat)
  /-- SETNEWDA changes the dynamic address (R484) -/
  | setnewda (dt addr : Nat)
  /-- GETMWL returns MWL (R484) -/
  | getmwl (dt : Nat)
  /-- GETMRL returns MRL and the IBI payload size (R484) -/
  | getmrl (dt : Nat)
  /-- GETPID returns the provisioned ID (R484) -/
  | getpid (dt : Nat)
  /-- GETBCR returns the BCR (R484) -/
  | getbcr (dt : Nat)
  /-- GETDCR returns the DCR (R484) -/
  | getdcr (dt : Nat)
  /-- GETSTATUS returns pending interrupts and the protocol error flag (R484) -/
  | getstatus (dt : Nat)
  /-- GETMXDS returns the maximum data speeds (R484) -/
  | getmxds (dt : Nat)
  /-- GETCAPS returns I3C Basic version and HDR capability (R484) -/
  | getcaps (dt : Nat)
  /-- An unsupported CCC is NACKed or ignored and counted (R484) -/
  | cccUnsupported (dt code : Nat) (directed : Bool)
  /-- The HDR exit pattern ends HDR mode or a period of ignoring the bus (R484) -/
  | hdrExitPattern (dt : Nat)
  /-- The target reset pattern resets the host port alone and drains the I3C bridge (R486) -/
  | targetResetPattern (dt beats : Nat)
  /-- The device raises a pending in-band interrupt when the bus allows, retrying after NACK at most every 100 µs (R499) -/
  | ibiRequest (dt : Nat) (ack : Bool)
  /-- 10 ms after a Crier interrupt with records still unread and READ_PTR unchanged, the Crier interrupts again (R480) -/
  | crierRepeatInterrupt (dt : Nat)
  /-- The replies of a retransmitted errand are posted again once the reply ring has room (R89) -/
  | replyRepost (dt queue : Nat)
  /-- The serving thread begins an errand once its target releases it and the reply buffer has room (R100) -/
  | errandExecutionStart (dt queue : Nat)
  /-- A FINAL reply is posted once every instruction of the errand holds its final code (R93) -/
  | finalReply (dt queue : Nat)
  /-- An uncorrectable SRAM error puts a thread in FAULT and discards its open salvo (R82) -/
  | threadFault (dt th : Nat)
  /-- A detected hardware fault puts a unit in FAULT (R44) -/
  | unitFault (dt unit cause : Nat)
  /-- At the curfew of a tick the frozen generation of every element is resolved in rank order and distributed (R110) -/
  | curfewResolution (dt plan : Nat)
  /-- At a plan's tick staged effects commit, TIMED Cells cut, and the tick count advances (R63) -/
  | tick (dt plan : Nat)
  /-- A thread in waittick resumes at its tick (R452) -/
  | tickWaitResume (dt th : Nat)
  /-- A thread in waittime resumes at or after its time, or at a forward step past it (R409) -/
  | timeWaitResume (dt th : Nat)
  /-- Threads in waitcapt resume on the next capture written on their pin (R409) -/
  | captWaitResume (dt th : Nat)
  /-- A thread in sync resumes when its BACKGROUND operations have final codes (R452) -/
  | syncResume (dt th : Nat)
  /-- A TICKED instruction held under target is completed after tick gA−1 of the bound plan (R452) -/
  | targetHoldRelease (dt th : Nat)
  /-- A plan's phase slew ends and its state returns to ALIGNED (R384) -/
  | planSlewComplete (dt plan : Nat)
  /-- A FOLLOW Cell makes its staged selection current at the first SOL of the new source after the tick (R122) -/
  | followCommit (dt seat stream : Nat)
  /-- A FOLLOW Cell with no SOL 256 µs after the tick ends the old selection and emits nothing until the new source arrives (R123) -/
  | followTimeout (dt seat stream : Nat)
  /-- A line's EAV reaches a Kerb, which measures arrival error, raster and line validity (R67) -/
  | kerbEavArrival (dt kerb line : Nat) (edhBad : Bool)
  /-- An ACQUIRING Kerb whose frame matched enters ALIGNED at the next frame origin (R68) -/
  | kerbAlign (dt kerb : Nat)
  /-- A Kerb with no valid EAV for 2 line periods enters LOST (R69) -/
  | kerbLossTimeout (dt kerb : Nat)
  /-- A TIMED Cell enters its loss-policy output at the line boundary after source loss is known (R133) -/
  | cellLossEntry (dt seat : Nat)
  /-- A TIMED Cell resumes its source at the line boundary after it qualifies again (R136) -/
  | cellLossReturn (dt seat : Nat)
  /-- A Cell's output stage emits a line with embedding, line number and CRC, feeding return seats, probes and compare (R188) -/
  | cellLineOut (dt seat : Nat) (l : LineOut)
  /-- A direct SDI TX holds electrical idle after 2 line periods with no VALID beats (R183) -/
  | txSquelch (dt seat : Nat)
  /-- A received codeword is decoded, advancing codeword and frame lock and delivering slot beats (R171) -/
  | haywainCodewordRx (dt lane : Nat) (c : CodewordIn)
  /-- The device sends a Haywain frame with rate words, status and back-channel (R175) -/
  | haywainFrameTx (dt lane : Nat)
  /-- A direct SDI TRS preamble sets or moves word alignment (R182) -/
  | sdiTrsRx (dt lane : Nat) (levels : List Nat)
  /-- A recovered rate outside ±1,200 ppm over 1 ms is counted and reported (R193) -/
  | rateDeviation (dt trib : Nat)
  /-- RX loss of signal makes the lane's seats lost and retrains under RETRAIN (R162) -/
  | laneLos (dt lane : Nat) (bps : Option Nat)
  /-- RX CDR loss of lock is handled as loss of signal (R162) -/
  | cdrLoss (dt lane : Nat) (lost : Bool)
  /-- A corrected symbol rate above DEGRADE over 1 ms posts an event (R162) -/
  | degrade (dt lane : Nat) (on : Bool)
  /-- An Avenue PLL loses lock, squelching TX and losing RX on its lanes (R162) -/
  | pllLoss (dt avenue pll : Nat)
  /-- An Avenue PLL locks and pllcfg reports its final code (R144) -/
  | pllLock (dt avenue pll : Nat)
  /-- Lane training reaches LINK UP or fails at its limit, giving lanetrain its final code (R154) -/
  | trainingDone (dt lane : Nat) (ok : Bool) (ffe : BitVec 31) (ctle : BitVec 6) (snr : BitVec 10)
  /-- A lane with AUTO retraining repeats training every 100 ms until success (R154) -/
  | retrainTimer (dt lane : Nat)
  /-- A lane side completes its wake to ACTIVE (R155) -/
  | laneWakeDone (dt lane side : Nat)
  /-- The PRBS checker declares lock after 1,024 error-free bits, or loses it (R159) -/
  | prbsLock (dt lane : Nat) (levels : List Nat)
  /-- The error injector flips bits every N bits (R160) -/
  | errorInject (dt lane : Nat)
  /-- A MAC receives a frame, checks it, pre-classifies it and classifies it to a flow, forwarding entry or the Steward (R197) -/
  | macFrameRx (dt mac : Nat) (fcsOk : Bool) (frame : List Byte) (taken : Nat)
  /-- With no marker within 100 ms of the tick, the output cuts at the next packet of the new input (R248) -/
  | fwdForcedCut (dt out : Nat)
  /-- A selected forwarding input silent for 10 ms is counted and reported (R252) -/
  | fwdInputLoss (dt out : Nat)
  /-- The depacketiser releases an interface line into the Kerb, marking it incomplete if data is missing (R213) -/
  | lineRelease (dt ctx : Nat)
  /-- An ST 2022-6 datagram's words are released at arrival plus RX_OFFSET (R218) -/
  | datagramRelease (dt ctx : Nat)
  /-- A received audio sample is released at its instant plus RX_OFFSET into the pool (R219) -/
  | audioFlowRelease (dt ctx : Nat)
  /-- A receive flow context with no data for its timeout enters LOST (R209) -/
  | flowLost (dt ctx : Nat)
  /-- A leg with no packet for 1 ms while the other delivers goes DOWN (R223) -/
  | legDown (dt ctx leg : Nat)
  /-- A LATCH context re-latches its SSRC after 10 ms with no accepted packet (R217) -/
  | ssrcRelatch (dt ctx : Nat)
  /-- A transmit video packet departs at its scheduled instant (R236) -/
  | packetDeparture (dt ctx : Nat)
  /-- A transmit audio packet departs 10 µs after the instant following its last sample (R241) -/
  | audioPacketDeparture (dt ctx : Nat)
  /-- Ancillary packets of a line are sent in RFC 8331 form after the line (R242) -/
  | ancPacketDeparture (dt ctx : Nat)
  /-- An ST 2022-6 datagram departs when its last word has left the Cell (R240) -/
  | datagramDeparture (dt ctx : Nat)
  /-- A FOLLOW output with no VALID beats for 2 line periods suppresses video and ANC packets (R243) -/
  | txIdle (dt seat : Nat)
  /-- A membership query is answered within its maximum response time (R250) -/
  | mcastQueryRx (dt mac : Nat) (q : QueryIn)
  /-- The Steward sends a membership report after a classifier change, repeated at 1 s intervals (R250) -/
  | mcastReport (dt mac : Nat)
  /-- The older-version querier present interval ends compatibility mode on a MAC (R251) -/
  | mcastCompatExpiry (dt mac : Nat) (v6 : Bool)
  /-- A Sync is timestamped and an offset computed as a candidate marker (R395) -/
  | ptpSyncRx (dt mac : Nat) (p : PtpIn)
  /-- A Follow_Up completes a two-step Sync measurement (R395) -/
  | ptpFollowUpRx (dt mac : Nat) (p : PtpIn)
  /-- A Delay_Resp gives an E2E delay sample (R395) -/
  | ptpDelayRespRx (dt mac : Nat) (p : PtpIn)
  /-- An Announce is processed for parent and grandmaster matching (R397) -/
  | ptpAnnounceRx (dt mac : Nat) (p : PtpIn)
  /-- A Pdelay_Req is answered in hardware with a one-step Pdelay_Resp (R399) -/
  | pdelayReqRx (dt mac : Nat) (p : PtpIn)
  /-- A Pdelay_Resp completes a link delay measurement (R399) -/
  | pdelayRespRx (dt mac : Nat) (p : PtpIn)
  /-- The Steward sends a Delay_Req or Pdelay_Req at its interval (R395) -/
  | delayReqSend (dt kind n : Nat)
  /-- Announce timeout or missing Sync makes the instance report loss (R397) -/
  | announceTimeout (dt inst : Nat)
  /-- A candidate marker is timestamped and its phase error computed (R369) -/
  | refMarker (dt cand : Nat)
  /-- At each 1 s window candidate frequencies are measured, qualification advanced and disagreement re-evaluated (R370) -/
  | freqWindow (dt : Nat)
  /-- A candidate completes QUAL_TIME and becomes QUALIFIED (R371) -/
  | candQualified (dt cand : Nat)
  /-- A candidate with missing markers becomes MISSING, forcing reselection (R371) -/
  | candMissing (dt cand : Nat)
  /-- Wait-to-restore ends and a revertive Tower returns to the preferred candidate (R374) -/
  | wtrExpiry (dt : Nat)
  /-- The Tower holds in-lock long enough and enters LOCKED (R381) -/
  | towerInLock (dt : Nat)
  /-- A LOCKED Tower whose error exceeds limits for 1 s returns to ACQUIRE (R382) -/
  | towerReacquire (dt : Nat)
  /-- LOSC stops or leaves its range; the Lantern domain switches to the fallback oscillator and other units enter FAULT (R47) -/
  | loscFailure (dt : Nat) (synth : Bool)
  /-- A watched clock with no edge for 10 µs sets its domain's units to FAULT (R510) -/
  | clockStopped (dt domain : Nat)
  /-- An edge on a CAPT pin is captured into its ring (R405) -/
  | captEdge (dt pin : Nat) (falling : Bool)
  /-- A TAKE_IN rising edge releases the STROBE armed banks and any TAKE_IN Harvest (R103) -/
  | takeInEdge (dt : Nat)
  /-- A scheduled time-trigger edge is driven at its instant (R407) -/
  | ttEdge (dt out : Nat)
  /-- A committed ttset changes the pin at its tick plus TICK_OFFSET (R408) -/
  | ttLevelChange (dt out : Nat)
  /-- At the target instant every unit captures its counters (R470) -/
  | harvestCapture (dt : Nat)
  /-- The snapshot copy completes and the bank becomes COMPLETE (R471) -/
  | harvestDone (dt : Nat)
  /-- A sub-slot input frame completes and is written or discarded (R258) -/
  | granaryFrameComplete (dt slot sub : Nat)
  /-- At the decision instant a sub-slot chooses the stored frame to read, repeating or dropping (R260) -/
  | granaryDecision (dt slot sub : Nat) (ue : List Nat)
  /-- A sub-slot declares its input lost and enters HOLD or EMPTY (R264) -/
  | granaryInputLoss (dt slot sub : Nat)
  /-- A Winnow scaler completes a tile with its header (R281) -/
  | tileComplete (dt scaler : Nat)
  /-- At the decision instant a head chooses tiles and composes the frame (R295) -/
  | headDecision (dt head : Nat) (ue : List (Nat × Nat))
  /-- A standby lacking the active's decision by its deadline decides itself (R424) -/
  | twinDecisionTimeout (dt kind unit : Nat)
  /-- A DECISION message from the active is received and applied (R424) -/
  | decision (dt : Nat) (m : LinkMsg)
  /-- The mix engine computes a block of slot samples through the fixed chain (R314) -/
  | mixBlock (dt : Nat) (ue : List (Nat × Nat))
  /-- A source sample is assigned a pool instant, with slip handling (R359) -/
  | audioSampleTap (dt seat : Nat) (a : AudioIn)
  /-- Each 1 ms block peak is formed and detector flags updated (R346) -/
  | blockPeak (dt space ch : Nat)
  /-- The DC detector evaluates the mean of each whole second (R348) -/
  | dcSecond (dt space ch : Nat)
  /-- CLIPPED clears 1 s after the last clip (R348) -/
  | clippedClear (dt space ch : Nat)
  /-- Loudness meters report at each multiple of 100 ms (R349) -/
  | loudnessReport (dt meter : Nat)
  /-- Correlation meters report every 100 ms (R350) -/
  | correlationReport (dt meter : Nat)
  /-- An audio tap writes one record per block to the Barn (R363) -/
  | tapRecord (dt tap : Nat)
  /-- A Stook receive frame is taken and its samples tapped (R355) -/
  | stookRxFrame (dt port : Nat) (f : StookIn)
  /-- A Stook transmit frame is sent at its FS edge (R355) -/
  | stookTxFrame (dt port : Nat)
  /-- After 2 ms of silence a started Stook side ramps its samples in (R356) -/
  | stookStart (dt port side : Nat)
  /-- A stopped Stook side ramps out, sends silence and stops its clocks (R356) -/
  | stookStop (dt port side : Nat)
  /-- A SLAVE side without clock for 2 frame periods is lost (R364) -/
  | stookClockLoss (dt port side : Nat)
  /-- An AES3 receive side locks after 8 good frames or loses lock after 2 bad ones (R354) -/
  | aes3Lock (dt port : Nat) (preambles parity : Bool)
  /-- An ASRC channel locks or loses lock (R360) -/
  | asrcLock (dt unit : Nat) (lock range : Bool)
  /-- A TIMING probe updates OFFSET_MIN and OFFSET_MAX at each whole second (R140) -/
  | watchSecond (dt probe : Nat)
  /-- A Watchman CAPTURE completes and reports its final code (R140) -/
  | captureDone (dt probe : Nat)
  /-- A Ledger load completes and reports its final code (R458) -/
  | ldloadDone (dt th : Nat)
  /-- A Barn write completes and reports its final code (R455) -/
  | barnwrDone (dt th : Nat)
  /-- A LUT load completes, leaving the bank VALID or FAILED (R271) -/
  | lutloadDone (dt slot bank : Nat)
  /-- An image segment write completes; with LAST the slot is checked (R520) -/
  | imgloadDone (dt th : Nat) (flashOk : Bool)
  /-- An SVN fuse write completes and reads back (R531) -/
  | fuseBlown (dt : Nat) (ok : Bool)
  /-- The new payload is read and hash-checked and PREPARING begins (R524) -/
  | activationLoaded (dt : Nat) (ok : Bool)
  /-- The migrated settings copy is written and the activation is ARMED (R524) -/
  | activationPrepared (dt : Nat) (ok : Bool)
  /-- At the handover tick the running image serialises its state and passes control (R524) -/
  | activationHandover (dt : Nat)
  /-- The new image resumes, the boot record is written and imgactivate reports DONE (R524) -/
  | activationResumed (dt : Nat)
  /-- With no resume 20 ms after the tick, the old image is mapped back and resumes (R526) -/
  | activationAbort (dt : Nat)
  /-- The Steward watchdog expires and restarts or halts the Steward (R536) -/
  | watchdogExpiry (dt : Nat)
  /-- A woken power-gated unit reaches READY (R43) -/
  | unitWakeDone (dt unit : Nat)
  /-- A unit idle and unnamed for 1 s returns to OFF (R43) -/
  | unitIdleOff (dt unit : Nat)
  /-- A Barn channel with no claim and no access for 1 s enters self-refresh (R555) -/
  | selfRefreshEntry (dt chan : Nat)
  /-- The scrubber reads Barn locations, correcting and counting errors (R542) -/
  | barnScrub (dt chan offset result : Nat) (last : Bool)
  /-- A Barn channel enters FAULT on timeout or excess uncorrectable errors (R543) -/
  | barnChannelFault (dt chan cause : Nat)
  /-- At each 10 µs slot a paired device sends a heartbeat and samples ROLE_IN (R417) -/
  | heartbeat (dt : Nat) (roleIn : Bool)
  /-- A partner heartbeat is received, checked for time skew and role agreement (R418) -/
  | heartbeatRx (dt : Nat) (m : LinkMsg) (late : Nat) (roleIn : Bool)
  /-- A heartbeat slot with no valid heartbeat 2 µs after its instant is missing (R417) -/
  | heartbeatMissing (dt : Nat) (roleIn : Bool)
  /-- A standby takes over as ACTIVE 10 µs after the third missing slot (R431) -/
  | takeover (dt : Nat) (roleIn : Bool)
  /-- TAKEOVER_HOLD ends and status fields follow the device again (R434) -/
  | takeoverHoldEnd (dt : Nat)
  /-- A standby receives a manifest and assigns its effects to the tick (R422) -/
  | manifestRx (dt : Nat) (m : LinkMsg)
  /-- A standby with no manifest by curfew + 10 µs resolves by its own staging (R423) -/
  | manifestOwn (dt plan : Nat)
  /-- A standby missing manifest effects at curfew + 40 µs leaves IN_STEP (R422) -/
  | manifestLate (dt plan : Nat)
  /-- A partner compare record is received and compared (R426) -/
  | compareRx (dt : Nat) (m : LinkMsg)
  /-- A record with no partner after 1 ms counts as uncompared (R426) -/
  | uncompared (dt : Nat)
  /-- A SUSPECT message with fault evidence is received and the suspect marked (R429) -/
  | suspect (dt : Nat) (m : LinkMsg)
  /-- After 1 ms of SEEKING the device takes its role (R436) -/
  | pairSeekTimeout (dt : Nat) (roleIn : Bool)
  /-- A REPLICA message of the active's state is received and loaded (R437) -/
  | replica (dt : Nat) (m : LinkMsg)
  /-- The standby catches up and the active sends STEP naming tick J (R437) -/
  | replicationCaughtUp (dt : Nat)
  /-- A STEP message naming the step tick and gain state is received (R437) -/
  | stepMsg (dt : Nat) (m : LinkMsg)
  /-- At tick J the standby makes the replicated state current and enters IN_STEP (R437) -/
  | stepCommit (dt : Nat)
  /-- Replication exceeding 2 s restarts from step 1 (R437) -/
  | replicationTimeout (dt : Nat)
  /-- A forwarded or queue-8 errand arrives over the Alley and enters its queue (R419) -/
  | alleyErrand (dt : Nat) (m : LinkMsg)
  /-- A queue-8 reply from the partner is posted in the local reply ring (R495) -/
  | alleyReply (dt : Nat) (m : LinkMsg)
  /-- A BULK message writes a bulk table or Ledger load (R83) -/
  | alleyBulk (dt : Nat) (m : LinkMsg)
  /-- An ACK frees an acknowledged Alley message (R416) -/
  | alleyAck (dt : Nat) (m : LinkMsg)
  /-- A NAK causes the named Alley message to be sent again (R416) -/
  | alleyNak (dt : Nat) (m : LinkMsg)
  /-- With fewer than 2 Alley lanes up the Alley goes DOWN (R415) -/
  | alleyDown (dt : Nat)
  /-- A Footpath HELLO is sent every 1 ms (R521) -/
  | hello (dt : Nat)
  /-- A Footpath HELLO keeps the link UP and checks node identity (R521) -/
  | helloRx (dt link : Nat) (m : LinkMsg)
  /-- A Footpath link with no HELLO for 3 ms goes DOWN (R521) -/
  | fpLinkDown (dt link : Nat)
  /-- Ring messages held for a down link are discarded after 100 ms (R537) -/
  | fpHoldDiscard (dt link : Nat)
  /-- A ring ERRAND is forwarded or delivered to queue 9 (R522) -/
  | fpErrand (dt : Nat) (m : LinkMsg)
  /-- A ring REPLY is forwarded or delivered at its origin (R522) -/
  | fpReply (dt : Nat) (m : LinkMsg)
  /-- A ring BULK table is forwarded or delivered (R522) -/
  | fpBulk (dt : Nat) (m : LinkMsg)
  /-- A ring SEGMENT is forwarded and written to the local inactive slot (R523) -/
  | segment (dt : Nat) (m : LinkMsg)
  /-- A ring REPORT reaches the origin's report table (R523) -/
  | reportMsg (dt : Nat) (m : LinkMsg)
  /-- A Footpath ACK frees an acknowledged message (R521) -/
  | fpAck (dt link : Nat) (m : LinkMsg)
  /-- A Footpath NAK causes a message to be sent again (R521) -/
  | fpNak (dt link : Nat) (m : LinkMsg)
  /-- The release of RESET_N samples the pins and runs the boot sequence to RUNNING or recovery (R513) -/
  | resetRelease (dt : Nat) (r : ResetIn)
  /-- PWRGOOD falling puts the device in reset within 1 µs (R553) -/
  | pwrgoodFall (dt lowNs : Nat)
  /-- RESET_N or PWRGOOD low for 100 ns resets the device (R580) -/
  | resetAssert (dt lowNs : Nat)
  /-- An acknowledged Alley or Footpath message that no ACK has answered is sent again, up to the retry limits of R437 and R537 (R416) -/
  | retransmitTimeout (dt link : Nat)
  /-- Every 1 ms telemetry samples each rail's voltage and current and the 8 die temperatures into the power status fields (R558) -/
  | telemetrySample (dt : Nat) (mv ma : List Nat) (tj : List Int)
  /-- Once per second the fields covering the previous second, such as LEAD_MIN, LEAD_MAX, SKEW_MAX and LOAD_PEAK, are updated (R226) -/
  | previousSecondUpdate (dt : Nat)
  /-- A host transfer whose command byte or code is unknown is ignored, sets the GETSTATUS protocol error bit, counts in BAD_CMD and posts HOST_BAD_CMD (R500) -/
  | unknownCommand (dt : Nat)
  /-- An instruction word whose OPCODE is not in Table 16.5 is executed and returns FORMAT (R444) -/
  | unlistedOpcode (i : Issue)
  /-- A JTAG access through the debug master reads the host windows, and in HALT has the port fully open (R586) -/
  | jtagAccess (dt addr n : Nat) (write : Option Word)
deriving DecidableEq, Repr

end Sys2Proof
end

