-- ==== Sys2Proof/Machine/Crypto.lean ====
section
/-!
DEFINITION. The two standard computations that the check of an image rests on (R515, R516): SHA-384 (FIPS 180-4) and the
verification of an ECDSA signature over P-384 (FIPS 186-5). The constants of SHA-384 are computed from their definition, the
fractional parts of the roots of the first primes; the curve's are those of the standard (notes/assumptions/28.md).
-/
namespace Sys2Proof.Machine

namespace Sha

/-- The first `n` primes from `k` on, by trial division, with `fuel` candidates. -/
def primesFrom : Nat → Nat → List Nat → List Nat
  | 0, _, acc => acc
  | fuel + 1, k, acc => primesFrom fuel (k + 1) (if acc.any fun p => k % p == 0 then acc else acc ++ [k])
/-- The primes below 410: 80 of them. -/
def primes : List Nat := primesFrom 408 2 []

/-- Largest r below 2^bits with r^e ≤ n. -/
def root (e n : Nat) : Nat → Nat → Nat
  | 0, r => r
  | b + 1, r => let c := r + 2 ^ b; root e n b (if c ^ e ≤ n then c else r)

/-- First 64 bits of the fractional part of the cube root of each of the 80 primes. -/
def roundK : List Word := primes.map fun p => BitVec.ofNat 64 (root 3 (p * 2 ^ 192) 68 0)
/-- First 64 bits of the fractional part of the square roots of the ninth to sixteenth primes. -/
def initH : List Word := ((primes.drop 8).take 8).map fun p => BitVec.ofNat 64 (root 2 (p * 2 ^ 128) 68 0)

def bigS0 (x : Word) : Word := x.rotateRight 28 ^^^ x.rotateRight 34 ^^^ x.rotateRight 39
def bigS1 (x : Word) : Word := x.rotateRight 14 ^^^ x.rotateRight 18 ^^^ x.rotateRight 41
def smallS0 (x : Word) : Word := x.rotateRight 1 ^^^ x.rotateRight 8 ^^^ (x >>> 7)
def smallS1 (x : Word) : Word := x.rotateRight 19 ^^^ x.rotateRight 61 ^^^ (x >>> 6)

/-- The message schedule, newest word first: `n` more words. -/
def extend : Nat → List Word → List Word
  | 0, w => w
  | n + 1, w => extend n ((smallS1 (w.getD 1 0) + w.getD 6 0 + smallS0 (w.getD 14 0) + w.getD 15 0) :: w)

/-- One round on the eight working variables. -/
def round (v : List Word) (kw : Word × Word) : List Word :=
  match v with
  | [a, b, c, d, e, f, g, h] =>
    let t1 := h + bigS1 e + ((e &&& f) ^^^ (~~~e &&& g)) + kw.1 + kw.2
    let t2 := bigS0 a + ((a &&& b) ^^^ (a &&& c) ^^^ (b &&& c))
    [t1 + t2, a, b, c, d + t1, e, f, g]
  | _ => v

/-- One block of 16 words. -/
def block (ks h ws : List Word) : List Word :=
  let w := (extend 64 ws.reverse).reverse
  ((ks.zip w).foldl round h).zipWith (· + ·) h

/-- Big-endian number of bytes. -/
def be (l : List Byte) : Nat := l.foldl (fun a b => a * 256 + b.toNat) 0
/-- Words of a block. -/
def wordsBE : Nat → List Byte → List Word
  | 0, _ => []
  | n + 1, l => BitVec.ofNat 64 (be (l.take 8)) :: wordsBE n (l.drop 8)
/-- All blocks. -/
def blocks (ks : List Word) : Nat → List Word → List Byte → List Word
  | 0, h, _ => h
  | n + 1, h, l => blocks ks n (block ks h (wordsBE 16 (l.take 128))) (l.drop 128)

/-- SHA-384 of a byte string, as a 384-bit number. -/
def sha384 (m : List Byte) : Nat :=
  let zeros := (239 - m.length % 128) % 128
  let len := (List.range 16).map fun (i : Nat) => BitVec.ofNat 8 (8 * m.length / 256 ^ (15 - i))
  let p := m ++ (0x80 : Byte) :: List.replicate zeros (0 : Byte) ++ len
  ((blocks roundK (p.length / 128) initH p).take 6).foldl (fun a w => a * 2 ^ 64 + w.toNat) 0

end Sha

namespace P384

def p : Nat := 2 ^ 384 - 2 ^ 128 - 2 ^ 96 + 2 ^ 32 - 1
def b : Nat := 0xb3312fa7e23ee7e4988e056be3f82d19181d9c6efe8141120314088f5013875ac656398d8a2ed19d2a85c8edd3ec2aef
def n : Nat := 0xffffffffffffffffffffffffffffffffffffffffffffffffc7634d81f4372ddf581a0db248b0a77aecec196accc52973
def gx : Nat := 0xaa87ca22be8b05378eb1c71ef320ad746e1d3b628ba79b9859f741e082542a385502f25dbf55296c3a545e3872760ab7
def gy : Nat := 0x3617de4a96262c6f5d9e98bf9292dc29f8f41dbd289a147ce9da3113b5f0b8c00a60b1ce1d7e819d7a431d7c90ea0e5f

/-- a^e mod m, by the low `k` bits of e. -/
def pow (m : Nat) : Nat → Nat → Nat → Nat
  | 0, _, _ => 1
  | k + 1, a, e =>
    let r := pow m k (a * a % m) (e / 2)
    if e % 2 = 1 then a * r % m else r
/-- Inverse modulo a prime. -/
def inv (m a : Nat) : Nat := pow m 384 (a % m) (m - 2)
def sub (a c : Nat) : Nat := (a + (p - c % p)) % p

/-- Sum of two points; none is the point at infinity. -/
def add : Option (Nat × Nat) → Option (Nat × Nat) → Option (Nat × Nat)
  | none, q => q
  | q, none => q
  | some (x1, y1), some (x2, y2) =>
    if x1 = x2 ∧ (y1 + y2) % p = 0 then none
    else
      let l := if x1 = x2 then sub (3 * x1 * x1) 3 * inv p (2 * y1) % p else sub y2 y1 * inv p (sub x2 x1) % p
      let x3 := sub (l * l) (x1 + x2)
      some (x3, sub (l * sub x1 x3) y1)

/-- k times a point, by the low `j` bits of k. -/
def mul : Nat → Nat → Option (Nat × Nat) → Option (Nat × Nat)
  | 0, _, _ => none
  | j + 1, k, q =>
    let r := mul j (k / 2) (add q q)
    if k % 2 = 1 then add q r else r

/-- The point lies on the curve. -/
def onCurve (x y : Nat) : Bool := decide (x < p) && decide (y < p) && y * y % p == (x * x % p * x + sub 0 (3 * x) + b) % p

/-- The signature (r, s) of digest `e` verifies under the public key (qx, qy). -/
def verify (qx qy e r s : Nat) : Bool :=
  if r = 0 ∨ n ≤ r ∨ s = 0 ∨ n ≤ s ∨ onCurve qx qy = false then false
  else
    let w := inv n s
    match add (mul 384 (e * w % n) (some (gx, gy))) (mul 384 (r * w % n) (some (qx, qy))) with
    | none => false
    | some (x, _) => x % n == r

end P384

end Sys2Proof.Machine
end

