-- ==== Sys2Proof/Machine/Counters.lean ====
section
/-!
DEFINITION. The places of the Gleaner counters in the lists of their unit classes (R463, R570); the rule that
lists them is named at each class.
-/
namespace Sys2Proof.Machine.Ctr

/-! Kerb: R76. -/
def Kerb.LINES_CONCEALED : Nat := 0
def Kerb.LOSS : Nat := 1
def Kerb.OUTSIDE : Nat := 2
def Kerb.RASTER : Nat := 3
/-! Thread: R96. -/
def Thread.FINAL_DONE : Nat := 0
def Thread.FINAL_LATE : Nat := 1
def Thread.FINAL_CONFLICT : Nat := 2
def Thread.FINAL_FAULT : Nat := 3
def Thread.FINAL_OTHER : Nat := 4
/-! Queue: R92. -/
def Queue.ERRANDS : Nat := 0
def Queue.INTEGRITY : Nat := 1
def Queue.FORMAT : Nat := 2
def Queue.SEQ_GAPS : Nat := 3
def Queue.RETRANSMITS : Nat := 4
/-! Cell: R115. -/
def Cell.TAKES : Nat := 0
def Cell.CONFLICTS : Nat := 1
def Cell.LOSS_ENTRIES : Nat := 2
def Cell.FALLBACK_LINES : Nat := 3
def Cell.FOLLOW_CUTS : Nat := 4
def Cell.FOLLOW_TIMEOUTS : Nat := 5
def Cell.DISTURBED_FRAMES : Nat := 6
/-! SBundle: R131. -/
def SBundle.SLIP_LINES : Nat := 0
/-! Lane: R163, then R195. -/
def Lane.PRBS_BITS : Nat := 0
def Lane.PRBS_ERRORS : Nat := 1
def Lane.PRBS_SYMBOL_ERRORS : Nat := 2
def Lane.INJECTED : Nat := 3
def Lane.FEC_CODEWORDS : Nat := 4
def Lane.FEC_CORRECTED_SYMBOLS : Nat := 5
def Lane.FEC_UNCORRECTABLE : Nat := 6
def Lane.LOS_ENTRIES : Nat := 7
def Lane.CDR_LOSS : Nat := 8
def Lane.DEGRADE_ENTRIES : Nat := 9
def Lane.TRAIN_ATTEMPTS : Nat := 10
def Lane.TRAIN_FAILS : Nat := 11
def Lane.WAKES : Nat := 12
def Lane.CW_LOCK_LOSS : Nat := 13
def Lane.FAW_ERRORS : Nat := 14
def Lane.FRAME_LOSS : Nat := 15
/-! Avenue: R163. -/
def Avenue.PLL_LOSS : Nat := 0
/-! Trib: R195. -/
def Trib.RX_LINES : Nat := 0
def Trib.RX_TRS_ERRORS : Nat := 1
def Trib.RX_LN_ERRORS : Nat := 2
def Trib.RX_CRC_ERRORS : Nat := 3
def Trib.RX_EDH_ERRORS : Nat := 4
def Trib.RX_ANC_CHECKSUM_ERRORS : Nat := 5
def Trib.RX_PID_ERRORS : Nat := 6
def Trib.RX_PID_MISMATCH : Nat := 7
def Trib.WORD_REALIGNS : Nat := 8
def Trib.RATEWORD_ERRORS : Nat := 9
def Trib.RATE_DEVIATIONS : Nat := 10
def Trib.STATUS_PARITY_ERRORS : Nat := 11
def Trib.STATUS_RESERVED : Nat := 12
def Trib.SENDER_CRC_FRAMES : Nat := 13
def Trib.SENDER_SLIPS : Nat := 14
def Trib.BC_MESSAGES : Nat := 15
def Trib.BC_ERRORS : Nat := 16
def Trib.BC_SEQ_GAPS : Nat := 17
def Trib.BC_OUT_CRC : Nat := 18
def Trib.BC_SRC_CRC : Nat := 19
def Trib.TX_LINES : Nat := 20
def Trib.TX_LERR_LINES : Nat := 21
def Trib.TX_SQUELCH_ENTRIES : Nat := 22
def Trib.RATE_MISMATCH : Nat := 23
/-! Rx: R226, R335, R365. -/
def Rx.PACKETS_A : Nat := 0
def Rx.PACKETS_B : Nat := 1
def Rx.DUPLICATES : Nat := 2
def Rx.A_ONLY : Nat := 3
def Rx.B_ONLY : Nat := 4
def Rx.LOST_PACKETS : Nat := 5
def Rx.LATE_PACKETS : Nat := 6
def Rx.OVERFLOW_PACKETS : Nat := 7
def Rx.FORMAT_ERRORS : Nat := 8
def Rx.PT_REJECTS : Nat := 9
def Rx.SSRC_REJECTS : Nat := 10
def Rx.SEQ_RESETS : Nat := 11
def Rx.LINES_INCOMPLETE : Nat := 12
def Rx.GROUP_SLIP_LINES : Nat := 13
def Rx.ANC_DROPS : Nat := 14
def Rx.SAMPLES_CONCEALED : Nat := 15
def Rx.SLIPS_REPEAT : Nat := 16
def Rx.SLIPS_DROP : Nat := 17
def Rx.RATE_ERRORS : Nat := 18
def Rx.ASRC_UNLOCKS : Nat := 19
def Rx.TWIN_AUDIO_OWN : Nat := 20
/-! Mac: R226, R253, R411. -/
def Mac.RX_FRAMES : Nat := 0
def Mac.RX_BYTES : Nat := 1
def Mac.RX_FCS_ERRORS : Nat := 2
def Mac.RX_RUNTS : Nat := 3
def Mac.RX_OVERSIZE : Nat := 4
def Mac.RX_DA_MISMATCH : Nat := 5
def Mac.RX_STAG_DROPS : Nat := 6
def Mac.RX_PAUSE : Nat := 7
def Mac.RX_IP_HDR_ERRORS : Nat := 8
def Mac.RX_FRAGMENTS : Nat := 9
def Mac.RX_UNCLASSIFIED : Nat := 10
def Mac.RX_STEWARD : Nat := 11
def Mac.RX_STEWARD_DROPS : Nat := 12
def Mac.TX_FRAMES : Nat := 13
def Mac.TX_BYTES : Nat := 14
def Mac.MCAST_RX_ERRORS : Nat := 15
def Mac.MCAST_FOREIGN_QUERIES : Nat := 16
def Mac.MCAST_COMPAT_ENTRIES : Nat := 17
def Mac.MCAST_SSM_BLOCKED : Nat := 18
def Mac.MCAST_REPORTS : Nat := 19
def Mac.TC_FORWARDED : Nat := 20
def Mac.TC_SATURATED : Nat := 21
def Mac.TC_MECH_DROPS : Nat := 22
def Mac.PDELAY_RX : Nat := 23
def Mac.PDELAY_EXCESS : Nat := 24
/-! Cls: R226. -/
def Cls.HITS : Nat := 0
/-! Tx: R253. -/
def Tx.PACKETS_A : Nat := 0
def Tx.PACKETS_B : Nat := 1
def Tx.BYTES : Nat := 2
def Tx.TX_LATE_PACKETS : Nat := 3
def Tx.TX_LINK_DROPS : Nat := 4
def Tx.TX_IDLE_ENTRIES : Nat := 5
def Tx.TS_HOLDS : Nat := 6
def Tx.FORMAT_MISMATCH_FRAMES : Nat := 7
/-! Fwd: R253. -/
def Fwd.PACKETS_A : Nat := 0
def Fwd.PACKETS_B : Nat := 1
def Fwd.FWD_OVERSIZE : Nat := 2
def Fwd.FWD_FORMAT_ERRORS : Nat := 3
def Fwd.FWD_INPUT_LOSS : Nat := 4
def Fwd.FWD_FORCED_CUTS : Nat := 5
/-! Sub: R276. -/
def Sub.FRAMES_WRITTEN : Nat := 0
def Sub.FRAMES_READ : Nat := 1
def Sub.REPEATS : Nat := 2
def Sub.DROPS : Nat := 3
def Sub.INCOMPLETE_FRAMES : Nat := 4
def Sub.DISCARDED_FRAMES : Nat := 5
def Sub.CONCEALED_LINES : Nat := 6
def Sub.RATE_ERRORS : Nat := 7
def Sub.HOLD_ENTRIES : Nat := 8
def Sub.LOSS_ENTRIES : Nat := 9
def Sub.RESUMES : Nat := 10
def Sub.HOLD_FRAMES_OUT : Nat := 11
def Sub.ANC_OVERFLOW : Nat := 12
def Sub.ECC_LINES : Nat := 13
def Sub.TWIN_CHOICES_OWN : Nat := 14
/-! DBundle: R276, slot bundles. -/
def DBundle.SLIP_FRAMES : Nat := 0
def DBundle.SKEW_ERRORS : Nat := 1
/-! Scaler: R300. -/
def Scaler.TILES_WRITTEN : Nat := 0
def Scaler.INCOMPLETE_FRAMES : Nat := 1
/-! Layer: R300. -/
def Layer.NOT_READY_FRAMES : Nat := 0
def Layer.FALLBACK_ENTRIES : Nat := 1
def Layer.FALLBACK_FRAMES_OUT : Nat := 2
def Layer.ECC_LINES : Nat := 3
def Layer.TWIN_CHOICES_OWN : Nat := 4
/-! Head: R300. -/
def Head.FRAMES : Nat := 0
def Head.COMMITS : Nat := 1
def Head.TAPDROPS : Nat := 2
def Head.BARN_FRAMES : Nat := 3
/-! Slot: R335, then R365. -/
def Slot.MIX_CLIPS : Nat := 0
def Slot.XFADE_TRUNCATIONS : Nat := 1
def Slot.LIMIT_SAMPLES : Nat := 2
def Slot.OUT_CLIPS : Nat := 3
def Slot.DELAY_CHANGES : Nat := 4
def Slot.ECC_SAMPLES : Nat := 5
def Slot.CLIPS : Nat := 6
def Slot.SILENT_ENTRIES : Nat := 7
/-! Emb: R335. -/
def Emb.FADES : Nat := 0
def Emb.FADE_TRUNCATIONS : Nat := 1
def Emb.GROUPS_DROPPED : Nat := 2
/-! Deemb: R335, R365. -/
def Deemb.SAMPLES : Nat := 0
def Deemb.SAMPLES_CONCEALED : Nat := 1
def Deemb.GROUP_RATE_ERRORS : Nat := 2
def Deemb.SLIPS_REPEAT : Nat := 3
def Deemb.SLIPS_DROP : Nat := 4
def Deemb.RATE_ERRORS : Nat := 5
def Deemb.ASRC_UNLOCKS : Nat := 6
def Deemb.TWIN_AUDIO_OWN : Nat := 7
/-! Mix: R335. -/
def Mix.MIX_CUTS : Nat := 0
/-! Ach: R365. -/
def Ach.CLIPS : Nat := 0
def Ach.SILENT_ENTRIES : Nat := 1
/-! StookPort: R335. -/
def StookPort.SAMPLES_CONCEALED : Nat := 0
/-! Stook: R365. -/
def Stook.SLIPS_REPEAT : Nat := 0
def Stook.SLIPS_DROP : Nat := 1
def Stook.RATE_ERRORS : Nat := 2
def Stook.ASRC_UNLOCKS : Nat := 3
def Stook.TWIN_AUDIO_OWN : Nat := 4
def Stook.STARTS : Nat := 5
def Stook.CLOCK_LOSS : Nat := 6
def Stook.FRAMING_ERRORS : Nat := 7
def Stook.AES_LOCK_LOSS : Nat := 8
def Stook.PARITY_ERRORS : Nat := 9
def Stook.CS_CRC_ERRORS : Nat := 10
def Stook.VALIDITY_SET : Nat := 11
/-! Tap: R365. -/
def Tap.RECORDS : Nat := 0
/-! Tower: R388. -/
def Tower.SWITCHES : Nat := 0
def Tower.HOLDOVER_ENTRIES : Nat := 1
def Tower.FREERUN_ENTRIES : Nat := 2
def Tower.REACQUIRES : Nat := 3
def Tower.STEPS : Nat := 4
def Tower.DISAGREE_ENTRIES : Nat := 5
def Tower.TWIN_SELECT_OWN : Nat := 6
/-! Cand: R388. -/
def Cand.QUALIFICATIONS : Nat := 0
def Cand.DISQUALIFICATIONS : Nat := 1
def Cand.MISSING_MARKERS : Nat := 2
def Cand.SPURIOUS_MARKERS : Nat := 3
/-! Capt: R406. -/
def Capt.CAPTURES : Nat := 0
def Capt.CAPT_MISSED : Nat := 1
/-! Ptp: R411. -/
def Ptp.SYNC_RX : Nat := 0
def Ptp.FOLLOWUP_RX : Nat := 1
def Ptp.DELAY_REQ_TX : Nat := 2
def Ptp.DELAY_RESP_RX : Nat := 3
def Ptp.ANNOUNCE_RX : Nat := 4
def Ptp.PTP_TIMEOUTS : Nat := 5
def Ptp.PTP_UNMATCHED : Nat := 6
def Ptp.PTP_ANNOUNCE_REJECTS : Nat := 7
def Ptp.PTP_GM_REJECTS : Nat := 8
def Ptp.OUTLIERS : Nat := 9
def Ptp.NEG_DELAY : Nat := 10
def Ptp.PTP_FORMAT : Nat := 11
def Ptp.PTP_CHECKSUM : Nat := 12
/-! Twin: R443. -/
def Twin.HB_TX : Nat := 0
def Twin.HB_RX : Nat := 1
def Twin.HB_ERRORS : Nat := 2
def Twin.HB_SEQ_GAPS : Nat := 3
def Twin.ALLEY_RETRANSMITS : Nat := 4
def Twin.ERRANDS_FORWARDED : Nat := 5
def Twin.MANIFEST_LATE : Nat := 6
def Twin.MANIFEST_OWN : Nat := 7
def Twin.CODE_DIVERGE : Nat := 8
def Twin.LINES_COMPARED : Nat := 9
def Twin.LINE_MISMATCHES : Nat := 10
def Twin.BLOCKS_COMPARED : Nat := 11
def Twin.BLOCK_MISMATCHES : Nat := 12
def Twin.UNCOMPARED : Nat := 13
def Twin.FOLLOW_REALIGNS : Nat := 14
def Twin.TWIN_TS_OWN : Nat := 15
def Twin.TAKEOVERS : Nat := 16
def Twin.YIELDS : Nat := 17
def Twin.DUAL_ACTIVE : Nat := 18
def Twin.TWIN_LOST_ENTRIES : Nat := 19
def Twin.REPLICATIONS : Nat := 20
def Twin.REPLICATION_FAILS : Nat := 21
def Twin.SIDE_CLASHES : Nat := 22
def Twin.VERSION_REFUSALS : Nat := 23
def Twin.ROLE_FAULTS : Nat := 24
def Twin.TIME_SKEW : Nat := 25
def Twin.ALLEY_DOWN_ENTRIES : Nat := 26
/-! Harv: R474. -/
def Harv.HARVESTS : Nat := 0
def Harv.HARVEST_SUPERSEDED : Nat := 1
def Harv.HARVEST_LATE : Nat := 2
/-! Crier: R479. -/
def Crier.EVENTS_POSTED : Nat := 0
def Crier.EVENTS_SUPPRESSED : Nat := 1
def Crier.EVENTS_DISCARDED : Nat := 2
def Crier.CRIER_PTR_ERRORS : Nat := 3
/-! HostP: R501. -/
def HostP.WRITES : Nat := 0
def HostP.READS : Nat := 1
def HostP.PARITY_ERRORS : Nat := 2
def HostP.BAD_CMD : Nat := 3
def HostP.QUEUE_FULL : Nat := 4
def HostP.REPLY_FULL : Nat := 5
def HostP.BAD_ADDR : Nat := 6
def HostP.RO_WRITES : Nat := 7
def HostP.EARLY_READS : Nat := 8
def HostP.CCC_UNSUPPORTED : Nat := 9
def HostP.IBI_SENT : Nat := 10
def HostP.IBI_NACKED : Nat := 11
def HostP.PORT_RESETS : Nat := 12
def HostP.PTR_ERRORS : Nat := 13
/-! Master: R506. -/
def Master.TRANSACTIONS : Nat := 0
def Master.DRAINED_BEATS : Nat := 1
/-! Target: R506. -/
def Target.GRANTS : Nat := 0
def Target.WAIT_CYCLES : Nat := 1
/-! Boot: R538. -/
def Boot.WATCHDOG_RESETS : Nat := 0
def Boot.ROLLBACKS : Nat := 1
def Boot.ACTIVATIONS : Nat := 2
def Boot.ACTIVATION_ABORTS : Nat := 3
def Boot.IMAGE_SEGMENTS : Nat := 4
def Boot.RING_SKIPPED : Nat := 5
def Boot.RING_REPORTS : Nat := 6
/-! FpLink: R538, each Footpath link. -/
def FpLink.FP_CRC_ERRORS : Nat := 16
def FpLink.FP_FORMAT_ERRORS : Nat := 17
def FpLink.FP_LINK_DOWNS : Nat := 18
def FpLink.FP_NODE_CLASHES : Nat := 19
def FpLink.FP_HOPS_EXPIRED : Nat := 20
def FpLink.FP_QUEUE_FULL : Nat := 21
def FpLink.FP_RETRY_FAILS : Nat := 22
def FpLink.FP_FORWARDED : Nat := 23
def FpLink.FP_DELIVERED : Nat := 24
/-! Chan: R562. -/
def Chan.CE_READS : Nat := 0
def Chan.UE_READS : Nat := 1
def Chan.SCRUB_PASSES : Nat := 2
def Chan.BG_BYTES : Nat := 3
def Chan.REFUSALS : Nat := 4

end Sys2Proof.Machine.Ctr
end

