-- ==== Sys2Proof/Config.lean ====
section
/-!
DEFINITION. What the implementation fixes, and the free values. Time is counted in grains, a unit in which every
instant the spec computes as an exact fraction is a whole number (R54, R56, R60). An opaque constant has no body:
nothing can evaluate it, and a claim holds whatever it is.
-/
namespace Sys2Proof.Config

/-- Grains in one second. The number is a common multiple that makes frame periods, line periods, EAV durations,
nanoseconds, 2^-16 ns and the 96 kHz audio grid whole (DESIGN CHOICE, notes/assumptions/2.md). -/
def second : Nat := 12165120000000000000
/-- Grains in one nanosecond. -/
def ns : Nat := 12165120000
/-- Grains in one microsecond. -/
def us : Nat := 12165120000000
/-- Grains in one millisecond. -/
def ms : Nat := 12165120000000000

/-- Silicon revision of the die (Table 21.7): fixed per die, not stated by the spec. -/
opaque siliconRev : BitVec 12
/-- Grade of the die (Table 21.7, R5). -/
opaque grade : BitVec 1
/-- Unique die identifier (Table 21.7). -/
opaque dieId : BitVec 64
/-- A fresh free value for each index: a value the spec leaves open (notes/assumptions/6.md). -/
opaque freeValue : Nat → Nat
/-- Coefficient of a LINEAR_DB ramp between gains of opposite polarity, for the sample index and the two end
coefficients: the spec gives none (R321; notes/assumptions/18.md). -/
opaque dbThroughZero : Nat → Int → Int → Int
/-- COUNTER_BASE of a unit: device-assigned (Table 1.7, Table 21.8). -/
opaque counterBase : Nat → BitVec 32
/-- SNAPSHOT_INDEX of a unit: device-assigned (Table 1.7). -/
opaque snapshotIndex : Nat → BitVec 20
/-- Entry 64y + x of the fixed blue-noise permutation (R297): its values are not in the spec. -/
opaque blueNoise : Nat → BitVec 12
/-- Whether a picture or tile component whose exact value `n / d` is no whole number is rounded up: the spec names no
rounding inside a stage (R269, R279, R287; notes/assumptions/29.md). -/
opaque roundUp : Int → Nat → Bool
/-- HUE turns Cb towards Cr, or the other way: the spec gives no sense of rotation (Table 9.7). -/
opaque hueTowardsCr : Bool
/-- Dots of the TIME digits: symbol (0 to 9, 10 the colon), SIZE, x and y within the cell (R289 gives no shapes). -/
opaque glyph : Nat → Nat → Nat → Nat → Bool
/-- Dots of the SOURCE_LOST diagonals at x and at the line modulo their spacing of 32 (Table 4.7). -/
opaque diagonal : Nat → Nat → Bool
/-- Component `c` of HDR_BARS (ITU-R BT.2111) at x, y for a COLOUR, range, width and height: a 10-bit code (Table 4.7). -/
opaque hdrBars : Nat → Bool → Nat → Nat → Nat → Nat → Nat → BitVec 10
/-- Component `c` of CHECKFIELD in RGB sampling at x, y: the spec names the YCbCr check field only (Table 4.7). -/
opaque checkRgb : Nat → Nat → Nat → BitVec 10
/-- Where the MOTION bar of a generator stands at frame 0, and its component `c` (Table 4.7 gives neither). -/
opaque motionStart : Nat → Nat
opaque motionColour : Nat → BitVec 10

end Sys2Proof.Config
end

