-- ==== Sys2Proof/Machine/Field.lean ====
section
/-!
DEFINITION. Register fields and the tables that hold the state of the many units. A field is named by its place
in its class's field list, its width, whether it is two's complement, and its reset value; a table is a sorted
list of keyed values in one canonical form (keys strictly rising, no entry equal to what an unlisted key reads as).
-/
namespace Sys2Proof.Machine

/-- A register field of a unit class or element class: place in the class's list, width in bits (0: an internal
quantity with no register width), signedness and reset value. -/
structure Field where
  pos : Nat
  width : Nat
  signed : Bool
  reset : Int
deriving DecidableEq, Repr

/-- A parameter of a configuration instruction: the field it writes, and the range of its parameter table with
one further permitted code where the table gives one (such as 0xFFF). -/
structure Param where
  fld : Field
  lo : Int
  hi : Int
  also : Option Int
deriving DecidableEq, Repr

/-- The value reduced to the field's width: modulo 2^width, two's complement where the field is signed. -/
def Field.norm (f : Field) (v : Int) : Int :=
  if f.width = 0 then v
  else if f.signed then (v + 2 ^ (f.width - 1)) % 2 ^ f.width - 2 ^ (f.width - 1)
  else v % 2 ^ f.width

/-- The bits of a field's value, as a register or parameter word carries them. -/
def Field.bits (f : Field) (v : Int) : Nat := (v % 2 ^ f.width).toNat

/-- The value that a bit pattern spells in a field. -/
def Field.ofBits (f : Field) (b : Nat) : Int := f.norm (b : Int)

/-- The parameter's value lies in its range. -/
def Param.ok (p : Param) (v : Int) : Bool :=
  (decide (p.lo ≤ v) && decide (v ≤ p.hi)) || p.also == some v

/-- A key of a table: a unit or element and a place within it. -/
structure Key where
  unit : Nat
  pos : Nat
deriving DecidableEq, Repr

/-- Lexicographic order of keys. -/
def Key.lt (a b : Key) : Bool := a.unit < b.unit || (a.unit == b.unit && a.pos < b.pos)

/-- A table of values by key. -/
abbrev Tbl (α : Type) := List (Key × α)

/-- What the table holds at `k`, `d` where nothing is listed. -/
def Tbl.get {α : Type} (k : Key) (d : α) : Tbl α → α
  | [] => d
  | (k', v) :: t => if k = k' then v else Tbl.get k d t

/-- The table with `v` listed at `k`, in key order. -/
def Tbl.put {α : Type} (k : Key) (v : α) : Tbl α → Tbl α
  | [] => [(k, v)]
  | (k', v') :: t =>
    if k = k' then (k, v) :: t
    else if k.lt k' then (k, v) :: (k', v') :: t
    else (k', v') :: Tbl.put k v t

/-- The table with nothing listed at `k`. -/
def Tbl.del {α : Type} (k : Key) : Tbl α → Tbl α
  | [] => []
  | (k', v) :: t => if k = k' then Tbl.del k t else (k', v) :: Tbl.del k t

/-- The table holding `v` at `k`, where `d` is what an unlisted key reads as. -/
def Tbl.set {α : Type} [DecidableEq α] (k : Key) (d v : α) (t : Tbl α) : Tbl α :=
  if v = d then Tbl.del k t else Tbl.put k v t

/-- The keys of the table rise strictly. -/
def Tbl.wf {α : Type} : Tbl α → Bool
  | [] => true
  | [_] => true
  | (k, _) :: (k', v') :: t => k.lt k' && Tbl.wf ((k', v') :: t)

end Sys2Proof.Machine
end

