-- ==== Sys2Proof/Machine/Regs.lean ====
section
/-!
DEFINITION. The register fields of every unit and element class, from the field tables of spec/ (the table is
named at each class), and the parameters of every configuration instruction, in the order and at the widths of
its parameter table, with the range the table gives (R446, R447, R567). A parameter that is also shown as a
status field IS that field (one home per register); the others are fields of their own, whose reset value is
the table's default (R568).
-/
namespace Sys2Proof.Machine


/-! ### Plan (status Table 2.6) -/
def Plan.STATE : Field := ⟨1, 3, false, 0⟩
def Plan.RASTER : Field := ⟨2, 6, false, 0⟩
def Plan.TICK_UNIT : Field := ⟨3, 1, false, 0⟩
def Plan.PHASE_NOW : Field := ⟨4, 32, true, 0⟩
def Plan.PHASE_TARGET : Field := ⟨5, 32, true, 0⟩
def Plan.TICK : Field := ⟨6, 64, false, 0⟩
/-- Fields of Plan in the order of Table 2.6. -/
def Plan.status : List Field :=
  [Plan.STATE, Plan.RASTER, Plan.TICK_UNIT, Plan.PHASE_NOW, Plan.PHASE_TARGET, Plan.TICK]
def Plan.SWLINE : Field := ⟨7, 5, false, 0⟩
def Plan.ALIGN_MODE : Field := ⟨8, 1, false, 0⟩
def Plan.SLEW_RATE : Field := ⟨9, 10, false, 20⟩
def Plan.ENABLE : Field := ⟨10, 1, false, 0⟩
/-- Parameters of `plancfg` (R51), in order. -/
def Plan.plancfgParams : List Param :=
  [⟨Plan.RASTER, 0, 60, none⟩, ⟨Plan.PHASE_TARGET, -2147483648, 2147483647, none⟩, ⟨Plan.SWLINE, 0, 19, none⟩, ⟨Plan.TICK_UNIT, 0, 1, none⟩, ⟨Plan.ALIGN_MODE, 0, 1, none⟩, ⟨Plan.SLEW_RATE, 1, 1000, none⟩] ++
  [⟨Plan.ENABLE, 0, 1, none⟩]

/-! ### Kerb (status Table 2.7) -/
def Kerb.MODE : Field := ⟨1, 1, false, 0⟩
def Kerb.PLAN : Field := ⟨2, 4, false, 0⟩
def Kerb.CONCEAL : Field := ⟨3, 1, false, 0⟩
def Kerb.STATE : Field := ⟨4, 3, false, 0⟩
def Kerb.ARRIVAL_ERROR : Field := ⟨5, 32, true, 0⟩
def Kerb.ALIGN_DELAY : Field := ⟨6, 32, false, 0⟩
/-- Fields of Kerb in the order of Table 2.7. -/
def Kerb.status : List Field :=
  [Kerb.MODE, Kerb.PLAN, Kerb.CONCEAL, Kerb.STATE, Kerb.ARRIVAL_ERROR, Kerb.ALIGN_DELAY]
/-- Parameters of `kerbcfg` (R66), in order. -/
def Kerb.kerbcfgParams : List Param :=
  [⟨Kerb.MODE, 0, 1, none⟩, ⟨Kerb.PLAN, 0, 15, none⟩, ⟨Kerb.CONCEAL, 0, 1, none⟩]

/-! ### Lamp (status Table 3.1) -/
def Lamp.STATE : Field := ⟨1, 3, false, 0⟩
def Lamp.PRIORITY : Field := ⟨2, 3, false, 4⟩
def Lamp.PLAN : Field := ⟨3, 4, false, 0⟩
def Lamp.QUEUE : Field := ⟨4, 4, false, 15⟩
def Lamp.PC : Field := ⟨5, 16, false, 0⟩
def Lamp.IN_ERRAND : Field := ⟨6, 1, false, 0⟩
def Lamp.SALVO : Field := ⟨7, 2, false, 0⟩
def Lamp.TARGET : Field := ⟨8, 64, false, 0⟩
def Lamp.LAST_CODE : Field := ⟨9, 8, false, 0⟩
/-- Fields of Lamp in the order of Table 3.1. -/
def Lamp.status : List Field :=
  [Lamp.STATE, Lamp.PRIORITY, Lamp.PLAN, Lamp.QUEUE, Lamp.PC, Lamp.IN_ERRAND, Lamp.SALVO, Lamp.TARGET] ++
  [Lamp.LAST_CODE]
def Lamp.ENTRY : Field := ⟨10, 16, false, 0⟩
def Lamp.REPORT : Field := ⟨11, 1, false, 0⟩
/-- Parameters of `thrcfg` (R455), in order. -/
def Lamp.thrcfgParams : List Param :=
  [⟨Lamp.PRIORITY, 0, 7, none⟩, ⟨Lamp.PLAN, 0, 15, none⟩, ⟨Lamp.QUEUE, 0, 9, some 15⟩, ⟨Lamp.ENTRY, 0, 65535, none⟩, ⟨Lamp.REPORT, 0, 1, none⟩]

/-! ### Queue (status Table 3.4, 18.7) -/
def Queue.WORDS_QUEUED : Field := ⟨1, 18, false, 0⟩
def Queue.REPLY_WORDS : Field := ⟨2, 18, false, 0⟩
def Queue.LAST_SEQ : Field := ⟨3, 16, false, 0⟩
def Queue.WAITING : Field := ⟨4, 1, false, 0⟩
def Queue.REPLY_WR_PTR : Field := ⟨5, 17, false, 0⟩
def Queue.REPLY_RD_PTR : Field := ⟨6, 17, false, 0⟩
/-- Fields of Queue in the order of Table 3.4. -/
def Queue.status : List Field :=
  [Queue.WORDS_QUEUED, Queue.REPLY_WORDS, Queue.LAST_SEQ, Queue.WAITING]
/-- Fields of Queue in the order of Table 18.7. -/
def Queue.status2 : List Field :=
  [Queue.REPLY_WR_PTR, Queue.REPLY_RD_PTR]

/-! ### Cell (status Table 4.2) -/
def Cell.MODE : Field := ⟨1, 1, false, 0⟩
def Cell.PLAN : Field := ⟨2, 4, false, 0⟩
def Cell.LOSS_POLICY : Field := ⟨3, 1, false, 0⟩
def Cell.FALLBACK_SEAT : Field := ⟨4, 12, false, 4095⟩
def Cell.SOURCE : Field := ⟨5, 12, false, 4095⟩
def Cell.STREAM : Field := ⟨6, 3, false, 0⟩
def Cell.STAGED : Field := ⟨7, 1, false, 0⟩
def Cell.OUTPUT : Field := ⟨8, 3, false, 0⟩
def Cell.LOCK : Field := ⟨9, 2, false, 0⟩
def Cell.OWNER : Field := ⟨10, 6, false, 0⟩
def Cell.DBUNDLE : Field := ⟨11, 10, false, 1023⟩
def Cell.LAST_TICK : Field := ⟨12, 64, false, 0⟩
def Cell.MS_SOURCE1 : Field := ⟨13, 12, false, 4095⟩
def Cell.MS_SOURCE2 : Field := ⟨14, 12, false, 4095⟩
def Cell.MS_SOURCE3 : Field := ⟨15, 12, false, 4095⟩
def Cell.MS_SOURCE4 : Field := ⟨16, 12, false, 4095⟩
def Cell.MS_SOURCE5 : Field := ⟨17, 12, false, 4095⟩
def Cell.MS_SOURCE6 : Field := ⟨18, 12, false, 4095⟩
def Cell.MS_SOURCE7 : Field := ⟨19, 12, false, 4095⟩
def Cell.MS_STREAM1 : Field := ⟨20, 3, false, 0⟩
def Cell.MS_STREAM2 : Field := ⟨21, 3, false, 0⟩
def Cell.MS_STREAM3 : Field := ⟨22, 3, false, 0⟩
def Cell.MS_STREAM4 : Field := ⟨23, 3, false, 0⟩
def Cell.MS_STREAM5 : Field := ⟨24, 3, false, 0⟩
def Cell.MS_STREAM6 : Field := ⟨25, 3, false, 0⟩
def Cell.MS_STREAM7 : Field := ⟨26, 3, false, 0⟩
/-- Fields of Cell in the order of Table 4.2. -/
def Cell.status : List Field :=
  [Cell.MODE, Cell.PLAN, Cell.LOSS_POLICY, Cell.FALLBACK_SEAT, Cell.SOURCE, Cell.STREAM, Cell.STAGED, Cell.OUTPUT] ++
  [Cell.LOCK, Cell.OWNER, Cell.DBUNDLE, Cell.LAST_TICK]
/-- Fields of Cell in the order of R365, R406, R505, R562 or R595. -/
def Cell.statusX : List Field :=
  [Cell.MS_SOURCE1, Cell.MS_SOURCE2, Cell.MS_SOURCE3, Cell.MS_SOURCE4, Cell.MS_SOURCE5, Cell.MS_SOURCE6, Cell.MS_SOURCE7, Cell.MS_STREAM1] ++
  [Cell.MS_STREAM2, Cell.MS_STREAM3, Cell.MS_STREAM4, Cell.MS_STREAM5, Cell.MS_STREAM6, Cell.MS_STREAM7]
/-- Parameters of `cellcfg` (R113), in order. -/
def Cell.cellcfgParams : List Param :=
  [⟨Cell.MODE, 0, 1, none⟩, ⟨Cell.PLAN, 0, 15, none⟩, ⟨Cell.LOSS_POLICY, 0, 1, none⟩, ⟨Cell.FALLBACK_SEAT, 2448, 2495, some 4095⟩]

/-! ### Bundle -/
def Bundle.COUNT : Field := ⟨1, 3, false, 0⟩
def Bundle.M0 : Field := ⟨2, 12, false, 4095⟩
def Bundle.M1 : Field := ⟨3, 12, false, 4095⟩
def Bundle.M2 : Field := ⟨4, 12, false, 4095⟩
def Bundle.M3 : Field := ⟨5, 12, false, 4095⟩
/-- Parameters of `bundlecfg` (R127), in order. -/
def Bundle.bundlecfgParams : List Param :=
  [⟨Bundle.COUNT, 0, 7, none⟩, ⟨Bundle.M0, 0, 4095, none⟩, ⟨Bundle.M1, 0, 4095, none⟩, ⟨Bundle.M2, 0, 4095, none⟩, ⟨Bundle.M3, 0, 4095, none⟩]

/-! ### Sign -/
def Sign.ENABLE : Field := ⟨1, 1, false, 0⟩
def Sign.PLAN : Field := ⟨2, 4, false, 0⟩
def Sign.PATTERN : Field := ⟨3, 3, false, 0⟩
def Sign.COLOUR : Field := ⟨4, 2, false, 0⟩
def Sign.SAMPLING : Field := ⟨5, 1, false, 0⟩
def Sign.RANGE_FULL : Field := ⟨6, 1, false, 0⟩
def Sign.FLAT_VALUE : Field := ⟨7, 30, false, 537395264⟩
def Sign.MOTION : Field := ⟨8, 1, false, 0⟩
/-- Parameters of `signcfg` (R138), in order. -/
def Sign.signcfgParams : List Param :=
  [⟨Sign.ENABLE, 0, 1, none⟩, ⟨Sign.PLAN, 0, 15, none⟩, ⟨Sign.PATTERN, 0, 7, none⟩, ⟨Sign.COLOUR, 0, 3, none⟩, ⟨Sign.SAMPLING, 0, 1, none⟩, ⟨Sign.RANGE_FULL, 0, 1, none⟩] ++
  [⟨Sign.FLAT_VALUE, 0, 1073741823, none⟩, ⟨Sign.MOTION, 0, 1, none⟩]

/-! ### Ret -/
def Ret.MIRROR : Field := ⟨1, 12, false, 4095⟩
/-- Parameters of `retcfg` (R141), in order. -/
def Ret.retcfgParams : List Param :=
  [⟨Ret.MIRROR, 0, 2687, some 4095⟩]

/-! ### Lane (status Table 5.14) -/
def Lane.MODE : Field := ⟨1, 2, false, 0⟩
def Lane.RATE : Field := ⟨2, 4, false, 0⟩
def Lane.RX_RATE : Field := ⟨3, 4, false, 15⟩
def Lane.PLL : Field := ⟨4, 1, false, 0⟩
def Lane.TX_STATE : Field := ⟨5, 2, false, 3⟩
def Lane.RX_STATE : Field := ⟨6, 2, false, 3⟩
def Lane.SIGNAL : Field := ⟨7, 1, false, 0⟩
def Lane.CDR_LOCK : Field := ⟨8, 1, false, 0⟩
def Lane.LINK : Field := ⟨9, 1, false, 0⟩
def Lane.TRAIN_STATE : Field := ⟨10, 3, false, 0⟩
def Lane.FFE : Field := ⟨11, 31, false, 0⟩
def Lane.CTLE : Field := ⟨12, 6, false, 0⟩
def Lane.RX_SNR : Field := ⟨13, 10, false, 0⟩
def Lane.LOOPBACK : Field := ⟨14, 2, false, 0⟩
def Lane.PRBS_LOCK : Field := ⟨15, 1, false, 0⟩
def Lane.DEGRADED : Field := ⟨16, 1, false, 0⟩
/-- Fields of Lane in the order of Table 5.14. -/
def Lane.status : List Field :=
  [Lane.MODE, Lane.RATE, Lane.RX_RATE, Lane.PLL, Lane.TX_STATE, Lane.RX_STATE, Lane.SIGNAL, Lane.CDR_LOCK] ++
  [Lane.LINK, Lane.TRAIN_STATE, Lane.FFE, Lane.CTLE, Lane.RX_SNR, Lane.LOOPBACK, Lane.PRBS_LOCK, Lane.DEGRADED]
def Lane.PORT : Field := ⟨17, 2, false, 1⟩
def Lane.FEC25 : Field := ⟨18, 1, false, 0⟩
def Lane.PRECODE : Field := ⟨19, 1, false, 0⟩
def Lane.TX_INVERT : Field := ⟨20, 1, false, 0⟩
def Lane.RX_INVERT : Field := ⟨21, 1, false, 0⟩
def Lane.RETRAIN : Field := ⟨22, 1, false, 0⟩
/-- Parameters of `lanecfg` (R151), in order. -/
def Lane.lanecfgParams : List Param :=
  [⟨Lane.MODE, 0, 3, none⟩, ⟨Lane.RATE, 0, 12, none⟩, ⟨Lane.PLL, 0, 1, none⟩, ⟨Lane.PORT, 0, 3, none⟩, ⟨Lane.FEC25, 0, 1, none⟩, ⟨Lane.PRECODE, 0, 1, none⟩] ++
  [⟨Lane.TX_INVERT, 0, 1, none⟩, ⟨Lane.RX_INVERT, 0, 1, none⟩, ⟨Lane.RETRAIN, 0, 1, none⟩]
def Lane.GEN_EN : Field := ⟨23, 1, false, 0⟩
def Lane.GEN_PAT : Field := ⟨24, 3, false, 0⟩
def Lane.GEN_INV : Field := ⟨25, 1, false, 0⟩
def Lane.CHK_EN : Field := ⟨26, 1, false, 0⟩
def Lane.CHK_PAT : Field := ⟨27, 3, false, 0⟩
def Lane.CHK_INV : Field := ⟨28, 1, false, 0⟩
def Lane.INJ : Field := ⟨29, 2, false, 0⟩
def Lane.KIND : Field := ⟨30, 2, false, 0⟩
def Lane.BURST : Field := ⟨31, 8, false, 0⟩
def Lane.MIRROR : Field := ⟨32, 1, false, 0⟩
def Lane.N : Field := ⟨33, 32, false, 0⟩
/-- Parameters of `lanetest` (R455), in order. -/
def Lane.lanetestParams : List Param :=
  [⟨Lane.GEN_EN, 0, 1, none⟩, ⟨Lane.GEN_PAT, 0, 7, none⟩, ⟨Lane.GEN_INV, 0, 1, none⟩, ⟨Lane.CHK_EN, 0, 1, none⟩, ⟨Lane.CHK_PAT, 0, 7, none⟩, ⟨Lane.CHK_INV, 0, 1, none⟩] ++
  [⟨Lane.INJ, 0, 3, none⟩, ⟨Lane.KIND, 0, 3, none⟩, ⟨Lane.BURST, 0, 255, none⟩, ⟨Lane.LOOPBACK, 0, 3, none⟩, ⟨Lane.MIRROR, 0, 1, none⟩, ⟨Lane.N, 0, 4294967295, none⟩]
def Lane.EQ_MODE : Field := ⟨34, 2, false, 0⟩
def Lane.CTLE_SET : Field := ⟨35, 6, false, 0⟩
def Lane.DFE1 : Field := ⟨36, 16, true, 0⟩
def Lane.DFE2 : Field := ⟨37, 16, true, 0⟩
def Lane.DFE3 : Field := ⟨38, 16, true, 0⟩
def Lane.DFE4 : Field := ⟨39, 16, true, 0⟩
def Lane.DFE5 : Field := ⟨40, 16, true, 0⟩
def Lane.DFE6 : Field := ⟨41, 16, true, 0⟩
def Lane.DFE7 : Field := ⟨42, 16, true, 0⟩
def Lane.DFE8 : Field := ⟨43, 16, true, 0⟩
def Lane.DFE9 : Field := ⟨44, 16, true, 0⟩
def Lane.DFE10 : Field := ⟨45, 16, true, 0⟩
def Lane.DFE11 : Field := ⟨46, 16, true, 0⟩
def Lane.DFE12 : Field := ⟨47, 16, true, 0⟩
def Lane.DFE13 : Field := ⟨48, 16, true, 0⟩
def Lane.DFE14 : Field := ⟨49, 16, true, 0⟩
def Lane.DFE15 : Field := ⟨50, 16, true, 0⟩
def Lane.DFE16 : Field := ⟨51, 16, true, 0⟩
def Lane.DFE17 : Field := ⟨52, 16, true, 0⟩
def Lane.DFE18 : Field := ⟨53, 16, true, 0⟩
def Lane.DFE19 : Field := ⟨54, 16, true, 0⟩
def Lane.DFE20 : Field := ⟨55, 16, true, 0⟩
def Lane.DFE21 : Field := ⟨56, 16, true, 0⟩
def Lane.DFE22 : Field := ⟨57, 16, true, 0⟩
def Lane.DFE23 : Field := ⟨58, 16, true, 0⟩
def Lane.DFE24 : Field := ⟨59, 16, true, 0⟩
/-- Parameters of `laneeq` (R455), in order. -/
def Lane.laneeqParams : List Param :=
  [⟨Lane.FFE, 0, 2147483647, none⟩, ⟨Lane.EQ_MODE, 0, 3, none⟩, ⟨Lane.CTLE_SET, 0, 48, none⟩, ⟨Lane.DFE1, -32768, 32767, none⟩, ⟨Lane.DFE2, -32768, 32767, none⟩, ⟨Lane.DFE3, -32768, 32767, none⟩] ++
  [⟨Lane.DFE4, -32768, 32767, none⟩, ⟨Lane.DFE5, -32768, 32767, none⟩, ⟨Lane.DFE6, -32768, 32767, none⟩, ⟨Lane.DFE7, -32768, 32767, none⟩, ⟨Lane.DFE8, -32768, 32767, none⟩, ⟨Lane.DFE9, -32768, 32767, none⟩] ++
  [⟨Lane.DFE10, -32768, 32767, none⟩, ⟨Lane.DFE11, -32768, 32767, none⟩, ⟨Lane.DFE12, -32768, 32767, none⟩, ⟨Lane.DFE13, -32768, 32767, none⟩, ⟨Lane.DFE14, -32768, 32767, none⟩, ⟨Lane.DFE15, -32768, 32767, none⟩] ++
  [⟨Lane.DFE16, -32768, 32767, none⟩, ⟨Lane.DFE17, -32768, 32767, none⟩, ⟨Lane.DFE18, -32768, 32767, none⟩, ⟨Lane.DFE19, -32768, 32767, none⟩, ⟨Lane.DFE20, -32768, 32767, none⟩, ⟨Lane.DFE21, -32768, 32767, none⟩] ++
  [⟨Lane.DFE22, -32768, 32767, none⟩, ⟨Lane.DFE23, -32768, 32767, none⟩, ⟨Lane.DFE24, -32768, 32767, none⟩]

/-! ### Avenue (status Table 5.15) -/
def Avenue.PLLA_FAMILY : Field := ⟨1, 3, false, 0⟩
def Avenue.PLLA_LOCK : Field := ⟨2, 1, false, 0⟩
def Avenue.PLLB_FAMILY : Field := ⟨3, 3, false, 0⟩
def Avenue.PLLB_LOCK : Field := ⟨4, 1, false, 0⟩
/-- Fields of Avenue in the order of Table 5.15. -/
def Avenue.status : List Field :=
  [Avenue.PLLA_FAMILY, Avenue.PLLA_LOCK, Avenue.PLLB_FAMILY, Avenue.PLLB_LOCK]

/-! ### Trib (status Table 6.12) -/
def Trib.LANE : Field := ⟨1, 9, false, 511⟩
def Trib.SLOT : Field := ⟨2, 3, false, 0⟩
def Trib.CRC_MODE : Field := ⟨3, 1, false, 0⟩
def Trib.RX_STATE : Field := ⟨4, 3, false, 0⟩
def Trib.RX_RATE : Field := ⟨5, 3, false, 0⟩
def Trib.RX_M1001 : Field := ⟨6, 1, false, 0⟩
def Trib.RATE_OFFSET : Field := ⟨7, 32, true, 0⟩
def Trib.PAYLOAD_ID : Field := ⟨8, 32, false, 0⟩
def Trib.PID_VALID : Field := ⟨9, 1, false, 0⟩
def Trib.TX_STATE : Field := ⟨10, 3, false, 0⟩
def Trib.BC_FLAGS : Field := ⟨11, 8, false, 0⟩
/-- Fields of Trib in the order of Table 6.12. -/
def Trib.status : List Field :=
  [Trib.LANE, Trib.SLOT, Trib.CRC_MODE, Trib.RX_STATE, Trib.RX_RATE, Trib.RX_M1001, Trib.RATE_OFFSET, Trib.PAYLOAD_ID] ++
  [Trib.PID_VALID, Trib.TX_STATE, Trib.BC_FLAGS]
/-- Parameters of `tribcfg` (R165), in order. -/
def Trib.tribcfgParams : List Param :=
  [⟨Trib.LANE, 0, 287, some 511⟩, ⟨Trib.SLOT, 0, 7, none⟩, ⟨Trib.CRC_MODE, 0, 1, none⟩]

/-! ### Mac (status Table 7.13) -/
def Mac.LANE : Field := ⟨1, 9, false, 511⟩
def Mac.PORT : Field := ⟨2, 2, false, 0⟩
def Mac.LINK : Field := ⟨3, 1, false, 0⟩
def Mac.ADDR : Field := ⟨4, 48, false, 0⟩
def Mac.LINK_DELAY_PS : Field := ⟨5, 32, false, 0⟩
/-- Fields of Mac in the order of Table 7.13. -/
def Mac.status : List Field :=
  [Mac.LANE, Mac.PORT, Mac.LINK, Mac.ADDR, Mac.LINK_DELAY_PS]
def Mac.MTU : Field := ⟨6, 14, false, 9216⟩
def Mac.VLAN : Field := ⟨7, 12, false, 0⟩
def Mac.IPV4 : Field := ⟨8, 32, false, 0⟩
def Mac.PREFIX4 : Field := ⟨9, 6, false, 24⟩
def Mac.IPV6 : Field := ⟨10, 128, false, 0⟩
/-- Parameters of `maccfg` (R196), in order. -/
def Mac.maccfgParams : List Param :=
  [⟨Mac.LANE, 0, 287, some 511⟩, ⟨Mac.ADDR, 0, 281474976710655, none⟩, ⟨Mac.MTU, 1518, 9216, none⟩, ⟨Mac.VLAN, 0, 4094, none⟩, ⟨Mac.IPV4, 0, 4294967295, none⟩, ⟨Mac.PREFIX4, 0, 32, none⟩] ++
  [⟨Mac.IPV6, 0, 340282366920938463463374607431768211455, none⟩]
def Mac.INGRESS_PS : Field := ⟨11, 24, true, 0⟩
def Mac.EGRESS_PS : Field := ⟨12, 24, true, 0⟩
def Mac.ASYM_PS : Field := ⟨13, 24, true, 0⟩
def Mac.TC_GROUP : Field := ⟨14, 4, false, 15⟩
/-- Parameters of `ptpport` (R392), in order. -/
def Mac.ptpportParams : List Param :=
  [⟨Mac.INGRESS_PS, -8000000, 8000000, none⟩, ⟨Mac.EGRESS_PS, -8000000, 8000000, none⟩, ⟨Mac.ASYM_PS, -8000000, 8000000, none⟩, ⟨Mac.TC_GROUP, 0, 15, none⟩]

/-! ### Rx (status Table 7.12) -/
def Rx.TYPE : Field := ⟨1, 3, false, 0⟩
def Rx.SEAT : Field := ⟨2, 11, false, 2047⟩
def Rx.STATE : Field := ⟨3, 3, false, 0⟩
def Rx.LEGS : Field := ⟨4, 2, false, 0⟩
def Rx.SSRC_A : Field := ⟨5, 32, false, 0⟩
def Rx.SSRC_B : Field := ⟨6, 32, false, 0⟩
def Rx.TS_OFFSET : Field := ⟨7, 32, true, 0⟩
def Rx.LEAD_MIN : Field := ⟨8, 32, true, 0⟩
def Rx.LEAD_MAX : Field := ⟨9, 32, true, 0⟩
def Rx.SKEW_MAX : Field := ⟨10, 32, true, 0⟩
def Rx.EXT_SEQ : Field := ⟨11, 32, false, 0⟩
/-- Fields of Rx in the order of Table 7.12. -/
def Rx.status : List Field :=
  [Rx.TYPE, Rx.SEAT, Rx.STATE, Rx.LEGS, Rx.SSRC_A, Rx.SSRC_B, Rx.TS_OFFSET, Rx.LEAD_MIN] ++
  [Rx.LEAD_MAX, Rx.SKEW_MAX, Rx.EXT_SEQ]
def Rx.PT : Field := ⟨12, 8, false, 255⟩
def Rx.SSRC_MODE : Field := ⟨13, 2, false, 1⟩
def Rx.SSRC : Field := ⟨14, 32, false, 0⟩
def Rx.RASTER : Field := ⟨15, 6, false, 0⟩
def Rx.SAMPLING : Field := ⟨16, 2, false, 0⟩
def Rx.DEPTH : Field := ⟨17, 1, false, 0⟩
def Rx.COLOUR : Field := ⟨18, 2, false, 0⟩
def Rx.RANGE_FULL : Field := ⟨19, 1, false, 0⟩
def Rx.ALIGN : Field := ⟨20, 1, false, 0⟩
def Rx.RX_OFFSET : Field := ⟨21, 32, true, 0⟩
def Rx.MERGE : Field := ⟨22, 1, false, 0⟩
def Rx.CHANNELS : Field := ⟨23, 7, false, 2⟩
def Rx.PTIME : Field := ⟨24, 1, false, 0⟩
def Rx.SDEPTH : Field := ⟨25, 1, false, 1⟩
def Rx.FIRST_ACH : Field := ⟨26, 17, false, 0⟩
/-- Parameters of `rxflow` (R207), in order. -/
def Rx.rxflowParams : List Param :=
  [⟨Rx.TYPE, 0, 5, none⟩, ⟨Rx.SEAT, 0, 1151, some 2047⟩, ⟨Rx.PT, 96, 127, some 255⟩, ⟨Rx.SSRC_MODE, 0, 2, none⟩, ⟨Rx.SSRC, 0, 4294967295, none⟩, ⟨Rx.RASTER, 0, 60, none⟩] ++
  [⟨Rx.SAMPLING, 0, 2, none⟩, ⟨Rx.DEPTH, 0, 1, none⟩, ⟨Rx.COLOUR, 0, 3, none⟩, ⟨Rx.RANGE_FULL, 0, 1, none⟩, ⟨Rx.ALIGN, 0, 1, none⟩, ⟨Rx.RX_OFFSET, -10000000, 10000000, none⟩] ++
  [⟨Rx.MERGE, 0, 1, none⟩, ⟨Rx.CHANNELS, 1, 64, none⟩, ⟨Rx.PTIME, 0, 1, none⟩, ⟨Rx.SDEPTH, 0, 1, none⟩, ⟨Rx.FIRST_ACH, 0, 131071, none⟩]

/-! ### Tx (status Table 8.10) -/
def Tx.TYPE : Field := ⟨1, 3, false, 0⟩
def Tx.SEAT : Field := ⟨2, 11, false, 2047⟩
def Tx.STATE : Field := ⟨3, 3, false, 0⟩
def Tx.LEGS_SENT : Field := ⟨4, 2, false, 0⟩
def Tx.NPACKETS : Field := ⟨5, 20, false, 0⟩
def Tx.TRS : Field := ⟨6, 32, false, 0⟩
def Tx.EXT_SEQ : Field := ⟨7, 32, false, 0⟩
def Tx.LAST_TS : Field := ⟨8, 32, false, 0⟩
def Tx.POOL_KB : Field := ⟨9, 16, false, 0⟩
/-- Fields of Tx in the order of Table 8.10. -/
def Tx.status : List Field :=
  [Tx.TYPE, Tx.SEAT, Tx.STATE, Tx.LEGS_SENT, Tx.NPACKETS, Tx.TRS, Tx.EXT_SEQ, Tx.LAST_TS] ++
  [Tx.POOL_KB]
def Tx.PT : Field := ⟨10, 8, false, 96⟩
def Tx.SSRC : Field := ⟨11, 32, false, 0⟩
def Tx.SEQ_INIT : Field := ⟨12, 32, false, 0⟩
def Tx.TS_ADJ : Field := ⟨13, 32, true, 0⟩
def Tx.RASTER : Field := ⟨14, 6, false, 0⟩
def Tx.SAMPLING : Field := ⟨15, 2, false, 0⟩
def Tx.DEPTH : Field := ⟨16, 1, false, 0⟩
def Tx.COLOUR : Field := ⟨17, 2, false, 0⟩
def Tx.RANGE_FULL : Field := ⟨18, 1, false, 0⟩
def Tx.SENDER : Field := ⟨19, 2, false, 0⟩
def Tx.TR_OFFSET : Field := ⟨20, 32, false, 4294967295⟩
def Tx.PACKING : Field := ⟨21, 1, false, 0⟩
def Tx.SRD_MAX : Field := ⟨22, 14, false, 1260⟩
def Tx.CHANNELS : Field := ⟨23, 7, false, 2⟩
def Tx.PTIME : Field := ⟨24, 1, false, 0⟩
def Tx.SDEPTH : Field := ⟨25, 1, false, 1⟩
def Tx.FIRST_SLOT : Field := ⟨26, 16, false, 0⟩
def Tx.LEG_POLICY : Field := ⟨27, 1, false, 0⟩
def Tx.A_ENABLE : Field := ⟨28, 1, false, 0⟩
def Tx.A_MAC : Field := ⟨29, 8, false, 0⟩
def Tx.A_IPV6 : Field := ⟨30, 1, false, 0⟩
def Tx.A_DST_IP : Field := ⟨31, 128, false, 0⟩
def Tx.A_DST_MAC : Field := ⟨32, 48, false, 0⟩
def Tx.A_SRC_PORT : Field := ⟨33, 16, false, 5004⟩
def Tx.A_DST_PORT : Field := ⟨34, 16, false, 5004⟩
def Tx.A_VLAN : Field := ⟨35, 12, false, 0⟩
def Tx.A_PCP : Field := ⟨36, 3, false, 5⟩
def Tx.A_DSCP : Field := ⟨37, 6, false, 34⟩
def Tx.A_TTL : Field := ⟨38, 8, false, 64⟩
def Tx.B_ENABLE : Field := ⟨39, 1, false, 0⟩
def Tx.B_MAC : Field := ⟨40, 8, false, 0⟩
def Tx.B_IPV6 : Field := ⟨41, 1, false, 0⟩
def Tx.B_DST_IP : Field := ⟨42, 128, false, 0⟩
def Tx.B_DST_MAC : Field := ⟨43, 48, false, 0⟩
def Tx.B_SRC_PORT : Field := ⟨44, 16, false, 5004⟩
def Tx.B_DST_PORT : Field := ⟨45, 16, false, 5004⟩
def Tx.B_VLAN : Field := ⟨46, 12, false, 0⟩
def Tx.B_PCP : Field := ⟨47, 3, false, 5⟩
def Tx.B_DSCP : Field := ⟨48, 6, false, 34⟩
def Tx.B_TTL : Field := ⟨49, 8, false, 64⟩
/-- Parameters of `txflow` (R227), in order. -/
def Tx.txflowParams : List Param :=
  [⟨Tx.TYPE, 0, 5, none⟩, ⟨Tx.SEAT, 0, 1151, some 2047⟩, ⟨Tx.PT, 96, 127, none⟩, ⟨Tx.SSRC, 0, 4294967295, none⟩, ⟨Tx.SEQ_INIT, 0, 4294967295, none⟩, ⟨Tx.TS_ADJ, -2147483648, 2147483647, none⟩] ++
  [⟨Tx.RASTER, 0, 60, none⟩, ⟨Tx.SAMPLING, 0, 2, none⟩, ⟨Tx.DEPTH, 0, 1, none⟩, ⟨Tx.COLOUR, 0, 3, none⟩, ⟨Tx.RANGE_FULL, 0, 1, none⟩, ⟨Tx.SENDER, 0, 2, none⟩] ++
  [⟨Tx.TR_OFFSET, 0, 4294967295, none⟩, ⟨Tx.PACKING, 0, 1, none⟩, ⟨Tx.SRD_MAX, 180, 8952, none⟩, ⟨Tx.CHANNELS, 1, 64, none⟩, ⟨Tx.PTIME, 0, 1, none⟩, ⟨Tx.SDEPTH, 0, 1, none⟩] ++
  [⟨Tx.FIRST_SLOT, 0, 65535, none⟩, ⟨Tx.LEG_POLICY, 0, 1, none⟩, ⟨Tx.A_ENABLE, 0, 1, none⟩, ⟨Tx.A_MAC, 0, 143, none⟩, ⟨Tx.A_IPV6, 0, 1, none⟩, ⟨Tx.A_DST_IP, 0, 340282366920938463463374607431768211455, none⟩] ++
  [⟨Tx.A_DST_MAC, 0, 281474976710655, none⟩, ⟨Tx.A_SRC_PORT, 1, 65535, none⟩, ⟨Tx.A_DST_PORT, 1, 65535, none⟩, ⟨Tx.A_VLAN, 0, 4094, none⟩, ⟨Tx.A_PCP, 0, 7, none⟩, ⟨Tx.A_DSCP, 0, 63, none⟩] ++
  [⟨Tx.A_TTL, 1, 255, none⟩, ⟨Tx.B_ENABLE, 0, 1, none⟩, ⟨Tx.B_MAC, 0, 143, none⟩, ⟨Tx.B_IPV6, 0, 1, none⟩, ⟨Tx.B_DST_IP, 0, 340282366920938463463374607431768211455, none⟩, ⟨Tx.B_DST_MAC, 0, 281474976710655, none⟩] ++
  [⟨Tx.B_SRC_PORT, 1, 65535, none⟩, ⟨Tx.B_DST_PORT, 1, 65535, none⟩, ⟨Tx.B_VLAN, 0, 4094, none⟩, ⟨Tx.B_PCP, 0, 7, none⟩, ⟨Tx.B_DSCP, 0, 63, none⟩, ⟨Tx.B_TTL, 1, 255, none⟩]

/-! ### Fwd (status Table 8.11) -/
def Fwd.INPUT : Field := ⟨1, 11, false, 2047⟩
def Fwd.PENDING : Field := ⟨2, 1, false, 0⟩
def Fwd.LEGS_SENT : Field := ⟨3, 2, false, 0⟩
def Fwd.EXT_SEQ : Field := ⟨4, 32, false, 0⟩
/-- Fields of Fwd in the order of Table 8.11. -/
def Fwd.status : List Field :=
  [Fwd.INPUT, Fwd.PENDING, Fwd.LEGS_SENT, Fwd.EXT_SEQ]
def Fwd.INPUT_CFG : Field := ⟨5, 11, false, 2047⟩
def Fwd.PT : Field := ⟨6, 8, false, 255⟩
def Fwd.SSRC : Field := ⟨7, 32, false, 0⟩
def Fwd.SEQ_INIT : Field := ⟨8, 32, false, 0⟩
def Fwd.RATE : Field := ⟨9, 20, false, 1000⟩
def Fwd.A_ENABLE : Field := ⟨10, 1, false, 0⟩
def Fwd.A_MAC : Field := ⟨11, 8, false, 0⟩
def Fwd.A_IPV6 : Field := ⟨12, 1, false, 0⟩
def Fwd.A_DST_IP : Field := ⟨13, 128, false, 0⟩
def Fwd.A_DST_MAC : Field := ⟨14, 48, false, 0⟩
def Fwd.A_SRC_PORT : Field := ⟨15, 16, false, 5004⟩
def Fwd.A_DST_PORT : Field := ⟨16, 16, false, 5004⟩
def Fwd.A_VLAN : Field := ⟨17, 12, false, 0⟩
def Fwd.A_PCP : Field := ⟨18, 3, false, 5⟩
def Fwd.A_DSCP : Field := ⟨19, 6, false, 34⟩
def Fwd.A_TTL : Field := ⟨20, 8, false, 64⟩
def Fwd.B_ENABLE : Field := ⟨21, 1, false, 0⟩
def Fwd.B_MAC : Field := ⟨22, 8, false, 0⟩
def Fwd.B_IPV6 : Field := ⟨23, 1, false, 0⟩
def Fwd.B_DST_IP : Field := ⟨24, 128, false, 0⟩
def Fwd.B_DST_MAC : Field := ⟨25, 48, false, 0⟩
def Fwd.B_SRC_PORT : Field := ⟨26, 16, false, 5004⟩
def Fwd.B_DST_PORT : Field := ⟨27, 16, false, 5004⟩
def Fwd.B_VLAN : Field := ⟨28, 12, false, 0⟩
def Fwd.B_PCP : Field := ⟨29, 3, false, 5⟩
def Fwd.B_DSCP : Field := ⟨30, 6, false, 34⟩
def Fwd.B_TTL : Field := ⟨31, 8, false, 64⟩
def Fwd.LEG_POLICY : Field := ⟨32, 1, false, 0⟩
/-- Parameters of `fwdcfg` (R247), in order. -/
def Fwd.fwdcfgParams : List Param :=
  [⟨Fwd.INPUT_CFG, 0, 1023, some 2047⟩, ⟨Fwd.PT, 96, 127, some 255⟩, ⟨Fwd.SSRC, 0, 4294967295, none⟩, ⟨Fwd.SEQ_INIT, 0, 4294967295, none⟩, ⟨Fwd.RATE, 1, 400000, none⟩, ⟨Fwd.A_ENABLE, 0, 1, none⟩] ++
  [⟨Fwd.A_MAC, 0, 143, none⟩, ⟨Fwd.A_IPV6, 0, 1, none⟩, ⟨Fwd.A_DST_IP, 0, 340282366920938463463374607431768211455, none⟩, ⟨Fwd.A_DST_MAC, 0, 281474976710655, none⟩, ⟨Fwd.A_SRC_PORT, 1, 65535, none⟩, ⟨Fwd.A_DST_PORT, 1, 65535, none⟩] ++
  [⟨Fwd.A_VLAN, 0, 4094, none⟩, ⟨Fwd.A_PCP, 0, 7, none⟩, ⟨Fwd.A_DSCP, 0, 63, none⟩, ⟨Fwd.A_TTL, 1, 255, none⟩, ⟨Fwd.B_ENABLE, 0, 1, none⟩, ⟨Fwd.B_MAC, 0, 143, none⟩] ++
  [⟨Fwd.B_IPV6, 0, 1, none⟩, ⟨Fwd.B_DST_IP, 0, 340282366920938463463374607431768211455, none⟩, ⟨Fwd.B_DST_MAC, 0, 281474976710655, none⟩, ⟨Fwd.B_SRC_PORT, 1, 65535, none⟩, ⟨Fwd.B_DST_PORT, 1, 65535, none⟩, ⟨Fwd.B_VLAN, 0, 4094, none⟩] ++
  [⟨Fwd.B_PCP, 0, 7, none⟩, ⟨Fwd.B_DSCP, 0, 63, none⟩, ⟨Fwd.B_TTL, 1, 255, none⟩, ⟨Fwd.LEG_POLICY, 0, 1, none⟩]

/-! ### Gran (status Table 9.10) -/
def Gran.MODE : Field := ⟨1, 3, false, 0⟩
def Gran.PLAN : Field := ⟨2, 4, false, 0⟩
def Gran.DEPTH_MAX : Field := ⟨3, 6, false, 2⟩
def Gran.LUT_BANK : Field := ⟨4, 1, false, 0⟩
def Gran.LUT0_STATE : Field := ⟨5, 2, false, 0⟩
def Gran.LUT1_STATE : Field := ⟨6, 2, false, 0⟩
def Gran.COST_MBS : Field := ⟨7, 16, false, 0⟩
def Gran.STORE_MB : Field := ⟨8, 16, false, 0⟩
/-- Fields of Gran in the order of Table 9.10. -/
def Gran.status : List Field :=
  [Gran.MODE, Gran.PLAN, Gran.DEPTH_MAX, Gran.LUT_BANK, Gran.LUT0_STATE, Gran.LUT1_STATE, Gran.COST_MBS, Gran.STORE_MB]
def Gran.DOMINANCE : Field := ⟨9, 1, false, 0⟩
def Gran.HOLD_FIELD : Field := ⟨10, 1, false, 0⟩
def Gran.HOLD_LIMIT : Field := ⟨11, 16, false, 0⟩
def Gran.BAD_LINES_MAX : Field := ⟨12, 8, false, 16⟩
def Gran.LINE_CONCEAL : Field := ⟨13, 1, false, 0⟩
def Gran.DITHER : Field := ⟨14, 1, false, 1⟩
/-- Parameters of `grancfg` (R255), in order. -/
def Gran.grancfgParams : List Param :=
  [⟨Gran.MODE, 0, 4, none⟩, ⟨Gran.PLAN, 0, 15, none⟩, ⟨Gran.DEPTH_MAX, 0, 63, none⟩, ⟨Gran.LUT_BANK, 0, 1, none⟩, ⟨Gran.DOMINANCE, 0, 1, none⟩, ⟨Gran.HOLD_FIELD, 0, 1, none⟩] ++
  [⟨Gran.HOLD_LIMIT, 0, 65535, none⟩, ⟨Gran.BAD_LINES_MAX, 1, 255, none⟩, ⟨Gran.LINE_CONCEAL, 0, 1, none⟩, ⟨Gran.DITHER, 0, 1, none⟩]

/-! ### Sub (status Table 9.11) -/
def Sub.STATE : Field := ⟨1, 3, false, 0⟩
def Sub.DELAY : Field := ⟨2, 6, false, 0⟩
def Sub.LAG : Field := ⟨3, 6, false, 0⟩
def Sub.LATENCY : Field := ⟨4, 32, false, 0⟩
def Sub.HELD : Field := ⟨5, 16, false, 0⟩
def Sub.IN_RATE_OFFSET : Field := ⟨6, 32, true, 0⟩
def Sub.PAYLOAD_ID : Field := ⟨7, 32, false, 0⟩
/-- Fields of Sub in the order of Table 9.11. -/
def Sub.status : List Field :=
  [Sub.STATE, Sub.DELAY, Sub.LAG, Sub.LATENCY, Sub.HELD, Sub.IN_RATE_OFFSET, Sub.PAYLOAD_ID]
def Sub.ENABLE : Field := ⟨8, 1, false, 0⟩
def Sub.IN_SAMPLING : Field := ⟨9, 2, false, 0⟩
def Sub.IN_DEPTH : Field := ⟨10, 1, false, 0⟩
def Sub.OUT_DEPTH : Field := ⟨11, 1, false, 0⟩
def Sub.COLOUR_IN : Field := ⟨12, 2, false, 0⟩
def Sub.COLOUR_OUT : Field := ⟨13, 2, false, 0⟩
def Sub.RANGE_IN : Field := ⟨14, 1, false, 0⟩
def Sub.RANGE_OUT : Field := ⟨15, 1, false, 0⟩
def Sub.DELAY_CFG : Field := ⟨16, 6, false, 0⟩
def Sub.Y_GAIN : Field := ⟨17, 13, false, 4096⟩
def Sub.BLACK : Field := ⟨18, 15, true, 0⟩
def Sub.CHROMA_GAIN : Field := ⟨19, 13, false, 4096⟩
def Sub.HUE : Field := ⟨20, 12, true, 0⟩
def Sub.MATRIX_MODE : Field := ⟨21, 1, false, 0⟩
def Sub.M00 : Field := ⟨22, 18, true, 16384⟩
def Sub.M01 : Field := ⟨23, 18, true, 0⟩
def Sub.M02 : Field := ⟨24, 18, true, 0⟩
def Sub.M10 : Field := ⟨25, 18, true, 0⟩
def Sub.M11 : Field := ⟨26, 18, true, 16384⟩
def Sub.M12 : Field := ⟨27, 18, true, 0⟩
def Sub.M20 : Field := ⟨28, 18, true, 0⟩
def Sub.M21 : Field := ⟨29, 18, true, 0⟩
def Sub.M22 : Field := ⟨30, 18, true, 16384⟩
def Sub.LUT_ENABLE : Field := ⟨31, 1, false, 0⟩
def Sub.LUT_POS : Field := ⟨32, 1, false, 1⟩
def Sub.LEGALISE : Field := ⟨33, 1, false, 0⟩
/-- Parameters of `subcfg` (R255), in order. -/
def Sub.subcfgParams : List Param :=
  [⟨Sub.ENABLE, 0, 1, none⟩, ⟨Sub.IN_SAMPLING, 0, 2, none⟩, ⟨Sub.IN_DEPTH, 0, 1, none⟩, ⟨Sub.OUT_DEPTH, 0, 1, none⟩, ⟨Sub.COLOUR_IN, 0, 3, none⟩, ⟨Sub.COLOUR_OUT, 0, 3, none⟩] ++
  [⟨Sub.RANGE_IN, 0, 1, none⟩, ⟨Sub.RANGE_OUT, 0, 1, none⟩, ⟨Sub.DELAY_CFG, 0, 63, none⟩, ⟨Sub.Y_GAIN, 0, 8191, none⟩, ⟨Sub.BLACK, -4096, 4095, none⟩, ⟨Sub.CHROMA_GAIN, 0, 8191, none⟩] ++
  [⟨Sub.HUE, -1800, 1800, none⟩, ⟨Sub.MATRIX_MODE, 0, 1, none⟩, ⟨Sub.M00, -131072, 131071, none⟩, ⟨Sub.M01, -131072, 131071, none⟩, ⟨Sub.M02, -131072, 131071, none⟩, ⟨Sub.M10, -131072, 131071, none⟩] ++
  [⟨Sub.M11, -131072, 131071, none⟩, ⟨Sub.M12, -131072, 131071, none⟩, ⟨Sub.M20, -131072, 131071, none⟩, ⟨Sub.M21, -131072, 131071, none⟩, ⟨Sub.M22, -131072, 131071, none⟩, ⟨Sub.LUT_ENABLE, 0, 1, none⟩] ++
  [⟨Sub.LUT_POS, 0, 1, none⟩, ⟨Sub.LEGALISE, 0, 1, none⟩]

/-! ### Head (status Table 10.7) -/
def Head.OUTPUT : Field := ⟨1, 2, false, 0⟩
def Head.PLAN : Field := ⟨2, 4, false, 0⟩
def Head.DEPTH : Field := ⟨3, 2, false, 1⟩
def Head.DITHER : Field := ⟨4, 2, false, 2⟩
def Head.COLOUR : Field := ⟨5, 2, false, 0⟩
def Head.STAGED : Field := ⟨6, 1, false, 0⟩
def Head.COST_MBS : Field := ⟨7, 16, false, 0⟩
def Head.COMMIT_TICK : Field := ⟨8, 64, false, 0⟩
/-- Fields of Head in the order of Table 10.7. -/
def Head.status : List Field :=
  [Head.OUTPUT, Head.PLAN, Head.DEPTH, Head.DITHER, Head.COLOUR, Head.STAGED, Head.COST_MBS, Head.COMMIT_TICK]
def Head.OUTPUT_SH : Field := ⟨9, 2, false, 0⟩
def Head.PLAN_SH : Field := ⟨10, 4, false, 0⟩
def Head.DEPTH_SH : Field := ⟨11, 2, false, 1⟩
def Head.DITHER_SH : Field := ⟨12, 2, false, 2⟩
def Head.COLOUR_SH : Field := ⟨13, 2, false, 0⟩
def Head.RANGE_FULL_SH : Field := ⟨14, 1, false, 0⟩
def Head.BG_SH : Field := ⟨15, 30, false, 537395264⟩
def Head.OUT_BASE_SH : Field := ⟨16, 28, false, 0⟩
def Head.OUT_COUNT_SH : Field := ⟨17, 3, false, 2⟩
/-- Parameters of `headset` (R283), in order. -/
def Head.headsetParams : List Param :=
  [⟨Head.OUTPUT_SH, 0, 3, none⟩, ⟨Head.PLAN_SH, 0, 15, none⟩, ⟨Head.DEPTH_SH, 0, 2, none⟩, ⟨Head.DITHER_SH, 0, 2, none⟩, ⟨Head.COLOUR_SH, 0, 3, none⟩, ⟨Head.RANGE_FULL_SH, 0, 1, none⟩] ++
  [⟨Head.BG_SH, 0, 1073741823, none⟩, ⟨Head.OUT_BASE_SH, 0, 268435455, none⟩, ⟨Head.OUT_COUNT_SH, 1, 4, none⟩]
def Head.RANGE_FULL : Field := ⟨18, 1, false, 0⟩
def Head.BG : Field := ⟨19, 30, false, 537395264⟩
def Head.OUT_BASE : Field := ⟨20, 28, false, 0⟩
def Head.OUT_COUNT : Field := ⟨21, 3, false, 2⟩
/-- Parameters of `headact` (R290), in order. -/
def Head.headactParams : List Param :=
  [⟨Head.OUTPUT, 0, 3, none⟩, ⟨Head.PLAN, 0, 15, none⟩, ⟨Head.DEPTH, 0, 3, none⟩, ⟨Head.DITHER, 0, 3, none⟩, ⟨Head.COLOUR, 0, 3, none⟩, ⟨Head.RANGE_FULL, 0, 1, none⟩] ++
  [⟨Head.BG, 0, 1073741823, none⟩, ⟨Head.OUT_BASE, 0, 268435455, none⟩, ⟨Head.OUT_COUNT, 0, 7, none⟩]

/-! ### Layer (status Table 10.8) -/
def Layer.TYPE : Field := ⟨1, 3, false, 0⟩
def Layer.STATE : Field := ⟨2, 3, false, 0⟩
def Layer.VTAPS : Field := ⟨3, 3, false, 0⟩
def Layer.NOT_READY_RUN : Field := ⟨4, 8, false, 0⟩
def Layer.TILE_SEQ : Field := ⟨5, 32, false, 0⟩
/-- Fields of Layer in the order of Table 10.8. -/
def Layer.status : List Field :=
  [Layer.TYPE, Layer.STATE, Layer.VTAPS, Layer.NOT_READY_RUN, Layer.TILE_SEQ]

/-! ### Scaler (status Table 10.9) -/
def Scaler.STATE : Field := ⟨1, 3, false, 0⟩
def Scaler.HEADS : Field := ⟨2, 16, false, 0⟩
def Scaler.W : Field := ⟨3, 13, false, 0⟩
def Scaler.H : Field := ⟨4, 12, false, 0⟩
def Scaler.VTAPS : Field := ⟨5, 3, false, 0⟩
def Scaler.LINES_USED : Field := ⟨6, 7, false, 0⟩
def Scaler.IN_RASTER : Field := ⟨7, 6, false, 63⟩
def Scaler.IN_PERIOD : Field := ⟨8, 32, false, 0⟩
def Scaler.TILE_SEQ : Field := ⟨9, 32, false, 0⟩
/-- Fields of Scaler in the order of Table 10.9. -/
def Scaler.status : List Field :=
  [Scaler.STATE, Scaler.HEADS, Scaler.W, Scaler.H, Scaler.VTAPS, Scaler.LINES_USED, Scaler.IN_RASTER, Scaler.IN_PERIOD] ++
  [Scaler.TILE_SEQ]

/-! ### Slot (status Table 11.11, 12.12) -/
def Slot.PLAN : Field := ⟨1, 4, false, 0⟩
def Slot.RATE : Field := ⟨2, 1, false, 0⟩
def Slot.TRIM : Field := ⟨3, 18, false, 120001⟩
def Slot.MUTE : Field := ⟨4, 1, false, 0⟩
def Slot.POLARITY : Field := ⟨5, 1, false, 0⟩
def Slot.ACTIVE_ENTRIES : Field := ⟨6, 6, false, 0⟩
def Slot.RAMPING : Field := ⟨7, 1, false, 0⟩
def Slot.LAST_TICK : Field := ⟨8, 64, false, 0⟩
def Slot.CEILING : Field := ⟨9, 11, false, 10⟩
def Slot.LIMIT_GR : Field := ⟨10, 16, false, 0⟩
def Slot.COMP : Field := ⟨11, 14, false, 16383⟩
def Slot.COMP_GR : Field := ⟨12, 16, false, 0⟩
def Slot.DELAY : Field := ⟨13, 17, false, 0⟩
def Slot.CS_MODE : Field := ⟨14, 1, false, 0⟩
/-- Fields of Slot in the order of Table 11.11. -/
def Slot.status : List Field :=
  [Slot.PLAN, Slot.RATE, Slot.TRIM, Slot.MUTE, Slot.POLARITY, Slot.ACTIVE_ENTRIES, Slot.RAMPING, Slot.LAST_TICK]
/-- Fields of Slot in the order of Table 12.12. -/
def Slot.status2 : List Field :=
  [Slot.CEILING, Slot.LIMIT_GR, Slot.COMP, Slot.COMP_GR, Slot.DELAY, Slot.CS_MODE]
def Slot.TRIM_PROFILE : Field := ⟨15, 5, false, 1⟩
def Slot.MUTE_PROFILE : Field := ⟨16, 5, false, 1⟩
/-- Parameters of `slotcfg` (R310), in order. -/
def Slot.slotcfgParams : List Param :=
  [⟨Slot.PLAN, 0, 15, none⟩, ⟨Slot.RATE, 0, 1, none⟩, ⟨Slot.TRIM, 0, 144001, none⟩, ⟨Slot.TRIM_PROFILE, 0, 31, none⟩, ⟨Slot.MUTE, 0, 1, none⟩, ⟨Slot.MUTE_PROFILE, 0, 31, none⟩] ++
  [⟨Slot.POLARITY, 0, 1, none⟩]
def Slot.LOOKAHEAD : Field := ⟨17, 1, false, 0⟩
def Slot.RELEASE : Field := ⟨18, 10, false, 50⟩
/-- Parameters of `limcfg` (R339), in order. -/
def Slot.limcfgParams : List Param :=
  [⟨Slot.CEILING, 0, 2000, none⟩, ⟨Slot.LOOKAHEAD, 0, 1, none⟩, ⟨Slot.RELEASE, 1, 1000, none⟩]
/-- Parameters of `delaycfg` (R343), in order. -/
def Slot.delaycfgParams : List Param :=
  [⟨Slot.DELAY, 0, 131071, none⟩]
def Slot.CS_ACH : Field := ⟨19, 17, false, 0⟩
/-- Parameters of `cscfg` (R357), in order. -/
def Slot.cscfgParams : List Param :=
  [⟨Slot.CS_MODE, 0, 1, none⟩, ⟨Slot.CS_ACH, 0, 131071, none⟩]

/-! ### Comp -/
def Comp.SLOT : Field := ⟨1, 17, false, 131071⟩
def Comp.THRESHOLD : Field := ⟨2, 10, false, 200⟩
def Comp.RATIO : Field := ⟨3, 8, false, 40⟩
def Comp.KNEE : Field := ⟨4, 8, false, 60⟩
def Comp.ATTACK : Field := ⟨5, 10, false, 100⟩
def Comp.RELEASE : Field := ⟨6, 13, false, 200⟩
def Comp.MAKEUP : Field := ⟨7, 8, false, 0⟩
def Comp.DETECT : Field := ⟨8, 1, false, 0⟩
def Comp.LINK : Field := ⟨9, 11, false, 2047⟩
/-- Parameters of `compcfg` (R341), in order. -/
def Comp.compcfgParams : List Param :=
  [⟨Comp.SLOT, 0, 131071, none⟩, ⟨Comp.THRESHOLD, 0, 600, none⟩, ⟨Comp.RATIO, 0, 200, none⟩, ⟨Comp.KNEE, 0, 240, none⟩, ⟨Comp.ATTACK, 1, 1000, none⟩, ⟨Comp.RELEASE, 10, 5000, none⟩] ++
  [⟨Comp.MAKEUP, 0, 240, none⟩, ⟨Comp.DETECT, 0, 1, none⟩, ⟨Comp.LINK, 0, 1023, some 2047⟩]

/-! ### Emb (status Table 11.12) -/
def Emb.ENABLE : Field := ⟨1, 1, false, 0⟩
def Emb.GROUPS : Field := ⟨2, 4, false, 4⟩
def Emb.RATE : Field := ⟨3, 1, false, 0⟩
def Emb.FADE_MS : Field := ⟨4, 8, false, 10⟩
def Emb.FADING : Field := ⟨5, 2, false, 0⟩
def Emb.AFV_SEAT : Field := ⟨6, 12, false, 4095⟩
/-- Fields of Emb in the order of Table 11.12. -/
def Emb.status : List Field :=
  [Emb.ENABLE, Emb.GROUPS, Emb.RATE, Emb.FADE_MS, Emb.FADING, Emb.AFV_SEAT]
def Emb.FADE_LAW : Field := ⟨7, 1, false, 1⟩
def Emb.CH0 : Field := ⟨8, 18, false, 65536⟩
def Emb.CH1 : Field := ⟨9, 18, false, 65537⟩
def Emb.CH2 : Field := ⟨10, 18, false, 65538⟩
def Emb.CH3 : Field := ⟨11, 18, false, 65539⟩
def Emb.CH4 : Field := ⟨12, 18, false, 65540⟩
def Emb.CH5 : Field := ⟨13, 18, false, 65541⟩
def Emb.CH6 : Field := ⟨14, 18, false, 65542⟩
def Emb.CH7 : Field := ⟨15, 18, false, 65543⟩
def Emb.CH8 : Field := ⟨16, 18, false, 65544⟩
def Emb.CH9 : Field := ⟨17, 18, false, 65545⟩
def Emb.CH10 : Field := ⟨18, 18, false, 65546⟩
def Emb.CH11 : Field := ⟨19, 18, false, 65547⟩
def Emb.CH12 : Field := ⟨20, 18, false, 65548⟩
def Emb.CH13 : Field := ⟨21, 18, false, 65549⟩
def Emb.CH14 : Field := ⟨22, 18, false, 65550⟩
def Emb.CH15 : Field := ⟨23, 18, false, 65551⟩
def Emb.CH16 : Field := ⟨24, 18, false, 65552⟩
def Emb.CH17 : Field := ⟨25, 18, false, 65553⟩
def Emb.CH18 : Field := ⟨26, 18, false, 65554⟩
def Emb.CH19 : Field := ⟨27, 18, false, 65555⟩
def Emb.CH20 : Field := ⟨28, 18, false, 65556⟩
def Emb.CH21 : Field := ⟨29, 18, false, 65557⟩
def Emb.CH22 : Field := ⟨30, 18, false, 65558⟩
def Emb.CH23 : Field := ⟨31, 18, false, 65559⟩
def Emb.CH24 : Field := ⟨32, 18, false, 65560⟩
def Emb.CH25 : Field := ⟨33, 18, false, 65561⟩
def Emb.CH26 : Field := ⟨34, 18, false, 65562⟩
def Emb.CH27 : Field := ⟨35, 18, false, 65563⟩
def Emb.CH28 : Field := ⟨36, 18, false, 65564⟩
def Emb.CH29 : Field := ⟨37, 18, false, 65565⟩
def Emb.CH30 : Field := ⟨38, 18, false, 65566⟩
def Emb.CH31 : Field := ⟨39, 18, false, 65567⟩
/-- Parameters of `embcfg` (R327), in order. -/
def Emb.embcfgParams : List Param :=
  [⟨Emb.ENABLE, 0, 1, none⟩, ⟨Emb.GROUPS, 1, 8, none⟩, ⟨Emb.RATE, 0, 1, none⟩, ⟨Emb.FADE_MS, 0, 250, none⟩, ⟨Emb.FADE_LAW, 0, 1, none⟩, ⟨Emb.CH0, 0, 262143, none⟩] ++
  [⟨Emb.CH1, 0, 262143, none⟩, ⟨Emb.CH2, 0, 262143, none⟩, ⟨Emb.CH3, 0, 262143, none⟩, ⟨Emb.CH4, 0, 262143, none⟩, ⟨Emb.CH5, 0, 262143, none⟩, ⟨Emb.CH6, 0, 262143, none⟩] ++
  [⟨Emb.CH7, 0, 262143, none⟩, ⟨Emb.CH8, 0, 262143, none⟩, ⟨Emb.CH9, 0, 262143, none⟩, ⟨Emb.CH10, 0, 262143, none⟩, ⟨Emb.CH11, 0, 262143, none⟩, ⟨Emb.CH12, 0, 262143, none⟩] ++
  [⟨Emb.CH13, 0, 262143, none⟩, ⟨Emb.CH14, 0, 262143, none⟩, ⟨Emb.CH15, 0, 262143, none⟩, ⟨Emb.CH16, 0, 262143, none⟩, ⟨Emb.CH17, 0, 262143, none⟩, ⟨Emb.CH18, 0, 262143, none⟩] ++
  [⟨Emb.CH19, 0, 262143, none⟩, ⟨Emb.CH20, 0, 262143, none⟩, ⟨Emb.CH21, 0, 262143, none⟩, ⟨Emb.CH22, 0, 262143, none⟩, ⟨Emb.CH23, 0, 262143, none⟩, ⟨Emb.CH24, 0, 262143, none⟩] ++
  [⟨Emb.CH25, 0, 262143, none⟩, ⟨Emb.CH26, 0, 262143, none⟩, ⟨Emb.CH27, 0, 262143, none⟩, ⟨Emb.CH28, 0, 262143, none⟩, ⟨Emb.CH29, 0, 262143, none⟩, ⟨Emb.CH30, 0, 262143, none⟩] ++
  [⟨Emb.CH31, 0, 262143, none⟩]

/-! ### Afv -/
def Afv.KIND : Field := ⟨1, 3, false, 0⟩
def Afv.FIRST : Field := ⟨2, 17, false, 0⟩
def Afv.COUNT : Field := ⟨3, 6, false, 32⟩
/-- Parameters of `afvcfg` (R326), in order. -/
def Afv.afvcfgParams : List Param :=
  [⟨Afv.KIND, 0, 4, none⟩, ⟨Afv.FIRST, 0, 131071, none⟩, ⟨Afv.COUNT, 1, 32, none⟩]

/-! ### Deemb (status Table 11.13) -/
def Deemb.ENABLE : Field := ⟨1, 1, false, 0⟩
def Deemb.FIRST_ACH : Field := ⟨2, 17, false, 0⟩
def Deemb.CHANNELS : Field := ⟨3, 6, false, 16⟩
def Deemb.RATE : Field := ⟨4, 1, false, 0⟩
def Deemb.GROUPS_PRESENT : Field := ⟨5, 8, false, 0⟩
/-- Fields of Deemb in the order of Table 11.13. -/
def Deemb.status : List Field :=
  [Deemb.ENABLE, Deemb.FIRST_ACH, Deemb.CHANNELS, Deemb.RATE, Deemb.GROUPS_PRESENT]
/-- Parameters of `deembcfg` (R307), in order. -/
def Deemb.deembcfgParams : List Param :=
  [⟨Deemb.ENABLE, 0, 1, none⟩, ⟨Deemb.FIRST_ACH, 0, 131071, none⟩, ⟨Deemb.CHANNELS, 1, 32, none⟩, ⟨Deemb.RATE, 0, 1, none⟩]

/-! ### Tone -/
def Tone.COUNT : Field := ⟨1, 4, false, 0⟩
def Tone.FIRST_ACH : Field := ⟨2, 17, false, 0⟩
def Tone.FREQ : Field := ⟨3, 18, false, 10000⟩
def Tone.LEVEL : Field := ⟨4, 13, false, 1800⟩
def Tone.IDENT : Field := ⟨5, 8, false, 1⟩
/-- Parameters of `tonecfg` (R308), in order. -/
def Tone.tonecfgParams : List Param :=
  [⟨Tone.COUNT, 0, 8, none⟩, ⟨Tone.FIRST_ACH, 0, 131071, none⟩, ⟨Tone.FREQ, 200, 200000, none⟩, ⟨Tone.LEVEL, 0, 6000, none⟩, ⟨Tone.IDENT, 0, 255, none⟩]

/-! ### Ramp -/
def Ramp.LENGTH : Field := ⟨1, 18, false, 480⟩
def Ramp.LAW : Field := ⟨2, 2, false, 2⟩
/-- Parameters of `rampcfg` (R320), in order. -/
def Ramp.rampcfgParams : List Param :=
  [⟨Ramp.LENGTH, 0, 240000, none⟩, ⟨Ramp.LAW, 0, 3, none⟩]

/-! ### Mix (status Table 11.14) -/
def Mix.LOAD : Field := ⟨1, 22, false, 0⟩
def Mix.LOAD_PEAK : Field := ⟨2, 22, false, 0⟩
/-- Fields of Mix in the order of Table 11.14. -/
def Mix.status : List Field :=
  [Mix.LOAD, Mix.LOAD_PEAK]

/-! ### Stook (status Table 12.11) -/
def Stook.MODE : Field := ⟨1, 2, false, 0⟩
def Stook.STATE : Field := ⟨2, 3, false, 0⟩
def Stook.RATE_OFFSET : Field := ⟨3, 32, true, 0⟩
def Stook.ASRC_LOCK : Field := ⟨4, 1, false, 0⟩
def Stook.CS_A : Field := ⟨5, 192, false, 0⟩
def Stook.CS_B : Field := ⟨6, 192, false, 0⟩
def Stook.NONAUDIO : Field := ⟨7, 1, false, 0⟩
/-- Fields of Stook in the order of Table 12.11. -/
def Stook.status : List Field :=
  [Stook.MODE, Stook.STATE, Stook.RATE_OFFSET, Stook.ASRC_LOCK, Stook.CS_A, Stook.CS_B, Stook.NONAUDIO]
def Stook.CLOCK : Field := ⟨8, 1, false, 0⟩
def Stook.RATE : Field := ⟨9, 1, false, 0⟩
def Stook.CHANNELS : Field := ⟨10, 7, false, 8⟩
def Stook.SLOTW : Field := ⟨11, 2, false, 2⟩
def Stook.FS_FORM : Field := ⟨12, 1, false, 0⟩
def Stook.FS_DELAY : Field := ⟨13, 1, false, 1⟩
def Stook.EDGE : Field := ⟨14, 1, false, 0⟩
def Stook.FIRST : Field := ⟨15, 17, false, 0⟩
def Stook.ASRC : Field := ⟨16, 1, false, 0⟩
def Stook.V_MUTE : Field := ⟨17, 1, false, 0⟩
/-- Parameters of `stookcfg` (R352), in order. -/
def Stook.stookcfgParams : List Param :=
  [⟨Stook.MODE, 0, 2, none⟩, ⟨Stook.CLOCK, 0, 1, none⟩, ⟨Stook.RATE, 0, 1, none⟩, ⟨Stook.CHANNELS, 2, 64, none⟩, ⟨Stook.SLOTW, 0, 2, none⟩, ⟨Stook.FS_FORM, 0, 1, none⟩] ++
  [⟨Stook.FS_DELAY, 0, 1, none⟩, ⟨Stook.EDGE, 0, 1, none⟩, ⟨Stook.FIRST, 0, 131071, none⟩, ⟨Stook.ASRC, 0, 1, none⟩, ⟨Stook.V_MUTE, 0, 1, none⟩]

/-! ### DetProf -/
def DetProf.SIL_LEVEL : Field := ⟨1, 8, false, 60⟩
def DetProf.SIL_TIME : Field := ⟨2, 12, false, 100⟩
def DetProf.CLIP_LEVEL : Field := ⟨3, 8, false, 10⟩
def DetProf.CLIP_RUN : Field := ⟨4, 4, false, 3⟩
def DetProf.DC_LEVEL : Field := ⟨5, 7, false, 50⟩
def DetProf.EVENTS : Field := ⟨6, 1, false, 0⟩
/-- Parameters of `detcfg` (R347), in order. -/
def DetProf.detcfgParams : List Param :=
  [⟨DetProf.SIL_LEVEL, 20, 100, none⟩, ⟨DetProf.SIL_TIME, 1, 3000, none⟩, ⟨DetProf.CLIP_LEVEL, 0, 100, none⟩, ⟨DetProf.CLIP_RUN, 1, 15, none⟩, ⟨DetProf.DC_LEVEL, 20, 100, none⟩, ⟨DetProf.EVENTS, 0, 1, none⟩]

/-! ### Loud (status Table 12.13) -/
def Loud.M : Field := ⟨1, 16, true, -32768⟩
def Loud.S : Field := ⟨2, 16, true, -32768⟩
def Loud.I : Field := ⟨3, 16, true, -32768⟩
def Loud.TP : Field := ⟨4, 16, true, -32768⟩
def Loud.TP_MAX : Field := ⟨5, 16, true, -32768⟩
def Loud.RESET_TICK : Field := ⟨6, 64, false, 0⟩
/-- Fields of Loud in the order of Table 12.13. -/
def Loud.status : List Field :=
  [Loud.M, Loud.S, Loud.I, Loud.TP, Loud.TP_MAX, Loud.RESET_TICK]
def Loud.SPACE : Field := ⟨7, 1, false, 0⟩
def Loud.CH0 : Field := ⟨8, 17, false, 0⟩
def Loud.ROLE0 : Field := ⟨9, 2, false, 0⟩
def Loud.CH1 : Field := ⟨10, 17, false, 0⟩
def Loud.ROLE1 : Field := ⟨11, 2, false, 0⟩
def Loud.CH2 : Field := ⟨12, 17, false, 0⟩
def Loud.ROLE2 : Field := ⟨13, 2, false, 0⟩
def Loud.CH3 : Field := ⟨14, 17, false, 0⟩
def Loud.ROLE3 : Field := ⟨15, 2, false, 0⟩
def Loud.CH4 : Field := ⟨16, 17, false, 0⟩
def Loud.ROLE4 : Field := ⟨17, 2, false, 0⟩
def Loud.CH5 : Field := ⟨18, 17, false, 0⟩
def Loud.ROLE5 : Field := ⟨19, 2, false, 0⟩
def Loud.CH6 : Field := ⟨20, 17, false, 0⟩
def Loud.ROLE6 : Field := ⟨21, 2, false, 0⟩
def Loud.CH7 : Field := ⟨22, 17, false, 0⟩
def Loud.ROLE7 : Field := ⟨23, 2, false, 0⟩
/-- Parameters of `loudcfg` (R349), in order. -/
def Loud.loudcfgParams : List Param :=
  [⟨Loud.SPACE, 0, 1, none⟩, ⟨Loud.CH0, 0, 131071, none⟩, ⟨Loud.ROLE0, 0, 3, none⟩, ⟨Loud.CH1, 0, 131071, none⟩, ⟨Loud.ROLE1, 0, 3, none⟩, ⟨Loud.CH2, 0, 131071, none⟩] ++
  [⟨Loud.ROLE2, 0, 3, none⟩, ⟨Loud.CH3, 0, 131071, none⟩, ⟨Loud.ROLE3, 0, 3, none⟩, ⟨Loud.CH4, 0, 131071, none⟩, ⟨Loud.ROLE4, 0, 3, none⟩, ⟨Loud.CH5, 0, 131071, none⟩] ++
  [⟨Loud.ROLE5, 0, 3, none⟩, ⟨Loud.CH6, 0, 131071, none⟩, ⟨Loud.ROLE6, 0, 3, none⟩, ⟨Loud.CH7, 0, 131071, none⟩, ⟨Loud.ROLE7, 0, 3, none⟩]

/-! ### Corr -/
def Corr.R : Field := ⟨1, 16, true, 0⟩
def Corr.LOW : Field := ⟨2, 1, false, 0⟩
/-- Fields of Corr in the order of R365, R406, R505, R562 or R595. -/
def Corr.statusX : List Field :=
  [Corr.R, Corr.LOW]
def Corr.SPACE : Field := ⟨3, 1, false, 0⟩
def Corr.X : Field := ⟨4, 17, false, 0⟩
def Corr.Y : Field := ⟨5, 17, false, 0⟩
/-- Parameters of `corrcfg` (R350), in order. -/
def Corr.corrcfgParams : List Param :=
  [⟨Corr.SPACE, 0, 1, none⟩, ⟨Corr.X, 0, 131071, none⟩, ⟨Corr.Y, 0, 131071, none⟩]

/-! ### Tap (status Table 12.14) -/
def Tap.ENABLE : Field := ⟨1, 1, false, 0⟩
def Tap.NEXT : Field := ⟨2, 16, false, 0⟩
def Tap.SEQ : Field := ⟨3, 32, false, 0⟩
/-- Fields of Tap in the order of Table 12.14. -/
def Tap.status : List Field :=
  [Tap.ENABLE, Tap.NEXT, Tap.SEQ]
def Tap.SPACE : Field := ⟨4, 1, false, 0⟩
def Tap.FIRST : Field := ⟨5, 17, false, 0⟩
def Tap.CHANNELS : Field := ⟨6, 7, false, 2⟩
def Tap.PACK : Field := ⟨7, 1, false, 0⟩
def Tap.BASE : Field := ⟨8, 28, false, 0⟩
def Tap.BLOCKS : Field := ⟨9, 16, false, 1000⟩
/-- Parameters of `tapcfg` (R362), in order. -/
def Tap.tapcfgParams : List Param :=
  [⟨Tap.ENABLE, 0, 1, none⟩, ⟨Tap.SPACE, 0, 1, none⟩, ⟨Tap.FIRST, 0, 131071, none⟩, ⟨Tap.CHANNELS, 1, 64, none⟩, ⟨Tap.PACK, 0, 1, none⟩, ⟨Tap.BASE, 0, 268435455, none⟩] ++
  [⟨Tap.BLOCKS, 2, 65535, none⟩]

/-! ### Tower (status Table 13.10) -/
def Tower.STATE : Field := ⟨1, 3, false, 0⟩
def Tower.SELECTED : Field := ⟨2, 4, false, 15⟩
def Tower.ACTIVE_TABLE : Field := ⟨3, 2, false, 0⟩
def Tower.DISAGREE : Field := ⟨4, 1, false, 0⟩
def Tower.BW_EFF : Field := ⟨5, 3, false, 2⟩
def Tower.FREQ_NOW : Field := ⟨6, 32, true, 0⟩
def Tower.FREQ_HOLD : Field := ⟨7, 32, true, 0⟩
def Tower.FREQ_TRIM : Field := ⟨8, 32, true, 0⟩
def Tower.PHASE_ERR : Field := ⟨9, 32, true, 0⟩
def Tower.PHASE_PENDING : Field := ⟨10, 32, true, 0⟩
def Tower.HISTORY : Field := ⟨11, 32, false, 0⟩
def Tower.WTR_LEFT : Field := ⟨12, 10, false, 0⟩
def Tower.TRACEABLE : Field := ⟨13, 1, false, 0⟩
/-- Fields of Tower in the order of Table 13.10. -/
def Tower.status : List Field :=
  [Tower.STATE, Tower.SELECTED, Tower.ACTIVE_TABLE, Tower.DISAGREE, Tower.BW_EFF, Tower.FREQ_NOW, Tower.FREQ_HOLD, Tower.FREQ_TRIM] ++
  [Tower.PHASE_ERR, Tower.PHASE_PENDING, Tower.HISTORY, Tower.WTR_LEFT, Tower.TRACEABLE]
def Tower.ACTIVE_TABLE_CFG : Field := ⟨14, 2, false, 0⟩
def Tower.BW : Field := ⟨15, 3, false, 2⟩
def Tower.SLEW_RATE : Field := ⟨16, 10, false, 20⟩
def Tower.DRIFT_MAX : Field := ⟨17, 14, false, 100⟩
def Tower.TIME_ALIGN : Field := ⟨18, 2, false, 1⟩
def Tower.STEP_LIMIT : Field := ⟨19, 20, false, 1000⟩
def Tower.DISAGREE_CFG : Field := ⟨20, 10, false, 10⟩
def Tower.HOLD_WINDOW : Field := ⟨21, 12, false, 300⟩
/-- Parameters of `towercfg` (R377), in order. -/
def Tower.towercfgParams : List Param :=
  [⟨Tower.ACTIVE_TABLE_CFG, 0, 3, none⟩, ⟨Tower.BW, 0, 6, none⟩, ⟨Tower.SLEW_RATE, 1, 1000, none⟩, ⟨Tower.DRIFT_MAX, 1, 10000, none⟩, ⟨Tower.TIME_ALIGN, 0, 2, none⟩, ⟨Tower.STEP_LIMIT, 1, 1000000, none⟩] ++
  [⟨Tower.DISAGREE_CFG, 1, 1000, none⟩, ⟨Tower.HOLD_WINDOW, 1, 3600, none⟩]

/-! ### Cand (status Table 13.11) -/
def Cand.STATE : Field := ⟨1, 3, false, 0⟩
def Cand.PRIORITY : Field := ⟨2, 4, false, 0⟩
def Cand.CAUSE : Field := ⟨3, 3, false, 0⟩
def Cand.FREQ : Field := ⟨4, 32, true, 0⟩
def Cand.PHASE_ERR : Field := ⟨5, 32, true, 0⟩
def Cand.QUAL_LEFT : Field := ⟨6, 8, false, 0⟩
/-- Fields of Cand in the order of Table 13.11. -/
def Cand.status : List Field :=
  [Cand.STATE, Cand.PRIORITY, Cand.CAUSE, Cand.FREQ, Cand.PHASE_ERR, Cand.QUAL_LEFT]
def Cand.ENABLE : Field := ⟨7, 1, false, 0⟩
def Cand.FORMAT : Field := ⟨8, 2, false, 0⟩
def Cand.RASTER : Field := ⟨9, 6, false, 0⟩
def Cand.EDGE : Field := ⟨10, 1, false, 0⟩
def Cand.SEAT : Field := ⟨11, 11, false, 0⟩
def Cand.OFFSET : Field := ⟨12, 32, true, 0⟩
def Cand.FREQ_LIMIT : Field := ⟨13, 10, false, 100⟩
def Cand.QUAL_TIME : Field := ⟨14, 8, false, 10⟩
/-- Parameters of `towercand` (R367), in order. -/
def Cand.towercandParams : List Param :=
  [⟨Cand.ENABLE, 0, 1, none⟩, ⟨Cand.FORMAT, 0, 3, none⟩, ⟨Cand.RASTER, 0, 60, none⟩, ⟨Cand.EDGE, 0, 1, none⟩, ⟨Cand.SEAT, 0, 1151, none⟩, ⟨Cand.OFFSET, -2147483648, 2147483647, none⟩] ++
  [⟨Cand.FREQ_LIMIT, 1, 1000, none⟩, ⟨Cand.QUAL_TIME, 1, 255, none⟩]

/-! ### TTab -/
def TTab.PRIO0 : Field := ⟨1, 4, false, 0⟩
def TTab.PRIO1 : Field := ⟨2, 4, false, 0⟩
def TTab.PRIO2 : Field := ⟨3, 4, false, 0⟩
def TTab.PRIO3 : Field := ⟨4, 4, false, 0⟩
def TTab.PRIO4 : Field := ⟨5, 4, false, 0⟩
def TTab.PRIO5 : Field := ⟨6, 4, false, 0⟩
def TTab.PRIO6 : Field := ⟨7, 4, false, 0⟩
def TTab.PRIO7 : Field := ⟨8, 4, false, 0⟩
def TTab.PRIO8 : Field := ⟨9, 4, false, 0⟩
def TTab.PRIO9 : Field := ⟨10, 4, false, 0⟩
def TTab.PRIO10 : Field := ⟨11, 4, false, 0⟩
def TTab.PRIO11 : Field := ⟨12, 4, false, 0⟩
def TTab.REVERTIVE : Field := ⟨13, 1, false, 0⟩
def TTab.WTR : Field := ⟨14, 10, false, 300⟩
/-- Parameters of `towertable` (R372), in order. -/
def TTab.towertableParams : List Param :=
  [⟨TTab.PRIO0, 0, 15, none⟩, ⟨TTab.PRIO1, 0, 15, none⟩, ⟨TTab.PRIO2, 0, 15, none⟩, ⟨TTab.PRIO3, 0, 15, none⟩, ⟨TTab.PRIO4, 0, 15, none⟩, ⟨TTab.PRIO5, 0, 15, none⟩] ++
  [⟨TTab.PRIO6, 0, 15, none⟩, ⟨TTab.PRIO7, 0, 15, none⟩, ⟨TTab.PRIO8, 0, 15, none⟩, ⟨TTab.PRIO9, 0, 15, none⟩, ⟨TTab.PRIO10, 0, 15, none⟩, ⟨TTab.PRIO11, 0, 15, none⟩] ++
  [⟨TTab.REVERTIVE, 0, 1, none⟩, ⟨TTab.WTR, 0, 900, none⟩]

/-! ### ClkOut -/
def ClkOut.SOURCE : Field := ⟨1, 3, false, 0⟩
def ClkOut.PLAN : Field := ⟨2, 4, false, 0⟩
def ClkOut.OFFSET : Field := ⟨3, 32, true, 0⟩
def ClkOut.SQUELCH : Field := ⟨4, 1, false, 0⟩
/-- Parameters of `clkoutcfg` (R387), in order. -/
def ClkOut.clkoutcfgParams : List Param :=
  [⟨ClkOut.SOURCE, 0, 7, none⟩, ⟨ClkOut.PLAN, 0, 15, none⟩, ⟨ClkOut.OFFSET, -500000000, 500000000, none⟩, ⟨ClkOut.SQUELCH, 0, 1, none⟩]

/-! ### Time (status Table 14.1) -/
def Time.NOW_S : Field := ⟨1, 48, false, 0⟩
def Time.NOW_NS : Field := ⟨2, 32, false, 0⟩
def Time.NOW_SUBNS : Field := ⟨3, 16, false, 0⟩
def Time.MILESTONE : Field := ⟨4, 32, false, 0⟩
def Time.LOCKED_TIME : Field := ⟨5, 1, false, 0⟩
/-- Fields of Time in the order of Table 14.1. -/
def Time.status : List Field :=
  [Time.NOW_S, Time.NOW_NS, Time.NOW_SUBNS, Time.MILESTONE, Time.LOCKED_TIME]

/-! ### Ptp (status Table 14.9) -/
def Ptp.STATE : Field := ⟨1, 3, false, 0⟩
def Ptp.PARENT_PORT : Field := ⟨2, 80, false, 0⟩
def Ptp.GM_ID : Field := ⟨3, 64, false, 0⟩
def Ptp.GM_CLASS : Field := ⟨4, 8, false, 0⟩
def Ptp.GM_ACCURACY : Field := ⟨5, 8, false, 0⟩
def Ptp.STEPS_REMOVED : Field := ⟨6, 16, false, 0⟩
def Ptp.UTC_OFFSET : Field := ⟨7, 16, false, 0⟩
def Ptp.UTC_FLAGS : Field := ⟨8, 3, false, 0⟩
def Ptp.LOG_SYNC : Field := ⟨9, 4, true, 0⟩
def Ptp.MEAN_DELAY : Field := ⟨10, 32, false, 0⟩
def Ptp.LAST_E : Field := ⟨11, 32, true, 0⟩
/-- Fields of Ptp in the order of Table 14.9. -/
def Ptp.status : List Field :=
  [Ptp.STATE, Ptp.PARENT_PORT, Ptp.GM_ID, Ptp.GM_CLASS, Ptp.GM_ACCURACY, Ptp.STEPS_REMOVED, Ptp.UTC_OFFSET, Ptp.UTC_FLAGS] ++
  [Ptp.LOG_SYNC, Ptp.MEAN_DELAY, Ptp.LAST_E]
def Ptp.ENABLE : Field := ⟨12, 1, false, 0⟩
def Ptp.MAC : Field := ⟨13, 8, false, 0⟩
def Ptp.TRANSPORT : Field := ⟨14, 2, false, 1⟩
def Ptp.VLAN : Field := ⟨15, 12, false, 0⟩
def Ptp.DSCP : Field := ⟨16, 6, false, 46⟩
def Ptp.DOMAIN : Field := ⟨17, 8, false, 127⟩
def Ptp.DELAY_MECH : Field := ⟨18, 1, false, 0⟩
def Ptp.LOG_DELAY_REQ : Field := ⟨19, 4, true, -3⟩
def Ptp.ANNOUNCE_TIMEOUT : Field := ⟨20, 4, false, 3⟩
def Ptp.DELAY_WINDOW : Field := ⟨21, 8, false, 16⟩
def Ptp.OUTLIER : Field := ⟨22, 16, false, 100⟩
def Ptp.ACCEPT_GM : Field := ⟨23, 64, false, 0⟩
/-- Parameters of `ptpcfg` (R394), in order. -/
def Ptp.ptpcfgParams : List Param :=
  [⟨Ptp.ENABLE, 0, 1, none⟩, ⟨Ptp.MAC, 0, 143, none⟩, ⟨Ptp.TRANSPORT, 0, 2, none⟩, ⟨Ptp.VLAN, 0, 4094, none⟩, ⟨Ptp.DSCP, 0, 63, none⟩, ⟨Ptp.DOMAIN, 0, 127, none⟩] ++
  [⟨Ptp.DELAY_MECH, 0, 1, none⟩, ⟨Ptp.LOG_DELAY_REQ, -7, 5, none⟩, ⟨Ptp.ANNOUNCE_TIMEOUT, 2, 10, none⟩, ⟨Ptp.DELAY_WINDOW, 1, 128, none⟩, ⟨Ptp.OUTLIER, 1, 65535, none⟩, ⟨Ptp.ACCEPT_GM, 0, 18446744073709551615, none⟩]

/-! ### Capt -/
def Capt.WRITE_SEQ : Field := ⟨1, 32, false, 0⟩
/-- Fields of Capt in the order of R365, R406, R505, R562 or R595. -/
def Capt.statusX : List Field :=
  [Capt.WRITE_SEQ]
def Capt.EDGES : Field := ⟨2, 2, false, 0⟩
def Capt.EVENT : Field := ⟨3, 1, false, 0⟩
/-- Parameters of `captcfg` (R405), in order. -/
def Capt.captcfgParams : List Param :=
  [⟨Capt.EDGES, 0, 3, none⟩, ⟨Capt.EVENT, 0, 1, none⟩]

/-! ### Tt -/
def Tt.MODE : Field := ⟨1, 3, false, 0⟩
def Tt.POLARITY : Field := ⟨2, 1, false, 0⟩
def Tt.LEVEL : Field := ⟨3, 1, false, 0⟩
def Tt.START_S : Field := ⟨4, 48, false, 0⟩
def Tt.START_NS : Field := ⟨5, 32, false, 0⟩
def Tt.WIDTH : Field := ⟨6, 32, false, 1000⟩
def Tt.PERIOD : Field := ⟨7, 32, false, 1000000000⟩
def Tt.PLAN : Field := ⟨8, 4, false, 0⟩
def Tt.TICK_OFFSET : Field := ⟨9, 32, true, 0⟩
/-- Parameters of `ttcfg` (R407), in order. -/
def Tt.ttcfgParams : List Param :=
  [⟨Tt.MODE, 0, 4, none⟩, ⟨Tt.POLARITY, 0, 1, none⟩, ⟨Tt.LEVEL, 0, 1, none⟩, ⟨Tt.START_S, 0, 281474976710655, none⟩, ⟨Tt.START_NS, 0, 999999999, none⟩, ⟨Tt.WIDTH, 0, 4000000000, none⟩] ++
  [⟨Tt.PERIOD, 100, 4000000000, none⟩, ⟨Tt.PLAN, 0, 15, none⟩, ⟨Tt.TICK_OFFSET, -40000, 1000000, none⟩]

/-! ### Twin (status Table 15.10) -/
def Twin.ROLE : Field := ⟨1, 2, false, 0⟩
def Twin.SIDE : Field := ⟨2, 1, false, 0⟩
def Twin.PAIR : Field := ⟨3, 3, false, 0⟩
def Twin.PARTNER_ROLE : Field := ⟨4, 2, false, 0⟩
def Twin.ROLE_FAULT : Field := ⟨5, 1, false, 0⟩
def Twin.SUSPECT_SELF : Field := ⟨6, 1, false, 0⟩
def Twin.SUSPECT_PARTNER : Field := ⟨7, 1, false, 0⟩
def Twin.DECIDE : Field := ⟨8, 1, false, 0⟩
def Twin.UNREPLICATED : Field := ⟨9, 1, false, 0⟩
def Twin.ALLEY_LANES : Field := ⟨10, 4, false, 0⟩
def Twin.HB_AGE : Field := ⟨11, 16, false, 65535⟩
def Twin.PARTNER_MAJOR : Field := ⟨12, 4, false, 0⟩
def Twin.STEP_TICK : Field := ⟨13, 64, false, 0⟩
def Twin.LOG_NEXT : Field := ⟨14, 8, false, 0⟩
def Twin.LOG_COUNT : Field := ⟨15, 32, false, 0⟩
/-- Fields of Twin in the order of Table 15.10. -/
def Twin.status : List Field :=
  [Twin.ROLE, Twin.SIDE, Twin.PAIR, Twin.PARTNER_ROLE, Twin.ROLE_FAULT, Twin.SUSPECT_SELF, Twin.SUSPECT_PARTNER, Twin.DECIDE] ++
  [Twin.UNREPLICATED, Twin.ALLEY_LANES, Twin.HB_AGE, Twin.PARTNER_MAJOR, Twin.STEP_TICK, Twin.LOG_NEXT, Twin.LOG_COUNT]
def Twin.MODE : Field := ⟨16, 1, false, 0⟩
def Twin.TWIN_PLAN : Field := ⟨17, 4, false, 0⟩
def Twin.AUTO_YIELD : Field := ⟨18, 1, false, 1⟩
def Twin.COMPARE : Field := ⟨19, 2, false, 3⟩
def Twin.TAKEOVER_HOLD : Field := ⟨20, 4, false, 1⟩
/-- Parameters of `twincfg` (R442), in order. -/
def Twin.twincfgParams : List Param :=
  [⟨Twin.MODE, 0, 1, none⟩, ⟨Twin.TWIN_PLAN, 0, 15, none⟩, ⟨Twin.AUTO_YIELD, 0, 1, none⟩, ⟨Twin.COMPARE, 0, 3, none⟩, ⟨Twin.TAKEOVER_HOLD, 0, 10, none⟩]

/-! ### Harv (status Table 17.5) -/
def Harv.ARMED : Field := ⟨1, 1, false, 0⟩
def Harv.ARMED_TRIGGER : Field := ⟨2, 2, false, 0⟩
def Harv.ARMED_T_S : Field := ⟨3, 48, false, 0⟩
def Harv.ARMED_T_NS : Field := ⟨4, 32, false, 0⟩
def Harv.LAST_SEQ : Field := ⟨5, 64, false, 0⟩
/-- Fields of Harv in the order of Table 17.5. -/
def Harv.status : List Field :=
  [Harv.ARMED, Harv.ARMED_TRIGGER, Harv.ARMED_T_S, Harv.ARMED_T_NS, Harv.LAST_SEQ]

/-! ### Crier (status Table 17.7) -/
def Crier.WRITE_PTR : Field := ⟨1, 12, false, 0⟩
def Crier.READ_PTR : Field := ⟨2, 12, false, 0⟩
def Crier.UNREAD : Field := ⟨3, 13, false, 0⟩
def Crier.OVERFLOW : Field := ⟨4, 1, false, 0⟩
/-- Fields of Crier in the order of Table 17.7. -/
def Crier.status : List Field :=
  [Crier.WRITE_PTR, Crier.READ_PTR, Crier.UNREAD, Crier.OVERFLOW]

/-! ### Hostp (status Table 18.6) -/
def Hostp.STATIC_ADDR : Field := ⟨1, 7, false, 0⟩
def Hostp.DYN_ADDR : Field := ⟨2, 7, false, 0⟩
def Hostp.MODE : Field := ⟨3, 2, false, 0⟩
def Hostp.ENINT : Field := ⟨4, 1, false, 0⟩
def Hostp.MRL : Field := ⟨5, 16, false, 4096⟩
def Hostp.MWL : Field := ⟨6, 16, false, 65535⟩
def Hostp.IBI_MASK : Field := ⟨7, 10, false, 0⟩
def Hostp.IBI_PENDING : Field := ⟨8, 10, false, 0⟩
/-- Fields of Hostp in the order of Table 18.6. -/
def Hostp.status : List Field :=
  [Hostp.STATIC_ADDR, Hostp.DYN_ADDR, Hostp.MODE, Hostp.ENINT, Hostp.MRL, Hostp.MWL, Hostp.IBI_MASK, Hostp.IBI_PENDING]

/-! ### Boot (status Table 19.10) -/
def Boot.STAGE : Field := ⟨1, 3, false, 0⟩
def Boot.BOOT_PINS : Field := ⟨2, 2, false, 0⟩
def Boot.RECOVERY_CAUSE : Field := ⟨3, 2, false, 0⟩
def Boot.SLOT_RUNNING : Field := ⟨4, 1, false, 0⟩
def Boot.BANK : Field := ⟨5, 1, false, 0⟩
def Boot.TRIAL : Field := ⟨6, 1, false, 0⟩
def Boot.TRIES : Field := ⟨7, 2, false, 0⟩
def Boot.SLOTA_STATE : Field := ⟨8, 3, false, 0⟩
def Boot.SLOTB_STATE : Field := ⟨9, 3, false, 0⟩
def Boot.SLOTA_CHECK : Field := ⟨10, 4, false, 0⟩
def Boot.SLOTB_CHECK : Field := ⟨11, 4, false, 0⟩
def Boot.SLOTA_VERSION : Field := ⟨12, 32, false, 0⟩
def Boot.SLOTB_VERSION : Field := ⟨13, 32, false, 0⟩
def Boot.SLOTA_SVN : Field := ⟨14, 7, false, 0⟩
def Boot.SLOTB_SVN : Field := ⟨15, 7, false, 0⟩
def Boot.OTP_SVN : Field := ⟨16, 7, false, 0⟩
def Boot.RUN_VERSION : Field := ⟨17, 32, false, 0⟩
def Boot.ACT_STATE : Field := ⟨18, 3, false, 0⟩
def Boot.ACT_TICK : Field := ⟨19, 64, false, 0⟩
def Boot.SETTINGS_FORMAT : Field := ⟨20, 16, false, 0⟩
def Boot.SETTINGS_SEQ : Field := ⟨21, 64, false, 0⟩
def Boot.NODE : Field := ⟨22, 16, false, 65534⟩
def Boot.LAST_BOOT_MS : Field := ⟨23, 16, false, 0⟩
/-- Fields of Boot in the order of Table 19.10. -/
def Boot.status : List Field :=
  [Boot.STAGE, Boot.BOOT_PINS, Boot.RECOVERY_CAUSE, Boot.SLOT_RUNNING, Boot.BANK, Boot.TRIAL, Boot.TRIES, Boot.SLOTA_STATE] ++
  [Boot.SLOTB_STATE, Boot.SLOTA_CHECK, Boot.SLOTB_CHECK, Boot.SLOTA_VERSION, Boot.SLOTB_VERSION, Boot.SLOTA_SVN, Boot.SLOTB_SVN, Boot.OTP_SVN] ++
  [Boot.RUN_VERSION, Boot.ACT_STATE, Boot.ACT_TICK, Boot.SETTINGS_FORMAT, Boot.SETTINGS_SEQ, Boot.NODE, Boot.LAST_BOOT_MS]

/-! ### Power (status Table 20.6) -/
def Power.DORMANT : Field := ⟨1, 1, false, 0⟩
def Power.V_VCORE : Field := ⟨2, 16, false, 0⟩
def Power.V_VSRAM : Field := ⟨3, 16, false, 0⟩
def Power.V_VLANE_A : Field := ⟨4, 16, false, 0⟩
def Power.V_VLANE_H : Field := ⟨5, 16, false, 0⟩
def Power.V_VDDQ_B : Field := ⟨6, 16, false, 0⟩
def Power.V_VDD2_B : Field := ⟨7, 16, false, 0⟩
def Power.V_VAON : Field := ⟨8, 16, false, 0⟩
def Power.V_VIO : Field := ⟨9, 16, false, 0⟩
def Power.I_VCORE : Field := ⟨10, 16, false, 0⟩
def Power.I_VSRAM : Field := ⟨11, 16, false, 0⟩
def Power.I_VLANE_A : Field := ⟨12, 16, false, 0⟩
def Power.I_VLANE_H : Field := ⟨13, 16, false, 0⟩
def Power.I_VDDQ_B : Field := ⟨14, 16, false, 0⟩
def Power.I_VDD2_B : Field := ⟨15, 16, false, 0⟩
def Power.I_VAON : Field := ⟨16, 16, false, 0⟩
def Power.I_VIO : Field := ⟨17, 16, false, 0⟩
def Power.TJ0 : Field := ⟨18, 12, true, 0⟩
def Power.TJ1 : Field := ⟨19, 12, true, 0⟩
def Power.TJ2 : Field := ⟨20, 12, true, 0⟩
def Power.TJ3 : Field := ⟨21, 12, true, 0⟩
def Power.TJ4 : Field := ⟨22, 12, true, 0⟩
def Power.TJ5 : Field := ⟨23, 12, true, 0⟩
def Power.TJ6 : Field := ⟨24, 12, true, 0⟩
def Power.TJ7 : Field := ⟨25, 12, true, 0⟩
def Power.TJ_MAX : Field := ⟨26, 12, true, 0⟩
def Power.POWER_EST : Field := ⟨27, 16, false, 0⟩
/-- Fields of Power in the order of Table 20.6. -/
def Power.status : List Field :=
  [Power.DORMANT, Power.V_VCORE, Power.V_VSRAM, Power.V_VLANE_A, Power.V_VLANE_H, Power.V_VDDQ_B, Power.V_VDD2_B, Power.V_VAON] ++
  [Power.V_VIO, Power.I_VCORE, Power.I_VSRAM, Power.I_VLANE_A, Power.I_VLANE_H, Power.I_VDDQ_B, Power.I_VDD2_B, Power.I_VAON] ++
  [Power.I_VIO, Power.TJ0, Power.TJ1, Power.TJ2, Power.TJ3, Power.TJ4, Power.TJ5, Power.TJ6] ++
  [Power.TJ7, Power.TJ_MAX, Power.POWER_EST]

/-! ### Arcade -/
def Arcade.REMAP : Field := ⟨1, 1, false, 0⟩
/-- Fields of Arcade in the order of R365, R406, R505, R562 or R595. -/
def Arcade.statusX : List Field :=
  [Arcade.REMAP]

/-! ### Slew (status Table 20.7) -/
def Slew.TT : Field := ⟨1, 2, false, 1⟩
def Slew.CLKOUT : Field := ⟨2, 2, false, 2⟩
def Slew.STATUS : Field := ⟨3, 2, false, 0⟩
def Slew.STOOK : Field := ⟨4, 2, false, 1⟩
def Slew.QSPI : Field := ⟨5, 2, false, 2⟩
/-- Fields of Slew in the order of Table 20.7. -/
def Slew.status : List Field :=
  [Slew.TT, Slew.CLKOUT, Slew.STATUS, Slew.STOOK, Slew.QSPI]

/-! ### Barn -/
def Barn.RT_TOTAL_MBS : Field := ⟨1, 20, false, 0⟩
def Barn.CAP_TOTAL_MBS : Field := ⟨2, 20, false, 0⟩
/-- Fields of Barn in the order of R365, R406, R505, R562 or R595. -/
def Barn.statusX : List Field :=
  [Barn.RT_TOTAL_MBS, Barn.CAP_TOTAL_MBS]

/-! ### Chan (status Table 20.8) -/
def Chan.CAPACITY_MB : Field := ⟨1, 16, false, 0⟩
def Chan.POOL_FREE_MB : Field := ⟨2, 16, false, 0⟩
def Chan.RT_MBS : Field := ⟨3, 16, false, 0⟩
def Chan.CAP_MBS : Field := ⟨4, 16, false, 0⟩
def Chan.SELF_REFRESH : Field := ⟨5, 1, false, 0⟩
/-- Fields of Chan in the order of Table 20.8. -/
def Chan.status : List Field :=
  [Chan.CAPACITY_MB, Chan.POOL_FREE_MB, Chan.RT_MBS, Chan.CAP_MBS, Chan.SELF_REFRESH]

/-! ### Probe (status Table 21.6) -/
def Probe.FUNCTION : Field := ⟨1, 2, false, 0⟩
def Probe.CAPT_BUSY : Field := ⟨2, 1, false, 0⟩
def Probe.FROZEN : Field := ⟨3, 1, false, 0⟩
def Probe.LAST_LINE : Field := ⟨4, 12, false, 0⟩
def Probe.LINE_WORDS : Field := ⟨5, 16, false, 0⟩
def Probe.FRAME_LINES : Field := ⟨6, 12, false, 0⟩
def Probe.LAST_CRC : Field := ⟨7, 32, false, 0⟩
def Probe.PICTURE_HASH : Field := ⟨8, 32, false, 0⟩
def Probe.OFFSET : Field := ⟨9, 32, true, 0⟩
def Probe.OFFSET_MIN : Field := ⟨10, 32, true, 0⟩
def Probe.OFFSET_MAX : Field := ⟨11, 32, true, 0⟩
/-- Fields of Probe in the order of Table 21.6. -/
def Probe.status : List Field :=
  [Probe.FUNCTION, Probe.CAPT_BUSY, Probe.FROZEN, Probe.LAST_LINE, Probe.LINE_WORDS, Probe.FRAME_LINES, Probe.LAST_CRC, Probe.PICTURE_HASH] ++
  [Probe.OFFSET, Probe.OFFSET_MIN, Probe.OFFSET_MAX]
def Probe.FREEZE_FRAMES : Field := ⟨12, 8, false, 50⟩
def Probe.FIRST : Field := ⟨13, 12, false, 0⟩
def Probe.LAST : Field := ⟨14, 12, false, 0⟩
def Probe.ADDR : Field := ⟨15, 40, false, 0⟩
/-- Parameters of `watchcfg` (R455), in order. -/
def Probe.watchcfgParams : List Param :=
  [⟨Probe.FUNCTION, 0, 3, none⟩, ⟨Probe.FREEZE_FRAMES, 1, 255, none⟩, ⟨Probe.FIRST, 0, 4095, none⟩, ⟨Probe.LAST, 0, 4095, none⟩, ⟨Probe.ADDR, 0, 1099511627775, none⟩]

/-! ### Ident (status Table 21.7) -/
def Ident.PART : Field := ⟨1, 16, false, 4434⟩
def Ident.FAMILY : Field := ⟨2, 8, false, 76⟩
def Ident.SILICON_REV : Field := ⟨3, 12, false, 0⟩
def Ident.GRADE : Field := ⟨4, 1, false, 0⟩
def Ident.AVENUES : Field := ⟨5, 6, false, 36⟩
def Ident.TRIB_SEATS : Field := ⟨6, 12, false, 1152⟩
def Ident.PACKET_SEATS : Field := ⟨7, 12, false, 1152⟩
def Ident.CELLS : Field := ⟨8, 12, false, 2688⟩
def Ident.MACS : Field := ⟨9, 8, false, 144⟩
def Ident.MACS_400G : Field := ⟨10, 6, false, 36⟩
def Ident.GRANARY_SLOTS : Field := ⟨11, 8, false, 128⟩
def Ident.SCALERS : Field := ⟨12, 8, false, 192⟩
def Ident.HEADS : Field := ⟨13, 5, false, 16⟩
def Ident.SIGNPOSTS : Field := ⟨14, 6, false, 48⟩
def Ident.RETURN_SEATS : Field := ⟨15, 8, false, 192⟩
def Ident.PROBES : Field := ⟨16, 7, false, 64⟩
def Ident.OUTPUT_SLOTS : Field := ⟨17, 17, false, 65536⟩
def Ident.ACHANNELS : Field := ⟨18, 18, false, 131072⟩
def Ident.SHEAF_ENTRIES : Field := ⟨19, 22, false, 2097152⟩
def Ident.BARN_CHANNELS : Field := ⟨20, 5, false, 24⟩
def Ident.DIE_ID : Field := ⟨21, 64, false, 0⟩
/-- Fields of Ident in the order of Table 21.7. -/
def Ident.status : List Field :=
  [Ident.PART, Ident.FAMILY, Ident.SILICON_REV, Ident.GRADE, Ident.AVENUES, Ident.TRIB_SEATS, Ident.PACKET_SEATS, Ident.CELLS] ++
  [Ident.MACS, Ident.MACS_400G, Ident.GRANARY_SLOTS, Ident.SCALERS, Ident.HEADS, Ident.SIGNPOSTS, Ident.RETURN_SEATS, Ident.PROBES] ++
  [Ident.OUTPUT_SLOTS, Ident.ACHANNELS, Ident.SHEAF_ENTRIES, Ident.BARN_CHANNELS, Ident.DIE_ID]

end Sys2Proof.Machine
end

