-- ==== Sys2Proof/Machine/Units.lean ====
section
/-!
DEFINITION. Unit IDs, classes and parents of Table 21.2 (R564), and the numbers the model gives array elements and
other things the spec configures that have no unit ID (a-channels, output slots, meters, tables: R565). Element
numbers lie above 0xFFFF, so they never meet a unit ID.
-/
namespace Sys2Proof.Machine.U

def square : Nat := 0x0AA0
def quarter (q : Nat) : Nat := 0x0A9C + q
def block (b : Nat) : Nat := 0x0A80 + b
def cell (d : Nat) : Nat := d
def kerb (k : Nat) : Nat := 0x0B00 + k
def trib (t : Nat) : Nat := 0x1400 + t
def avenue (a : Nat) : Nat := 0x1880 + a
def lane (i : Nat) : Nat := 0x1900 + i
def mac (m : Nat) : Nat := 0x1B00 + m
def packetEngine : Nat := 0x1B90
def rx (c : Nat) : Nat := 0x2000 + c
def tx (c : Nat) : Nat := 0x4000 + c
def fwd (o : Nat) : Nat := 0x6000 + o
def granary : Nat := 0x6400
def gran (s : Nat) : Nat := 0x6401 + s
def sub (s j : Nat) : Nat := 0x6500 + 8 * s + j
def winnow : Nat := 0x6900
def scaler (w : Nat) : Nat := 0x6901 + w
def plaza : Nat := 0x6A00
def head (h : Nat) : Nat := 0x6A01 + h
def layer (h l : Nat) : Nat := 0x6C00 + 64 * h + l
def barn : Nat := 0x7000
def chan (n : Nat) : Nat := 0x7001 + n
def deemb (k : Nat) : Nat := 0x7100 + k
def emb (d : Nat) : Nat := 0x7A00 + d
def audio : Nat := 0x8300
def mix : Nat := 0x8301
def detector : Nat := 0x8302
def stookPort (n : Nat) : Nat := 0x8310 + n
def stookSide (n side : Nat) : Nat := 0x8320 + 2 * n + side
def tap (t : Nat) : Nat := 0x8340 + t
def bankAch : Nat := 0x8380
def bankSlot : Nat := 0x8381
def bankComp : Nat := 0x8382
def bankLoud : Nat := 0x8383
def bankCorr : Nat := 0x8384
def bankCls : Nat := 0x8385
def thread (n : Nat) : Nat := 0x8400 + n
def queue (q : Nat) : Nat := 0x8440 + q
def plan (p : Nat) : Nat := 0x8480 + p
def sign (g : Nat) : Nat := 0x84A0 + g
def ret (r : Nat) : Nat := 0x8500 + r
def sbundle (b : Nat) : Nat := 0x8600 + b
def dbundle (b : Nat) : Nat := 0x8800 + b
def tower : Nat := 0x8A00
def cand (n : Nat) : Nat := 0x8A01 + n
def ptp (i : Nat) : Nat := 0x8A10 + i
def time : Nat := 0x8A20
def capt (n : Nat) : Nat := 0x8A21 + n
def tt (n : Nat) : Nat := 0x8A25 + n
def clkout (n : Nat) : Nat := 0x8A29 + n
def twin : Nat := 0x8B00
def harvest : Nat := 0x8B01
def crier : Nat := 0x8B02
def boot : Nat := 0x8B03
def host : Nat := 0x8B04
def power : Nat := 0x8B05
def arcade : Nat := 0x8B06
def io : Nat := 0x8B07
def master (m : Nat) : Nat := 0x8B08 + m
def target (n : Nat) : Nat := 0x8B10 + n
def identity : Nat := 0x8B20

/-! Elements without a unit ID. -/
def ach (a : Nat) : Nat := 0x100000 + a
def slot (n : Nat) : Nat := 0x200000 + n
def comp (n : Nat) : Nat := 0x300000 + n
def loud (n : Nat) : Nat := 0x310000 + n
def corr (n : Nat) : Nat := 0x320000 + n
def clsEntry (n : Nat) : Nat := 0x330000 + n
def ramp (n : Nat) : Nat := 0x340000 + n
def detProf (n : Nat) : Nat := 0x350000 + n
def tone (n : Nat) : Nat := 0x360000 + n
def towerTable (n : Nat) : Nat := 0x370000 + n
def afv (k : Nat) : Nat := 0x380000 + k
def tcGroup (g : Nat) : Nat := 0x390000 + g
def mcast (g : Nat) : Nat := 0x3A0000 + g
def probe (p : Nat) : Nat := 0x3B0000 + p

/-- The rows of Table 21.2: the first unit ID, how many follow on, and their CLASS. -/
def classRows : List (Nat × Nat × Nat) :=
  [(0x0000, 2688, 0x04), (0x0A80, 28, 0x03), (0x0A9C, 4, 0x02), (0x0AA0, 1, 0x01), (0x0B00, 2304, 0x05), (0x1400, 1152, 0x06),
   (0x1880, 36, 0x07), (0x1900, 294, 0x08), (0x1B00, 144, 0x0A), (0x1B90, 1, 0x09), (0x2000, 8192, 0x0B), (0x4000, 8192, 0x0C),
   (0x6000, 1024, 0x0D), (0x6400, 1, 0x10), (0x6401, 128, 0x11), (0x6500, 1024, 0x12), (0x6900, 1, 0x13), (0x6901, 192, 0x14),
   (0x6A00, 1, 0x15), (0x6A01, 16, 0x16), (0x6C00, 1024, 0x17), (0x7000, 1, 0x18), (0x7001, 24, 0x19), (0x7100, 2304, 0x23),
   (0x7A00, 2304, 0x24), (0x8300, 1, 0x20), (0x8301, 1, 0x21), (0x8302, 1, 0x22)] ++
  [(0x8310, 16, 0x25), (0x8320, 32, 0x26), (0x8340, 64, 0x27), (0x8380, 6, 0x28), (0x8400, 64, 0x30), (0x8440, 10, 0x31),
   (0x8480, 16, 0x32), (0x84A0, 48, 0x33), (0x8500, 192, 0x34), (0x8600, 512, 0x35), (0x8800, 512, 0x36), (0x8A00, 1, 0x40),
   (0x8A01, 12, 0x41), (0x8A10, 2, 0x42), (0x8A20, 1, 0x43), (0x8A21, 4, 0x44), (0x8A25, 4, 0x45), (0x8A29, 2, 0x46),
   (0x8B00, 1, 0x50), (0x8B01, 1, 0x51), (0x8B02, 1, 0x52), (0x8B03, 1, 0x53), (0x8B04, 1, 0x54), (0x8B05, 1, 0x55),
   (0x8B06, 1, 0x56), (0x8B07, 1, 0x57), (0x8B08, 8, 0x58), (0x8B10, 6, 0x59), (0x8B20, 1, 0x5A)]

/-- CLASS of a unit ID; 0 where Table 21.2 assigns none. -/
def classOf (u : Nat) : Nat :=
  match classRows.find? fun r => decide (r.1 ≤ u) && decide (u < r.1 + r.2.1) with
  | some r => r.2.2
  | none => 0

/-- PARENT of a unit ID (Table 21.2); 0xFFFF for a top-level or unassigned unit. -/
def parentOf (u : Nat) : Nat :=
  match classOf u with
  | 0x02 => square
  | 0x03 => quarter ((u - 0x0A80) / 7)
  | 0x04 => block (u / 96)
  | 0x05 => if u - 0x0B00 ≤ 1151 then trib (u - 0x0B00) else packetEngine
  | 0x08 => if u - 0x1900 < 288 then avenue ((u - 0x1900) / 8) else if u - 0x1900 < 292 then twin else boot
  | 0x0A => packetEngine | 0x0B => packetEngine | 0x0C => packetEngine | 0x0D => packetEngine
  | 0x11 => granary
  | 0x12 => gran ((u - 0x6500) / 8)
  | 0x14 => winnow | 0x16 => plaza
  | 0x17 => head ((u - 0x6C00) / 64)
  | 0x19 => barn
  | 0x21 => audio | 0x22 => audio | 0x23 => audio | 0x24 => audio | 0x25 => audio | 0x27 => audio
  | 0x26 => stookPort ((u - 0x8320) / 2)
  | 0x28 => if u = bankCls then packetEngine else audio
  | 0x41 => tower | 0x42 => tower | 0x46 => tower
  | 0x44 => time | 0x45 => time
  | 0x58 => arcade | 0x59 => arcade
  | _ => 0xFFFF

/-- The unit is at a power-gated level of Table 1.6, so that its STATE resets to OFF (R42, R591). -/
def gated (u : Nat) : Bool :=
  let c := classOf u
  c == 0x11 || c == 0x14 || c == 0x16 || c == 0x19 || c == 0x0A || c == 0x25 || c == 0x22 || c == 0x08

/-- Clock domain that a unit stops with (Table 1.9, R510): 0 Square, 1 Mill, 2 Lamplighter, 3 Steward, 4 lane PCS, 5
Lantern. The spec names what each domain serves only in outline (DESIGN CHOICE, notes/assumptions/20.md). -/
def domainOf (u : Nat) : Nat :=
  let c := classOf u
  if c = 0x07 ∨ c = 0x08 then 4
  else if c ≤ 0x06 ∨ (0x32 ≤ c ∧ c ≤ 0x36) then 0
  else if c ≤ 0x28 then 1
  else if c = 0x30 ∨ c = 0x31 then 2
  else if c = 0x53 ∨ c = 0x54 ∨ c = 0x55 ∨ c = 0x57 then 5
  else 3

/-- Member units of a group unit (Table 1.6), lowest ID first; empty for a unit that is no group. -/
def members (u : Nat) : List Nat :=
  match classOf u with
  | 0x01 => List.range 2688
  | 0x02 => (List.range 672).map (· + 672 * (u - 0x0A9C))
  | 0x03 => (List.range 96).map (· + 96 * (u - 0x0A80))
  | 0x07 => (List.range 8).map fun i => lane (8 * (u - 0x1880) + i)
  | 0x09 => (List.range 144).map mac
  | 0x10 => (List.range 128).map gran
  | 0x11 => (List.range 8).map fun j => sub (u - 0x6401) j
  | 0x13 => (List.range 192).map scaler
  | 0x15 => (List.range 16).map head
  | 0x16 => (List.range 64).map fun l => layer (u - 0x6A01) l
  | 0x18 => (List.range 24).map chan
  | 0x20 => [mix, detector] ++ (List.range 16).map stookPort
  | 0x40 => (List.range 12).map cand ++ (List.range 2).map ptp
  | _ => []

end Sys2Proof.Machine.U
end

