-- ==== Sys2Proof/Machine/State.lean ====
section
/-!
DEFINITION. The state of the block as plain data, its reset, and the two closed reason types. Everything the spec
names is held here: registers and stored configuration in `regs`, counters in `ctrs`, thread registers, the Ledger,
errand queues and reply rings, staged generations and armed banks, audio and picture stores, rings and logs.
-/
namespace Sys2Proof.Machine

/-- Reasons a command stops the block. -/
inductive Fault where
  /-- Never raised by a modelled command; kept so that the type is inhabited (safe). -/
  | none
deriving DecidableEq, Repr

/-- Reasons a command has no meaning. -/
inductive Refusal where
  /-- The command's arm is not written yet (safe: nothing is claimed of it). -/
  | notModelled (mnemonic : String)
deriving DecidableEq, Repr

/-- One selection of a take: destination Cell, destination stream, source seat, source stream (R116, R596). -/
structure Sel where
  cell : Nat
  stream : Nat
  source : Nat
  srcStream : Nat
deriving DecidableEq, Repr

/-- What a TICKED instruction does at its tick: the selections of a take, or the operands of another TICKED
instruction by its opcode (Table 16.5), whose meaning at commit its chapter gives. -/
inductive Effect where
  | takes (l : List Sel)
  | cfg (op index sub : Nat) (vals : List Int)
deriving DecidableEq, Repr

/-- One staged or armed effect (R99 to R104). `ref` is the reference plan of its errand (R100). `elems` are the elements it takes at resolution, `kind` separates the
effects that do not supersede each other (R142: 0 a selection, 1 a Cell configuration, 2 a bundle configuration);
`uses` are the units whose FAULT at commit gives FAULT (R44). -/
structure Staged where
  id : Nat
  pid : Nat
  th : Nat
  salvo : Option Nat
  strict : Bool
  plan : Nat
  ref : Nat
  intended : Nat
  tick : Nat
  late : Bool
  armed : Bool
  won : Bool
  kind : Nat
  elems : List Key
  uses : List Nat
  eff : Effect
deriving DecidableEq, Repr

/-- One executed instruction that owes its final code (R21, R93, R96): its errand (if any), its place there, how many
words it covers, how many of its effects are outstanding, the worst code so far, and the words of a TICKED
instruction. -/
structure Part where
  pid : Nat
  errand : Option Nat
  th : Nat
  idx : Nat
  len : Nat
  pc : Nat
  left : Nat
  code : Nat
  words : List Word
deriving DecidableEq, Repr

/-- One TICKED member before staging: its plan, elements, used units and effect. -/
structure Member where
  plan : Nat
  kind : Nat
  elems : List Key
  uses : List Nat
  eff : Effect
deriving DecidableEq, Repr

/-- A salvo open on a thread (R106): its bracket's part, members in order, and the first member that failed a check. -/
structure OpenSalvo where
  th : Nat
  pid : Nat
  strict : Bool
  members : List (Nat × List Member)
  failed : Option (Nat × Nat)
deriving DecidableEq, Repr

/-- An errand in a queue (R85 to R90): how it came (0 this host, 1 forwarded by the ACTIVE twin, 2 the partner's
host, 3 + n the Footpath node n), its target, its instruction words, and how far it has got (0 queued, 1 executing,
2 executed, 3 FINAL posted). -/
structure Errand where
  id : Nat
  queue : Nat
  seq : Nat
  crc : Nat
  source : Nat
  arrival : Nat
  mode : Nat
  plan : Nat
  target : Nat
  length : Nat
  words : List Word
  phase : Nat
  acceptTick : Nat
  repeats : Nat
  data : List (Nat × List Word)
  drops : List Word
  lastTick : Option Nat
  final : List Word
deriving DecidableEq, Repr

/-- A BACKGROUND operation under way (R97): the instruction that owes its code, its thread, its opcode, its operands
and the instant (in `clk`) from which it may complete. -/
structure BgOp where
  pid : Nat
  th : Nat
  op : Nat
  index : Nat
  sub : Nat
  vals : List Int
  due : Nat
deriving DecidableEq, Repr

/-- One beat of a seat: a cycle of the Square clock (Table 1.1). DATA holds four words, the first in serial order in [9:0]. -/
structure Beat where
  data : BitVec 40
  valid : Bool
  sol : Bool
  lerr : Bool
  str : BitVec 3
  conc : Bool
deriving DecidableEq, Repr

/-- A line that a source seat offers to the Square: its number, its words in serial order, the marks of its beats (LERR, and whether
a line CRC was its cause, R191; CONC), and the instant (in `clk`) at which its first beat was offered. -/
structure SeatLine where
  line : Nat
  words : List Nat
  lerr : Bool
  lerrCrc : Bool
  conc : Bool
  time : Nat
deriving DecidableEq, Repr

/-- Something that leaves the block at a command: bytes to the host, a message to the twin or to a Footpath
direction, words of a line from a destination seat, a packet from a MAC, levels of a lane, a level or pulse on a
pin, a negative acknowledge on the host bus. -/
inductive Out where
  | host (bytes : List Byte)
  | nack
  | ibi (source : Nat) (payload : List Byte)
  | alley (m : LinkMsg)
  | foot (up : Bool) (m : LinkMsg)
  | line (seat : Nat) (words : List Nat)
  /-- The beats of a line that a Cell emits, before any output stage (Table 1.1, R32). -/
  | beats (seat : Nat) (beats : List Beat)
  /-- Samples that an embedder places in a line of a seat, with the slot instant they belong to (R332). -/
  | embedded (seat : Nat) (u : Int) (samples : List Int)
  | packet (mac : Nat) (fields : List Int) (payload : List Nat)
  /-- Levels that a lane's TX pins carry, in order: 0 to 3 for a bit pair at PAM4 rates, else 0 and 1. -/
  | lane (lane : Nat) (levels : List Nat)
  | stook (port : Nat) (bits : List Nat)
  | pin (name level : Nat)
  /-- Words that a JTAG access shifts out (R586). -/
  | jtag (words : List Word)
  /-- A picture that a Granary sub-slot, a head or a generator sends for one frame: whole (part 0) or its odd or even frame
  lines (1, 2), with the ancillary packets it carries. -/
  | picture (unit part : Nat) (pay : Payload) (rows : List PicLine) (anc : List (List Nat))
deriving DecidableEq, Repr

/-- A frame or tile that a Granary sub-slot or a Winnow scaler stores in the device pool of the Barn, at an address the
spec does not give (R258, R281): its number in that store, what its payload ID says, FIELD of Table 10.3, the lines,
the ancillary packets, and the interface lines that carry marks: four times the line, plus 1 for LERR and 2 for CONC. -/
structure Pict where
  unit : Nat
  num : Nat
  pay : Payload
  field : Nat
  rows : List PicLine
  anc : List (List Nat)
  marks : List Nat
deriving DecidableEq, Repr

/-- A claim on one Barn channel (R546 to R548): the unit it serves, the channel, REALTIME and CAPTURE bandwidth in
bytes per second, device-pool bytes. -/
structure Claim where
  unit : Nat
  chan : Nat
  rt : Nat
  cap : Nat
  pool : Nat
deriving DecidableEq, Repr

/-- Claims that an instruction (its part) holds from staging until commit or abandonment (R268, R298). -/
structure Hold where
  pid : Nat
  claims : List Claim
deriving DecidableEq, Repr

/-- What the status fields show during TAKEOVER_HOLD: what they rest on, as it stood at the takeover (R434). -/
structure Held where
  clk : Nat
  tsOff : Int
  regs : Tbl Int
  staged : List Staged
  claims : List Claim
deriving DecidableEq, Repr

/-- The copy of the partner's state that a STANDBY device loads and brings up to date before the step tick: it becomes
current in one commit, or is discarded (R437, R438). -/
structure Shadow where
  regs : Tbl Int
  gregs : Tbl Word
  preds : Tbl Bool
  calls : Tbl (List (Nat × Bool))
  ledger : Tbl Word
  errands : List Errand
  parts : List Part
  staged : List Staged
  bg : List BgOp
  salvos : List OpenSalvo
  sheaf : Tbl Word
  layers : Tbl Word
  classifier : Tbl (List Nat)
  barn : List Host.Cell
  claims : List Claim
  holds : List Hold
  bufs : Tbl (List Int)
deriving DecidableEq, Repr

/-- The whole block. -/
structure State where
  /-- Grains of system-time flow since the release of reset. -/
  clk : Nat
  /-- System time less `clk`: what every Tower step and time load has added (R378). -/
  tsOff : Int
  /-- A load of the seconds that waits for the next whole second: its instant in `clk` (0 none) and what it adds (R383). -/
  setAt : Nat
  setBy : Int
  /-- Register fields and stored configuration, by unit or element and field. -/
  regs : Tbl Int
  /-- Gleaner counters by unit or element and place in its list (R463). -/
  ctrs : Tbl Nat
  /-- General registers g0-g15 of each thread (R77). -/
  gregs : Tbl Word
  /-- Predicates p0-p7 of each thread (R77). -/
  preds : Tbl Bool
  /-- Call stack of each thread (R450). -/
  calls : Tbl (List (Nat × Bool))
  /-- The Ledger (R83). -/
  ledger : Tbl Word
  /-- Errands held, in arrival order (R85). -/
  errands : List Errand
  /-- Reply ring words of queues 0 to 8, by queue and position (R496). -/
  replies : Tbl Word
  /-- Instructions that owe a final code. -/
  parts : List Part
  /-- Staged effects of the frozen and open generations, and armed STROBE effects (R103, R104). -/
  staged : List Staged
  /-- BACKGROUND operations under way (R97). -/
  bg : List BgOp
  /-- Open salvos (R106). -/
  salvos : List OpenSalvo
  /-- Sheaf entries by output slot and entry (R316). -/
  sheaf : Tbl Word
  /-- Layer descriptors by head and position: layer l word w active at 4l + w, shadow at 256 + 4l + w (R285, R290). -/
  layers : Tbl Word
  /-- Classifier exact-match entries by place and wildcard entries by number: key and result (R202, R206). -/
  classifier : Tbl (List Nat)
  /-- The Crier ring by record and word (R477). -/
  crierRing : Tbl Word
  /-- The compare log, by entry and word (R443). -/
  compareLog : Tbl Word
  /-- Capture rings by pin and entry (R406). -/
  captRing : Tbl Word
  /-- Ring report table (R523). -/
  ringReports : Tbl Word
  /-- Snapshot banks: header words by bank and word (R472); `snapCtrs` the counters captured. -/
  snapHdr : Tbl Word
  snapCtrs : Tbl (List (Key × Nat))
  /-- The Barn's host-visible regions, a byte memory in canonical form (R541, R544). -/
  barn : List Host.Cell
  /-- The boot flash, a byte memory in canonical form: each listed byte holds the complement of the flash byte, so that an
  unlisted one reads as erased, 0xFF (R512). -/
  flash : List Host.Cell
  /-- Barn claims in force, and those held by staged instructions. -/
  claims : List Claim
  holds : List Hold
  /-- Numeric lists by unit and purpose: line words, sample histories, packet windows, measurement histories. -/
  bufs : Tbl (List Int)
  /-- Frames and tiles stored, and the pictures that Granary sub-slots, heads and generators are sending. -/
  pics : List Pict
  /-- Newest lines that each source seat has offered, by seat and stream, newest first (R24, R32, R66). -/
  seatLines : Tbl (List SeatLine)
  /-- Messages unacknowledged or held for a link, by link (0 Alley, 1 Footpath up, 2 Footpath down). -/
  links : Tbl (List LinkMsg)
  /-- The status view held after a takeover (R434). -/
  held : Option Held
  /-- State replicated from the partner and not yet current (R437). -/
  shadow : Option Shadow
  /-- One-time storage (KEY_HASH and the SVN fuses, R512), and marks kept by address or message: bursts found uncorrectable,
  faults already reported, attempts made for kept messages. -/
  nv : Tbl Nat
  /-- What the last command put out. -/
  outs : List Out
  /-- Next identifier of an effect, part, salvo or errand (the model's own bookkeeping). -/
  nextId : Nat
  /-- Index of the next free value (the model's own field; notes/assumptions/6.md). -/
  freeIx : Nat
  /-- Commands waiting, first in, first out. -/
  pending : List Instr
deriving DecidableEq, Repr

/-- Registers whose reset value differs from the one their class gives: threads L54 to L63 wait on queues 0 to 9
(R79). `afvKindF` gives the AFV kind by seat (Table 11.9), `unitState` the STATE of units that are not power-gated. -/
def State.resetRegs : Tbl Int :=
  ((List.range 10).map fun (i : Nat) =>
    [(Key.mk (U.thread (54 + i)) Lamp.STATE.pos, (1 : Int)), (Key.mk (U.thread (54 + i)) Lamp.QUEUE.pos, (i : Int))]).flatten

/-- The machine right after the release of reset: every register at its reset value, counters 0, queues and rings
empty, memory with nothing listed, no command waiting. -/
def State.reset : State where
  clk := 0
  tsOff := 0
  setAt := 0
  setBy := 0
  regs := State.resetRegs
  ctrs := []
  gregs := []
  preds := []
  calls := []
  ledger := []
  errands := []
  replies := []
  parts := []
  staged := []
  bg := []
  salvos := []
  sheaf := []
  layers := []
  classifier := []
  crierRing := []
  compareLog := []
  captRing := []
  ringReports := []
  snapHdr := []
  snapCtrs := []
  barn := []
  flash := []
  claims := []
  holds := []
  bufs := []
  pics := []
  seatLines := []
  links := []
  held := none
  shadow := none
  nv := []
  outs := []
  nextId := 0
  freeIx := 0
  pending := []

end Sys2Proof.Machine
end

