-- ==== Sys2Proof/Machine/Ops.lean ====
section
/-!
DEFINITION. The named operations on the state: reading and writing register fields, counters, the Crier, unit
states, time, lists and free values. Every read and write of a register goes through `rd`, `rn` and `wr`.
-/
namespace Sys2Proof.Machine

/-! ### Bits -/

/-- Bits [hi:lo] of a natural number. -/
def bitsAt (w hi lo : Nat) : Nat := w / 2 ^ lo % 2 ^ (hi + 1 - lo)
/-- One bit. -/
def bitAt (w i : Nat) : Bool := w / 2 ^ i % 2 == 1
/-- Two's complement reading of an n-bit number. -/
def signedAt (n w : Nat) : Int := if w % 2 ^ n < 2 ^ (n - 1) then (w % 2 ^ n : Nat) else (w % 2 ^ n : Nat) - 2 ^ n

/-- Outcome codes of Table 0.5 (R19). -/
inductive Code where
  | done | conflict | late | range | nounit | rate | linebuf | bandwidth | tablefull | locked | bundle | standby
  | format | integrity | version | fault
deriving DecidableEq, Repr

/-- The 8-bit code (Table 0.5). -/
def Code.num : Code → Nat
  | .done => 0 | .conflict => 1 | .late => 2 | .range => 3 | .nounit => 4 | .rate => 5 | .linebuf => 6
  | .bandwidth => 7 | .tablefull => 8 | .locked => 9 | .bundle => 10 | .standby => 11 | .format => 12
  | .integrity => 13 | .version => 14 | .fault => 15

/-- Check order of Table 0.5; codes that are not the outcome of a check before staging come last. -/
def Code.order : Code → Nat
  | .integrity => 0 | .format => 1 | .version => 2 | .standby => 3 | .range => 4 | .nounit => 5 | .locked => 6
  | .bundle => 7 | .rate => 8 | .linebuf => 9 | .tablefull => 10 | .bandwidth => 11 | _ => 12

/-- A list of checks: the code, and whether its check FAILS. -/
abbrev Checks := List (Code × Bool)

/-- The failing check that comes first in the order of Table 0.5 (R20). -/
def firstFail : Checks → Option Code
  | [] => none
  | (c, bad) :: t =>
    let r := firstFail t
    if bad then
      match r with
      | none => some c
      | some d => if d.order < c.order then some d else some c
    else r

/-- Value of a register field or stored parameter of a unit or element. -/
def State.rd (s : State) (u : Nat) (f : Field) : Int := Tbl.get ⟨u, f.pos⟩ f.reset s.regs
/-- The same as a natural number. -/
def State.rn (s : State) (u : Nat) (f : Field) : Nat := (s.rd u f).toNat
/-- The field holds a non-zero value. -/
def State.rb (s : State) (u : Nat) (f : Field) : Bool := s.rd u f != 0
/-- Write of a register field, reduced to its width. -/
def State.wr (s : State) (u : Nat) (f : Field) (v : Int) : State :=
  { s with regs := Tbl.set ⟨u, f.pos⟩ f.reset (f.norm v) s.regs }
/-- Several writes to one unit. -/
def State.wrs (s : State) (u : Nat) : List (Field × Int) → State
  | [] => s
  | (f, v) :: t => (s.wr u f v).wrs u t
/-- The values of a parameter list written to an element. -/
def State.wrParams (s : State) (u : Nat) (ps : List Param) (vs : List Int) : State :=
  s.wrs u ((ps.zip vs).map fun e => (e.1.fld, e.2))

/-- Gleaner counter `j` of unit or element `u` (R463). -/
def State.ctr (s : State) (u j : Nat) : Nat := Tbl.get ⟨u, j⟩ 0 s.ctrs
/-- `k` further occurrences counted, modulo 2^64 (R463, R464). -/
def State.countBy (s : State) (u j k : Nat) : State :=
  { s with ctrs := Tbl.set ⟨u, j⟩ 0 ((s.ctr u j + k) % 2 ^ 64) s.ctrs }
/-- One further occurrence counted. -/
def State.count (s : State) (u j : Nat) : State := s.countBy u j 1

/-- A numeric list kept for a unit under a purpose. -/
def State.buf (s : State) (u p : Nat) : List Int := Tbl.get ⟨u, p⟩ [] s.bufs
/-- Replace such a list. -/
def State.setBuf (s : State) (u p : Nat) (l : List Int) : State :=
  { s with bufs := Tbl.set ⟨u, p⟩ [] l s.bufs }

/-- A pin level, strap, fuse or flash cell. -/
def State.cellNv (s : State) (a b d : Nat) : Nat := Tbl.get ⟨a, b⟩ d s.nv
/-- Write of such a cell. -/
def State.setNv (s : State) (a b d v : Nat) : State := { s with nv := Tbl.set ⟨a, b⟩ d v s.nv }

/-- A fresh free value below `n` (an undefined value of the spec), and the state that has used it. -/
def State.free (s : State) (n : Nat) : Nat × State :=
  (Config.freeValue s.freeIx % n, { s with freeIx := s.freeIx + 1 })

/-- Something put out. -/
def State.emit (s : State) (o : Out) : State := { s with outs := s.outs ++ [o] }

/-- `dt` has passed since the previous command, and that command's outputs have left. A load of the seconds takes effect
at its whole second (R383). -/
def State.after (s : State) (dt : Nat) : State :=
  let due := decide (s.setAt ≠ 0) && decide (s.setAt ≤ s.clk + dt)
  { s with
    clk := s.clk + dt
    outs := []
    tsOff := if due then s.tsOff + s.setBy else s.tsOff
    setAt := if due then 0 else s.setAt
    setBy := if due then 0 else s.setBy }

/-- A fresh identifier. -/
def State.fresh (s : State) : Nat × State := (s.nextId, { s with nextId := s.nextId + 1 })

/-! ### Time -/

/-- System time in grains since the ST 2059 epoch (R13, R56). -/
def State.now (s : State) : Nat := ((s.clk : Int) + s.tsOff).toNat
/-- Whole seconds of system time. -/
def State.nowS (s : State) : Nat := s.now / Config.second
/-- Nanoseconds within the second (a Milestone time, R13). -/
def State.nowNs (s : State) : Nat := s.now % Config.second / Config.ns
/-- Sub-nanoseconds in units of 2^-16 ns. -/
def State.nowSub (s : State) : Nat := s.now % Config.ns * 65536 / Config.ns

/-! ### Common unit interface -/

/-- STATE of the common unit interface (Table 1.7): OFF at reset for power-gated units, READY for others. -/
def unitStateF (u : Nat) : Field := ⟨200, 3, false, if U.gated u then 0 else 2⟩
/-- ENABLE of the common unit interface. -/
def unitEnableF : Field := ⟨201, 1, false, 1⟩
/-- Instant (in `clk`) at which a unit in WAKING was woken, and at which it last carried work (R43). -/
def unitWakeF : Field := ⟨202, 0, false, 0⟩
def unitWorkF : Field := ⟨203, 0, false, 0⟩
/-- Instant at which a woken unit reached READY. -/
def unitReadyF : Field := ⟨204, 0, false, 0⟩

/-- Unit states of Table 1.8. -/
abbrev stOff : Int := 0
abbrev stWaking : Int := 1
abbrev stReady : Int := 2
abbrev stRunning : Int := 3
abbrev stFault : Int := 7

/-- Clock domains that have stopped, as a mask by domain number (R47, R510); kept at the power controller. -/
def deadClocksF : Field := ⟨205, 0, false, 0⟩
/-- STATE: FAULT while the clock of the unit's domain is stopped. -/
def State.unitState (s : State) (u : Nat) : Int :=
  if bitAt (s.rn U.power deadClocksF) (U.domainOf u) then stFault else s.rd u (unitStateF u)
def State.setUnitState (s : State) (u : Nat) (v : Int) : State := s.wr u (unitStateF u) v
def State.unitEnabled (s : State) (u : Nat) : Bool := s.rb u unitEnableF
/-- R44: the unit may not be used (ENABLE = 0 or FAULT). -/
def State.unitBad (s : State) (u : Nat) : Bool := !s.unitEnabled u || s.unitState u == stFault
/-- The Steward is halted or hands over: it originates no message, and image instructions and settings writes are LOCKED (R50, R527). -/
def State.stewardBusy (s : State) : Bool := s.rn U.boot Boot.STAGE == 6 || s.rn U.boot Boot.ACT_STATE != 0
/-- What happens in units `us` while all can work: one in FAULT is stopped, and one with ENABLE = 0 is powered down and counts
nothing (R47, Table 1.8, R457). -/
def State.ifUp (s : State) (us : List Nat) (t : State) : State := if us.any s.unitBad then s else t

/-- An instruction that uses a unit in OFF wakes it (R43). -/
def State.wake (s : State) (u : Nat) : State :=
  if U.gated u && s.unitState u == stOff && s.unitEnabled u then (s.setUnitState u stWaking).wr u unitWakeF s.clk
  else s

/-! ### The Crier -/

/-- Event codes of Table 17.8 that several chapters use. -/
abbrev evProtocolCount : Nat := 0x0001
abbrev evCrierOverflow : Nat := 0x0002
abbrev evCrierResumed : Nat := 0x0003
abbrev evStateEntry : Nat := 0x0010
abbrev evFinalCode : Nat := 0x0011
abbrev evHardwareFault : Nat := 0x0012
abbrev evCounterEvent : Nat := 0x0013

/-- Records discarded since CRIER_OVERFLOW; when the last Crier interrupt was raised and READ_PTR at it (R479, R480). -/
def Crier.discarded : Field := ⟨300, 0, false, 0⟩
def Crier.lastIbi : Field := ⟨301, 0, false, 0⟩
def Crier.ptrAtIbi : Field := ⟨302, 0, false, 0⟩

/-- Set one bit of a number that does not hold it. -/
def setBit (w i : Nat) : Nat := if bitAt w i then w else w + 2 ^ i
/-- Clear one bit of a number. -/
def clearBit (w i : Nat) : Nat := if bitAt w i then w - 2 ^ i else w

/-- An interrupt source is raised towards the host: 0 the Crier, q + 1 a reply of queue q (R498). -/
def State.raiseIbi (s : State) (src : Nat) : State :=
  if s.rb U.host Hostp.ENINT && bitAt (s.rn U.host Hostp.IBI_MASK) src then
    s.wr U.host Hostp.IBI_PENDING (setBit (s.rn U.host Hostp.IBI_PENDING) src)
  else s
/-- ATTN_N, low while records are unread (R480). -/
abbrev pinAttn : Nat := 0x122

/-- A record written into the ring at WRITE_PTR, unread (Table 17.6, R477). -/
def State.crierWrite (s : State) (unit code detail : Nat) : State :=
  let wp := s.rn U.crier Crier.WRITE_PTR
  let w0 : Word := BitVec.ofNat 64 (s.nowS % 2 ^ 32 + s.nowNs * 2 ^ 32)
  let w1 : Word := BitVec.ofNat 64 (code % 2 ^ 16 + unit % 2 ^ 16 * 2 ^ 16 + detail % 2 ^ 32 * 2 ^ 32)
  let unread := s.rn U.crier Crier.UNREAD
  let s1 := { s with crierRing := Tbl.set ⟨wp, 1⟩ 0 w1 (Tbl.set ⟨wp, 0⟩ 0 w0 s.crierRing) }
  let s2 := (s1.wrs U.crier [(Crier.WRITE_PTR, (wp + 1) % 4096), (Crier.UNREAD, unread + 1)]).count U.crier Ctr.Crier.EVENTS_POSTED
  if unread = 0 then
    ((s2.wrs U.crier [(Crier.lastIbi, s.clk), (Crier.ptrAtIbi, s.rd U.crier Crier.READ_PTR)]).raiseIbi 0).emit (.pin pinAttn 0)
  else s2

/-- With 4,095 records unread CRIER_OVERFLOW takes the last free place, and later records are discarded (R479). -/
def State.crierFull (s : State) : State :=
  if s.rn U.crier Crier.UNREAD = 4095 then
    (s.crierWrite U.crier evCrierOverflow 0).wrs U.crier [(Crier.OVERFLOW, 1), (Crier.discarded, 0)]
  else s

/-- Post an event (R475 to R479): written while OVERFLOW is 0, otherwise discarded and counted. -/
def State.post (s : State) (unit code detail : Nat) : State :=
  if s.rb U.crier Crier.OVERFLOW then
    (s.wr U.crier Crier.discarded (s.rd U.crier Crier.discarded + 1)).count U.crier Ctr.Crier.EVENTS_DISCARDED
  else (s.crierWrite unit code detail).crierFull

/-- DETAIL of R476: outcome code, state entered, state left, cause. -/
def detail (code entered left cause : Nat) : Nat :=
  code % 256 + entered % 256 * 2 ^ 8 + left % 256 * 2 ^ 16 + cause % 256 * 2 ^ 24

/-- STATE_ENTRY of a unit (R482). -/
def State.postEntry (s : State) (unit entered left cause code : Nat) : State :=
  s.post unit evStateEntry (detail code entered left cause)

/-- The unit whose ID a record names for a counter: the bank for an array element (R565). -/
def bankOf (u : Nat) : Nat :=
  if u < 0x100000 then u else if u < 0x200000 then U.bankAch else if u < 0x300000 then U.bankSlot
  else if u < 0x310000 then U.bankComp else if u < 0x320000 then U.bankLoud else if u < 0x330000 then U.bankCorr
  else U.bankCls

def evSeenF (j : Nat) : Field := ⟨100000 + j, 0, false, 0⟩
def evSecondF (j : Nat) : Field := ⟨200000 + j, 0, false, 0⟩

/-- Count and post COUNTER_EVENT with the increments since the previous one (R482). -/
def State.countEvent (s : State) (u j : Nat) : State :=
  let s1 := s.count u j
  let d := (s1.ctr u j + 2 ^ 64 - s1.rn u (evSeenF j)) % 2 ^ 64
  (s1.wr u (evSeenF j) (s1.ctr u j)).post (bankOf u) evCounterEvent (j % 65536 + min d 65535 * 65536)

/-- Count, and post once per whole second of system time for this unit and counter (R194): the named event, or
PROTOCOL_COUNT with the occurrences since the previous one where `code` is 0 (R478). -/
def State.countLimited (s : State) (u j code det : Nat) : State :=
  let s1 := s.count u j
  if s1.rn u (evSecondF j) = s1.nowS + 1 then s1.count U.crier Ctr.Crier.EVENTS_SUPPRESSED
  else
    let d := (s1.ctr u j + 2 ^ 64 - s1.rn u (evSeenF j)) % 2 ^ 64
    let s2 := (s1.wr u (evSecondF j) (s1.nowS + 1)).wr u (evSeenF j) (s1.ctr u j)
    if code = 0 then s2.post (bankOf u) evProtocolCount (j % 65536 + min d 65535 * 65536) else s2.post (bankOf u) code det

/-- Post COUNTER_EVENT with the increments of a counter since the previous one, if there are any (R482). -/
def State.noteCount (s : State) (u j : Nat) : State :=
  let d := (s.ctr u j + 2 ^ 64 - s.rn u (evSeenF j)) % 2 ^ 64
  if d = 0 then s else (s.wr u (evSeenF j) (s.ctr u j)).post (bankOf u) evCounterEvent (j % 65536 + min d 65535 * 65536)
/-- Count, and post COUNTER_EVENT at most once per whole second (R194, R359). -/
def State.countEventLimited (s : State) (u j : Nat) : State :=
  let s1 := s.count u j
  if s1.rn u (evSecondF j) = s1.nowS + 1 then s1.count U.crier Ctr.Crier.EVENTS_SUPPRESSED
  else (s1.wr u (evSecondF j) (s1.nowS + 1)).noteCount u j

/-- Local fault evidence for the compare policy (R428): kind (0 memory, 1 lane, 2 concealment, 3 back-channel, 4 unit
fault), the unit concerned and the instant, kept as triples. -/
def State.evidence (s : State) (kind unit : Nat) : State :=
  s.setBuf U.twin 40 (s.buf U.twin 40 ++ [(kind : Int), (unit : Int), (s.clk : Int)])

/-- Set the unit's STATE to FAULT and post HARDWARE_FAULT (R42, R482). -/
def State.faultUnit (s : State) (u : Nat) (cause : Nat) : State :=
  let old := (s.unitState u).toNat
  ((s.setUnitState u stFault).post u evHardwareFault (detail 0 7 old cause)).evidence 4 u

/-- Run `f` over a list of places, left to right. -/
def State.each (s : State) (l : List Nat) (f : State → Nat → State) : State := l.foldl f s

end Sys2Proof.Machine
end

