-- ==== Sys2Proof/Machine/Crc.lean ====
section
/-!
DEFINITION. Bits of numbers and cyclic redundancy checks: CRC-32 of R87, CRC-32C of R140, the line CRC of SDI (R185),
and CRCs taken most significant bit first (Tables 6.5, 6.7).
-/
namespace Sys2Proof.Machine

/-- Bits of `w`, most significant of `n` first, or least significant first. -/
def bitsMsb (n w : Nat) : List Bool := (List.range n).map fun i => bitAt w (n - 1 - i)
def bitsLsb (n w : Nat) : List Bool := (List.range n).map fun i => bitAt w i
/-- Number spelled by bits, least significant first. -/
def ofBitsLsb : List Bool → Nat
  | [] => 0
  | b :: t => (if b then 1 else 0) + 2 * ofBitsLsb t

/-- CRC of width `n` and polynomial `poly` (without its top term), most significant bit first. -/
def crcMsb (n poly init : Nat) (bits : List Bool) : Nat :=
  bits.foldl (fun r b =>
    let top := bitAt r (n - 1) != b
    let sh := r * 2 % 2 ^ n
    if top then sh ^^^ poly else sh) init


/-- One step of a CRC taken least significant bit first, `poly` reflected. -/
def crcStep (poly r : Nat) (b : Bool) : Nat := if bitAt r 0 != b then (r / 2) ^^^ poly else r / 2
/-- CRC over bits, least significant bit of each word first. -/
def crcLsb (poly init : Nat) (bits : List Bool) : Nat := bits.foldl (crcStep poly) init
/-- CRC over numbers of `n` bits each. -/
def crcNums (poly init n : Nat) (ws : List Nat) : Nat := ws.foldl (fun r w => crcLsb poly r (bitsLsb n w)) init

/-- CRC-32 of R87 over 64-bit words in the byte order of R10. -/
def crc32 (ws : List Nat) : Nat := crcNums 0xEDB88320 0xFFFFFFFF 64 ws ^^^ 0xFFFFFFFF
/-- CRC-32C of R140 (0x1EDC6F41 reflected) over numbers of `n` bits, from an initial value. -/
def crc32cFrom (init n : Nat) (ws : List Nat) : Nat := crcNums 0x82F63B78 init n ws ^^^ 0xFFFFFFFF
def crc32c (n : Nat) (ws : List Nat) : Nat := crc32cFrom 0xFFFFFFFF n ws

end Sys2Proof.Machine
end

