-- ==== Sys2Proof/Machine/Plan.lean ====
section
/-!
DEFINITION. Timing Plans: the raster table and the arithmetic of frame origins, switch offsets, ticks and curfews,
all in exact grains (R53 to R65, R384).
-/
namespace Sys2Proof.Machine

/-- A row of Table 2.2: frame rate `num`/`den`, interface rate class (0 270 Mb/s to 4 11.88 Gb/s), /1.001, interface
lines per frame, EAV group in words, and words per interface line (the rate over the line rate). -/
structure Raster where
  num : Nat
  den : Nat
  rate : Nat
  m1001 : Nat
  lines : Nat
  eav : Nat
  words : Nat
deriving DecidableEq, Repr

/-- Table 2.2 by raster ID (the low five bits; bit 5 is WIDE, R592). IDs above 0x1C do not occur. -/
def raster (id : Nat) : Raster :=
  match id % 32 with
  | 0 => ⟨30000, 1001, 0, 0, 525, 4, 1716⟩
  | 1 => ⟨25, 1, 0, 0, 625, 4, 1728⟩
  | 2 => ⟨50, 1, 1, 0, 750, 8, 3960⟩
  | 3 => ⟨60000, 1001, 1, 1, 750, 8, 3300⟩
  | 4 => ⟨60, 1, 1, 0, 750, 8, 3300⟩
  | 5 => ⟨25, 1, 1, 0, 1125, 8, 5280⟩
  | 6 => ⟨30000, 1001, 1, 1, 1125, 8, 4400⟩
  | 7 => ⟨30, 1, 1, 0, 1125, 8, 4400⟩
  | 8 => ⟨24000, 1001, 1, 1, 1125, 8, 5500⟩
  | 9 => ⟨24, 1, 1, 0, 1125, 8, 5500⟩
  | 10 => ⟨25, 1, 1, 0, 1125, 8, 5280⟩
  | 11 => ⟨30000, 1001, 1, 1, 1125, 8, 4400⟩
  | 12 => ⟨30, 1, 1, 0, 1125, 8, 4400⟩
  | 13 => ⟨24000, 1001, 1, 1, 1125, 8, 5500⟩
  | 14 => ⟨24, 1, 1, 0, 1125, 8, 5500⟩
  | 15 => ⟨25, 1, 1, 0, 1125, 8, 5280⟩
  | 16 => ⟨30000, 1001, 1, 1, 1125, 8, 4400⟩
  | 17 => ⟨30, 1, 1, 0, 1125, 8, 4400⟩
  | 18 => ⟨50, 1, 2, 0, 1125, 8, 5280⟩
  | 19 => ⟨60000, 1001, 2, 1, 1125, 8, 4400⟩
  | 20 => ⟨60, 1, 2, 0, 1125, 8, 4400⟩
  | 21 => ⟨24000, 1001, 3, 1, 1125, 16, 22000⟩
  | 22 => ⟨24, 1, 3, 0, 1125, 16, 22000⟩
  | 23 => ⟨25, 1, 3, 0, 1125, 16, 21120⟩
  | 24 => ⟨30000, 1001, 3, 1, 1125, 16, 17600⟩
  | 25 => ⟨30, 1, 3, 0, 1125, 16, 17600⟩
  | 26 => ⟨50, 1, 4, 0, 1125, 32, 21120⟩
  | 27 => ⟨60000, 1001, 4, 1, 1125, 32, 17600⟩
  | 28 => ⟨60, 1, 4, 0, 1125, 32, 17600⟩
  | _ => ⟨50, 1, 4, 0, 1125, 32, 21120⟩

/-- What a seat carries of raster `id` in a mapping of Table 7.7: native, or the next rate class with twice the words to a line. -/
def seatRas (id : Nat) (native : Bool) : Raster :=
  let r := raster id
  if native then r else { r with rate := r.rate + 1, words := 2 * r.words, eav := if r.rate = 1 then 8 else 2 * r.eav }
/-- An ST 2110-20 format that maps natively (Table 7.7). -/
def nativeFormat (sampling depth : Nat) : Bool := sampling == 0 && depth == 0

/-- Interlaced rasters (R53). -/
def interlaced (id : Nat) : Bool := let r := id % 32; r == 0 || r == 1 || r == 5 || r == 6 || r == 7
/-- PsF rasters. -/
def psf (id : Nat) : Bool := let r := id % 32; decide (8 ≤ r) && decide (r ≤ 12)
/-- Frame period, line period and EAV group duration in grains. -/
def Raster.frame (r : Raster) : Nat := Config.second * r.den / r.num
def Raster.line (r : Raster) : Nat := r.frame / r.lines
def Raster.tEav (r : Raster) : Nat := r.line * r.eav / r.words
/-- Kerb window W (Table 2.2): two raster lines, which at 2160p is one interface line (R54). -/
def kerbWindow (id : Nat) : Nat := if 0x15 ≤ id % 32 then (raster id).line else 2 * (raster id).line
/-- Default switching line in field 1, and the distance to the field-2 line (Table 2.2, R53). -/
def defaultSwline (id : Nat) : Nat := if id % 32 = 0 then 10 else if id % 32 = 1 then 6 else 7
def field2Add (id : Nat) : Nat := if id % 32 = 0 then 263 else if id % 32 = 1 then 313 else 562

/-- Start of a phase slew: phase then (grains), and its system time (R384). -/
def Plan.slewFrom : Field := ⟨300, 0, true, 0⟩
def Plan.slewAt : Field := ⟨301, 0, true, 0⟩
/-- First tick number that may be issued after a STEP (R65), and whether one is pending. -/
def Plan.minTick : Field := ⟨302, 0, true, 0⟩
def Plan.stepped : Field := ⟨303, 1, false, 0⟩
/-- PHASE is slewing; STATE shows it once a STEPPED plan has reached tick m + 1 (R64, R65). -/
def Plan.slewing : Field := ⟨305, 1, false, 0⟩
/-- Last tick resolved at a curfew, plus one (R110). -/
def Plan.resolved : Field := ⟨304, 0, true, 0⟩

abbrev planOff : Int := 0
abbrev planAligned : Int := 1
abbrev planSlewing : Int := 2
abbrev planStepped : Int := 3

def State.planState (s : State) (p : Nat) : Int := s.rd (U.plan p) Plan.STATE
def State.planOn (s : State) (p : Nat) : Bool := s.planState p != planOff
def State.planRaster (s : State) (p : Nat) : Nat := s.rn (U.plan p) Plan.RASTER
def State.planRas (s : State) (p : Nat) : Raster := raster (s.planRaster p)
def State.planField (s : State) (p : Nat) : Bool := s.rb (U.plan p) Plan.TICK_UNIT

/-- PHASE in force in grains at system time `t` (R384). -/
def State.phaseAt (s : State) (p : Nat) (t : Int) : Int :=
  let target := s.rd (U.plan p) Plan.PHASE_TARGET * Config.ns
  if s.rb (U.plan p) Plan.slewing then
    let from0 := s.rd (U.plan p) Plan.slewFrom
    let moved : Int := (s.rd (U.plan p) Plan.SLEW_RATE * (t - s.rd (U.plan p) Plan.slewAt)) / 100000000
    if target ≥ from0 then min target (from0 + moved) else max target (from0 - moved)
  else s.rd (U.plan p) Plan.PHASE_NOW * Config.ns

/-- Switching line of field 1 in force (R51, Table 2.2). -/
def State.swline (s : State) (p : Nat) : Nat :=
  if s.rn (U.plan p) Plan.SWLINE = 0 then defaultSwline (s.planRaster p) else s.rn (U.plan p) Plan.SWLINE
/-- Switch offsets of the two fields in grains (R55, R60). -/
def State.s1 (s : State) (p : Nat) : Nat :=
  let r := s.planRas p
  (s.swline p - 1) * r.line + r.tEav
def State.s2 (s : State) (p : Nat) : Nat :=
  let r := s.planRas p
  (s.swline p + field2Add (s.planRaster p) - 1) * r.line + r.tEav

/-- Origin of frame k at system time reckoning `t` of the phase (R56). -/
def State.origin (s : State) (p : Nat) (k : Int) (t : Int) : Int := k * (s.planRas p).frame + s.phaseAt p t

/-- A frame origin of the plan stands at system time now, within the 3.2 ns of R58. -/
def State.nearOrigin (s : State) (p : Nat) : Bool :=
  let T : Int := (s.planRas p).frame
  let d := ((s.now : Int) - s.phaseAt p s.now) % T
  let tol : Int := 32 * Config.ns / 10
  decide (d ≤ tol) || decide (T - tol ≤ d)

/-- Number of the most recent tick at system time `t` (R61). -/
def State.tickAt (s : State) (p : Nat) (t : Int) : Int :=
  let T : Int := (s.planRas p).frame
  let ph := s.phaseAt p t
  let k := (t - ph) / T
  let o := t - ph - k * T
  if s.planField p then
    if o ≥ s.s2 p then 2 * k + 1 else if o ≥ s.s1 p then 2 * k else 2 * k - 1
  else if o ≥ s.s1 p then k else k - 1

/-- Instant of tick n, with the phase in force at `t` (R61). -/
def State.tickTime (s : State) (p : Nat) (n : Int) (t : Int) : Int :=
  let T : Int := (s.planRas p).frame
  let ph := s.phaseAt p t
  if s.planField p then
    ph + n / 2 * T + (if n % 2 = 0 then (s.s1 p : Int) else s.s2 p)
  else ph + n * T + s.s1 p

/-- First tick number the plan may still issue at or above `n` (R65). -/
def State.issuable (s : State) (p : Nat) (n : Int) : Int :=
  if s.rb (U.plan p) Plan.stepped then max n (s.rd (U.plan p) Plan.minTick) else n

/-- Curfew lead: 100 microseconds (R62). -/
def curfewLead : Int := 100 * Config.us

/-- First tick after instant `t` (Table 3.6). -/
def State.firstTickAfter (s : State) (p : Nat) (t : Int) : Int := s.issuable p (s.tickAt p t + 1)
/-- First tick at or after instant `t` (R100, R102). -/
def State.firstTickFrom (s : State) (p : Nat) (t : Int) : Int :=
  let n := s.tickAt p t
  s.issuable p (if s.tickTime p n t = t then n else n + 1)
/-- First tick whose curfew an effect staged at `t` meets (R62, R101). -/
def State.firstMeeting (s : State) (p : Nat) (t : Int) : Int :=
  s.firstTickFrom p (t + curfewLead)

/-- Active width in samples (R592) and SAV position are fixed by raster and WIDE. -/
def activeWidth (id : Nat) : Nat :=
  let base := if id % 32 ≤ 1 then 720 else if id % 32 ≤ 4 then 1280 else if id % 32 ≤ 0x14 then 1920 else 3840
  if id < 32 then base else if id % 32 ≤ 0x14 then 2048 else 4096

/-- Frame period rounded down to whole nanoseconds (R51). -/
def frameNs (id : Nat) : Nat := (raster id).frame / Config.ns

/-- Line `line` of plan `p` ends now, within the 3.2 ns of R58 (R56, R73). -/
def State.planLineEnds (s : State) (p line : Nat) : Bool :=
  let r := s.planRas p
  let T : Int := r.frame
  let e := ((s.now : Int) - s.phaseAt p s.now - line * r.line) % T
  let tol : Int := 32 * Config.ns / 10
  s.planOn p && decide (1 ≤ line) && decide (line ≤ r.lines) && (decide (e ≤ tol) || decide (T - tol ≤ e))
/-- The decision instant t_d = O_k - 2 × T_line of a frame of plan `p` is now (R260, R295). -/
def State.decisionNow (s : State) (p : Nat) : Bool := s.planLineEnds p ((s.planRas p).lines - 2)

end Sys2Proof.Machine
end

