-- ==== Sys2Proof/Machine/Lines.lean ====
section
/-!
DEFINITION. The words of an interface line: where a raster's active rows stand, timing references, line-number and CRC words,
blanking, ancillary packets and payload IDs, and the line that carries a picture (R25, R54, R71, R185, R210, R592). Places and codes
that the rules leave to the interface standards are PRESUMED from those standards (notes/assumptions/26.md).
-/
namespace Sys2Proof.Machine

/-! ### Lists of words -/

/-- Pieces of `k` items; `fuel` bounds their number. -/
def chunks {α : Type} (k : Nat) : Nat → List α → List (List α)
  | 0, _ => []
  | fuel + 1, l => if l.isEmpty then [] else l.take k :: chunks k fuel (l.drop k)
/-- Every `n`-th word from place `i`. -/
def stride (n i : Nat) (ws : List Nat) : List Nat := ((ws.zipIdx).filter fun e => e.2 % n == i).map (·.1)
/-- Two lists taken `k` words at a time in turn. -/
def interleave (k : Nat) (a b : List Nat) : List Nat := ((chunks k a.length a).zip (chunks k b.length b)).flatMap fun e => e.1 ++ e.2
/-- Streams put back in their interleave. -/
def joinStreams (n : Nat) (ss : List (List Nat)) : List Nat :=
  (List.range ((ss.headD []).length * n)).map fun i => (ss.getD (i % n) []).getD (i / n) 0

/-! ### Rasters -/

/-- Active picture lines of a frame. -/
def activeHeight (id : Nat) : Nat :=
  let r := id % 32
  if r = 0 then 487 else if r = 1 then 576 else if r ≤ 4 then 720 else if r ≤ 0x14 then 1080 else 2160
/-- Interface line that carries row `row` of field `f` (0 for progressive). -/
def rowLine (id f row : Nat) : Nat :=
  let r := id % 32
  if r = 0 then (if f = 0 then 20 + row else 283 + row)
  else if r = 1 then (if f = 0 then 23 + row else 336 + row)
  else if r ≤ 4 then 26 + row
  else if interlaced id ∨ psf id then (if f = 0 then 21 + row else 584 + row)
  else if r ≤ 0x14 then 42 + row else 42 + row / 2
/-- Rows of a field or frame. -/
def fieldRows (id f : Nat) : Nat :=
  let r := id % 32
  if r = 0 then (if f = 0 then 244 else 243) else if interlaced id ∨ psf id then activeHeight id / 2 else activeHeight id
/-- Two fields or segments to a frame. -/
def twoFields (id : Nat) : Bool := interlaced id || psf id
def spanActive (id f line : Nat) : Bool := decide (rowLine id f 0 ≤ line) && decide (line ≤ rowLine id f (fieldRows id f - 1))
def isActive (id line : Nat) : Bool := spanActive id 0 line || (twoFields id && spanActive id 1 line)
/-- Field (or segment) of a line: bit F of its timing references. -/
def lineField (id line : Nat) : Nat :=
  let r := id % 32
  if r = 0 then (if 4 ≤ line ∧ line ≤ 265 then 0 else 1)
  else if !twoFields id then 0
  else if line ≤ (if r = 1 then 312 else 563) then 0 else 1
/-- Two rows to an interface line (2160p, R54). -/
def rowsPerLine (id : Nat) : Nat := if 0x15 ≤ id % 32 then 2 else 1

/-- Active words of a line in the native mapping, YCbCr 4:2:2. -/
def activeLen (id : Nat) : Nat := activeWidth id * 2 * rowsPerLine id
/-- Active words of a line in a mapping. -/
def seatActive (id : Nat) (native : Bool) : Nat := activeLen id * (if native then 1 else 2)
/-- Place at which the SAV group of a line begins. -/
def savPlace (id : Nat) (native : Bool) : Nat := (seatRas id native).words - seatActive id native - (seatRas id native).eav

/-- Active words of a line of the native mapping, the words after SAV. -/
def activeWords (id : Nat) (ws : List Nat) : List Nat := ws.drop (ws.length - activeLen id)
/-- Order of the sub-images in the streams of a 2160p line. -/
def subStream : Nat → Nat
  | 1 => 3 | 2 => 1 | 3 => 2 | _ => 0
/-- The rows of an active line in 4:2:2 10-bit, as words Cb Y Cr Y: one row, or at 2160p the two rows of four two-sample-interleaved
sub-images. -/
def rowWords (id : Nat) (ws : List Nat) : List (List Nat) :=
  let a := activeWords id ws
  if id % 32 < 0x15 then [a]
  else
    let sub := fun (i : Nat) =>
      if (raster id).rate = 3 then stride 4 (subStream i) a
      else interleave 1 (stride 8 (subStream i) a) (stride 8 (subStream i + 4) a)
    [interleave 4 (sub 1) (sub 2), interleave 4 (sub 3) (sub 4)]
/-- Every other piece of `k` words: the even pieces, or the odd ones. -/
def pieces (k parity : Nat) (ws : List Nat) : List Nat :=
  (((chunks k ws.length ws).zipIdx).filter fun e => e.2 % 2 == parity).flatMap (·.1)
/-- Active words that carry the rows: the inverse of `rowWords`. -/
def wordsOfRows (id : Nat) (rows : List (List Nat)) : List Nat :=
  if id % 32 < 0x15 then rows.headD []
  else
    let a := rows.headD []
    let b := rows.getD 1 []
    -- stream j carries sub-image j of [4, 2, 3, 1]
    let subs := [pieces 4 1 b, pieces 4 1 a, pieces 4 0 b, pieces 4 0 a]
    if (raster id).rate = 3 then joinStreams 4 subs
    else joinStreams 8 (subs.map (stride 2 0) ++ subs.map (stride 2 1))
/-- A row as words Cb Y Cr Y, and back. -/
def rowOfPic (l : PicLine) : List Nat :=
  (List.range l.b.length).flatMap fun i => [l.b.getD i 0, l.a.getD (2 * i) 0, l.c.getD i 0, l.a.getD (2 * i + 1) 0]
def picOfRow (ws : List Nat) : PicLine := ⟨stride 2 1 ws, stride 4 0 ws, stride 4 2 ws⟩

/-! ### Timing references, line number, CRC -/

/-- XYZ word of a timing reference with its protection bits. -/
def xyz (f v h : Nat) : Nat :=
  512 + f * 256 + v * 128 + h * 64 + (v + h) % 2 * 32 + (f + h) % 2 * 16 + (f + v) % 2 * 8 + (f + v + h) % 2 * 4
def trs (f v h : Nat) : List Nat := [1023, 0, 0, xyz f v h]
/-- The protection bits of an XYZ word hold. -/
def xyzOk (w : Nat) : Bool := w == xyz (bitsAt w 8 8) (bitsAt w 7 7) (bitsAt w 6 6)
/-- Words of the timing-reference group that a line begins with: four for each stream interleaved. -/
def eavGroup (ws : List Nat) : Nat := 4 * (ws.takeWhile (· == 1023)).length
/-- A timing-reference group of `n` streams stands at the head of the words; `h` tells EAV from SAV. -/
def trsAt (n h : Nat) (ws : List Nat) : Bool :=
  decide (0 < n) && (ws.take n).all (· == 1023) && (ws.drop n).take (2 * n) == List.replicate (2 * n) 0 &&
    decide (4 * n ≤ ws.length) && bitsAt (ws.getD (3 * n) 0) 6 6 == h
/-- Place of the first timing reference of a line after its EAV (its SAV). -/
def findSav (n : Nat) : Nat → Nat → List Nat → Option Nat
  | 0, _, _ => none
  | fuel + 1, k, ws => if trsAt n 0 ws then some k else match ws with
    | _ :: t => findSav n fuel (k + 1) t
    | [] => none
def savOf (n : Nat) (ws : List Nat) : Option Nat := findSav n ws.length 0 ws
/-- Place of the next EAV at or after place `k`; none where the words end first. -/
def findEav : Nat → Nat → List Nat → Option Nat
  | 0, _, _ => none
  | fuel + 1, k, ws =>
    let n := (ws.takeWhile (· == 1023)).length
    if trsAt n 1 ws then some k else match ws with
      | _ :: t => findEav fuel (k + 1) t
      | [] => none

/-- Line-number words LN0 and LN1, and the number they spell. -/
def lnWords (line : Nat) : Nat × Nat :=
  let a := line % 128 * 4
  (if line / 64 % 2 = 1 then a else a + 512, line / 128 % 16 * 4 + 512)
def lnOf (a b : Nat) : Nat := bitsAt a 8 2 + 128 * bitsAt b 5 2
/-- The two CRC words of a running value; bit 9 is the complement of bit 8. -/
def crcWords (r : Nat) : Nat × Nat :=
  let w := fun (v : Nat) => if 256 ≤ v then v else v + 512
  (w (r % 512), w (r / 512 % 512))
/-- Running CRC of a stream: over the words after SAV of one line, to which the next line adds its EAV and line number. -/
def crcBegin (ws : List Nat) : Nat := crcNums 0x23000 0 10 ws
def crcEnd (r : Nat) (ws : List Nat) : Nat × Nat := crcWords (crcNums 0x23000 r 10 (ws.take 6))
/-- Words of a stream after its SAV. -/
def streamActive (ws : List Nat) : List Nat := match savOf 1 ws with
  | some n => ws.drop (n + 4)
  | none => []
/-- Streams of a line: as many as its EAV group interleaves. -/
def streamsOf (ws : List Nat) : List (List Nat) :=
  let n := max 1 (eavGroup ws / 4)
  if n = 1 then [ws] else (List.range n).map fun i => stride n i ws

/-! ### Ancillary packets and payload IDs -/

/-- A word with even parity of its low eight bits in bit 8 and the complement of that in bit 9. -/
def parityWord (v : Nat) : Nat :=
  let p := ((List.range 8).filter (bitAt v)).length % 2
  v % 256 + p * 256 + (1 - p) * 512
/-- Checksum of the words of an ancillary packet from its DID on. -/
def ancSum (ws : List Nat) : Nat :=
  let s := (ws.map (· % 512)).foldl (· + ·) 0 % 512
  if 256 ≤ s then s else s + 512
/-- An ancillary packet from its DID on. -/
def ancPacket (did sdid : Nat) (udw : List Nat) : List Nat :=
  let ws := [parityWord did, parityWord sdid, parityWord udw.length] ++ udw
  ws ++ [ancSum ws]
/-- Ancillary packets of one stream of words (ST 291): place, then DID, SDID, DC, UDW, checksum. -/
def findAnc : Nat → Nat → List Nat → List (Nat × List Nat)
  | 0, _, _ => []
  | fuel + 1, at_, l =>
    match l with
    | 0 :: 1023 :: 1023 :: t =>
      let n := t.getD 2 0 % 256 + 4
      (at_, t.take n) :: findAnc fuel (at_ + 3 + n) (t.drop n)
    | _ :: t => findAnc fuel (at_ + 1) t
    | [] => []
/-- The packets of a stream, whose EAV begins it. -/
def ancOf (ws : List Nat) : List (Nat × List Nat) := findAnc ws.length 0 ws
/-- The checksum of a packet holds. -/
def ancOk (w : List Nat) : Bool := w.getLastD 0 == ancSum (w.take (w.length - 1))
/-- Group (0 to 7) of an embedded audio packet of ST 272 or ST 299, data or control, by its DID. -/
def audioGroup (hd : Bool) (w : List Nat) : Option Nat :=
  let did := w.getD 0 0 % 256
  if hd then
    if 0xE4 ≤ did ∧ did ≤ 0xE7 then some (0xE7 - did) else if 0xE0 ≤ did ∧ did ≤ 0xE3 then some (0xE3 - did)
    else if 0xA4 ≤ did ∧ did ≤ 0xA7 then some (0xA7 - did + 4) else if 0xA0 ≤ did ∧ did ≤ 0xA3 then some (0xA3 - did + 4) else none
  else if did = 0xFF then some 0 else if did = 0xFD then some 1 else if did = 0xFB then some 2 else if did = 0xF9 then some 3
  else if 0xEC ≤ did ∧ did ≤ 0xEF then some (0xEF - did) else if did = 0xFE ∨ did = 0xFC ∨ did = 0xFA ∨ did = 0xF8 then some ((0xFE - did) / 2) else none
/-- An ST 352 payload ID packet, and its four bytes with byte 1 in [7:0]. -/
def isPid (w : List Nat) : Bool := w.getD 0 0 % 256 == 0x41 && w.getD 1 0 % 256 == 1
def pidBytes (w : List Nat) : Nat :=
  (List.range 4).foldl (fun a i => a + w.getD (3 + i) 0 % 256 * 2 ^ (8 * i)) 0
/-- The payload ID of raster `id` with a payload, in a mapping (ST 352; WIDE in byte 3 bit 6, R592). -/
def payloadId (id : Nat) (native : Bool) (p : Payload) : Nat :=
  let r := raster id
  let prog := !twoFields id
  let b1 := match (seatRas id native).rate with
    | 0 => 0x81
    | 1 => if r.lines = 750 then 0x84 else 0x85
    | 2 => 0x89
    | 3 => if 0x15 ≤ id % 32 then 0xC0 else 0xC1
    | _ => 0xCE
  let rate := match r.num, r.den with
    | 24000, _ => 2 | 24, _ => 3 | 25, _ => 5 | 30000, _ => 6 | 30, _ => 7 | 50, _ => 9 | 60000, _ => 10 | _, _ => 11
  let b2 := (if prog then 128 else 0) + (if prog || psf id then 64 else 0) + rate
  let b3 := (if 32 ≤ id then 64 else 0) + (if p.colour = 0 then 0 else 32) + p.sampling
  let b4 := (if p.colour = 2 then 16 else if p.colour = 3 then 32 else 0) +
    (if p.depth12 then (if p.full then 3 else 2) else if p.full then 0 else 1)
  b1 + b2 * 2 ^ 8 + b3 * 2 ^ 16 + b4 * 2 ^ 24
/-- What a payload ID says of the picture. -/
def pidPayload (pid : Nat) : Payload :=
  let b3 := bitsAt pid 23 16
  let b4 := bitsAt pid 31 24
  let d := b4 % 4
  ⟨min 2 (b3 % 16), decide (2 ≤ d), if bitsAt b3 5 4 = 0 then 0 else if bitsAt b4 5 4 = 1 then 2 else if bitsAt b4 5 4 = 2 then 3 else 1, d == 0 || d == 3⟩
/-- Payload taken where a signal carries no payload ID (R71): YCbCr 4:2:2 10-bit narrow range. -/
def plainPayload : Payload := ⟨0, false, 0, false⟩
/-- The line count and rate class that a payload ID's first byte stands for, and whether its rate code is of the /1.001 family; none
for a byte that names no supported interface. -/
def pidShape (pid : Nat) : Option (List Nat × Nat) :=
  match pid % 256 with
  | 0x81 => some ([525, 625], 1) | 0x84 => some ([750], 2) | 0x85 => some ([1125], 2) | 0x88 => some ([750], 3) | 0x89 => some ([1125], 3)
  | 0x8A => some ([1125], 3) | 0x8B => some ([750], 3) | 0x8C => some ([1125], 3) | 0xC0 => some ([1125], 4) | 0xC1 => some ([1125], 4)
  | 0xCE => some ([1125], 5) | _ => none
/-- A payload ID agrees with the rate class, /1.001 bit and line count measured (0 where not yet measured). -/
def pidAgrees (pid cls m1001 lines : Nat) : Bool :=
  match pidShape pid with
  | none => true
  | some (ls, c) =>
    let code := bitsAt pid 11 8
    (cls == 0 || cls == c) && (lines == 0 || ls.contains lines) && (decide (cls < 2) || (code == 2 || code == 6 || code == 10) == (m1001 == 1))
/-- Lines that carry the payload ID. -/
def pidLine (id line : Nat) : Bool :=
  let r := id % 32
  if r = 0 then line == 13 || line == 276 else if r = 1 then line == 9 || line == 322
  else if twoFields id then line == 10 || line == 572 else line == 10
/-- Streams, of `n`, that carry it. -/
def pidStream (n i : Nat) : Bool := if n = 1 then true else if n = 2 then i == 1 else if n = 4 then true else decide (4 ≤ i)

/-! ### Building a line -/

/-- Blanking word at place `p` of stream `i` of `n`. -/
def blankWord (n i p : Nat) : Nat :=
  let chroma := if n = 1 ∨ n = 4 then p % 2 == 0 else if n = 2 then i == 0 else decide (i < 4)
  if chroma then 0x200 else 0x040
/-- Words `ws` laid over `l` from place `k`. -/
def putWords (l : List Nat) (k : Nat) (ws : List Nat) : List Nat := l.take k ++ ws ++ l.drop (k + ws.length)
/-- A packet to be placed: stream and words from the DID on. -/
abbrev AncOut := Nat × List Nat
/-- Packets laid one after another from place `k`, as far as they end by place `e`. -/
def layAnc (l : List Nat) (k e : Nat) : List (List Nat) → List Nat
  | [] => l
  | w :: t => if k + w.length + 3 ≤ e then layAnc (putWords l k ([0, 1023, 1023] ++ w)) (k + w.length + 3) e t else layAnc l k e t

/-- A line of `n` streams of `len` words each: timing references, line number from HD up, CRC over `regs` (the running values of the
line before, by stream), blanking, the active words (or blanking, where there are none), and ancillary packets: behind SAV on a
line without picture, in horizontal blanking otherwise. -/
def buildLine (id n len : Nat) (line : Nat) (active : Option (List Nat)) (actLen : Nat) (regs : List Nat) (anc : List AncOut) : List Nat :=
  let f := lineField id line
  let v := if isActive id line then 0 else 1
  let hd := decide (2 ≤ n)
  let head := if hd then 8 else 4
  let sav := len - actLen / n - 4
  joinStreams n ((List.range n).map fun i =>
    let blank := (List.range len).map (blankWord n i)
    let w0 := putWords blank 0 (trs f v 1)
    let w1 := putWords w0 sav (trs f v 0)
    let w2 := if hd then (w1.set 4 (lnWords line).1).set 5 (lnWords line).2 else w1
    let w3 := match active with
      | some a => putWords w2 (sav + 4) (stride n i a)
      | none => w2
    let mine := (anc.filter fun a => a.1 == i).map (·.2)
    let pids := mine.filter isPid
    let rest := mine.filter fun w => !isPid w
    let w4 := if active.isSome then layAnc w3 head sav (pids ++ rest) else layAnc (layAnc w3 head sav pids) (sav + 4) len rest
    if hd then
      let (c0, c1) := crcEnd (regs.getD i 0) w4
      (w4.set 6 c0).set 7 c1
    else w4)
/-- Running CRC values that a line leaves, by stream. -/
def lineRegs (ws : List Nat) : List Nat := (streamsOf ws).map fun w => crcBegin (streamActive w)
/-- Payload ID packets of a line, one for each stream that carries it. -/
def pidAnc (id n line pid : Nat) : List AncOut :=
  if !pidLine id line then []
  else ((List.range n).filter (pidStream n)).map fun i => (i, ancPacket 0x41 1 ((List.range 4).map fun j => parityWord (bitsAt pid (8 * j + 7) (8 * j))))

/-- Row (or rows) of a picture that an active line carries: field and first row. -/
def lineRow (id line : Nat) : Nat × Nat :=
  let f := if twoFields id && spanActive id 1 line then 1 else 0
  (f, (line - rowLine id f 0) * rowsPerLine id)
/-- Row of black: Y 0x040 with Cb and Cr 0x200 (R71, R114). -/
def blackRow422 (w : Nat) : List Nat := (List.range (w / 2)).flatMap fun _ => [0x200, 0x040, 0x200, 0x040]
/-- Active words of a line of black in the native mapping; R, G and B 0x040 in 4:4:4 RGB (R71). -/
def blackActive (id : Nat) (sampling : Nat) : List Nat :=
  if sampling = 2 then List.replicate (activeLen id) 0x040
  else wordsOfRows id ((List.range (rowsPerLine id)).map fun _ => blackRow422 (activeWidth id))
/-- A line of black or of empty blanking in the native mapping of a raster, with its payload ID (R71, R114). -/
def blackLine422 (id line : Nat) (sampling : Nat) (pid : Option Nat) : List Nat :=
  let r := raster id
  let n := r.eav / 4
  let act := fun (l : Nat) => if isActive id l then some (blackActive id sampling) else none
  let prev := if line ≤ 1 then r.lines else line - 1
  let regs := if n = 1 then [] else lineRegs (buildLine id n (r.words / n) prev (act prev) (activeLen id) [] [])
  buildLine id n (r.words / n) line (act line) (activeLen id) regs ((pid.map (pidAnc id n line)).getD [])

/-! ### Pictures under way (R138, R269, R284) -/

/-- The odd frame lines (field 1, part 1), the even ones (part 2), or all. -/
def partRows (part : Nat) : List PicLine → List PicLine
  | a :: b :: t => (if part = 2 then [b] else if part = 1 then [a] else [a, b]) ++ partRows part t
  | l => if part = 2 then [] else l
/-- Unit number under which the picture is kept that a unit sends now. -/
def airUnit (u : Nat) : Nat := 2 ^ 24 + u
/-- Unit `u` sends a picture, whole (part 0) or its odd or even frame lines (1, 2), from now until the next one. -/
def State.sendAir (s : State) (u part : Nat) (pay : Payload) (rows : List PicLine) (anc : List (List Nat)) (marks : List Nat) : State :=
  State.emit { s with pics := (s.pics.filter fun p => p.unit != airUnit u || (part != 0 && p.num != 0 && p.num != part)) ++ [⟨airUnit u, part, pay, 0, rows, anc, marks⟩] }
    (.picture u part pay rows anc)
/-- The picture that unit `u` sends on line `line` of raster `id`. -/
def State.airOf (s : State) (u id line : Nat) : Option Pict := s.pics.find? fun p => p.unit == airUnit u && (p.num == 0 || p.num == lineField id line + 1)
/-- The line's marks in what unit `u` sends: LERR, CONC. -/
def State.airMarks (s : State) (u id line : Nat) : Bool × Bool :=
  let m := ((s.airOf u id line).map (·.marks)).getD []
  (m.contains (4 * line + 1) || m.contains (4 * line + 3), m.contains (4 * line + 2) || m.contains (4 * line + 3))
/-- Words of a line that carries a picture, with running line CRCs `regs`. A picture in another form than 4:2:2 10-bit has active words
whose mapping the spec does not give: each is a free value that no timing reference uses (notes/assumptions/97.md). -/
def State.airWords (s : State) (pict : Option Pict) (id line : Nat) (regs : List Nat) : List Nat × State :=
  let r := raster id
  let n := r.eav / 4
  let at_ := lineRow id line
  let pay := (pict.map (·.pay)).getD plainPayload
  let (act, s1) : Option (List Nat) × State :=
    if !isActive id line then (none, s)
    else match pict with
    | none => (some (blackActive id 0), s)
    | some p =>
      if nativeFormat p.pay.sampling (if p.pay.depth12 then 1 else 0) then
        let rows := if p.num = 0 ∧ twoFields id then partRows (at_.1 + 1) p.rows else p.rows
        (some (wordsOfRows id ((List.range (rowsPerLine id)).map fun j => ((rows[at_.2 + j]?).map rowOfPic).getD (blackRow422 (activeWidth id)))), s)
      else (fun (x : List Nat × State) => (some x.1, x.2))
        ((List.range (activeLen id)).foldl (fun (a : List Nat × State) _ => let x := a.2.free 1016; (a.1 ++ [x.1 + 4], x.2)) ([], s))
  let anc := (((pict.map (·.anc)).getD []).filter fun a => a.headD 0 == line).map fun a => (a.getD 1 0, a.drop 2)
  (buildLine id n (r.words / n) line act (activeLen id) regs (pidAnc id n line (payloadId id true pay) ++ anc), s1)
/-- Line `line` of what unit `u` sends on raster `id`: its line CRC covers the line before it. -/
def State.airLine (s : State) (u id line : Nat) : List Nat × State :=
  let prev := if line ≤ 1 then (raster id).lines else line - 1
  let r := s.airWords (s.airOf u id prev) id prev []
  r.2.airWords (s.airOf u id line) id line (if (raster id).eav = 4 then [] else lineRegs r.1)

/-! ### Seat lines and beats (R24 to R28) -/

/-- Data streams that a line interleaves, and whether it is of HD or above. -/
def SeatLine.streams (l : SeatLine) : Nat := max 1 (eavGroup l.words / 4)
def SeatLine.hd (l : SeatLine) : Bool := decide (2 ≤ l.streams)
/-- The beats of a line, four words to a beat; `str` names the stream in multi-stream form (Table 1.1, R26). -/
def SeatLine.beats (str : Nat) (l : SeatLine) : List Beat :=
  (chunks 4 l.words.length l.words).zipIdx.map fun e =>
    { data := BitVec.ofNat 40 (e.1.foldr (fun w x => w + 1024 * x) 0), valid := true, sol := e.2 == 0, lerr := l.lerr,
      str := BitVec.ofNat 3 str, conc := l.conc }

end Sys2Proof.Machine
end

