-- ==== Sys2Proof/Machine/Approx.lean ====
section
/-!
DEFINITION. The real functions that audio rules name (powers of 10, logarithms, sines, exponentials, square roots), to
96 fractional bits. A value the spec rounds is rounded from this approximation (notes/assumptions/16.md).
-/
namespace Sys2Proof.Machine.Fx

/-- Fixed-point numbers count units of 2^-96. -/
def one : Int := 2 ^ 96
def pi : Int := 248902613312231085230521944622
def ln2 : Int := 54916777467707473351141471128
def ln10 : Int := 182429585950654714090129938606

def mul (a b : Int) : Int := a * b / one
def ofRat (n d : Int) : Int := n * one / d
/-- Nearest integer of `n / d`, halves upward. -/
def round (n d : Int) : Int := (2 * n + d) / (2 * d)
/-- Nearest integer of a fixed-point number. -/
def toInt (x : Int) : Int := round x one

/-- e^r for |r| at most ln 2. -/
def expSmall (r : Int) : Int := (List.range 40).foldr (fun (k : Nat) acc => one + mul r acc / ((k : Int) + 1)) one
/-- e^x. -/
def exp (x : Int) : Int :=
  let k := (x + ln2 / 2) / ln2
  let e := expSmall (x - k * ln2)
  if 0 ≤ k then e * 2 ^ k.toNat else e / 2 ^ (-k).toNat
/-- Natural logarithm of n / d, both above 0. -/
def ln (n d : Nat) : Int :=
  let q := n * 2 ^ 200 / d
  let b := Nat.log2 q
  let m : Int := (q * 2 ^ 96 / 2 ^ b : Nat)
  let t := (m - one) * one / (m + one)
  let t2 := mul t t
  let s := (List.range 40).foldr (fun (k : Nat) acc => one / (2 * (k : Int) + 1) + mul t2 acc) 0
  2 * mul t s + ((b : Int) - 200) * ln2
/-- sin x and cos x for 0 ≤ x ≤ π/2. -/
def sinSmall (x : Int) : Int :=
  let x2 := mul x x
  mul x ((List.range 20).foldr (fun (k : Nat) acc => one - mul x2 acc / ((2 * (k : Int) + 2) * (2 * (k : Int) + 3))) one)
def cosSmall (x : Int) : Int :=
  let x2 := mul x x
  (List.range 20).foldr (fun (k : Nat) acc => one - mul x2 acc / ((2 * (k : Int) + 1) * (2 * (k : Int) + 2))) one
/-- sin(2π p / q). -/
def sinTurn (p : Int) (q : Nat) : Int :=
  let f := (4 * p) % (4 * (q : Int))
  let x := pi / 2 * (f % q) / q
  match (f / q).toNat with
  | 0 => sinSmall x
  | 1 => cosSmall x
  | 2 => -sinSmall x
  | _ => -cosSmall x
/-- cos(π n / d) and sin(π n / d). -/
def cosPi (n : Int) (d : Nat) : Int := sinTurn (2 * n + d) (4 * d)
def sinPi (n : Int) (d : Nat) : Int := sinTurn n (2 * d)

/-- 10^(x / 20), and 20 log10(n / d). -/
def ofDb (x : Int) : Int := exp (x * ln10 / (20 * one))
def db (n d : Nat) : Int := ln n d * 20 * one / ln10
/-- Square root rounded down. -/
def isqrt (n : Nat) : Nat :=
  (List.range (Nat.log2 n / 2 + 1)).foldr (fun (k : Nat) r => if (r + 2 ^ k) * (r + 2 ^ k) ≤ n then r + 2 ^ k else r) 0

end Sys2Proof.Machine.Fx
end

