-- ==== Sys2Proof/Machine/Links.lean ====
section
/-!
DEFINITION. Sending on the Alley and the Footpath: stripe, sequence numbers, and the messages kept until they are
acknowledged (R415, R416, R521).
-/
namespace Sys2Proof.Machine

/-- CRC-32C of a message, over its envelope and body: TYPE in [7:0], LENGTH in [23:8], the words of the whole message, and
MSG_SEQ in [55:24] (R416). -/
def msgCrc (typ seq : Nat) (body : List Word) : BitVec 32 :=
  BitVec.ofNat 32 (crc32c 64 ((typ % 256 + (body.length + 2) % 65536 * 2 ^ 8 + seq % 2 ^ 32 * 2 ^ 24) :: body.map BitVec.toNat))
/-- A message with its CRC. -/
def sealMsg (typ seq : Nat) (body : List Word) : LinkMsg := ⟨typ, seq, body, msgCrc typ seq body⟩
/-- The message arrived with a good CRC. -/
def goodCrc (m : LinkMsg) : Bool := m.crc == msgCrc m.typ m.seq m.body

/-- Next MSG_SEQ of the three links: 0 Alley, 1 Footpath upstream, 2 Footpath downstream. -/
def Twin.txSeq (link : Nat) : Field := ⟨300 + link, 32, false, 0⟩

/-- Instant (in `clk`, plus one) of the slot of the last valid heartbeat (HB_AGE, Table 15.10). -/
def Twin.hbAt : Field := ⟨310, 0, false, 0⟩

/-- Alley lanes in the stripe, as TWIN.STATUS.ALLEY_LANES shows them (R415). -/
def State.alleyLanes (s : State) : Nat :=
  (List.range 4).foldl (fun a i => a + (if s.rb (U.lane (288 + i)) Lane.LINK then 2 ^ i else 0)) 0
/-- At least 2 of the 4 lanes are up. -/
def State.alleyUp (s : State) : Bool := decide (2 ≤ ((List.range 4).filter fun i => s.rb (U.lane (288 + i)) Lane.LINK).length)

/-- Message types that are kept until acknowledged (Table 15.2; Table 19.7 uses the same for the Footpath). -/
def alleyAcked (t : Nat) : Bool := t == 3 || t == 4 || t == 5 || t == 6 || t == 0x30 || t == 0x31 || t == 0x40

/-- Attempts made for a kept message, and the instant (plus one) of the last. -/
abbrev nvAttempts (link : Nat) : Nat := 0xA100 + link
abbrev nvSentAt (link : Nat) : Nat := 0xA110 + link

/-- Send a message on the Alley: nothing leaves while it is DOWN. -/
def State.alleySend (s : State) (typ : Nat) (body : List Word) : State :=
  if !s.alleyUp then s
  else
    let q := s.rn U.twin (Twin.txSeq 0)
    let m := sealMsg typ q body
    let s1 := (s.wr U.twin (Twin.txSeq 0) (q + 1)).emit (.alley m)
    if alleyAcked typ then
      State.setNv { s1 with links := Tbl.set ⟨0, 0⟩ [] (Tbl.get ⟨0, 0⟩ [] s1.links ++ [m]) s1.links } (nvSentAt 0) q 0 (s1.clk + 1)
    else s1

/-- The device sends decisions: it is ACTIVE with a partner in step or replicating (R424, Table 15.6). -/
def State.sendsDecisions (s : State) : Bool := s.rn U.twin Twin.ROLE == 1 && (s.rn U.twin Twin.PAIR == 3 || s.rn U.twin Twin.PAIR == 2)
/-- The device follows the partner's decisions: STANDBY in step (R424). -/
def State.followsDecisions (s : State) : Bool := s.rn U.twin Twin.ROLE == 2 && s.rn U.twin Twin.PAIR == 3

/-- Legs that a transmit context or forwarding output sends by its policy (R245, Table 8.6): A, then B. -/
def State.legRule (s : State) (both : Bool) : Bool × Bool :=
  let role := s.rn U.twin Twin.ROLE
  if both then (true, true)
  else if role = 0 then (true, true)
  else if s.rn U.twin Twin.PAIR = 6 then (s.rn U.twin Twin.SIDE == 0, s.rn U.twin Twin.SIDE == 1)
  else if role = 2 then (false, true)
  else if s.rn U.twin Twin.hbAt + 30 * Config.us ≤ s.clk then (true, true)
  else (true, false)

/-- Send a decision: its kind (0 Granary frame, 1 Plaza tile, 2 audio slip, 3 ASRC phase, 4 RTP timestamp), the unit and
the value (R424). -/
def State.decide_ (s : State) (kind unit value : Nat) : State :=
  if s.sendsDecisions then s.alleySend 2 [BitVec.ofNat 64 (kind + unit % 2 ^ 32 * 2 ^ 8), BitVec.ofNat 64 value] else s

/-- A Footpath link (1 upstream, 2 downstream) is UP (R521), and when its last valid HELLO came. -/
def Fp.up (link : Nat) : Field := ⟨300 + link, 1, false, 0⟩
def Fp.helloAt (link : Nat) : Field := ⟨303 + link, 0, false, 0⟩
/-- Place of a Footpath link's counter `c` (one of Ctr.FpLink, the places of the downstream link) in the boot unit's list: after the
boot unit's own seven, the upstream link first. -/
def Fp.ctr (link c : Nat) : Nat := if link = 1 then c - 9 else c

/-- Send a message on a Footpath link. Acknowledged types are kept, and held while the link is DOWN (R521, R537). -/
def State.footSend (s : State) (link typ : Nat) (body : List Word) : State :=
  let q := s.rn U.twin (Twin.txSeq link)
  let m := sealMsg typ q body
  let acked := typ == 4 || typ == 5 || typ == 0x40 || typ == 0x50 || typ == 0x51
  let up := s.rb U.boot (Fp.up link)
  let s1 := s.wr U.twin (Twin.txSeq link) (q + 1)
  let s2 := if up || typ == 1 then s1.emit (.foot (link == 1) m) else s1
  if acked then
    State.setNv { s2 with links := Tbl.set ⟨link, 0⟩ [] (Tbl.get ⟨link, 0⟩ [] s2.links ++ [m]) s2.links } (nvSentAt link) q 0 (s2.clk + 1)
  else s2

/-- The ring word of a Footpath message (R521). -/
def ringWord (origin dest hops dist : Nat) : Word :=
  BitVec.ofNat 64 (origin % 65536 + dest % 65536 * 2 ^ 16 + hops % 64 * 2 ^ 32 + dist % 65536 * 2 ^ 48)

end Sys2Proof.Machine
end

