-- ==== Sys2Proof/Machine/Shadow.lean ====
section
/-!
DEFINITION. The state that replication copies, and the copy that a STANDBY device keeps apart until the step tick
(R437, R438).
-/
namespace Sys2Proof.Machine

/-- Set on the copy while the threads run on it, so that nothing waits for a tick (R437). -/
def Twin.replaying : Field := ⟨311, 1, false, 0⟩

/-- Configuration fields of the classes that hold status beside it: places in the class's field list. -/
def copiedPlaces (c : Nat) : List Nat :=
  match c with
  | 0x05 => [1, 2, 3]
  | 0x06 => [1, 2, 3]
  | 0x07 => [1, 3]
  | 0x08 => [1, 2, 4, 14, 17, 18, 19, 20, 21, 22, 34, 35]
  | 0x0A => [1, 2, 4, 6, 7, 8, 9, 10, 11, 12, 13, 14]
  | 0x0B => [1, 2, 12, 13, 14, 15, 16, 17, 18, 19, 20, 21, 22, 23, 24, 25, 26]
  | 0x23 => [1, 2, 3, 4]
  | 0x24 => [1, 2, 3, 4, 6] ++ (List.range 33).map (· + 7)
  | 0x26 => [1] ++ (List.range 10).map (· + 8)
  | 0x27 => [1, 4, 5, 6, 7, 8, 9]
  | 0x31 => [3, 300, 301, 302]
  | 0x40 => (List.range 8).map (· + 14) ++ [8]
  | 0x41 => [2] ++ (List.range 8).map (· + 7)
  | 0x42 => (List.range 12).map (· + 12)
  | 0x44 => [2, 3]
  | _ => []

/-- The register is part of what replication copies: thread state, and every configuration set by CFG and table
instructions, with the sequence and timestamp state of flow contexts; status and measurements are not (R437). -/
def copied (k : Key) : Bool :=
  let c := U.classOf k.unit
  if k.pos = 201 then true
  else if 0x310000 ≤ k.unit ∧ k.unit < 0x320000 then decide (7 ≤ k.pos) && decide (k.pos < 300)
  else if 0x320000 ≤ k.unit ∧ k.unit < 0x330000 then decide (3 ≤ k.pos) && decide (k.pos < 300)
  else if 0x200000 ≤ k.unit ∧ k.unit < 0x300000 then decide (k.pos < 200) && !([6, 7, 10, 12].contains k.pos)
  else if 0x3B0000 ≤ k.unit then k.pos == 1 || (decide (12 ≤ k.pos) && decide (k.pos < 200))
  else if 0x100000 ≤ k.unit then decide (k.pos < 200)
  else if c = 0x30 ∨ c = 0x32 then k.pos != 200
  else if c = 0x04 ∨ c = 0x0C ∨ c = 0x0D ∨ c = 0x11 ∨ c = 0x12 ∨ c = 0x16 ∨ c = 0x33 ∨ c = 0x34 ∨ c = 0x35 ∨ c = 0x36 ∨ c = 0x45 ∨ c = 0x46 then
    decide (k.pos < 200)
  else (copiedPlaces c).contains k.pos
/-- Numeric lists that are configuration: LUT banks and detector assignments. -/
def copiedBuf (k : Key) : Bool :=
  (U.classOf k.unit == 0x11 && (k.pos == 10 || k.pos == 11)) || k.unit == U.detector

/-- Two tables as one; the second wins. -/
def Tbl.over {α : Type} (a b : Tbl α) : Tbl α := b.foldl (fun t e => Tbl.put e.1 e.2 t) a

/-- The replicated part of a state. -/
def State.extract (s : State) : Shadow where
  regs := s.regs.filter fun e => copied e.1
  gregs := s.gregs
  preds := s.preds
  calls := s.calls
  ledger := s.ledger
  errands := s.errands
  parts := s.parts
  staged := s.staged
  bg := s.bg
  salvos := s.salvos
  sheaf := s.sheaf
  layers := s.layers
  classifier := s.classifier
  barn := s.barn
  claims := s.claims
  holds := s.holds
  bufs := s.bufs.filter fun e => copiedBuf e.1
/-- The state with its replicated part replaced. -/
def State.withShadow (s : State) (h : Shadow) : State :=
  { s with
    regs := Tbl.over (s.regs.filter fun e => !copied e.1) h.regs
    gregs := h.gregs
    preds := h.preds
    calls := h.calls
    ledger := h.ledger
    errands := h.errands
    parts := h.parts
    staged := h.staged
    bg := h.bg
    salvos := h.salvos
    sheaf := h.sheaf
    layers := h.layers
    classifier := h.classifier
    barn := h.barn
    claims := h.claims
    holds := h.holds
    bufs := Tbl.over (s.bufs.filter fun e => !copiedBuf e.1) h.bufs }

/-- The threads run on a copy that is not yet current. -/
def State.onCopy (s : State) : Bool :=
  s.shadow.isSome && s.rn U.twin Twin.ROLE == 2 && s.rn U.twin Twin.PAIR == 2

/-- What a thread does: on the device's own state or, while it replicates, on the copy alone: only the copy changes, and
units that the copy comes to use are woken (R43, R437). `own` tells that it serves an errand this host sent. -/
def State.onThreads (s : State) (own : Bool) (f : State → State) : State :=
  match s.shadow with
  | none => f s
  | some h =>
    if own || !s.onCopy then f s
    else
      let t := f ((s.withShadow h).wr U.twin Twin.replaying 1)
      { s with
        shadow := some t.extract
        regs := Tbl.over s.regs (t.regs.filter fun e => e.1.pos == 200 || e.1.pos == 202)
        nextId := t.nextId
        freeIx := t.freeIx }

end Sys2Proof.Machine
end

