-- ==== Sys2Proof/Machine/Thread.lean ====
section
/-!
DEFINITION. Lamplighter threads: registers, predicates, the program counter, what an executing instruction owes its
errand or thread, and the posting of final codes (R77 to R96, R450).
-/
namespace Sys2Proof.Machine

/-! Thread bookkeeping that Table 3.1 does not show: target mode and plan in force, the errand executed (its id plus
one), the CALL whose instructions run (its place plus one), what a wait waits for, a stop ordered by `thrstop`
(R456), and a fetch past the end of the Ledger (R84). -/
def Lamp.tMode : Field := ⟨300, 0, false, 0⟩
def Lamp.tPlan : Field := ⟨301, 0, false, 0⟩
def Lamp.errand : Field := ⟨302, 0, false, 0⟩
def Lamp.callIdx : Field := ⟨303, 0, false, 0⟩
def Lamp.waitKind : Field := ⟨304, 0, false, 0⟩
def Lamp.waitVal : Field := ⟨305, 0, true, 0⟩
def Lamp.waitReg : Field := ⟨306, 0, false, 0⟩
def Lamp.waitSeq : Field := ⟨309, 0, false, 0⟩
def Lamp.stopAtEnd : Field := ⟨307, 1, false, 0⟩
def Lamp.past : Field := ⟨308, 1, false, 0⟩
/-- Unit ID (plus one) of the member that decided the code of the last failed group instruction (R37). -/
def Lamp.failMember : Field := ⟨310, 0, false, 0⟩

abbrev thIdle : Int := 0
abbrev thQueueWait : Int := 1
abbrev thRunning : Int := 2
abbrev thTickWait : Int := 3
abbrev thEventWait : Int := 4
abbrev thHalted : Int := 5
abbrev thFault : Int := 7

def State.th (s : State) (t : Nat) (f : Field) : Int := s.rd (U.thread t) f
def State.thn (s : State) (t : Nat) (f : Field) : Nat := s.rn (U.thread t) f
def State.setTh (s : State) (t : Nat) (f : Field) (v : Int) : State := s.wr (U.thread t) f v

def State.gget (s : State) (t r : Nat) : Word := Tbl.get ⟨t, r % 16⟩ 0 s.gregs
def State.gset (s : State) (t r : Nat) (v : Word) : State := { s with gregs := Tbl.set ⟨t, r % 16⟩ 0 v s.gregs }
def State.pget (s : State) (t p : Nat) : Bool := Tbl.get ⟨t, p⟩ false s.preds
def State.pset (s : State) (t p : Nat) (v : Bool) : State := { s with preds := Tbl.set ⟨t, p⟩ false v s.preds }
def State.ldword (s : State) (i : Nat) : Word := Tbl.get ⟨0, i⟩ 0 s.ledger
def State.ldput (s : State) (i : Nat) (w : Word) : State := { s with ledger := Tbl.set ⟨0, i⟩ 0 w s.ledger }

/-- The thread executes for an errand, directly or within a `call` (R450). -/
def State.inErrand (s : State) (t : Nat) : Bool := s.rb (U.thread t) Lamp.errand
/-- The errand the thread executes. -/
def State.errandOf (s : State) (t : Nat) : Option Errand :=
  s.errands.find? fun e => e.id + 1 == s.thn t Lamp.errand
/-- Replace an errand of the list. -/
def State.setErrand (s : State) (e : Errand) : State :=
  { s with errands := s.errands.map fun x => if x.id = e.id then e else x }
/-- Words before the first instruction word (Tables 3.2, 3.3). -/
def Errand.head (e : Errand) : Nat := if e.mode = 1 then 2 else if e.mode = 2 then 3 else 1

/-! ### What an instruction owes -/

/-- A worse code replaces DONE, and any code but DONE replaces LATE (R38). -/
def combine (old new : Nat) : Nat := if old = 0 then new else if old = 2 ∧ new ≠ 0 then new else old

/-- Open the part of the instruction a thread now executes: it covers `len` words and owes `left` outcomes. What runs
within a `call` made from an errand counts for the `call` word alone (R95). -/
def State.openPart (s : State) (t len left pc : Nat) (words : List Word) : Nat × State :=
  let e := s.errandOf t
  let idx := match e with
    | none => 0
    | some e => if s.rb (U.thread t) Lamp.callIdx then s.thn t Lamp.callIdx - 1 else pc - e.head
  (s.nextId, { s with
    nextId := s.nextId + 1
    parts := s.parts ++ [⟨s.nextId, e.map (·.id), t, idx, if s.rb (U.thread t) Lamp.callIdx then 1 else len, pc, left, 0, words⟩] })

/-- The counter of a final code of a Ledger instruction (R96). -/
def finalCtr (code : Nat) : Nat :=
  if code = 0 then Ctr.Thread.FINAL_DONE else if code = 2 then Ctr.Thread.FINAL_LATE
  else if code = 1 then Ctr.Thread.FINAL_CONFLICT else if code = 15 then Ctr.Thread.FINAL_FAULT
  else Ctr.Thread.FINAL_OTHER

/-- A Ledger instruction has its final code: counted, and posted under REPORT (R96, R476). -/
def State.finalLedger (s : State) (p : Part) : State :=
  let s1 := s.count (U.thread p.th) (finalCtr p.code)
  if p.code ≠ 0 && s.rb (U.thread p.th) Lamp.REPORT then
    s1.post (U.thread p.th) evFinalCode (p.code + p.pc % 65536 * 65536)
  else s1

/-- One outcome of part `pid` has come in. A finished Ledger part is reported and dropped; a finished errand part
stays for the FINAL reply. -/
def State.closePart (s : State) (pid code : Nat) : State :=
  match s.parts.find? (·.pid == pid) with
  | none => s
  | some p =>
    let q := { p with left := p.left - 1, code := combine p.code code }
    if q.left = 0 && q.errand.isNone then
      { s with parts := s.parts.filter (·.pid != pid) }.finalLedger q
    else { s with parts := s.parts.map fun x => if x.pid = pid then q else x }

/-- Set how many outcomes a part owes. -/
def State.owe (s : State) (pid n : Nat) : State :=
  { s with parts := s.parts.map fun x => if x.pid = pid then { x with left := n } else x }

/-- Remember the tick at which an errand's last effect committed (Table 3.5). -/
def State.noteTick (s : State) (pid : Nat) (tick : Int) : State :=
  match s.parts.find? (·.pid == pid) with
  | some { errand := some id, .. } =>
    { s with errands := s.errands.map fun e => if e.id = id then { e with lastTick := some tick.toNat } else e }
  | _ => s

/-- Staging outcome of an instruction: LAST_CODE, and p0 set if its checks passed (R96, R451). -/
def State.outcome (s : State) (t : Nat) (code : Nat) (passed : Bool) : State :=
  (s.setTh t Lamp.LAST_CODE code).pset t 0 passed

/-! ### Flow -/

/-- A part ends with one code, whatever number of effects it still owed. -/
def State.endPart (s : State) (pid code : Nat) : State := (s.owe pid 1).closePart pid code

/-- A salvo still open on the thread is discarded; its members return `code` (R82, R106). -/
def State.discardSalvo (s : State) (t code : Nat) : State :=
  match s.salvos.find? (·.th == t) with
  | none => s
  | some o =>
    let s1 := { s with salvos := s.salvos.filter (·.th != t) }.setTh t Lamp.SALVO 0
    (o.pid :: o.members.map (·.1)).foldl (fun a p => a.endPart p code) s1

/-- Halt a thread (R450, R456). -/
def State.halt (s : State) (t : Nat) : State := (s.discardSalvo t Code.format.num).setTh t Lamp.STATE thHalted

/-- The errand's execution has ended: the thread waits on its queue again, or halts if `thrstop` ordered it (R456). A salvo that
a branch past its ENDSALVO left open is discarded with FORMAT (R106; DESIGN CHOICE, notes/assumptions/82.md). PC then reads 0:
Table 3.1 gives no value for a thread that waits on its queue (DESIGN CHOICE, notes/assumptions/83.md). -/
def State.endErrand (s : State) (t : Nat) : State :=
  match s.errandOf t with
  | none => s
  | some e =>
    let s1 := (s.discardSalvo t Code.format.num).setErrand { e with phase := 2 }
    let s2 := s1.wrs (U.thread t) [(Lamp.errand, 0), (Lamp.IN_ERRAND, 0), (Lamp.TARGET, 0), (Lamp.tMode, 0),
      (Lamp.callIdx, 0), (Lamp.PC, 0)]
    let s3 := { s2 with calls := Tbl.set ⟨t, 0⟩ [] [] s2.calls }
    if s3.rb (U.thread t) Lamp.stopAtEnd then (s3.setTh t Lamp.stopAtEnd 0).setTh t Lamp.STATE thHalted
    else s3.setTh t Lamp.STATE thQueueWait

/-- Return from the innermost `call` (R450): to the saved index, or into the errand. A saved index of 65,536 lies past the
Ledger (R84). -/
def State.popCall (s : State) (t : Nat) : State :=
  match Tbl.get ⟨t, 0⟩ [] s.calls with
  | [] => s
  | (pc, inErr) :: rest =>
    let s1 := { s with calls := Tbl.set ⟨t, 0⟩ [] rest s.calls }
    let s2 := s1.wrs (U.thread t) [(Lamp.PC, pc), (Lamp.IN_ERRAND, if inErr then 1 else 0),
      (Lamp.past, if !inErr && decide (65536 ≤ pc) then 1 else 0)]
    if inErr then s2.setTh t Lamp.callIdx 0 else s2

/-- The `call` that thread `t` executes for its errand reports a code, whatever the instructions it executed have returned (R84). -/
def State.failCall (s : State) (t code : Nat) : State :=
  { s with
    nextId := s.nextId + 1
    parts := ⟨s.nextId, (s.errandOf t).map (·.id), t, s.thn t Lamp.callIdx - 1, 1, 0, 0, code, []⟩ :: s.parts }

/-- Execution that passes Ledger index 65,535 (R84), or the last instruction word of an errand. -/
def State.settle (s : State) (t : Nat) : State :=
  if s.th t Lamp.STATE ≠ thRunning then s
  else if s.rb (U.thread t) Lamp.past && !s.rb (U.thread t) Lamp.IN_ERRAND then
    if s.inErrand t then
      -- within a call made from an errand: the call ends as `ret` would and reports FORMAT
      let calls := Tbl.get ⟨t, 0⟩ [] s.calls
      let s1 := { s.discardSalvo t Code.format.num with calls := Tbl.set ⟨t, 0⟩ [] (calls.drop (calls.length - 1)) s.calls }
      (s1.failCall t Code.format.num).popCall t
    else (s.setTh t Lamp.LAST_CODE Code.format.num).halt t |>.setTh t Lamp.past 0
  else if s.rb (U.thread t) Lamp.IN_ERRAND then
    match s.errandOf t with
    | some e => if s.thn t Lamp.PC ≥ e.head + e.words.length then s.endErrand t else s
    | none => s
  else s

/-- A thread enters FAULT (R82): an open salvo is discarded with FAULT, an errand it executes ends, and what the errand has not
executed returns FAULT. HARDWARE_FAULT names the thread; DETAIL [31:16] holds the Ledger index or the errand's SEQ. -/
def State.faultThread (s : State) (t : Nat) : State :=
  if s.th t Lamp.STATE = thFault then s
  else
    let s1 := s.discardSalvo t Code.fault.num
    let s2 := match s1.errandOf t with
      | none => s1
      | some e =>
        let used := if s1.rb (U.thread t) Lamp.callIdx then s1.thn t Lamp.callIdx else s1.thn t Lamp.PC - e.head
        let inCall := (s1.openPart t 1 1 0 [])
        let s3 := if s1.rb (U.thread t) Lamp.callIdx then inCall.2.closePart inCall.1 Code.fault.num else s1
        let rest : State := { s3 with
          nextId := s3.nextId + 1
          parts := if used < e.words.length then
              s3.parts ++ [(⟨s3.nextId, some e.id, t, used, e.words.length - used, 0, 0, Code.fault.num, []⟩ : Part)]
            else s3.parts }
        (rest.setTh t Lamp.stopAtEnd 0).endErrand t
    let where_ := match s1.errandOf t with
      | some e => e.seq
      | none => s1.thn t Lamp.PC
    (s2.wrs (U.thread t) [(Lamp.STATE, thFault), (Lamp.LAST_CODE, Code.fault.num)]).post (U.thread t) evHardwareFault
      (7 * 2 ^ 8 + where_ % 65536 * 2 ^ 16)

end Sys2Proof.Machine
end

