-- ==== Sys2Proof/Machine/Stage.lean ====
section
/-!
DEFINITION. Staging, salvos, armed STROBE banks and resolution at the curfew (R98 to R112, R594).
-/
namespace Sys2Proof.Machine

/-- Intended tick of a member on its own plan, for an effect staged at `at` (Table 3.6, R102). -/
def State.intendedTick (s : State) (t plan : Nat) (at_ : Int) : Int :=
  match s.thn t Lamp.tMode with
  | 1 =>
    let rp := s.thn t Lamp.tPlan
    if rp = plan then s.th t Lamp.TARGET
    else s.firstTickFrom plan (s.tickTime rp (s.th t Lamp.TARGET) at_)
  | _ => s.firstTickAfter plan at_

/-- The elements of two lists meet. -/
def meets (a b : List Key) : Bool := a.any fun k => b.contains k

/-- The unit that holds an element: the element's own unit ID, or for an element without one the unit that works on it (R565). -/
def elemUnit (k : Key) : Nat :=
  if k.unit < 0x10000 then k.unit
  else if 0x200000 ≤ k.unit ∧ k.unit < 0x310000 then U.mix
  else if 0x310000 ≤ k.unit ∧ k.unit < 0x330000 then U.detector
  else U.audio

/-- A unit named by a staged selection or configuration (R43, R457). -/
def State.stagedUses (s : State) (u : Nat) : Bool := s.staged.any fun e => e.uses.contains u
/-- Some frozen or open generation, or armed bank, holds an effect for this element. -/
def State.stagedOn (s : State) (k : Key) : Bool := s.staged.any fun e => !e.armed && e.elems.contains k

/-- Opcodes whose staging can give the detector unit work: it is woken (R43, R591). -/
def wakesDetector : Effect → Bool
  | .cfg op _ _ _ => [0x30, 0x31, 0x62, 0x63, 0x65, 0x6E, 0x70, 0xA0, 0xA1].contains op
  | _ => false

/-- Note a staged effect with its instruction words for the manifest of its plan (R422): thread, effect, mode, words. -/
def State.logStaged (s : State) (plan th id mode pid : Nat) : State :=
  if s.rn U.twin Twin.ROLE = 0 then s
  else match s.parts.find? (·.pid == pid) with
    | some p =>
      if p.words.isEmpty then s
      else s.setBuf (U.plan plan) 60 (s.buf (U.plan plan) 60 ++ [(th : Int), (id : Int), (mode : Int), (p.words.length : Int)] ++ p.words.map fun w => (w.toNat : Int))
    | none => s

/-- Stage one member at instant `at`: in the armed bank of its reference plan under STROBE (R103), otherwise for
its tick (R99, R101). The units it uses are woken (R43). -/
def State.stageOne (s : State) (t pid : Nat) (salvo : Option Nat) (strict : Bool) (at_ : Int) (m : Member) : State :=
  let armed := s.thn t Lamp.tMode == 2
  let intended := s.intendedTick t m.plan at_
  let tick := max intended (s.firstMeeting m.plan at_)
  let e : Staged := ⟨s.nextId, pid, t, salvo, strict, m.plan, s.thn t Lamp.tPlan, intended.toNat, tick.toNat, tick ≠ intended, armed, false,
    m.kind, m.elems, m.uses, m.eff⟩
  let gone := if armed then s.staged.filter fun x => x.armed && x.th == t && x.kind == m.kind && meets x.elems m.elems else []
  let s1 := { s with nextId := s.nextId + 1, staged := s.staged.filter (fun x => !gone.contains x) ++ [e] }
  let s2 := gone.foldl (fun a x => a.closePart x.pid Code.conflict.num) s1
  let s3 := if armed then s2 else s2.logStaged m.plan t s.nextId (s.thn t Lamp.tMode) pid
  m.uses.foldl State.wake (if wakesDetector m.eff then s3.wake U.detector else s3)

/-- Stage every member of one instruction. -/
def State.stageAll (s : State) (t pid : Nat) (salvo : Option Nat) (strict : Bool) (at_ : Int) (ms : List Member) : State :=
  ms.foldl (fun a m => a.stageOne t pid salvo strict at_ m) s

/-- Whether a member staged now would miss the curfew of its intended tick. -/
def State.wouldBeLate (s : State) (t : Nat) (at_ : Int) (m : Member) : Bool :=
  s.thn t Lamp.tMode != 2 && decide (s.intendedTick t m.plan at_ < s.firstMeeting m.plan at_)

/-- The reference plan of a salvo on a thread (R107). -/
def State.salvoPlan (s : State) (t : Nat) : Nat :=
  match s.errandOf t with
  | some e => if e.mode = 0 then s.thn t Lamp.PLAN else e.plan
  | none => s.thn t Lamp.PLAN

/-- Place of a part within its errand, for the DROP words of a reply (Table 3.5). -/
def State.partIdx (s : State) (pid : Nat) : Nat :=
  match s.parts.find? (·.pid == pid) with
  | some p => p.idx
  | none => 0

/-- A strict salvo is dropped (R108): every part named returns the cause; the errand's reply records the drop. CONFLICTS of the
Cells named does not count the takes of a salvo dropped at resolution: R115 counts takes that lost, and says nothing of a
salvo dropped whole (DESIGN CHOICE, notes/assumptions/85.md). -/
def State.dropSalvo (s : State) (pids : List Nat) (openPid causePid cause : Nat) : State :=
  let word : Word := BitVec.ofNat 64 (s.partIdx openPid % 65536 + s.partIdx causePid % 65536 * 65536 + cause % 256 * 2 ^ 32)
  let s1 := match s.parts.find? (·.pid == openPid) with
    | some { errand := some id, .. } =>
      { s with errands := s.errands.map fun e => if e.id = id then { e with drops := e.drops ++ [word] } else e }
    | _ => s
  pids.foldl (fun a p => a.endPart p cause) s1

/-- A bracket of a salvo, staged as an effect that takes nothing and reports with the salvo (R594). -/
def bracket (plan : Nat) : Member := ⟨plan, 0, [], [], .takes []⟩

/-- ENDSALVO completes on thread `t` as part `pid` (R99, R107, R108, R594). Answers the staging outcome too. A strict salvo closed
after the curfew names ENDSALVO as the causing member, since R108 names none (DESIGN CHOICE, notes/assumptions/86.md). With
the reference plan OFF there is no tick to commit at: the brackets, and members that passed while it was on, return NOUNIT
(R44; DESIGN CHOICE, notes/assumptions/87.md). -/
def State.closeSalvo (s : State) (t pid : Nat) : Nat × State :=
  match s.salvos.find? (·.th == t) with
  | none => (Code.format.num, s.closePart pid Code.format.num)
  | some o =>
    let s1 := { s with salvos := s.salvos.filter (·.th != t) }.setTh t Lamp.SALVO 0
    let pids := o.pid :: o.members.map (·.1) ++ [pid]
    let at_ : Int := s1.now
    let plan := s1.salvoPlan t
    let late := s1.wouldBeLate t at_ (bracket plan)
    match o.strict, o.failed, s1.planOn plan, late with
    | true, some (cp, c), _, _ => (c, s1.dropSalvo pids o.pid cp c)
    | true, none, false, _ => (Code.nounit.num, s1.dropSalvo pids o.pid pid Code.nounit.num)
    | false, _, false, _ => (Code.nounit.num, pids.foldl (fun a p => a.endPart p Code.nounit.num) s1)
    | true, none, true, true => (Code.late.num, s1.dropSalvo pids o.pid pid Code.late.num)
    | _, _, _, _ =>
      let sv := some o.pid
      let s2 := s1.stageOne t o.pid sv o.strict at_ (bracket plan)
      let s3 := o.members.foldl (fun a m => if m.2.isEmpty then a else a.stageAll t m.1 sv o.strict at_ m.2) s2
      let s4 := s3.stageOne t pid sv o.strict at_ (bracket plan)
      (if late then Code.late.num else Code.done.num, s4)

/-! ### Resolution (R110 to R112, R142) -/

/-- Threads in rank order: higher priority first, then the lower number (R110, R111). -/
def State.rankOrder (s : State) : List Nat :=
  ([7, 6, 5, 4, 3, 2, 1, 0] : List Int).flatMap fun pr => (List.range 64).filter fun t => s.th t Lamp.PRIORITY == pr

/-- A Cell configuration and a selection of one thread on one Cell both commit (R142). -/
def together (a b : Staged) : Bool := (a.kind == 0 && b.kind == 1) || (a.kind == 1 && b.kind == 0)
/-- Within one thread, the effects that a later one on a common element supersedes (R110, R142). -/
def superseded : List Staged → List Staged
  | [] => []
  | e :: t =>
    let later := t.any fun x => !together x e && meets x.elems e.elems
    if later then e :: superseded t else superseded t

/-- A destination-bundle configuration that dissolves its bundle: COUNT 0 (R127). -/
def dissolves (e : Staged) : Bool := match e.eff with
  | .cfg 0x53 _ 1 (0 :: _) => true
  | _ => false
/-- A `btake` of a thread that dissolves the same destination bundle (R142). -/
def displaced (l : List Staged) : List Staged :=
  l.filter fun e => e.kind == 0 && decide (1 < e.elems.length) && l.any fun x => dissolves x && meets x.elems e.elems

/-- Outcome of a resolution so far: elements held by higher ranks, winners, and losers with their cause. -/
structure Resolved where
  held : List Key
  won : List Staged
  lost : List Staged
  drops : List (Nat × Nat)
deriving DecidableEq, Repr

/-- Resolve one thread's effects against what higher-ranked threads hold (R110). A strict salvo with an element already held is
dropped whole, and its effects displace nothing; supersession is judged among what is left, and every other effect alone. -/
def resolveThread (r : Resolved) (own : List Staged) : Resolved :=
  let hit := fun (e : Staged) => meets e.elems r.held
  let dropped := fun (e : Staged) => e.strict && own.any fun x => x.strict && x.salvo == e.salvo && hit x
  let live := own.filter fun e => !dropped e
  let disp := displaced live
  let out := superseded (live.filter fun e => !disp.contains e)
  let rest := live.filter fun e => !out.contains e && !disp.contains e
  let drops := (own.filter fun e => e.strict && hit e).filterMap fun e => e.salvo.map fun v => (v, e.pid)
  ⟨r.held ++ ((rest.filter fun e => !hit e).map (·.elems)).flatten, r.won ++ rest.filter fun e => !hit e,
    r.lost ++ own.filter dropped ++ out ++ disp ++ rest.filter hit, r.drops ++ drops⟩

/-- The salvo's first causing member in `drops`. -/
def causeOf (drops : List (Nat × Nat)) (v : Nat) : Option Nat := (drops.find? (·.1 == v)).map (·.2)

/-- A losing effect returns CONFLICT, counted by each Cell it named (R115). -/
def State.loseEffect (s : State) (e : Staged) : State :=
  let s1 := match e.eff with
    | .takes l => l.foldl (fun (a : State) (x : Sel) => a.count (U.cell x.cell) Ctr.Cell.CONFLICTS) s
    | .cfg _ _ _ _ => s
  s1.closePart e.pid Code.conflict.num

/-- Resolve the effects of plan `p` for ticks up to `n` (R104, R110). Losers of an ordinary effect return CONFLICT;
a strict salvo that lost is dropped with CONFLICT for every member. Winners are marked and stay for the commit. -/
def State.resolve (s : State) (p : Nat) (n : Int) : State :=
  let cand := s.staged.filter fun e => !e.armed && e.plan == p && decide ((e.tick : Int) ≤ n)
  let r := s.rankOrder.foldl (fun a t => resolveThread a (cand.filter (·.th == t))) ⟨[], [], [], []⟩
  let inDrop := fun (e : Staged) => e.strict && match e.salvo with
    | some v => (causeOf r.drops v).isSome
    | none => false
  let s1 := { s with staged := s.staged.filterMap fun e =>
    if r.won.contains e then some { e with won := true } else if r.lost.contains e then none else some e }
  let plain := r.lost.filter fun e => !inDrop e
  let s2 := plain.foldl State.loseEffect s1
  let salvos := (r.drops.map (·.1)).eraseDups
  salvos.foldl (fun a v =>
    let pids := ((r.lost.filter fun e => e.salvo == some v && inDrop e).map (·.pid)).eraseDups
    a.dropSalvo pids v ((causeOf r.drops v).getD v) Code.conflict.num) s2

/-- Every armed effect counts as staged at the edge instant, so after all that was staged before it (R103). -/
def State.releaseArmed (s : State) : State :=
  let at_ : Int := s.now
  let s1 := (s.staged.filter (·.armed)).foldl (fun a e => a.logStaged e.plan e.th e.id 0 e.pid) s
  { s1 with staged := (s.staged.filter fun e => !e.armed) ++ (s.staged.filter (·.armed)).map fun e =>
      let onRef := s.firstTickAfter e.ref at_
      let intended := if e.ref = e.plan then onRef else s.firstTickFrom e.plan (s.tickTime e.ref onRef at_)
      let tick := max intended (s.firstMeeting e.plan at_)
      { e with armed := false, intended := intended.toNat, tick := tick.toNat, late := tick ≠ intended } }

end Sys2Proof.Machine
end

