-- ==== Sys2Proof/Machine/Operands.lean ====
section
/-!
DEFINITION. Operand forms of the instruction word (Table 16.1) and the packing of parameters (R446).
-/
namespace Sys2Proof.Machine

/-- Bits [hi:lo] of the operand field. -/
def opBits (i : Issue) (hi lo : Nat) : Nat := bitsAt i.ops.toNat hi lo
end Sys2Proof.Machine

namespace Sys2Proof
open Sys2Proof.Machine
/-! Format X. -/
def Issue.xD (i : Issue) : Nat := opBits i 51 48
def Issue.xA (i : Issue) : Nat := opBits i 47 44
def Issue.xB (i : Issue) : Nat := opBits i 43 40
def Issue.xCond (i : Issue) : Nat := opBits i 39 36
def Issue.xRes (i : Issue) : Nat := opBits i 35 32
def Issue.imm (i : Issue) : Nat := opBits i 31 0
/-- IMM sign-extended to 64 bits (Table 16.2). -/
def Issue.immS (i : Issue) : Word := (BitVec.ofNat 32 i.imm).signExtend 64
/-! Format R. -/
def Issue.dest (i : Issue) : Nat := opBits i 51 36
def Issue.source (i : Issue) : Nat := opBits i 35 24
def Issue.stream (i : Issue) : Nat := opBits i 23 21
def Issue.snamed (i : Issue) : Bool := opBits i 20 20 == 1
def Issue.rRes (i : Issue) : Nat := opBits i 19 12
def Issue.rCount (i : Issue) : Nat := opBits i 11 0
/-! Format K. -/
def Issue.index (i : Issue) : Nat := opBits i 51 36
def Issue.npw (i : Issue) : Nat := opBits i 35 24
def Issue.sub (i : Issue) : Nat := opBits i 23 0
/-! Format Q. -/
def Issue.qD (i : Issue) : Nat := opBits i 51 48
def Issue.qN (i : Issue) : Nat := opBits i 47 40
def Issue.addr (i : Issue) : Nat := opBits i 39 0
/-! FLAGS (Table 16.2). -/
def Issue.force (i : Issue) : Bool := bitAt i.flags.toNat 3
def Issue.regImm (i : Issue) : Bool := bitAt i.flags.toNat 2
def Issue.group (i : Issue) : Bool := bitAt i.flags.toNat 1
def Issue.opt (i : Issue) : Bool := bitAt i.flags.toNat 0
/-- A flag that the opcode does not define is set (R445): `allowed` lists FORCE, REG or IMM, GROUP, OPT. -/
def Issue.badFlags (i : Issue) (force reg group opt : Bool) : Bool :=
  (i.force && !force) || (i.regImm && !reg) || (i.group && !group) || (i.opt && !opt)

end Sys2Proof

namespace Sys2Proof.Machine

/-- Units of class `cls` that a K-format instruction addresses: INDEX as a unit number below `n`, or, under GROUP, the
unit, or every member of the group unit, that INDEX names by unit ID. None is RANGE (R37, R39, R445). -/
def targets (i : Issue) (cls base n : Nat) : Option (List Nat) :=
  if i.group then
    if U.classOf i.index = cls then some [i.index - base]
    else
      let ms := U.members i.index
      if !ms.isEmpty && ms.all (fun u => U.classOf u == cls) then some (ms.map (· - base)) else none
  else if i.index < n then some [i.index] else none

/-- Elements without a unit ID: INDEX below `n`, and no GROUP form. -/
def elements (i : Issue) (n : Nat) : Option (List Nat) :=
  if !i.group && decide (i.index < n) then some [i.index] else none

/-- RANGE where nothing is addressed, then the checks of every unit addressed. -/
def eachTarget (t : Option (List Nat)) (f : Nat → Checks) : Checks :=
  (.range, t.isNone) :: ((t.getD []).map f).flatten

/-! ### Parameter words (R446) -/

/-- Where the next field begins: word and bit, after `w` bits have been placed at the place answered first. -/
def place (word bit w : Nat) : (Nat × Nat) × (Nat × Nat) :=
  if 64 < w then
    let start := if bit = 0 then word else word + 1
    ((start, 0), (start + (w + 63) / 64, 0))
  else if bit + w ≤ 64 then
    let nb := bit + w
    ((word, bit), if nb = 64 then (word + 1, 0) else (word, nb))
  else ((word + 1, 0), if w = 64 then (word + 2, 0) else (word + 1, w))

/-- Places of the fields of a list, from a starting place. -/
def places : List Field → Nat → Nat → List (Nat × Nat)
  | [], _, _ => []
  | f :: t, word, bit =>
    let p := place word bit f.width
    p.1 :: places t p.2.1 p.2.2

/-- Words that the fields fill. -/
def wordsFor : List Field → Nat → Nat → Nat
  | [], word, bit => if bit = 0 then word else word + 1
  | f :: t, word, bit => let p := (place word bit f.width).2; wordsFor t p.1 p.2

/-- All words as one number, least significant word first. -/
def wordsNat : List Word → Nat
  | [] => 0
  | w :: t => w.toNat + 2 ^ 64 * wordsNat t

/-- The number cut into `n` words. -/
def natWords : Nat → Nat → List Word
  | 0, _ => []
  | n + 1, v => BitVec.ofNat 64 v :: natWords n (v / 2 ^ 64)

/-- Values of the fields packed in `ws` (R446, R567). -/
def unpack (fs : List Field) (ws : List Word) : List Int :=
  let n := wordsNat ws
  (fs.zip (places fs 0 0)).map fun e => e.1.ofBits (n / 2 ^ (64 * e.2.1 + e.2.2) % 2 ^ e.1.width)

/-- The packed words of field values, reserved bits 0 (R446, R567). -/
def pack (fs : List Field) (vs : List Int) : List Word :=
  let n := ((fs.zip vs).zip (places fs 0 0)).foldl
    (fun a e => a + e.1.1.bits e.1.2 * 2 ^ (64 * e.2.1 + e.2.2)) 0
  natWords (wordsFor fs 0 0) n

/-- Total width of a parameter list. -/
def totalBits (fs : List Field) : Nat := (fs.map (·.width)).foldl (· + ·) 0

/-- The parameters of a K-format instruction: from SUB where they total 24 bits or fewer and the opcode has no
sub-operands, from parameter words otherwise. None (FORMAT, R448) for a wrong NPW or a reserved bit set. -/
def getParams (ps : List Param) (hasSub : Bool) (i : Issue) : Option (List Int) :=
  let fs := ps.map (·.fld)
  if !hasSub && totalBits fs ≤ 24 then
    let ws : List Word := [BitVec.ofNat 64 i.sub]
    if i.npw = 0 ∧ i.params = [] ∧ pack fs (unpack fs ws) = ws then some (unpack fs ws) else none
  else if i.npw = i.params.length ∧ i.npw = wordsFor fs 0 0 ∧ pack fs (unpack fs i.params) = i.params
      ∧ (hasSub ∨ i.sub = 0) then
    some (unpack fs i.params)
  else none

/-- Every value lies in its parameter's range. -/
def paramsOk (ps : List Param) (vs : List Int) : Bool := (ps.zip vs).all fun e => e.1.ok e.2

/-- The value of a named parameter among the values of its list. -/
def pv (ps : List Param) (vs : List Int) (f : Field) : Int :=
  match (ps.zip vs).find? (fun e => e.1.fld.pos == f.pos) with
  | some e => e.2
  | none => f.reset
def pn (ps : List Param) (vs : List Int) (f : Field) : Nat := (pv ps vs f).toNat

end Sys2Proof.Machine
end

