-- ==== Sys2Proof/Machine/Issue.lean ====
section
/-!
DEFINITION. How a thread issues one instruction: the checks in the order of Table 0.5, the rules of a salvo, of a
STANDBY device and of queue 8, staging, and what the instruction owes (R20, R21, R91, R96, R99, R105 to R107, R420).
-/
namespace Sys2Proof.Machine

/-- How an instruction may stand inside a salvo (R107). -/
inductive Use where
  /-- A TICKED instruction of this opcode: a member. -/
  | ticked (op : Nat)
  /-- A register, predicate or forward-branch instruction: executes normally. -/
  | register
  /-- SALVO or ENDSALVO: handled by its own rule. -/
  | bracket
  /-- HALT or a wait: in a Ledger program it discards the open salvo and acts (R106). -/
  | ends
  /-- Any other IMMEDIATE or BACKGROUND instruction: FORMAT. -/
  | other
deriving DecidableEq, Repr

/-- What an instruction that passed its checks does. -/
inductive Verdict where
  /-- Acts at once; the state is after the act. -/
  | act (s : State)
  /-- Acts at once with a code of its own (a `ret` with an empty stack, R450). -/
  | actCode (s : State) (c : Code)
  /-- Stages its members. -/
  | stage (ms : List Member)
  /-- Starts a BACKGROUND operation that completes from instant `due`. -/
  | start (s : State) (op index sub : Nat) (vals : List Int) (due : Nat)
  /-- The thread holds the instruction and waits; it is issued again later (R452). -/
  | hold (g : State → State)
  /-- Closes the open salvo. -/
  | close
  /-- Writes a predicate after p0 has been set (R451). -/
  | pred (p : Nat) (v : Bool)
  /-- Opens a salvo. -/
  | open (strict : Bool)

/-- The instruction's judgement: its checks, what it does, the return data of a query (R459), whether a STANDBY
device permits it (2: only in queue 8, R420), and how long the data is. -/
structure Judged where
  checks : Checks
  verdict : Verdict
  data : List Word := []
  permit : Nat := 0
  /-- Barn claims the instruction holds once it has passed (R268, R298). -/
  claims : List Claim := []
  /-- What a BANDWIDTH refusal counts (R562). -/
  refuse : State → State := id
  /-- The instruction acts in recovery mode (R517). -/
  recovery : Bool := false
  /-- The checks of each member of a group, with the member's unit ID, lowest first (R37). -/
  members : List (Nat × Checks) := []

/-- The checks of the members of a group: `f` by member number, `base` the unit ID of member 0 (R37). -/
def memberChecks (base : Nat) (t : Option (List Nat)) (f : Nat → Checks) : List (Nat × Checks) :=
  (t.getD []).map fun k => (base + k, f k)

/-- The member that decides the code `c` of a group instruction: the lowest one that fails that check (R37). -/
def Judged.failing (j : Judged) (c : Code) : Option Nat :=
  (j.members.find? fun m => m.2.any fun e => e.1 == c && e.2).map (·.1)

/-- Append return data to the reply of the executing errand (R459). -/
def State.appendData (s : State) (t pc : Nat) (d : List Word) : State :=
  if d.isEmpty || !s.rb (U.thread t) Lamp.IN_ERRAND then s else
  match s.errandOf t with
  | none => s
  | some e => s.setErrand { e with data := e.data ++ [(pc, d)] }

/-- Role of the twin: 0 SOLO, 1 ACTIVE, 2 STANDBY (Table 15.10). -/
def State.isStandby (s : State) : Bool := s.rn U.twin Twin.ROLE == 2

/-- R91 and R420: the code a host errand's instruction returns on a STANDBY device or in queue 8, if refused. -/
def State.roleBar (s : State) (t permit : Nat) : Option Code :=
  match s.errandOf t with
  | none => none
  | some e =>
    if e.queue = 8 then
      if permit = 0 then some (if s.isStandby then .standby else .locked) else none
    else if e.source = 0 && s.isStandby && permit ≠ 1 then some .standby
    else none

/-- Whether a TICKED instruction must be held: a `target` beyond the tick of the open generation (R452). -/
def State.mustHold (s : State) (t : Nat) : Bool :=
  !s.inErrand t && s.thn t Lamp.tMode == 1 &&
    decide (s.firstMeeting (s.thn t Lamp.PLAN) s.now < s.th t Lamp.TARGET)

/-- The member that failed is noted beside the thread. R37 has the reply name it; Table 3.5 gives a reply no field for it, so
that no reply word shows it (DESIGN CHOICE, notes/assumptions/91.md). -/
def State.nameMember (s : State) (t : Nat) (m : Option Nat) : State :=
  match m with
  | none => s
  | some u => s.setTh t Lamp.failMember (u + 1)

/-- Record the failing code of an instruction, inside or outside a salvo. -/
def State.failWith (s : State) (t pid : Nat) (c : Code) : State :=
  let s1 := s.outcome t c.num false
  match s1.salvos.find? (·.th == t) with
  | none => s1.closePart pid c.num
  | some o =>
    if o.strict then
      -- the member waits for the salvo's own outcome (R108)
      let o' := { o with members := o.members ++ [(pid, [])], failed := o.failed.or (some (pid, c.num)) }
      { s1 with salvos := s1.salvos.map fun x => if x.th = t then o' else x }
    else s1.closePart pid c.num

/-- The rules of R107 on an instruction inside a salvo. -/
def salvoChecks (s : State) (t : Nat) (use : Use) (v : Verdict) : Checks :=
  if s.salvos.any (·.th == t) then
    match use, v with
    | .ticked _, .stage ms => [(.range, ms.any fun m => m.plan != s.salvoPlan t)]
    | .ticked _, _ => [(.format, true)]
    | .other, _ => [(.format, true)]
    | .ends, _ => [(.format, s.inErrand t)]
    | _, _ => []
  else []

/-- The Timing Plan that a TICKED instruction's timing class requires has entered FAULT (R82). -/
def classFault (s : State) (v : Verdict) : Bool :=
  match v with
  | .stage ms => ms.any fun m => s.unitState (U.plan m.plan) == stFault
  | _ => false

/-- The checks the pipeline adds to an instruction's own. -/
def commonChecks (s : State) (t : Nat) (use : Use) (j : Judged) : Checks :=
  (match s.roleBar t j.permit with
    | some c => [(c, true)]
    | none => []) ++
  [(.nounit, s.rn U.boot Boot.STAGE == 4 && !j.recovery)] ++
  salvoChecks s t use j.verdict ++
  (match j.verdict with
    | .stage ms => [(.nounit, classFault s j.verdict || ms.any fun m => !s.planOn m.plan || m.uses.any s.unitBad ||
        m.elems.any fun k => s.unitBad (elemUnit k))]
    | _ => [])

/-- What a passed instruction does (R21, R99, R105, R106). `pid` is its part. -/
def State.enact (s : State) (t pid : Nat) (v : Verdict) : State :=
  match v with
  | .act s' =>
    (s'.outcome t 0 true).closePart pid 0
  | .actCode s' c =>
    (s'.outcome t c.num false).closePart pid c.num
  | .stage ms =>
    match s.salvos.find? (·.th == t) with
    | some o =>
      let o' := { o with members := o.members ++ [(pid, ms)] }
      (State.owe { s with salvos := s.salvos.map fun x => if x.th = t then o' else x } pid ms.length).outcome t 0 true
    | none =>
      let late := ms.any (s.wouldBeLate t s.now)
      ((s.owe pid ms.length).stageAll t pid none false s.now ms).outcome t (if late then Code.late.num else 0) true
  | .start s' op index sub vals due =>
    State.outcome { s' with bg := s'.bg ++ [⟨pid, t, op, index, sub, vals, due⟩] } t 0 true
  | .hold g => g s
  | .close =>
    let (c, s1) := s.closeSalvo t pid
    s1.outcome t c (c == 0 || c == 2)
  | .pred p v => ((s.outcome t 0 true).pset t p v).closePart pid 0
  | .open strict =>
    (State.setTh { s with salvos := s.salvos ++ [⟨t, pid, strict, [], none⟩] } t Lamp.SALVO (if strict then 2 else 1)).outcome t 0 true

/-- The program counter moves past the instruction and its parameter words (R449); past the end of the Ledger it is
marked (R84). -/
def State.advancePc (s : State) (t words : Nat) : State :=
  let pc := s.thn t Lamp.PC + words
  if s.rb (U.thread t) Lamp.IN_ERRAND then s.setTh t Lamp.PC pc
  else (s.setTh t Lamp.PC pc).setTh t Lamp.past (if 65536 ≤ pc then 1 else 0)

/-- Record the claims of an instruction; claims of parts with nothing staged any more are dropped. -/
def State.hold (s : State) (pid : Nat) (cs : List Claim) : State :=
  if cs.isEmpty then s
  else { s with holds := (s.holds.filter fun h => s.staged.any (·.pid == h.pid) || s.salvos.any fun o => o.members.any (·.1 == h.pid)) ++ [⟨pid, cs⟩] }

/-- The words of a TICKED instruction, which a manifest covers (R422). -/
def ticketWords (i : Issue) : Use → List Word
  | .ticked op => BitVec.ofNat 64 (op * 2 ^ 56 + i.flags.toNat * 2 ^ 52 + i.ops.toNat) :: i.params
  | _ => []

/-- Thread `i.th` issues an instruction judged by `f` (on the state whose program counter has advanced). A thread
that is not RUNNING issues nothing. -/
def State.issueOn (s : State) (i : Issue) (use : Use) (f : State → Judged) : State :=
  let t := i.th
  if s.th t Lamp.STATE ≠ thRunning then s
  else
    let pc := s.thn t Lamp.PC
    let (pid, s1) := (s.advancePc t (1 + i.params.length)).openPart t (1 + i.params.length) 1 pc (ticketWords i use)
    let j := f s1
    match firstFail (j.checks ++ commonChecks s1 t use j) with
    | some c =>
      let s2 := (((if c = .bandwidth then j.refuse s1 else s1).nameMember t (j.failing c)).failWith t pid c).appendData t pc (j.data.map fun _ => 0)
      if classFault s1 j.verdict then s2.faultThread t else s2.settle t
    | none =>
      match j.verdict, s.mustHold t with
      | .hold g, _ => g s
      | .stage _, true =>
        (s.setTh t Lamp.STATE thTickWait).wrs (U.thread t) [(Lamp.waitKind, 2), (Lamp.waitVal, s.th t Lamp.TARGET - 1)]
      | v, _ => (((s1.hold pid j.claims).enact t pid v).appendData t pc j.data).settle t

/-- The same on the state that the threads of the device run on (R437). -/
def State.issue (s : State) (i : Issue) (use : Use) (f : State → Judged) : State :=
  (s.after i.dt).onThreads ((s.errandOf i.th).any fun e => e.source != 1) fun s => s.issueOn i use f

end Sys2Proof.Machine
end

