-- ==== Sys2Proof/Machine/Control.lean ====
section
/-!
DEFINITION. Control instructions of Table 16.4 (R106, R409, R450, R452) and the words of a program (R444).
-/
namespace Sys2Proof.Machine

/-- The outcome type of a command. -/
abbrev Res := Host.Outcome State Fault Refusal

/-- Unused operand fields of format X hold a non-zero bit (R17). -/
def resX (i : Issue) (d a b cond imm : Bool) : Bool :=
  (i.xD != 0 && !d) || (i.xA != 0 && !a) || (i.xB != 0 && !b) || (i.xCond != 0 && !cond) || i.xRes != 0 ||
    (i.imm != 0 && !imm) || !i.params.isEmpty

/-- FORMAT check of a format X instruction: flags and unused fields. -/
def fmtX (i : Issue) (imm opt d a b cond useImm : Bool) : Code × Bool :=
  (.format, i.badFlags false imm false opt || resX i d a b cond useImm)

/-- Opcode of an instruction word. -/
def opcodeOf (w : Word) : Nat := bitsAt w.toNat 63 56
/-- Words of the instruction that a word begins: a K-format word brings NPW parameter words (R444, Table 16.1). The spec gives
an opcode that Table 16.5 does not list no format; one of 0x30 or above is walked by the bits at the place of NPW (DESIGN
CHOICE, notes/assumptions/84.md). -/
def instrLen (w : Word) : Nat :=
  let o := opcodeOf w
  if o < 0x30 || (0xE0 ≤ o && o ≤ 0xE2) then 1 else 1 + bitsAt w.toNat 35 24
/-- Offset `k` of a list of instruction words begins an instruction; `skip` words still belong to the one before. -/
def startsAt : List Word → Nat → Nat → Bool
  | [], _, k => k == 0
  | w :: t, skip, k =>
    match skip, k with
    | 0, 0 => true
    | 0, k + 1 => startsAt t (instrLen w - 1) k
    | _ + 1, 0 => false
    | skip + 1, k + 1 => startsAt t skip k

/-- Where a branch or `call` from the present word goes: the program counter after it, or a failing code (R450). The
program counter of `s` has already moved past the branch. -/
def branchTarget (s : State) (t imm : Nat) : Checks × Nat :=
  if s.rb (U.thread t) Lamp.IN_ERRAND then
    match s.errandOf t with
    | none => ([(.format, true)], 0)
    | some e =>
      let target := s.thn t Lamp.PC - 1 + imm
      ([(.format, imm == 0 || e.head + e.words.length < target || !startsAt e.words 0 (target - e.head))], target)
  else ([(.range, decide (65535 < imm)), (.format, s.salvos.any (·.th == t) && decide (imm < s.thn t Lamp.PC))], imm)

/-- A taken branch. -/
def State.jump (s : State) (t target : Nat) : State := s.wrs (U.thread t) [(Lamp.PC, target), (Lamp.past, 0)]

def judgeNop (i : Issue) (s : State) : Judged :=
  { checks := [fmtX i false false false false false false false], verdict := .act s, permit := 2 }
def execNop (i : Issue) (s : State) : Res := .next (s.issue i .other (judgeNop i))

def judgeHalt (i : Issue) (s : State) : Judged :=
  { checks := [fmtX i false false false false false false false, (.format, s.inErrand i.th)]
    verdict := .act (s.halt i.th), permit := 2 }
def execHalt (i : Issue) (s : State) : Res := .next (s.issue i .ends (judgeHalt i))

def judgeBr (i : Issue) (s : State) : Judged :=
  let b := branchTarget s i.th i.imm
  { checks := fmtX i false false false false false false true :: b.1, verdict := .act (s.jump i.th b.2), permit := 2 }
def execBr (i : Issue) (s : State) : Res := .next (s.issue i .register (judgeBr i))

def judgeBp (i : Issue) (s : State) : Judged :=
  let b := branchTarget s i.th i.imm
  let taken := s.pget i.th i.xD != i.opt
  { checks := [fmtX i false true true false false false true, (.range, decide (7 < i.xD))] ++ (if taken then b.1 else [])
    verdict := .act (if taken then s.jump i.th b.2 else s), permit := 2 }
def execBp (i : Issue) (s : State) : Res := .next (s.issue i .register (judgeBp i))

def judgeCall (i : Issue) (s : State) : Judged :=
  let stack := Tbl.get ⟨i.th, 0⟩ [] s.calls
  let inErr := s.rb (U.thread i.th) Lamp.IN_ERRAND
  let back := (s.thn i.th Lamp.PC + 65536 * s.thn i.th Lamp.past, inErr)
  let s1 := { s with calls := Tbl.set ⟨i.th, 0⟩ [] (back :: stack) s.calls }
  let s2 := s1.wrs (U.thread i.th) [(Lamp.PC, i.imm), (Lamp.IN_ERRAND, 0), (Lamp.past, 0)]
  let s3 := match s.errandOf i.th with
    | some e => if inErr then s2.setTh i.th Lamp.callIdx (s.thn i.th Lamp.PC - e.head) else s2
    | none => s2
  { checks := [fmtX i false false false false false false true, (.range, decide (65535 < i.imm)),
      (.format, decide (8 ≤ stack.length))]
    verdict := .act s3, permit := 2 }
def execCall (i : Issue) (s : State) : Res := .next (s.issue i .other (judgeCall i))

def judgeRet (i : Issue) (s : State) : Judged :=
  let empty := (Tbl.get ⟨i.th, 0⟩ [] s.calls).isEmpty
  { checks := [fmtX i false false false false false false false, (.format, empty && s.inErrand i.th)]
    verdict := if empty then .actCode (s.halt i.th) .format else .act (s.popCall i.th), permit := 2 }
def execRet (i : Issue) (s : State) : Res := .next (s.issue i .other (judgeRet i))

def judgeSalvo (i : Issue) (s : State) : Judged :=
  { checks := [fmtX i false true false false false false false, (.format, s.salvos.any (·.th == i.th))]
    verdict := .open i.opt, permit := 2 }
def execSalvo (i : Issue) (s : State) : Res := .next (s.issue i .bracket (judgeSalvo i))

def judgeEndsalvo (i : Issue) (s : State) : Judged :=
  { checks := [fmtX i false false false false false false false, (.format, !s.salvos.any (·.th == i.th))]
    verdict := .close, permit := 2 }
def execEndsalvo (i : Issue) (s : State) : Res := .next (s.issue i .bracket (judgeEndsalvo i))

/-- A wait begins: any open salvo is discarded first (R106). -/
def State.beginWait (s : State) (t : Nat) (st : Int) (kind : Nat) (val : Int) : State :=
  (s.discardSalvo t Code.format.num).wrs (U.thread t) [(Lamp.STATE, st), (Lamp.waitKind, kind), (Lamp.waitVal, val)]

def judgeWaittick (i : Issue) (s : State) : Judged :=
  let p := s.thn i.th Lamp.PLAN
  let abs := s.gget i.th i.xA
  let s1 := if i.opt then
      if s.planOn p && decide ((abs.toNat : Int) ≤ s.rd (U.plan p) Plan.TICK) then s.discardSalvo i.th Code.format.num
      else s.beginWait i.th thTickWait 5 abs.toNat
    else if i.imm = 0 then s.discardSalvo i.th Code.format.num
    else s.beginWait i.th thTickWait 1 i.imm
  { checks := [fmtX i false true false i.opt false false (!i.opt), (.format, s.inErrand i.th)]
    verdict := .act s1, permit := 2 }
def execWaittick (i : Issue) (s : State) : Res := .next (s.issue i .ends (judgeWaittick i))

def judgeWaittime (i : Issue) (s : State) : Judged :=
  let sec := (s.gget i.th i.xA).toNat % 2 ^ 48
  let ns := (s.gget i.th i.xB).toNat
  let due := sec * Config.second + ns * Config.ns
  let s1 := if due ≤ s.now then s.discardSalvo i.th Code.format.num else s.beginWait i.th thTickWait 3 due
  { checks := [fmtX i false false false true true false false, (.format, s.inErrand i.th),
      (.range, decide (2 ^ 48 ≤ (s.gget i.th i.xA).toNat) || decide (1000000000 ≤ ns))]
    verdict := .act s1, permit := 2 }
def execWaittime (i : Issue) (s : State) : Res := .next (s.issue i .ends (judgeWaittime i))

def judgeWaitcapt (i : Issue) (s : State) : Judged :=
  let s1 := (s.beginWait i.th thEventWait 4 i.imm).wrs (U.thread i.th)
    [(Lamp.waitReg, i.xD), (Lamp.waitSeq, s.rd (U.capt i.imm) Capt.WRITE_SEQ)]
  { checks := [fmtX i false false true false false false true, (.format, s.inErrand i.th), (.range, decide (3 < i.imm))]
    verdict := .act s1, permit := 2 }
def execWaitcapt (i : Issue) (s : State) : Res := .next (s.issue i .ends (judgeWaitcapt i))

def judgeTarget (i : Issue) (s : State) : Judged :=
  let s1 := if i.opt then s.wrs (U.thread i.th) [(Lamp.tMode, 0), (Lamp.TARGET, 0)]
    else s.wrs (U.thread i.th) [(Lamp.tMode, 1), (Lamp.tPlan, s.th i.th Lamp.PLAN), (Lamp.TARGET, (s.gget i.th i.xA).toNat)]
  { checks := [fmtX i false true false (!i.opt) false false false, (.format, s.inErrand i.th)]
    verdict := .act s1, permit := 2 }
def execTarget (i : Issue) (s : State) : Res := .next (s.issue i .other (judgeTarget i))

/-- BACKGROUND operations the thread started and that have no final code yet (Table 16.4, `sync`). -/
def State.bgOf (s : State) (t : Nat) : List BgOp := s.bg.filter fun b => b.th == t && b.op != 0x0C

def judgeSync (i : Issue) (s : State) : Judged :=
  { checks := [fmtX i false false false false false false false]
    verdict := if (s.bgOf i.th).isEmpty then .act s
      else .start (s.wrs (U.thread i.th) [(Lamp.STATE, thEventWait), (Lamp.waitKind, 6)]) 0x0C 0 0 [] 0
    permit := 2 }
def execSync (i : Issue) (s : State) : Res := .next (s.issue i .other (judgeSync i))

end Sys2Proof.Machine
end

