-- ==== Sys2Proof/Machine/Flags.lean ====
section
/-!
DEFINITION. Register and predicate instructions of Table 16.3, and the comparison conditions (R451).
-/
namespace Sys2Proof.Machine

/-- The condition of `cmp` (Table 16.3): EQ, NE, LT, GE signed, LTU, GEU unsigned. -/
def condHolds (cond : Nat) (a b : Word) : Bool :=
  match cond with
  | 0 => a == b
  | 1 => a != b
  | 2 => a.toInt < b.toInt
  | 3 => b.toInt ≤ a.toInt
  | 4 => a.toNat < b.toNat
  | _ => b.toNat ≤ a.toNat

/-- Second operand: IMM sign-extended under the IMM flag, gB otherwise. -/
def opnd (i : Issue) (s : State) : Word := if i.regImm then i.immS else s.gget i.th i.xB

/-- An arithmetic or logic instruction with destination gD. -/
def judgeAlu (i : Issue) (f : Word → Word → Word) (s : State) : Judged :=
  { checks := [fmtX i true false true true (!i.regImm) false i.regImm]
    verdict := .act (s.gset i.th i.xD (f (s.gget i.th i.xA) (opnd i s))), permit := 2 }

def judgeLi (i : Issue) (s : State) : Judged :=
  let old := s.gget i.th i.xD
  let v : Word := if i.opt then BitVec.ofNat 64 (i.imm * 2 ^ 32 + old.toNat % 2 ^ 32) else i.immS
  { checks := [fmtX i false true true false false false true], verdict := .act (s.gset i.th i.xD v), permit := 2 }
def execLi (i : Issue) (s : State) : Res := .next (s.issue i .register (judgeLi i))
def judgeMov (i : Issue) (s : State) : Judged :=
  { checks := [fmtX i false false true true false false false]
    verdict := .act (s.gset i.th i.xD (s.gget i.th i.xA)), permit := 2 }
def execMov (i : Issue) (s : State) : Res := .next (s.issue i .register (judgeMov i))
def execAdd (i : Issue) (s : State) : Res := .next (s.issue i .register (judgeAlu i fun a b => a + b))
def execSub (i : Issue) (s : State) : Res := .next (s.issue i .register (judgeAlu i fun a b => a - b))
def execAnd (i : Issue) (s : State) : Res := .next (s.issue i .register (judgeAlu i fun a b => a &&& b))
def execOr (i : Issue) (s : State) : Res := .next (s.issue i .register (judgeAlu i fun a b => a ||| b))
def execXor (i : Issue) (s : State) : Res := .next (s.issue i .register (judgeAlu i fun a b => a ^^^ b))
def execShl (i : Issue) (s : State) : Res := .next (s.issue i .register (judgeAlu i fun a b => a <<< (b.toNat % 64)))
def execShr (i : Issue) (s : State) : Res := .next (s.issue i .register (judgeAlu i fun a b => a >>> (b.toNat % 64)))

def judgeCmp (i : Issue) (s : State) : Judged :=
  { checks := [fmtX i true false true true (!i.regImm) true i.regImm, (.range, decide (7 < i.xD) || decide (5 < i.xCond))]
    verdict := .pred i.xD (condHolds i.xCond (s.gget i.th i.xA) (opnd i s)), permit := 2 }
def execCmp (i : Issue) (s : State) : Res := .next (s.issue i .register (judgeCmp i))
def judgeBit (i : Issue) (s : State) : Judged :=
  { checks := [fmtX i false false true true false false true, (.range, decide (7 < i.xD) || decide (63 < i.imm))]
    verdict := .pred i.xD (bitAt (s.gget i.th i.xA).toNat i.imm), permit := 2 }
def execBit (i : Issue) (s : State) : Res := .next (s.issue i .register (judgeBit i))
def judgePset (i : Issue) (_ : State) : Judged :=
  { checks := [fmtX i false false true false false false true, (.range, decide (7 < i.xD) || decide (1 < i.imm))]
    verdict := .pred i.xD (i.imm == 1), permit := 2 }
def execPset (i : Issue) (s : State) : Res := .next (s.issue i .register (judgePset i))

end Sys2Proof.Machine
end

