-- ==== Sys2Proof/Machine/Seats.lean ====
section
/-!
DEFINITION. Seats, sources and selections: which unit feeds a source seat, its timing and rate, whether it is lost,
and the chain of return seats (R29 to R36, R74, R133, R184, R596).
-/
namespace Sys2Proof.Machine

abbrev noSeat : Nat := 0xFFF

/-! Selections of streams 1 to 7 of a Granary input Cell, and the selection a FOLLOW Cell still emits while its
committed one waits for SOL (R35, R122, R595). -/
def Cell.msSource (j : Nat) : Field := if j = 0 then Cell.SOURCE else ⟨Cell.MS_SOURCE1.pos + (j - 1), 12, false, 4095⟩
def Cell.msStream (j : Nat) : Field := if j = 0 then Cell.STREAM else ⟨Cell.MS_STREAM1.pos + (j - 1), 3, false, 0⟩
def Cell.oldSource (j : Nat) : Field := ⟨300 + j, 12, false, 4095⟩
def Cell.oldStream (j : Nat) : Field := ⟨310 + j, 3, false, 0⟩
def Cell.pending (j : Nat) : Field := ⟨320 + j, 1, false, 0⟩
def Cell.pendAt (j : Nat) : Field := ⟨330 + j, 0, false, 0⟩
/-- The Cell shows its loss-policy output because its source is lost (R133). -/
def Cell.inLoss : Field := ⟨340, 1, false, 0⟩
/-! Last line put out: when it ended (plus one) and its number; source and stream in force as the line under way began, which gives its
EAV group; instant at which the line of a FOLLOW Cell put out last was offered, plus one (R120, R133). -/
def Cell.outAt : Field := ⟨341, 0, false, 0⟩
def Cell.outLine : Field := ⟨342, 0, false, 0⟩
def Cell.lineSource : Field := ⟨343, 0, false, 0⟩
def Cell.lineStream : Field := ⟨344, 0, false, 0⟩
def Cell.outTime (j : Nat) : Field := ⟨360 + j, 0, false, 0⟩

def State.cellN (s : State) (d : Nat) (f : Field) : Nat := s.rn (U.cell d) f
def State.cellTimed (s : State) (d : Nat) : Bool := s.rb (U.cell d) Cell.MODE

/-- Elements of a class whose field holds `v` (a value other than the reset value), lowest first. -/
def State.holding (s : State) (base n : Nat) (f : Field) (v : Int) : List Nat :=
  s.regs.filterMap fun e =>
    if e.1.pos = f.pos && decide (base ≤ e.1.unit) && decide (e.1.unit < base + n) && e.2 == v then some (e.1.unit - base) else none

/-- Streams a Granary slot's MODE provides (Table 9.1). -/
def modeStreams (mode : Nat) : Nat := match mode with | 0 => 0 | 1 => 1 | 2 => 2 | 3 => 4 | _ => 8
/-- Largest stream rate class of a MODE (Table 9.1, classes of Table 6.6). -/
def modeRate (mode : Nat) : Nat := match mode with | 2 => 4 | 3 => 3 | 4 => 2 | _ => 5

def State.granMode (s : State) (sl : Nat) : Nat := s.rn (U.gran sl) Gran.MODE
/-- Granary slot of a source or destination seat in 2304 to 2431. -/
def isGranSeat (d : Nat) : Bool := decide (2304 ≤ d) && decide (d < 2432)
/-- The Cell is a Granary input in multi-stream form (R596). -/
def State.cellMulti (s : State) (d : Nat) : Bool := isGranSeat d && decide (2 ≤ s.granMode (d - 2304))
/-- Streams of a source seat: more than one only for a multi-stream Granary output (R28). -/
def State.srcStreams (s : State) (src : Nat) : Nat :=
  if isGranSeat src && decide (2 ≤ s.granMode (src - 2304)) then modeStreams (s.granMode (src - 2304)) else 1

/-- The receive flow context that carries the video of a packet input (seat 1152 + k, Table 1.3, R220). -/
def State.rxOfSeat (s : State) (src : Nat) : Option Nat :=
  (s.holding (U.rx 0) 8192 Rx.SEAT (src - 1152 : Nat)).find? fun c => s.rn (U.rx c) Rx.TYPE == 1 || s.rn (U.rx c) Rx.TYPE == 5

/-- Video context `c` feeds its seat in the native mapping; what the seat then carries (Table 7.7). -/
def State.rxNative (s : State) (c : Nat) : Bool := s.rn (U.rx c) Rx.TYPE != 1 || nativeFormat (s.rn (U.rx c) Rx.SAMPLING) (s.rn (U.rx c) Rx.DEPTH)
def State.rxRas (s : State) (c : Nat) : Raster := seatRas (s.rn (U.rx c) Rx.RASTER) (s.rxNative c)

/-- Units a source seat uses (R43, R44). -/
def srcUnits (src : Nat) : List Nat :=
  if src < 2304 then [U.kerb src] else if src < 2432 then [U.gran (src - 2304)] else if src < 2448 then [U.head (src - 2432)]
  else if src < 2496 then [U.sign (src - 2448)] else if src < 2688 then [U.ret (src - 2496)] else []
/-- Units a destination seat feeds that a selection wakes (R43, R256). -/
def destUnits (d : Nat) : List Nat :=
  if isGranSeat d then [U.gran (d - 2304)] else if 2432 ≤ d ∧ d < 2624 then [U.scaler (d - 2432)] else []

/-- The plan that times a source, for the check of R74; none for a source in its own timing. -/
def State.srcPlan (s : State) (src : Nat) : Option Nat :=
  if src < 2304 then (if s.rb (U.kerb src) Kerb.MODE then some (s.rn (U.kerb src) Kerb.PLAN) else none)
  else if src < 2432 then some (s.rn (U.gran (src - 2304)) Gran.PLAN)
  else if src < 2448 then some (s.rn (U.head (src - 2432)) Head.PLAN)
  else if src < 2496 then some (s.rn (U.sign (src - 2448)) Sign.PLAN)
  else if src < 2688 then
    let m := s.rn (U.ret (src - 2496)) Ret.MIRROR
    if m < 2688 && s.cellTimed m then some (s.cellN m Cell.PLAN) else none
  else none

/-- R74: a TIMED destination on plan `p` may select `src`. -/
def State.timedOk (s : State) (p src : Nat) : Bool := src == noSeat || s.srcPlan src == some p

/-- Rate of a raster: twice its class (Table 6.6: 1 0.27 to 5 11.88 Gb/s), plus 1 for a /1.001 rate. -/
def Raster.rateKey (r : Raster) : Nat := 2 * (r.rate + 1) + r.m1001
/-- Rate of a source in the same coding, 0 unknown: from the plan of a timed source, otherwise as detected (R184, R593). `fuel`
bounds the chain of return seats. R28 does not say what a return seat that mirrors a Granary input Cell in multi-stream form
carries: it has the rate of stream 0's source and counts as one stream (DESIGN CHOICE, notes/assumptions/90.md). -/
def State.srcRate (s : State) : Nat → Nat → Nat
  | 0, _ => 0
  | fuel + 1, src =>
    match s.srcPlan src with
    | some p => if s.planOn p then (s.planRas p).rateKey else 0
    | none =>
      if src < 1152 then (if s.rb (U.trib src) Trib.RX_RATE then 2 * s.rn (U.trib src) Trib.RX_RATE + s.rn (U.trib src) Trib.RX_M1001 else 0)
      else if src < 2304 then
        match s.rxOfSeat src with
        | some c => (s.rxRas c).rateKey
        | none => 0
      else if 2496 ≤ src ∧ src < 2688 then
        let m := s.rn (U.ret (src - 2496)) Ret.MIRROR
        if m < 2688 then s.srcRate fuel (s.cellN m Cell.SOURCE) else 0
      else 0

/-- Lane mode and rate of the lane that carries tributary output `t` (R184). -/
def State.outLane (s : State) (t : Nat) : Option (Nat × Nat) :=
  let l := s.rn (U.trib t) Trib.LANE
  if l < 288 then some (s.rn (U.lane l) Lane.MODE, s.rn (U.lane l) Lane.RATE) else none

/-- Rate of a direct SDI lane rate code in the same coding (Table 5.2: 4 to 7 11.88 to 1.485 Gb/s, 8 0.27 Gb/s, 9 to
12 the /1.001 rates). -/
def sdiRate (code : Nat) : Nat :=
  match code with
  | 4 => 10 | 5 => 8 | 6 => 6 | 7 => 4 | 8 => 2 | 9 => 11 | 10 => 9 | 11 => 7 | 12 => 5 | _ => 0

/-- R184: the output that carries destination seat `d` cannot carry this rate. -/
def State.outputRefuses (s : State) (d rate : Nat) : Bool :=
  decide (d < 1152) && rate != 0 &&
    match s.outLane d with
    | some (3, code) => sdiRate code != rate
    | some (1, 3) => decide (4 < rate / 2)
    | _ => false

/-- Effects that wait for a tick: staged in a frozen or open generation, armed, or members of an open salvo (R33). -/
def State.waitingEffects (s : State) : List Effect :=
  s.staged.map (·.eff) ++ s.salvos.flatMap fun o => o.members.flatMap fun m => m.2.map (·.eff)
/-- Destination Cells that return seat `r` mirrors, now or in a change that waits (R33). -/
def State.mirrorsOf (s : State) (r : Nat) : List Nat :=
  s.rn (U.ret r) Ret.MIRROR :: s.waitingEffects.filterMap fun e =>
    match e with
    | .cfg 0x56 idx _ [m] => if idx = r then some m.toNat else none
    | _ => none
/-- Source seats that Cell `d` selects, now or in a selection that waits. -/
def State.selectedBy (s : State) (d : Nat) : List Nat :=
  (List.range (if isGranSeat d then 8 else 1)).map (fun j => s.cellN d (Cell.msSource j)) ++
  (s.waitingEffects.map fun e => match e with
    | .takes l => l.filterMap fun x => if x.cell = d then some x.source else none
    | _ => []).flatten
/-- Return seats among the source seats that Cell `d` selects. -/
def State.returnsOf (s : State) (d : Nat) : List Nat :=
  (s.selectedBy d).filterMap fun x => if 2496 ≤ x ∧ x < 2688 then some (x - 2496) else none

/-- Return seats that a chain from `frontier` passes: each seat's mirrored Cells, and the return seats that those select (R33). -/
def State.returnChain (s : State) : Nat → List Nat → List Nat → List Nat
  | 0, seen, _ => seen
  | fuel + 1, seen, frontier =>
    let cells := (frontier.map s.mirrorsOf).flatten.filter (· < 2688)
    let next := ((cells.map s.returnsOf).flatten.filter fun x => !seen.contains x).eraseDups
    if next.isEmpty then seen else s.returnChain fuel (seen ++ next) next

/-- R33: selecting `src` at `d` would close a loop of return seats. -/
def State.returnLoop (s : State) (d src : Nat) : Bool :=
  if 2496 ≤ src ∧ src < 2688 then (s.returnChain 193 [src - 2496] [src - 2496]).any fun r => (s.mirrorsOf r).contains d else false
/-- R33: mirroring Cell `m` at return seat `r` would close a loop of return seats. -/
def State.mirrorLoop (s : State) (m r : Nat) : Bool :=
  let first := (s.returnsOf m).eraseDups
  decide (m < 2688) && (s.returnChain 193 first first).contains r

/-- An internal source unit or Kerb that cannot be used: disabled or in FAULT (R44). -/
def State.srcBad (s : State) (src : Nat) : Bool := (srcUnits src).any s.unitBad

/-- A TIMED Cell treats its source as lost (Table 4.6, R75, R117, R135). -/
def State.srcLost (s : State) (d : Nat) : Bool :=
  let src := s.cellN d Cell.SOURCE
  let st := s.cellN d Cell.STREAM
  if src < 2304 then s.srcBad src || s.rd (U.kerb src) Kerb.STATE != 2
  else if src < 2432 then
    let sl := src - 2304
    let sub := s.rd (U.sub sl st) Sub.STATE
    s.srcBad src || !s.planOn (s.rn (U.gran sl) Gran.PLAN) || s.unitState (U.gran sl) == stOff ||
      !(sub == 2 || (sub == 3 && s.rb (U.cell d) Cell.LOSS_POLICY))
  else if src < 2448 then
    let h := src - 2432
    s.srcBad src || !s.planOn (s.rn (U.head h) Head.PLAN) || s.unitState (U.head h) == stOff || s.rn (U.head h) Head.OUTPUT % 2 == 0
  else if src < 2496 then
    let g := src - 2448
    s.srcBad src || !s.rb (U.sign g) Sign.ENABLE || !s.planOn (s.rn (U.sign g) Sign.PLAN)
  else if src < 2688 then
    let m := s.rn (U.ret (src - 2496)) Ret.MIRROR
    s.srcBad src || decide (2688 ≤ m) || s.cellN m Cell.OUTPUT == 2
  else true

/-- OUTPUT of a TIMED Cell for its present source (Tables 4.2 and 4.6, R135). -/
def State.timedOutput (s : State) (d : Nat) : Int :=
  if s.srcLost d then 2
  else
    let src := s.cellN d Cell.SOURCE
    if isGranSeat src && s.rd (U.sub (src - 2304) (s.cellN d Cell.STREAM)) Sub.STATE == 3 then 3 else 1

/-- A Cell's selections, current or staged in a frozen or open generation, name a seat that satisfies `f` (R66, R128, R139,
R256); an armed bank is no generation (R103, R104). -/
def State.anyCellNames (s : State) (cells : Nat → Bool) (f : Nat → Bool) : Bool :=
  (s.regs.any fun e => decide (e.1.unit < 2688) && cells e.1.unit &&
    (e.1.pos == Cell.SOURCE.pos || (decide (Cell.MS_SOURCE1.pos ≤ e.1.pos) && decide (e.1.pos ≤ Cell.MS_SOURCE7.pos))) &&
    f e.2.toNat) ||
  s.staged.any fun e => !e.armed && match e.eff with
    | .takes l => l.any fun x => cells x.cell && f x.source
    | _ => false

/-- Members of a group unit that are Cells; a single Cell is its own group. None if the ID names no Cells (R39). -/
def cellsOf (u : Nat) : Option (List Nat) :=
  match U.classOf u with
  | 0x04 => some [u]
  | 0x01 => some (U.members u)
  | 0x02 => some (U.members u)
  | 0x03 => some (U.members u)
  | _ => none

/-! ### Audio that follows a seat (R328 to R331) -/

/-- Index of the first grid instant at or after `t`, at `fs` samples a second (R302). -/
def gridCeil (t : Int) (fs : Nat) : Int := (t * fs + Config.second - 1) / Config.second
def rateHz (rate : Nat) : Nat := if rate = 0 then 48000 else 96000
/-- First slot sample that an event at instant `t` governs: u ≥ a + 2 ms with a = g_ceil(t + 250 us) (R328). -/
def switchIndex (t : Int) (rate : Nat) : Int := gridCeil (t + 250 * Config.us) (rateHz rate) + (if rate = 0 then 96 else 192)

/-- Seat whose audio FOLLOW channels take (R330): none is silence. -/
def State.afvSeat (s : State) (d : Nat) : Nat :=
  match s.cellN d Cell.OUTPUT with
  | 0 => noSeat
  | 2 => s.cellN d Cell.FALLBACK_SEAT
  | 4 => s.rn (U.emb d) Emb.AFV_SEAT
  | _ => s.cellN d Cell.SOURCE

/-- Crossfades of an embedder's FOLLOW channels, oldest first: the seat they begin from, then seat, first sample,
length and law of each (R331). -/
structure Fade where
  seat : Nat
  start : Int
  len : Nat
  law : Nat
deriving DecidableEq, Repr
def fadesOf : List Int → List Fade
  | a :: b :: c :: d :: t => ⟨a.toNat, b, c.toNat, d.toNat⟩ :: fadesOf t
  | _ => []
def unfades (l : List Fade) : List Int := l.flatMap fun f => [(f.seat : Int), f.start, (f.len : Int), (f.law : Int)]
/-- Stands for a contribution that was dropped: it gives nothing. -/
abbrev droppedSeat : Nat := 0x1FFF
/-- Contributions of an embedder at sample `u`: those ended are gone. -/
def State.fades (s : State) (d : Nat) : List Fade := fadesOf (s.buf (U.emb d) 10)
def pruneFades (u : Int) : List Fade → List Fade
  | a :: b :: t => if b.start + b.len ≤ u then pruneFades u (b :: t) else a :: b :: t
  | l => l

/-- Channel source of an embedder: [17:16] 0 SILENT, 1 FOLLOW, 2 SLOT; [15:0] position or slot (Table 11.7). -/
def Emb.chF (q : Nat) : Field := ⟨Emb.CH0.pos + q, 18, false, 65536 + q⟩
/-- Channels that the embedder places. -/
def State.embChannels (s : State) (d : Nat) : Nat := s.rn (U.emb d) Emb.GROUPS * (if s.rb (U.emb d) Emb.RATE then 2 else 4)

/-- An event at this instant may have changed the seat that the FOLLOW channels of Cell `d` take: they crossfade from
the first sample of R328, over FADE_MS by FADE_LAW (R329 to R331). -/
def State.audioSwitch (s : State) (d : Nat) : State :=
  let u := U.emb d
  let new := s.afvSeat d
  let old := s.rn u Emb.AFV_SEAT
  if 2304 ≤ d ∨ new = old then s
  else
    let rate := s.rn u Emb.RATE
    let start := switchIndex s.now rate
    let run := pruneFades start (s.fades d)
    let base : List Fade := if run.isEmpty then [⟨old, 0, 0, 0⟩] else run
    -- at most three contributions: the one that fades out earliest goes, and the others keep their weights (R331)
    let gone := (base.headD ⟨old, 0, 0, 0⟩).seat == droppedSeat
    let cut := decide ((if gone then 4 else 3) ≤ base.length)
    let all := (if cut then ⟨droppedSeat, 0, 0, 0⟩ :: base.drop (if gone then 2 else 1) else base) ++ [⟨new, start, s.rn u Emb.FADE_MS * (if rate = 0 then 48 else 96), s.rn u Emb.FADE_LAW⟩]
    let n := ((List.range (s.embChannels d)).filter fun q => s.rn u (Emb.chF q) / 65536 == 1).length
    let s1 := (s.setBuf u 10 (unfades all)).wrs u [(Emb.AFV_SEAT, new), (Emb.FADING, min 2 (all.length - 1 : Nat))]
    if s.rb u Emb.ENABLE then (s1.countBy u Ctr.Emb.FADES n).countBy u Ctr.Emb.FADE_TRUNCATIONS (if cut then n else 0) else s1

/-- A source seat (or, where given, one stream of it) no longer carries VALID beats: a FOLLOW Cell that emits it emits none and shows
OUTPUT 0, and so do those that take it through a return seat (R137). `fuel` bounds the chain of return seats. -/
def State.followStop : Nat → Nat → Option Nat → State → State
  | 0, _, _, s => s
  | fuel + 1, seat, str, s =>
    (s.holding 0 2688 Cell.SOURCE (seat : Nat)).foldl (fun a d =>
      let o := a.cellN d Cell.OUTPUT
      if a.cellTimed d ∨ !(o == 1 || o == 3) ∨ !(str == none || str == some (a.cellN d Cell.STREAM)) then a
      else
        let b := (a.wr (U.cell d) Cell.OUTPUT 0).audioSwitch d
        (b.holding (U.ret 0) 192 Ret.MIRROR (d : Nat)).foldl (fun x r => State.followStop fuel (2496 + r) none x) b) s

/-- A source seat carries VALID beats for a FOLLOW Cell (R68, R137, R138). -/
def State.srcCarries (s : State) (src str : Nat) : Bool :=
  if src < 2304 then !s.srcBad src && s.rd (U.kerb src) Kerb.STATE != 0 && s.rd (U.kerb src) Kerb.STATE != 5
  else if src < 2432 then
    let st := s.rd (U.sub (src - 2304) str) Sub.STATE
    !s.srcBad src && s.planOn (s.rn (U.gran (src - 2304)) Gran.PLAN) && (st == 2 || st == 3)
  else if src < 2448 then !s.srcBad src && s.planOn (s.rn (U.head (src - 2432)) Head.PLAN) && s.rn (U.head (src - 2432)) Head.OUTPUT % 2 == 1
  else if src < 2496 then !s.srcBad src && s.rb (U.sign (src - 2448)) Sign.ENABLE && s.planOn (s.rn (U.sign (src - 2448)) Sign.PLAN)
  else if src < 2688 then
    let m := s.rn (U.ret (src - 2496)) Ret.MIRROR
    !s.srcBad src && decide (m < 2688) && s.cellN m Cell.OUTPUT != 0
  else false
/-- OUTPUT of a FOLLOW Cell that emits its source: 3 while a Granary stream holds, 0 while the source carries nothing (R135, R137). -/
def State.followOutput (s : State) (d : Nat) : Int :=
  let src := s.cellN d Cell.SOURCE
  let str := s.cellN d Cell.STREAM
  if src = noSeat ∨ s.srcCarries src str = false then 0
  else if isGranSeat src && s.rd (U.sub (src - 2304) str) Sub.STATE == 3 then 3 else 1

end Sys2Proof.Machine
end

