-- ==== Sys2Proof/Machine/Takes.lean ====
section
/-!
DEFINITION. Takes, locks, and the Cell and bundle configuration, with their commits (R113 to R132, R596).
-/
namespace Sys2Proof.Machine

/-! ### Checks of a take -/

/-- Operands of a `take` or `taker` after REG (Table 16.2): destination field, source, stream named or not. -/
structure TakeOps where
  dest : Nat
  source : Nat
  stream : Option Nat
  bad : Bool
deriving DecidableEq, Repr

def takeOps (s : State) (i : Issue) : TakeOps :=
  if i.regImm then
    let d := (s.gget i.th (i.dest % 16)).toNat % 2 ^ 16
    let g := (s.gget i.th (i.source % 16)).toNat
    ⟨d, g % 4096, if bitAt g 15 then some (bitsAt g 14 12) else none,
      decide (16 ≤ i.dest) || decide (16 ≤ i.source) || i.snamed || i.stream != 0⟩
  else ⟨i.dest, i.source, if i.snamed then some i.stream else none, false⟩

/-- LOCKED for a take or Cell configuration by thread `t` (R125). -/
def State.cellLocked (s : State) (t d : Nat) : Bool :=
  s.cellN d Cell.LOCK == 2 || (s.cellN d Cell.LOCK == 1 && s.cellN d Cell.OWNER != t)

/-- The checks of a selection on Cell `d`, destination stream `j` (R23, R29, R33, R44, R74, R125, R130, R184, R596). -/
def selChecks (s : State) (t d j src : Nat) (stream : Option Nat) (bundled : Bool) : Checks :=
  let multi := decide (1 < s.srcStreams src)
  let rate := s.srcRate 200 src
  if src = noSeat then
    [(.range, decide (2688 ≤ d) || (s.cellMulti d && decide (modeStreams (s.granMode (d - 2304)) ≤ j))),
     (.locked, s.cellLocked t d), (.bundle, !bundled && s.cellN d Cell.DBUNDLE != 0x3FF)]
  else
    [(.range, decide (2688 ≤ d) || decide (2688 ≤ src) ||
        (s.cellMulti d && decide (modeStreams (s.granMode (d - 2304)) ≤ j)) ||
        (match stream with
          | some k => decide (s.srcStreams src ≤ k)
          | none => false) || s.returnLoop d src),
     (.nounit, (srcUnits src ++ destUnits d).any s.unitBad),
     (.locked, s.cellLocked t d),
     (.bundle, !bundled && s.cellN d Cell.DBUNDLE != 0x3FF),
     (.rate, (multi && stream.isNone) ||
        (s.cellTimed d && !s.timedOk (s.cellN d Cell.PLAN) src) ||
        s.outputRefuses d rate ||
        (s.cellMulti d && decide (modeRate (s.granMode (d - 2304)) < rate / 2)))]

/-- The member of a take: its element is the Cell's stream (R116, R142, R596). -/
def takeMember (s : State) (d j src : Nat) (stream : Option Nat) : Member :=
  ⟨s.cellN d Cell.PLAN, 0, [⟨U.cell d, j⟩], U.cell d :: if src = noSeat then [] else srcUnits src ++ destUnits d,
    .takes [⟨d, j, src, stream.getD 0⟩]⟩

/-- Cells and destination stream a `take` addresses: a seat with its stream in DEST[14:12], or a group by unit ID. -/
def takeDests (i : Issue) (dest : Nat) : Option (List Nat) × Nat :=
  if i.group then (cellsOf dest, 0) else (some [dest % 4096], bitsAt dest 14 12)

/-- Checks of the destination field alone: DEST[15] and, for a Cell not in multi-stream form, DEST[14:12] (R596). -/
def destFormat (s : State) (i : Issue) (dest : Nat) (range : Bool) : Bool :=
  !i.group && (bitAt dest 15 || (!range && bitsAt dest 14 12 != 0 && !s.cellMulti (dest % 4096)))

def judgeTake (i : Issue) (s : State) : Judged :=
  let o := takeOps s i
  let (cells, j) := takeDests i o.dest
  let ds := (cells.getD []).filter (· < 2688)
  { checks := [(.format, i.badFlags true true true false || i.rRes != 0 || i.rCount != 0 || !i.params.isEmpty || o.bad ||
        destFormat s i o.dest false),
      (.range, cells.isNone || (!i.group && decide (2688 ≤ o.dest % 4096)))] ++
      (ds.map fun d => selChecks s i.th d j o.source o.stream false).flatten
    members := memberChecks 0 (some ds) fun d => selChecks s i.th d j o.source o.stream false
    verdict := .stage (ds.map fun d => takeMember s d j o.source o.stream) }
def execTake (i : Issue) (s : State) : Res := .next (s.issue i (.ticked 0x20) (judgeTake i))

def judgeTaker (i : Issue) (s : State) : Judged :=
  let o := takeOps s i
  let d0 := o.dest % 4096
  let j := bitsAt o.dest 14 12
  let n := i.rCount
  let ds := ((List.range n).map (· + d0)).filter (· < 2688)
  let anyMulti := ds.any s.cellMulti
  let jOf := fun d => if s.cellMulti d then j else 0
  { checks := [(.format, i.badFlags true true true false || i.group || i.rRes != 0 || !i.params.isEmpty || o.bad || bitAt o.dest 15 ||
        (j != 0 && !anyMulti)),
      (.range, n == 0 || decide (2688 < d0 + n))] ++
      (ds.map fun d => selChecks s i.th d (jOf d) o.source o.stream false).flatten
    members := memberChecks 0 (some ds) fun d => selChecks s i.th d (jOf d) o.source o.stream false
    verdict := .stage (ds.map fun d => takeMember s d (jOf d) o.source o.stream) }
def execTaker (i : Issue) (s : State) : Res := .next (s.issue i (.ticked 0x21) (judgeTaker i))

/-- Members of a source or destination bundle (Table 4.5). -/
def State.bundleMembers (s : State) (u : Nat) : List Nat :=
  ([Bundle.M0, Bundle.M1, Bundle.M2, Bundle.M3].map (s.rn u)).take (s.rn u Bundle.COUNT)

def judgeBtake (i : Issue) (s : State) : Judged :=
  let db0 := opBits i 51 42
  let sb0 := opBits i 41 32
  let db := if i.regImm then (s.gget i.th (db0 % 16)).toNat % 1024 else db0
  let sb := if i.regImm then (s.gget i.th (sb0 % 16)).toNat % 1024 else sb0
  let ds := s.bundleMembers (U.dbundle db)
  let ss := s.bundleMembers (U.sbundle sb)
  let prs := ds.zip ss
  { checks := [(.format, i.badFlags true true true false || i.group || opBits i 31 0 != 0 || !i.params.isEmpty ||
        (i.regImm && (decide (16 ≤ db0) || decide (16 ≤ sb0)))),
      (.range, decide (511 < db) || decide (511 < sb)),
      (.bundle, ds.isEmpty || ss.isEmpty || ds.length != ss.length)] ++
      (prs.map fun p => selChecks s i.th p.1 0 p.2 none true).flatten
    verdict := .stage [⟨s.cellN (ds.headD 0) Cell.PLAN, 0, ds.map fun d => ⟨U.cell d, 0⟩,
      (prs.map fun p => U.cell p.1 :: (srcUnits p.2 ++ destUnits p.1)).flatten, .takes (prs.map fun p => ⟨p.1, 0, p.2, 0⟩)⟩] }
def execBtake (i : Issue) (s : State) : Res := .next (s.issue i (.ticked 0x22) (judgeBtake i))

/-! ### Locks (R124) -/

/-- One Cell refuses a lock-state change to `target` by thread `t`: `unlock`, and any change of a Cell that is not FREE, are the
OWNER's. -/
def State.lockRefused (s : State) (t d target : Nat) (force : Bool) : Bool :=
  let cur := s.cellN d Cell.LOCK
  !force && (target == 0 || cur != 0) && s.cellN d Cell.OWNER != t

/-- One Cell's lock state after a change by thread `t`, which OWNER records. -/
def State.lockCell (s : State) (t d target : Nat) : State := s.wrs (U.cell d) [(Cell.LOCK, target), (Cell.OWNER, t)]

/-- `lock`, `protect` and `unlock` over the Cells addressed (R124, R453). -/
def judgeLock (i : Issue) (target : Nat) (s : State) : Judged :=
  let dest := if i.regImm then (s.gget i.th (i.dest % 16)).toNat % 2 ^ 16 else i.dest
  let cells := if i.group then cellsOf dest else some [dest]
  let ds := (cells.getD []).filter (· < 2688)
  let force := i.force && s.thn i.th Lamp.PRIORITY == 7
  { checks := [(.format, i.badFlags true true true false || opBits i 35 0 != 0 || !i.params.isEmpty ||
        (i.regImm && decide (16 ≤ i.dest)) || (!i.group && decide (4096 ≤ dest))),
      (.range, cells.isNone || (!i.group && decide (2688 ≤ dest))),
      (.locked, ds.any fun d => s.lockRefused i.th d target force)]
    members := memberChecks 0 (some ds) fun d => [(.locked, s.lockRefused i.th d target force)]
    verdict := .act (ds.foldl (fun a d => a.lockCell i.th d target) s) }

def execLock (i : Issue) (s : State) : Res := .next (s.issue i .other (judgeLock i 2))
def execProtect (i : Issue) (s : State) : Res := .next (s.issue i .other (judgeLock i 1))
def execUnlock (i : Issue) (s : State) : Res := .next (s.issue i .other (judgeLock i 0))

/-! ### Commits -/

/-- The Cells whose loss is coupled with Cell `d`: its destination bundle, or the Cell alone (R132). -/
def State.lossGroup (s : State) (d : Nat) : List Nat :=
  let b := s.cellN d Cell.DBUNDLE
  if b = 0x3FF then [d] else s.bundleMembers (U.dbundle b)
/-- The unit that a loss event names (R132, R136). -/
def State.lossUnit (s : State) (d : Nat) : Nat :=
  let b := s.cellN d Cell.DBUNDLE
  if b = 0x3FF then d else U.dbundle b
/-- RATE in the event detail when the Kerb is in RASTER (R69, Table 4.6). -/
def State.lossDetail (s : State) (d : Nat) : Nat :=
  let src := s.cellN d Cell.SOURCE
  if src < 2304 && s.rd (U.kerb src) Kerb.STATE == 4 then Code.rate.num else 0

/-- A member of Cell `d`'s loss group has a lost source (R132). -/
def State.groupLost (s : State) (d : Nat) : Bool := (s.lossGroup d).any fun c => s.srcLost c && s.cellN c Cell.SOURCE != noSeat
/-- At a switch instant or line boundary the members of TIMED Cell `d`'s loss group show what their sources allow: the loss policy on
all of them, where one is lost, entered with a count for each member and one event, which names the output left; their sources otherwise
(R132, R133, R136, R476). -/
def State.settleLoss (s : State) (d : Nat) : State :=
  let g := s.lossGroup d
  if !s.cellTimed d then s
  else if s.groupLost d then
    let new := g.filter fun c => !s.rb (U.cell c) Cell.inLoss
    let s1 := new.foldl (fun (a : State) c => (a.wr (U.cell c) Cell.inLoss 1).count (U.cell c) Ctr.Cell.LOSS_ENTRIES) s
    let s2 := g.foldl (fun (a : State) c => (a.wr (U.cell c) Cell.OUTPUT 2).audioSwitch c) s1
    if new.isEmpty then s2 else s2.postEntry (s.lossUnit d) 2 (s.cellN d Cell.OUTPUT) 0 (s.lossDetail d)
  else g.foldl (fun (a : State) c => ((a.wr (U.cell c) Cell.inLoss 0).wr (U.cell c) Cell.OUTPUT (s.timedOutput c)).audioSwitch c) s

/-- One selection commits at tick `n` (R116, R119, R120, R122). -/
def State.commitSel0 (s : State) (n : Int) (x : Sel) : State :=
  let u := U.cell x.cell
  let same := s.rn u (Cell.msSource x.stream) == x.source && s.rn u (Cell.msStream x.stream) == x.srcStream
  let s1 := (s.wr u Cell.LAST_TICK n).count u Ctr.Cell.TAKES
  if same then s1
  else
    let old := s1.rd u (Cell.msSource x.stream)
    let oldS := s1.rd u (Cell.msStream x.stream)
    let s2 := s1.wrs u [(Cell.msSource x.stream, x.source), (Cell.msStream x.stream, x.srcStream)]
    if s.cellTimed x.cell then s2
    else
      -- a selection already waiting for SOL keeps the source that is on air
      let keep := s1.rb u (Cell.pending x.stream)
      let s3 := if keep then s2 else s2.wrs u [(Cell.oldSource x.stream, old), (Cell.oldStream x.stream, oldS)]
      let s4 := s3.wrs u [(Cell.pending x.stream, 1), (Cell.pendAt x.stream, s.clk)]
      if x.stream = 0 then s4.wr u Cell.OUTPUT 4 else s4

/-- The selections of one take commit together, and TIMED Cells show their new sources from the tick on, with the audio of the seat
(R121, R328). -/
def State.commitSels (s : State) (n : Int) (l : List Sel) : State :=
  l.foldl (fun (a : State) x => (a.settleLoss x.cell).audioSwitch x.cell) (l.foldl (fun (a : State) x => a.commitSel0 n x) s)

/-- A Cell configuration commits (R113, R122). -/
def State.commitCellcfg0 (s : State) (d : Nat) (vs : List Int) : State :=
  let u := U.cell d
  let s1 := s.wrParams u Cell.cellcfgParams vs
  if s1.cellTimed d then (s1.wr u (Cell.pending 0) 0).settleLoss d
  else if s.cellTimed d then
    -- a Cell that becomes FOLLOW passes its source's own timing from now on
    (s1.wr u Cell.inLoss 0).wr u Cell.OUTPUT (s1.followOutput d)
  else s1

def State.commitCellcfg (s : State) (d : Nat) (vs : List Int) : State := (s.commitCellcfg0 d vs).audioSwitch d

/-- Checks of a Cell configuration on Cell `d` (R52, R114, R125). -/
def cellcfgChecks (s : State) (t d : Nat) (vs : List Int) : Checks :=
  let ps := Cell.cellcfgParams
  let timed := pv ps vs Cell.MODE == 1
  let plan := pn ps vs Cell.PLAN
  let fb := pn ps vs Cell.FALLBACK_SEAT
  let src := s.cellN d Cell.SOURCE
  let changes := pv ps vs Cell.MODE != s.rd (U.cell d) Cell.MODE || pv ps vs Cell.PLAN != s.rd (U.cell d) Cell.PLAN
  [(.range, decide (2688 ≤ d) || !paramsOk ps vs || (timed && decide (2304 ≤ d) && decide (d < 2624))),
   (.nounit, timed && !s.planOn plan),
   (.locked, s.cellLocked t d),
   (.bundle, s.cellN d Cell.DBUNDLE != 0x3FF),
   (.rate, (fb != noSeat && s.rn (U.sign (fb - 2448)) Sign.PLAN != plan) || (changes && timed && !s.timedOk plan src))]

def judgeCellcfg (i : Issue) (s : State) : Judged :=
  let ps := Cell.cellcfgParams
  let pr := getParams ps false i
  let vs := pr.getD []
  let cells := if i.group then cellsOf i.index else some [i.index]
  let ds := (cells.getD []).filter (· < 2688)
  { checks := [(.format, i.badFlags true false true false || pr.isNone), (.range, cells.isNone || (!i.group && decide (2688 ≤ i.index)))] ++
      (if pr.isSome then (ds.map fun d => cellcfgChecks s i.th d vs).flatten else [])
    members := memberChecks 0 (some ds) fun d => cellcfgChecks s i.th d vs
    verdict := .stage (ds.map fun d => ⟨s.cellN d Cell.PLAN, 1,
      (List.range (if isGranSeat d then 8 else 1)).map fun j => ⟨U.cell d, j⟩, [U.cell d], .cfg 0x51 d 0 vs⟩) }
def execCellcfg (i : Issue) (s : State) : Res := .next (s.issue i (.ticked 0x51) (judgeCellcfg i))

/-! ### Bundles (R127, R128) -/

/-- Slot bundle members must match (R266). -/
def State.slotMatch (s : State) (a b : Nat) : Bool :=
  let eq := fun f => s.rd (U.gran a) f == s.rd (U.gran b) f
  s.granMode a == 1 && s.granMode b == 1 && eq Gran.PLAN && eq Gran.DEPTH_MAX && eq Gran.DOMINANCE && eq Gran.HOLD_FIELD &&
    eq Gran.HOLD_LIMIT && eq Gran.BAD_LINES_MAX && eq Gran.LINE_CONCEAL &&
    s.rd (U.sub a 0) Sub.DELAY_CFG == s.rd (U.sub b 0) Sub.DELAY_CFG

/-- Source members share Kerb MODE, PLAN and CONCEAL, or, for Granary outputs, the output plan (R128). -/
def State.srcAlike (s : State) (a b : Nat) : Bool :=
  if a < 2304 ∧ b < 2304 then
    s.rd (U.kerb a) Kerb.MODE == s.rd (U.kerb b) Kerb.MODE && s.rd (U.kerb a) Kerb.PLAN == s.rd (U.kerb b) Kerb.PLAN &&
      s.rd (U.kerb a) Kerb.CONCEAL == s.rd (U.kerb b) Kerb.CONCEAL
  else if isGranSeat a ∧ isGranSeat b then s.rd (U.gran (a - 2304)) Gran.PLAN == s.rd (U.gran (b - 2304)) Gran.PLAN
  else false
/-- Destination members share MODE, PLAN and LOSS_POLICY, and Granary inputs match as slots (R128, R266). -/
def State.destAlike (s : State) (a b : Nat) : Bool :=
  s.rd (U.cell a) Cell.MODE == s.rd (U.cell b) Cell.MODE && s.rd (U.cell a) Cell.PLAN == s.rd (U.cell b) Cell.PLAN &&
    s.rd (U.cell a) Cell.LOSS_POLICY == s.rd (U.cell b) Cell.LOSS_POLICY &&
    (!(isGranSeat a && isGranSeat b) || s.slotMatch (a - 2304) (b - 2304))

/-- Some other bundle of the same side holds this seat. -/
def State.inOtherBundle (s : State) (base b seat : Nat) : Bool :=
  s.regs.any fun e => decide (base ≤ e.1.unit) && decide (e.1.unit < base + 512) && e.1.unit != base + b &&
    decide (Bundle.M0.pos ≤ e.1.pos) && decide (e.1.pos ≤ Bundle.M3.pos) && e.2 == (seat : Int)

def judgeBundlecfg (i : Issue) (s : State) : Judged :=
  let ps := Bundle.bundlecfgParams
  let pr := getParams ps true i
  let vs := pr.getD []
  let side := i.sub % 2
  let bs := if side = 0 then targets i 0x35 (U.sbundle 0) 512 else targets i 0x36 (U.dbundle 0) 512
  let b := (bs.getD []).headD 0
  let u := if side = 0 then U.sbundle b else U.dbundle b
  let n := pn ps vs Bundle.COUNT
  let all := [Bundle.M0, Bundle.M1, Bundle.M2, Bundle.M3].map (pn ps vs)
  let ms := all.take n
  let old := s.bundleMembers u
  let base := if side = 0 then U.sbundle 0 else U.dbundle 0
  let plan := if side = 0 then s.thn i.th Lamp.PLAN else s.cellN (ms.headD (old.headD 0)) Cell.PLAN
  let elems := if side = 0 then [⟨u, 0⟩] else ((old ++ ms).eraseDups.map fun d => (⟨U.cell d, 0⟩ : Key))
  let locked := side == 0 && s.anyCellNames (fun d => s.cellN d Cell.DBUNDLE != 0x3FF) (fun x => old.contains x)
  { checks := [(.format, i.badFlags true false true false || decide (1 < i.sub) || pr.isNone),
      (.range, bs.isNone || n == 1 || decide (4 < n) || ms.any (2431 < ·) || (all.drop n).any (· != noSeat)),
      (.locked, locked),
      (.bundle, ms.any (s.inOtherBundle base b) || ms.eraseDups.length != ms.length ||
        ms.any fun m => if side = 0 then !s.srcAlike (ms.headD 0) m else !s.destAlike (ms.headD 0) m)]
    verdict := .stage [⟨plan, 2, elems, [], .cfg 0x53 b side vs⟩] }
def execBundlecfg (i : Issue) (s : State) : Res := .next (s.issue i (.ticked 0x53) (judgeBundlecfg i))

/-- A bundle configuration commits; member Cells show it (Table 4.2). -/
def State.commitBundlecfg (s : State) (b side : Nat) (vs : List Int) : State :=
  let u := if side = 0 then U.sbundle b else U.dbundle b
  let old := s.bundleMembers u
  let s1 := s.wrParams u Bundle.bundlecfgParams vs
  if side = 0 then s1
  else
    let s2 := old.foldl (fun a d => a.wr (U.cell d) Cell.DBUNDLE 0x3FF) s1
    (s2.bundleMembers u).foldl (fun a d => a.wr (U.cell d) Cell.DBUNDLE b) s2

/-! ### Events of FOLLOW Cells and loss (R122, R123, R132 to R136) -/

/-- The new source of a FOLLOW Cell has delivered SOL (R35, R122); after a timeout or an interruption, its first SOL (R123, R137). A
source that carries no VALID beats delivers none (R68). -/
def execFollowCommit (dt d j : Nat) (s0 : State) : Res :=
  let s := s0.after dt
  let u := U.cell d
  let src := s.rn u (Cell.msSource j)
  .next (s.ifUp [U.cell d] (if s.cellTimed d || src == noSeat || !s.srcCarries src (s.rn u (Cell.msStream j)) then s
    else if s.rb u (Cell.pending j) then
      let s1 := (s.wr u (Cell.pending j) 0).count u Ctr.Cell.FOLLOW_CUTS
      if j = 0 then (s1.wr u Cell.OUTPUT (s.followOutput d)).audioSwitch d else s1
    else if j == 0 && s.cellN d Cell.OUTPUT == 0 then (s.wr u Cell.OUTPUT (s.followOutput d)).audioSwitch d
    else s))

/-- 256 us after the tick no SOL has come (R123). -/
def execFollowTimeout (dt d j : Nat) (s0 : State) : Res :=
  let s := s0.after dt
  let u := U.cell d
  .next (s.ifUp [U.cell d] (if !s.cellTimed d && s.rb u (Cell.pending j) && decide (s.rn u (Cell.pendAt j) + 256 * Config.us ≤ s.clk) then
      let s1 := ((s.wr u (Cell.pending j) 0).count u Ctr.Cell.FOLLOW_TIMEOUTS).count u Ctr.Cell.FOLLOW_CUTS
      if j = 0 then (s1.wr u Cell.OUTPUT 0).audioSwitch d else s1
    else s))

/-- First line boundary after the source of a TIMED Cell is known to be lost (R132 to R136). -/
def execCellLossEntry (dt d : Nat) (s0 : State) : Res :=
  let s := s0.after dt
  .next (s.ifUp [U.cell d] (if !s.cellTimed d then s
    else if s.groupLost d then s.settleLoss d
    else if !s.rb (U.cell d) Cell.inLoss then (s.wr (U.cell d) Cell.OUTPUT (s.timedOutput d)).audioSwitch d
    else s))

/-- First line boundary after the source of a Cell in loss (of every member of its bundle) qualifies again (R132, R136). -/
def execCellLossReturn (dt d : Nat) (s0 : State) : Res :=
  let s := s0.after dt
  .next (s.ifUp [U.cell d] (if s.cellTimed d && s.rb (U.cell d) Cell.inLoss && (s.lossGroup d).all (fun c => !s.srcLost c) then
      (s.settleLoss d).postEntry (s.lossUnit d) 1 2 0 0
    else s))

/-! ### Return seats (R141) -/

def retcfgChecks (s : State) (m r : Nat) : Checks :=
  let seat := 2496 + r
  let newPlan := if m < 2688 && s.cellTimed m then some (s.cellN m Cell.PLAN) else none
  [(.range, s.mirrorLoop m r),
   (.nounit, s.unitBad (U.ret r)),
   (.rate, s.anyCellNames (fun d => s.cellTimed d && newPlan != some (s.cellN d Cell.PLAN)) (· == seat))]

def judgeRetcfg (i : Issue) (s : State) : Judged :=
  let m := i.sub % 4096
  let plan := if m < 2688 then s.cellN m Cell.PLAN else s.thn i.th Lamp.PLAN
  let rs := targets i 0x34 (U.ret 0) 192
  { checks := (.format, i.badFlags true false true false || decide (4096 ≤ i.sub) || i.npw != 0 || !i.params.isEmpty) ::
      (.range, decide (2688 ≤ m) && m != noSeat) :: eachTarget rs (retcfgChecks s m)
    verdict := .stage ((rs.getD []).map fun r => ⟨plan, 0, [⟨U.ret r, 0⟩], [U.ret r], .cfg 0x56 r 0 [m]⟩) }
def execRetcfg (i : Issue) (s : State) : Res := .next (s.issue i (.ticked 0x56) (judgeRetcfg i))

def State.commitRetcfg (s : State) (r : Nat) (vs : List Int) : State := s.wr (U.ret r) Ret.MIRROR (vs.headD 0)

/-! ### Signpost generators (R138, R139) -/

def signcfgChecks (s : State) (vs : List Int) (g : Nat) : Checks :=
  let ps := Sign.signcfgParams
  let u := U.sign g
  let plan := pn ps vs Sign.PLAN
  let seat := 2448 + g
  let fallback := s.regs.any fun e => decide (e.1.unit < 2688) && e.1.pos == Cell.FALLBACK_SEAT.pos && e.2 == (seat : Int)
  [(.range, !paramsOk ps vs || (pv ps vs Sign.PATTERN == 3 && decide (pv ps vs Sign.COLOUR < 2))),
   (.nounit, s.unitBad u || (pv ps vs Sign.ENABLE == 1 && !s.planOn plan)),
   (.locked, pv ps vs Sign.PLAN != s.rd u Sign.PLAN && (fallback || s.anyCellNames (fun _ => true) (· == seat))),
   (.rate, pv ps vs Sign.SAMPLING == 1 && decide ((s.planRas plan).rate < 2))]

/-- signcfg (R138).  Of a generator that is not enabled the change commits on the tick of the PLAN it names, which
the spec does not settle (DESIGN CHOICE, notes/assumptions/102.md). -/
def judgeSigncfg (i : Issue) (s : State) : Judged :=
  let ps := Sign.signcfgParams
  let pr := getParams ps false i
  let vs := pr.getD []
  let gs := targets i 0x33 (U.sign 0) 48
  { checks := (.format, i.badFlags true false true false || pr.isNone) :: eachTarget gs (signcfgChecks s vs)
    verdict := .stage ((gs.getD []).map fun g =>
      ⟨if s.rb (U.sign g) Sign.ENABLE then s.rn (U.sign g) Sign.PLAN else pn ps vs Sign.PLAN, 0, [⟨U.sign g, 0⟩], [U.sign g],
        .cfg 0x54 g 0 vs⟩) }
def execSigncfg (i : Issue) (s : State) : Res := .next (s.issue i (.ticked 0x54) (judgeSigncfg i))

/-- A generator configuration commits; disabled, its seat carries nothing (R137). -/
def State.commitSigncfg (s : State) (g : Nat) (vs : List Int) : State :=
  let s1 := s.wrParams (U.sign g) Sign.signcfgParams vs
  if s1.srcCarries (2448 + g) 0 then s1 else State.followStop 8 (2448 + g) none s1

end Sys2Proof.Machine
end

