-- ==== Sys2Proof/Machine/Plans.lean ====
section
/-!
DEFINITION. Configuration of Timing Plans, phase slews and steps (R51, R52, R64, R65, R384).
-/
namespace Sys2Proof.Machine

/-- Units of a class whose `mode` field satisfies `f` and whose PLAN field is `p`. -/
def State.boundTo (s : State) (base n : Nat) (mode plan : Field) (f : Int → Bool) (p : Nat) : Bool :=
  s.regs.any fun e => decide (base ≤ e.1.unit) && decide (e.1.unit < base + n) && e.1.pos == mode.pos && f e.2 &&
    s.rn e.1.unit plan == p

/-- The plan is in use (R52). -/
def State.planInUse (s : State) (p : Nat) : Bool :=
  s.boundTo (U.cell 0) 2688 Cell.MODE Cell.PLAN (· == 1) p || s.boundTo (U.kerb 0) 2304 Kerb.MODE Kerb.PLAN (· == 1) p ||
  s.boundTo (U.gran 0) 128 Gran.MODE Gran.PLAN (· != 0) p || s.boundTo (U.head 0) 16 Head.OUTPUT Head.PLAN (· != 0) p ||
  s.boundTo (U.sign 0) 48 Sign.ENABLE Sign.PLAN (· == 1) p || s.boundTo (U.tt 0) 4 Tt.MODE Tt.PLAN (· == 4) p ||
  s.boundTo (U.clkout 0) 2 ClkOut.SOURCE ClkOut.PLAN (· == 7) p

/-- Some frozen or open generation holds an effect that commits on the plan (R52). -/
def State.planStaged (s : State) (p : Nat) : Bool := s.staged.any fun e => !e.armed && e.plan == p

/-- A raster operand of Table 2.1: IDs 0x00 to 0x1C, WIDE only with 0x08 to 0x1C. -/
def rasterOk (r : Nat) : Bool := decide (r % 32 ≤ 0x1C) && (decide (r < 32) || decide (8 ≤ r % 32)) && decide (r < 64)

/-- Ranges of Table 2.1 that go beyond a single interval (R51). -/
def planRange (vs : List Int) : Bool :=
  let ps := Plan.plancfgParams
  let r := pn ps vs Plan.RASTER
  let T : Int := frameNs r
  let ph := pv ps vs Plan.PHASE_TARGET
  paramsOk ps vs && rasterOk r && decide (-T ≤ ph) && decide (ph ≤ T) && pv ps vs Plan.SWLINE != 1 &&
    (pv ps vs Plan.TICK_UNIT == 0 || interlaced r)

/-- Cells bound to a plan. -/
def State.cellsOnPlan (s : State) (p : Nat) : List Nat := (List.range 2688).filter fun d => s.cellN d Cell.PLAN == p

/-- Effects staged for a tick of plan `p` between `n` + 1 and `m` - 1, which the plan does not issue, commit at `m` and return
LATE (R65). -/
def State.deferTo (s : State) (p : Nat) (n m : Int) : State :=
  { s with staged := s.staged.map fun x =>
      if x.plan == p && !x.armed && decide (n < x.tick) && decide ((x.tick : Int) < m) then { x with tick := m.toNat, late := true } else x }

/-- A change of PHASE on an enabled plan commits at tick `n` (R65, R384). -/
def State.changePhase (s : State) (p : Nat) (n phase : Int) : State :=
  let u := U.plan p
  let t : Int := s.now
  if s.rd u Plan.ALIGN_MODE = 1 then
    let tn := s.tickTime p n t
    let T : Int := (s.planRas p).frame
    let g := if s.planField p then T / 4 else T / 2
    let old := s.planState p
    let s1 := s.wrs u [(Plan.PHASE_TARGET, phase), (Plan.PHASE_NOW, phase), (Plan.STATE, planStepped), (Plan.stepped, 0), (Plan.slewing, 0)]
    let m := max (n + 1) (s1.firstTickFrom p (tn + g))
    let s2 := (s1.wrs u [(Plan.minTick, m), (Plan.stepped, 1)]).deferTo p n m
    ((s2.cellsOnPlan p).foldl (fun a d => a.count (U.cell d) Ctr.Cell.DISTURBED_FRAMES) s2).postEntry u 3 old.toNat 0 0
  else
    let from0 := s.phaseAt p t
    s.wrs u [(Plan.PHASE_TARGET, phase), (Plan.slewFrom, from0), (Plan.slewAt, t), (Plan.slewing, 1),
      (Plan.STATE, if s.rb u Plan.stepped then planStepped else planSlewing)]

/-- Plan `p`, not in use, has a new RASTER, SWLINE or TICK_UNIT, which numbers its ticks anew (R52, R61): it counts on from the
last tick of the new numbering, and what `old` had staged for a later tick of the old one commits at the first new tick at or
after the instant of that tick (DESIGN CHOICE, notes/assumptions/92.md). -/
def State.renumber (s old : State) (p : Nat) : State :=
  let u := U.plan p
  let t : Int := s.now
  let n := s.tickAt p t
  let s1 := s.wrs u [(Plan.TICK, n), (Plan.resolved, n + 1), (Plan.stepped, 0),
    (Plan.STATE, if s.rb u Plan.slewing then planSlewing else planAligned)]
  { s1 with staged := s1.staged.map fun x =>
      if x.plan == p && !x.armed && decide (old.rd u Plan.TICK < x.tick) then
        { x with tick := (s1.firstTickFrom p (old.tickTime p x.tick t)).toNat, won := false }
      else x }

/-- A plan configuration commits at tick `n` of its plan, or at staging where no plan ticks (R51, R52, R384). -/
def State.commitPlancfg (s : State) (p : Nat) (n : Int) (vs : List Int) : State :=
  let ps := Plan.plancfgParams
  let u := U.plan p
  let en := pv ps vs Plan.ENABLE
  let phase := pv ps vs Plan.PHASE_TARGET
  let rest := ps.filter fun q => q.fld.pos != Plan.PHASE_TARGET.pos
  let vals := (ps.zip vs).filterMap fun e => if e.1.fld.pos = Plan.PHASE_TARGET.pos then none else some e.2
  if en = 0 then
    (s.wrParams u rest vals).wrs u [(Plan.PHASE_TARGET, phase), (Plan.PHASE_NOW, phase), (Plan.STATE, planOff), (Plan.stepped, 0), (Plan.slewing, 0)]
  else if !s.planOn p then
    let s1 := (s.wrParams u rest vals).wrs u [(Plan.PHASE_TARGET, phase), (Plan.PHASE_NOW, phase), (Plan.STATE, planAligned), (Plan.stepped, 0), (Plan.slewing, 0)]
    s1.wr u Plan.TICK (s1.tickAt p s1.now)
  else
    let now : Int := s.now
    let from0 := s.phaseAt p now
    let sameTarget := phase == s.rd u Plan.PHASE_TARGET
    let slewing := s.rb u Plan.slewing
    let rateChanged := pv ps vs Plan.SLEW_RATE != s.rd u Plan.SLEW_RATE
    let s1 := if slewing && rateChanged then s.wrs u [(Plan.slewFrom, from0), (Plan.slewAt, now)] else s
    let renumbered := pv ps vs Plan.RASTER != s.rd u Plan.RASTER || pv ps vs Plan.TICK_UNIT != s.rd u Plan.TICK_UNIT ||
      pv ps vs Plan.SWLINE != s.rd u Plan.SWLINE
    let s2 := s1.wrParams u rest vals
    let s3 := if renumbered then s2.renumber s p else s2
    if sameTarget then s3 else s3.changePhase p (if renumbered then s3.tickAt p now else n) phase

def judgePlancfg (i : Issue) (s : State) : Judged :=
  let ps := Plan.plancfgParams
  let pr := getParams ps false i
  let vs := pr.getD []
  let ps' := targets i 0x32 (U.plan 0) 16
  let p := (ps'.getD []).headD 0
  let u := U.plan p
  let changed := fun f => pv ps vs f != s.rd u f
  let on := s.planOn p
  let tp := s.thn i.th Lamp.PLAN
  let off := pv ps vs Plan.ENABLE == 0
  { checks := [(.format, i.badFlags true false true false || pr.isNone),
      (.range, ps'.isNone || !planRange vs),
      (.locked, on && ((s.planInUse p && (changed Plan.RASTER || changed Plan.SWLINE || changed Plan.TICK_UNIT || off)) ||
        (off && s.planStaged p)))]
    verdict := if on then .stage [⟨p, 0, [⟨u, 0⟩], [], .cfg 0x50 p 0 vs⟩]
      else if s.planOn tp then .stage [⟨tp, 0, [⟨u, 0⟩], [], .cfg 0x50 p 0 vs⟩]
      else .act (s.commitPlancfg p 0 vs) }
def execPlancfg (i : Issue) (s : State) : Res := .next (s.issue i (.ticked 0x50) (judgePlancfg i))

/-- The slew of a plan has reached its target (R384). -/
def execPlanSlewComplete (dt p : Nat) (s0 : State) : Res :=
  let s := s0.after dt
  let u := U.plan p
  let target := s.rd u Plan.PHASE_TARGET
  .next (s.ifUp [U.plan p] (if s.rb u Plan.slewing ∧ s.phaseAt p s.now = target * Config.ns then
      s.wrs u [(Plan.STATE, if s.rb u Plan.stepped then planStepped else planAligned), (Plan.PHASE_NOW, target), (Plan.slewing, 0)]
    else s))

/-- Enter a new most recent tick `n` of plan `p`: the TICK field, the end of STEPPED, and the counts of waiting
threads bound to the plan (R61, R65, R452). -/
def State.enterTick (s : State) (p : Nat) (n : Int) : State :=
  let u := U.plan p
  let prev := s.rd u Plan.TICK
  let s1 := s.wr u Plan.TICK n
  let s2 := if s1.rb u Plan.stepped && decide (s1.rd u Plan.minTick + 1 ≤ n) then s1.wrs u [(Plan.stepped, 0), (Plan.STATE, if s1.rb u Plan.slewing then planSlewing else planAligned)] else s1
  let passed := if s.rb u Plan.stepped then 1 else max 1 (n - prev)
  (List.range 64).foldl (fun a t =>
    if a.th t Lamp.STATE == thTickWait && a.thn t Lamp.waitKind == 1 && a.thn t Lamp.PLAN == p
    then a.setTh t Lamp.waitVal (max 0 (a.th t Lamp.waitVal - passed)) else a) s2

end Sys2Proof.Machine
end

