-- ==== Sys2Proof/Machine/Tower.lean ====
section
/-!
DEFINITION. The Tower: reference candidates, their qualification and selection, the state machine, steps of system time,
steering, clock outputs, and the stop of clock domains (R47, R366 to R387, R510).
-/
namespace Sys2Proof.Machine

/-! ### Bookkeeping -/

/-- Pins that leave the block, by number: TOWER_ST, CLKOUT, TT, ROLE_OUT, TWIN_OK, ATTN_N, TAKE_OUT and the power pins. -/
abbrev pinTowerSt : Nat := 0x100
abbrev pinTt (n : Nat) : Nat := 0x110 + n
abbrev pinRoleOut : Nat := 0x120
abbrev pinTwinOk : Nat := 0x121

/-- Candidate number of none. -/
abbrev noCand : Nat := 15
/-- Frequency term of system time against LOSC nominal (ppt); whether the last tracked candidate was TIME; a selection
has been made since reset; in lock since, out of limits since (in `clk` plus one; 0 neither); the candidate the ACTIVE
twin names; when PHASE_PENDING was last brought up to date. -/
def Tower.freq : Field := ⟨300, 0, true, 0⟩
def Tower.fromTime : Field := ⟨301, 1, false, 0⟩
def Tower.first : Field := ⟨302, 1, false, 0⟩
def Tower.okSince : Field := ⟨303, 0, false, 0⟩
def Tower.badSince : Field := ⟨304, 0, false, 0⟩
def Tower.twinSel : Field := ⟨305, 0, false, 15⟩
def Tower.pendAt : Field := ⟨306, 0, false, 0⟩
/-- Number, plus one, of the 1 ms block in which system time stepped last. -/
def Tower.stepBlock : Field := ⟨307, 0, true, 0⟩
/-- Of a candidate: e in grains, the last valid marker (system time, plus one), the FREQ relation, whether a marker is
known, seconds in a row with a missing marker, when it became QUALIFIED (`clk`), and a measured FREQ this second. -/
def Cand.e : Field := ⟨300, 0, true, 0⟩
def Cand.last : Field := ⟨301, 0, true, 0⟩
def Cand.rel : Field := ⟨302, 0, true, 0⟩
def Cand.missed : Field := ⟨303, 0, false, 0⟩
def Cand.qualAt : Field := ⟨304, 0, false, 0⟩
def Cand.hasRel : Field := ⟨305, 1, false, 0⟩

def TTab.prio (c : Nat) : Field := ⟨TTab.PRIO0.pos + c, 4, false, 0⟩

abbrev cdDisabled : Int := 0
abbrev cdMissing : Int := 1
abbrev cdQualifying : Int := 2
abbrev cdQualified : Int := 3
abbrev cdFailed : Int := 4
abbrev twFreerun : Int := 0
abbrev twAcquire : Int := 1
abbrev twLocked : Int := 2
abbrev twHoldover : Int := 3
abbrev twRefswitch : Int := 4
abbrev twFault : Int := 7

/-- Class of a candidate: 0 TIME, 1 PHASE, 2 FREQ (Table 13.1). -/
def candClass (c : Nat) : Nat := if c = 6 ∨ c = 7 then 0 else if c = 4 ∨ c = 5 then 2 else 1
/-- Marker period P in grains (Table 13.1), for a format and raster; `logSync` for PTP. -/
def candPeriod (c fmt ras : Nat) (logSync : Int) : Nat :=
  if c ≤ 3 then
    match fmt with
    | 0 => (raster ras).frame | 1 => (raster ras).frame / 2 | 2 => (raster ras).line | _ => Config.second
  else if c ≤ 5 then
    match fmt with
    | 0 => 100 * Config.ns | 1 => Config.second / 27000000 | 2 => Config.second / 148500000 | _ => Config.second / 148500000 * 1001 / 1000
  else if c ≤ 7 then (if 0 ≤ logSync then Config.second * 2 ^ logSync.toNat else Config.second / 2 ^ (-logSync).toNat)
  else (raster ras).frame
def State.candP (s : State) (c : Nat) : Nat :=
  candPeriod c (s.rn (U.cand c) Cand.FORMAT) (s.rn (U.cand c) Cand.RASTER) (s.rd (U.ptp (c - 6)) Ptp.LOG_SYNC)
def State.candState (s : State) (c : Nat) : Int := s.rd (U.cand c) Cand.STATE
def State.tower (s : State) (f : Field) : Int := s.rd U.tower f
def State.towerN (s : State) (f : Field) : Nat := s.rn U.tower f
def State.activeTable (s : State) : Nat := U.towerTable (s.towerN Tower.ACTIVE_TABLE_CFG)
/-- Priority of a candidate in the active table. -/
def State.candPrio (s : State) (c : Nat) : Nat := s.rn s.activeTable (TTab.prio c)
/-- Base against which frequencies are measured, in ppt (R370). -/
def State.monitorBase (s : State) : Int := if s.towerN Tower.HISTORY < 60 then s.tower Tower.FREQ_TRIM else s.tower Tower.FREQ_HOLD

/-- Pairs of a marker's system time and its own time. -/
def markersOf : List Int → List (Int × Int)
  | x :: y :: t => (x, y) :: markersOf t
  | _ => []
/-- Markers are stamped to 0.1 ns (R369), rounded down (DESIGN CHOICE, notes/assumptions/93.md). -/
def stampMarker (t : Int) : Int := t / (Config.ns / 10) * (Config.ns / 10)

/-! ### Holdover average (R380) -/

/-- FREQ_HOLD is the mean over the last HOLD_WINDOW seconds of LOCKED time that list 0 holds. -/
def State.holdMean (s : State) : State :=
  let l := s.buf U.tower 0
  let win := l.drop (l.length - s.towerN Tower.HOLD_WINDOW)
  if win.isEmpty then s else s.wr U.tower Tower.FREQ_HOLD (Fx.round (win.foldl (· + ·) 0) win.length)
/-- The Tower leaves LOCKED: the last 2 s leave the average. -/
def State.leaveLocked (s : State) : State :=
  let l := s.buf U.tower 0
  if s.tower Tower.STATE = 2 then (s.setBuf U.tower 0 (l.take (l.length - 2))).holdMean else s

/-! ### Bandwidth (R377, R381) -/

/-- Bandwidth of a code, in mHz. -/
def bwOf (code : Nat) : Nat := 10 ^ code
/-- BW_EFF as a fraction of mHz: the lesser of BW and one twentieth of the marker rate. -/
def State.bwEff (s : State) (c : Nat) : Nat × Nat :=
  let bw := bwOf (s.towerN Tower.BW)
  let p := s.candP c
  if bw * 20 * p ≤ 1000 * Config.second then (bw, 1) else (1000 * Config.second, 20 * p)
/-- The code of the largest bandwidth at or below BW_EFF. -/
def State.bwEffCode (s : State) (c : Nat) : Nat :=
  let (n, d) := s.bwEff c
  ((List.range 7).filter fun k => decide (bwOf k * d ≤ n)).foldl max 0
/-- Time for which the conditions of R381 must hold. -/
def State.lockTime (s : State) (c : Nat) : Nat :=
  let (n, d) := s.bwEff c
  max (2 * Config.second) (2000 * Config.second * d * Fx.one.toNat / (n * Fx.pi.toNat))

/-! ### Steps of system time (R378, R379) -/

/-- Microseconds of a step, as the event's detail carries them: signed, saturating. -/
def stepDetail (e : Int) : Nat := ((max (-(2 ^ 31)) (min (2 ^ 31 - 1) (Fx.round e Config.us))) % 2 ^ 32).toNat

/-- Place of the field that holds the last pool instant of an audio source (R359). -/
abbrev Src.lastPos : Nat := 400

/-- System time moves by `e` at once. Every plan counts on the new time, and what waits for it commits at its first tick
after the step as LATE; audio sources begin again as after a gap. -/
def State.stepTime (s : State) (e : Int) : State :=
  let s1 := { s with tsOff := s.tsOff + e }
  let s2 := (List.range 16).foldl (fun (a : State) p =>
    if !a.planOn p then a
    else
      let u := U.plan p
      let t : Int := a.now
      let old := a.planState p
      let b := a.wrs u [(Plan.stepped, 0), (Plan.TICK, a.tickAt p t), (Plan.resolved, 0)]
      let m := b.firstTickAfter p t
      let c := b.wrs u [(Plan.minTick, m), (Plan.stepped, 1), (Plan.STATE, planStepped)]
      let d : State := { c with staged := c.staged.map fun x => if x.plan == p && !x.armed then { x with tick := m.toNat, late := true } else x }
      ((d.cellsOnPlan p).foldl (fun z k => z.count (U.cell k) Ctr.Cell.DISTURBED_FRAMES) d).postEntry u 3 old.toNat 0 0) s1
  let s3 : State := { s2 with regs := s2.regs.filter fun x => x.1.pos != Src.lastPos }
  ((s3.wr U.tower Tower.stepBlock (s3.now / Config.ms + 1 : Nat)).count U.tower Ctr.Tower.STEPS).post U.tower 0x0801 (stepDetail e)

/-! ### State machine (R376, R382) -/

/-- The Tower's state changes: posted, and shown on TOWER_ST (R382, R386). -/
def State.towerTo (s : State) (st : Int) : State :=
  let old := s.tower Tower.STATE
  let sel := s.towerN Tower.SELECTED
  let s1 := s.wrs U.tower [(Tower.STATE, st), (Tower.okSince, 0), (Tower.badSince, 0)]
  let s2 := if old = st || s.held.isSome then s1 else s1.emit (.pin pinTowerSt st.toNat)
  let time := decide (candClass sel = 0) && sel != noCand
  let s3 := s2.wr U.tower Tower.TRACEABLE
    (if (st = twLocked ∨ st = twRefswitch) ∧ time then 1 else if st = twHoldover ∧ s.rb U.tower Tower.fromTime then 1 else 0)
  let s4 := if st = twFreerun then s3.wr U.tower Tower.HISTORY 0 else s3
  s4.post U.tower 0x0800 (detail 0 st.toNat old.toNat sel)

/-- A candidate's e beyond STEP_LIMIT lets system time step where TIME_ALIGN permits it (R378). -/
def State.mayStep (s : State) (c : Nat) (first : Bool) : State :=
  let e := s.rd (U.cand c) Cand.e
  let mode := s.towerN Tower.TIME_ALIGN
  if candClass c ≠ 2 && (mode == 2 || (mode == 1 && first)) && decide ((s.towerN Tower.STEP_LIMIT * Config.us : Nat) < e.natAbs) then
    let s1 := s.stepTime e
    -- every marker known is now seen on the new time
    (List.range 12).foldl (fun (a : State) k =>
      let u := U.cand k
      let b := a.setBuf u 0 ((markersOf (a.buf u 0)).flatMap fun x => [x.1 + e, x.2])
      let l := a.rd u Cand.last
      b.wrs u [(Cand.e, if candClass k = 2 then a.rd u Cand.e else a.rd u Cand.e - e), (Cand.last, if l = 0 then 0 else l + e), (Cand.rel, a.rd u Cand.rel + e)]) s1
  else s

/-- Candidate `c` becomes the selected one (15 none): counters, state and step of R378, R382. -/
def State.selectCand (s : State) (c : Nat) : State :=
  let old := s.towerN Tower.SELECTED
  let st := s.tower Tower.STATE
  if c = old ∨ st = twFault then s
  else
    let s1 := s.leaveLocked.wrs U.tower [(Tower.SELECTED, c), (Tower.fromTime, if old ≠ noCand ∧ candClass old = 0 then 1 else 0)]
    if c = noCand then
      let s3 := s1.wr U.tower Tower.PHASE_ERR 0
      if 60 ≤ s.towerN Tower.HISTORY then (s3.count U.tower Ctr.Tower.HOLDOVER_ENTRIES).towerTo twHoldover
      else (s3.count U.tower Ctr.Tower.FREERUN_ENTRIES).towerTo twFreerun
    else
      let s2 := s1.wr U.tower Tower.BW_EFF (s1.bwEffCode c)
      let s3 := if old = noCand then s2 else s2.count U.tower Ctr.Tower.SWITCHES
      let s5 := s3.towerTo (if st = twLocked ∨ st = twRefswitch then twRefswitch else twAcquire)
      let first := !s.rb U.tower Tower.first && candClass c != 2
      let s6 := if candClass c = 2 then s5 else s5.wr U.tower Tower.first 1
      let s7 := s6.mayStep c first
      s7.wr U.tower Tower.PHASE_ERR (max (-(2 ^ 31)) (min (2 ^ 31 - 1) (s7.rd (U.cand c) Cand.e / Config.ns)))

/-! ### Selection (R373 to R375) -/

def State.selectable (s : State) : List Nat := (List.range 12).filter fun c => s.candState c == cdQualified && s.candPrio c != 0
/-- G: the selectable candidates of the lowest priority number. -/
def State.bestGroup (s : State) : List Nat :=
  let l := s.selectable
  let p := l.foldl (fun m c => min m (s.candPrio c)) 16
  l.filter fun c => s.candPrio c == p
def State.candFreq (s : State) (c : Nat) : Int := s.rd (U.cand c) Cand.FREQ
/-- Two members of G differ in FREQ by more than DISAGREE. -/
def State.groupDisagrees (s : State) (g : List Nat) : Bool :=
  g.any fun a => g.any fun b => decide ((s.towerN Tower.DISAGREE_CFG * 100000 : Nat) < (s.candFreq a - s.candFreq b).natAbs)
/-- Member of `l` whose FREQ (twice it) lies nearest `2 × target`; a tie keeps the present candidate, then the lower. -/
def State.nearest (s : State) (l : List Nat) (target2 : Int) : Nat :=
  let dist := fun c => (2 * s.candFreq c - target2).natAbs
  let best := l.foldl (fun m c => match m with
    | none => some (dist c)
    | some d => some (min d (dist c))) none
  let tied := l.filter fun c => some (dist c) == best
  let cur := s.towerN Tower.SELECTED
  if tied.contains cur then cur else tied.headD noCand
/-- Twice the median FREQ of a group. -/
def State.median2 (s : State) (l : List Nat) : Int :=
  let f := (l.map s.candFreq).mergeSort (fun a b => decide (a ≤ b))
  let n := f.length
  if n % 2 = 1 then 2 * (f.drop (n / 2)).headD 0 else (f.drop (n / 2 - 1)).headD 0 + (f.drop (n / 2)).headD 0
/-- The choice from G (R373, R375). -/
def State.chooseFrom (s : State) (g : List Nat) : Nat :=
  let cur := s.towerN Tower.SELECTED
  if g.isEmpty then noCand
  else if s.groupDisagrees g then
    if g.length = 2 then
      let others := (s.selectable.filter fun c => !g.contains c)
      let p := others.foldl (fun m c => min m (s.candPrio c)) 16
      match others.find? fun c => s.candPrio c == p with
      | some arb => s.nearest g (2 * s.candFreq arb)
      | none => if g.contains cur then cur else g.headD noCand
    else s.nearest g (s.median2 g)
  else if g.contains cur then cur else g.headD noCand

/-- A revertive table may leave the present candidate for G now (R374). -/
def State.revertNow (s : State) (g : List Nat) : Bool :=
  let cur := s.towerN Tower.SELECTED
  s.rb s.activeTable TTab.REVERTIVE && cur != noCand && (match g with
    | c :: _ => decide (s.candPrio c < s.candPrio cur)
    | [] => false) &&
    g.any fun c => decide (s.rn (U.cand c) Cand.qualAt + s.rn s.activeTable TTab.WTR * Config.second ≤ s.clk)
/-- WTR_LEFT in seconds (R374). -/
def State.wtrLeft (s : State) : Nat :=
  let g := s.bestGroup
  let cur := s.towerN Tower.SELECTED
  let better := match g with
    | c :: _ => decide (s.candPrio c < s.candPrio cur)
    | [] => false
  if s.rb s.activeTable TTab.REVERTIVE && cur != noCand && better then
    g.foldl (fun m c => min m ((s.rn (U.cand c) Cand.qualAt + s.rn s.activeTable TTab.WTR * Config.second - s.clk + Config.second - 1) / Config.second)) 1023
  else 0

/-- DISAGREE follows G (R375). -/
def State.noteDisagree (s : State) : State :=
  let d := s.groupDisagrees s.bestGroup
  if d && !s.rb U.tower Tower.DISAGREE then ((s.wr U.tower Tower.DISAGREE 1).count U.tower Ctr.Tower.DISAGREE_ENTRIES).post U.tower 0x0802 0
  else if d then s else s.wr U.tower Tower.DISAGREE 0

/-- The Tower selects again (R373, R376). `table` tells a change of the active table, `window` the end of a 1 s window. -/
def State.reselect (s : State) (table window : Bool) : State :=
  if s.tower Tower.STATE = twFault then s
  else
    let s0 := s.noteDisagree
    let cur := s0.towerN Tower.SELECTED
    let tw := s0.towerN Tower.twinSel
    if s0.isStandby && decide (tw < 12) && s0.candState tw == cdQualified then s0.selectCand tw
    else
      let g := s0.bestGroup
      let held := s0.selectable.contains cur
      let new :=
        if !held || table then s0.chooseFrom g
        else if s0.revertNow g then s0.chooseFrom g
        else if window && g.contains cur && s0.groupDisagrees g then s0.chooseFrom g
        else cur
      if new = cur then s0
      else
        let s1 := s0.selectCand new
        if s0.isStandby then (s1.count U.tower Ctr.Tower.TWIN_SELECT_OWN).post U.tower 0x0803 new else s1

/-! ### Qualification (R371) -/

/-- A candidate leaves QUALIFIED, or QUALIFYING, for `st`, with a cause of Table 13.11. -/
def State.candLeave (s : State) (c : Nat) (st : Int) (cause : Nat) : State :=
  let u := U.cand c
  let old := s.candState c
  let s1 := s.wrs u [(Cand.STATE, st), (Cand.QUAL_LEFT, if st = cdQualifying then s.rd u Cand.QUAL_TIME else 0)]
  if old = cdQualified then
    ((s1.wr u Cand.CAUSE cause).count u Ctr.Cand.DISQUALIFICATIONS).post u 0x0805 (detail 0 st.toNat old.toNat cause)
  else s1

/-- The markers of a candidate are missing: it is MISSING, and the Tower selects again. -/
def State.candLost (s : State) (c cause : Nat) : State :=
  if s.candState c = cdDisabled ∨ s.candState c = cdMissing then s
  else (((s.candLeave c cdMissing cause).wrs (U.cand c) [(Cand.last, 0), (Cand.hasRel, 0), (Cand.missed, 0)]).setBuf (U.cand c) 0 []).reselect false false

/-- In lock, or beyond the limits of Table 13.8: since when. -/
def State.noteLock (s : State) (ok bad : Bool) : State :=
  s.wrs U.tower [(Tower.okSince, if ok then (if s.rb U.tower Tower.okSince then s.tower Tower.okSince else s.clk + 1) else 0),
    (Tower.badSince, if bad then (if s.rb U.tower Tower.badSince then s.tower Tower.badSince else s.clk + 1) else 0)]

/-- A valid marker of candidate `c` at system time `at_`, with the candidate's own time of it and e (R369, R371). -/
def State.validMarker (s : State) (c : Nat) (at_ own e : Int) : State :=
  let u := U.cand c
  -- markers of the last 10 s where P is 0.5 s or more, else the first and the last of the running 1 s window (R370)
  let kept := if Config.second ≤ 2 * s.candP c then (s.buf u 0).drop (if (s.buf u 0).length < 42 then 0 else 2) else (s.buf u 0).take 2
  let s1 := s.setBuf u 0 (kept ++ [at_, own])
  let s2 := s1.wrs u [(Cand.last, at_ + 1), (Cand.e, e), (Cand.PHASE_ERR, max (-(2 ^ 31)) (min (2 ^ 31 - 1) (e / Config.ns)))]
  let s3 := if s.candState c = cdMissing then s2.candLeave c cdQualifying 0 else s2
  if s3.towerN Tower.SELECTED = c then
    let s4 := s3.wr U.tower Tower.PHASE_ERR (max (-(2 ^ 31)) (min (2 ^ 31 - 1) (e / Config.ns)))
    if candClass c = 2 then s4 else s4.noteLock (decide (e.natAbs ≤ 100 * Config.ns)) (decide (Config.us < e.natAbs))
  else s3

/-- Reduced modulo P to (-P/2, +P/2]. -/
def centred (x : Int) (p : Nat) : Int := let r := x % p; if (p : Int) < 2 * r then r - p else r

/-- A marker of a PHASE or FREQ candidate now: valid, or spurious (R369, R371). -/
def State.marker (s : State) (c : Nat) : State :=
  let u := U.cand c
  let t : Int := stampMarker s.now
  let p := s.candP c
  let last := s.rd u Cand.last - 1
  let gap := t - last
  let k := (2 * gap + p) / (2 * p)
  let ok := s.rd u Cand.last = 0 ∨ (1 ≤ k ∧ k ≤ 3 ∧ ((gap - k * p).natAbs : Int) * 1000 ≤ (p : Int) + 50000 * Config.ns)
  if s.candState c = cdDisabled then s
  else if !decide ok then (s.count u Ctr.Cand.SPURIOUS_MARKERS).wr u Cand.missed 1
  else
    let n := if s.rd u Cand.last = 0 then 1 else k
    let s0 := if 1 < n then (s.countBy u Ctr.Cand.MISSING_MARKERS (n - 1).toNat).wr u Cand.missed 1 else s
    let own := if s.rd u Cand.last = 0 then t else ((s.buf u 0).getLast?.getD t) + n * p
    if candClass c = 2 then
      let s1 := if s0.rb u Cand.hasRel then s0 else s0.wrs u [(Cand.hasRel, 1), (Cand.rel, t)]
      s1.validMarker c t own (-(centred (t - s1.rd u Cand.rel) p))
    else s0.validMarker c t own (-(centred (t - s.rd u Cand.OFFSET * Config.ns) p))

/-- A marker is seen on the pin of candidate C0 to C5 (R366, R369); PTP instances and tributary seats bring their own. -/
def execRefMarker (dt cand : Nat) (s0 : State) : Res :=
  let s := s0.after dt
  .next (s.ifUp [U.tower] (if 6 ≤ cand ∨ s.tower Tower.STATE = twFault then s else s.marker cand))

/-- Of a Kerb: lines of the last whole frame, and its length in grains (0 before one). -/
def Kerb.lastLines : Field := ⟨312, 0, false, 0⟩
def Kerb.frameDur : Field := ⟨314, 0, false, 0⟩
/-- What a tributary seat shows of its raster agrees with `ras`: the rate class, the lines and the period of its last frame
(R366, R371). -/
def State.seatShows (s : State) (seat ras : Nat) : Bool :=
  let k := U.kerb seat
  let r := raster ras
  (s.rn (U.trib seat) Trib.RX_RATE == 0 || s.rn (U.trib seat) Trib.RX_RATE == r.rate + 1) &&
    (s.rn k Kerb.lastLines == 0 || s.rn k Kerb.lastLines == r.lines) &&
    (s.rn k Kerb.frameDur == 0 || decide (2000 * ((s.rd k Kerb.frameDur - r.frame).natAbs) ≤ r.frame))
/-- The first EAV word of line 1 reaches the Kerb of a tributary seat: a marker of each of C8 to C11 that names it (R366). -/
def State.seatMarker (s : State) (seat : Nat) : State :=
  if s.tower Tower.STATE = twFault ∨ s.unitBad U.tower then s
  else [8, 9, 10, 11].foldl (fun (a : State) c =>
    if a.candState c = cdDisabled ∨ a.rn (U.cand c) Cand.SEAT ≠ seat then a
    else if a.seatShows seat (a.rn (U.cand c) Cand.RASTER) then a.marker c
    else a.candLost c 3) s

/-- FREQ of a candidate over the window that ends now, in ppt, from the first and last markers in it (R370). -/
def State.measuredFreq (s : State) (c : Nat) : Option Int :=
  let w := if Config.second ≤ 2 * s.candP c then 10 * Config.second else Config.second
  let l := (markersOf (s.buf (U.cand c) 0)).filter fun x => decide ((s.now : Int) - w ≤ x.1)
  match l.head?, l.getLast? with
  | some a, some b =>
    let ds := b.1 - a.1
    if ds = 0 then none
    else
      -- own time over system time, then system time over the monitor base
      let num := (b.2 - a.2) * (10 ^ 12 + s.tower Tower.freq)
      let den := ds * (10 ^ 12 + s.monitorBase)
      some (Fx.round ((num - den) * 10 ^ 12) den)
  | _, _ => none

/-- One candidate at the end of a 1 s window (R371). -/
def State.windowCand (s : State) (c : Nat) : State :=
  let u := U.cand c
  if s.candState c = cdDisabled ∨ s.candState c = cdMissing then s
  else
    let s1 := match s.measuredFreq c with
      | some f => s.wr u Cand.FREQ (max (-(2 ^ 31)) (min (2 ^ 31 - 1) f))
      | none => s
    let within := decide ((s1.candFreq c).natAbs ≤ s1.rn u Cand.FREQ_LIMIT * 100000)
    let missed := s1.rb u Cand.missed
    let s2 := (s1.wr u Cand.missed 0).setBuf u 0 (if Config.second ≤ 2 * s.candP c then s1.buf u 0 else [])
    match s2.candState c with
    | 2 => s2.wr u Cand.QUAL_LEFT (if within && !missed then s2.rd u Cand.QUAL_LEFT - min 1 (s2.rd u Cand.QUAL_LEFT) else s2.rd u Cand.QUAL_TIME)
    | 3 => if within then s2 else s2.candLeave c cdFailed 2
    | 4 => if within then s2.candLeave c cdQualifying 0 else s2
    | _ => s2

/-! ### The loop (R377, R380, R383) -/

/-- A move of the frequency towards a target at DRIFT_MAX, over one second (ppt). -/
def towards (old target : Int) (most : Nat) : Int := max (old - most) (min (old + most) target)
/-- PHASE_PENDING as it stands now: steering phase leaves at SLEW_RATE (R383). -/
def State.phasePending (s : State) : Int :=
  let v := s.tower Tower.PHASE_PENDING
  let gone : Int := (s.towerN Tower.SLEW_RATE * 10000 * (s.clk - s.towerN Tower.pendAt) / Config.second : Nat)
  if 0 ≤ v then max 0 (v - gone) else min 0 (v + gone)
def State.settlePending (s : State) : State := s.wrs U.tower [(Tower.PHASE_PENDING, s.phasePending), (Tower.pendAt, s.clk)]

/-- The frequency term over one second: it follows the selected candidate (how fast within DRIFT_MAX is left open), or
moves to FREQ_HOLD or FREQ_TRIM; the phase term adds at most SLEW_RATE (R377, R382; notes/assumptions/21.md). -/
def State.loopSecond (s : State) : State :=
  let most := s.towerN Tower.DRIFT_MAX * 1000
  let old := s.tower Tower.freq
  let slew : Int := s.towerN Tower.SLEW_RATE * 10000
  let st := s.tower Tower.STATE
  if st = twAcquire ∨ st = twLocked ∨ st = twRefswitch then
    let (v, s1) := s.free (2 * most + 1)
    let (p, s2) := s1.free (2 * slew.toNat + 1)
    let f := max (-200000000) (min 200000000 (old + (v : Int) - most))
    s2.wrs U.tower [(Tower.freq, f), (Tower.FREQ_NOW, max (-200000000) (min 200000000 (f + (p : Int) - slew)))]
  else
    let f := towards old (if st = twHoldover then s.tower Tower.FREQ_HOLD else s.tower Tower.FREQ_TRIM) most
    let pend := s.phasePending
    s.wrs U.tower [(Tower.freq, f), (Tower.FREQ_NOW, max (-200000000) (min 200000000 (f + (if 0 < pend then slew else if pend < 0 then -slew else 0))))]

/-- One second of LOCKED time enters the average of R380. -/
def State.historySecond (s : State) : State :=
  if s.tower Tower.STATE ≠ twLocked then s
  else
    -- the longest window and the 2 s that an exit may take back
    let l := s.buf U.tower 0 ++ [s.tower Tower.FREQ_NOW]
    ((s.setBuf U.tower 0 (l.drop (l.length - 3602))).wr U.tower Tower.HISTORY (min (2 ^ 32 - 1) (s.tower Tower.HISTORY + 1))).holdMean

/-- The end of a 1 s window of system time (R370, R371, R374, R375, R380). -/
def execFreqWindow (dt : Nat) (s0 : State) : Res :=
  let s := s0.after dt
  .next (s.ifUp [U.tower] (if s.now % Config.second ≠ 0 ∨ s.tower Tower.STATE = twFault then s
    else
      let s1 := (List.range 12).foldl State.windowCand s
      let s2 := (s1.historySecond.loopSecond).settlePending
      let sel := s2.towerN Tower.SELECTED
      let s3 := if sel < 12 ∧ candClass sel = 2 then
          let err := s2.candFreq sel + s2.monitorBase - s2.tower Tower.freq
          s2.noteLock (decide (err.natAbs ≤ 10000)) (decide (100000 < err.natAbs))
        else s2
      let s4 := s3.reselect false true
      s4.wr U.tower Tower.WTR_LEFT s4.wtrLeft))

/-- A QUALIFYING candidate has completed QUAL_TIME (R371). -/
def execCandQualified (dt cand : Nat) (s0 : State) : Res :=
  let s := s0.after dt
  let u := U.cand cand
  .next (s.ifUp [U.tower] (if 12 ≤ cand ∨ s.candState cand ≠ cdQualifying ∨ s.rn u Cand.QUAL_LEFT ≠ 0 then s
    else
      let s1 := ((s.wrs u [(Cand.STATE, cdQualified), (Cand.qualAt, s.clk)]).count u Ctr.Cand.QUALIFICATIONS).post u 0x0804 0
      let s2 := s1.reselect false false
      s2.wr U.tower Tower.WTR_LEFT s2.wtrLeft))

/-- PTP loss pending for the candidate of an instance (R397), with its cause. -/
def Ptp.lost : Field := ⟨300, 0, false, 0⟩

/-- A candidate's markers are missing, its input reports loss, or its seat shows a raster other than RASTER (R371). -/
def execCandMissing (dt cand : Nat) (s0 : State) : Res :=
  let s := s0.after dt
  let u := U.cand cand
  let kerb := s.rd (U.kerb (s.rn u Cand.SEAT)) Kerb.STATE
  let reported := (candClass cand == 0 && s.rb (U.ptp (cand - 6)) Ptp.lost) || (decide (8 ≤ cand) && (kerb == 4 || kerb == 5))
  let late := s.rd u Cand.last ≠ 0 ∧ 13 * (s.candP cand : Int) ≤ 4 * ((s.now : Int) - (s.rd u Cand.last - 1))
  .next (s.ifUp [U.tower] (if 12 ≤ cand then s
    else if reported then s.candLost cand 4
    else if decide (8 ≤ cand) && !s.seatShows (s.rn u Cand.SEAT) (s.rn u Cand.RASTER) then s.candLost cand 3
    else if late then (s.countBy u Ctr.Cand.MISSING_MARKERS 3).candLost cand 1
    else s))

/-- Wait-to-restore has ended (R374). -/
def execWtrExpiry (dt : Nat) (s0 : State) : Res :=
  let s := s0.after dt
  let s1 := s.reselect false false
  .next (s.ifUp [U.tower] (s1.wr U.tower Tower.WTR_LEFT s1.wtrLeft))

/-- The Tower has been in lock for the time of R381 and enters LOCKED (R382). -/
def execTowerInLock (dt : Nat) (s0 : State) : Res :=
  let s := s0.after dt
  let st := s.tower Tower.STATE
  let since := s.towerN Tower.okSince
  .next (s.ifUp [U.tower] (if (st = twAcquire ∨ st = twRefswitch) ∧ since ≠ 0 ∧ since - 1 + s.lockTime (s.towerN Tower.SELECTED) ≤ s.clk then s.towerTo twLocked
    else s))

/-- A LOCKED Tower whose error has passed the limits for 1 s acquires again (Table 13.8). -/
def execTowerReacquire (dt : Nat) (s0 : State) : Res :=
  let s := s0.after dt
  let since := s.towerN Tower.badSince
  .next (s.ifUp [U.tower] (if s.tower Tower.STATE = twLocked ∧ since ≠ 0 ∧ since - 1 + Config.second ≤ s.clk then
      ((s.leaveLocked.count U.tower Ctr.Tower.REACQUIRES).towerTo twAcquire).mayStep (s.towerN Tower.SELECTED) false
    else s))

/-! ### Instructions (R367, R368, R372, R377, R383, R387) -/

def towercandChecks (s : State) (vs : List Int) (c : Nat) : Checks :=
  let ps := Cand.towercandParams
  let n := pn ps vs
  let u := U.cand c
  let fmt := n Cand.FORMAT
  let p := candPeriod c fmt (n Cand.RASTER) (s.rd (U.ptp (c - 6)) Ptp.LOG_SYNC)
  let off := pv ps vs Cand.OFFSET
  let limit : Int := if candClass c = 0 then 1000000000 else (p / 2 / Config.ns : Nat)
  let changed := [Cand.FORMAT, Cand.RASTER, Cand.EDGE, Cand.SEAT].any fun f => pv ps vs f != s.rd u f
  [(.range, !paramsOk ps vs || (decide (6 ≤ c) && fmt != 0) || !rasterOk (n Cand.RASTER) ||
      (decide (c ≤ 3) && fmt == 1 && !interlaced (n Cand.RASTER)) || decide (off < -limit) || decide (limit < off) ||
      (decide (c ≤ 7) && n Cand.SEAT != 0)),
   (.locked, changed && s.towerN Tower.SELECTED == c)]

def judgeTowercand (i : Issue) (s : State) : Judged :=
  let ps := Cand.towercandParams
  let pr := getParams ps false i
  let vs := pr.getD []
  let ts := targets i 0x41 (U.cand 0) 12
  { checks := (.format, i.badFlags true false true false || pr.isNone) :: eachTarget ts (towercandChecks s vs)
    verdict := .act ((ts.getD []).foldl (fun (a : State) c =>
      let u := U.cand c
      let hard := [Cand.FORMAT, Cand.RASTER, Cand.EDGE, Cand.SEAT].any fun f => pv ps vs f != s.rd u f
      let en := pv ps vs Cand.ENABLE
      let b := a.wrParams u ps vs
      if en = 0 then (((b.candLeave c cdDisabled 0).wrs u [(Cand.last, 0), (Cand.hasRel, 0)]).setBuf u 0 []).reselect false false
      else if a.candState c = cdDisabled then b.wr u Cand.STATE cdMissing
      else if hard then b.candLost c 0 else b) s) }
def execTowercand (i : Issue) (s : State) : Res := .next (s.issue i .other (judgeTowercand i))

/-- PRIORITY of each candidate in the active table. -/
def State.showPriorities (s : State) : State := (List.range 12).foldl (fun a c => a.wr (U.cand c) Cand.PRIORITY (a.candPrio c)) s

def judgeTowertable (i : Issue) (s : State) : Judged :=
  let ps := TTab.towertableParams
  let pr := getParams ps false i
  let vs := pr.getD []
  let ts := elements i 4
  let t := (ts.getD []).headD 0
  let s1 := (s.wrParams (U.towerTable t) ps vs).showPriorities
  { checks := (.format, i.badFlags true false true false || pr.isNone) :: eachTarget ts fun _ => [(.range, !paramsOk ps vs)]
    verdict := .act (if t = s.towerN Tower.ACTIVE_TABLE_CFG then s1.reselect true false else s1) }
def execTowertable (i : Issue) (s : State) : Res := .next (s.issue i .other (judgeTowertable i))

def judgeTowercfg (i : Issue) (s : State) : Judged :=
  let ps := Tower.towercfgParams
  let pr := getParams ps false i
  let vs := pr.getD []
  let table := pv ps vs Tower.ACTIVE_TABLE_CFG
  let s1 := ((s.settlePending.wrParams U.tower ps vs).wr U.tower Tower.ACTIVE_TABLE table).showPriorities
  let sel := s1.towerN Tower.SELECTED
  let s2 := s1.wr U.tower Tower.BW_EFF (if sel < 12 then s1.bwEffCode sel else s1.towerN Tower.BW)
  { checks := [(.format, i.badFlags true false true false || pr.isNone), (.range, i.group || i.index != 0 || !paramsOk ps vs)]
    verdict := .act (if table = s.tower Tower.ACTIVE_TABLE_CFG then s2 else s2.reselect true false) }
def execTowercfg (i : Issue) (s : State) : Res := .next (s.issue i .other (judgeTowercfg i))

def Steer.TRIM : Field := ⟨0, 32, true, 0⟩
def Steer.STEP : Field := ⟨1, 32, true, 0⟩
def Steer.SECS : Field := ⟨2, 48, false, 0⟩
def Steer.params : List Param := [⟨Steer.TRIM, -(2 ^ 31), 2 ^ 31 - 1, none⟩, ⟨Steer.STEP, -(2 ^ 31), 2 ^ 31 - 1, none⟩, ⟨Steer.SECS, 0, 2 ^ 48 - 1, none⟩]

/-- `towersteer`: each bit of SUB makes its field act (R383, Table 16.6). -/
def judgeSteer (i : Issue) (s : State) : Judged :=
  let ps := Steer.params
  let pr := getParams ps true i
  let vs := pr.getD []
  let (trim, step, secs) := (pv ps vs Steer.TRIM, pv ps vs Steer.STEP, pn ps vs Steer.SECS)
  let (doTrim, doStep, doSecs) := (bitAt i.sub 0, bitAt i.sub 1, bitAt i.sub 2)
  let sel := s.towerN Tower.SELECTED
  let st := s.tower Tower.STATE
  let phaseFree := st == twFreerun || st == twHoldover || (decide (sel < 12) && candClass sel == 2)
  let anyPlan := (List.range 16).any s.planOn
  let s1 := if doTrim then s.wr U.tower Tower.FREQ_TRIM trim else s
  let s2 := if doStep then
      let b := s1.settlePending
      b.wr U.tower Tower.PHASE_PENDING (max (-(2 ^ 31)) (min (2 ^ 31 - 1) (b.tower Tower.PHASE_PENDING + step)))
    else s1
  let s3 := if doSecs then
      let left := Config.second - s2.now % Config.second
      { s2 with setAt := s2.clk + left, setBy := ((secs : Int) - (s2.nowS + 1 : Nat)) * Config.second }
    else s2
  { checks := [(.format, i.badFlags true false true false || pr.isNone || decide (8 ≤ i.sub)), (.range, i.group || i.index != 0 ||
        (doTrim && (decide (trim < -200000000) || decide (200000000 < trim)))),
      (.locked, (doStep && !phaseFree) || (doSecs && (anyPlan || (decide (sel < 12) && candClass sel == 0))))]
    verdict := .act s3 }

/-- `towersteer` whose TRIM acts (R383). -/
def execFreqTrim (i : Issue) (s : State) : Res := .next (s.issue i .other (judgeSteer i))
/-- `towersteer` whose STEP acts (R383). -/
def execPhaseStep (i : Issue) (s : State) : Res := .next (s.issue i .other (judgeSteer i))
/-- `towersteer` whose SET acts (R383). -/
def execSeconds (i : Issue) (s : State) : Res := .next (s.issue i .other (judgeSteer i))

def judgeClkoutcfg (i : Issue) (s : State) : Judged :=
  let ps := ClkOut.clkoutcfgParams
  let pr := getParams ps false i
  let vs := pr.getD []
  let ts := targets i 0x46 (U.clkout 0) 2
  { checks := (.format, i.badFlags true false true false || pr.isNone) :: eachTarget ts fun _ => [(.range, !paramsOk ps vs), (.nounit, pv ps vs ClkOut.SOURCE == 7 && !s.planOn (pn ps vs ClkOut.PLAN))]
    verdict := .act ((ts.getD []).foldl (fun a n => a.wrParams (U.clkout n) ps vs) s) }
def execClkoutcfg (i : Issue) (s : State) : Res := .next (s.issue i .other (judgeClkoutcfg i))

/-- Level of CLKOUT `n` at present (R387). LOSC is not system time; its level is not a function of the state. -/
def State.clkoutLevel (s : State) (n : Nat) : Option Bool :=
  let u := U.clkout n
  let src := s.rn u ClkOut.SOURCE
  let t : Int := (s.now : Int) - s.rd u ClkOut.OFFSET * Config.ns
  let square := fun (p : Nat) => decide (t % p * 2 < p)
  if src = 1 then none
  else if s.tower Tower.STATE = twFault ∨ (s.rb u ClkOut.SQUELCH ∧ s.tower Tower.STATE ≠ twLocked) then some false
  else match src with
    | 2 => some (square (100 * Config.ns))
    | 3 => some (square (Config.second / 27000000))
    | 4 => some (square (Config.second / 148500000))
    | 5 => some (square (Config.second / 148500000 * 1001 / 1000))
    | 6 => some (decide (t % Config.second < Config.us))
    | 7 =>
      let p := s.rn u ClkOut.PLAN
      some (s.planOn p && decide ((t - s.phaseAt p t) % (s.planRas p).frame < Config.us))
    | _ => some false

/-! ### Stopped clocks (R47, R510) -/

/-- A clock domain stops: every unit of it is in FAULT; stopped Lamplighter clocks fault the threads. -/
def State.stopDomain (s : State) (d : Nat) : State :=
  let m := s.rn U.power deadClocksF
  let s1 := if bitAt m d then s else s.wr U.power deadClocksF (m + 2 ^ d)
  if d = 2 then (List.range 64).foldl (fun a t => a.setTh t Lamp.STATE thFault) s1 else s1

/-- LOSC stops or leaves its range (R47): only the Lantern domain goes on, until reset. Or, with `synth`, a synthesiser of
the Tower loses lock while LOSC runs: the Tower alone is in FAULT (Table 13.8). -/
def execLoscFailure (dt : Nat) (synth : Bool) (s0 : State) : Res :=
  let s := s0.after dt
  .next (if s.tower Tower.STATE = twFault then s
    else if synth then (s.post U.tower evHardwareFault (detail 0 7 (s.tower Tower.STATE).toNat 0)).towerTo twFault
    else
      let s1 := [0, 1, 2, 3, 4].foldl State.stopDomain s
      (s1.post U.tower evHardwareFault (detail 0 7 (s.tower Tower.STATE).toNat 0)).towerTo twFault)

/-- A watched clock has had no edge for 10 µs (R510): 0 Square, 1 Mill, 2 Lamplighter, 3 Steward, 4 lane PCS. -/
def execClockStopped (dt domain : Nat) (s0 : State) : Res :=
  let s := s0.after dt
  .next (if 5 ≤ domain then s else (s.stopDomain domain).post U.host 0x0A12 (domain * 2 ^ 24))

end Sys2Proof.Machine
end

