-- ==== Sys2Proof/Machine/Kerbs.lean ====
section
/-!
DEFINITION. Kerbs: configuration, arrival error, states, the lines that seats offer, concealment and ingest checks (R66 to R72,
R131, R185, R186, R593).
-/
namespace Sys2Proof.Machine

/-! Kerb bookkeeping: instant of the last valid EAV and the interval before it; an EAV has begun a line; number of the line under
way, and the line number read last (0 none); runs of wrong length and of SAV at the other width; lines of the present frame since its
line 1 (0 before one has been seen); a raster mismatch, an E outside the window and a line that did not
match in the present frame; a whole frame has matched; instant of the last frame start; payload ID read last (plus one) and
until when it counts as valid; audio groups of the present frame. -/
def Kerb.lastEav : Field := ⟨300, 0, false, 0⟩
def Kerb.gap : Field := ⟨301, 0, false, 0⟩
def Kerb.badLen : Field := ⟨302, 0, false, 0⟩
def Kerb.badSav : Field := ⟨303, 0, false, 0⟩
def Kerb.lines : Field := ⟨304, 0, false, 0⟩
def Kerb.frameRas : Field := ⟨305, 1, false, 0⟩
def Kerb.ready : Field := ⟨306, 1, false, 0⟩
def Kerb.frameOut : Field := ⟨307, 1, false, 0⟩
def Kerb.frameBad : Field := ⟨308, 1, false, 0⟩
def Kerb.begun : Field := ⟨309, 1, false, 0⟩
def Kerb.cur : Field := ⟨310, 0, false, 0⟩
def Kerb.lastLn : Field := ⟨311, 0, false, 0⟩
def Kerb.frameAt : Field := ⟨313, 0, false, 0⟩
def Kerb.pid : Field := ⟨315, 0, false, 0⟩
def Kerb.pidUntil : Field := ⟨316, 0, false, 0⟩
def Kerb.groups : Field := ⟨317, 8, false, 0⟩
/-! Lists of a Kerb: 21 words received and not yet a whole line, each plus 1,024 where what carried it was broken (R193, R216, R218);
22 running CRC of each stream; of a source bundle, 0: frame and line of each line replaced (R131). -/
abbrev kerbFifo : Nat := 21
abbrev kerbRegs : Nat := 22
/-! Tributary bookkeeping: lines received with an error, modulo 65,536 (R179), words to come whose carrier was broken (R193), and a
reserved value in the slot status (R177). -/
def Trib.rxBad : Field := ⟨300, 16, false, 0⟩
def Trib.broken : Field := ⟨301, 1, false, 0⟩
def Trib.hwRes : Field := ⟨324, 1, false, 0⟩
/-! The two Haywain locks of a lane and the SDI word alignment (R171, R182). -/
def Lane.cwLock : Field := ⟨305, 1, false, 0⟩
def Lane.frameLock : Field := ⟨306, 1, false, 0⟩
def Lane.aligned : Field := ⟨307, 1, false, 0⟩

abbrev kEmpty : Int := 0
abbrev kAcquiring : Int := 1
abbrev kAligned : Int := 2
abbrev kOutside : Int := 3
abbrev kRaster : Int := 4
abbrev kLost : Int := 5

/-- Kerb minimum fill plus the Square pipeline: 153.6 ns (R67). -/
def kerbLead : Int := 1536 * Config.ns / 10

/-- Arrival error E of a line begun now against plan `p`, reduced to (-T/2, +T/2] (R67, Table 2.7). -/
def State.arrivalError (s : State) (p line : Nat) : Int :=
  let r := s.planRas p
  let T : Int := r.frame
  let t : Int := s.now
  let nominal0 := s.phaseAt p t - kerbLead - kerbWindow (s.planRaster p) + ((line : Int) - 1) * r.line
  let e := (t - nominal0) % T
  if 2 * e > T then e - T else e

/-- Rate class of a Kerb's source (R593): as received for a tributary, from its context's RASTER for a packet input. -/
def State.kerbRate (s : State) (k : Nat) : Nat :=
  if k < 1152 then s.rn (U.trib k) Trib.RX_RATE
  else match s.rxOfSeat k with
    | some c => (s.rxRas c).rate + 1
    | none => 0

/-- Audio groups of the lines offered: shown for the frame that ends at line 1 (Table 11.13). -/
def State.noteAudio (s : State) (k : Nat) (first : Bool) (g : Nat) : State :=
  let all := s.rn (U.kerb k) Kerb.groups ||| g
  if first then (s.wr (U.deemb k) Deemb.GROUPS_PRESENT all).wr (U.kerb k) Kerb.groups 0 else s.wr (U.kerb k) Kerb.groups all

/-- Enter a Kerb state; OUTSIDE, RASTER and LOST are counted and posted (R69). EMPTY and LOST offer no VALID beats (R68), so FOLLOW
Cells that select the seat stop (R137). -/
def State.kerbEnter (s : State) (k : Nat) (st : Int) : State :=
  let u := U.kerb k
  let old := s.rd u Kerb.STATE
  if old = st then s
  else
    let s1 := s.wr u Kerb.STATE st
    if st = kEmpty then State.followStop 8 k none s1
    else if st = kOutside then (s1.count u Ctr.Kerb.OUTSIDE).postEntry u 3 old.toNat 0 0
    else if st = kRaster then (s1.count u Ctr.Kerb.RASTER).postEntry u 4 old.toNat 0 Code.rate.num
    else if st = kLost then State.followStop 8 k none ((s1.count u Ctr.Kerb.LOSS).postEntry u 5 old.toNat 0 0)
    else s1

/-- Source bundles that hold a seat (R131). -/
def State.sbundlesOf (s : State) (seat : Nat) : List Nat :=
  (s.regs.filterMap fun e => if decide (U.sbundle 0 ≤ e.1.unit) && decide (e.1.unit < U.sbundle 512) &&
    decide (Bundle.M0.pos ≤ e.1.pos) && decide (e.1.pos ≤ Bundle.M3.pos) && e.2 == (seat : Int)
    then some (e.1.unit - U.sbundle 0) else none).eraseDups

/-! ### Seats and what they offer -/

def State.laneN (s : State) (l : Nat) (f : Field) : Nat := s.rn (U.lane l) f
/-- Slots of a lane (Tables 6.1, 6.3). -/
def State.slotCount (s : State) (l : Nat) : Nat :=
  if s.laneN l Lane.MODE = 3 then 1 else match s.laneN l Lane.RATE with | 0 => 8 | 1 => 4 | 2 => 2 | _ => 1

/-- The input of Kerb `k` has a signal to look at: a tributary mapped to a lane of the mode that its slot needs, whose RX side is ACTIVE
and locked and, on Haywain, whose last status carries the seat (R156, R166, R171, R177); a packet input whose context runs (R209). -/
def State.kerbFed (s : State) (k : Nat) : Bool :=
  if k < 1152 then
    let u := U.trib k
    let l := s.rn u Trib.LANE
    let slot := s.rn u Trib.SLOT
    decide (l < 288) && s.laneN l Lane.RX_STATE == 0 && s.rb (U.lane l) Lane.CDR_LOCK &&
      (if s.laneN l Lane.MODE = 1 then
        decide (slot < s.slotCount l) && s.rb (U.lane l) Lane.cwLock && s.rb (U.lane l) Lane.frameLock && !s.rb u Trib.hwRes &&
          (s.rn u Trib.RX_STATE == 1 || s.rn u Trib.RX_STATE == 4)
      else s.laneN l Lane.MODE == 3 && slot == 0 && s.rb (U.lane l) Lane.aligned && s.rn u Trib.RX_STATE == 1)
  else match s.rxOfSeat k with
    | some c => s.rn (U.rx c) Rx.STATE == 3
    | none => false

/-- Words reach the input of a seat, in serial order. -/
def State.seatIn (s : State) (k : Nat) (ws : List Nat) : State :=
  s.setBuf (U.kerb k) kerbFifo (s.buf (U.kerb k) kerbFifo ++ ws.map fun (w : Nat) => (w : Int))

/-- Lines that a seat has offered, newest first. -/
def State.linesOf (s : State) (seat str : Nat) : List SeatLine := Tbl.get ⟨seat, str⟩ [] s.seatLines
def State.setLines (s : State) (seat str : Nat) (l : List SeatLine) : State := { s with seatLines := Tbl.set ⟨seat, str⟩ [] l s.seatLines }
/-- A seat offers a line to the Square; the newest eight stand for what the Kerb and the pipeline hold (R66, R67). -/
def State.offer (s : State) (seat str : Nat) (l : SeatLine) : State := s.setLines seat str ((l :: s.linesOf seat str).take 8)
/-- The newest line of that number. -/
def State.lineOf (s : State) (seat str line : Nat) : Option SeatLine := (s.linesOf seat str).find? fun x => x.line == line

/-! ### Concealment (R70, R71, R131) -/

/-- Sampling that the payload ID of a seat gives, 4:2:2 where it has none (R71). -/
def State.seatSampling (s : State) (k : Nat) : Nat :=
  let u := U.kerb k
  if s.rn u Kerb.pid = 0 ∨ s.rn u Kerb.pidUntil < s.clk then 0 else (pidPayload (s.rn u Kerb.pid - 1)).sampling
/-- The words that replace line `line` of TIMED Kerb `k` (R71): under REPEAT the active picture of the line emitted just before it in
the same field; black where there is none or under BLACK; an empty blanking line. Timing references and line number are made anew,
and the ancillary space is empty. -/
def State.concealWords (s : State) (k line : Nat) : List Nat :=
  let u := U.kerb k
  let id := s.planRaster (s.rn u Kerb.PLAN)
  let r := raster id
  let prev := (s.linesOf k 0).find? fun x => x.line + 1 == line
  let n := r.eav / 4
  let regs := if n = 1 then [] else (prev.map fun x => lineRegs x.words).getD []
  let active := if !isActive id line then none
    else match s.rb u Kerb.CONCEAL, prev with
      | false, some x => if isActive id x.line && lineField id x.line == lineField id line then some (activeWords id x.words) else some (blackActive id (s.seatSampling k))
      | _, _ => some (blackActive id (s.seatSampling k))
  buildLine id n (r.words / n) line active (activeLen id) regs []
/-- Line `line` of Kerb `k`, begun at `time`, is offered replaced. -/
def State.offerConcealed (s : State) (k line time : Nat) (lerr : Bool) : State :=
  s.offer k 0 ⟨line, s.concealWords k line, lerr, false, true, time⟩
/-- The frame of the plan that a line begun at system time `t` belongs to. -/
def State.frameOfLine (s : State) (p line : Nat) (t : Int) : Int :=
  let r := s.planRas p
  let T : Int := r.frame
  let nominal0 := s.phaseAt p t - kerbLead - kerbWindow (s.planRaster p) + ((line : Int) - 1) * r.line
  (2 * (t - nominal0) + T) / (2 * T)
/-- Keys of the lines that the source bundle of a seat has replaced, and the key of a line. -/
def State.slips (s : State) (k : Nat) : List Int := match s.sbundlesOf k with
  | b :: _ => s.buf (U.sbundle b) 0
  | [] => []
def State.slipKey (s : State) (k line : Nat) (t : Int) : Int := s.frameOfLine (s.rn (U.kerb k) Kerb.PLAN) line t * 4096 + line
/-- A TIMED, ALIGNED Kerb: the only ones that conceal (R131). -/
def State.conceals (s : State) (k : Nat) : Bool := s.rb (U.kerb k) Kerb.MODE && s.rd (U.kerb k) Kerb.STATE == kAligned
/-- A line of member `m` is replaced with its bundle: counted, and replaced where it has arrived already. -/
def State.slipMember (s : State) (m line : Nat) (t : Int) : State :=
  let key := s.slipKey m line t
  let s1 := (s.count (U.kerb m) Ctr.Kerb.LINES_CONCEALED).evidence 2 (U.kerb m)
  let ws := s.concealWords m line
  s1.setLines m 0 ((s1.linesOf m 0).map fun x =>
    if x.line = line ∧ s.slipKey m line ((x.time : Int) + s.tsOff) = key then { x with words := ws, conc := true } else x)
/-- Kerb `k`, TIMED and ALIGNED, has a broken line that began at system time `t`: it is replaced and counted, and with it the line of
every ALIGNED member of its source bundle, once (R70, R71, R131). -/
def State.concealLine (s : State) (k line : Nat) (t : Int) (lerr : Bool) : State :=
  let time := (t - s.tsOff).toNat
  match s.sbundlesOf k with
  | [] => ((s.offerConcealed k line time lerr).count (U.kerb k) Ctr.Kerb.LINES_CONCEALED).evidence 2 (U.kerb k)
  | b :: _ =>
    let u := U.sbundle b
    let key := s.slipKey k line t
    let s1 := s.offerConcealed k line time lerr
    if (s.slips k).contains key then s1
    else
      let s2 := (s1.setBuf u 0 ((key :: s.slips k).take 64)).count u Ctr.SBundle.SLIP_LINES
      ((s.bundleMembers u).filter fun m => decide (m < 2304) && s.conceals m).foldl (fun a m => a.slipMember m line t) s2

/-! ### Ingest checks (R185, R186) -/

/-- What the checks find in a line: length; its place of SAV; whether the protection bits of every stream hold; the number that the
line-number words of every stream agree on; line CRCs; ANC checksums; payload ID packets with the result of their checksum; audio
groups. -/
structure LineCheck where
  len : Nat
  sav : Option Nat
  trs : Bool
  ln : Option Nat
  crc : Bool
  anc : Bool
  pids : List (Bool × Nat)
  groups : Nat
  hd : Bool
deriving DecidableEq, Repr

def checkLine (regs : List Nat) (ws : List Nat) : LineCheck :=
  let ss := streamsOf ws
  let n := ss.length
  let sav := savOf n ws
  let packets := ss.flatMap fun w => (ancOf w).map (·.2)
  let numbers := ss.map fun w => lnOf (w.getD 4 0) (w.getD 5 0)
  { len := ws.length
    sav := sav
    trs := ss.all fun w => xyzOk (w.getD 3 0) && match sav with
      | some k => xyzOk (w.getD (k / n + 3) 0)
      | none => true
    ln := if numbers.all (· == numbers.headD 0) then some (numbers.headD 0) else none
    crc := regs.length != n || (ss.zip regs).all fun e => (e.1.getD 6 0, e.1.getD 7 0) == crcEnd e.2 e.1
    anc := packets.all ancOk
    pids := (packets.filter isPid).map fun w => (ancOk w, pidBytes w)
    groups := ((packets.filter ancOk).filterMap (audioGroup (decide (2 ≤ n)))).eraseDups.foldl (fun a g => a + 2 ^ g) 0
    hd := decide (2 ≤ n) }

/-- Length and SAV place are those of some raster of the rate class, at either width, in a mapping of Table 7.7 (R185, R592). -/
def freeShapeOk (cls len : Nat) (sav : Option Nat) : Bool :=
  (List.range 0x1D).any fun id => [true, false].any fun native =>
    (seatRas id native).rate + 1 == cls && (seatRas id native).words == len && (native || (decide (5 ≤ id) && decide (id ≤ 0x19))) &&
      (sav == some (savPlace id native) || (decide (8 ≤ id) && sav == some (savPlace (id + 32) native)))

/-- Counters and status of one received line of a tributary (Table 6.10). `shape` says that EAV, SAV and length are as expected, `lnOk`
that the line number follows on. -/
def State.ingest (s : State) (k : Nat) (c : LineCheck) (shape lnOk edhBad : Bool) : State :=
  if 1152 ≤ k then s
  else
    let u := U.trib k
    let one := fun (b : Bool) (j : Nat) (a : State) => if b then a.countLimited u j 0 0 else a
    let bad := !c.trs || !shape
    let s1 := one bad Ctr.Trib.RX_TRS_ERRORS (s.count u Ctr.Trib.RX_LINES)
    let s2 := one (c.hd && !lnOk) Ctr.Trib.RX_LN_ERRORS s1
    let s3 := one (c.hd && !c.crc) Ctr.Trib.RX_CRC_ERRORS s2
    let s4 := one (!c.hd && edhBad) Ctr.Trib.RX_EDH_ERRORS s3
    let s5 := one (!c.anc) Ctr.Trib.RX_ANC_CHECKSUM_ERRORS s4
    let s6 := one (c.pids.any fun p => !p.1) Ctr.Trib.RX_PID_ERRORS s5
    if bad || (c.hd && (!lnOk || !c.crc)) then s6.wr u Trib.rxBad (s6.rd u Trib.rxBad + 1) else s6
/-- A valid payload ID of the line is kept (Table 6.12, R71); one that disagrees with the measured line count or rate is counted. -/
def State.notePid (s : State) (k : Nat) (c : LineCheck) : State :=
  match (c.pids.filter (·.1)).getLast? with
  | none => s
  | some (_, v) =>
    let u := U.kerb k
    let frame := if s.rn u Kerb.frameDur = 0 then (raster 8).frame else s.rn u Kerb.frameDur
    let s1 := s.wrs u [(Kerb.pid, v + 1), (Kerb.pidUntil, s.clk + 2 * frame)]
    if 1152 ≤ k then s1
    else
      let s2 := s1.wrs (U.trib k) [(Trib.PAYLOAD_ID, v), (Trib.PID_VALID, 1)]
      if pidAgrees v (s.rn (U.trib k) Trib.RX_RATE) (s.rn (U.trib k) Trib.RX_M1001) (s.rn u Kerb.lastLines) then s2
      else s2.countLimited (U.trib k) Ctr.Trib.RX_PID_MISMATCH 0x0308 0

/-! ### The EAV of a line (R67 to R72, R593) -/

/-- E of the EAV that arrives now, and A where E lies within the window. They are shown in whole ns, each rounded down, since the spec
names no rounding (DESIGN CHOICE, notes/assumptions/93.md). -/
def State.showError (s : State) (k : Nat) (err W : Int) : State :=
  let s1 := s.wr (U.kerb k) Kerb.ARRIVAL_ERROR (err / Config.ns)
  if -W ≤ err ∧ err ≤ W then s1.wr (U.kerb k) Kerb.ALIGN_DELAY ((W - err) / Config.ns) else s1

/-- States of a TIMED Kerb at an EAV (Table 2.5): in ACQUIRING and ALIGNED a mismatch or an E outside the window acts at once; OUTSIDE
and RASTER are judged anew at the end of each frame. `ras` and `out` are what this EAV shows, `ended` that a whole frame has ended here,
which had a mismatch (`fRas`), an E outside (`fOut`) or neither and every line in order (`whole`). -/
def State.kerbJudge (s : State) (k : Nat) (ras out ended fRas fOut whole : Bool) : State :=
  let st := s.rd (U.kerb k) Kerb.STATE
  if st = kAcquiring ∨ st = kAligned then
    if ras then s.kerbEnter k kRaster else if out then s.kerbEnter k kOutside else if whole && st == kAcquiring then s.wr (U.kerb k) Kerb.ready 1 else s
  else if ended && (st == kOutside || st == kRaster) then
    if fRas || ras then s.kerbEnter k kRaster else if fOut then s.kerbEnter k kOutside else if whole then s.wr (U.kerb k) Kerb.ready 1 else s
  else s

/-- The line under way has ended with words `raw`, and line `line` begins, in a Kerb that had begun a line (R67, R68, R70 to R72, R185,
R593). -/
def State.lineEnded (s : State) (k line : Nat) (raw : List Nat) (edhBad : Bool) : State :=
  let u := U.kerb k
  let cur := s.rn u Kerb.cur
  let timed := s.rb u Kerb.MODE
  let p := s.rn u Kerb.PLAN
  let id := s.planRaster p
  let ras := s.planRas p
  let W : Int := kerbWindow id
  let err := s.arrivalError p line
  let flagged := raw.any (1024 ≤ ·)
  let ws := raw.map (· % 1024)
  let c := checkLine ((s.buf u kerbRegs).map (·.toNat)) ws
  let other := decide (8 ≤ id % 32) && c.sav == some (savPlace ((id + 32) % 64) true)
  let shape := if timed then c.len == ras.words && c.sav == some (savPlace id true) else freeShapeOk (s.kerbRate k) c.len c.sav
  let last := s.rn u Kerb.lastLn
  let follows := fun (v : Nat) => v == last + 1 || (v == 1 && (if timed then last == ras.lines else last == 750 || last == 1125))
  let lnOk := match c.ln with
    | some v => last == 0 || follows v
    | none => false
  let lerr := (c.hd && (!lnOk || !c.crc)) || (decide (1152 ≤ k) && flagged && !timed)
  let began : Int := s.tsOff + s.rn u Kerb.lastEav
  let s1 := (s.ingest k c shape lnOk edhBad).notePid k c
  let first := line == 1
  let n := s.rn u Kerb.lines
  let s2 := (s1.wrs u [(Kerb.gap, (s.clk : Int) - s.rd u Kerb.lastEav), (Kerb.lastEav, s.clk), (Kerb.cur, line),
    (Kerb.lastLn, (c.ln.getD 0 : Nat)), (Kerb.lines, if first then 1 else if n = 0 then 0 else (n + 1 : Nat))]).setBuf u kerbRegs
      ((if c.hd then lineRegs ws else []).map fun (x : Nat) => (x : Int))
  let s3 := if !first then s2
    else s2.wrs u [(Kerb.frameAt, s.clk + 1), (Kerb.frameDur, if s.rb u Kerb.frameAt then (s.clk + 1 : Int) - s.rd u Kerb.frameAt else 0),
      (Kerb.lastLines, n)]
  if !timed then
    -- a FREE Kerb passes the line as it is
    let match_ := s.planOn p && c.len == ras.words && (n == 0 || s.rn u Kerb.lastLines == 0 || s.rn u Kerb.lastLines == ras.lines) && s.kerbRate k == ras.rate + 1
    let s4 := (s3.offer k 0 ⟨cur, ws, lerr, c.hd && !c.crc, false, s.rn u Kerb.lastEav⟩).noteAudio k first c.groups
    (s4.kerbEnter k kAligned).wrs u [(Kerb.ARRIVAL_ERROR, if match_ then err / Config.ns else 0), (Kerb.ALIGN_DELAY, 0)]
  else
    let badLen := if c.len = ras.words then 0 else s.rn u Kerb.badLen + 1
    let badSav := if other then s.rn u Kerb.badSav + 1 else 0
    let out := decide (err < -W) || decide (W < err)
    let wrongRate := s.kerbRate k != ras.rate + 1
    let mism := decide (2 ≤ badLen) || decide (2 ≤ badSav) || (first && n != 0 && n != ras.lines) || wrongRate
    let ended := first && n != 0
    let fBad := s.rb u Kerb.frameBad || !shape
    let fRas := s.rb u Kerb.frameRas || mism
    let whole := ended && !fRas && !s.rb u Kerb.frameOut && !fBad && !out
    -- the line that has ended: replaced where it is broken in an ALIGNED Kerb, or replaced with its bundle
    let slip := s.conceals k && (s.slips k).contains (s.slipKey k cur began)
    let broken := s.conceals k && (!shape || !c.trs || flagged)
    let lost := max 1 ((2 * c.len + ras.words) / (2 * ras.words))
    let s4 := if broken then (List.range lost).foldl (fun (a : State) (j : Nat) =>
          a.concealLine k ((cur + j - 1) % ras.lines + 1) (began + (j * ras.line : Nat)) lerr) (s3.noteAudio k first 0)
      else if slip then (s3.offerConcealed k cur (s.rn u Kerb.lastEav) lerr).noteAudio k first 0
      else (s3.offer k 0 ⟨cur, ws, lerr, c.hd && !c.crc, false, s.rn u Kerb.lastEav⟩).noteAudio k first c.groups
    let s5 := (s4.showError k err W).wrs u [(Kerb.badLen, badLen), (Kerb.badSav, badSav),
      (Kerb.frameRas, if first then (if wrongRate then 1 else 0) else if fRas then 1 else 0),
      (Kerb.frameOut, if out || (!first && s.rb u Kerb.frameOut) then 1 else 0),
      (Kerb.frameBad, if !first && fBad then 1 else 0), (Kerb.ready, if mism || out || !shape then 0 else s.rd u Kerb.ready)]
    s5.kerbJudge k mism out ended fRas (s.rb u Kerb.frameOut) whole

/-- The first valid EAV after EMPTY or LOST: a FREE Kerb shows state 2, a TIMED one begins to acquire (Table 2.5, R69). -/
def State.lineBegins (s : State) (k line : Nat) : State :=
  let u := U.kerb k
  let p := s.rn u Kerb.PLAN
  let W : Int := kerbWindow (s.planRaster p)
  let err := s.arrivalError p line
  let first := line == 1
  let out := decide (err < -W) || decide (W < err)
  let wrongRate := s.kerbRate k != (s.planRas p).rate + 1
  let s1 := (s.wrs u [(Kerb.begun, 1), (Kerb.lastEav, s.clk), (Kerb.gap, 0), (Kerb.cur, line), (Kerb.lastLn, 0), (Kerb.lines, if first then 1 else 0),
    (Kerb.lastLines, 0), (Kerb.frameAt, if first then (s.clk + 1 : Nat) else 0), (Kerb.frameDur, 0), (Kerb.badLen, 0), (Kerb.badSav, 0), (Kerb.ready, 0),
    (Kerb.frameRas, if wrongRate then 1 else 0), (Kerb.frameOut, if out then 1 else 0), (Kerb.frameBad, 0)]).setBuf u kerbRegs []
  if !s.rb u Kerb.MODE then (s1.kerbEnter k kAligned).wrs u [(Kerb.ARRIVAL_ERROR, 0), (Kerb.ALIGN_DELAY, 0)]
  else ((s1.kerbEnter k kAcquiring).showError k err W).kerbJudge k wrongRate out false wrongRate out false

/-- Line 1 of a tributary seat is a marker of the Tower's candidates (R366). -/
def State.lineOneMarker (s : State) (k line : Nat) : State := if line = 1 ∧ k < 1152 then s.seatMarker k else s

/-- The EAV of line `line` reaches Kerb `k`: what came before it in the seat's words is the line that has ended. -/
def State.kerbEav (s : State) (k line : Nat) (edhBad : Bool) : State :=
  let u := U.kerb k
  if 2304 ≤ k || s.unitBad u || !s.kerbFed k then s
  else
    let fifo := (s.buf u kerbFifo).map (·.toNat)
    let plain := fifo.map (· % 1024)
    let st := s.rd u Kerb.STATE
    let drop := fun (n : Nat) => s.setBuf u kerbFifo ((fifo.drop n).map fun (w : Nat) => (w : Int))
    if st = kEmpty ∨ st = kLost ∨ !s.rb u Kerb.begun then
      match findEav plain.length 0 plain with
      | some i => ((drop i).lineBegins k line).lineOneMarker k line
      | none => s
    else match findEav plain.length 4 (plain.drop 4) with
      | some i => ((drop i).lineEnded k line (fifo.take i) edhBad).lineOneMarker k line
      | none => s

/-- The seat is built by its receive flow context, whose LINE_RELEASE gives it its lines. -/
def State.seatBuilt (s : State) (k : Nat) : Bool := decide (1152 ≤ k) && match s.rxOfSeat k with
  | some c => s.rn (U.rx c) Rx.TYPE == 1
  | none => false
/-- The EAV of a line reaches a Kerb; a packet seat built from ST 2110-20 takes its lines from LINE_RELEASE alone. `line` is the number
of the line that begins, as the signal's structure gives it; `edhBad` the result of the EDH check of RP 165. -/
def execKerbEavArrival (dt k line : Nat) (edhBad : Bool) (s0 : State) : Res :=
  let s := s0.after dt
  .next (if s.seatBuilt k then s else s.kerbEav k line edhBad)

/-- The next frame origin after a matching frame, within the 3.2 ns of R58: the Kerb becomes ALIGNED (Table 2.5). -/
def execKerbAlign (dt k : Nat) (s0 : State) : Res :=
  let s := s0.after dt
  let u := U.kerb k
  let st := s.rd u Kerb.STATE
  .next (if decide (k < 2304) && s.rb u Kerb.MODE && s.rb u Kerb.ready && (st == kAcquiring || st == kOutside || st == kRaster) &&
      s.nearOrigin (s.rn u Kerb.PLAN) && s.kerbFed k && !s.unitBad u
    then s.kerbEnter k kAligned else s)

/-- Line periods that have passed whole since the last EAV: lines that ended with no EAV (R70). -/
def State.linesGone (s : State) (k : Nat) : Nat :=
  let u := U.kerb k
  let line := (s.planRas (s.rn u Kerb.PLAN)).line
  if line = 0 then 0 else min 2 ((s.clk - s.rn u Kerb.lastEav) / line)
/-- Kerb `k` has lost its input: lines without an EAV before this are replaced (R72), and what was received of a line is dropped. -/
def State.kerbLose (s : State) (k : Nat) : State :=
  let u := U.kerb k
  let r := s.planRas (s.rn u Kerb.PLAN)
  let began : Int := s.tsOff + s.rn u Kerb.lastEav
  let s1 := if s.conceals k then (List.range (s.linesGone k)).foldl (fun (a : State) (j : Nat) =>
      a.concealLine k ((s.rn u Kerb.cur + j - 1) % r.lines + 1) (began + (j * r.line : Nat)) false) s
    else s
  if s.rd u Kerb.STATE = kEmpty then s
  else ((s1.kerbEnter k kLost).wrs u [(Kerb.ready, 0), (Kerb.begun, 0), (Kerb.lines, 0)]).setBuf u kerbFifo []

/-- No valid EAV for 2 line periods, or the input itself reports loss (Table 2.5, R69). -/
def execKerbLossTimeout (dt k : Nat) (s0 : State) : Res :=
  let s := s0.after dt
  let u := U.kerb k
  let st := s.rd u Kerb.STATE
  let line := if s.rb u Kerb.MODE then (s.planRas (s.rn u Kerb.PLAN)).line else s.rn u Kerb.gap
  let silent := decide (s.rn u Kerb.lastEav + 2 * line ≤ s.clk)
  .next (if decide (k < 2304) && st != kEmpty && st != kLost && (silent || !s.kerbFed k) && !s.unitBad u then s.kerbLose k else s)

/-- A TIMED Cell selects the seat, now or in a staged selection (R66). -/
def State.timedSelects (s : State) (seat : Nat) : Bool := s.anyCellNames (fun d => s.cellTimed d) (· == seat)

def kerbcfgChecks (s : State) (vs : List Int) (k : Nat) : Checks :=
  let ps := Kerb.kerbcfgParams
  let u := U.kerb k
  let plan := pn ps vs Kerb.PLAN
  let timed := pv ps vs Kerb.MODE == 1
  let change := pv ps vs Kerb.MODE != s.rd u Kerb.MODE || pv ps vs Kerb.PLAN != s.rd u Kerb.PLAN
  -- a packet seat in a non-native mapping stays FREE (R211)
  let nonNative := decide (1152 ≤ k) && match s.rxOfSeat k with
    | some c => !s.rxNative c
    | none => false
  [(.nounit, s.unitBad u || (timed && !s.planOn plan)), (.locked, change && s.timedSelects k), (.rate, timed && nonNative)]

def judgeKerbcfg (i : Issue) (s : State) : Judged :=
  let pr := getParams Kerb.kerbcfgParams false i
  let vs := pr.getD []
  let ks := targets i 0x05 (U.kerb 0) 2304
  { checks := (.format, i.badFlags true false true false || pr.isNone) :: eachTarget ks (kerbcfgChecks s vs)
    verdict := .stage ((ks.getD []).map fun k =>
      ⟨s.rn (U.kerb k) Kerb.PLAN, 0, [⟨U.kerb k, 0⟩], [U.kerb k], .cfg 0x52 k 0 vs⟩) }
def execKerbcfg (i : Issue) (s : State) : Res := .next (s.issue i (.ticked 0x52) (judgeKerbcfg i))

/-- A Kerb configuration commits: a change of MODE or PLAN empties it (Table 2.5). -/
def State.commitKerbcfg (s : State) (k : Nat) (vs : List Int) : State :=
  let ps := Kerb.kerbcfgParams
  let u := U.kerb k
  let change := pv ps vs Kerb.MODE != s.rd u Kerb.MODE || pv ps vs Kerb.PLAN != s.rd u Kerb.PLAN
  let s1 := s.wrParams u ps vs
  if change then (((s1.kerbEnter k kEmpty).wrs u [(Kerb.ready, 0), (Kerb.begun, 0), (Kerb.lines, 0), (Kerb.badLen, 0), (Kerb.badSav, 0),
    (Kerb.ALIGN_DELAY, 0)]).setBuf u kerbFifo []).setLines k 0 []
  else s1

end Sys2Proof.Machine
end

