-- ==== Sys2Proof/Machine/Time.lean ====
section
/-!
DEFINITION. Network time: PTP receiver instances, the transparent clock, port compensation; capture inputs and
time-trigger outputs (R389 to R411).
-/
namespace Sys2Proof.Machine

/-! ### Ports and instances -/

/-- Grains of one picosecond and of one unit of 2^-16 ns. -/
abbrev psGrains : Int := 12165120
abbrev subGrains : Int := 185625
def State.macPs (s : State) (m : Nat) (f : Field) : Int := s.rd (U.mac m) f * psGrains
/-- Compensated ingress timestamp of what arrives on a port now, kept to 0.1 ns (R391, R392). -/
def State.ingressTs (s : State) (m : Nat) : Int := stampMarker s.now - s.macPs m Mac.INGRESS_PS
def State.egressTs (s : State) (m : Nat) : Int := stampMarker s.now + s.macPs m Mac.EGRESS_PS

abbrev ptDisabled : Int := 0
abbrev ptListening : Int := 1
abbrev ptUncal : Int := 2
abbrev ptReceiver : Int := 3
abbrev ptFaulty : Int := 4

/-- Of an instance: a Sync that waits for its Follow_Up (sequence plus one, ingress time, correction), the latest ms of
R395, whether one is known, the Delay_Req outstanding (sequence plus one, egress time), last accepted e and its time,
outliers in a row, markers since the parent was taken, last Announce (plus one; 0 once it has timed out) and its interval, last completed Sync. -/
def Ptp.syncSeq : Field := ⟨301, 0, false, 0⟩
def Ptp.syncT2 : Field := ⟨302, 0, true, 0⟩
def Ptp.syncCf : Field := ⟨303, 0, true, 0⟩
def Ptp.ms : Field := ⟨304, 0, true, 0⟩
def Ptp.hasMs : Field := ⟨305, 1, false, 0⟩
def Ptp.reqSeq : Field := ⟨306, 0, false, 0⟩
def Ptp.t3 : Field := ⟨307, 0, true, 0⟩
def Ptp.eGrains : Field := ⟨308, 0, true, 0⟩
def Ptp.eAt : Field := ⟨309, 0, true, 0⟩
def Ptp.hasE : Field := ⟨310, 1, false, 0⟩
def Ptp.outRun : Field := ⟨311, 0, false, 0⟩
def Ptp.markers : Field := ⟨312, 0, false, 0⟩
def Ptp.annAt : Field := ⟨313, 0, false, 0⟩
def Ptp.annLog : Field := ⟨314, 0, true, 0⟩
def Ptp.syncAt : Field := ⟨315, 0, false, 0⟩
def Ptp.txSeq : Field := ⟨316, 16, false, 0⟩
/-- Of a MAC: the Pdelay_Req outstanding, and those answered in the present second. -/
def Mac.pdSeq : Field := ⟨310, 0, false, 0⟩
def Mac.pdT1 : Field := ⟨311, 0, true, 0⟩
def Mac.pdTx : Field := ⟨312, 16, false, 0⟩
def Mac.pdSec : Field := ⟨313, 0, false, 0⟩
def Mac.pdCount : Field := ⟨314, 0, false, 0⟩
/-- Mode of a transparent-clock group: 0 E2E, 1 P2P (R398). -/
def TcGroup.MODE : Field := ⟨1, 1, false, 0⟩

/-- Causes of PTP_LOST: TIMEOUT, SYNC_MISSING, PARENT, GM and FAULTY (R476). -/
abbrev lostTimeout : Nat := 1
abbrev lostSync : Nat := 4
abbrev lostParent : Nat := 3
abbrev lostGm : Nat := 2
abbrev lostLink : Nat := 5

def State.ptpState (s : State) (i : Nat) : Int := s.rd (U.ptp i) Ptp.STATE
def State.ptpMac (s : State) (i : Nat) : Nat := s.rn (U.ptp i) Ptp.MAC
/-- Instances enabled on a port that a message with these properties reaches. -/
def State.instancesOn (s : State) (m : Nat) (p : PtpIn) : List Nat :=
  (List.range 2).filter fun i => s.rb (U.ptp i) Ptp.ENABLE && s.ptpMac i == m && s.rn (U.ptp i) Ptp.TRANSPORT == p.transport &&
    s.rn (U.ptp i) Ptp.VLAN == p.vlan
/-- 2 to the power of a log interval, in grains. -/
def logInterval (n : Int) : Nat := if 0 ≤ n then Config.second * 2 ^ n.toNat else Config.second / 2 ^ (-n).toNat

/-- The instance reports loss (R397): its candidate is MISSING, and it is UNCALIBRATED again. -/
def State.ptpLoss (s : State) (i cause : Nat) (st : Int) : State :=
  let u := U.ptp i
  let s1 := (s.wrs u [(Ptp.STATE, st), (Ptp.markers, 0), (Ptp.hasE, 0), (Ptp.outRun, 0), (Ptp.syncSeq, 0), (Ptp.hasMs, 0)]).setBuf u 0 []
  let s2 := if s1.rn u (evSecondF (50000 + cause)) = s1.nowS + 1 then s1.count U.crier Ctr.Crier.EVENTS_SUPPRESSED
    else (s1.wr u (evSecondF (50000 + cause)) (s1.nowS + 1)).post u 0x0701 (detail 0 st.toNat (s.ptpState i).toNat cause)
  (s2.wr u Ptp.lost 1).candLost (6 + i) 4

/-- The timing of a marker against the previous one (R371): how many periods since, 0 for a first marker, none for a
spurious one. -/
def State.markerGap (s : State) (c : Nat) (t : Int) : Option Nat :=
  let u := U.cand c
  let p := s.candP c
  if s.rd u Cand.last = 0 then some 0
  else
    let gap := t - (s.rd u Cand.last - 1)
    let k := (2 * gap + p) / (2 * p)
    if 1 ≤ k ∧ k ≤ 3 ∧ ((gap - k * p).natAbs : Int) * 1000 ≤ (p : Int) + 50000 * Config.ns then some k.toNat else none

/-- An accepted offset measurement is a marker of candidate 6 + i (R395): `e` before OFFSET, at ingress time `t2`. -/
def State.ptpMarker (s : State) (i : Nat) (t2 e : Int) : State :=
  let c := 6 + i
  if s.candState c = cdDisabled then s
  else match s.markerGap c t2 with
    | none => (s.count (U.cand c) Ctr.Cand.SPURIOUS_MARKERS).wr (U.cand c) Cand.missed 1
    | some k =>
      let s1 := if 1 < k then (s.countBy (U.cand c) Ctr.Cand.MISSING_MARKERS (k - 1)).wr (U.cand c) Cand.missed 1 else s
      s1.validMarker c t2 (t2 + e) (e - s1.rd (U.cand c) Cand.OFFSET * Config.ns)

/-- A phase error measured by an instance: an outlier is discarded, the fifth in a row accepted (R396). -/
def State.ptpAccept (s : State) (i : Nat) (t2 e : Int) : State :=
  let u := U.ptp i
  -- what the present frequency predicts
  let drift := (s.candFreq (6 + i) + s.monitorBase - s.tower Tower.freq) * (t2 - s.rd u Ptp.eAt) / 10 ^ 12
  let want := s.rd u Ptp.eGrains + drift
  let far := s.rb u Ptp.hasE && decide ((s.rn u Ptp.OUTLIER : Int) * 100 * Config.ns < (e - want).natAbs)
  if far && decide (s.rn u Ptp.outRun < 4) then (s.wr u Ptp.outRun (s.rd u Ptp.outRun + 1)).countLimited u Ctr.Ptp.OUTLIERS 0x0702 0
  else
    let s1 := s.wrs u [(Ptp.outRun, 0), (Ptp.hasE, 1), (Ptp.eGrains, e), (Ptp.eAt, t2), (Ptp.lost, 0),
      (Ptp.LAST_E, max (-(2 ^ 31)) (min (2 ^ 31 - 1) (e / psGrains))), (Ptp.markers, s.rd u Ptp.markers + 1)]
    let s2 := if s1.ptpState i = ptUncal ∧ 4 ≤ s1.rn u Ptp.markers then (s1.wr u Ptp.STATE ptReceiver).post u 0x0704 (detail 0 3 2 0) else s1
    s2.ptpMarker i t2 e

/-- A Sync, with its Follow_Up where it is two-step, is complete (R395). -/
def State.ptpMeasure (s : State) (i : Nat) (t1 cs t2 : Int) : State :=
  let u := U.ptp i
  let m := s.ptpMac i
  let asym := s.macPs m Mac.ASYM_PS
  let ms := t2 - t1 - cs - asym
  let s1 := s.wrs u [(Ptp.ms, ms), (Ptp.hasMs, 1), (Ptp.syncAt, s.clk), (Ptp.syncSeq, 0)]
  let add := fun (a : State) (x : Int) => let l := a.buf u 0 ++ [x]; a.setBuf u 0 (l.drop (l.length - a.rn u Ptp.DELAY_WINDOW))
  let s2 := if s.rb u Ptp.DELAY_MECH then add s1 (s.rd (U.mac m) Mac.LINK_DELAY_PS * psGrains) else s1
  match s2.buf u 0 with
  | [] => s2
  | x :: t =>
    let mean := t.foldl min x
    (s2.wr u Ptp.MEAN_DELAY (mean / psGrains)).ptpAccept i t2 (t1 + cs + asym + mean - t2)

/-! ### Transparent clock (R398 to R401) -/

def State.tcMode (s : State) (g : Nat) : Nat := s.rn (U.tcGroup g) TcGroup.MODE
/-- Message kinds by messageType: 0 Sync, 1 Delay_Req, 2 Pdelay_Req, 3 Pdelay_Resp, 8 Follow_Up, 9 Delay_Resp, 11
Announce. Messages of the other delay mechanism are not forwarded. -/
def mechDrop (mode typ : Nat) : Bool := if mode = 1 then typ == 1 || typ == 9 else typ == 2 || typ == 3 || typ == 10
/-- The UDP checksum after a change of correctionField, by RFC 1624 (R401). -/
def rfc1624 (sum old new : Nat) : Nat :=
  let words := fun (v : Nat) => [v / 2 ^ 48 % 65536, v / 2 ^ 32 % 65536, v / 2 ^ 16 % 65536, v % 65536]
  let x := (65535 - sum) + ((words old).map (65535 - ·)).foldl (· + ·) 0 + (words new).foldl (· + ·) 0
  let fold := fun (y : Nat) => y % 65536 + y / 65536
  65535 - fold (fold x)
abbrev cfMax : Int := 0x7FFFFFFFFFFFFFFF

/-- A PTP message of an instance or port as it leaves: messageType, transport, VLAN, DSCP, domain, sequenceId and correctionField. -/
def State.ptpSend (s : State) (mac typ transport vlan dscp domain seq : Nat) (cf : Int) : State :=
  s.emit (.packet mac [(typ : Int), (transport : Int), (vlan : Int), (dscp : Int), (domain : Int), (seq : Int), cf] [])
/-- A forwarded PTP message as it leaves: what it carried, its addressing and VLAN unchanged, with this correctionField and UDP
checksum (R398, R400, R401). -/
def State.ptpRelay (s : State) (mac typ : Nat) (p : PtpIn) (cf : Int) (sum : Nat) : State :=
  s.emit (.packet mac [(typ : Int), (p.transport : Int), (p.vlan : Int), (p.domain : Int), (p.seq : Int), (p.port.toNat : Int), if p.twoStep then 1 else 0, cf,
    (p.sec : Int), (p.ns : Int), p.logInterval, (sum : Int), (p.gm.toNat : Int), (p.gmClass : Int), (p.gmAccuracy : Int), (p.steps : Int), (p.utcOffset : Int),
    (p.utcFlags : Int)] [])

/-- A PTP message that came by multicast to a PTP address leaves on every other member of the port's group whose link is
up. An event message has the residence time added to its correctionField; how long it stays in the device is left open. -/
def State.tcForward (s : State) (mac typ : Nat) (p : PtpIn) : State :=
  let g := s.rn (U.mac mac) Mac.TC_GROUP
  if 144 ≤ mac ∨ g = 15 ∨ p.multicast = false then s
  else if p.versionOk && mechDrop (s.tcMode g) typ then s.countLimited (U.mac mac) Ctr.Mac.TC_MECH_DROPS 0x0703 0
  else
    let outs := (List.range 144).filter fun m => m != mac && s.rn (U.mac m) Mac.TC_GROUP == g && s.rb (U.mac m) Mac.LINK
    let p2p := s.tcMode g == 1
    let event := p.versionOk && (typ == 0 || typ == 1 || typ == 2 || typ == 3)
    let r := outs.foldl (fun (a : Bool × State) m =>
      if !event then (a.1, (a.2.ptpRelay m typ p p.cf p.checksum).count (U.mac m) Ctr.Mac.TC_FORWARDED)
      else
        let (stay, b) := a.2.free (65536 * 3000)
        let comp := s.rd (U.mac mac) Mac.INGRESS_PS + s.rd (U.mac m) Mac.EGRESS_PS +
          (if p2p ∧ typ = 0 then s.rd (U.mac mac) Mac.LINK_DELAY_PS + s.rd (U.mac mac) Mac.ASYM_PS else 0) - (if p2p then s.rd (U.mac m) Mac.ASYM_PS else 0)
        let cf := p.cf + stay + Fx.round (comp * 65536) 1000
        let full := p.cf == cfMax || decide (cfMax < cf)
        let cf2 := if full then cfMax else cf
        let bits := fun (x : Int) => (x % 2 ^ 64).toNat
        let sum := if p.transport = 0 ∨ (p.transport = 1 ∧ p.checksum = 0) then p.checksum else rfc1624 p.checksum (bits p.cf) (bits cf2)
        (a.1 || full, (b.ptpRelay m typ p cf2 sum).count (U.mac m) Ctr.Mac.TC_FORWARDED)) (false, s)
    if r.1 then r.2.countLimited (U.mac mac) Ctr.Mac.TC_SATURATED 0 0 else r.2

/-- What an instance discards before it looks at a message (Table 14.6). -/
def State.ptpReject (s : State) (i : Nat) (p : PtpIn) : Option State :=
  let u := U.ptp i
  if !p.versionOk then some (s.countLimited u Ctr.Ptp.PTP_FORMAT 0x0700 0)
  else if !p.checksumOk then some (s.countLimited u Ctr.Ptp.PTP_CHECKSUM 0 0)
  else if p.domain ≠ s.rn u Ptp.DOMAIN then some s
  else if p.cf = cfMax then some (s.countLimited (U.mac (s.ptpMac i)) Ctr.Mac.TC_SATURATED 0 0)
  else none
/-- The message comes from the instance's parent. -/
def State.fromParent (s : State) (i : Nat) (p : PtpIn) : Bool :=
  (s.ptpState i == ptUncal || s.ptpState i == ptReceiver) && s.rn (U.ptp i) Ptp.PARENT_PORT == p.port.toNat

/-- Time a message carries. -/
def ptpTime (p : PtpIn) : Int := (p.sec * Config.second + p.ns * Config.ns : Nat)

/-! ### Messages -/

/-- A Sync arrives on a port (R395, R400). -/
def execPtpSyncRx (dt mac : Nat) (p : PtpIn) (s0 : State) : Res :=
  let s := s0.after dt
  let t2 := s.ingressTs mac
  .next (s.ifUp [U.mac mac] ((s.instancesOn mac p).foldl (fun a i =>
    match a.ptpReject i p with
    | some b => b
    | none =>
      if !a.fromParent i p then a
      else
        let u := U.ptp i
        let b := (a.count u Ctr.Ptp.SYNC_RX).wr u Ptp.LOG_SYNC p.logInterval
        let c := if b.rb u Ptp.syncSeq then b.countLimited u Ctr.Ptp.PTP_UNMATCHED 0 0 else b
        if p.twoStep then c.wrs u [(Ptp.syncSeq, p.seq + 1), (Ptp.syncT2, t2), (Ptp.syncCf, p.cf * subGrains)]
        else c.ptpMeasure i (ptpTime p) (p.cf * subGrains) t2) (s.tcForward mac 0 p)))

/-- A Follow_Up completes a two-step Sync (R395). -/
def execPtpFollowUpRx (dt mac : Nat) (p : PtpIn) (s0 : State) : Res :=
  let s := s0.after dt
  .next (s.ifUp [U.mac mac] ((s.instancesOn mac p).foldl (fun a i =>
    match a.ptpReject i p with
    | some b => b
    | none =>
      if !a.fromParent i p then a
      else
        let u := U.ptp i
        let b := a.count u Ctr.Ptp.FOLLOWUP_RX
        let t2 := b.rd u Ptp.syncT2
        if b.rn u Ptp.syncSeq ≠ p.seq + 1 ∨ (logInterval (b.rd u Ptp.LOG_SYNC) : Int) < (b.now : Int) - t2 then
          (b.wr u Ptp.syncSeq 0).countLimited u Ctr.Ptp.PTP_UNMATCHED 0 0
        else b.ptpMeasure i (ptpTime p) (b.rd u Ptp.syncCf + p.cf * subGrains) t2) (s.tcForward mac 8 p)))

/-- A Delay_Resp gives an E2E delay sample (R395). -/
def execPtpDelayRespRx (dt mac : Nat) (p : PtpIn) (s0 : State) : Res :=
  let s := s0.after dt
  .next (s.ifUp [U.mac mac] ((s.instancesOn mac p).foldl (fun a i =>
    match a.ptpReject i p with
    | some b => b
    | none =>
      let u := U.ptp i
      if !p.ours || !a.fromParent i p || a.rb u Ptp.DELAY_MECH then a
      else
        let b := a.count u Ctr.Ptp.DELAY_RESP_RX
        if b.rn u Ptp.reqSeq ≠ p.seq + 1 then b.countLimited u Ctr.Ptp.PTP_UNMATCHED 0 0
        else
          let c := b.wr u Ptp.reqSeq 0
          if !c.rb u Ptp.hasMs then c
          else
            let sm := (ptpTime p) - c.rd u Ptp.t3 - p.cf * subGrains + c.macPs mac Mac.ASYM_PS
            let sample := (c.rd u Ptp.ms + sm) / 2
            if sample < 0 then c.countLimited u Ctr.Ptp.NEG_DELAY 0 0
            else
              let l := c.buf u 0 ++ [sample]
              c.setBuf u 0 (l.drop (l.length - c.rn u Ptp.DELAY_WINDOW))) (s.tcForward mac 9 p)))

/-- An Announce: parent and grandmaster matching (R397). `p.selected` is the choice of the Steward's best master clock
algorithm, which runs in firmware and rests while the Steward is halted or hands over. -/
def execPtpAnnounceRx (dt mac : Nat) (p : PtpIn) (s0 : State) : Res :=
  let s := s0.after dt
  .next (s.ifUp [U.mac mac] ((s.instancesOn mac p).foldl (fun a i =>
    let u := U.ptp i
    if !p.versionOk then a.countLimited u Ctr.Ptp.PTP_FORMAT 0x0700 0
    else if !p.checksumOk then a.countLimited u Ctr.Ptp.PTP_CHECKSUM 0 0
    else if 255 ≤ p.steps ∨ p.domain ≠ a.rn u Ptp.DOMAIN then a.count u Ctr.Ptp.PTP_ANNOUNCE_REJECTS
    else
      let b := a.count u Ctr.Ptp.ANNOUNCE_RX
      let b1 := if b.ptpState i = ptFaulty ∧ b.rb (U.mac mac) Mac.LINK then b.wr u Ptp.STATE ptListening else b
      let mine := b1.fromParent i p
      -- a Steward that is halted or hands over takes no new parent (R397)
      let chosen := p.selected && !b1.stewardBusy
      if !chosen && !mine then b1
      else if b1.rn u Ptp.ACCEPT_GM ≠ 0 ∧ b1.rn u Ptp.ACCEPT_GM ≠ p.gm.toNat then
        let c := b1.count u Ctr.Ptp.PTP_GM_REJECTS
        if b1.ptpState i = ptUncal ∨ b1.ptpState i = ptReceiver then c.ptpLoss i lostGm ptUncal else c
      else
        let live := b1.ptpState i == ptUncal || b1.ptpState i == ptReceiver
        let c := if live && chosen && !mine then b1.ptpLoss i lostParent ptUncal
          else if live && b1.rn u Ptp.GM_ID != p.gm.toNat then b1.ptpLoss i lostGm ptUncal else b1
        c.wrs u [(Ptp.STATE, if c.ptpState i = ptListening then ptUncal else c.ptpState i), (Ptp.PARENT_PORT, p.port.toNat), (Ptp.GM_ID, p.gm.toNat),
          (Ptp.GM_CLASS, p.gmClass), (Ptp.GM_ACCURACY, p.gmAccuracy), (Ptp.STEPS_REMOVED, p.steps), (Ptp.UTC_OFFSET, p.utcOffset), (Ptp.UTC_FLAGS, p.utcFlags),
          (Ptp.annAt, c.clk + 1), (Ptp.annLog, p.logInterval), (Ptp.syncAt, if live then c.rd u Ptp.syncAt else c.clk)]) (s.tcForward mac 11 p)))

/-- A Pdelay_Req is answered in hardware by a member port, at most 64 times a second (R399). -/
def execPdelayReqRx (dt mac : Nat) (p : PtpIn) (s0 : State) : Res :=
  let s := s0.after dt
  let u := U.mac mac
  .next (s.ifUp [U.mac mac] (if 144 ≤ mac ∨ s.rn u Mac.TC_GROUP = 15 then s
    else if !p.versionOk || !p.checksumOk then
      (s.instancesOn mac p).foldl (fun a i => (a.ptpReject i p).getD a) (s.tcForward mac 2 p)
    else
      let s1 := (s.tcForward mac 2 p).count u Ctr.Mac.PDELAY_RX
      let n := if s1.rn u Mac.pdSec = s1.nowS + 1 then s1.rn u Mac.pdCount else 0
      if 64 ≤ n then s1.countLimited u Ctr.Mac.PDELAY_EXCESS 0 0
      else
        let (stay, s2) := (s1.wrs u [(Mac.pdSec, s1.nowS + 1), (Mac.pdCount, n + 1)]).free (65536 * 3000)
        let turn := p.cf + stay + Fx.round ((s.rd u Mac.INGRESS_PS + s.rd u Mac.EGRESS_PS) * 65536) 1000
        s2.ptpSend mac 3 p.transport p.vlan 0 p.domain p.seq turn))

/-- A Pdelay_Resp completes a link delay measurement (R399); its correctionField carries the turnaround. -/
def execPdelayRespRx (dt mac : Nat) (p : PtpIn) (s0 : State) : Res :=
  let s := s0.after dt
  let u := U.mac mac
  .next (s.ifUp [U.mac mac] (if 144 ≤ mac ∨ !p.ours then s.tcForward mac 3 p
    else if s.rn u Mac.pdSeq ≠ p.seq + 1 then
      (s.instancesOn mac p).foldl (fun a i => a.countLimited (U.ptp i) Ctr.Ptp.PTP_UNMATCHED 0 0) s
    else
      let d := (s.ingressTs mac - s.rd u Mac.pdT1 - p.cf * subGrains) / 2
      let s1 := s.wr u Mac.pdSeq 0
      -- a sample below 0 is discarded (R395)
      if d < 0 then (((s.instancesOn mac p).filter fun i => s.rb (U.ptp i) Ptp.DELAY_MECH)).foldl (fun a i => a.countLimited (U.ptp i) Ctr.Ptp.NEG_DELAY 0 0) s1
      else s1.wr u Mac.LINK_DELAY_PS (d / psGrains)))

/-- The port measures link delay: in a P2P group, or for a P2P instance (R399). -/
def State.measuresDelay (s : State) (m : Nat) : Bool :=
  (s.rn (U.mac m) Mac.TC_GROUP != 15 && s.tcMode (s.rn (U.mac m) Mac.TC_GROUP) == 1) ||
    (List.range 2).any fun i => s.rb (U.ptp i) Ptp.ENABLE && s.ptpMac i == m && s.rb (U.ptp i) Ptp.DELAY_MECH

/-- The Steward sends a Delay_Req for instance `n` (kind 0), or a Pdelay_Req on MAC `n` (kind 1) (R394, R395, R399); halted, or while it
hands over, it sends none (R50). -/
def execDelayReqSend (dt kind n : Nat) (s0 : State) : Res :=
  let s := s0.after dt
  .next (s.ifUp [if kind = 0 then U.ptp n else U.mac n] (if s.stewardBusy then s
    else if kind = 0 then
      let u := U.ptp n
      let m := s.ptpMac n
      if 2 ≤ n ∨ s.rb u Ptp.DELAY_MECH ∨ !(s.ptpState n == ptUncal || s.ptpState n == ptReceiver) ∨ !s.rb (U.mac m) Mac.LINK then s
      else
        let q := s.rn u Ptp.txSeq
        ((s.wrs u [(Ptp.reqSeq, q + 1), (Ptp.t3, s.egressTs m), (Ptp.txSeq, q + 1)]).ptpSend m 1 (s.rn u Ptp.TRANSPORT) (s.rn u Ptp.VLAN) (s.rn u Ptp.DSCP) (s.rn u Ptp.DOMAIN) q 0).count u Ctr.Ptp.DELAY_REQ_TX
    else if 144 ≤ n ∨ !s.measuresDelay n ∨ !s.rb (U.mac n) Mac.LINK then s
    else
      let u := U.mac n
      let q := s.rn u Mac.pdTx
      -- with the settings of the P2P instance on the port, else of instance 0, whose LOG_DELAY_REQ R399 names
      let v := U.ptp (((List.range 2).find? fun i => s.rb (U.ptp i) Ptp.ENABLE && s.ptpMac i == n && s.rb (U.ptp i) Ptp.DELAY_MECH).getD 0)
      (s.wrs u [(Mac.pdSeq, q + 1), (Mac.pdT1, s.egressTs n), (Mac.pdTx, q + 1)]).ptpSend n 2 (s.rn v Ptp.TRANSPORT) (s.rn v Ptp.VLAN) (s.rn v Ptp.DSCP)
        (s.rn v Ptp.DOMAIN) q 0))

/-- Announce timeout, Sync missing for 3 intervals, or a port without link: the instance reports loss (R397). -/
def execAnnounceTimeout (dt inst : Nat) (s0 : State) : Res :=
  let s := s0.after dt
  let u := U.ptp inst
  let live := s.ptpState inst == ptUncal || s.ptpState inst == ptReceiver
  .next (s.ifUp [U.ptp inst] (if 2 ≤ inst ∨ !s.rb u Ptp.ENABLE then s
    else if !s.rb (U.mac (s.ptpMac inst)) Mac.LINK ∧ s.ptpState inst ≠ ptFaulty then s.ptpLoss inst lostLink ptFaulty
    else if !live then s
    else if s.rb u Ptp.annAt = true ∧ s.rn u Ptp.annAt - 1 + s.rn u Ptp.ANNOUNCE_TIMEOUT * logInterval (s.rd u Ptp.annLog) ≤ s.clk then
      ((s.count u Ctr.Ptp.PTP_TIMEOUTS).wr u Ptp.annAt 0).ptpLoss inst lostTimeout ptUncal
    else if (s.ptpState inst = ptReceiver ∨ s.rb u Ptp.hasMs = true) ∧ s.rn u Ptp.syncAt + 3 * logInterval (s.rd u Ptp.LOG_SYNC) ≤ s.clk then s.ptpLoss inst lostSync ptUncal
    else s))

/-! ### Instructions (R392, R394, R398, R405, R407) -/

def judgePtpport (i : Issue) (s : State) : Judged :=
  let ps := Mac.ptpportParams
  let pr := getParams ps false i
  let vs := pr.getD []
  let ts := targets i 0x0A (U.mac 0) 144
  { checks := (.format, i.badFlags true false true false || pr.isNone) :: eachTarget ts fun _ => [(.range, !paramsOk ps vs)]
    members := memberChecks (U.mac 0) ts fun _ => [(.range, !paramsOk ps vs)]
    verdict := .act ((ts.getD []).foldl (fun a m => a.wrParams (U.mac m) ps vs) s) }
def execPtpport (i : Issue) (s : State) : Res := .next (s.issue i .other (judgePtpport i))

/-- The port has no own address of a transport. -/
def State.noAddress (s : State) (m transport : Nat) : Bool :=
  match transport with
  | 0 => s.rn (U.mac m) Mac.ADDR == 0
  | 1 => s.rn (U.mac m) Mac.IPV4 == 0
  | _ => s.rn (U.mac m) Mac.IPV6 == 0

def judgePtpcfg (i : Issue) (s : State) : Judged :=
  let ps := Ptp.ptpcfgParams
  let pr := getParams ps false i
  let vs := pr.getD []
  let ts := targets i 0x42 (U.ptp 0) 2
  let m := pn ps vs Ptp.MAC
  let en := pv ps vs Ptp.ENABLE
  { checks := (.format, i.badFlags true false true false || pr.isNone) :: eachTarget ts fun n =>
      let changed := [Ptp.MAC, Ptp.TRANSPORT, Ptp.DOMAIN, Ptp.DELAY_MECH].any fun f => pv ps vs f != s.rd (U.ptp n) f
      [(.range, !paramsOk ps vs), (.nounit, s.rn (U.mac m) Mac.LANE == 511 || s.unitBad (U.mac m) || s.noAddress m (pn ps vs Ptp.TRANSPORT)),
       (.locked, changed && s.towerN Tower.SELECTED == 6 + n)]
    verdict := .act ((ts.getD []).foldl (fun (a : State) n =>
      let u := U.ptp n
      let hard := [Ptp.MAC, Ptp.TRANSPORT, Ptp.DOMAIN, Ptp.DELAY_MECH, Ptp.VLAN].any fun f => pv ps vs f != a.rd u f
      let was := a.rb u Ptp.ENABLE
      let b := a.wrParams u ps vs
      if en = 0 then (if was then b.ptpLoss n lostLink ptDisabled else b)
      else if !was then b.wr u Ptp.STATE (if b.rb (U.mac m) Mac.LINK then ptListening else ptFaulty)
      else if hard then b.ptpLoss n lostParent ptListening else b) s) }
def execPtpcfg (i : Issue) (s : State) : Res := .next (s.issue i .other (judgePtpcfg i))

def judgeTccfg (i : Issue) (s : State) : Judged :=
  let ts := elements i 15
  { checks := (.format, i.badFlags true false true false || decide (2 ≤ i.sub) || i.npw != 0 || i.params != []) :: eachTarget ts fun _ => []
    verdict := .act ((ts.getD []).foldl (fun a g => a.wr (U.tcGroup g) TcGroup.MODE i.sub) s) }
def execTccfg (i : Issue) (s : State) : Res := .next (s.issue i .other (judgeTccfg i))

def judgeCaptcfg (i : Issue) (s : State) : Judged :=
  let ts := targets i 0x44 (U.capt 0) 4
  { checks := (.format, i.badFlags true false true false || decide (8 ≤ i.sub) || i.npw != 0 || i.params != []) :: eachTarget ts fun _ => []
    verdict := .act ((ts.getD []).foldl (fun a n => a.wrs (U.capt n) [(Capt.EDGES, i.sub % 4), (Capt.EVENT, i.sub / 4)]) s) }
def execCaptcfg (i : Issue) (s : State) : Res := .next (s.issue i .other (judgeCaptcfg i))

/-! ### Captures (R403, R405, R406) -/

/-- Milestone of the present instant (R403). -/
def State.milestone (s : State) : Nat := s.now / Config.ns % 2 ^ 32
/-- Last capture on a pin (`clk` plus one), and the events posted in a whole second. -/
def Capt.last : Field := ⟨300, 0, false, 0⟩
def Capt.evSec : Field := ⟨301, 0, false, 0⟩
def Capt.evCount : Field := ⟨302, 0, false, 0⟩

/-- An edge on a CAPT pin (R405, R406). -/
def execCaptEdge (dt pin : Nat) (falling : Bool) (s0 : State) : Res :=
  let s := s0.after dt
  let u := U.capt pin
  let edges := s.rn u Capt.EDGES
  .next (s.ifUp [U.capt pin] (if 4 ≤ pin ∨ bitAt edges (if falling then 1 else 0) = false then s
    else if s.rb u Capt.last && decide (s.clk + 1 < s.rn u Capt.last + 40 * Config.ns) then s.count u Ctr.Capt.CAPT_MISSED
    else
      let q := s.rn u Capt.WRITE_SEQ
      let w := s.milestone + (if falling then 2 ^ 32 else 0) + q % 65536 * 2 ^ 48
      let s1 := { s with captRing := Tbl.set ⟨pin, q % 64⟩ 0 (BitVec.ofNat 64 w) s.captRing }
      let s2 := (s1.wrs u [(Capt.WRITE_SEQ, q + 1), (Capt.last, s.clk + 1)]).count u Ctr.Capt.CAPTURES
      if !s.rb u Capt.EVENT then s2
      else
        let n := if s2.rn u Capt.evSec = s2.nowS + 1 then s2.rn u Capt.evCount else 0
        if 1000 ≤ n then s2.count U.crier Ctr.Crier.EVENTS_SUPPRESSED
        else (s2.wrs u [(Capt.evSec, s2.nowS + 1), (Capt.evCount, n + 1)]).post u 0x0705 q))

/-! ### Time-trigger outputs (R407, R408) -/

/-- Active level now driven; edges driven of a pulse; a level scheduled by `ttcfg` that is not yet driven; order of the
last applied change and its instant. -/
def Tt.active : Field := ⟨300, 1, false, 0⟩
def Tt.phase : Field := ⟨301, 0, false, 0⟩
def Tt.armed : Field := ⟨302, 1, false, 0⟩
def Tt.stamp : Field := ⟨303, 0, false, 0⟩
def Tt.lastAt : Field := ⟨304, 0, true, 0⟩
def Tt.lastStamp : Field := ⟨305, 0, false, 0⟩

/-- Drive an output active or idle. -/
def State.ttDrive (s : State) (n : Nat) (act : Bool) : State :=
  let u := U.tt n
  (s.wr u Tt.active (if act then 1 else 0)).emit (.pin (pinTt n) (if act != s.rb u Tt.POLARITY then 1 else 0))
def State.ttStart (s : State) (n : Nat) : Int := (s.rn (U.tt n) Tt.START_S * Config.second + s.rn (U.tt n) Tt.START_NS * Config.ns : Nat)

/-- A change of level at instant `at_`, asked for by the instruction of order `stamp`: of two at one instant the later
instruction stands (R408). -/
def State.ttChange (s : State) (n : Nat) (at_ : Int) (stamp : Nat) (level : Bool) : State :=
  let u := U.tt n
  if s.rd u Tt.lastAt = at_ ∧ stamp < s.rn u Tt.lastStamp then s
  else (s.wrs u [(Tt.lastAt, at_), (Tt.lastStamp, stamp), (Tt.LEVEL, if level then 1 else 0)]).ttDrive n level

/-- A scheduled edge is driven (R407, R408). -/
def execTtEdge (dt out : Nat) (s0 : State) : Res :=
  let s := s0.after dt
  let u := U.tt out
  let t : Int := s.now
  let start := s.ttStart out
  let width : Int := (s.rn u Tt.WIDTH * Config.ns : Nat)
  let act := s.rb u Tt.active
  .next (s.ifUp [U.tt out] (if 4 ≤ out then s
    else match s.rn u Tt.MODE with
      | 1 => if s.rb u Tt.armed && decide (start ≤ t) then (s.wr u Tt.armed 0).ttChange out start (s.rn u Tt.stamp) (s.rb u Tt.LEVEL) else s
      | 2 =>
        if s.rn u Tt.phase = 0 ∧ start ≤ t then (s.wr u Tt.phase 1).ttDrive out true
        else if s.rn u Tt.phase = 1 ∧ start + width ≤ t then (s.wr u Tt.phase 2).ttDrive out false
        else s
      | 3 =>
        let want := decide (start ≤ t) && decide ((t - start) % (s.rn u Tt.PERIOD * Config.ns : Nat) < width)
        if want = act then s else s.ttDrive out want
      | 4 =>
        let p := s.rn u Tt.PLAN
        let x := t - s.rd u Tt.TICK_OFFSET * Config.ns
        let want := s.planOn p && decide (x - s.tickTime p (s.tickAt p x) x < width)
        if want = act then s else s.ttDrive out want
      | _ => s))

/-- Level changes of committed `ttset` instructions that are not yet driven: instant, order, level. -/
def triplesOf : List Int → List (Int × Nat × Nat)
  | a :: b :: c :: t => (a, b.toNat, c.toNat) :: triplesOf t
  | _ => []
def State.ttPending (s : State) (n : Nat) : List (Int × Nat × Nat) := triplesOf (s.buf (U.tt n) 0)
def State.setTtPending (s : State) (n : Nat) (l : List (Int × Nat × Nat)) : State :=
  s.setBuf (U.tt n) 0 (l.flatMap fun x => [x.1, (x.2.1 : Int), (x.2.2 : Int)])

/-- A `ttset` that has won its resolution will change the pin at its tick plus TICK_OFFSET (R104, R408). -/
def State.scheduleTt (s : State) (e : Staged) : State :=
  match e.eff with
  | .cfg 0x90 n _ vs =>
    if (s.ttPending n).any (·.2.1 == e.id) then s
    else
      let at_ := s.tickTime e.plan e.tick s.now + s.rd (U.tt n) Tt.TICK_OFFSET * Config.ns
      s.setTtPending n (s.ttPending n ++ [(at_, e.id, (vs.headD 0).toNat)])
  | _ => s

/-- A committed level change is driven at its instant (R408). -/
def execTtLevelChange (dt out : Nat) (s0 : State) : Res :=
  let s := s0.after dt
  let l := s.ttPending out
  .next (s.ifUp [U.tt out] (match (l.filter fun x => decide (x.1 ≤ (s.now : Int))) with
    | [] => s
    | x :: t =>
      let first := t.foldl (fun m y => if y.1 < m.1 then y else m) x
      let s1 := s.setTtPending out (l.filter (· != first))
      if s.rn (U.tt out) Tt.MODE = 1 then s1.ttChange out first.1 first.2.1 (first.2.2 == 1) else s1))

def judgeTtcfg (i : Issue) (s : State) : Judged :=
  let ps := Tt.ttcfgParams
  let pr := getParams ps false i
  let vs := pr.getD []
  let n := pn ps vs
  let ts := targets i 0x45 (U.tt 0) 4
  let mode := n Tt.MODE
  let start := n Tt.START_S * Config.second + n Tt.START_NS * Config.ns
  let timed := decide (1 ≤ mode) && decide (mode ≤ 3)
  { checks := (.format, i.badFlags true false true false || pr.isNone) :: eachTarget ts fun _ =>
      [(.range, !paramsOk ps vs || (timed && decide (start < s.now + 2 * Config.us)) || decide (n Tt.PERIOD < 2 * n Tt.WIDTH) ||
        ((mode == 2 || mode == 3) && n Tt.WIDTH == 0)), (.nounit, mode == 4 && !s.planOn (n Tt.PLAN))]
    verdict := .act ((ts.getD []).foldl (fun (a : State) k =>
      let u := U.tt k
      let b := (a.wrParams u ps vs).wrs u [(Tt.phase, 0), (Tt.armed, if mode = 1 then 1 else 0), (Tt.stamp, a.nextId)]
      let c := (b.setTtPending k [])
      -- outside LEVEL mode the new setting starts from the idle level
      if mode = 1 then c else if a.rb u Tt.active || a.rb u Tt.POLARITY != (n Tt.POLARITY == 1) then c.ttDrive k false else c) s) }
def execTtcfg (i : Issue) (s : State) : Res := .next (s.issue i .other (judgeTtcfg i))

def judgeTtset (i : Issue) (s : State) : Judged :=
  let ts := targets i 0x45 (U.tt 0) 4
  { checks := (.format, i.badFlags true false true false || decide (2 ≤ i.sub) || i.npw != 0 || i.params != []) :: eachTarget ts fun n => [(.locked, s.rn (U.tt n) Tt.MODE != 1)]
    verdict := .stage ((ts.getD []).map fun n => ⟨s.thn i.th Lamp.PLAN, 0, [⟨U.tt n, 0⟩], [], .cfg 0x90 n 0 [(i.sub : Int)]⟩) }
def execTtset (i : Issue) (s : State) : Res := .next (s.issue i (.ticked 0x90) (judgeTtset i))

end Sys2Proof.Machine
end

