-- ==== Sys2Proof/Machine/Lanes.lean ====
section
/-!
DEFINITION. Avenues and lanes: PLLs, lane configuration, equalisation, training, power states, tests and faults
(R143 to R163, R196, R244, R397, R449, R455), and the mapping of tributaries (R164 to R166).
-/
namespace Sys2Proof.Machine

/-! Lane bookkeeping: instants by which a waking side reaches ACTIVE (plus one; 0 not waking), whether the lane must
train when awake, whether `lanetrain` or the device trains it, the instant of the next automatic retraining, when the present
attempt began, and whether the last attempt failed. -/
def Lane.wakeTx : Field := ⟨300, 0, false, 0⟩
def Lane.wakeRx : Field := ⟨301, 0, false, 0⟩
def Lane.mustTrain : Field := ⟨302, 1, false, 0⟩
def Lane.training : Field := ⟨303, 1, false, 0⟩
def Lane.retrainAt : Field := ⟨304, 0, false, 0⟩
def Lane.trainAt : Field := ⟨323, 0, false, 0⟩
def Lane.trainBad : Field := ⟨324, 1, false, 0⟩
/-- Index of the last codeword of the frame received. -/
def Lane.cwIdx : Field := ⟨308, 4, false, 15⟩
/-- DEGRADE threshold condition and PTP loss cause are kept beside their units. -/

def State.setLane (s : State) (l : Nat) (f : Field) (v : Int) : State := s.wr (U.lane l) f v

/-! ### PLLs and rates (Tables 5.1, 5.2) -/

/-- PLL family that serves a lane rate code; 0 where the code does not occur. -/
def rateFamily (r : Nat) : Nat :=
  if r ≤ 1 then 1 else if r = 2 then 2 else if r = 3 then 3 else if r ≤ 8 then 4 else if r ≤ 12 then 5 else 0

/-- Modes that a rate code allows (Tables 5.2, 5.3), with the Ethernet port types. -/
def modeRateOk (mode rate port : Nat) : Bool :=
  match mode with
  | 0 => true
  | 1 => decide (rate ≤ 3) && port == 0
  | 2 => (rate == 0 && decide (1 ≤ port)) || (rate == 2 && port == 0)
  | _ => decide (4 ≤ rate) && decide (rate ≤ 12) && port == 0

def pllFamilyF (pll : Nat) : Field := if pll = 0 then Avenue.PLLA_FAMILY else Avenue.PLLB_FAMILY
def pllLockF (pll : Nat) : Field := if pll = 0 then Avenue.PLLA_LOCK else Avenue.PLLB_LOCK

/-- PAM4 rates; the Alley runs at PAM4 and the Footpath at NRZ (R415, R521). -/
def State.pam4 (s : State) (l : Nat) : Bool := if l < 288 then decide (s.laneN l Lane.RATE ≤ 1) else decide (l < 292)

/-- Some side of a lane pair assigned to the PLL is not OFF (R144, R157). -/
def State.pllUsed (s : State) (a pll : Nat) : Bool :=
  (List.range 8).any fun b =>
    let l := 8 * a + b
    s.laneN l Lane.PLL == pll && (s.laneN l Lane.TX_STATE != 3 || s.laneN l Lane.RX_STATE != 3)

/-- An Avenue PLL none of whose sides is powered powers down and keeps its family (R157). -/
def State.pllIdle (s : State) (l pll : Nat) : State :=
  if 288 ≤ l || s.pllUsed (l / 8) pll then s else s.wr (U.avenue (l / 8)) (pllLockF pll) 0

/-! ### Ports and MACs (R149, R196) -/

/-- Lanes of a port type. -/
def portWidth (port : Nat) : Nat := if port = 2 then 2 else if port = 3 then 4 else 1
/-- Lanes of the port that lane `l` belongs to, lowest first; the lane alone outside Ethernet. -/
def State.portLanes (s : State) (l : Nat) : List Nat :=
  if s.laneN l Lane.MODE = 2 then
    let w := portWidth (s.laneN l Lane.PORT)
    (List.range w).map (· + (l - l % w))
  else [l]
/-- Lane `l` is the lowest lane of a configured Ethernet port. -/
def State.isPort (s : State) (l : Nat) : Bool :=
  decide (l < 288) && s.laneN l Lane.MODE == 2 && (s.portLanes l).headD l == l
/-- MAC bound to a lane. -/
def State.macOfLane (s : State) (l : Nat) : Option Nat := (s.holding (U.mac 0) 144 Mac.LANE (l : Nat)).head?

/-- Transmit and forwarding legs, enabled, that use MAC `m`. -/
def State.txUses (s : State) (u m : Nat) : Bool :=
  (s.rb u Tx.A_ENABLE && s.rn u Tx.A_MAC == m) || (s.rb u Tx.B_ENABLE && s.rn u Tx.B_MAC == m)
/-- Transmit contexts configured, lowest first. -/
def State.txActive (s : State) : List Nat :=
  s.regs.filterMap fun e => if e.1.pos = Tx.TYPE.pos && decide (U.tx 0 ≤ e.1.unit) && decide (e.1.unit < U.tx 8192) then some (e.1.unit - U.tx 0) else none
/-- Result words of the classifier that feed a receive flow context from MAC `m` (Tables 7.3, 7.4). -/
def clsMac (e : List Nat) : Nat := bitsAt (e.headD 0) 9 2
/-- An entry may match a frame of MAC `m`: an exact one that names it or 0xFF, a wildcard one whose compared MAC bits agree. -/
def clsTakes (m : Nat) (e : Key × List Nat) : Bool :=
  if e.1.unit = 4 then bitsAt (e.2.getD 1 0) 9 2 &&& (clsMac e.2 ^^^ m) == 0 else clsMac e.2 == m || clsMac e.2 == 255
def State.rxBound (s : State) (m : Nat) : Bool :=
  s.classifier.any fun e => clsTakes m e && bitsAt (e.2.getLastD 0) 1 0 == 1
/-- A receive or transmit flow context uses the MAC (R151, R196). -/
def State.macInUse (s : State) (m : Nat) : Bool :=
  s.rxBound m || s.txActive.any fun c => s.txUses (U.tx c) m

/-- The link of a MAC has changed: PTP instances on it lose or regain their port (R397), and transmit contexts enter
or leave NO_LINK (R244). -/
def State.macLink (s : State) (m : Nat) (up : Bool) : State :=
  let s1 := s.wrs (U.mac m) [(Mac.LINK, if up then 1 else 0), (unitWorkF, s.clk)]
  let ptp := fun (a : State) (i : Nat) =>
    let u := U.ptp i
    if a.rb u Ptp.ENABLE && a.rn u Ptp.MAC == m then
      if up then (if a.rn u Ptp.STATE = 4 then a.wr u Ptp.STATE (if a.rd u Ptp.PARENT_PORT = 0 then 1 else 2) else a)
      else if a.rn u Ptp.STATE = 4 then a
      else a.ptpLoss i lostLink ptFaulty
    else a
  let s2 := [0, 1].foldl ptp s1
  s2.txActive.foldl (fun a c =>
    let u := U.tx c
    if a.txUses u m then
      let legUp := fun (en mac : Field) => a.rb u en && a.rb (U.mac (a.rn u mac)) Mac.LINK
      let sent := a.legRule (a.rb u Tx.LEG_POLICY)
      let any := (sent.1 && legUp Tx.A_ENABLE Tx.A_MAC) || (sent.2 && legUp Tx.B_ENABLE Tx.B_MAC)
      let st := a.rn u Tx.STATE
      if !any && st != 4 then (a.wr u Tx.STATE 4).postEntry u 4 st 0 0
      else if any && st == 4 then a.wr u Tx.STATE 1
      else a
    else a) s2

/-- MAC link of the port of lane `l` after a change of a lane's LINK (Table 7.13). -/
def State.evalMac (s : State) (l : Nat) : State :=
  match s.macOfLane ((s.portLanes l).headD l) with
  | none => s
  | some m =>
    let up := s.isPort ((s.portLanes l).headD l) && (s.portLanes l).all fun x => s.rb (U.lane x) Lane.LINK
    if up = s.rb (U.mac m) Mac.LINK then s else s.macLink m up

/-! ### Links -/

/-- Tributaries mapped to a lane. -/
def State.tribsOf (s : State) (l : Nat) : List Nat := s.holding (U.trib 0) 1152 Trib.LANE (l : Nat)

/-- Packet seats fed through MAC `m` and through no MAC whose link is up (R156). -/
def State.packetSeats (s : State) (m : Nat) : List Nat :=
  let fed := fun (ms : Nat → Bool) (c : Nat) => s.classifier.any fun e =>
    bitsAt (e.2.getLastD 0) 1 0 == 1 && bitsAt (e.2.getLastD 0) 15 3 == c && (List.range 144).any fun x => ms x && clsTakes x e
  ((s.classifier.filterMap fun e => if clsTakes m e && bitsAt (e.2.getLastD 0) 1 0 == 1 then some (bitsAt (e.2.getLastD 0) 15 3) else none).eraseDups.filter
    fun c => (s.rn (U.rx c) Rx.TYPE == 1 || s.rn (U.rx c) Rx.TYPE == 5) && !fed (fun x => x != m && s.rb (U.mac x) Mac.LINK) c).map
      fun c => 1152 + s.rn (U.rx c) Rx.SEAT
/-- The seats fed from a lane are lost: their Kerbs enter LOST (R156, R68). -/
def State.seatsLost (s : State) (l : Nat) : State :=
  let s1 := (s.tribsOf l).foldl (fun a t =>
    (if s.laneN l Lane.MODE = 3 then a.wr (U.trib t) Trib.RX_STATE 2 else a).kerbLose t) s
  match s.macOfLane ((s.portLanes l).headD l) with
  | some m => (s.packetSeats m).foldl (fun a k => a.kerbLose k) s1
  | none => s1

/-- `lanetrain` runs on the lane. -/
def State.trainRunning (s : State) (l : Nat) : Bool := s.bg.any fun b => b.op == 0x5B && b.vals.contains (l : Int)
/-- The attempt of lane `l` is over: each `lanetrain` that waits for it has its final code once all its lanes are (R154). -/
def State.trainOver (s : State) (l : Nat) (ok : Bool) : State :=
  (s.bg.filter fun b => b.op == 0x5B && b.vals.contains (l : Int)).foldl (fun (x : State) b =>
    let rest := b.vals.filter (· != (l : Int))
    let bad := if ok then b.sub else 1
    if rest.isEmpty then State.closePart { x with bg := x.bg.filter fun y => y.pid != b.pid } b.pid (if bad = 0 then 0 else Code.fault.num)
    else { x with bg := x.bg.map fun y => if y.pid = b.pid then { y with vals := rest, sub := bad } else y }) s

/-- Training begins (R154): NEGOTIATE for Ethernet, TRAINING for Haywain. -/
def State.startTrain (s : State) (l : Nat) : State :=
  let m := if l < 288 then s.laneN l Lane.MODE else 1
  if m = 1 ∨ m = 2 then
    ((s.wrs (U.lane l) [(Lane.TRAIN_STATE, if m = 2 then 1 else 2), (Lane.training, 1), (Lane.mustTrain, 0), (Lane.cwLock, 0),
      (Lane.frameLock, 0), (Lane.trainAt, s.clk)]).seatsLost l).count (U.lane l) Ctr.Lane.TRAIN_ATTEMPTS
  else s.setLane l Lane.mustTrain 0
/-- Time within which a training attempt must reach LINK = UP (Table 5.8). -/
def State.trainLimit (s : State) (l : Nat) : Nat :=
  (if l < 288 ∧ s.laneN l Lane.MODE = 2 then 3000 else if l < 288 ∧ s.laneN l Lane.MODE = 3 then 2 else if s.pam4 l then 100 else 50) * Config.ms

/-- LINK of Table 5.14: trained and framed, or SDI locked, with the RX side receiving. -/
def State.linkCond (s : State) (l : Nat) : Bool :=
  let m := if l < 288 then s.laneN l Lane.MODE else 1
  let rx := s.laneN l Lane.RX_STATE == 0 && s.rb (U.lane l) Lane.CDR_LOCK && s.rb (U.lane l) Lane.SIGNAL
  rx && if 288 ≤ l then s.laneN l Lane.TRAIN_STATE == 3 else match m with
    | 1 => s.laneN l Lane.TRAIN_STATE == 3 && s.rb (U.lane l) Lane.cwLock && s.rb (U.lane l) Lane.frameLock
    | 2 => s.laneN l Lane.TRAIN_STATE == 3
    | 3 => s.rb (U.lane l) Lane.aligned
    | _ => false

/-- LINK follows its condition. A link that comes up ends its training; one that drops loses it: under AUTO it retrains at once while
the RX side is ACTIVE, under MANUAL it stays down until the next `lanetrain` (R154). Direct SDI does not train. -/
def State.evalLink (s : State) (l : Nat) : State :=
  let up := s.linkCond l
  let was := s.rb (U.lane l) Lane.LINK
  let s0 := if up && s.rb (U.lane l) Lane.training then
      let a := s.wrs (U.lane l) [(Lane.training, 0), (Lane.trainBad, 0)]
      (if s.rb (U.lane l) Lane.trainBad then a.post (U.lane l) evStateEntry 0 else a).trainOver l true
    else s
  if up = was then (if up && l < 288 && s.laneN l Lane.MODE == 3 then s0.trainOver l true else s0)
  else
    let s1 := (s0.setLane l Lane.LINK (if up then 1 else 0)).evalMac l
    if up then (if s1.laneN l Lane.MODE = 3 then s1.trainOver l true else s1)
    else if s1.rb (U.lane l) Lane.training then s1
    else if s1.laneN l Lane.RETRAIN = 0 ∧ s1.laneN l Lane.RX_STATE = 0 then s1.startTrain l
    else if s1.laneN l Lane.TRAIN_STATE = 3 then s1.setLane l Lane.TRAIN_STATE 0 else s1

/-- The RX side no longer receives (R156, R162). -/
def State.rxLost (s : State) (l : Nat) (signal cdr : Bool) : State :=
  ((s.wrs (U.lane l) [(Lane.SIGNAL, if signal then 1 else 0), (Lane.CDR_LOCK, if cdr then 1 else 0), (Lane.aligned, 0)]).seatsLost l).evalLink l

/-- Default FFE taps by modulation (Table 5.6), in the layout of LANE.STATUS.FFE. -/
def ffeDefault (pam4 : Bool) : Nat :=
  let t := fun (v : Int) => (v % 64).toNat
  if pam4 then t (-6) * 2 ^ 13 + 50 * 2 ^ 6 + t (-8) else t (-4) * 2 ^ 13 + 54 * 2 ^ 6 + t (-6)

/-- Wake times of Table 5.9 from SLEEP, QUIET and OFF. -/
def wakeTime (from_ : Nat) : Nat := if from_ = 1 then 2 * Config.us else if from_ = 2 then 500 * Config.us else if from_ = 3 then 20 * Config.ms else 0

/-- A side begins to wake from state `from_`; a PLL that is not locked adds its relock (R155, R157). -/
def State.wakeSide (s : State) (l from_ : Nat) (tx : Bool) : State :=
  let relock := decide (l < 288) && !s.rb (U.avenue (l / 8)) (pllLockF (s.laneN l Lane.PLL))
  let due := s.clk + wakeTime from_ + (if relock then 2 * Config.ms else 0) + 1
  let s1 := s.wrs (U.lane l) [(if tx then Lane.wakeTx else Lane.wakeRx, due)]
  -- nothing was kept in OFF: the TX takes the default taps, the RX adapts anew, or takes the values given (R153)
  if from_ ≠ 3 then s1
  else if tx then s1.wrs (U.lane l) [(Lane.mustTrain, 1), (Lane.FFE, ffeDefault (s.pam4 l))]
  else s1.wrs (U.lane l) [(Lane.mustTrain, 1), (Lane.CTLE, if s.laneN l Lane.EQ_MODE = 2 then s.rd (U.lane l) Lane.CTLE_SET else 0)]

/-- One side set to a power state (R155 to R157). -/
def State.setSide (s : State) (l st : Nat) (tx : Bool) : State :=
  let f := if tx then Lane.TX_STATE else Lane.RX_STATE
  let cur := s.laneN l f
  let wf := if tx then Lane.wakeTx else Lane.wakeRx
  if l < 288 ∧ s.laneN l Lane.MODE = 0 then s
  else if cur = st then s.setLane l wf 0   -- the last instruction stands: a wake under way is given up (R150)
  else if st = 0 then (if s.rb (U.lane l) wf then s else s.wakeSide l cur tx)
  else
    let s1 := s.wrs (U.lane l) [(f, st), (wf, 0)]
    let s2 := if tx then s1 else s1.rxLost l false false
    let s3 := if st = 3 then s2.wrs (U.lane l) [(if tx then Lane.FFE else Lane.CTLE, 0), (Lane.TRAIN_STATE, 0), (Lane.training, 0)] else s2
    s3.pllIdle l (s.laneN l Lane.PLL)

/-! ### Live traffic (R151) -/

/-- Source seat `t` is selected, now or in a staged selection, or destination seat `t` has a selection. -/
def State.seatLive (s : State) (t : Nat) : Bool :=
  s.anyCellNames (fun _ => true) (· == t) || s.cellN t Cell.SOURCE != noSeat

def State.laneLive (s : State) (l : Nat) : Bool :=
  (s.tribsOf l).any s.seatLive ||
  match s.macOfLane ((s.portLanes l).headD l) with
  | some m => s.macInUse m
  | none => false

/-- Lanes that a lane instruction addresses (R449, R37). -/
def laneTargets (i : Issue) : Option (List Nat) := targets i 0x08 (U.lane 0) 294
/-- The lanes on which it acts: those of a port with its lowest lane (R149). -/
def State.actLanes (s : State) (i : Issue) : List Nat := (((laneTargets i).getD []).flatMap s.portLanes).eraseDups
/-- R149: a lane of a port other than its lowest, addressed alone. -/
def State.notLowest (s : State) (i : Issue) (l : Nat) : Bool :=
  decide (((laneTargets i).getD []).length = 1) && (s.portLanes l).headD l != l
/-- What the STANDBY device permits: test, power and training of Alley and Footpath lanes (R420). -/
def lanePermit (i : Issue) : Nat := if ((laneTargets i).getD []).all (288 ≤ ·) then 1 else 0

/-! ### Instructions -/

def judgePllcfg (i : Issue) (s : State) : Judged :=
  let av := targets i 0x07 (U.avenue 0) 36
  let a := (av.getD []).headD 0
  let pll := i.sub % 2
  let fam := bitsAt i.sub 3 1
  let u := U.avenue a
  let change := s.rn u (pllFamilyF pll) != fam
  let s1 := if change then s.wrs u [(pllFamilyF pll, fam), (pllLockF pll, 0)] else s
  { checks := [(.format, i.badFlags true false true false || decide (16 ≤ i.sub) || i.npw != 0 || !i.params.isEmpty),
      (.range, av.isNone || decide (5 < fam)), (.locked, change && s.pllUsed a pll)]
    verdict := if fam = 0 || s1.rb u (pllLockF pll) then .act s1 else .start s1 0x58 a pll [] 0 }
def execPllcfg (i : Issue) (s : State) : Res := .next (s.issue i .other (judgePllcfg i))

/-- The lanes that a configuration of lane `l` covers. -/
def cfgLanes (l mode port : Nat) : List Nat :=
  if mode = 2 then (List.range (portWidth port)).map (· + l) else [l]

/-- A `lanecfg` to OFF is held neither to the PLL's family nor to a PLL that is OFF: it chooses no rate (DESIGN CHOICE,
notes/assumptions/94.md). `ls` are the lanes addressed, whose ports count together against R149. -/
def lanecfgChecks (s : State) (i : Issue) (vs : List Int) (ls : List Nat) (l : Nat) : Checks :=
  let ps := Lane.lanecfgParams
  let mode := pn ps vs Lane.MODE
  let rate := pn ps vs Lane.RATE
  let port := pn ps vs Lane.PORT
  let fam := s.rn (U.avenue (l / 8)) (pllFamilyF (pn ps vs Lane.PLL))
  let covered := (cfgLanes l mode port ++ s.portLanes l).eraseDups
  -- every port of the device once this configuration stands on every lane addressed
  let new := if mode = 2 then (ls.filter fun x => x % portWidth port == 0).length else 0
  let gone := ls.flatMap fun x => cfgLanes x mode port ++ s.portLanes x
  let ports := (List.range 288).filter fun x => !gone.contains x && s.isPort x
  let four := (ports.filter fun x => s.laneN x Lane.PORT == 3).length + (if port = 3 then new else 0)
  let all := ports.length + new
  [(.range, decide (288 ≤ l) || !paramsOk ps vs || !modeRateOk mode rate (if mode = 2 then port else 0) ||
      (mode == 2 && l % portWidth port != 0 && decide (ls.length = 1)) || (decide (ls.length = 1) && (s.portLanes l).headD l != l) ||
      (mode != 0 && fam != 0 && rateFamily rate != fam)),
   (.nounit, s.unitBad (U.lane l) || (mode != 0 && fam == 0)),
   (.locked, covered.any s.trainRunning || (!i.force && covered.any s.laneLive)),
   (.bandwidth, mode == 2 && (decide (144 < all) || decide (36 < four)))]

/-- One lane takes a configuration: a change of MODE, RATE or PLL puts both sides through the wake from SLEEP, and OFF
holds both sides OFF (R148, R151). What SLEEP keeps is kept (R155). -/
def State.laneTake (s : State) (vs : List Int) (l : Nat) : State :=
  let ps := Lane.lanecfgParams
  let u := U.lane l
  let change := [Lane.MODE, Lane.RATE, Lane.PLL].any fun f => s.rd u f != pv ps vs f
  let pll := s.laneN l Lane.PLL
  let s1 := s.wrParams u ps vs
  let sdi := fun (a : State) => (a.tribsOf l).foldl (fun x t => x.wrs (U.trib t) [(Trib.RX_STATE, if pn ps vs Lane.MODE = 3 then 2 else 0),
    (Trib.TX_STATE, if pn ps vs Lane.MODE = 3 then 2 else 0)]) a
  if pn ps vs Lane.MODE = 0 then
    let s2 := (s1.wrs u [(Lane.MODE, s.rd u Lane.MODE), (Lane.TX_STATE, 3), (Lane.RX_STATE, 3), (Lane.wakeTx, 0), (Lane.wakeRx, 0), (Lane.TRAIN_STATE, 0),
      (Lane.training, 0), (Lane.FFE, 0), (Lane.CTLE, 0), (Lane.RX_RATE, 15)]).rxLost l false false
    sdi (((s2.wrs u [(Lane.MODE, 0), (Lane.training, 0), (Lane.TRAIN_STATE, 0)]).pllIdle l pll).pllIdle l (1 - pll))
  else if !change then s1
  else
    let off := decide (s.laneN l Lane.TX_STATE = 3)
    let s2 := s1.wrs u [(Lane.TX_STATE, 2), (Lane.RX_STATE, 2), (Lane.mustTrain, 1), (Lane.training, 0), (Lane.TRAIN_STATE, 0),
      (Lane.FFE, if off then ffeDefault (s1.pam4 l) else s.rd u Lane.FFE), (Lane.RX_RATE, if pn ps vs Lane.MODE = 3 then 15 else pv ps vs Lane.RATE),
      (Lane.DEGRADED, 0), (Lane.cwLock, 0), (Lane.frameLock, 0)]
    sdi ((((s2.rxLost l false false).wakeSide l 2 true).wakeSide l 2 false).pllIdle l pll)

def State.laneConfigure (s : State) (vs : List Int) (l : Nat) : State :=
  let ps := Lane.lanecfgParams
  let new := cfgLanes l (pn ps vs Lane.MODE) (pn ps vs Lane.PORT)
  let gone := (s.portLanes l).filter fun x => !new.contains x
  let off := gone.foldl (fun a x => a.laneTake ((ps.map fun p => if p.fld.pos = Lane.MODE.pos then 0 else s.rd (U.lane x) p.fld)) x) s
  let s1 := new.foldl (fun a x => a.laneTake vs x) off
  match s1.macOfLane l with
  | some m => (s1.wr (U.mac m) Mac.PORT (s1.laneN l Lane.PORT)).evalMac l
  | none => s1

def judgeLanecfg (i : Issue) (s : State) : Judged :=
  let pr := getParams Lane.lanecfgParams false i
  let vs := pr.getD []
  let ls := laneTargets i
  let act := (ls.getD []).filter fun l => decide ((ls.getD []).length = 1) || pn Lane.lanecfgParams vs Lane.MODE != 2 || l % portWidth (pn Lane.lanecfgParams vs Lane.PORT) == 0
  { checks := (.format, i.badFlags true false true false || pr.isNone) :: eachTarget ls (lanecfgChecks s i vs (ls.getD []))
    members := memberChecks (U.lane 0) ls (lanecfgChecks s i vs (ls.getD []))
    verdict := .act (act.foldl (fun a l => a.laneConfigure vs l) s) }
def execLanecfg (i : Issue) (s : State) : Res := .next (s.issue i .other (judgeLanecfg i))

/-- Taps of an FFE value in the order PRE3, PRE2, PRE1, MAIN, POST1 (Table 5.14). -/
def ffeTaps (f : Nat) : List Int :=
  [signedAt 6 (bitsAt f 30 25), signedAt 6 (bitsAt f 24 19), signedAt 6 (bitsAt f 18 13), (bitsAt f 12 6 : Nat), signedAt 6 (bitsAt f 5 0)]
/-- R152: every tap in its range and the magnitudes in use at most 64; PRE3 and PRE2 count at PAM4 only. -/
def ffeOk (pam4 : Bool) (f : Nat) : Bool :=
  match ffeTaps f with
  | [p3, p2, p1, m, q] =>
    let in_ := fun (v lo hi : Int) => decide (lo ≤ v) && decide (v ≤ hi)
    in_ p1 (-24) 0 && in_ m 24 64 && in_ q (-24) 0 &&
      (if pam4 then in_ p3 (-4) 4 && in_ p2 (-8) 8 && decide (p3.natAbs + p2.natAbs + p1.natAbs + m.natAbs + q.natAbs ≤ 64)
       else decide (p1.natAbs + m.natAbs + q.natAbs ≤ 64))
  | _ => false

/-- Fields of word 0 and of words 1 to 6 of `laneeq` (Table 16.6). -/
def eqHead : List Field := [Lane.FFE, Lane.EQ_MODE, Lane.CTLE_SET]
def eqDfe : List Field := (Lane.laneeqParams.drop 3).map (·.fld)
def laneeqParse (i : Issue) : Option (List Int × List Int) :=
  let w0 := i.params.take 1
  let w := i.params.drop 1
  if i.npw = 7 ∧ i.params.length = 7 ∧ pack eqHead (unpack eqHead w0) = w0 ∧ pack eqDfe (unpack eqDfe w) = w then
    some (unpack eqHead w0, unpack eqDfe w)
  else none

def judgeLaneeq (i : Issue) (s : State) : Judged :=
  let pr := laneeqParse i
  let (h, d) := pr.getD ([0, 0, 0], [])
  let tx := bitAt i.sub 0
  let rx := bitAt i.sub 1
  let ffe := (h.headD 0).toNat
  let mode := (h.drop 1).headD 0
  let ctle := (h.drop 2).headD 0
  let dfeOk := decide ((d.headD 0).natAbs ≤ 512) && (d.drop 1).all fun v => decide (v.natAbs ≤ 128)
  let ls := laneTargets i
  let each := fun l => [(.nounit, s.unitBad (U.lane l)), (.range, s.notLowest i l || (tx && !ffeOk (s.pam4 l) ffe)), (.locked, s.trainRunning l)]
  let one := fun (a : State) (l : Nat) =>
    let a1 := if tx then a.setLane l Lane.FFE ffe else a
    if rx then
      let a2 := a1.setLane l Lane.EQ_MODE mode
      if mode = 2 then (a2.wrs (U.lane l) (eqDfe.zip d)).wrs (U.lane l) [(Lane.CTLE_SET, ctle), (Lane.CTLE, ctle)] else a2
    else a1
  { checks := (.format, i.badFlags true false true false || decide (4 ≤ i.sub) || pr.isNone) ::
      (.range, rx && (mode == 3 || decide (48 < ctle) || !dfeOk)) ::
      eachTarget ls each
    members := memberChecks (U.lane 0) ls each
    verdict := .act ((s.actLanes i).foldl one s) }
def execLaneeq (i : Issue) (s : State) : Res := .next (s.issue i .other (judgeLaneeq i))

def judgeLanetrain (i : Issue) (s : State) : Judged :=
  let ls := laneTargets i
  let each := fun l => [(.nounit, s.unitBad (U.lane l)), (.range, s.notLowest i l), (.locked, s.trainRunning l)]
  { checks := (.format, i.badFlags true false true false || i.sub != 0 || i.npw != 0 || !i.params.isEmpty) ::
      eachTarget ls each
    members := memberChecks (U.lane 0) ls each
    verdict := .start ((s.actLanes i).foldl (fun a l => (a.startTrain l).evalLink l) s) 0x5B 0 0 ((s.actLanes i).map fun (l : Nat) => (l : Int)) 0
    permit := lanePermit i }
def execLanetrain (i : Issue) (s : State) : Res := .next (s.issue i .other (judgeLanetrain i))

def judgeLanepwr (i : Issue) (s : State) : Judged :=
  let sides := i.sub % 4
  let st := bitsAt i.sub 3 2
  let ls := laneTargets i
  let each := fun l => [(.nounit, s.unitBad (U.lane l)), (.range, s.notLowest i l || (decide (288 ≤ l) && decide (2 ≤ st))),
    (.locked, st != 0 && !i.force && s.laneLive l)]
  { checks := (.format, i.badFlags true false true false || decide (16 ≤ i.sub) || i.npw != 0 || !i.params.isEmpty) ::
      eachTarget ls each
    members := memberChecks (U.lane 0) ls each
    verdict := .act ((s.actLanes i).foldl (fun a l =>
      let a1 := if bitAt sides 0 then a.setSide l st true else a
      if bitAt sides 1 then a1.setSide l st false else a1) s)
    permit := lanePermit i }
def execLanepwr (i : Issue) (s : State) : Res := .next (s.issue i .other (judgeLanepwr i))

/-! Test paths of a lane: PRBS generator register; checker register, error-free bits running (up to 1,024) and place in the stream
checked; flips that wait for the next bits sent. -/
def Lane.genReg : Field := ⟨330, 31, false, 0x7FFFFFFF⟩
def Lane.chkReg : Field := ⟨331, 31, false, 0⟩
def Lane.chkRun : Field := ⟨332, 0, false, 0⟩
def Lane.chkAt : Field := ⟨333, 0, false, 0⟩
def Lane.flips : Field := ⟨334, 0, false, 0⟩
/-- The PLL of the lane is locked: always, for the Alley and the Footpath. -/
def State.pllReady (s : State) (l : Nat) : Bool := decide (288 ≤ l) || s.rb (U.avenue (l / 8)) (pllLockF (s.laneN l Lane.PLL))
/-- The TX side sends: ACTIVE, and not squelched by a PLL without lock (R156, R162). -/
def State.laneSends (s : State) (l : Nat) : Bool := s.laneN l Lane.TX_STATE == 0 && s.pllReady l
/-- NEAR_SERIAL or NEAR_PARALLEL (Table 5.12): the RX pins are ignored. -/
def State.nearLoop (s : State) (l : Nat) : Bool := s.laneN l Lane.LOOPBACK == 1 || s.laneN l Lane.LOOPBACK == 2
/-- What the lane's own data reaches: the TX pins carry it unless a near-end loopback without MIRROR holds them idle, or FAR sends the
received data (Table 5.12). -/
def State.pinsCarry (s : State) (l : Nat) : Bool := s.laneN l Lane.LOOPBACK == 0 || (s.nearLoop l && s.rb (U.lane l) Lane.MIRROR)
/-- Bits that one injection flips (Table 5.11). -/
def State.injectBits (s : State) (l : Nat) : Nat := if s.laneN l Lane.KIND = 1 then s.laneN l Lane.BURST else 1
/-- One injection into the TX stream of a lane that sends: the flips act on the bits that it sends next (R160). -/
def State.inject (s : State) (l : Nat) : State :=
  if !s.laneSends l then s
  else (s.setLane l Lane.flips (s.rd (U.lane l) Lane.flips + 1)).countBy (U.lane l) Ctr.Lane.INJECTED (s.injectBits l)

def lanetestChecks (s : State) (i : Issue) (vs : List Int) (l : Nat) : Checks :=
  let ps := Lane.lanetestParams
  let on := fun f => pv ps vs f == 1
  let pat := fun (en p : Field) => decide (5 < pv ps vs p) || (on en && pv ps vs p == 2 && !s.pam4 l)
  let inj := pn ps vs Lane.INJ
  let rxRate := if s.laneN l Lane.MODE = 3 then s.laneN l Lane.RX_RATE else s.laneN l Lane.RATE
  [(.range, s.notLowest i l || pat Lane.GEN_EN Lane.GEN_PAT || pat Lane.CHK_EN Lane.CHK_PAT || inj == 3 || decide (2 < pv ps vs Lane.KIND) ||
      (inj != 0 && pv ps vs Lane.KIND == 1 && decide (pv ps vs Lane.BURST < 2)) || (inj == 2 && pv ps vs Lane.N != 0 && decide (pv ps vs Lane.N < 1024)) ||
      (pv ps vs Lane.LOOPBACK == 3 && (s.rb (U.lane l) Lane.PRECODE || rxRate != s.laneN l Lane.RATE))),
   (.nounit, s.unitBad (U.lane l)), (.locked, s.trainRunning l || (!i.force && s.laneLive l))]

def judgeLanetest (i : Issue) (s : State) : Judged :=
  let pr := getParams Lane.lanetestParams false i
  let vs := pr.getD []
  let ls := laneTargets i
  let one := fun (a : State) (l : Nat) =>
    let a1 := a.wrParams (U.lane l) Lane.lanetestParams vs
    let same := fun (fs : List Field) => fs.all fun f => a1.rd (U.lane l) f == a.rd (U.lane l) f
    let a2 := if same [Lane.GEN_EN, Lane.GEN_PAT, Lane.GEN_INV] then a1 else a1.setLane l Lane.genReg 0x7FFFFFFF
    let a3 := if same [Lane.CHK_EN, Lane.CHK_PAT, Lane.CHK_INV] then a2
      else a2.wrs (U.lane l) [(Lane.PRBS_LOCK, 0), (Lane.chkRun, 0), (Lane.chkReg, 0)]
    -- a near-end loopback gives the RX side the lane's own signal (R161)
    let a4 := if a3.nearLoop l && a3.laneN l Lane.TX_STATE == 0 && a3.laneN l Lane.RX_STATE == 0 then a3.wrs (U.lane l) [(Lane.SIGNAL, 1), (Lane.CDR_LOCK, 1)] else a3
    if a4.laneN l Lane.INJ = 1 then a4.inject l else a4
  { checks := (.format, i.badFlags true false true false || pr.isNone) :: eachTarget ls (lanetestChecks s i vs)
    members := memberChecks (U.lane 0) ls (lanetestChecks s i vs)
    verdict := .act ((s.actLanes i).foldl one s)
    permit := lanePermit i }
def execLanetest (i : Issue) (s : State) : Res := .next (s.issue i .other (judgeLanetest i))

/-! ### Lane events -/

/-- Interface rate class and /1.001 of an SDI rate code (Tables 5.2, 6.6). -/
def sdiClass (code : Nat) : Nat := sdiRate code / 2
def sdiM1001 (code : Nat) : Nat := if 9 ≤ code then 1 else 0
/-- Rate of an SDI rate code in bits per second, times 1001. -/
def sdiBps1001 (code : Nat) : Nat :=
  match code with
  | 4 => 11880000000 * 1001 | 5 => 5940000000 * 1001 | 6 => 2970000000 * 1001 | 7 => 1485000000 * 1001 | 8 => 270000000 * 1001
  | 9 => 11880000000 * 1000 | 10 => 5940000000 * 1000 | 11 => 2970000000 * 1000 | 12 => 1485000000 * 1000 | _ => 0
/-- How far `bps` lies from a rate code, in parts per million of it, rounded up. -/
def ppmFrom (bps code : Nat) : Nat := (((bps * 1001 : Nat) - (sdiBps1001 code : Int)).natAbs * 1000000 + sdiBps1001 code - 1) / sdiBps1001 code
/-- R147: the code of Table 5.2 nearest to a signal of `bps` bits per second that lies within 1,200 ppm of a rate which a PLL of family
`fam` can generate; none for a signal that does not. -/
def sdiDetect (fam bps : Nat) : Option Nat :=
  let near := fun (fs : Nat → Bool) => [4, 5, 6, 7, 8, 9, 10, 11, 12].filter fun c => fs (rateFamily c) && decide (ppmFrom bps c ≤ 1200)
  if (near (· == fam)).isEmpty then none
  else (near fun _ => true).foldl (fun a c => match a with
    | none => some c
    | some b => if ppmFrom bps c < ppmFrom bps b then some c else a) none

/-- FOLLOW outputs that emit seat `t`, of rate `key` since now, and cannot carry it count RATE_MISMATCH; so do those that take it
through a return seat (R184). `fuel` bounds the chain of return seats. -/
def State.rateMoved : Nat → Nat → Nat → State → State
  | 0, _, _, s => s
  | fuel + 1, t, key, s =>
    ((s.holding 0 2688 Cell.SOURCE (t : Nat)).filter fun d => !s.cellTimed d).foldl (fun a d =>
      let a1 := if a.outputRefuses d key then a.count (U.trib d) Ctr.Trib.RATE_MISMATCH else a
      (a1.holding (U.ret 0) 192 Ret.MIRROR (d : Nat)).foldl (fun x r => State.rateMoved fuel (2496 + r) key x) a1) s
/-- The detected or received rate of a tributary input (R177, R184). -/
def State.tribRate (s : State) (t cls m1001 : Nat) : State :=
  let u := U.trib t
  let s1 := s.wrs u [(Trib.RX_RATE, cls), (Trib.RX_M1001, m1001)]
  if s.rn u Trib.RX_RATE = cls ∧ s.rn u Trib.RX_M1001 = m1001 then s1 else State.rateMoved 8 t (2 * cls + m1001) s1
/-- The tributaries of a direct SDI lane show the detected rate (Table 6.12). -/
def State.sdiDetected (s : State) (l code : Nat) : State :=
  (s.tribsOf l).foldl (fun a t => a.tribRate t (sdiClass code) (sdiM1001 code)) (s.setLane l Lane.RX_RATE code)
/-- An event that names a lane: an entry of Table 5.13 counted at the lane, with local fault evidence, or a recovery. -/
def State.laneFault (s : State) (l j : Nat) : State := ((s.count (U.lane l) j).post (U.lane l) evHardwareFault 0).evidence 1 (U.lane l)
def State.laneRecovery (s : State) (l : Nat) : State := s.post (U.lane l) evStateEntry 0
/-- Under AUTO a lane that is not trained trains when a signal is there (R154). -/
def State.trainOnSignal (s : State) (l : Nat) : State :=
  (if s.laneN l Lane.RETRAIN = 0 && !s.rb (U.lane l) Lane.training && s.laneN l Lane.TRAIN_STATE != 3 then s.startTrain l else s).evalLink l

/-- The signal at the RX pins of a lane is lost (none), or is there at a rate of so many bits per second: a direct SDI lane detects the
rate, and treats one outside R147 as lost (R147, R162). A near-end loopback ignores the pins (R161). -/
def execLaneLos (dt l : Nat) (bps : Option Nat) (s0 : State) : Res :=
  let s := s0.after dt
  let u := U.lane l
  let live := decide (l < 294) && s.laneN l Lane.RX_STATE == 0 && !s.nearLoop l
  let sdi := decide (l < 288) && s.laneN l Lane.MODE == 3
  .next (s.ifUp [U.lane l] (if !live then s
    else match bps with
    | none => if s.rb u Lane.SIGNAL then (s.laneFault l Ctr.Lane.LOS_ENTRIES).rxLost l false false else s
    | some r =>
      match (if sdi then sdiDetect (s.rn (U.avenue (l / 8)) (pllFamilyF (s.laneN l Lane.PLL))) r else some 0) with
      | none => if s.laneN l Lane.RX_RATE = 15 then s else ((s.laneFault l Ctr.Lane.LOS_ENTRIES).setLane l Lane.RX_RATE 15).rxLost l true false
      | some code =>
        if !s.pllReady l then s.setLane l Lane.SIGNAL 1
        else if s.rb u Lane.SIGNAL && s.rb u Lane.CDR_LOCK && (!sdi || s.laneN l Lane.RX_RATE == code) then s
        else
          let s1 := (s.wrs u [(Lane.SIGNAL, 1), (Lane.CDR_LOCK, 1)]).laneRecovery l
          (if sdi then s1.sdiDetected l code else s1).trainOnSignal l))

/-- The RX CDR loses lock with the signal present, or regains it (R162). -/
def execCdrLoss (dt l : Nat) (lost : Bool) (s0 : State) : Res :=
  let s := s0.after dt
  let u := U.lane l
  .next (s.ifUp [U.lane l] (if 294 ≤ l || s.laneN l Lane.RX_STATE != 0 || !s.rb u Lane.SIGNAL || s.nearLoop l then s
    else if lost then
      if s.rb u Lane.CDR_LOCK then (s.laneFault l Ctr.Lane.CDR_LOSS).rxLost l true false else s
    else if s.rb u Lane.CDR_LOCK || !s.pllReady l then s
    else ((s.setLane l Lane.CDR_LOCK 1).laneRecovery l).trainOnSignal l))

/-- The corrected symbol rate rises above or falls below DEGRADE over 1 ms (R162). -/
def execDegrade (dt l : Nat) (on : Bool) (s0 : State) : Res :=
  let s := s0.after dt
  let u := U.lane l
  .next (s.ifUp [U.lane l] (if 294 ≤ l || s.rb u Lane.DEGRADED == on then s
    else if on then ((s.setLane l Lane.DEGRADED 1).count u Ctr.Lane.DEGRADE_ENTRIES).post u evHardwareFault 0
    else (s.setLane l Lane.DEGRADED 0).laneRecovery l))

/-- Lanes assigned to a PLL that have a side which is not OFF. -/
def State.pllLanes (s : State) (a pll : Nat) : List Nat :=
  ((List.range 8).map (· + 8 * a)).filter fun l => s.laneN l Lane.PLL == pll && (s.laneN l Lane.TX_STATE != 3 || s.laneN l Lane.RX_STATE != 3)

/-- An Avenue PLL loses lock: RX lost on every lane of it, and TX squelched until it locks again. The event names each lane (R162). -/
def execPllLoss (dt a pll : Nat) (s0 : State) : Res :=
  let s := s0.after dt
  let u := U.avenue a
  .next (s.ifUp [U.avenue a] (if 36 ≤ a || 2 ≤ pll || !s.rb u (pllLockF pll) then s
    else
      let s1 := (s.wr u (pllLockF pll) 0).count u Ctr.Avenue.PLL_LOSS
      (s1.pllLanes a pll).foldl (fun x l =>
        let y := x.post (U.lane l) evHardwareFault 0
        if y.laneN l Lane.RX_STATE = 0 then y.rxLost l (y.rb (U.lane l) Lane.SIGNAL) false else y) s1))

/-- An Avenue PLL locks: `pllcfg` has its final code, and receivers with a signal lock again (R144, R162). -/
def execPllLock (dt a pll : Nat) (s0 : State) : Res :=
  let s := s0.after dt
  let u := U.avenue a
  .next (s.ifUp [U.avenue a] (if 36 ≤ a || 2 ≤ pll || s.rb u (pllLockF pll) || s.rn u (pllFamilyF pll) == 0 then s
    else
      let mine := fun (b : BgOp) => b.op == 0x58 && b.index == a && b.sub == pll
      let relock := decide (0 < s.ctr u Ctr.Avenue.PLL_LOSS) && !s.bg.any mine
      let s3 := (s.pllLanes a pll).foldl (fun x l =>
        let y := if relock then x.laneRecovery l else x
        if y.laneN l Lane.RX_STATE = 0 && y.rb (U.lane l) Lane.SIGNAL then (y.setLane l Lane.CDR_LOCK 1).trainOnSignal l else y) (s.wr u (pllLockF pll) 1)
      let done := s3.bg.filter mine
      done.foldl (fun x b => x.closePart b.pid 0) { s3 with bg := s3.bg.filter fun b => !mine b }))

/-- Training of a lane moves on: auto-negotiation of an Ethernet lane has ended; training has reached its taps, after which LINK follows
(a Haywain lane has to find its codewords and frames first); or the limit of Table 5.8 has passed without LINK = UP (R152 to R154). -/
def execTrainingDone (dt l : Nat) (ok : Bool) (ffe : BitVec 31) (ctle : BitVec 6) (snr : BitVec 10) (s0 : State) : Res :=
  let s := s0.after dt
  let u := U.lane l
  let st := s.laneN l Lane.TRAIN_STATE
  .next (s.ifUp [U.lane l] (if 294 ≤ l then s
    else if !s.rb u Lane.training then
      -- a lane that does not train, on which `lanetrain` waits for its link
      (if !s.trainRunning l then s else if s.rb u Lane.LINK then s.trainOver l true else if ok then s else s.trainOver l false)
    else if !ok then
      (if s.clk < s.laneN l Lane.trainAt + s.trainLimit l then s
      else (((s.wrs u [(Lane.training, 0), (Lane.TRAIN_STATE, 4), (Lane.trainBad, 1), (Lane.retrainAt, s.clk + 100 * Config.ms)]).count u
        Ctr.Lane.TRAIN_FAILS).post u evHardwareFault 0).trainOver l false)
    else if st = 1 then s.setLane l Lane.TRAIN_STATE 2
    else if st = 2 then
      let s1 := s.wrs u [(Lane.TRAIN_STATE, 3), (Lane.FFE, ffe.toNat), (Lane.RX_SNR, snr.toNat), (Lane.SIGNAL, 1), (Lane.CDR_LOCK, 1)]
      (if s.laneN l Lane.EQ_MODE = 0 then s1.setLane l Lane.CTLE ctle.toNat else s1).evalLink l
    else s))

/-- 100 ms after a failed attempt an AUTO lane trains again (R154). -/
def execRetrainTimer (dt l : Nat) (s0 : State) : Res :=
  let s := s0.after dt
  .next (s.ifUp [U.lane l] (if l < 294 ∧ s.laneN l Lane.RETRAIN = 0 ∧ s.laneN l Lane.TRAIN_STATE = 4 ∧ s.laneN l Lane.retrainAt ≤ s.clk ∧ s.laneN l Lane.RX_STATE = 0
    then s.startTrain l else s))

/-- A side reaches ACTIVE: the TX drives, or the RX CDR is locked to a signal (R155). Side 0 is TX, 1 RX. -/
def execLaneWakeDone (dt l side : Nat) (s0 : State) : Res :=
  let s := s0.after dt
  let u := U.lane l
  let tx := side == 0
  let wf := if tx then Lane.wakeTx else Lane.wakeRx
  .next (s.ifUp [U.lane l] (if 294 ≤ l || !s.rb u wf || !s.pllReady l then s
    else
      let s1 := (s.wrs u [(wf, 0), (if tx then Lane.TX_STATE else Lane.RX_STATE, 0)]).count u Ctr.Lane.WAKES
      let s2 := if tx then s1 else s1.wrs u [(Lane.SIGNAL, 1), (Lane.CDR_LOCK, 1)]
      let both := s2.laneN l Lane.TX_STATE == 0 && s2.laneN l Lane.RX_STATE == 0
      let s3 := if both && s2.rb u Lane.mustTrain then s2.startTrain l else s2
      s3.evalLink l))

/-- Every N bits the injector flips its bits (R160). -/
def execErrorInject (dt l : Nat) (s0 : State) : Res :=
  let s := s0.after dt
  .next (s.ifUp [U.lane l] (if l < 294 ∧ s.laneN l Lane.INJ = 2 then s.inject l else s))

/-! ### Tributary mapping (R164 to R166) -/

/-! Tributary bookkeeping: COUNT of the present and the next frame, frames to discard, the window of R174, RATEWORD_ERR since the last
report, a rate deviation, the last back-channel counts (plus one); beats announced since sending began (plus one; 0 not sending) and the
offset of the sender's count; COUNT of the next frame sent; LERR sent since the last frame; beats of the lines put out before the last,
and the instant, beats and duration of the last. -/
def Trib.countNow : Field := ⟨310, 12, false, 0⟩
def Trib.countNext : Field := ⟨311, 12, false, 0⟩
def Trib.dropNow : Field := ⟨312, 1, false, 0⟩
def Trib.dropNext : Field := ⟨313, 1, false, 0⟩
def Trib.winFrames : Field := ⟨314, 0, false, 0⟩
def Trib.winBeats : Field := ⟨315, 0, false, 0⟩
def Trib.winRes : Field := ⟨316, 0, false, 0⟩
def Trib.rwErr : Field := ⟨317, 1, false, 0⟩
def Trib.rateDev : Field := ⟨318, 1, false, 0⟩
def Trib.bcRx : Field := ⟨319, 0, false, 0⟩
def Trib.bcSrc : Field := ⟨320, 0, false, 0⟩
def Trib.phiSent : Field := ⟨321, 0, false, 0⟩
def Trib.txCount : Field := ⟨322, 12, false, 0⟩
def Trib.lerrSent : Field := ⟨323, 1, false, 0⟩
def Trib.phiOff : Field := ⟨325, 0, true, 0⟩
def Trib.phiDone : Field := ⟨326, 0, false, 0⟩
def Trib.lineAt : Field := ⟨327, 0, false, 0⟩
def Trib.lineBeats : Field := ⟨328, 0, false, 0⟩
def Trib.lineDur : Field := ⟨329, 0, false, 0⟩

def tribcfgChecks (s : State) (i : Issue) (vs : List Int) (t : Nat) : Checks :=
  let ps := Trib.tribcfgParams
  let lane := pn ps vs Trib.LANE
  let slot := pn ps vs Trib.SLOT
  let u := U.trib t
  let change := pv ps vs Trib.LANE != s.rd u Trib.LANE || pv ps vs Trib.SLOT != s.rd u Trib.SLOT
  [(.range, !paramsOk ps vs || (decide (lane < 288) && decide (s.slotCount lane ≤ slot))), (.nounit, s.unitBad u),
   (.locked, (decide (lane < 288) && (s.tribsOf lane).any fun x => x != t && s.rn (U.trib x) Trib.SLOT == slot) ||
      (change && !i.force && s.seatLive t))]

/-- An index that leaves its lane has no input: its Kerb enters LOST once it has carried a signal (R166). -/
def State.tribTake (s : State) (vs : List Int) (t : Nat) : State :=
  let ps := Trib.tribcfgParams
  let u := U.trib t
  let change := pv ps vs Trib.LANE != s.rd u Trib.LANE || pv ps vs Trib.SLOT != s.rd u Trib.SLOT
  let s1 := s.wrParams u ps vs
  if change then
    let l := pn ps vs Trib.LANE
    let sdi := decide (l < 288) && s.laneN l Lane.MODE == 3
    let aligned := s.rb (U.lane l) Lane.CDR_LOCK && s.rb (U.lane l) Lane.aligned
    let code := s.laneN l Lane.RX_RATE
    -- what is kept of the old slot is dropped; a direct SDI lane shows its present state (Table 6.12)
    let s2 := (s1.wrs u [(Trib.RX_STATE, if sdi then (if aligned then 1 else 2) else 0), (Trib.RX_RATE, if sdi then (sdiClass code : Nat) else 0),
      (Trib.RX_M1001, if sdi && code != 15 then (sdiM1001 code : Nat) else 0), (Trib.PID_VALID, 0), (Trib.BC_FLAGS, 0), (Trib.TX_STATE, if sdi then 2 else 0),
      (Trib.bcRx, 0), (Trib.bcSrc, 0), (Trib.hwRes, 0), (Trib.winFrames, 0), (Trib.rateDev, 0), (Trib.countNow, 0), (Trib.countNext, 0),
      (Trib.dropNow, 0), (Trib.dropNext, 0), (Trib.phiSent, 0), (Trib.txCount, 0), (Trib.rwErr, 0)]).setBuf u 1 []
    s2.kerbLose t
  else s1

def judgeTribcfg (i : Issue) (s : State) : Judged :=
  let pr := getParams Trib.tribcfgParams false i
  let vs := pr.getD []
  let ts := targets i 0x06 (U.trib 0) 1152
  { checks := (.format, i.badFlags true false true false || pr.isNone) :: eachTarget ts (tribcfgChecks s i vs)
    verdict := .act ((ts.getD []).foldl (fun a t => a.tribTake vs t) s) }
def execTribcfg (i : Issue) (s : State) : Res := .next (s.issue i .other (judgeTribcfg i))

end Sys2Proof.Machine
end

