-- ==== Sys2Proof/Machine/Barn.lean ====
section
/-!
DEFINITION. The Barn: byte access to the host regions, channel faults and uncorrectable bursts, and the admission of
bandwidth and storage claims (R540 to R550).
-/
namespace Sys2Proof.Machine

/-- Bytes of the Barn window: 24 host regions of 256 MB (R544). -/
def barnBytes : Nat := 0x180000000
def barnChan (o : Nat) : Nat := o / 0x10000000

/-- Byte at a window offset; a byte that nothing has written reads 0 (R541). -/
def barnGet (m : List Host.Cell) (a : Nat) : BitVec 8 :=
  match m.find? (·.1 == a) with
  | some c => c.2
  | none => 0
/-- Insert a byte in address order. -/
def barnInsert (a : Nat) (b : BitVec 8) : List Host.Cell → List Host.Cell
  | [] => [(a, b)]
  | (x, v) :: t => if a < x then (a, b) :: (x, v) :: t else if a = x then (a, b) :: t else (x, v) :: barnInsert a b t
def barnErase (a : Nat) : List Host.Cell → List Host.Cell
  | [] => []
  | (x, v) :: t => if a = x then t else (x, v) :: barnErase a t
/-- Write one byte; writing 0 removes the entry, so that equal memories are equal lists. -/
def barnPut (m : List Host.Cell) (a : Nat) (b : BitVec 8) : List Host.Cell :=
  if b = 0 then barnErase a m else barnInsert a b m
/-- Canonical form: addresses strictly rising below `barnBytes`, no zero byte listed. -/
def Memory.wf : List Host.Cell → Bool
  | [] => true
  | [(_, v)] => v != 0
  | (a, v) :: (b, w) :: t => v != 0 && decide (a < b) && Memory.wf ((b, w) :: t)

/-- A 64-bit word, least significant byte first (R10). -/
def barnWord (m : List Host.Cell) (o : Nat) : Word :=
  BitVec.ofNat 64 ((List.range 8).foldl (fun a i => a + (barnGet m (o + i)).toNat * 2 ^ (8 * i)) 0)
def barnPutWord (m : List Host.Cell) (o : Nat) (w : Word) : List Host.Cell :=
  (List.range 8).foldl (fun a i => barnPut a (o + i) (BitVec.ofNat 8 (w.toNat / 2 ^ (8 * i)))) m

/-! Cells of `nv` that the Barn uses: bursts of the host regions found uncorrectable (R542), and the first access of a
master to a channel in FAULT (R550). -/
abbrev nvBadBurst : Nat := 0xBA00
abbrev nvFaultSeen : Nat := 0xBA01

def State.chanFault (s : State) (c : Nat) : Bool := s.unitState (U.chan c) == stFault
/-- A channel in self-refresh is woken by an access (R555). -/
def State.chanTouch (s : State) (c : Nat) : State := s.wrs (U.chan c) [(Chan.SELF_REFRESH, 0), (unitWorkF, s.clk)]

/-! Buffer of a Barn channel: the instants of the uncorrectable bursts of the last second, at most 65 of them (R543). -/
abbrev Chan.bursts : Nat := 20
/-- Bursts found uncorrectable on a channel within the last second of system time (R543). -/
def State.burstsOfSecond (s : State) (c : Nat) : List Int :=
  (s.buf (U.chan c) Chan.bursts).filter fun t => decide ((s.clk : Int) < t + Config.second)

/-- An uncorrectable read by a client: counted, posted with its CAUSE, and local fault evidence (R550). -/
def State.barnError (s : State) (client cause c : Nat) : State :=
  let s0 := s.setBuf (U.chan c) Chan.bursts (((s.clk : Int) :: s.burstsOfSecond c).take 65)
  let s1 := s0.count (U.chan c) Ctr.Chan.UE_READS
  let s2 := s1.evidence 0 client
  if s2.rn client (evSecondF (90000 + c)) = s2.nowS + 1 then s2.count U.crier Ctr.Crier.EVENTS_SUPPRESSED
  else (s2.wr client (evSecondF (90000 + c)) (s2.nowS + 1)).post client evHardwareFault (detail 0 0 0 cause)

/-- A client's first access to a channel in FAULT (R550, Table 20.4). -/
def State.faultAccess (s : State) (client cause c : Nat) : State :=
  if s.chanFault c ∧ s.cellNv nvFaultSeen (client * 32 + c) 0 = 0 then (s.setNv nvFaultSeen (client * 32 + c) 0 1).barnError client cause c
  else s
/-- Channels that a host-placed buffer touches. -/
def chansOf (base len : Nat) : List Nat :=
  (List.range 24).filter fun c => decide (base < (c + 1) * 0x10000000) && decide (c * 0x10000000 < base + len)

/-- A read of one window word by an Arcade master (CAUSE 9): 0 for a word in a bad burst or a channel in FAULT; the
master's first access to a channel in FAULT, and each uncorrectable read, counts (R550, Table 20.4). -/
def State.barnRead (s : State) (master o : Nat) : Word × State :=
  let c := barnChan o
  let s1 := s.chanTouch c
  if s.chanFault c then (0, s1.faultAccess master 9 c)
  else if s1.cellNv nvBadBurst (o / 64) 0 = 1 then (0, s1.barnError master 9 c)
  else (barnWord s1.barn o, s1.countBy (U.chan c) Ctr.Chan.BG_BYTES 8)

/-- A write of one window word: lost in a channel in FAULT. -/
def State.barnStore (s : State) (o : Nat) (w : Word) : State :=
  let c := barnChan o
  if s.chanFault c then s else { s.chanTouch c with barn := barnPutWord s.barn o w }
/-- The same on the background class, whose bytes a channel counts (R562). -/
def State.barnWrite (s : State) (o : Nat) (w : Word) : State :=
  if s.chanFault (barnChan o) then s else (s.barnStore o w).countBy (U.chan (barnChan o)) Ctr.Chan.BG_BYTES 8

/-- Consecutive words on the realtime or capture class. -/
def State.barnStores (s : State) (o : Nat) : List Word → State
  | [] => s
  | w :: t => (s.barnStore o w).barnStores (o + 8) t

/-- Consecutive words on the background class. -/
def State.barnWrites (s : State) (o : Nat) : List Word → State
  | [] => s
  | w :: t => (s.barnWrite o w).barnWrites (o + 8) t

/-! ### Claims and admission -/

/-- Least integer at or above a / b. -/
def ceilDiv (a b : Nat) : Nat := (a + b - 1) / b
/-- A cost in 0.001 GB/s of so many bytes per frame at a raster's rate, rounded up; for a /1.001 rate divided again
(R267, R298). -/
def frameCost (bytes : Nat) (r : Raster) : Nat :=
  if r.den = 1 then ceilDiv (bytes * r.num) 1000000 else ceilDiv (ceilDiv (bytes * (r.num / 1000)) 1000000 * 1000) 1001

/-- Claims held by instructions that still wait for their tick. -/
def State.heldClaims (s : State) : List Claim :=
  ((s.holds.filter fun h => s.staged.any (·.pid == h.pid) || s.salvos.any fun o => o.members.any (·.1 == h.pid)).map (·.claims)).flatten

/-- The larger of the claims of one unit on one channel (R268). -/
def claimMax (l : List Claim) (u c : Nat) : Claim :=
  (l.filter fun x => x.unit == u && x.chan == c).foldl (fun a x => ⟨u, c, max a.rt x.rt, max a.cap x.cap, max a.pool x.pool⟩) ⟨u, c, 0, 0, 0⟩

/-- All claims in force or held, one per unit and channel. -/
def mergeClaims (l : List Claim) : List Claim :=
  ((l.map fun x => (x.unit, x.chan)).eraseDups).map fun k => claimMax l k.1 k.2
def State.allClaims (s : State) : List Claim := mergeClaims (s.claims ++ s.heldClaims)

def sumBy (l : List Claim) (f : Claim → Nat) : Nat := l.foldl (fun a x => a + f x) 0
/-- Device-pool bytes of a channel (R544). -/
def State.poolBytes (s : State) (c : Nat) : Nat := (s.rn (U.chan c) Chan.CAPACITY_MB - 256) * 1048576

/-- A request: the unit, its bandwidths and pool bytes where the device places it, or the claims themselves where
their channels are given (host-placed buffers; tile reads on the channel of a scaler's ring). -/
structure Request where
  unit : Nat
  rt : Nat
  cap : Nat
  pool : Nat
  host : Option (List Claim)

/-- Rounded up to 0.001 GB/s. -/
def upMb (n : Nat) : Nat := ceilDiv n 1000000 * 1000000

/-- Claims of a host-placed buffer: split over the channels it touches, each part rounded up (R546). -/
def hostClaims (unit rt cap base len : Nat) : List Claim :=
  if len = 0 then []
  else (chansOf base len).map fun c =>
    let part := min (base + len) ((c + 1) * 0x10000000) - max base (c * 0x10000000)
    ⟨unit, c, upMb (ceilDiv (rt * part) len), upMb (ceilDiv (cap * part) len), 0⟩

/-- Claims of one unit added up per channel. -/
def sumClaims (l : List Claim) : List Claim :=
  ((l.map fun x => (x.unit, x.chan)).eraseDups).map fun k =>
    (l.filter fun x => x.unit == k.1 && x.chan == k.2).foldl (fun a x => ⟨a.unit, a.chan, a.rt + x.rt, a.cap + x.cap, a.pool + x.pool⟩) ⟨k.1, k.2, 0, 0, 0⟩

/-- Claims that count together for the device limit: those in force, and those of each staged instruction. For one
unit the largest of them counts (R268, R298). -/
def State.claimSets (s : State) : List (List Claim) :=
  s.claims :: ((s.holds.filter fun h => s.staged.any (·.pid == h.pid) || s.salvos.any fun o => o.members.any (·.1 == h.pid)).map (·.claims))
def deviceTotal (sets : List (List Claim)) (f : Claim → Nat) : Nat :=
  (((sets.flatten).map (·.unit)).eraseDups).foldl (fun a u => a + (sets.map fun l => sumBy (l.filter (·.unit == u)) f).foldl max 0) 0

/-- Channel limits of Table 20.2 hold for `x` beside the other claims. -/
def State.chanFits (s : State) (others : List Claim) (x : Claim) : Bool :=
  let on := others.filter fun y => y.chan == x.chan
  decide (sumBy on (·.rt) + x.rt ≤ 20000000000) && decide (sumBy on (·.cap) + x.cap ≤ 1000000000) &&
    decide (sumBy on (·.pool) + x.pool ≤ s.poolBytes x.chan || x.pool = 0)
/-- Headroom of a channel in a class. -/
def headroom (l : List Claim) (rt : Bool) (c : Nat) : Nat :=
  let on := l.filter fun y => y.chan == c
  if rt then 20000000000 - sumBy on (·.rt) else 1000000000 - sumBy on (·.cap)
/-- The channel of a list with the most headroom, lowest first. -/
def bestChan (l : List Claim) (rt : Bool) (cs : List Nat) : Option Nat :=
  cs.foldl (fun a c => match a with
    | none => some c
    | some b => if headroom l rt b < headroom l rt c then some c else some b) none

/-- Admit one request beside the claims in force or held and those (`cur`) the same instruction has placed (R548): the
claims it places, or none with the best candidate channel (R562). A unit that holds a claim keeps its channel. -/
def State.admitOne (s : State) (cur : List Claim) (q : Request) : Option (List Claim) × Option Nat :=
  let sets := s.claimSets
  let l := mergeClaims (sets.flatten ++ cur)
  let rest := l.filter fun x => x.unit != q.unit
  let mine := l.filter fun x => x.unit == q.unit
  let class_ := q.rt != 0 || q.cap = 0
  let live := (List.range 24).filter fun c => !s.chanFault c
  let total := fun (new : List Claim) =>
    let all := sets ++ [cur ++ new]
    decide (deviceTotal all (·.rt) ≤ 480000000000) && decide (deviceTotal all (·.cap) ≤ 24000000000)
  match q.host with
  | some new =>
    if total new && (mergeClaims (mine ++ new)).all (s.chanFits rest) then (some new, none) else (none, bestChan l class_ live)
  | none =>
    if q.rt = 0 ∧ q.cap = 0 ∧ q.pool = 0 then (some [], none)
    else match mine with
    | x :: _ =>
      let new : Claim := ⟨q.unit, x.chan, q.rt, q.cap, q.pool⟩
      if total [new] && s.chanFits rest (claimMax (new :: mine) q.unit x.chan) then (some [new], none) else (none, some x.chan)
    | [] =>
      let fit := live.filter fun c => s.chanFits rest ⟨q.unit, c, q.rt, q.cap, q.pool⟩
      match bestChan l class_ fit with
      | some c => if total [⟨q.unit, c, q.rt, q.cap, q.pool⟩] then (some [⟨q.unit, c, q.rt, q.cap, q.pool⟩], none) else (none, bestChan l class_ live)
      | none => (none, bestChan l class_ live)

/-- Admit requests in order beside the claims `cur` of the same instruction; the answer includes `cur`. -/
def State.admitFrom (s : State) (cur : List Claim) (qs : List Request) : Option (List Claim) × Option Nat :=
  match qs with
  | [] => (some cur, none)
  | q :: t =>
    match s.admitOne cur q with
    | (some new, _) => s.admitFrom (cur ++ new) t
    | (none, c) => (none, c)
/-- Admit the requests of one instruction. -/
def State.admitAll (s : State) (qs : List Request) : Option (List Claim) × Option Nat := s.admitFrom [] qs

/-- REFUSALS of the best candidate channel (R562). -/
def State.countRefusal (s : State) (c : Option Nat) : State :=
  match c with
  | some c => s.count (U.chan c) Ctr.Chan.REFUSALS
  | none => s

/-- The claims in force of a unit become `new`, on the channel it holds where it holds one. -/
def State.setClaims (s : State) (u : Nat) (new : List Claim) : State :=
  { s with claims := (s.claims.filter fun x => x.unit != u) ++ new.filter fun x => decide (0 < x.rt + x.cap + x.pool) }
/-- Claims held by instructions that still owe their final code: at its tick an effect is no longer staged, and its hold
is what it commits. -/
def State.owedClaims (s : State) : List Claim :=
  ((s.holds.filter fun h => s.parts.any fun p => p.pid == h.pid && p.left != 0).map (·.claims)).flatten
/-- Channel on which a unit's device-placed claim stands, in force or held. -/
def State.claimChan (s : State) (u : Nat) : Option Nat :=
  ((s.claims ++ s.heldClaims ++ s.owedClaims).find? (·.unit == u)).map (·.chan)

end Sys2Proof.Machine
end

