-- ==== Sys2Proof/Machine/Pool.lean ====
section
/-!
DEFINITION. The a-channel pool: its sources, tap times and pool instants, slips, gaps; de-embedders, tone channels and
audio-for-video maps (R301 to R308, R326, R359 to R361).
-/
namespace Sys2Proof.Machine

/-! ### Sources (R303, R304) -/

/-- A source of a-channels: its unit, first a-channel, channels and rate (0 48 kHz, 1 96 kHz). -/
structure Feed where
  unit : Nat
  first : Nat
  count : Nat
  rate : Nat
deriving DecidableEq, Repr

/-- Indices it occupies end here. -/
def Feed.stop (f : Feed) : Nat := f.first + f.count * (1 + f.rate)
def Feed.covers (f : Feed) (a : Nat) : Bool := decide (f.first ≤ a) && decide (a < f.stop)
def Feed.overlaps (f g : Feed) : Bool := decide (f.first < g.stop) && decide (g.first < f.stop)

/-- Feed that a configuration makes, by opcode, element and parameter values; none where it feeds nothing. -/
def feedOf (op idx sub : Nat) (vs : List Int) : Option Feed :=
  if op = 0x62 then
    let n := pn Deemb.deembcfgParams vs
    if n Deemb.ENABLE = 1 then some ⟨U.deemb idx, n Deemb.FIRST_ACH, n Deemb.CHANNELS, n Deemb.RATE⟩ else none
  else if op = 0x63 then
    let n := pn Tone.tonecfgParams vs
    if n Tone.COUNT = 0 then none else some ⟨U.tone idx, n Tone.FIRST_ACH, n Tone.COUNT, 0⟩
  else if op = 0x6E then
    let n := pn Stook.stookcfgParams vs
    if sub = 0 ∧ n Stook.MODE ≠ 0 then some ⟨U.stookSide idx 0, n Stook.FIRST, if n Stook.MODE = 2 then 2 else n Stook.CHANNELS, n Stook.RATE⟩ else none
  else if op = 0xA0 then
    let n := pn Rx.rxflowParams vs
    if n Rx.TYPE = 2 ∨ n Rx.TYPE = 3 then some ⟨U.rx idx, n Rx.FIRST_ACH, n Rx.CHANNELS, 0⟩ else none
  else none

/-- The values of a unit's configuration as committed. -/
def State.valsOf (s : State) (u : Nat) (ps : List Param) : List Int := ps.map fun p => s.rd u p.fld

/-- Feeds in force. -/
def State.feeds (s : State) : List Feed :=
  (s.holding (U.deemb 0) 2304 Deemb.ENABLE 1).filterMap (fun k => feedOf 0x62 k 0 (s.valsOf (U.deemb k) Deemb.deembcfgParams)) ++
  (s.holding (U.rx 0) 8192 Rx.TYPE 2 ++ s.holding (U.rx 0) 8192 Rx.TYPE 3).filterMap (fun c => feedOf 0xA0 c 0 (s.valsOf (U.rx c) Rx.rxflowParams)) ++
  (List.range 16).filterMap (fun n => feedOf 0x6E n 0 (s.valsOf (U.stookSide n 0) Stook.stookcfgParams)) ++
  (List.range 48).filterMap (fun g => feedOf 0x63 g 0 (s.valsOf (U.tone g) Tone.tonecfgParams))
/-- Feeds that staged configurations will make. -/
def State.stagedFeeds (s : State) : List Feed :=
  s.staged.filterMap fun e => match e.eff with
    | .cfg op idx sub vs => feedOf op idx sub vs
    | _ => none

/-- An a-channel of the feed is fed by another source (R304). -/
def State.feedLocked (s : State) (f : Option Feed) : Bool :=
  match f with
  | none => false
  | some f => (s.feeds ++ s.stagedFeeds).any fun g => g.unit != f.unit && g.overlaps f
/-- The feed of an a-channel, its rate, and whether an index is the odd half of a 96 kHz a-channel (R303). -/
def State.feeder (s : State) (a : Nat) : Option Feed := s.feeds.find? fun f => f.covers a
def State.achRate (s : State) (a : Nat) : Nat := match s.feeder a with
  | some f => f.rate
  | none => 0
def State.achOdd (s : State) (a : Nat) : Bool := s.achRate a == 1 && a % 2 == 1

/-! ### The pool: samples by pool instant, held for a few blocks; R306 -/

/-- Samples of an a-channel: (index of the pool instant, internal sample), oldest first. -/
def pairsOf : List Int → List (Int × Int)
  | a :: b :: t => (a, b) :: pairsOf t
  | _ => []
def State.poolRaw (s : State) (a : Nat) : List (Int × Int) := pairsOf (s.buf (U.ach a) 0)
def State.poolPut (s : State) (a : Nat) (m x : Int) : State :=
  let l := (s.poolRaw a).filter fun e => decide (m - 800 < e.1) && e.1 != m
  s.setBuf (U.ach a) 0 ((l ++ [(m, x)]).flatMap fun e => [e.1, e.2])

/-- First pool instant of the unbroken run of samples that ends at `m`, gaps of 1 to 4 not breaking it. -/
def runStart : List (Int × Int) → Int → Int → Int
  | [], _, st => st
  | (i, _) :: t, prev, st => runStart t i (if prev + 5 < i then i else st)

/-- What an a-channel with samples `l` reads at `m` (R306), at `n` samples per millisecond. -/
def readPool (l : List (Int × Int)) (n : Nat) (m : Int) : Int :=
  let before := l.filter fun e => decide (e.1 ≤ m)
  match before.getLast?, l.find? (fun e => decide (m < e.1)) with
  | some (i, x), next =>
    let st := runStart before (((before.head?.map (·.1)).getD 0) - 6) i
    let ramp := fun (y : Int) => if m - st < n then y * (m - st + 1) / n else y
    if i = m then ramp x
    else match next with
      | some (j, _) => if j - i ≤ 5 then ramp x else 0
      | none => 0
  | none, _ => 0

/-- A tone sample (R308): amplitude LEVEL below 2^27, IDENT gaps of 250 ms in each 3 s. -/
def State.toneAt (s : State) (g j : Nat) (m : Int) : Int :=
  let u := U.tone g
  if bitAt (s.rn u Tone.IDENT) j && decide (m % 144000 < 12000) then 0
  else Fx.toInt (Fx.mul (Fx.ofDb (-((s.rn u Tone.LEVEL : Int) * Fx.one / 100))) (Fx.sinTurn (s.rn u Tone.FREQ * m % 480000) 480000) * 2 ^ 27)

/-- The pool sample of an a-channel at an instant of its grid. -/
def State.poolAt (s : State) (a : Nat) (m : Int) : Int :=
  match s.feeder a with
  | none => 0
  | some f =>
    if U.tone 0 ≤ f.unit ∧ f.unit < U.tone 48 then s.toneAt (f.unit - U.tone 0) (a - f.first) m
    else readPool (s.poolRaw a) (if f.rate = 0 then 48 else 96) m

/-! ### Tap times and slips (R305, R359 to R361) -/

/-- Bookkeeping of a source: pool instant of its last sample plus one (0 none), whether its rate is out of limits, the
window that measures it, ASRC attached and locked, samples so far in this block and the slip made in it, and when a
STANDBY device stops waiting for its partner's decision. -/
def Src.last : Field := ⟨400, 0, true, 0⟩
def Src.offRate : Field := ⟨401, 1, false, 0⟩
def Src.winAt : Field := ⟨402, 0, true, 0⟩
def Src.winCount : Field := ⟨403, 0, false, 0⟩
def Src.asrc : Field := ⟨404, 1, false, 0⟩
def Src.asrcLock : Field := ⟨405, 1, false, 0⟩
def Src.ordinal : Field := ⟨406, 0, false, 0⟩
def Src.slip : Field := ⟨407, 0, false, 0⟩
def Src.due : Field := ⟨408, 0, true, 0⟩
/-- Pool instant of its last slip. -/
def Src.slipAt : Field := ⟨409, 0, true, -1⟩

/-- Place of SLIPS_REPEAT in a source's counters; SLIPS_DROP, RATE_ERRORS, ASRC_UNLOCKS and TWIN_AUDIO_OWN follow it. -/
def slipCtr (u : Nat) : Nat :=
  if U.deemb 0 ≤ u ∧ u < U.deemb 2304 then Ctr.Deemb.SLIPS_REPEAT else if U.rx 0 ≤ u ∧ u < U.tx 0 then Ctr.Rx.SLIPS_REPEAT else Ctr.Stook.SLIPS_REPEAT
/-- Unit and place of a source's SAMPLES_CONCEALED. -/
def concealCtr (u : Nat) : Nat × Nat :=
  if U.deemb 0 ≤ u ∧ u < U.deemb 2304 then (u, Ctr.Deemb.SAMPLES_CONCEALED)
  else if U.rx 0 ≤ u ∧ u < U.tx 0 then (u, Ctr.Rx.SAMPLES_CONCEALED)
  else (U.stookPort ((u - U.stookSide 0 0) / 2), Ctr.StookPort.SAMPLES_CONCEALED)

/-- Write one sample of every channel of a source at pool instant `m`. -/
def State.poolWrite (s : State) (f : Feed) (m : Int) (vals : List (Option Int)) : State :=
  (vals.zipIdx).foldl (fun a v => match v.1 with
    | some x => if v.2 < f.count then a.poolPut (f.first + v.2 * (1 + f.rate)) m x else a
    | none => a) s
/-- The samples a source last wrote. -/
def State.lastVals (s : State) (f : Feed) (m : Int) : List (Option Int) :=
  (List.range f.count).map fun q => some (readPool (s.poolRaw (f.first + q * (1 + f.rate))) 48 m)

/-- The measured rate over each second (R359): beyond 1,000 ppm the source is lost. -/
def State.measureRate (s : State) (f : Feed) (tau : Int) : State :=
  let u := f.unit
  let at_ := s.rd u Src.winAt
  let n := s.rn u Src.winCount + 1
  if at_ = 0 then s.wrs u [(Src.winAt, tau), (Src.winCount, 0)]
  else if tau - at_ < Config.second then s.wr u Src.winCount n
  else
    let want := (tau - at_) * rateHz f.rate
    let got := (n : Int) * Config.second
    let bad := decide (want < ((got - want).natAbs : Int) * 1000)
    let stook := decide (U.stookSide 0 0 ≤ u) && decide (u < U.stookSide 16 0)
    let s0 := s.wrs u [(Src.winAt, tau), (Src.winCount, 0), (Src.offRate, if bad then 1 else 0)]
    let slave := s.rb u Stook.CLOCK || s.rn u Stook.MODE == 2
    let s1 := if stook then s0.wr u Stook.RATE_OFFSET (if slave then Fx.round ((got - want) * 100000000) want else 0) else s0
    if bad && !s.rb u Src.offRate then
      if U.stookSide 0 0 ≤ u ∧ u < U.stookSide 16 0 then s1.countLimited u (slipCtr u + 2) 0x0603 0 else s1.count u (slipCtr u + 2)
    else s1

/-- One sample of a source with tap time `tau` (R359). `force` is the partner's decision for it, where there is one:
0 no slip, 1 repeat, 2 drop. -/
def State.tapOne (s : State) (f : Feed) (tau : Int) (vals : List (Option Int)) (force : Option Nat) : State :=
  let u := f.unit
  let x := (tau + 250 * Config.us) * rateHz f.rate
  let first := -(-x / Config.second)
  let prev := s.rd u Src.last - 1
  let fresh := s.rd u Src.last = 0 ∨ prev + 5 < first ∨ first + 5 < prev
  let m := prev + 1
  let phi4 := 4 * (x - m * Config.second)
  let slip : Nat := if fresh then 0 else match force with
    | some v => v
    | none => if Config.second < phi4 then 1 else if phi4 ≤ -(5 * (Config.second : Int)) then 2 else 0
  let k := s.rn u Src.ordinal
  let s0 := s.wrs u [(Src.ordinal, k + 1), (Src.slip, if slip = 0 then s.rd u Src.slip else ((2 * k + slip : Nat) : Int)),
    (Src.slipAt, if slip = 0 then s.rd u Src.slipAt else m)]
  if fresh then (s0.poolWrite f first vals).wr u Src.last (first + 1)
  else if slip = 1 then
    let s1 := (s0.poolWrite f m (s0.lastVals f prev)).countEventLimited u (slipCtr u)
    (s1.poolWrite f (m + 1) vals).wr u Src.last (m + 2)
  else if slip = 2 then s0.countEventLimited u (slipCtr u + 1)
  else (s0.poolWrite f m vals).wr u Src.last (m + 1)

/-- A source with ASRC writes every pool instant its input reaches, by interpolation whose values the spec leaves open
(R360; notes/assumptions/17.md). -/
def State.asrcFill (s : State) (f : Feed) (tau : Int) : State :=
  let u := f.unit
  let top := (tau + 1250 * Config.us) * rateHz f.rate / Config.second
  let from0 := if s.rd u Src.last = 0 ∨ s.rd u Src.last + 8 < top then top else s.rd u Src.last
  (List.range (top + 1 - from0).toNat).foldl (fun a (i : Nat) =>
    let m := from0 + (i : Int)
    let r := (List.range f.count).foldl (fun (b : List (Option Int) × State) _ =>
      let (v, b2) := b.2.free (2 ^ 28)
      (b.1 ++ [some ((v : Int) - 2 ^ 27)], b2)) ([], a)
    (r.2.poolWrite f m r.1).wr u Src.last (m + 1)) s

/-- Samples that a STANDBY device keeps until the slip decision of their block (R361): tap time and values. -/
def queueSample (tau : Int) (vals : List (Option Int)) : List Int :=
  tau :: (vals.length : Int) :: vals.map fun v => v.getD (2 ^ 40)
def unqueue : Nat → List Int → List (Int × List (Option Int))
  | 0, _ => []
  | fuel + 1, t :: n :: l => (t, (l.take n.toNat).map fun v => if v = 2 ^ 40 then none else some v) :: unqueue fuel (l.drop n.toNat)
  | _, _ => []

/-- A sample of a source arrives with tap time `tau` (R305, R359 to R361). -/
def State.tapSource (s : State) (f : Feed) (tau : Int) (vals : List (Option Int)) : State :=
  let u := f.unit
  if s.rb u Src.asrc then
    if !s.rb u Src.asrcLock then s
    else if s.followsDecisions then s.setBuf u 5 (s.buf u 5 ++ queueSample tau vals) |>.wr u Src.due ((tau / Config.ms + 1) * Config.ms + 4 * Config.us)
    else s.asrcFill f tau
  else
    let s1 := s.measureRate f tau
    if s1.rb u Src.offRate then s1.wr u Src.last 0
    else if s1.followsDecisions then
      (s1.setBuf u 5 (s1.buf u 5 ++ queueSample tau vals)).wr u Src.due ((tau / Config.ms + 1) * Config.ms + 4 * Config.us)
    else s1.tapOne f tau vals none

/-- The samples a STANDBY device has kept for a source are placed: by the partner's slip `v` (0 none, else 1 or 2 plus
twice the ordinal of its sample), or by its own rule (R361). -/
def State.flushSource (s : State) (f : Feed) (v : Option Nat) : State :=
  let u := f.unit
  let q := unqueue 4096 (s.buf u 5)
  let s0 := (s.setBuf u 5 []).wr u Src.due 0
  let s1 := match v with
    | none => s0.countEvent u (slipCtr u + 4)
    | some _ => s0
  (q.zipIdx).foldl (fun a e =>
    if a.rb u Src.asrc then a.asrcFill f e.1.1
    else a.tapOne f e.1.1 e.1.2 (v.map fun w => if w ≠ 0 ∧ (w - 1) / 2 = e.2 then (w - 1) % 2 + 1 else 0)) s1

/-- End of a block on an ACTIVE device: its slip decisions and ASRC phases leave (R361, R424). -/
def State.sendSlips (s : State) : State :=
  if !s.sendsDecisions then s
  else s.feeds.foldl (fun a f =>
    if a.rn f.unit Src.ordinal = 0 then a
    else (a.decide_ (if a.rb f.unit Src.asrc then 3 else 2) f.unit (a.rn f.unit Src.slip)).wrs f.unit [(Src.ordinal, 0), (Src.slip, 0)]) s

/-- Seat `k` offers lines that carry their own packets: its Kerb is not EMPTY or LOST, and the newest line was not substituted (R187). -/
def State.seatSounds (s : State) (k : Nat) : Bool := s.srcCarries k 0 && !(s.linesOf k 0).head?.any (·.conc)
/-- A de-embedded sample (R187, R307): 24-bit samples of the seat channels present, and how many groups came at another
rate than the de-embedder's. -/
def execAudioSampleTap (dt k : Nat) (a : AudioIn) (s0 : State) : Res :=
  let s := s0.after dt
  let u := U.deemb k
  .next (if 2304 ≤ k then s
    else match feedOf 0x62 k 0 (s.valsOf u Deemb.deembcfgParams) with
      | none => s
      | some f =>
        if s.unitBad u || !s.seatSounds k then s
        else
          let n := ((a.samples.take f.count).filter Option.isSome).length
          ((s.countBy u Ctr.Deemb.GROUP_RATE_ERRORS a.wrongRate).countBy u Ctr.Deemb.SAMPLES n).tapSource f s.now (a.samples.map fun v => v.map fun (x : Int) => x * 16))

/-! ### Sheaf entries name a-channels -/

def entAch (w : Nat) : Nat := bitsAt w 47 31
def entGain (w : Nat) : Nat := bitsAt w 30 13
def entProfile (w : Nat) : Nat := bitsAt w 12 8
def entInvert (w : Nat) : Bool := bitAt w 7
/-- An active entry (R316). -/
def entActive (w : Nat) : Bool := bitAt w 6 && entGain w != 0
/-- An active entry names an a-channel whose rate would change (R307). -/
def State.sheafRateLock (s : State) (u : Nat) (f : Option Feed) : Bool :=
  let old := s.feeds.find? fun g => g.unit == u
  s.sheaf.any fun e =>
    let w := e.2.toNat
    let a := entAch w
    let inNew := match f with
      | some g => g.covers a
      | none => false
    let inOld := match old with
      | some g => g.covers a
      | none => false
    entActive w && (inNew || inOld) && s.achRate a != (if inNew then (f.map (·.rate)).getD 0 else 0)

/-! ### De-embedder, tone set, audio-for-video map (R307, R308, R326) -/

/-- The essence group of packet seat `k` holds an audio context (R307). -/
def State.seatHasAudioFlow (s : State) (k : Nat) : Bool :=
  decide (1152 ≤ k) && (s.holding (U.rx 0) 8192 Rx.SEAT (k - 1152 : Nat)).any fun c => s.rn (U.rx c) Rx.TYPE == 2 || s.rn (U.rx c) Rx.TYPE == 3

def State.kerbPlan (s : State) (k t : Nat) : Nat :=
  if s.rb (U.kerb k) Kerb.MODE then s.rn (U.kerb k) Kerb.PLAN else s.thn t Lamp.PLAN
/-- Interlaced 525 and 625-line rasters (IDs 0x00 and 0x01) carry no more than 48 kHz. -/
def State.sdPlan (s : State) (p : Nat) : Bool := decide (s.planRaster p % 32 ≤ 1)

def deembcfgChecks (s : State) (vs : List Int) (k : Nat) : Checks :=
  let ps := Deemb.deembcfgParams
  let rate := pn ps vs Deemb.RATE
  let f := feedOf 0x62 k 0 vs
  let en := pv ps vs Deemb.ENABLE == 1
  [(.range, !paramsOk ps vs || decide (131072 < pn ps vs Deemb.FIRST_ACH + pn ps vs Deemb.CHANNELS * (1 + rate)) ||
      (rate == 1 && (pn ps vs Deemb.FIRST_ACH % 2 == 1 || decide (16 < pn ps vs Deemb.CHANNELS)))),
   (.nounit, s.unitBad (U.deemb k)),
   (.rate, rate == 1 && s.rb (U.kerb k) Kerb.MODE && s.sdPlan (s.rn (U.kerb k) Kerb.PLAN)),
   (.locked, (en && s.seatHasAudioFlow k) || s.feedLocked f || s.sheafRateLock (U.deemb k) f)]

def judgeDeembcfg (i : Issue) (s : State) : Judged :=
  let pr := getParams Deemb.deembcfgParams false i
  let vs := pr.getD []
  let ks := targets i 0x23 (U.deemb 0) 2304
  { checks := (.format, i.badFlags true false true false || pr.isNone) :: eachTarget ks (deembcfgChecks s vs)
    verdict := .stage ((ks.getD []).map fun k => ⟨s.kerbPlan k i.th, 0, [⟨U.deemb k, 0⟩], [U.deemb k], .cfg 0x62 k 0 vs⟩) }
def execDeembcfg (i : Issue) (s : State) : Res := .next (s.issue i (.ticked 0x62) (judgeDeembcfg i))
def State.commitDeembcfg (s : State) (k : Nat) (vs : List Int) : State :=
  (s.wrParams (U.deemb k) Deemb.deembcfgParams vs).wrs (U.deemb k) [(Src.last, 0), (Src.offRate, 0), (Src.winAt, 0)]

def judgeTonecfg (i : Issue) (s : State) : Judged :=
  let ps := Tone.tonecfgParams
  let pr := getParams ps false i
  let vs := pr.getD []
  let gs := targets i 0x33 (U.sign 0) 48
  { checks := (.format, i.badFlags true false true false || pr.isNone) ::
      (.range, !paramsOk ps vs || decide (131072 < pn ps vs Tone.FIRST_ACH + pn ps vs Tone.COUNT)) ::
      eachTarget gs fun g => [(.nounit, s.unitBad (U.sign g)), (.locked, s.feedLocked (feedOf 0x63 g 0 vs))]
    verdict := .stage ((gs.getD []).map fun g => ⟨s.rn (U.sign g) Sign.PLAN, 0, [⟨U.tone g, 0⟩], [U.sign g], .cfg 0x63 g 0 vs⟩) }
def execTonecfg (i : Issue) (s : State) : Res := .next (s.issue i (.ticked 0x63) (judgeTonecfg i))
def State.commitTonecfg (s : State) (g : Nat) (vs : List Int) : State := s.wrParams (U.tone g) Tone.tonecfgParams vs

/-- KIND of a seat's map, with the default of its seat (Table 11.9). -/
def afvKindF (k : Nat) : Field :=
  ⟨Afv.KIND.pos, 3, false, if k < 2304 ∨ (2448 ≤ k ∧ k < 2496) then 0 else if 2496 ≤ k ∧ k < 2688 then 3 else 4⟩

def judgeAfvcfg (i : Issue) (s : State) : Judged :=
  let ps := Afv.afvcfgParams
  let pr := getParams ps false i
  let vs := pr.getD []
  let ks := elements i 2688
  { checks := (.format, i.badFlags true false true false || pr.isNone) ::
      (.range, !paramsOk ps vs || (pv ps vs Afv.KIND == 2 && decide (65536 ≤ pn ps vs Afv.FIRST))) :: eachTarget ks fun _ => []
    verdict := .stage ((ks.getD []).map fun k => ⟨(s.srcPlan k).getD (s.thn i.th Lamp.PLAN), 0, [⟨U.afv k, 0⟩], [], .cfg 0x64 k 0 vs⟩) }
def execAfvcfg (i : Issue) (s : State) : Res := .next (s.issue i (.ticked 0x64) (judgeAfvcfg i))
def State.commitAfvcfg (s : State) (k : Nat) (vs : List Int) : State :=
  let ps := Afv.afvcfgParams
  s.wrs (U.afv k) [(afvKindF k, pv ps vs Afv.KIND), (Afv.FIRST, pv ps vs Afv.FIRST), (Afv.COUNT, pv ps vs Afv.COUNT)]

end Sys2Proof.Machine
end

