-- ==== Sys2Proof/Machine/Mix.lean ====
section
/-!
DEFINITION. The Sheaf, output slots and the fixed chain: gain codes, ramps and crossfades, the mix, trim, mute, limiter,
compressor and delay, and their configuration (R309 to R325, R336 to R345, R358).
-/
namespace Sys2Proof.Machine

/-! ### Gains and ramps (R317, R320 to R324) -/

/-- Coefficient of a gain code, with 28 fractional bits (R317). -/
def gainCoef (k : Nat) : Int :=
  if k = 0 then 0 else Fx.toInt (Fx.exp (((k : Int) - 120001) * Fx.ln10 / 20000) * 2 ^ 28)
/-- Gain of a code in dB (units of 2^-96); code 0 is taken as -120 dB. -/
def codeDb (k : Nat) : Int := ((max k 1 : Nat) - 120001 : Int) * Fx.one / 1000
/-- dB of a coefficient. -/
def coefDb (g : Int) : Int := if g = 0 then -120 * Fx.one else Fx.db g.natAbs (2 ^ 28)

/-- A gain ramp: first sample, samples, law, coefficients and dB at its ends. -/
structure GainRamp where
  start : Int
  len : Nat
  law : Nat
  g0 : Int
  g1 : Int
  d0 : Int
  d1 : Int
deriving DecidableEq, Repr
def GainRamp.ofList : List Int → Option GainRamp
  | [a, b, c, d, e, f, g] => some ⟨a, b.toNat, c.toNat, d, e, f, g⟩
  | _ => none
def GainRamp.list (r : GainRamp) : List Int := [r.start, r.len, r.law, r.g0, r.g1, r.d0, r.d1]

/-- Gain in dB reached at sample `u`, for a ramp of law LINEAR_DB. -/
def GainRamp.dbAt (r : GainRamp) (u : Int) : Int :=
  let i := u - r.start
  if i < 0 then r.d0 else if r.len ≤ i then r.d1 else r.d0 + (r.d1 - r.d0) * (i + 1) / r.len
/-- Coefficient at sample `u` (R321). -/
def GainRamp.at (r : GainRamp) (u : Int) : Int :=
  let i := u - r.start
  if i < 0 then r.g0
  else if r.len ≤ i then r.g1
  else match r.law with
    | 1 =>
      if i + 1 = r.len ∧ r.g1 = 0 then 0
      else if r.g0 * r.g1 < 0 then Config.dbThroughZero i.toNat r.g0 r.g1
      else (if r.g0 + r.g1 < 0 then -1 else 1) * Fx.toInt (Fx.ofDb (r.dbAt u) * 2 ^ 28)
    | 3 => Fx.toInt (r.g0 * Fx.one + (r.g1 - r.g0) * (Fx.one - Fx.cosPi (i + 1) r.len) / 2)
    | _ => Fx.round (r.g0 * r.len + (r.g1 - r.g0) * (i + 1)) r.len

/-- A crossfade (R322): first sample, samples, law, the old a-channel and its gain. -/
structure CrossFade where
  start : Int
  len : Nat
  law : Nat
  ach : Nat
  g : Int
deriving DecidableEq, Repr
def CrossFade.ofList : List Int → Option CrossFade
  | [a, b, c, d, e] => some ⟨a, b.toNat, c.toNat, d.toNat, e⟩
  | _ => none
def CrossFade.list (x : CrossFade) : List Int := [x.start, x.len, x.law, x.ach, x.g]

/-- Out and in weights of a crossfade of `n` samples at its sample `i`, in units of 2^-96 (R322). -/
def weights (law : Nat) (i : Int) (n : Nat) : Int × Int :=
  if i < 0 then (Fx.one, 0)
  else if n ≤ i then (0, Fx.one)
  else match law with
    | 2 => (Fx.cosPi (i + 1) (2 * n), Fx.sinPi (i + 1) (2 * n))
    | 3 => let w := (Fx.one - Fx.cosPi (i + 1) n) / 2; (Fx.one - w, w)
    | _ => (Fx.one * (n - (i + 1)) / n, Fx.one * (i + 1) / n)

/-- Places of a slot's lists: output, delay history, stage-3 history, limiter, delay and polarity changes, trim and mute
ramps, entry crossfades and entry ramps. -/
abbrev pOut : Nat := 0
abbrev pHist : Nat := 1
abbrev pStage3 : Nat := 2
abbrev pLim : Nat := 190
abbrev pDelay : Nat := 191
abbrev pPol : Nat := 182
abbrev pTrim : Nat := 180
abbrev pMute : Nat := 181
abbrev pFade (e : Nat) : Nat := 100 + e
abbrev pRamp (e : Nat) : Nat := 140 + e

/-- Length and law of a ramp profile for a slot of a rate; profile 0 is a step. -/
def State.profile (s : State) (p rate : Nat) : Nat × Nat :=
  if p = 0 then (0, 0) else (s.rn (U.ramp p) Ramp.LENGTH * (1 + rate), s.rn (U.ramp p) Ramp.LAW)

def State.slotRate (s : State) (sl : Nat) : Nat := s.rn (U.slot sl) Slot.RATE
/-- The odd half of a 96 kHz pair (R309). -/
def State.slotOdd (s : State) (sl : Nat) : Bool := sl % 2 == 1 && s.slotRate (sl - 1) == 1

def State.entry (s : State) (sl e : Nat) : Nat := (Tbl.get ⟨sl, e⟩ 0 s.sheaf).toNat
/-- Signed coefficient that an entry asks for: 0 where it is not active. -/
def entryCoef (w : Nat) : Int := if entActive w then (if entInvert w then -1 else 1) * gainCoef (entGain w) else 0
/-- Ramp of an entry's own contribution; steady where none is kept. -/
def State.entryRamp (s : State) (sl e : Nat) : GainRamp :=
  match GainRamp.ofList (s.buf (U.slot sl) (pRamp e)) with
  | some r => r
  | none => let w := s.entry sl e; let c := entryCoef w; let d := codeDb (if entActive w then entGain w else 0); ⟨0, 0, 0, c, c, d, d⟩
def State.entryFade (s : State) (sl e : Nat) : Option CrossFade := CrossFade.ofList (s.buf (U.slot sl) (pFade e))

/-- The entry's contribution at slot sample `u`: products of R313, old a-channel first. -/
def State.contribution (s : State) (sl e : Nat) (rate : Nat) (u : Int) : List Int :=
  let m := u - (if rate = 0 then 96 else 192)
  let w := s.entry sl e
  let c := (s.entryRamp sl e).at u
  let prod := fun (a : Nat) (k : Int) => if k = 0 then [] else [s.poolAt a m * k / 2 ^ 20]
  match s.entryFade sl e with
  | none => prod (entAch w) c
  | some x =>
    let (wo, wi) := weights x.law (u - x.start) x.len
    prod x.ach (Fx.toInt (x.g * wo)) ++ prod (entAch w) (Fx.toInt (c * wi))

def sat (bits : Nat) (x : Int) : Int := max (-(2 ^ (bits - 1))) (min (2 ^ (bits - 1) - 1) x)
/-- Product and rounding of trim and mute (R313). -/
def scale (x c : Int) : Int := (x * c / 2 ^ 20 + 128) / 2 ^ 8
/-- A ramp kept at a place, or a steady gain. -/
def State.slotRamp (s : State) (sl p : Nat) (g : Int) : GainRamp := (GainRamp.ofList (s.buf (U.slot sl) p)).getD ⟨0, 0, 0, g, g, coefDb g, coefDb g⟩

/-- Stages 1 to 3 of slot sample `u`, and whether a limit acted (R311, R313). -/
def State.stage3 (s : State) (sl : Nat) (u : Int) : Int × Bool :=
  let rate := s.slotRate sl
  let v := U.slot sl
  let ps := (List.range 32).flatMap fun e => s.contribution sl e rate u
  let r := ps.foldl (fun (a : Int × Bool) p => let y := sat 48 (a.1 + p); (y, a.2 || y != a.1 + p)) (0, false)
  let mix := (r.1 + 128) / 2 ^ 8
  let x := sat 32 mix
  let t := scale x ((s.slotRamp sl pTrim (gainCoef (s.rn v Slot.TRIM))).at u)
  let x2 := sat 32 t
  let m := scale x2 ((s.slotRamp sl pMute (if s.rb v Slot.MUTE then 0 else 2 ^ 28)).at u)
  let x3 := sat 32 m
  let pol := match s.buf v pPol with
    | [st, old] => if u < st then old else s.rd v Slot.POLARITY
    | _ => s.rd v Slot.POLARITY
  (if pol = 1 then sat 32 (-x3) else x3, r.2 || x != mix || x2 != t || x3 != m)

/-! ### Limiter (R339, R340) -/

/-- Limiter gain of the last sample (units of 2^-96), starting at 1. -/
def Slot.limG : Field := ⟨300, 0, true, 2 ^ 96⟩
/-- Millisecond (plus one) of the last block in which a delayed sample met a Barn error. -/
def Slot.eccBlock : Field := ⟨301, 0, false, 0⟩
/-- Commit of a limiter change: parameters in force at sample `u`. -/
def State.limAt (s : State) (sl : Nat) (u : Int) : Nat × Nat × Nat :=
  let v := U.slot sl
  let now := (s.rn v Slot.CEILING, s.rn v Slot.LOOKAHEAD, s.rn v Slot.RELEASE)
  match s.buf v pLim with
  | [st, a, b, c] => if u < st then (a.toNat, b.toNat, c.toNat) else now
  | _ => now

/-- One emission: `xs` holds stage-3 samples from index `i0`. Result: sample emitted at `u`, and the gain. -/
def limiterStep (xs : List Int) (i0 : Int) (rate : Nat) (par : Nat × Nat × Nat) (gp : Int) (u : Int) : Int × Int :=
  let (ceil, look, rel) := par
  let fs := rateHz rate
  let l : Nat := if look = 0 then 0 else if rate = 0 then 24 else 48
  let c := 2 ^ 27 * Fx.ofDb (-((ceil : Int) * Fx.one / 100))
  let x := fun (n : Int) => if n < i0 then 0 else (xs.drop (n - i0).toNat).headD 0
  let r := fun (n : Int) => let a := (x n).natAbs; if a = 0 then Fx.one else min Fx.one (c / a)
  let n := u - l
  let a := (List.range (l + 1)).foldl (fun (acc : Int) (j : Nat) => let q := r (n + (j : Int)); min acc (q + (Fx.one - q) * j / ((l : Int) + 1))) Fx.one
  let k := Fx.one - Fx.exp (-(1000 * Fx.one / ((rel : Int) * fs)))
  let g := min a (gp + Fx.mul (Fx.one - gp) k)
  let top := c / Fx.one
  (max (-top) (min top (Fx.toInt (x n * g))), g)

/-! ### Compressor (R341, R342) -/

/-- Smoothed gain in dB (units of 2^-96). -/
def Comp.gs : Field := ⟨300, 0, true, 0⟩
/-- Parameters of a compressor at sample `u`: those of its last change, or the ones before it. -/
def State.compAt (s : State) (c : Nat) (u : Int) : List Int :=
  let now := s.valsOf (U.comp c) Comp.compcfgParams
  match s.buf (U.comp c) 3 with
  | st :: old => if u < st then old else now
  | [] => now

/-- Gain computer for a level in dB. -/
def gainComputer (vs : List Int) (x : Int) : Int :=
  let n := pn Comp.compcfgParams vs
  let t := -((n Comp.THRESHOLD : Int) * Fx.one / 10)
  let k := (n Comp.KNEE : Int) * Fx.one / 10
  let slope := (if n Comp.RATIO = 0 then 0 else 10 * Fx.one / n Comp.RATIO) - Fx.one
  if 2 * (x - t) < -k then 0
  else if 0 < k ∧ 2 * (x - t).natAbs ≤ k then
    let y := x - t + k / 2
    Fx.mul slope (Fx.mul y y) * Fx.one / (2 * k)
  else Fx.mul slope (x - t)

/-- Level in dB of a detector: the peak, or the mean square over a window. -/
def peakDb (x : Int) : Int := if x = 0 then -200 * Fx.one else Fx.db x.natAbs (2 ^ 27)
def rmsDb (win : List Int) : Int :=
  let q := win.foldl (fun a x => a + (x * x).toNat) 0
  if q = 0 ∨ win = [] then -200 * Fx.one else Fx.ln q (win.length * 2 ^ 54) * 10 * Fx.one / Fx.ln10

/-- The compressors that serve a slot now or did before their last change. -/
def State.compsOf (s : State) (sl : Nat) : List Nat :=
  (s.holding (U.comp 0) 8192 Comp.SLOT sl) ++
    (s.bufs.filterMap fun e => if decide (U.comp 0 ≤ e.1.unit) && decide (e.1.unit < U.comp 8192) && e.1.pos == 3 && (e.2.drop 1).headD (-1) == (sl : Int) &&
      s.rn e.1.unit Comp.SLOT != sl then some (e.1.unit - U.comp 0) else none)
/-- The compressor assigned to a slot at sample `u`. -/
def State.compFor (s : State) (sl : Nat) (u : Int) : Option Nat :=
  (s.compsOf sl).find? fun c => pn Comp.compcfgParams (s.compAt c u) Comp.SLOT == sl

/-! ### Block computation -/

/-- Slots that carry something: an entry, a ramp or a history. -/
def State.liveSlots (s : State) : List Nat :=
  (((s.sheaf.filter fun e => e.2 != 0).map (·.1.unit)) ++
    (s.bufs.filterMap fun e => if U.slot 0 ≤ e.1.unit ∧ e.1.unit < U.slot 65536 then some (e.1.unit - U.slot 0) else none)).eraseDups

/-- What stages 1 to 4 of one slot produce over a block: the stage-3 samples with their history, the stage-4 samples,
the limiter gains, and how many samples clipped in the mix. -/
structure Front where
  sl : Nat
  rate : Nat
  i0 : Int
  xs : List Int
  ys : List Int
  gs : List Int
  clips : Nat
deriving DecidableEq, Repr

/-- First sample of the block after now, at a rate (R314). -/
def State.blockStart (s : State) (rate : Nat) : Int := ((s.now / Config.ms + 1 : Nat) : Int) * (if rate = 0 then 48 else 96)

def State.front (s : State) (sl : Nat) : Front :=
  let rate := s.slotRate sl
  let n := if rate = 0 then 48 else 96
  let i0 := s.blockStart rate
  let st := (List.range n).map fun (i : Nat) => s.stage3 sl (i0 + (i : Int))
  let hist := s.buf (U.slot sl) pStage3
  let xs := hist ++ st.map (·.1)
  let h0 := i0 - hist.length
  let r := (List.range n).foldl (fun (a : Int × List Int × List Int) (i : Nat) =>
    let u := i0 + (i : Int)
    let (y, g) := limiterStep xs h0 rate (s.limAt sl u) a.1 u
    (g, a.2.1 ++ [y], a.2.2 ++ [g])) (s.rd (U.slot sl) Slot.limG, [], [])
  ⟨sl, rate, i0, xs, r.2.1, r.2.2, (st.filter (·.2)).length⟩

/-- Gain computer values of a slot's compressor over the block, with the link group at each sample. -/
def State.gcs (s : State) (f : Front) : List (Option (Nat × Nat × Int)) :=
  let win := if f.rate = 0 then 480 else 960
  (f.ys.zipIdx).map fun e =>
    let u := f.i0 + (e.2 : Int)
    match s.compFor f.sl u with
    | none => none
    | some c =>
      let vs := s.compAt c u
      let lvl := if pn Comp.compcfgParams vs Comp.DETECT = 0 then peakDb e.1
        else
          let all := s.buf (U.comp c) 0 ++ f.ys.take (e.2 + 1)
          rmsDb (all.drop (all.length - win))
      some (c, pn Comp.compcfgParams vs Comp.LINK, gainComputer vs lvl)

/-- Stage 5 of one slot: samples, the least gain in dB, and the smoothed gain at the end by compressor. -/
def State.stage5 (s : State) (all : List (Front × List (Option (Nat × Nat × Int)))) (f : Front) (own : List (Option (Nat × Nat × Int))) :
    List Int × Int × List (Nat × Int) :=
  let fs := rateHz f.rate
  ((f.ys.zip own).zipIdx).foldl (fun (a : List Int × Int × List (Nat × Int)) e =>
    match e.1.2 with
    | none => (a.1 ++ [e.1.1], a.2.1, a.2.2)
    | some (c, link, gc) =>
      let vs := s.compAt c (f.i0 + (e.2 : Int))
      let n := pn Comp.compcfgParams vs
      let group := if link = 0x7FF then gc else all.foldl (fun (m : Int) x => match (x.2.drop e.2).headD none with
        | some (_, l2, g2) => if l2 = link then min m g2 else m
        | none => m) gc
      let gp := ((a.2.2.find? (·.1 == c)).map (·.2)).getD (s.rd (U.comp c) Comp.gs)
      let tau := if group < gp then (n Comp.ATTACK : Int) * fs * Fx.one / 10000 else (n Comp.RELEASE : Int) * fs * Fx.one / 1000
      let k := Fx.exp (-(Fx.one * Fx.one / tau))
      let g := group + Fx.mul (gp - group) k
      let tot := g + (n Comp.MAKEUP : Int) * Fx.one / 10
      (a.1 ++ [Fx.toInt (e.1.1 * Fx.ofDb (min 0 tot))], min a.2.1 tot, (c, g) :: a.2.2.filter (·.1 != c))) ([], 0, [])

/-- DELAY at sample `u` before and after a change, and the change's first sample. -/
def State.delayed (s : State) (sl rate : Nat) (hist : List Int) (endIx : Int) (u : Int) : Int :=
  let rdAt := fun (d : Int) => let k := u - d - (endIx - hist.length); if k < 0 then 0 else (hist.drop k.toNat).headD 0
  let d := s.rd (U.slot sl) Slot.DELAY
  match s.buf (U.slot sl) pDelay with
  | [st, old] =>
    let n := if rate = 0 then 480 else 960
    let (wo, wi) := weights 2 (u - st) n
    if u < st then rdAt old else if st + n ≤ u then rdAt d else Fx.toInt (rdAt old * wo + rdAt d * wi)
  | _ => rdAt d

/-- Readers of a slot other than meters: embedder channels, transmit contexts, Stook transmit sides, taps (R315). -/
def State.slotRead (s : State) (sl : Nat) : Bool :=
  (s.regs.any fun e => decide (U.emb 0 ≤ e.1.unit) && decide (e.1.unit < U.emb 2304) && decide (Emb.CH0.pos ≤ e.1.pos) && decide (e.1.pos ≤ Emb.CH31.pos) && e.2 == (2 * 65536 + sl : Nat)) ||
  ((s.holding (U.tx 0) 8192 Tx.TYPE 2 ++ s.holding (U.tx 0) 8192 Tx.TYPE 3).any fun c =>
    s.rn (U.tx c) Tx.SEAT == 0x7FF && decide (s.rn (U.tx c) Tx.FIRST_SLOT ≤ sl) && decide (sl < s.rn (U.tx c) Tx.FIRST_SLOT + s.rn (U.tx c) Tx.CHANNELS)) ||
  ((List.range 16).any fun n =>
    let u := U.stookSide n 1
    s.rn u Stook.MODE != 0 && decide (s.rn u Stook.FIRST ≤ sl) && decide (sl < s.rn u Stook.FIRST + (if s.rn u Stook.MODE = 2 then 2 else s.rn u Stook.CHANNELS) * (1 + s.rn u Stook.RATE))) ||
  ((List.range 64).any fun n =>
    let u := U.tap n
    s.rb u Tap.ENABLE && s.rb u Tap.SPACE && decide (s.rn u Tap.FIRST ≤ sl) && decide (sl < s.rn u Tap.FIRST + s.rn u Tap.CHANNELS * (1 + s.slotRate (s.rn u Tap.FIRST))))
/-- Some reader of a slot takes L16 samples: a TYPE 2 context of SDEPTH 0, a TDM transmit side of 16-bit slots (R337). -/
def State.slotRead16 (s : State) (sl : Nat) : Bool :=
  ((s.holding (U.tx 0) 8192 Tx.TYPE 2).any fun c =>
    s.rn (U.tx c) Tx.SEAT == 0x7FF && !s.rb (U.tx c) Tx.SDEPTH && decide (s.rn (U.tx c) Tx.FIRST_SLOT ≤ sl) &&
      decide (sl < s.rn (U.tx c) Tx.FIRST_SLOT + s.rn (U.tx c) Tx.CHANNELS)) ||
  ((List.range 16).any fun n =>
    let u := U.stookSide n 1
    s.rn u Stook.MODE == 1 && s.rn u Stook.SLOTW == 0 && decide (s.rn u Stook.FIRST ≤ sl) && decide (sl < s.rn u Stook.FIRST + s.rn u Stook.CHANNELS * (1 + s.rn u Stook.RATE)))
def State.slotActive (s : State) (sl : Nat) : Bool := s.sheaf.any fun e => e.1.unit == sl && entActive e.2.toNat

/-- 24-bit and L16 forms of an internal sample (R337). -/
def out24 (x : Int) : Int := sat 24 ((x + 8) / 16)
def out16 (x : Int) : Int := sat 16 ((x + 2048) / 4096)
/-- Samples of a slot's output kept, from the index of the first. -/
def State.slotOut (s : State) (sl : Nat) (u : Int) : Int :=
  match s.buf (U.slot sl) pOut with
  | st :: l => if u < st then 0 else (l.drop (u - st).toNat).headD 0
  | [] => 0

/-- dB (units of 2^-96) as an attenuation in 0.01 dB. -/
def cdB (x : Int) : Int := max 0 (min 65535 (Fx.toInt (-(x * 100))))

/-- Stages 6 and 7 of one slot, and what the block leaves in its state. `ue` are the places in the block whose delayed
samples met a Barn error (R345). -/
def State.finishSlot (s : State) (f : Front) (zs : List Int) (least : Int) (gs : List (Nat × Int)) (ue : List Nat) : State :=
  let v := U.slot f.sl
  let n := f.ys.length
  let d := s.rn v Slot.DELAY
  let fading := s.buf v pDelay != []
  let keep : Nat := if d = 0 ∧ !fading then 0 else 97000
  let hist := s.buf v pHist ++ zs
  let endIx := f.i0 + n
  let ch := s.claimChan v
  let dead := match ch with
    | some c => s.chanFault c && d != 0
    | none => false
  let outs := (List.range n).map fun (i : Nat) => if dead || (d != 0 && ue.contains i) then 0 else s.delayed f.sl f.rate hist endIx (f.i0 + (i : Int))
  let bad := if dead then n else if d = 0 then 0 else (ue.filter fun i => decide (i < n)).length
  let old := match s.buf v pOut with
    | st :: l => if st + l.length = f.i0 then (st, l) else (f.i0, [])
    | [] => (f.i0, [])
  let all := old.2 ++ outs
  let cut := all.length - 8 * n
  let clip := if s.slotRead f.sl then (outs.filter fun x => out24 x != (x + 8) / 16 || (s.slotRead16 f.sl && out16 x != (x + 2048) / 4096)).length else 0
  let s1 := ((s.setBuf v pOut ((old.1 + cut) :: all.drop cut)).setBuf v pHist (hist.drop (hist.length - keep))).setBuf v pStage3 (f.xs.drop (f.xs.length - 48))
  let s2 := s1.wrs v [(Slot.limG, f.gs.getLast?.getD Fx.one), (Slot.LIMIT_GR, cdB (f.gs.foldl (fun a g => min a (if g ≤ 0 then -200 * Fx.one else Fx.db g.toNat (2 ^ 96))) 0)),
    (Slot.COMP_GR, cdB least)]
  let s3 := gs.foldl (fun a g => (a.wr (U.comp g.1) Comp.gs g.2).setBuf (U.comp g.1) 0 ((s.buf (U.comp g.1) 0 ++ f.ys).drop ((s.buf (U.comp g.1) 0 ++ f.ys).length - 959))) s2
  let s4 := ((s3.countBy v Ctr.Slot.MIX_CLIPS f.clips).countBy v Ctr.Slot.LIMIT_SAMPLES (f.gs.filter (· < Fx.one)).length).countBy v Ctr.Slot.OUT_CLIPS clip
  -- changes that every sample of the block has passed leave nothing behind
  let done := fun (st : Int) (len : Nat) => decide (st + len ≤ endIx)
  let s5 := (List.range 32).foldl (fun a e =>
    let a1 := match a.entryFade f.sl e with
      | some x => if done x.start x.len then a.setBuf v (pFade e) [] else a
      | none => a
    match GainRamp.ofList (a1.buf v (pRamp e)) with
    | some r => if done r.start r.len then a1.setBuf v (pRamp e) [] else a1
    | none => a1) s4
  let s6 := [pTrim, pMute].foldl (fun a p => match GainRamp.ofList (a.buf v p) with
    | some r => if done r.start r.len then a.setBuf v p [] else a
    | none => a) s5
  let s7 := match s6.buf v pDelay with
    | [st, _] => if done st (if f.rate = 0 then 480 else 960) then s6.setBuf v pDelay [] else s6
    | _ => s6
  let s8 := [pLim, pPol].foldl (fun a p => match a.buf v p with
    | st :: _ => if st ≤ endIx then a.setBuf v p [] else a
    | [] => a) s7
  let ramping := (List.range 32).any (fun e => s8.buf v (pFade e) != [] || s8.buf v (pRamp e) != []) || s8.buf v pTrim != [] || s8.buf v pMute != []
  let s9 := s8.wr v Slot.RAMPING (if ramping then 1 else 0)
  if bad = 0 then s9
  else ((s9.countBy v Ctr.Slot.ECC_SAMPLES (bad - 1)).countEvent v Ctr.Slot.ECC_SAMPLES) |>.barnError U.bankSlot 5 (ch.getD 0) |>.wr v Slot.eccBlock (s.now / Config.ms + 2)

/-- Multiply-accumulates charged at slot instant `t` (grains): 1 for an active entry of a 48 kHz slot, 2 at 96 kHz,
twice that while it crossfades (R325). -/
def State.mixLoad (s : State) (t : Int) : Nat :=
  s.sheaf.foldl (fun a e =>
    let w := e.2.toNat
    let sl := e.1.unit
    let rate := s.slotRate sl
    let u := gridCeil t (rateHz rate)
    let fade := match s.entryFade sl e.1.pos with
      | some x => x.len != 0 && decide (u < x.start + x.len)
      | none => false
    a + (if entActive w then 1 + rate else 0) + (if fade then 1 + rate else 0)) 0

/-- The largest LOAD of the second now running. -/
def Mix.peak : Field := ⟨300, 22, false, 0⟩

/-- The mix engine computes the block that begins at the next whole millisecond, for every slot (R311 to R314, R340 to
R345). `ue` gives the slots and places that met a Barn error. -/
def State.mixBlock (s : State) (ue : List (Nat × Nat)) : State :=
  let fronts := s.liveSlots.map s.front
  let all := fronts.map fun f => (f, s.gcs f)
  let s1 := all.foldl (fun a x =>
    let (zs, least, gs) := s.stage5 all x.1 x.2
    a.finishSlot x.1 zs least gs ((ue.filter (·.1 == x.1.sl)).map (·.2))) s
  let load := s1.mixLoad s1.now
  s1.wrs U.mix [(Mix.LOAD, load), (Mix.peak, max (s1.rn U.mix Mix.peak) load)]

/-! ### Sheaf instructions (R318) -/

def sheafChecks (s : State) (sl w : Nat) : Checks :=
  [(.range, s.slotOdd sl || s.achOdd (entAch w) || decide (144001 < entGain w)),
   (.rate, s.achRate (entAch w) != s.slotRate sl)]

/-- A Sheaf entry word in the form of Table 11.6. -/
def entWord (i : Issue) : Nat := ((i.params.headD 0).toNat)
def entBad (i : Issue) : Bool := i.npw != 1 || i.params.length != 1 || bitsAt (entWord i) 5 0 != 0 || bitsAt (entWord i) 63 48 != 0

def judgeSheafset (i : Issue) (s : State) : Judged :=
  let sl := i.index
  let e := i.sub % 32
  let w := entWord i
  { checks := (.format, i.badFlags true false true false || entBad i || decide (32 ≤ i.sub)) :: eachTarget (elements i 65536) fun _ => sheafChecks s sl w
    verdict := .stage [⟨s.rn (U.slot sl) Slot.PLAN, 0, [⟨U.slot sl, e⟩], [], .cfg 0x30 sl e [(w : Int)]⟩] }
def execSheafset (i : Issue) (s : State) : Res := .next (s.issue i (.ticked 0x30) (judgeSheafset i))

/-- Entries of a slot as committed, with the thread's own staged entries over them (R318). -/
def State.entryFor (s : State) (t sl e : Nat) : Nat :=
  let pick := fun (x : Effect) (old : Nat) => match x with
    | .cfg 0x30 k j vs => if k = sl ∧ j = e then (vs.headD 0).toNat else old
    | .cfg 0x32 k j _ => if k = sl ∧ j = e then 0 else old
    | _ => old
  let staged := s.staged.foldl (fun a x => if x.th = t then pick x.eff a else a) (s.entry sl e)
  s.salvos.foldl (fun a o => if o.th = t then o.members.foldl (fun b m => m.2.foldl (fun c x => pick x.eff c) b) a else a) staged

def judgeSheafadd (i : Issue) (s : State) : Judged :=
  let sl := i.index
  let w := entWord i
  let free := (List.range 32).find? fun e => !entActive (s.entryFor i.th sl e)
  let e := free.getD 0
  { checks := (.format, i.badFlags true false true false || entBad i || i.sub != 0) :: (.tablefull, free.isNone) ::
      eachTarget (elements i 65536) fun _ => sheafChecks s sl w
    verdict := .stage [⟨s.rn (U.slot sl) Slot.PLAN, 0, [⟨U.slot sl, e⟩], [], .cfg 0x30 sl e [(w : Int)]⟩]
    data := [BitVec.ofNat 64 (e + sl * 65536)] }
def execSheafadd (i : Issue) (s : State) : Res := .next (s.issue i (.ticked 0x31) (judgeSheafadd i))

def judgeSheafclr (i : Issue) (s : State) : Judged :=
  let sl := i.index
  let e := i.sub % 32
  { checks := (.format, i.badFlags true false true false || decide (32 ≤ i.sub) || i.npw != 0 || i.params != []) ::
      eachTarget (elements i 65536) fun _ => [(.range, s.slotOdd sl)]
    verdict := .stage [⟨s.rn (U.slot sl) Slot.PLAN, 0, [⟨U.slot sl, e⟩], [], .cfg 0x32 sl e []⟩] }
def execSheafclr (i : Issue) (s : State) : Res := .next (s.issue i (.ticked 0x32) (judgeSheafclr i))

/-- An entry takes a new word at tick `n` (R321 to R325): a gain ramp, or a crossfade where its a-channel changes and the
mix capacity allows it. -/
def State.commitEntry (s : State) (sl e w : Nat) (n : Int) : State :=
  let v := U.slot sl
  let old := s.entry sl e
  let rate := s.slotRate sl
  let u := switchIndex s.now rate
  let (len, law) := s.profile (entProfile w) rate
  let r := s.entryRamp sl e
  let gNow := r.at (u - 1)
  let dNow := if r.law = 1 then r.dbAt (u - 1) else coefDb gNow
  -- what fades out starts from the gain it had reached, a crossfade's weight among it (R323)
  let gOut := match s.entryFade sl e with
    | some x => if u - 1 < x.start + x.len then Fx.toInt (gNow * (weights x.law (u - 1 - x.start) x.len).2) else gNow
    | none => gNow
  let c := entryCoef w
  let d := codeDb (if entActive w then entGain w else 0)
  let cross := entAch w != entAch old && (entActive w || entActive old)
  let running := match s.entryFade sl e with
    | some x => decide (u < x.start + x.len)
    | none => false
  let s0 := { s with sheaf := Tbl.set ⟨sl, e⟩ 0 (BitVec.ofNat 64 w) s.sheaf }
  let s1 :=
    if cross then
      let s2 := if running then s0.count v Ctr.Slot.XFADE_TRUNCATIONS else s0
      let s3 := s2.setBuf v (pRamp e) (GainRamp.list ⟨u, 0, 0, c, c, d, d⟩)
      if len = 0 then s3.setBuf v (pFade e) (CrossFade.list ⟨u, 0, law, entAch old, gOut⟩)
      else if 3145728 < (s3.setBuf v (pFade e) []).mixLoad s.now + (1 + rate) then
        (s3.setBuf v (pFade e) (CrossFade.list ⟨u, 0, law, entAch old, gOut⟩)).count U.mix Ctr.Mix.MIX_CUTS
      else s3.setBuf v (pFade e) (CrossFade.list ⟨u, len, law, entAch old, gOut⟩)
    else if c = entryCoef old then s0
    else s0.setBuf v (pRamp e) (GainRamp.list ⟨u, len, law, gNow, c, dNow, d⟩)
  let act := ((List.range 32).filter fun k => entActive (s1.entry sl k)).length
  s1.wrs v [(Slot.ACTIVE_ENTRIES, act), (Slot.LAST_TICK, n), (Slot.RAMPING, if s1.buf v (pFade e) = [] ∧ s1.buf v (pRamp e) = [] then s1.rd v Slot.RAMPING else 1)]
/-- `sheafclr` commits: GAIN becomes 0, the other fields stay. -/
def State.commitSheafclr (s : State) (sl e : Nat) (n : Int) : State :=
  let w := s.entry sl e
  s.commitEntry sl e (w - entGain w * 2 ^ 13) n

/-! ### Slot configuration (R310, R320, R336, R339, R341, R343, R358) -/

def slotcfgChecks (s : State) (vs : List Int) (sl : Nat) : Checks :=
  let ps := Slot.slotcfgParams
  let rate := pn ps vs Slot.RATE
  [(.range, !paramsOk ps vs || s.slotOdd sl || (rate == 1 && sl % 2 == 1)),
   (.nounit, !s.planOn (pn ps vs Slot.PLAN)),
   (.locked, rate != s.slotRate sl && (s.slotActive sl || s.slotRead sl))]

def judgeSlotcfg (i : Issue) (s : State) : Judged :=
  let pr := getParams Slot.slotcfgParams false i
  let vs := pr.getD []
  let ts := elements i 65536
  { checks := (.format, i.badFlags true false true false || pr.isNone) :: eachTarget ts (slotcfgChecks s vs)
    verdict := .stage ((ts.getD []).map fun sl => ⟨s.rn (U.slot sl) Slot.PLAN, 0, [⟨U.slot sl, 100⟩], [], .cfg 0x60 sl 0 vs⟩) }
def execSlotcfg (i : Issue) (s : State) : Res := .next (s.issue i (.ticked 0x60) (judgeSlotcfg i))

def State.commitSlotcfg (s : State) (sl : Nat) (vs : List Int) (n : Int) : State :=
  let ps := Slot.slotcfgParams
  let v := U.slot sl
  let rate := pn ps vs Slot.RATE
  let u := switchIndex s.now rate
  let trim := s.slotRamp sl pTrim (gainCoef (s.rn v Slot.TRIM))
  let mute := s.slotRamp sl pMute (if s.rb v Slot.MUTE then 0 else 2 ^ 28)
  let (tl, tw) := s.profile (pn ps vs Slot.TRIM_PROFILE) rate
  let (ml, mw) := s.profile (pn ps vs Slot.MUTE_PROFILE) rate
  let newTrim := pn ps vs Slot.TRIM
  let newMute := pn ps vs Slot.MUTE
  let g1 := gainCoef newTrim
  let m1 : Int := if newMute = 1 then 0 else 2 ^ 28
  let s1 := if pv ps vs Slot.TRIM = s.rd v Slot.TRIM then s
    else s.setBuf v pTrim (GainRamp.list ⟨u, tl, tw, trim.at (u - 1), g1, if trim.law = 1 then trim.dbAt (u - 1) else coefDb (trim.at (u - 1)), codeDb newTrim⟩)
  let s2 := if pv ps vs Slot.MUTE = s.rd v Slot.MUTE then s1
    else s1.setBuf v pMute (GainRamp.list ⟨u, ml, mw, mute.at (u - 1), m1, if mute.law = 1 then mute.dbAt (u - 1) else coefDb (mute.at (u - 1)), coefDb m1⟩)
  let s3 := if pv ps vs Slot.POLARITY = s.rd v Slot.POLARITY then s2 else s2.setBuf v pPol [u, s.rd v Slot.POLARITY]
  let s4 := if rate = s.slotRate sl then s3 else (s3.setBuf v pOut []).setBuf v pHist [] |>.setBuf v pStage3 []
  (s4.wrParams v ps vs).wrs v [(Slot.LAST_TICK, n), (Slot.RAMPING, if s4.buf v pTrim = [] ∧ s4.buf v pMute = [] then s4.rd v Slot.RAMPING else 1)]

def judgeRampcfg (i : Issue) (s : State) : Judged :=
  let pr := getParams Ramp.rampcfgParams false i
  let vs := pr.getD []
  let ts := elements i 32
  { checks := (.format, i.badFlags true false true false || pr.isNone) :: (.range, i.index == 0 || !paramsOk Ramp.rampcfgParams vs) :: eachTarget ts fun _ => []
    verdict := .act ((ts.getD []).foldl (fun a p => a.wrParams (U.ramp p) Ramp.rampcfgParams vs) s) }
def execRampcfg (i : Issue) (s : State) : Res := .next (s.issue i .other (judgeRampcfg i))

def judgeLimcfg (i : Issue) (s : State) : Judged :=
  let pr := getParams Slot.limcfgParams false i
  let vs := pr.getD []
  let ts := elements i 65536
  { checks := (.format, i.badFlags true false true false || pr.isNone) :: eachTarget ts fun sl => [(.range, !paramsOk Slot.limcfgParams vs || s.slotOdd sl)]
    verdict := .stage ((ts.getD []).map fun sl => ⟨s.rn (U.slot sl) Slot.PLAN, 0, [⟨U.slot sl, 101⟩], [], .cfg 0x66 sl 0 vs⟩) }
def execLimcfg (i : Issue) (s : State) : Res := .next (s.issue i (.ticked 0x66) (judgeLimcfg i))
def State.commitLimcfg (s : State) (sl : Nat) (vs : List Int) (n : Int) : State :=
  let v := U.slot sl
  ((s.setBuf v pLim (switchIndex s.now (s.slotRate sl) :: s.valsOf v Slot.limcfgParams)).wrParams v Slot.limcfgParams vs).wr v Slot.LAST_TICK n

/-- Compressors of a link group, `c` among them. -/
def State.linkGroup (s : State) (link : Nat) : List Nat :=
  if link = 0x7FF then [] else (s.holding (U.comp 0) 8192 Comp.LINK link).filter fun c => s.rn (U.comp c) Comp.SLOT != 0x1FFFF

def compcfgChecks (s : State) (vs : List Int) (c : Nat) : Checks :=
  let ps := Comp.compcfgParams
  let sl := pn ps vs Comp.SLOT
  let ratio := pn ps vs Comp.RATIO
  let cur := s.rn (U.comp c) Comp.SLOT
  let on := decide (sl ≠ 0x1FFFF)
  let mates := (s.linkGroup (pn ps vs Comp.LINK)).filter (· != c)
  let staged := s.staged.any fun e => match e.eff with
    | .cfg 0x67 k _ v2 => k != c && pn ps v2 Comp.SLOT == sl
    | _ => false
  [(.range, !paramsOk ps vs || (on && decide (65536 ≤ sl)) || (decide (0 < ratio) && decide (ratio < 10)) || (on && s.slotOdd sl)),
   (.locked, on && ((cur != 0x1FFFF && cur != sl) || (s.rn (U.slot sl) Slot.COMP != 0x3FFF && s.rn (U.slot sl) Slot.COMP != c) || staged)),
   (.bundle, on && (decide (64 < mates.length + 1) || mates.any fun m =>
      (ps.any fun p => p.fld.pos != Comp.SLOT.pos && p.fld.pos != Comp.MAKEUP.pos && s.rd (U.comp m) p.fld != pv ps vs p.fld))),
   (.rate, on && mates.any fun m => s.slotRate (s.rn (U.comp m) Comp.SLOT) != s.slotRate sl)]

def judgeCompcfg (i : Issue) (s : State) : Judged :=
  let ps := Comp.compcfgParams
  let pr := getParams ps false i
  let vs := pr.getD []
  let ts := elements i 8192
  { checks := (.format, i.badFlags true false true false || pr.isNone) :: eachTarget ts (compcfgChecks s vs)
    verdict := .stage ((ts.getD []).map fun c =>
      let sl := if pn ps vs Comp.SLOT = 0x1FFFF then s.rn (U.comp c) Comp.SLOT else pn ps vs Comp.SLOT
      ⟨if sl = 0x1FFFF then s.thn i.th Lamp.PLAN else s.rn (U.slot sl) Slot.PLAN, 0, [⟨U.comp c, 0⟩], [], .cfg 0x67 c 0 vs⟩) }
def execCompcfg (i : Issue) (s : State) : Res := .next (s.issue i (.ticked 0x67) (judgeCompcfg i))
def State.commitCompcfg (s : State) (c : Nat) (vs : List Int) (n : Int) : State :=
  let ps := Comp.compcfgParams
  let u := U.comp c
  let old := s.rn u Comp.SLOT
  let new := pn ps vs Comp.SLOT
  let rate := s.slotRate (if new = 0x1FFFF then old else new)
  let s1 := (s.setBuf u 3 (switchIndex s.now rate :: s.valsOf u ps)).wrParams u ps vs
  let s2 := if old ≠ 0x1FFFF ∧ old ≠ new then s1.wrs (U.slot old) [(Slot.COMP, 0x3FFF), (Slot.LAST_TICK, n)] else s1
  if new = 0x1FFFF then s2 else s2.wrs (U.slot new) [(Slot.COMP, c), (Slot.LAST_TICK, n)]

/-- Claim of a delayed slot (R345). -/
def delayClaim (rate : Nat) (d : Nat) : Nat × Nat := if d = 0 then (0, 0) else if rate = 0 then (384000, 196608) else (768000, 393216)

def judgeDelaycfg (i : Issue) (s : State) : Judged :=
  let ps := Slot.delaycfgParams
  let pr := getParams ps false i
  let vs := pr.getD []
  let ts := elements i 65536
  let d := pn ps vs Slot.DELAY
  let (adm, best) := s.admitAll ((ts.getD []).map fun sl => let c := delayClaim (s.slotRate sl) d; ⟨U.slot sl, c.1, 0, c.2, none⟩)
  { checks := (.format, i.badFlags true false true false || pr.isNone) :: (.bandwidth, adm.isNone) ::
      eachTarget ts fun sl => [(.range, s.slotOdd sl || decide (48000 * (1 + s.slotRate sl) < d))]
    verdict := .stage ((ts.getD []).map fun sl => ⟨s.rn (U.slot sl) Slot.PLAN, 0, [⟨U.slot sl, 102⟩], [], .cfg 0x68 sl 0 vs⟩)
    claims := adm.getD []
    refuse := fun a => a.countRefusal best }
def execDelaycfg (i : Issue) (s : State) : Res := .next (s.issue i (.ticked 0x68) (judgeDelaycfg i))
def State.commitDelaycfg (s : State) (sl : Nat) (vs : List Int) (n : Int) : State :=
  let v := U.slot sl
  let d := pn Slot.delaycfgParams vs Slot.DELAY
  let rate := s.slotRate sl
  let old := s.rd v Slot.DELAY
  let c := delayClaim rate d
  let s1 := match s.claimChan v with
    | some ch => s.setClaims v [⟨v, ch, c.1, 0, c.2⟩]
    | none => s
  if old = d then s1.wr v Slot.LAST_TICK n
  else
    let u := switchIndex s.now rate
    let cut := match s.buf v pDelay with
      | [st, _] => decide (u < st + (if rate = 0 then 480 else 960))
      | _ => false
    let s2 := if cut then s1.count v Ctr.Slot.XFADE_TRUNCATIONS else s1
    ((s2.setBuf v pDelay [u, old]).wrs v [(Slot.DELAY, d), (Slot.LAST_TICK, n)]).count v Ctr.Slot.DELAY_CHANGES

/-- An even a-channel and the next are fed by an AES3 receive side or an ST 2110-31 context (R358). -/
def State.csPair (s : State) (a : Nat) : Bool :=
  match s.feeder a, s.feeder (a + 1) with
  | some f, some g => a % 2 == 0 && f.unit == g.unit &&
      ((decide (U.stookSide 0 0 ≤ f.unit) && decide (f.unit < U.stookSide 16 0) && s.rn f.unit Stook.MODE == 2) ||
       (decide (U.rx 0 ≤ f.unit) && decide (f.unit < U.tx 0) && s.rn f.unit Rx.TYPE == 3))
  | _, _ => false

def judgeCscfg (i : Issue) (s : State) : Judged :=
  let mode := i.sub % 2
  let ach := bitsAt i.sub 17 1
  let ts := elements i 65536
  { checks := (.format, i.badFlags true false true false || decide (2 ^ 18 ≤ i.sub) || i.npw != 0 || i.params != []) ::
      (.range, if mode = 0 then ach != 0 else !s.csPair ach) :: eachTarget ts fun sl => [(.range, sl % 2 == 1)]
    verdict := .stage ((ts.getD []).map fun sl => ⟨s.rn (U.slot sl) Slot.PLAN, 0, [⟨U.slot sl, 103⟩], [], .cfg 0x69 sl 0 [(mode : Int), (ach : Int)]⟩) }
def execCscfg (i : Issue) (s : State) : Res := .next (s.issue i (.ticked 0x69) (judgeCscfg i))
def State.commitCscfg (s : State) (sl : Nat) (vs : List Int) (n : Int) : State :=
  (s.wrParams (U.slot sl) Slot.cscfgParams vs).wr (U.slot sl) Slot.LAST_TICK n

/-! ### Embedders (R327) -/

def embcfgChecks (s : State) (vs : List Int) (d : Nat) : Checks :=
  let ps := Emb.embcfgParams
  let rate := pn ps vs Emb.RATE
  let groups := pn ps vs Emb.GROUPS
  let ch := fun q => pn ps vs (Emb.chF q)
  [(.range, !paramsOk ps vs || (rate == 1 && decide (4 < groups)) ||
      (List.range 32).any fun q => ch q / 65536 == 3 || (ch q / 65536 == 1 && decide (32 ≤ ch q % 65536))),
   (.rate, ((rate == 1 || decide (4 < groups)) && s.cellTimed d && s.sdPlan (s.cellN d Cell.PLAN)) ||
      (List.range (groups * (if rate = 1 then 2 else 4))).any fun q => ch q / 65536 == 2 && s.slotRate (ch q % 65536) != rate)]

def judgeEmbcfg (i : Issue) (s : State) : Judged :=
  let pr := getParams Emb.embcfgParams false i
  let vs := pr.getD []
  let ds := targets i 0x24 (U.emb 0) 2304
  { checks := (.format, i.badFlags true false true false || pr.isNone) :: eachTarget ds (embcfgChecks s vs)
    verdict := .stage ((ds.getD []).map fun d => ⟨s.cellN d Cell.PLAN, 0, [⟨U.emb d, 0⟩], [U.emb d], .cfg 0x65 d 0 vs⟩) }
def execEmbcfg (i : Issue) (s : State) : Res := .next (s.issue i (.ticked 0x65) (judgeEmbcfg i))
def State.commitEmbcfg (s : State) (d : Nat) (vs : List Int) : State :=
  (s.wrs (U.emb d) ((Emb.embcfgParams.zip vs).mapIdx fun _ e => (if Emb.CH0.pos ≤ e.1.fld.pos ∧ e.1.fld.pos ≤ Emb.CH31.pos then Emb.chF (e.1.fld.pos - Emb.CH0.pos) else e.1.fld, e.2))).audioSwitch d

end Sys2Proof.Machine
end

