-- ==== Sys2Proof/Machine/Capture.lean ====
section
/-!
DEFINITION. Pictures gathered from the lines that a Cell emits into a Granary slot or a Winnow scaler: the lines caught, broken lines,
rows, ancillary packets, payload IDs and the raster that their structure matches (R258, R261, R274, R279, R281).
-/
namespace Sys2Proof.Machine

/-! ### Lines under way -/

/-- Lines of the frame under way at a sub-slot or scaler, newest first. -/
def State.caught (s : State) (u : Nat) : List SeatLine := Tbl.get ⟨u, 40⟩ [] s.seatLines
def State.setCaught (s : State) (u : Nat) (l : List SeatLine) : State := { s with seatLines := Tbl.set ⟨u, 40⟩ [] l s.seatLines }
/-- First line of field 2 or of the second segment. -/
def field2First (id : Nat) : Nat := if id % 32 = 0 then 266 else if id % 32 = 1 then 313 else 564
/-- The line after `line` of a frame. -/
def lineAfter (id line : Nat) : Nat := if line = (raster id).lines then 1 else line + 1
/-- System time of a line caught, to 3.2 ns (R259). -/
def State.lineStamp (s : State) (l : SeatLine) : Int :=
  let step : Int := 32 * Config.ns / 10
  ((l.time : Int) + s.tsOff) / step * step

/-! ### What lines hold -/

/-- A line is broken under the tests of R70: its length, its EAV and SAV at their places, and their protection bits. -/
def lineBroken (id : Nat) (native : Bool) (ws : List Nat) : Bool :=
  let r := seatRas id native
  let n := r.eav / 4
  let sav := ws.drop (savPlace id native)
  ws.length != r.words || !trsAt n 1 ws || !trsAt n 0 sav || !((ws.drop (3 * n)).take n).all xyzOk || !((sav.drop (3 * n)).take n).all xyzOk
/-- The last good payload ID of the lines. -/
def pidOf (ls : List SeatLine) : Option Nat :=
  (ls.flatMap fun l => (streamsOf l.words).flatMap fun w => (ancOf w).filterMap fun a => if isPid a.2 && ancOk a.2 then some (pidBytes a.2) else none).getLast?
/-- Row of the frame, from 0 at the top, of the first row that an active line carries. -/
def frameRow (id line : Nat) : Nat :=
  let x := lineRow id line
  if twoFields id then 2 * x.2 + x.1 else x.2
/-- Interface line that carries a row of the frame. -/
def lineOfRow (id row : Nat) : Nat := if twoFields id then rowLine id (row % 2) (row / 2) else rowLine id 0 row
/-- `n` samples of a form whose mapping onto words the spec does not give: free values (notes/assumptions/97.md). -/
def State.freeCodes (s : State) (bits n : Nat) : List Nat × State :=
  (List.range n).foldl (fun (a : List Nat × State) _ => let x := a.2.free (2 ^ bits); (a.1 ++ [x.1], x.2)) ([], s)
/-- The rows that an active line carries. -/
def State.rowsOfLine (s : State) (id : Nat) (pay : Payload) (ws : List Nat) : List PicLine × State :=
  if nativeFormat pay.sampling (if pay.depth12 then 1 else 0) then ((rowWords id ws).map picOfRow, s)
  else
    let w := activeWidth id
    let bits := if pay.depth12 then 12 else 10
    (List.range (rowsPerLine id)).foldl (fun (a : List PicLine × State) _ =>
      let x := a.2.freeCodes bits w
      let y := x.2.freeCodes bits (if pay.sampling = 0 then w / 2 else w)
      let z := y.2.freeCodes bits (if pay.sampling = 0 then w / 2 else w)
      (a.1 ++ [⟨x.1, y.1, z.1⟩], z.2)) ([], s)
/-- Rows of active lines with their places in the frame. -/
def State.placedRows (s : State) (id : Nat) (pay : Payload) (ls : List SeatLine) : List (Nat × PicLine) × State :=
  (ls.filter fun l => isActive id l.line).foldl (fun (a : List (Nat × PicLine) × State) l =>
    let x := a.2.rowsOfLine id pay l.words
    (a.1 ++ x.1.zipIdx.map fun e => (frameRow id l.line + e.2, e.1), x.2)) ([], s)

/-- Ancillary packets that the Granary does not store: embedded audio, EDH and the payload ID (R274; their identifiers
are PRESUMED, notes/assumptions/26.md). -/
def ancSkipped (p : List Nat) : Bool :=
  let did := p.getD 0 0 % 256
  decide (0xF8 ≤ did) || (decide (0xEC ≤ did) && decide (did ≤ 0xEF)) || (decide (0xE0 ≤ did) && decide (did ≤ 0xE7)) ||
    (decide (0xA0 ≤ did) && decide (did ≤ 0xA7)) || did == 0xF4 || isPid p
/-- The packets of a line that are stored: line, stream, then the words from the DID on. -/
def storedAnc (l : SeatLine) : List (List Nat) :=
  (streamsOf l.words).zipIdx.flatMap fun w => ((ancOf w.1).filter fun a => !ancSkipped a.2).map fun a => l.line :: w.2 :: a.2
/-- Packets within 16,384 bytes, and how many are beyond. A packet takes its words from the DID to the checksum at 10 bits each, in whole
bytes (DESIGN CHOICE, notes/assumptions/104.md). -/
def ancWithin (ps : List (List Nat)) : List (List Nat) × Nat :=
  let r := ps.foldl (fun (a : List (List Nat) × Nat × Nat) p =>
    let size := (10 * (p.length - 2) + 7) / 8
    if a.2.1 + size ≤ 16384 then (a.1 ++ [p], a.2.1 + size, a.2.2) else (a.1, a.2.1, a.2.2 + 1)) ([], 0, 0)
  (r.1, r.2.2)
/-- Marks of a line as a stored picture keeps them. -/
def lineMark (line : Nat) (lerr conc : Bool) : List Nat :=
  if lerr || conc then [4 * line + (if lerr then 1 else 0) + (if conc then 2 else 0)] else []

/-! ### Detection of a raster (R281, Table 10.9) -/

/-- Bits F and V of a line's EAV. -/
def lineF (ws : List Nat) : Nat := bitsAt (ws.getD (3 * (eavGroup ws / 4)) 0) 8 8
def lineV (ws : List Nat) : Nat := bitsAt (ws.getD (3 * (eavGroup ws / 4)) 0) 7 7
/-- Raster IDs of Table 2.2, with WIDE. -/
def rasterIds : List Nat := List.range 0x1D ++ (List.range 0x15).map (· + 40)
/-- The structure of lines caught (newest first) is that of a raster: words, SAV place, field and vertical bits, and the line period to
500 ppm; interlaced and PsF rasters are told apart by the payload ID, interlaced without one. -/
def matchesRaster (ls : List SeatLine) (pid : Option Nat) (native : Bool) (id : Nat) : Bool :=
  let r := seatRas id native
  let n := ls.length - 1
  let d := (ls.headD ⟨0, [], false, false, false, 0⟩).time - (ls.getLastD ⟨0, [], false, false, false, 0⟩).time
  let isPsf := match pid with
    | some v => bitAt v 14 && !bitAt v 15
    | none => false
  decide (0 < n) && decide (2000 * ((d : Int) - n * (raster id).line).natAbs ≤ n * (raster id).line) && (!twoFields id || psf id == isPsf) &&
    ls.all fun l => l.words.length == r.words && decide (l.line ≤ (raster id).lines) && trsAt (r.eav / 4) 0 (l.words.drop (savPlace id native)) &&
      lineF l.words == lineField id l.line && lineV l.words == (if isActive id l.line then 0 else 1)
def detectRaster (ls : List SeatLine) (pid : Option Nat) : Option Nat :=
  let pay := (pid.map pidPayload).getD plainPayload
  rasterIds.find? (matchesRaster ls pid (nativeFormat pay.sampling (if pay.depth12 then 1 else 0)))

end Sys2Proof.Machine
end

