-- ==== Sys2Proof/Machine/Picture.lean ====
section
/-!
DEFINITION. Pictures: the stages of the Granary's processing chain, the 3D LUT, dither, the kernels of the Winnow
scalers, and code values packed as Table 10.3 gives (R269 to R273, R279, R287, R297).
-/
namespace Sys2Proof.Machine

/-! ### Components -/

/-- A sample of three 14-bit components: Y, Cb, Cr, or the first, second and third of R'G'B'. -/
structure Px where
  a : Int
  b : Int
  c : Int
deriving DecidableEq, Repr

def Px.map (f : Int → Int) (p : Px) : Px := ⟨f p.a, f p.b, f p.c⟩
/-- The 14-bit range that every stage clamps to (R269). -/
def clamp14 (v : Int) : Int := max 0 (min 16383 v)
/-- The whole number of `n / d`; one of its two neighbours where there is none (notes/assumptions/29.md). -/
def whole (n : Int) (d : Nat) : Int :=
  if n % d = 0 then n / d else if Config.roundUp n d then n / d + 1 else n / d
/-- A stage's result from an exact fraction. -/
def stage14 (n : Int) (d : Nat) : Int := clamp14 (whole n d)
/-- Element `i` of a row whose edge samples repeat beyond its ends. -/
def edge (l : List Int) (i : Int) : Int := l.getD (min i.toNat (l.length - 1)) 0
/-- The row of samples of three component rows. -/
def zipPx : List Int → List Int → List Int → List Px
  | a :: s, b :: t, c :: u => ⟨a, b, c⟩ :: zipPx s t u
  | _, _, _ => []

/-! ### Stage 1 and the decimation of stage 7 -/

/-- Co-sited chroma kept, interstitial samples from (-1, 9, 9, -1)/16. -/
def upsample (cs : List Int) : List Int :=
  (List.range cs.length).flatMap fun (i : Nat) =>
    let e := fun (k : Int) => edge cs ((i : Int) + k)
    [e 0, stage14 (9 * (e 0 + e 1) - e (-1) - e 2) 16]
/-- Chroma at co-sited positions from (1, 2, 1)/4. -/
def decimate (cs : List Int) : List Int :=
  (List.range (cs.length / 2)).map fun (i : Nat) =>
    let e := fun (k : Int) => edge cs (2 * (i : Int) + k)
    stage14 (e (-1) + 2 * e 0 + e 1) 4
/-- Bits dropped from 14: 4 for 10-bit codes, 2 for 12-bit codes. -/
def dropped (d12 : Bool) : Nat := if d12 then 2 else 4
/-- Stage 1: a line of codes as samples of three components. -/
def unpackLine (sampling : Nat) (d12 : Bool) (l : PicLine) : List Px :=
  let up := fun (xs : List Nat) => xs.map fun (v : Nat) => (v : Int) * 2 ^ dropped d12
  if sampling = 0 then zipPx (up l.a) (upsample (up l.b)) (upsample (up l.c)) else zipPx (up l.a) (up l.b) (up l.c)
/-- The component rows of a line, chroma decimated for 4:2:2. -/
def splitLine (sampling : Nat) (ps : List Px) : List Int × List Int × List Int :=
  let b := ps.map (·.b)
  let c := ps.map (·.c)
  if sampling = 0 then (ps.map (·.a), decimate b, decimate c) else (ps.map (·.a), b, c)

/-! ### Colour (Tables 9.7 and 9.8) -/

/-- Kr and Kb of a COLOUR (Table 4.7), in units of 1/10,000. -/
def krOf (colour : Nat) : Int := if colour = 0 then 2126 else 2627
def kbOf (colour : Nat) : Int := if colour = 0 then 722 else 593
def kgOf (colour : Nat) : Int := 10000 - krOf colour - kbOf colour
/-- Black, the span from black to nominal peak, and the chroma span, at a number of bits. -/
def blackOf (bits : Nat) (full : Bool) : Int := if full then 0 else 2 ^ (bits - 4)
def spanOf (bits : Nat) (full : Bool) : Int := if full then 2 ^ bits - 1 else 219 * 2 ^ (bits - 8)
def chromaSpan (bits : Nat) (full : Bool) : Int := if full then 2 ^ bits - 1 else 224 * 2 ^ (bits - 8)

/-- Stage 2 (proc-amp), `rgb` for R'G'B' samples. -/
def procAmp (rgb full : Bool) (gain black chroma hue : Int) (p : Px) : Px :=
  let b := blackOf 14 full
  let y := fun (v : Int) => stage14 ((v - b) * gain + (b + black) * 4096) 4096
  if rgb then p.map y
  else
    let co := Fx.cosPi hue 1800
    let si := if Config.hueTowardsCr then Fx.sinPi hue 1800 else -Fx.sinPi hue 1800
    let cb := p.b - 8192
    let cr := p.c - 8192
    let den := 4096 * Fx.one
    ⟨y p.a, stage14 ((cb * co - cr * si) * chroma + 8192 * den) den.toNat, stage14 ((cb * si + cr * co) * chroma + 8192 * den) den.toNat⟩

/-- Stage 3: to R'G'B' with 0 black and 16,383 nominal peak. -/
def decodePx (rgb : Bool) (colour : Nat) (full : Bool) (p : Px) : Px :=
  let o := blackOf 14 full
  let sp := spanOf 14 full
  let cs := chromaSpan 14 full
  if rgb then
    -- R'G'B' samples stand as G', B', R'
    let f := fun (v : Int) => stage14 ((v - o) * 16383) sp.toNat
    ⟨f p.c, f p.a, f p.b⟩
  else
    let y := p.a - o
    let cb := p.b - 8192
    let cr := p.c - 8192
    let kr := krOf colour
    let kb := kbOf colour
    let kg := kgOf colour
    let den := sp * cs * 10000
    let r := 16383 * (y * cs * 10000 + 2 * (10000 - kr) * cr * sp)
    let b := 16383 * (y * cs * 10000 + 2 * (10000 - kb) * cb * sp)
    let g := 16383 * (y * cs * 10000 * kg - 2 * (10000 - kr) * kr * cr * sp - 2 * (10000 - kb) * kb * cb * sp)
    ⟨stage14 r den.toNat, stage14 g (den * kg).toNat, stage14 b den.toNat⟩

/-- Stage 7 before decimation, at a number of bits: R'G'B' over `peak` to Y, Cb, Cr or to G', B', R' codes. -/
def encodeAt (bits : Nat) (peak : Int) (rgb : Bool) (colour : Nat) (full : Bool) (p : Px) : Px :=
  let o := blackOf bits full
  let sp := spanOf bits full
  let cs := chromaSpan bits full
  let mid : Int := 2 ^ (bits - 1)
  if rgb then
    let f := fun (v : Int) => whole (o * peak + v * sp) peak.toNat
    ⟨f p.b, f p.c, f p.a⟩
  else
    let kr := krOf colour
    let kb := kbOf colour
    let y := kr * p.a + kgOf colour * p.b + kb * p.c
    let dr := 2 * (10000 - kr) * peak
    let db := 2 * (10000 - kb) * peak
    ⟨whole (o * 10000 * peak + y * sp) (10000 * peak).toNat, whole (mid * db + (10000 * p.c - y) * cs) db.toNat,
      whole (mid * dr + (10000 * p.a - y) * cs) dr.toNat⟩
def encodePx (rgb : Bool) (colour : Nat) (full : Bool) (p : Px) : Px := (encodeAt 14 16383 rgb colour full p).map clamp14

/-- x^(n/d) of a fixed-point number, 0 where x is not above 0. -/
def fxPow (x : Int) (n d : Int) : Int := if x ≤ 0 then 0 else Fx.exp (Fx.ln x.toNat Fx.one.toNat * n / d)

/-- Constants of the PQ and HLG transfers (BT.2100; PRESUMED from the standard the rule names). -/
def pqPow (x : Int) : Int := fxPow x 2610 16384
def pqEotf (x : Int) : Int :=
  let v := fxPow x 32 2523
  let n := max 0 (v - Fx.ofRat 3424 4096)
  let d := Fx.ofRat 2413 128 - Fx.mul (Fx.ofRat 2392 128) v
  10000 * fxPow (n * Fx.one / d) 16384 2610
def pqInverse (l : Int) : Int :=
  let y := pqPow (l / 10000)
  fxPow ((Fx.ofRat 3424 4096 + Fx.mul (Fx.ofRat 2413 128) y) * Fx.one / (Fx.one + Fx.mul (Fx.ofRat 2392 128) y)) 2523 32
def hlgA : Int := Fx.ofRat 17883277 100000000
def hlgB : Int := Fx.ofRat 28466892 100000000
def hlgC : Int := Fx.ofRat 55991073 100000000
def hlgScene (x : Int) : Int :=
  if 2 * x ≤ Fx.one then Fx.mul x x / 3 else (Fx.exp ((x - hlgC) * Fx.one / hlgA) + hlgB) / 12
def hlgSignal (e : Int) : Int :=
  if 12 * e ≤ Fx.one then fxPow (3 * e) 1 2 else Fx.mul hlgA (Fx.ln (12 * e - hlgB).toNat Fx.one.toNat) + hlgC
/-- BT.2020 luminance. -/
def luma2020 (p : Px) : Int := (2627 * p.a + 6780 * p.b + 593 * p.c) / 10000

/-- Signal (fixed point, 1 the nominal peak) to light in cd/m². -/
def linearise (colour : Nat) (p : Px) : Px :=
  match colour with
  | 2 =>
    let e := p.map hlgScene
    let g := fxPow (luma2020 e) 1 5
    e.map fun v => 1000 * Fx.mul g v
  | 3 => p.map pqEotf
  | _ => p.map fun v => 100 * fxPow v 12 5
/-- Light in cd/m² to signal: the inverse. -/
def delinearise (colour : Nat) (p : Px) : Px :=
  match colour with
  | 2 =>
    let f := p.map (· / 1000)
    let ys := fxPow (luma2020 f) 5 6
    let g := fxPow ys 1 5
    if g = 0 then ⟨0, 0, 0⟩ else f.map fun v => hlgSignal (v * Fx.one / g)
  | 3 => p.map pqInverse
  | _ => p.map fun v => fxPow (v / 100) 5 12

/-- Three rows over a denominator. -/
def mat (m : List Int) (d : Int) (p : Px) : Px :=
  let r := fun (k : Nat) => (m.getD k 0 * p.a + m.getD (k + 1) 0 * p.b + m.getD (k + 2) 0 * p.c) / d
  ⟨r 0, r 3, r 6⟩
def m709to2020 : List Int := [6274, 3293, 433, 691, 9195, 114, 164, 880, 8956]
def m2020to709 : List Int := [16605, -5876, -728, -1246, 11329, -83, -182, -1006, 11187]
/-- The tone map between SDR and HDR light. -/
def toneMap (cin cout : Nat) (p : Px) : Px :=
  if cin < 2 ∧ 2 ≤ cout then p.map fun v => v * 203 / 100
  else if 2 ≤ cin ∧ cout < 2 then p.map fun v =>
    let x := v * 100 / 203 / 100
    let k := Fx.ofRat 9 10
    let y := if x ≤ k then x else k + (Fx.one - Fx.exp (-(10 * (x - k)))) / 10
    100 * y
  else p
/-- Stage 5 (Table 9.8): `user` the matrix M00 to M22 in units of 2^-14, none for AUTO. -/
def convert (cin cout : Nat) (user : Option (List Int)) (p : Px) : Px :=
  if cin = cout then
    match user with
    | none => p
    | some m =>
      let r := fun (k : Nat) => stage14 (m.getD k 0 * p.a + m.getD (k + 1) 0 * p.b + m.getD (k + 2) 0 * p.c) 16384
      ⟨r 0, r 3, r 6⟩
  else
    let l := linearise cin (p.map fun v => Fx.ofRat v 16383)
    let m := match user with
      | some m => mat m 16384 l
      | none =>
        if cin = 0 then mat m709to2020 10000 l
        else if cout = 0 then (mat m2020to709 10000 l).map (max 0) else l
    (delinearise cout (toneMap cin cout m)).map fun v => stage14 (v * 16383) Fx.one.toNat

/-! ### The 3D LUT (R271) -/

/-- An axis put among others in falling order of its fraction. -/
def insertAxis (x : Int × (Int × Int × Int)) : List (Int × (Int × Int × Int)) → List (Int × (Int × Int × Int))
  | [] => [x]
  | y :: t => if y.1 ≤ x.1 then x :: y :: t else y :: insertAxis x t
/-- Stages 4 and 6: tetrahedral interpolation in a table of 33³ nodes, each a word of Table 9.9. -/
def lutPx (t : List Int) (p : Px) : Px :=
  let node := fun (i : Int × Int × Int) => (t.getD (i.1 + 33 * i.2.1 + 1089 * i.2.2).toNat 0).toNat
  let i := (p.a / 512, p.b / 512, p.c / 512)
  let axes : List (Int × (Int × Int × Int)) := [(p.a % 512, (1, 0, 0)), (p.b % 512, (0, 1, 0)), (p.c % 512, (0, 0, 1))]
  let s := axes.foldr insertAxis []
  let add := fun (x y : Int × Int × Int) => (x.1 + y.1, x.2.1 + y.2.1, x.2.2 + y.2.2)
  let f := fun (k : Nat) => (s.getD k (0, (0, 0, 0))).1
  let v := fun (k : Nat) => (s.getD k (0, (0, 0, 0))).2
  let n1 := add i (v 0)
  let n2 := add n1 (v 1)
  let n3 := add n2 (v 2)
  let mix := fun (lo : Nat) =>
    let g := fun (n : Int × Int × Int) => (bitsAt (node n) (lo + 13) lo : Int)
    stage14 (g i * (512 - f 0) + g n1 * (f 0 - f 1) + g n2 * (f 1 - f 2) + g n3 * f 2) 512
  ⟨mix 0, mix 16, mix 32⟩

/-! ### Dither (R272, R273) -/

/-- One step of the Galois LFSR x^32 + x^22 + x^2 + x + 1. -/
def lfsrNext (r : Nat) : Nat := if r % 2 = 1 then (r / 2) ^^^ 0x80200003 else r / 2
/-- Seed of component `c` (1 to 3) at a frame of the plan with tick count `n`. -/
def lfsrSeed (n : Int) (c : Nat) : Nat :=
  let r := ((n % 2 ^ 32).toNat) ^^^ (0xA5A50000 + c)
  if r = 0 then 1 else r
/-- Codes outside the range that an SDI word may hold are limited (Table 9.7, R297). -/
def limitCode (bits : Nat) (q : Int) : Nat :=
  let lo : Int := if bits = 8 then 1 else 2 ^ (bits - 8)
  (max lo (min (2 ^ bits - 1 - lo) q)).toNat
/-- ROUND to a number of bits. -/
def roundCode (bits : Nat) (v : Int) : Int := (v + 2 ^ (13 - bits)) / 2 ^ (14 - bits)
/-- A row under TPDF from LFSR state `r`: the codes and the state after the row. -/
def tpdfRow (bits : Nat) : Nat → List Int → List Nat × Nat
  | r, [] => ([], r)
  | r, v :: t =>
    let s := 14 - bits
    let noise : Int := (r % 2 ^ s : Nat) + (r / 2 ^ s % 2 ^ s : Nat)
    let x := tpdfRow bits (lfsrNext r) t
    (limitCode bits ((v + 2 ^ (s - 1) + noise - (2 ^ s - 1)) / 2 ^ s) :: x.1, x.2)
/-- Rows of one component, quantised in raster order. -/
def tpdfRows (bits : Nat) : Nat → List (List Int) → List (List Nat)
  | _, [] => []
  | r, v :: t => let x := tpdfRow bits r v; x.1 :: tpdfRows bits x.2 t
/-- Lines put together from component rows. -/
def zipLines : List (List Nat) → List (List Nat) → List (List Nat) → List PicLine
  | a :: s, b :: t, c :: u => ⟨a, b, c⟩ :: zipLines s t u
  | _, _, _ => []
/-- Stage 9 over a frame of component rows. -/
def quantiseFrame (bits : Nat) (tpdf : Bool) (n : Int) (ls : List (List Int × List Int × List Int)) : List PicLine :=
  if tpdf then zipLines (tpdfRows bits (lfsrSeed n 1) (ls.map (·.1))) (tpdfRows bits (lfsrSeed n 2) (ls.map (·.2.1)))
    (tpdfRows bits (lfsrSeed n 3) (ls.map (·.2.2)))
  else
    let q := fun (l : List Int) => l.map fun v => limitCode bits (roundCode bits v)
    ls.map fun l => ⟨q l.1, q l.2.1, q l.2.2⟩

/-- A line of black (R71) of `w` samples. -/
def blackLine (sampling : Nat) (d12 : Bool) (w : Nat) : PicLine :=
  let k := if d12 then 4 else 1
  let y := List.replicate w (0x40 * k)
  match sampling with
  | 0 => ⟨y, List.replicate (w / 2) (0x200 * k), List.replicate (w / 2) (0x200 * k)⟩
  | 1 => ⟨y, List.replicate w (0x200 * k), List.replicate w (0x200 * k)⟩
  | _ => ⟨y, y, y⟩

/-! ### Quantisation of heads (R297) -/

def ordered4 : List Int := [0, 8, 2, 10, 12, 4, 14, 6, 3, 11, 1, 9, 15, 7, 13, 5]
/-- Component `c` at (x, y) of a head frame with tick count `t`, to a number of bits under a DITHER. -/
def headCode (bits dither : Nat) (t : Int) (c x y : Nat) (v : Int) : Nat :=
  let s := 14 - bits
  limitCode bits (match dither with
    | 0 => roundCode bits v
    | 1 => (32 * v + (2 * ordered4.getD (4 * (y % 4) + x % 4) 0 + 1) * 2 ^ s) / (32 * 2 ^ s)
    | _ =>
      let ox := ((37 * (t % 2 ^ 32) + 21 * c) % 64).toNat
      let oy := ((23 * (t % 2 ^ 32) + 43 * c) % 64).toNat
      (8192 * v + (2 * (Config.blueNoise (64 * ((y + oy) % 64) + (x + ox) % 64)).toNat + 1) * 2 ^ s) / (8192 * 2 ^ s))

/-! ### Scaler kernels (R279, Table 10.1) -/

/-- sin(πx) / (πx) at x = n / d. -/
def sinc (n : Int) (d : Nat) : Int := if n = 0 then Fx.one else Fx.sinPi n d * Fx.one / (Fx.pi * n / d)
/-- The kernel of a tap count at x = n / d output pitches. -/
def kernelAt (soft : Bool) (taps : Nat) (n : Int) (d : Nat) : Int :=
  if (taps : Int) * d ≤ 2 * n.natAbs then 0
  else if taps = 2 then Fx.one - Fx.ofRat n.natAbs d
  else if soft then Fx.exp (-(Fx.ofRat (n * n * 100) (72 * d * d)))
  else Fx.mul (sinc n d) (sinc n (d * (taps / 2)))
/-- First input place and coefficients for the centre `num / den`, phase taken to 1/64, pitch ratio r = rn / rd at
least 1: each coefficient in 1/1,024, the centre tap set so that they sum to 1,024. -/
def kernelRow (soft : Bool) (taps : Nat) (num : Int) (den : Nat) (rn rd : Nat) : Int × List Int :=
  let c := (64 * num) / (den : Int)
  let base := c / 64
  let half : Int := ((taps * rn + 2 * rd - 1) / (2 * rd) : Nat)
  let first := base - half
  -- distance of place first + k from the centre, in output pitches: ((first + k) * 64 - c) * rd / (64 * rn)
  let ks := (List.range (2 * half.toNat + 2)).map fun (k : Nat) => kernelAt soft taps (((first + (k : Int)) * 64 - c) * rd) (64 * rn)
  let sum := ks.foldl (· + ·) 0
  let qs := ks.map fun v => if sum = 0 then 0 else Fx.round (1024 * v) sum
  let mid : Nat := (half + (if c % 64 < 32 then 0 else 1)).toNat
  (first, qs.set mid (qs.getD mid 0 + (1024 - qs.foldl (· + ·) 0)))
/-- A row filtered at one centre. -/
def tapSum (l : List Int) (k : Int × List Int) : Int :=
  stage14 ((k.2.zipIdx.foldl (fun a e => a + e.1 * edge l (k.1 + (e.2 : Int))) 0)) 1024

/-! ### Packing (Table 10.3) -/

/-- The bits of a 4:2:2 line as one number: Cb, Y0, Cr, Y1 of each pair, least significant first. -/
def packLine (bits : Nat) (l : PicLine) : Nat :=
  (List.range l.b.length).foldr (fun (i : Nat) acc =>
    (l.b.getD i 0) + 2 ^ bits * (l.a.getD (2 * i) 0) + 2 ^ (2 * bits) * (l.c.getD i 0) + 2 ^ (3 * bits) * (l.a.getD (2 * i + 1) 0) +
      2 ^ (4 * bits) * acc) 0
/-- `n` bytes of a number, least significant first. -/
def bytesOf : Nat → Nat → List (BitVec 8)
  | 0, _ => []
  | n + 1, v => BitVec.ofNat 8 v :: bytesOf n (v / 256)

end Sys2Proof.Machine
end

