-- ==== Sys2Proof/Machine/Granary.lean ====
section
/-!
DEFINITION. The Granary: slot and sub-slot configuration, frame store, choice of the output frame, loss and hold,
bundled slots, Barn cost, LUT loads (R254 to R276).
-/
namespace Sys2Proof.Machine

/-! Sub-slot bookkeeping: number of the frame being read and of the newest stored (0 none), consecutive complete
frames, whether the next decision resumes from HOLD or LOST, runs of bad period and of disagreeing payload ID, the
window of IN_RATE_OFFSET (stamp of its first frame, frames in it), and the instant until which a choice of the partner is awaited.
Stored frames are triples (number, stamp, completion) in buffer 0. -/
def Sub.readNo : Field := ⟨300, 0, false, 0⟩
def Sub.lastNo : Field := ⟨301, 0, false, 0⟩
def Sub.okRun : Field := ⟨302, 0, false, 0⟩
def Sub.resume : Field := ⟨303, 1, false, 0⟩
def Sub.badRate : Field := ⟨304, 0, false, 0⟩
def Sub.badPid : Field := ⟨305, 0, false, 0⟩
def Sub.winStart : Field := ⟨306, 0, true, 0⟩
def Sub.winCount : Field := ⟨307, 0, false, 0⟩
def Sub.choiceDue : Field := ⟨308, 0, false, 0⟩
/-- What goes out at the next tick of the plan: nothing, the frame read, that frame held (2). Output lines that met a Barn error
are in buffer 5. -/
def Sub.sending : Field := ⟨309, 2, false, 0⟩
/-- The input under way: source and stream of its last line (plus one), when that line came (`clk` plus one), consecutive lines of wrong
length, and whether the input stands declared lost; stamp of the last frame written; and the frame read for the output frame before. -/
def Sub.inFrom : Field := ⟨310, 0, false, 0⟩
def Sub.inAt : Field := ⟨311, 0, false, 0⟩
def Sub.inBad : Field := ⟨312, 0, false, 0⟩
def Sub.inLost : Field := ⟨313, 1, false, 0⟩
def Sub.lastStamp : Field := ⟨314, 0, true, 0⟩
def Sub.prevNo : Field := ⟨315, 0, false, 0⟩
/-- Instant of the last decision (`clk`, plus one). -/
def Sub.decidedAt : Field := ⟨316, 0, false, 0⟩
/-- Stamp of the bundle frame last counted in SLIP_FRAMES or SKEW_ERRORS, plus one. -/
def Bundle.slipStamp : Field := ⟨301, 0, false, 0⟩

abbrev subOff : Int := 0
abbrev subEmpty : Int := 1
abbrev subRunning : Int := 2
abbrev subHold : Int := 3
abbrev subLost : Int := 4

/-! ### Cost (R267) -/

/-- F of R267: active-picture bytes per frame for a sampling code (0 is 4:2:2) and depth code (0 is 10 bits). -/
def activeBytes (id sampling depth : Nat) : Nat :=
  ceilDiv (activeWidth id * activeHeight id * (if sampling = 0 then 2 else 3) * (if depth = 0 then 10 else 12)) 8

/-- Sub-slots of a MODE (Table 9.1). -/
def subCount (mode : Nat) : Nat := match mode with | 0 => 0 | 1 => 1 | 2 => 2 | 3 => 4 | _ => 8

/-- Configuration of a slot that its claim depends on. -/
structure SlotCfg where
  mode : Nat
  plan : Nat
  depth : Nat
  subs : List (Bool × Nat × Nat)
deriving DecidableEq, Repr

/-- The committed configuration. -/
def State.slotCfg (s : State) (sl : Nat) : SlotCfg :=
  ⟨s.granMode sl, s.rn (U.gran sl) Gran.PLAN, s.rn (U.gran sl) Gran.DEPTH_MAX,
    (List.range 8).map fun j => let u := U.sub sl j; (s.rb u Sub.ENABLE, s.rn u Sub.IN_SAMPLING, s.rn u Sub.IN_DEPTH)⟩

/-- A `grancfg` (0x43) or `subcfg` (0x44) laid over a configuration. -/
def SlotCfg.apply (c : SlotCfg) (op j : Nat) (vs : List Int) : SlotCfg :=
  if op = 0x43 then
    let ps := Gran.grancfgParams
    { c with mode := pn ps vs Gran.MODE, plan := pn ps vs Gran.PLAN, depth := pn ps vs Gran.DEPTH_MAX }
  else
    let ps := Sub.subcfgParams
    { c with subs := c.subs.mapIdx fun i x => if i = j then (pv ps vs Sub.ENABLE == 1, pn ps vs Sub.IN_SAMPLING, pn ps vs Sub.IN_DEPTH) else x }

/-- An effect on the slot laid over a configuration. -/
def SlotCfg.lay (sl : Nat) (c : SlotCfg) : Effect → SlotCfg
  | .cfg op idx j vs => if (op = 0x43 ∨ op = 0x44) ∧ idx = sl then c.apply op j vs else c
  | _ => c
/-- Effects that the open salvo of thread `t` holds. -/
def State.salvoEffects (s : State) (t : Nat) : List Effect :=
  (s.salvos.filter (·.th == t)).flatMap fun o => o.members.flatMap fun m => m.2.map (·.eff)
/-- The configuration with every staged change of the slot laid over it in staging order, and those of the open salvo of thread `t`
(R268). -/
def State.slotProj (s : State) (t sl : Nat) : SlotCfg :=
  (s.staged.map (·.eff) ++ s.salvoEffects t).foldl (SlotCfg.lay sl) (s.slotCfg sl)
/-- The configuration that thread `t` finds at its own `subcfg`: the committed one with what that thread has staged laid over it. What
another thread has staged is found at the commit (R257). -/
def State.slotOwn (s : State) (t sl : Nat) : SlotCfg :=
  ((s.staged.filter (·.th == t)).map (·.eff) ++ s.salvoEffects t).foldl (SlotCfg.lay sl) (s.slotCfg sl)

/-- Bandwidth claim in 0.001 GB/s and storage in bytes of a slot's configuration (R267). -/
def State.slotClaim (s : State) (c : SlotCfg) : Nat × Nat :=
  let id := s.planRaster c.plan
  let r := raster id
  let on := (c.subs.take (subCount c.mode)).filter (·.1)
  let bytes := on.map fun x => activeBytes id x.2.1 x.2.2 + 16384
  (bytes.foldl (fun a b => a + frameCost (2 * b) r) 0,
    ceilDiv (bytes.foldl (fun a b => a + (c.depth + 3) * b) 0) 2097152 * 2097152)

/-! ### Configuration (R255 to R257, R266) -/

/-- Largest DEPTH_MAX (Table 9.1; MODE OFF stores up to 32). -/
def depthLimit (mode raster : Nat) : Nat := if (mode = 1 ∨ mode = 2) ∧ 0x15 ≤ raster % 32 then 8 else 32
/-- Rasters that a MODE accepts (Table 9.1). -/
def modeRaster (mode raster : Nat) : Bool :=
  let r := raster % 32
  match mode with
  | 2 => decide (r < 0x1A)
  | 3 => decide (r ≤ 0x14)
  | 4 => decide (r ≤ 0x11)
  | _ => true

/-- Interface rate class (1 to 5) of a seat mapping of a raster, sampling and depth; 0 where Table 7.7 supports none. -/
def mappingRate (id sampling depth : Nat) : Nat :=
  let r := id % 32
  if sampling = 0 ∧ depth = 0 then (raster id).rate + 1
  else if 5 ≤ r ∧ r ≤ 0x11 then 3 else if 0x12 ≤ r ∧ r ≤ 0x14 then 4 else if 0x15 ≤ r ∧ r ≤ 0x19 then 5 else 0

/-- A Cell's selection, current or staged, names the slot's output seat. -/
def State.slotSelected (s : State) (sl : Nat) : Bool := s.anyCellNames (fun _ => true) (· == 2304 + sl)

/-- Other member slots of the slot bundle of slot `sl` (R266). -/
def State.slotMates (s : State) (sl : Nat) : List Nat :=
  let b := s.cellN (2304 + sl) Cell.DBUNDLE
  if b = 0x3FF then [] else ((s.bundleMembers (U.dbundle b)).filter fun d => isGranSeat d && d != 2304 + sl).map (· - 2304)

/-- The member is in M1 and shares these parameters with another slot (R266). -/
def State.mateOk (s : State) (vs : List Int) (m : Nat) : Bool :=
  let ps := Gran.grancfgParams
  pv ps vs Gran.MODE == 1 &&
    [Gran.PLAN, Gran.DEPTH_MAX, Gran.DOMINANCE, Gran.HOLD_FIELD, Gran.HOLD_LIMIT, Gran.BAD_LINES_MAX, Gran.LINE_CONCEAL].all fun f =>
      pv ps vs f == s.rd (U.gran m) f

/-- The plan on which effects of thread `t` on a slot commit (R255). -/
def State.slotPlan (s : State) (t sl : Nat) : Nat :=
  if s.granMode sl ≠ 0 then s.rn (U.gran sl) Gran.PLAN
  else
    let mine := s.staged.filterMap fun e => match e.eff with
      | .cfg 0x43 idx _ vs => if idx = sl && e.th = t then some (pn Gran.grancfgParams vs Gran.PLAN) else none
      | _ => none
    let inSalvo := (s.salvoEffects t).filterMap fun x => match x with
      | .cfg 0x43 idx _ vs => if idx = sl then some (pn Gran.grancfgParams vs Gran.PLAN) else none
      | _ => none
    (mine ++ inSalvo).getLast?.getD (s.rn (U.gran sl) Gran.PLAN)

/-- LUT bank state field, and a bank that a staged `grancfg` selects. -/
def lutStateF (b : Nat) : Field := if b = 0 then Gran.LUT0_STATE else Gran.LUT1_STATE
def State.bankInUse (s : State) (sl b : Nat) : Bool :=
  s.rn (U.gran sl) Gran.LUT_BANK == b || s.staged.any fun e => match e.eff with
    | .cfg 0x43 idx _ vs => idx == sl && pn Gran.grancfgParams vs Gran.LUT_BANK == b
    | _ => false

def grancfgChecks (s : State) (vs : List Int) (sl : Nat) : Checks :=
  let ps := Gran.grancfgParams
  let u := U.gran sl
  let mode := pn ps vs Gran.MODE
  let plan := pn ps vs Gran.PLAN
  let id := s.planRaster plan
  let change := [Gran.MODE, Gran.PLAN, Gran.DEPTH_MAX].any fun f => pv ps vs f != s.rd u f
  let bank := pn ps vs Gran.LUT_BANK
  [(.range, !paramsOk ps vs || decide (depthLimit mode id < pn ps vs Gran.DEPTH_MAX)),
   (.nounit, s.unitBad u || (mode != 0 && !s.planOn plan)),
   (.locked, (change && s.slotSelected sl) || (bank != s.rn u Gran.LUT_BANK && s.rn u (lutStateF bank) != 2)),
   (.bundle, (s.slotMates sl).any fun m => !s.mateOk vs m),
   (.rate, !modeRaster mode id)]

/-- Requests of the slots addressed, each with the change laid over its projected configuration. -/
def State.slotRequests (s : State) (t : Nat) (sls : List Nat) (op j : Nat) (vs : List Int) : List Request :=
  sls.map fun sl =>
    let (rt, pool) := s.slotClaim ((s.slotProj t sl).apply op j vs)
    ⟨U.gran sl, rt * 1000000, 0, pool, none⟩

def judgeGrancfg (i : Issue) (s : State) : Judged :=
  let ps := Gran.grancfgParams
  let pr := getParams ps false i
  let vs := pr.getD []
  let sls := targets i 0x11 (U.gran 0) 128
  let mode := pn ps vs Gran.MODE
  let (adm, best) := s.admitAll (s.slotRequests i.th (sls.getD []) 0x43 0 vs)
  { checks := (.format, i.badFlags true false true false || pr.isNone) :: eachTarget sls (grancfgChecks s vs) ++ [(.bandwidth, adm.isNone)]
    members := memberChecks (U.gran 0) sls (grancfgChecks s vs)
    verdict := .stage ((sls.getD []).map fun sl =>
      ⟨if s.granMode sl = 0 then pn ps vs Gran.PLAN else s.rn (U.gran sl) Gran.PLAN, 0, [⟨U.gran sl, 0⟩],
        if mode = 0 then [] else [U.gran sl], .cfg 0x43 sl 0 vs⟩)
    claims := adm.getD []
    refuse := fun a => a.countRefusal best }
def execGrancfg (i : Issue) (s : State) : Res := .next (s.issue i (.ticked 0x43) (judgeGrancfg i))

def subcfgChecks (s : State) (t : Nat) (vs : List Int) (j sl : Nat) : Checks :=
  let ps := Sub.subcfgParams
  let c := s.slotOwn t sl
  let id := s.planRaster c.plan
  let out := mappingRate id (pn ps vs Sub.IN_SAMPLING) (pn ps vs Sub.OUT_DEPTH)
  let rgb := pv ps vs Sub.IN_SAMPLING == 2
  let hdr := decide (2 ≤ pv ps vs Sub.COLOUR_OUT)
  [(.range, !paramsOk ps vs || decide (c.depth < pn ps vs Sub.DELAY_CFG) || decide (subCount c.mode ≤ j) ||
      (rgb && (pv ps vs Sub.CHROMA_GAIN != 4096 || pv ps vs Sub.HUE != 0)) ||
      (hdr && pv ps vs Sub.COLOUR_IN == 0 && pv ps vs Sub.MATRIX_MODE == 0)),
   (.nounit, s.unitBad (U.gran sl)),
   (.bundle, j == 0 && (s.slotMates sl).any fun m => pv ps vs Sub.DELAY_CFG != s.rd (U.sub m 0) Sub.DELAY_CFG),
   (.rate, decide (c.mode ≠ 0) && (out == 0 || decide (modeRate c.mode < out)))]

def judgeSubcfg (i : Issue) (s : State) : Judged :=
  let pr := getParams Sub.subcfgParams true i
  let vs := pr.getD []
  let j := i.sub % 8
  let sls := targets i 0x11 (U.gran 0) 128
  let (adm, best) := s.admitAll (s.slotRequests i.th (sls.getD []) 0x44 j vs)
  { checks := (.format, i.badFlags true false true false || decide (8 ≤ i.sub) || pr.isNone) :: eachTarget sls (subcfgChecks s i.th vs j) ++ [(.bandwidth, adm.isNone)]
    members := memberChecks (U.gran 0) sls (subcfgChecks s i.th vs j)
    verdict := .stage ((sls.getD []).map fun sl => ⟨s.slotPlan i.th sl, 0, [⟨U.sub sl j, 0⟩], [U.gran sl], .cfg 0x44 sl j vs⟩)
    claims := adm.getD []
    refuse := fun a => a.countRefusal best }
def execSubcfg (i : Issue) (s : State) : Res := .next (s.issue i (.ticked 0x44) (judgeSubcfg i))

/-! ### State of a sub-slot and the Cells that select it -/

/-- FOLLOW Cells that emit sub-slot j show HOLD, the source, or nothing (R264, R135, R137); one that emits nothing waits for the first
SOL (R123). -/
def State.followOutputs (s : State) (sl j : Nat) (out : Int) : State :=
  if out = 0 then State.followStop 8 (2304 + sl) (some j) s
  else ((s.holding 0 2688 Cell.SOURCE (2304 + sl : Nat)).filter fun d =>
      !s.cellTimed d && s.cellN d Cell.STREAM == j && (s.cellN d Cell.OUTPUT == 1 || s.cellN d Cell.OUTPUT == 3)).foldl
    (fun a d => (a.wr (U.cell d) Cell.OUTPUT out).audioSwitch d) s

/-- Enter a sub-slot state; HOLD, LOST and RUNNING are counted and posted (R264). -/
def State.subEnter (s : State) (sl j : Nat) (st : Int) (code : Nat) : State :=
  let u := U.sub sl j
  let old := s.rd u Sub.STATE
  if old = st then s
  else
    let s1 := s.wr u Sub.STATE st
    if st = subHold then (((s1.wr u Sub.HELD 0).count u Ctr.Sub.HOLD_ENTRIES).postEntry u 3 old.toNat 0 code).followOutputs sl j 3
    else if st = subLost then ((s1.count u Ctr.Sub.LOSS_ENTRIES).postEntry u 4 old.toNat 0 code).followOutputs sl j 0
    else if st = subRunning then
      (((s1.wr u Sub.resume (if old = subEmpty then 0 else 1)).count u Ctr.Sub.RESUMES).postEntry u 2 old.toNat 0 code).followOutputs sl j 1
    else s1.followOutputs sl j 0

/-- Keep only the stored frames or tiles of a unit whose numbers pass. -/
def State.dropPicts (s : State) (u : Nat) (keep : Nat → Bool) : State := { s with pics := s.pics.filter fun p => p.unit != u || keep p.num }
/-- The stored frame or tile of a unit with a number. -/
def State.pict (s : State) (u n : Nat) : Option Pict := s.pics.find? fun p => p.unit == u && p.num == n

/-- Discard every stored frame; an enabled sub-slot starts EMPTY (R257). -/
def State.subClear (s : State) (sl j : Nat) : State :=
  let u := U.sub sl j
  let on := s.rb u Sub.ENABLE && decide (j < subCount (s.granMode sl))
  ((((s.dropPicts u fun _ => false).wrs u [(Sub.readNo, 0), (Sub.prevNo, 0), (Sub.lastNo, 0), (Sub.okRun, 0), (Sub.resume, 0), (Sub.badRate, 0), (Sub.badPid, 0),
    (Sub.winCount, 0), (Sub.inBad, 0), (Sub.inLost, 0), (Sub.LAG, 0), (Sub.HELD, 0)]).setBuf u 0 []).setCaught u []).subEnter sl j
    (if on then subEmpty else subOff) 0

/-- Claims and their fields follow the committed configuration (R268, R276). -/
def State.slotReclaim (s : State) (sl : Nat) : State :=
  let u := U.gran sl
  let (rt, pool) := s.slotClaim (s.slotCfg sl)
  let s1 := match s.claimChan u with
    | some c => s.setClaims u [⟨u, c, rt * 1000000, 0, pool⟩]
    | none => s
  s1.wrs u [(Gran.COST_MBS, rt), (Gran.STORE_MB, pool / 1048576)]

/-- A `grancfg` commits (R256, R257, R271); a bank still LOADING makes it return LOCKED. -/
def State.commitGrancfg (s : State) (sl : Nat) (vs : List Int) : Option Nat × State :=
  let ps := Gran.grancfgParams
  let u := U.gran sl
  let change := [Gran.MODE, Gran.PLAN, Gran.DEPTH_MAX].any fun f => pv ps vs f != s.rd u f
  if s.rn u (lutStateF (pn ps vs Gran.LUT_BANK)) = 1 then (some Code.locked.num, s)
  else
    let depth := pv ps vs Gran.DEPTH_MAX
    let s1 := s.wrParams u ps vs
    let s2 := (List.range 8).foldl (fun a j =>
      let v := U.sub sl j
      a.wrs v [(Sub.DELAY_CFG, min (a.rd v Sub.DELAY_CFG) depth), (Sub.DELAY, min (a.rd v Sub.DELAY) depth)]) s1
    let s3 := if change then (List.range 8).foldl (fun a j => a.subClear sl j) s2 else s2
    -- streams that the new MODE does not provide have no selection (R595)
    let c := U.cell (2304 + sl)
    let s3 := ((List.range 8).drop (max 1 (modeStreams (pn ps vs Gran.MODE)))).foldl (fun a j =>
      a.wrs c [(Cell.msSource j, noSeat), (Cell.msStream j, 0), (Cell.pending j, 0), (Cell.oldSource j, noSeat), (Cell.oldStream j, 0)]) s3
    (none, (s3.slotReclaim sl).wr u unitWorkF s.clk)

/-- A `subcfg` commits, or returns CONFLICT where the committed slot no longer admits it (R257). -/
def State.commitSubcfg (s : State) (sl j : Nat) (vs : List Int) : Option Nat × State :=
  let ps := Sub.subcfgParams
  let u := U.sub sl j
  if subCount (s.granMode sl) ≤ j ∨ s.rn (U.gran sl) Gran.DEPTH_MAX < pn ps vs Sub.DELAY_CFG then (some Code.conflict.num, s)
  else
    let was := s.rb u Sub.ENABLE
    let s1 := s.wrParams u ps vs
    let s2 := if was = s1.rb u Sub.ENABLE then s1 else s1.subClear sl j
    (none, s2.slotReclaim sl)

/-! ### The processing chain (R269 to R273) -/

/-- The USER matrix of a sub-slot, none under AUTO. -/
def State.subMatrix (s : State) (u : Nat) : Option (List Int) :=
  if s.rb u Sub.MATRIX_MODE then some ([Sub.M00, Sub.M01, Sub.M02, Sub.M10, Sub.M11, Sub.M12, Sub.M20, Sub.M21, Sub.M22].map (s.rd u)) else none
/-- The settings leave the picture as it is: stages 2 to 8 are bypassed (R269). -/
def State.subNeutral (s : State) (u : Nat) : Bool :=
  s.rd u Sub.Y_GAIN == 4096 && s.rd u Sub.BLACK == 0 && s.rd u Sub.CHROMA_GAIN == 4096 && s.rd u Sub.HUE == 0 &&
    s.rd u Sub.COLOUR_IN == s.rd u Sub.COLOUR_OUT && s.rd u Sub.RANGE_IN == s.rd u Sub.RANGE_OUT &&
    (s.subMatrix u == none || s.subMatrix u == some [16384, 0, 0, 0, 16384, 0, 0, 0, 16384]) &&
    !s.rb u Sub.LUT_ENABLE && s.rd u Sub.OUT_DEPTH == s.rd u Sub.IN_DEPTH && !s.rb u Sub.LEGALISE
/-- Stages 2 to 7 on one sample, before the chroma of a line is decimated. -/
def State.subPx (s : State) (sl u : Nat) (sampling : Nat) (p : Px) : Px :=
  let rgb := sampling == 2
  let lut := fun (post : Bool) (q : Px) =>
    if s.rb u Sub.LUT_ENABLE && s.rb u Sub.LUT_POS == post then lutPx (s.buf (U.gran sl) (10 + s.rn (U.gran sl) Gran.LUT_BANK)) q else q
  let p2 := procAmp rgb (s.rb u Sub.RANGE_IN) (s.rd u Sub.Y_GAIN) (s.rd u Sub.BLACK) (s.rd u Sub.CHROMA_GAIN) (s.rd u Sub.HUE) p
  let p3 := decodePx rgb (s.rn u Sub.COLOUR_IN) (s.rb u Sub.RANGE_IN) p2
  let p5 := convert (s.rn u Sub.COLOUR_IN) (s.rn u Sub.COLOUR_OUT) (s.subMatrix u) (lut false p3)
  encodePx rgb (s.rn u Sub.COLOUR_OUT) (s.rb u Sub.RANGE_OUT) (lut true p5)
/-- Stage 8. -/
def legalise (sampling : Nat) (l : List Int × List Int × List Int) : List Int × List Int × List Int :=
  let k := fun (hi : Int) (v : Int) => max 1024 (min hi v)
  let ch : Int := if sampling = 2 then 15040 else 15360
  (l.1.map (k 15040), l.2.1.map (k ch), l.2.2.map (k ch))
/-- The picture that leaves for a stored frame, at the output frame of tick count `n` (R269 to R273). -/
def State.processed (s : State) (sl u : Nat) (n : Int) (p : Pict) : List PicLine :=
  if s.subNeutral u then p.rows
  else
    let sm := p.pay.sampling
    let ls := p.rows.map fun l => splitLine sm ((unpackLine sm p.pay.depth12 l).map (s.subPx sl u sm))
    quantiseFrame (if s.rb u Sub.OUT_DEPTH then 12 else 10) (s.rb (U.gran sl) Gran.DITHER) n
      (if s.rb u Sub.LEGALISE then ls.map (legalise sm) else ls)

/-- Frame number whose origin lies two lines after now, and that origin, on plan `p` (R260, R295). -/
def State.headFrame (s : State) (p : Nat) : Int × Int :=
  let r := s.planRas p
  let o : Int := (s.now : Int) + 2 * r.line
  ((o - s.phaseAt p o + r.frame / 2) / (r.frame : Int), o)
/-- Tick count of that frame: of its field 1 on a FIELD plan. -/
def State.frameTick (s : State) (p : Nat) : Int := if s.planField p then 2 * (s.headFrame p).1 else (s.headFrame p).1

/-- Field 1, the odd frame lines, in both field positions (R265). -/
def fieldOne : List PicLine → List PicLine
  | a :: _ :: t => a :: a :: fieldOne t
  | l => l
/-- Odd frame lines of one picture with the even ones of another. -/
def mergeFields : List PicLine → List PicLine → List PicLine
  | a :: _ :: t, _ :: b :: t' => a :: b :: mergeFields t t'
  | a :: _, _ => [a]
  | [], _ => []
/-- A two-field raster under DOMINANCE = F2 (R261). -/
def State.f2Dominant (s : State) (sl : Nat) : Bool := s.rb (U.gran sl) Gran.DOMINANCE && twoFields (s.planRaster (s.rn (U.gran sl) Gran.PLAN))
/-- A sub-slot sends the frame it reads, or its lines of one field, with its packets. The settings are those in force
now (R257). Under DOMINANCE = F2 field 1 comes from the unit read for the frame before (R261); a held frame may repeat field 1; output
lines that met an uncorrectable Barn error are black and marked CONC (R265, R274, R275). -/
def State.sendPict (s : State) (sl j part : Nat) (n : Int) : State :=
  let u := U.sub sl j
  let g := U.gran sl
  let id := s.planRaster (s.rn g Gran.PLAN)
  match s.pict u (s.rn u Sub.readNo) with
  | none => s
  | some p =>
    let q := if s.f2Dominant sl then (s.pict u (s.rn u Sub.prevNo)).getD p else p
    let rows0 := if s.f2Dominant sl then mergeFields (s.processed sl u n q) (s.processed sl u n p) else s.processed sl u n p
    let rows1 := if s.rn u Sub.sending = 2 && s.rb g Gran.HOLD_FIELD && twoFields id then fieldOne rows0 else rows0
    let ue := (s.buf u 5).map (·.toNat)
    let rows := rows1.zipIdx.map fun e => if ue.contains e.2 then blackLine p.pay.sampling (s.rb u Sub.OUT_DEPTH) e.1.a.length else e.1
    let pick := fun (line : Nat) (f : Nat) => if s.f2Dominant sl then lineField id line == f else f == 1
    let anc := (q.anc.filter fun a => pick (a.headD 0) 0) ++ (p.anc.filter fun a => pick (a.headD 0) 1)
    let marks := ((q.marks.filter fun m => pick (m / 4) 0) ++ (p.marks.filter fun m => pick (m / 4) 1)) ++
      (ue.map (lineOfRow id)).flatMap fun x => lineMark x false true
    s.sendAir u part ⟨p.pay.sampling, s.rb u Sub.OUT_DEPTH, s.rn u Sub.COLOUR_OUT, s.rb u Sub.RANGE_OUT⟩ (partRows part rows) anc marks

/-- At tick `n` of plan `p`, in the vertical blanking of an output frame or field, every sub-slot on the plan sends what its last
decision chose. -/
def State.sendPicts (s : State) (p : Nat) (n : Int) : State :=
  let part : Nat := if s.planField p then (if n % 2 = 0 then 1 else 2) else 0
  (List.range 1024).foldl (fun (a : State) x =>
    let u := U.sub (x / 8) (x % 8)
    if a.rn u Sub.sending = 0 ∨ a.rn (U.gran (x / 8)) Gran.PLAN ≠ p then a
    else
      let b := a.sendPict (x / 8) (x % 8) part (if part = 2 then n - 1 else n)
      if part = 1 then b else b.wr u Sub.sending 0) s

/-! ### Frames -/

/-- Stored frames of a sub-slot: number, stamp (grains of system time), completion. -/
def triples : List Int → List (Int × Int × Int)
  | a :: b :: c :: t => (a, b, c) :: triples t
  | _ => []
def untriples : List (Int × Int × Int) → List Int
  | [] => []
  | (a, b, c) :: t => a :: b :: c :: untriples t
def State.stored (s : State) (sl j : Nat) : List (Int × Int × Int) := triples (s.buf (U.sub sl j) 0)

/-- The slots that slip together with slot `sl`, itself first: its slot bundle, or itself alone. -/
def State.slipSlots (s : State) (sl : Nat) : List Nat := sl :: s.slotMates sl

/-- Frame period of a slot's plan. -/
def State.slotFrame (s : State) (sl : Nat) : Nat := (s.planRas (s.rn (U.gran sl) Gran.PLAN)).frame

/-- A bundle frame absent in one member counts once (R266). -/
def State.slipFrame (s : State) (sl : Nat) (stamp : Int) : State :=
  let b := s.cellN (2304 + sl) Cell.DBUNDLE
  if b = 0x3FF ∨ (s.slotMates sl).isEmpty then s
  else
    let u := U.dbundle b
    let T : Int := s.slotFrame sl
    let last := s.rd u Bundle.slipStamp - 1
    if 0 ≤ last ∧ (stamp - last).natAbs * 4 ≤ T.natAbs then s
    else (s.wr u Bundle.slipStamp (stamp + 1)).count u Ctr.DBundle.SLIP_FRAMES
/-- The frame under way, if any, is discarded: a FOLLOW take or a loss has cut it short (R258). -/
def State.cutFrame (s : State) (sl j : Nat) : State :=
  let u := U.sub sl j
  match (s.caught u).getLast? with
  | none => s
  | some f => (((s.setCaught u []).count u Ctr.Sub.INCOMPLETE_FRAMES).wr u Sub.okRun 0).slipFrame sl (s.lineStamp f)

/-- A sub-slot's input is declared lost, and with it that of every member of its bundle; a declaration by structure, period or payload
ID counts once (R264, R266). -/
def State.declareLost (s : State) (sl j : Nat) (rate : Bool) : State :=
  let s0 := s.cutFrame sl j
  let s1 := if rate && !s0.rb (U.sub sl j) Sub.inLost then s0.count (U.sub sl j) Ctr.Sub.RATE_ERRORS else s0
  let code := if rate then Code.rate.num else 0
  (if j = 0 then s1.slipSlots sl else [sl]).foldl (fun a m =>
    let u := U.sub m j
    let a1 := a.wrs u [(Sub.okRun, 0), (Sub.badRate, 0), (Sub.badPid, 0), (Sub.winCount, 0), (Sub.inLost, 1)]
    if a1.rd u Sub.STATE = subRunning then a1.subEnter m j (if a1.rn u Sub.readNo = 0 then subEmpty else subHold) code else a1) s1

/-- Once every member of the bundle has two consecutive complete frames, every member runs (Table 9.5, R266). -/
def State.tryRun (s : State) (sl j : Nat) : State :=
  let ms := if j = 0 then s.slipSlots sl else [sl]
  if ms.all fun m => decide (2 ≤ s.rn (U.sub m j) Sub.okRun) then
    ms.foldl (fun a m =>
      let st := a.rd (U.sub m j) Sub.STATE
      if st = subEmpty ∨ st = subHold ∨ st = subLost then a.subEnter m j subRunning 0 else a) s
  else s

/-- A member's frame that no other member can match any more makes the bundle lost (R266). -/
def State.skewCheck (s : State) (sl : Nat) (stamp : Int) : State :=
  let mates := s.slotMates sl
  let T : Int := s.slotFrame sl
  let bad := mates.any fun m =>
    let fs := s.stored m 0
    !fs.isEmpty && fs.all (fun f => decide (T.natAbs < 4 * (f.2.1 - stamp).natAbs)) && fs.any fun f => decide (stamp < f.2.1)
  if bad then
    let u := U.dbundle (s.cellN (2304 + sl) Cell.DBUNDLE)
    (s.count u Ctr.DBundle.SKEW_ERRORS).declareLost sl 0 false
  else s

/-! ### Input frames (R258, R259, R261, R264) -/

/-- First and last line of the unit that is written whole: a frame, or under DOMINANCE = F2 field 2 with the field 1 that follows. -/
def State.unitFirst (s : State) (sl : Nat) : Nat := if s.f2Dominant sl then field2First (s.planRaster (s.rn (U.gran sl) Gran.PLAN)) else 1
def State.unitLast (s : State) (sl : Nat) : Nat :=
  let id := s.planRaster (s.rn (U.gran sl) Gran.PLAN)
  if s.f2Dominant sl then field2First id - 1 else (raster id).lines
/-- The unit under way has its last line. -/
def State.unitEnded (s : State) (sl j : Nat) : Bool := match (s.caught (U.sub sl j)).head? with
  | some l => l.line == s.unitLast sl
  | none => false

/-- A frame (or dominance unit) that has its last line: its stamp, its broken lines, its payload ID, its rows by place in the frame, its
ancillary packets and the marks of its lines. -/
structure FrameIn where
  stamp : Int
  broken : List Nat
  pid : Option Nat
  rows : List (Nat × PicLine)
  anc : List (List Nat)
  marks : List Nat
deriving DecidableEq, Repr
/-- The frame that the lines caught make. -/
def State.gathered (s : State) (sl j : Nat) : FrameIn × State :=
  let u := U.sub sl j
  let id := s.planRaster (s.rn (U.gran sl) Gran.PLAN)
  let pay : Payload := ⟨s.rn u Sub.IN_SAMPLING, s.rb u Sub.IN_DEPTH, s.rn u Sub.COLOUR_IN, s.rb u Sub.RANGE_IN⟩
  let ls := (s.caught u).reverse
  let bad := ls.filter fun l => lineBroken id (nativeFormat pay.sampling (s.rn u Sub.IN_DEPTH)) l.words
  let good := ls.filter fun l => !bad.any fun b => b.line == l.line
  let r := s.placedRows id pay good
  (⟨match ls.head? with | some l => s.lineStamp l | none => 0, bad.map (·.line), pidOf good, r.1, good.flatMap storedAnc,
    (good.flatMap fun l => lineMark l.line l.lerr l.conc) ++ bad.flatMap fun l => lineMark l.line l.lerr true⟩, r.2)

/-- The picture written for an input frame: broken lines replaced (R258), ancillary packets within the limit (R274). -/
def State.storePict (s : State) (sl j : Nat) (f : FrameIn) (n : Nat) : State :=
  let u := U.sub sl j
  let id := s.planRaster (s.rn (U.gran sl) Gran.PLAN)
  let before := (s.pict u (n - 1)).map (·.rows)
  let pay : Payload := ⟨s.rn u Sub.IN_SAMPLING, s.rb u Sub.IN_DEPTH, s.rn u Sub.COLOUR_IN, s.rb u Sub.RANGE_IN⟩
  let black := blackLine pay.sampling pay.depth12 (activeWidth id)
  let rows := (List.range (activeHeight id)).map fun k => match f.rows.find? fun e => e.1 == k with
    | some e => e.2
    | none => match before with
      | some old => if s.rn (U.gran sl) Gran.LINE_CONCEAL = 1 then black else old.getD k black
      | none => black
  { s with pics := s.pics ++ [⟨u, n, pay, 0, rows, (ancWithin f.anc).1, f.marks⟩] }

/-- The unit that has its last line is written, or discarded with more broken lines than the limit; its period and payload ID are
judged (R258, R259, R264). -/
def State.writeFrame (s : State) (sl j : Nat) (f : FrameIn) : State :=
  let u := U.sub sl j
  let s := s.wr u Sub.PAYLOAD_ID (f.pid.getD 0)
  if s.rn (U.gran sl) Gran.BAD_LINES_MAX < f.broken.length then ((s.count u Ctr.Sub.DISCARDED_FRAMES).wr u Sub.okRun 0).slipFrame sl f.stamp
  else
    let n := s.rn u Sub.lastNo + 1
    let keep := s.rn (U.gran sl) Gran.DEPTH_MAX + 3
    let read := s.rd u Sub.readNo
    -- the ring never overwrites the frame being read or anything newer (R259)
    let old := (s.stored sl j).filter fun x => decide ((n : Int) - keep < x.1) || decide (read ≤ x.1 ∧ read ≠ 0)
    let prev := s.rn u Sub.prevNo
    let s := (s.storePict sl j f n).dropPicts u fun k => k == n || k == prev || old.any fun x => x.1 == (k : Int)
    let s1 := ((((s.setBuf u 0 (untriples (old ++ [((n : Int), f.stamp, (s.now : Int))]))).count u Ctr.Sub.FRAMES_WRITTEN).countBy u
      Ctr.Sub.CONCEALED_LINES f.broken.length).countBy u Ctr.Sub.ANC_OVERFLOW (ancWithin f.anc).2)
    let T : Int := s.slotFrame sl
    let follows := s1.rb u Sub.okRun
    let period := f.stamp - s1.rd u Sub.lastStamp
    let badRate := if follows ∧ 500 * T < 1000000 * (period - T).natAbs then s1.rn u Sub.badRate + 1 else 0
    let pay := (f.pid.map pidPayload).getD plainPayload
    let agrees := pay.sampling == s1.rn u Sub.IN_SAMPLING && pay.depth12 == s1.rb u Sub.IN_DEPTH
    let badPid := if agrees then 0 else s1.rn u Sub.badPid + 1
    -- IN_RATE_OFFSET over 1,250 frames without a break
    let w := if follows then s1.rn u Sub.winCount + 1 else 0
    let span := f.stamp - s1.rd u Sub.winStart
    let s2 := s1.wrs u [(Sub.lastNo, n), (Sub.okRun, s1.rd u Sub.okRun + 1), (Sub.badRate, badRate), (Sub.badPid, badPid), (Sub.lastStamp, f.stamp),
      (Sub.winCount, if w = 1250 then 0 else w), (Sub.winStart, if w = 0 ∨ w = 1250 then f.stamp else s1.rd u Sub.winStart),
      (Sub.IN_RATE_OFFSET, if w = 1250 then (1250 * T - span) * 100000000 / span else s1.rd u Sub.IN_RATE_OFFSET)]
    if 4 ≤ badRate ∨ 2 ≤ badPid then s2.declareLost sl j true
    else
      let s3 := if j = 0 then s2.skewCheck sl f.stamp else s2
      (s3.wr u Sub.inLost 0).tryRun sl j
/-- The unit under way, where it has ended, is taken. -/
def State.takeUnit (s : State) (sl j : Nat) : State :=
  if s.unitEnded sl j then
    let r := s.gathered sl j
    (r.2.setCaught (U.sub sl j) []).writeFrame sl j r.1
  else s

/-- The input Cell of a slot emits a line of stream `j`, from source `src`; `cut` marks the line that a FOLLOW take has truncated (R258,
R261, R264). -/
def State.granLine (s0 : State) (sl j src : Nat) (l : SeatLine) (cut : Bool) : State :=
  let u := U.sub sl j
  if 128 ≤ sl ∨ s0.rd u Sub.STATE = subOff ∨ s0.unitBad (U.gran sl) = true then s0
  else
    let s := s0.takeUnit sl j
    let id := s.planRaster (s.rn (U.gran sl) Gran.PLAN)
    let words := (seatRas id (nativeFormat (s.rn u Sub.IN_SAMPLING) (s.rn u Sub.IN_DEPTH))).words
    let s1 := if s.rn u Sub.inFrom = src + 1 then s else s.cutFrame sl j
    let bad := if cut || l.words.length == words then 0 else s1.rn u Sub.inBad + 1
    let s2 := s1.wrs u [(Sub.inFrom, src + 1), (Sub.inAt, s.clk + 1), (Sub.inBad, bad)]
    let begin_ := fun (a : State) => if l.line = s.unitFirst sl then a.setCaught u [l] else a
    if cut then s2.cutFrame sl j
    else if 2 ≤ bad then s2.declareLost sl j true
    else match s2.caught u with
      | p :: t => if l.line = lineAfter id p.line then s2.setCaught u (l :: p :: t) else begin_ (s2.declareLost sl j true)
      | [] => begin_ s2

/-- An input frame of a sub-slot completes, one line period after the EAV that begins its last line (R258). -/
def execGranaryFrameComplete (dt sl j : Nat) (s0 : State) : Res :=
  let s := s0.after dt
  .next (s.ifUp [U.gran sl] (if 128 ≤ sl || 8 ≤ j || s.rd (U.sub sl j) Sub.STATE == subOff then s else s.takeUnit sl j))

/-- The sub-slot declares its input lost: no VALID beats for two line periods (R264). The other conditions are judged as lines come. -/
def execGranaryInputLoss (dt sl j : Nat) (s0 : State) : Res :=
  let s := s0.after dt
  let u := U.sub sl j
  .next (s.ifUp [U.gran sl] (if 128 ≤ sl || 8 ≤ j || s.rd u Sub.STATE == subOff || s.rb u Sub.inAt == false ||
      decide (s.clk < s.rn u Sub.inAt - 1 + 2 * (s.planRas (s.rn (U.gran sl) Gran.PLAN)).line) then s
    else ((s.takeUnit sl j).wr u Sub.inAt 0).declareLost sl j false))

/-- The newest frame complete in every member of the bundle, by its number in slot `sl` (R260, R266). -/
def State.newest (s : State) (sl j : Nat) : Int :=
  let mates := if j = 0 then s.slotMates sl else []
  let T := s.slotFrame sl
  let ok : List (Int × Int × Int) := (s.stored sl j).filter fun f => mates.all fun m => (s.stored m 0).any fun (g : Int × Int × Int) => decide (4 * (g.2.1 - f.2.1).natAbs ≤ T)
  (ok.map (·.1)).getLast?.getD 0

/-- Result of R260: the frame read, and how many repeats and drops it makes. -/
def chooseFrame (c i d : Int) : Int × Nat × Nat :=
  let next := i + 1
  if c - next < d then (i, 1, 0)
  else if c - next > d + 1 then (c - d - 1, 0, (c - d - 1 - next).toNat)
  else (next, 0, 0)

/-- One decision of a sub-slot for the frame whose origin is two lines ahead (R260, R262, R264): its own choice, or the
frame nearest a stamp that the partner chose (R263). -/
def State.subDecide (s : State) (sl j : Nat) (choice : Option Int) : State :=
  let u := U.sub sl j
  let g := U.gran sl
  let st := s.rd u Sub.STATE
  let r := s.planRas (s.rn g Gran.PLAN)
  let s := s.wr u Sub.DELAY (s.rd u Sub.DELAY_CFG)
  let d := s.rd u Sub.DELAY
  if st = subRunning then
    let c := s.newest sl j
    let i := s.rd u Sub.readNo
    let matched : Option (Int × Int × Int) := match choice with
      | some x => (s.stored sl j).find? fun (f : Int × Int × Int) => decide (4 * (f.2.1 - x).natAbs ≤ r.frame)
      | none => none
    let own : Int × Nat × Nat := if i = 0 ∨ s.rb u Sub.resume then (max (c - d - 1) (((s.stored sl j).head?.map (·.1)).getD 1), 0, 0) else chooseFrame c i d
    let s := if choice.isSome && matched.isNone then s.countEvent u Ctr.Sub.TWIN_CHOICES_OWN else s
    let (read, reps, drops) := match matched with
      | some f => (f.1, if f.1 = i then 1 else 0, if i + 1 < f.1 ∧ i ≠ 0 then (f.1 - i - 1).toNat else 0)
      | none => own
    match (s.stored sl j).find? (fun (f : Int × Int × Int) => f.1 == read) with
    | none => s
    | some f =>
      let origin : Int := (s.now : Int) + 2 * r.line
      let s1 := (((s.wrs u [(Sub.prevNo, if i = 0 then read else i), (Sub.readNo, read), (Sub.resume, 0), (Sub.LAG, c - read), (Sub.LATENCY, (origin - f.2.1) / Config.ns)]).countBy u
        Ctr.Sub.REPEATS reps).countBy u Ctr.Sub.DROPS drops).count u Ctr.Sub.FRAMES_READ
      (s1.decide_ 0 u f.2.1.toNat).wr u Sub.sending 1
  else if st = subHold then
    let held := min 65535 (s.rn u Sub.HELD + 1)
    let s1 := ((s.wr u Sub.HELD held).count u Ctr.Sub.HOLD_FRAMES_OUT).wrs u [(Sub.sending, 2), (Sub.prevNo, s.rd u Sub.readNo)]
    if s.rn g Gran.HOLD_LIMIT ≠ 0 ∧ s.rn g Gran.HOLD_LIMIT ≤ held then s1.subEnter sl j subLost 0 else s1
  else s

/-- The decision instant of a sub-slot, two lines before the frame origin; `ue` holds the output lines (from 0 at the
top) of the frame chosen that meet an uncorrectable Barn error. A STANDBY device waits for its partner's choice (R260, R263, R275). -/
def execGranaryDecision (dt sl j : Nat) (ue : List Nat) (s0 : State) : Res :=
  let s := s0.after dt
  let u := U.sub sl j
  .next (if 128 ≤ sl || 8 ≤ j || s.rd u Sub.STATE == subOff || s.unitBad (U.gran sl) || !s.decisionNow (s.rn (U.gran sl) Gran.PLAN) ||
      s.rn u Sub.decidedAt == s.clk + 1 then s
    else
      let s := (s.wr u Sub.decidedAt (s.clk + 1)).setBuf u 5 (ue.map fun (x : Nat) => (x : Int))
      let s1 := if ue.isEmpty then s else
        let c := (s.claimChan (U.gran sl)).getD 0
        ((s.countBy u Ctr.Sub.ECC_LINES (ue.length - 1)).countEvent u Ctr.Sub.ECC_LINES).barnError u 1 c
      if s1.followsDecisions && s1.rd u Sub.STATE == subRunning then
        s1.wrs u [(Sub.choiceDue, s1.clk + 4 * Config.us + 1)]
      else s1.subDecide sl j none)

/-! ### LUT loads (R271) -/

def judgeLutload (i : Issue) (s : State) : Judged :=
  let off := (i.params.headD 0).toNat
  let bank := i.sub % 2
  let sls := targets i 0x11 (U.gran 0) 128
  let sl := (sls.getD []).headD 0
  let u := U.gran sl
  { checks := (.format, i.badFlags true false true false || decide (2 ≤ i.sub) || i.npw != 1 || i.params.length != 1 || decide (2 ^ 40 ≤ off)) ::
      (.range, off % 64 != 0 || decide (barnBytes < off + 287504)) ::
      eachTarget sls fun sl => [(.nounit, s.unitBad (U.gran sl)), (.locked, s.bankInUse sl bank)]
    members := memberChecks (U.gran 0) sls fun sl => [(.nounit, s.unitBad (U.gran sl)), (.locked, s.bankInUse sl bank)]
    verdict := .start ((sls.getD []).foldl (fun a x => a.wr (U.gran x) (lutStateF bank) 1) (s.wake u)) 0xC2 sl bank [(off : Int)] 0 }
def execLutload (i : Issue) (s : State) : Res := .next (s.issue i .other (judgeLutload i))

/-- The table at a Barn offset: its words, or none where the header, the CRC or a reserved bit is wrong (Table 9.9). -/
def State.lutTable (s : State) (off : Nat) : Option (List Nat) :=
  let h := (barnWord s.barn off).toNat
  if h % 2 ^ 16 ≠ 0x4C33 ∨ bitsAt h 23 16 ≠ 0x21 ∨ bitsAt h 31 24 ≠ 1 then none
  else
    let ws := (List.range 35937).map fun k => (barnWord s.barn (off + 8 + 8 * k)).toNat
    if crc32 ws = h / 2 ^ 32 ∧ ws.all fun w => bitsAt w 15 14 == 0 && bitsAt w 31 30 == 0 && bitsAt w 63 46 == 0 then some ws else none

/-- A table goes into a bank: VALID, or FAILED where there is none; the code (R271). -/
def State.takeLut (s : State) (u bank : Nat) (table : Option (List Nat)) : Nat × State :=
  match table with
  | some ws => (0, (s.wr u (lutStateF bank) 2).setBuf u (10 + bank) (ws.map fun (w : Nat) => (w : Int)))
  | none => (Code.format.num, s.wr u (lutStateF bank) 3)
/-- The first channel in FAULT that the table at a Barn offset touches. -/
def State.lutFault (s : State) (off : Nat) : Option Nat := (chansOf off 287504).find? s.chanFault

/-- Background operation `pid` is over. -/
def State.endBg (s : State) (pid : Nat) : State := { s with bg := s.bg.filter (·.pid != pid) }
/-- What the end of a table's load at Barn offset `off` does (R268, R20). -/
def State.lutEnd (s : State) (u bank pid off : Nat) : State :=
  match s.lutFault off with
  | some c => ((s.wr u (lutStateF bank) 3).barnError u 8 c).closePart pid Code.fault.num
  | none =>
    let r := s.takeLut u bank (s.lutTable off)
    r.2.closePart pid r.1
/-- A LUT load ends: VALID, or FAILED with FORMAT; an unreadable channel gives FAULT (R271, Table 20.4). -/
def execLutloadDone (dt sl bank : Nat) (s0 : State) : Res :=
  let s := s0.after dt
  .next (match s.bg.find? (fun b => b.op == 0xC2 && b.index == sl && b.sub == bank) with
    | none => s
    | some b => (s.endBg b.pid).lutEnd (U.gran sl) bank b.pid (b.vals.headD 0).toNat)

end Sys2Proof.Machine
end

