-- ==== Sys2Proof/Machine/Plaza.lean ====
section
/-!
DEFINITION. Winnow scalers and Plaza heads: layer descriptors, shadow and commit, claims (R277, R278, R280, R282 to R285,
R290 to R294, R298).
-/
namespace Sys2Proof.Machine

/-! ### Layer descriptors (Table 10.5) -/

/-- A layer descriptor's four words. -/
structure Desc where
  w0 : Nat
  w1 : Nat
  w2 : Nat
  w3 : Nat
deriving DecidableEq, Repr

def Desc.ty (d : Desc) : Nat := bitsAt d.w0 2 0
def Desc.x (d : Desc) : Int := signedAt 14 (bitsAt d.w0 21 8)
def Desc.y (d : Desc) : Int := signedAt 14 (bitsAt d.w0 35 22)
def Desc.w (d : Desc) : Nat := bitsAt d.w0 48 36
def Desc.h (d : Desc) : Nat := bitsAt d.w0 61 49
def Desc.alpha (d : Desc) : Nat := bitsAt d.w1 7 0
def Desc.fallback (d : Desc) : Nat := bitsAt d.w1 15 8
def Desc.scaler (d : Desc) : Nat := bitsAt d.w1 23 16
def Desc.kernel (d : Desc) : Nat := bitsAt d.w1 24 24
def Desc.depth12 (d : Desc) : Bool := bitAt d.w1 25
def Desc.tapdrop (d : Desc) : Bool := bitAt d.w1 26
def Desc.thick (d : Desc) : Nat := bitsAt d.w1 37 30
def Desc.bars (d : Desc) : Nat := bitsAt d.w1 42 38 + 1
def Desc.horizontal (d : Desc) : Bool := bitAt d.w1 43
def Desc.space (d : Desc) : Nat := bitsAt d.w1 44 44
def Desc.tmode (d : Desc) : Nat := bitsAt d.w1 46 45
def Desc.size (d : Desc) : Nat := bitsAt d.w1 49 47
def Desc.cx (d : Desc) : Nat := bitsAt d.w2 12 0
def Desc.cy (d : Desc) : Nat := bitsAt d.w2 25 13
def Desc.cw (d : Desc) : Nat := bitsAt d.w2 38 26
def Desc.ch (d : Desc) : Nat := bitsAt d.w2 51 39
/-- BASE in bytes of the Barn window (notes/assumptions/14.md). -/
def Desc.base (d : Desc) : Nat := bitsAt d.w2 27 0 * 4096
def Desc.colourA (d : Desc) : Nat := bitsAt d.w2 29 0
def Desc.first (d : Desc) : Nat := bitsAt d.w2 46 30
def Desc.offset (d : Desc) : Int := signedAt 32 (bitsAt d.w2 63 32)
def Desc.colourB (d : Desc) : Nat := bitsAt d.w3 29 0
def Desc.colourC (d : Desc) : Nat := bitsAt d.w3 59 30
def Desc.ref (d : Desc) : Nat := bitsAt d.w3 47 0

abbrev tyTile : Nat := 1
abbrev tyGraphics : Nat := 2
abbrev tySolid : Nat := 3
abbrev tyBorder : Nat := 4
abbrev tyMeter : Nat := 5
abbrev tyTime : Nat := 6

/-- Bits [hi:lo] of a word as a mask. -/
def maskOf (hi lo : Nat) : Nat := 2 ^ (hi + 1) - 2 ^ lo
/-- Bits that Table 10.5 assigns to a TYPE, by word. -/
def assigned (ty : Nat) : Nat × Nat × Nat × Nat :=
  let m0 := 7 + maskOf 61 8
  match ty with
  | 1 => (m0, maskOf 26 0, maskOf 51 0, 0)
  | 2 => (m0, maskOf 7 0 + maskOf 29 27, maskOf 27 0, 0)
  | 3 => (m0, maskOf 7 0, maskOf 29 0, 0)
  | 4 => (m0, maskOf 7 0 + maskOf 37 30, maskOf 29 0, 0)
  | 5 => (m0, maskOf 7 0 + maskOf 44 38, maskOf 46 0, maskOf 59 0)
  | 6 => (m0, maskOf 7 0 + maskOf 49 45, maskOf 29 0 + maskOf 63 32, maskOf 47 0)
  | _ => (m0, maskOf 7 0, 0, 0)
/-- A bit not assigned to the TYPE is set (R17, R285). -/
def Desc.reserved (d : Desc) : Bool :=
  let m := assigned d.ty
  (d.w0 &&& m.1) != d.w0 || (d.w1 &&& m.2.1) != d.w1 || (d.w2 &&& m.2.2.1) != d.w2 || (d.w3 &&& m.2.2.2) != d.w3

/-- Values outside the ranges of Table 10.5, R278, R286 and R288. -/
def Desc.badRange (d : Desc) : Bool :=
  let size := d.w == 0 || decide (4096 < d.w) || d.h == 0 || decide (2160 < d.h)
  match d.ty with
  | 0 => false
  | 1 => size || d.w % 2 == 1 || d.fallback == 0 || decide (192 ≤ d.scaler) || decide (d.cw < d.w) || decide (d.ch < d.h) ||
      decide (16 * d.w < d.cw) || decide (16 * d.h < d.ch) || decide (4096 < d.cx + d.cw) || decide (2160 < d.cy + d.ch)
  | 2 => size || decide (barnBytes < d.base + d.w * d.h * 4)
  | 3 => size
  | 4 => size || d.thick == 0 || decide (64 < d.thick)
  | 5 => size || decide ((if d.space = 0 then 131072 else 65536) < d.first + d.bars)
  | 6 => size || d.tmode == 3
  | _ => true

/-- The parameters that layers sharing a scaler must agree on (R282), as one number; never 0 for a tile. -/
def Desc.key (d : Desc) : Nat := bitsAt d.w2 51 0 + 2 ^ 52 * bitsAt d.w1 26 24 + 2 ^ 55 * bitsAt d.w0 61 36
/-- Lines of W samples that VT vertical taps need (R280). -/
def Desc.lines (d : Desc) (vt : Nat) : Nat := if d.ch ≤ d.h then vt else ceilDiv (vt * d.ch) d.h
/-- Vertical taps in force, or none where the line buffer does not fit (R280). -/
def Desc.vtaps (d : Desc) : Option Nat :=
  let fits := fun vt => decide (d.lines vt * d.w ≤ 24576)
  if fits 6 then some 6 else if !d.tapdrop then none else if fits 4 then some 4 else if fits 2 then some 2 else none
/-- Bytes of one tile buffer before rounding to 4 KB (R281). -/
def Desc.tileBytes (d : Desc) : Nat := 64 + d.w * d.h * (if d.depth12 then 6 else 5) / 2
def ceil4K (n : Nat) : Nat := ceilDiv n 4096 * 4096

/-! ### Stored configurations -/

def State.descAt (s : State) (h k : Nat) : Desc :=
  let g := fun w => (Tbl.get ⟨h, k + w⟩ 0 s.layers).toNat
  ⟨g 0, g 1, g 2, g 3⟩
def State.putDesc (s : State) (h k : Nat) (d : Desc) : State :=
  let p := fun (t : Tbl Word) (w v : Nat) => Tbl.set ⟨h, k + w⟩ 0 (BitVec.ofNat 64 v) t
  { s with layers := p (p (p (p s.layers 0 d.w0) 1 d.w1) 2 d.w2) 3 d.w3 }
/-- Active, shadow and previous (while PENDING) descriptor of a layer (R290, R293). -/
def State.activeDesc (s : State) (h l : Nat) : Desc := s.descAt h (4 * l)
def State.shadowDesc (s : State) (h l : Nat) : Desc := s.descAt h (256 + 4 * l)

/-- A head configuration: the parameters of Table 10.4 and 64 descriptors. -/
structure HeadCfg where
  params : List Int
  descs : List Desc
deriving DecidableEq, Repr

def State.headActive (s : State) (h : Nat) : HeadCfg :=
  ⟨Head.headactParams.map fun p => s.rd (U.head h) p.fld, (List.range 64).map (s.activeDesc h)⟩
def State.headShadow (s : State) (h : Nat) : HeadCfg :=
  ⟨Head.headsetParams.map fun p => s.rd (U.head h) p.fld, (List.range 64).map (s.shadowDesc h)⟩
/-- A configuration as plain numbers, and back. -/
def HeadCfg.vals (c : HeadCfg) : List Int :=
  c.params ++ c.descs.flatMap fun d => [(d.w0 : Int), (d.w1 : Int), (d.w2 : Int), (d.w3 : Int)]
def descsOf : List Int → List Desc
  | a :: b :: c :: d :: t => ⟨a.toNat, b.toNat, c.toNat, d.toNat⟩ :: descsOf t
  | _ => []
def HeadCfg.ofVals (l : List Int) : HeadCfg := ⟨l.take 9, descsOf (l.drop 9)⟩
def HeadCfg.n (c : HeadCfg) (f : Field) : Nat := pn Head.headactParams c.params f
/-- Configurations of the heads of one `headcommit`. -/
def headCfgs : List Nat → List Int → List (Nat × HeadCfg)
  | [], _ => []
  | h :: t, l => (h, HeadCfg.ofVals (l.take 265)) :: headCfgs t (l.drop 265)
def maskHeads (m : Nat) : List Nat := (List.range 16).filter (bitAt m ·)
def HeadCfg.tiles (c : HeadCfg) : List Desc := c.descs.filter fun d => d.ty == tyTile

/-! ### Claims (R298) -/

/-- Picture bytes of a head's Barn buffer, header included (R284). -/
def headBytes (id depth : Nat) : Nat :=
  64 + activeWidth id * activeHeight id * (if depth = 0 then 4 else if depth = 1 then 5 else 6) / 2
/-- Write claim of a scaler: 60 per second whatever its input. -/
def Desc.writeCost (d : Desc) : Nat := ceilDiv (d.tileBytes * 60) 1000000
/-- Layer and output claims of a head on their channels, with the channel of each scaler's ring given. -/
def headClaims (h : Nat) (c : HeadCfg) (r : Raster) (id : Nat) (chanOf : Nat → Nat) : List Claim :=
  let u := U.head h
  let layers := c.descs.flatMap fun d =>
    if d.ty = tyTile then [⟨u, chanOf d.scaler, frameCost d.tileBytes r * 1000000, 0, 0⟩]
    else if d.ty = tyGraphics then hostClaims u (frameCost (d.w * d.h * 4) r * 1000000) 0 d.base (d.w * d.h * 4)
    else []
  let out := if 2 ≤ c.n Head.OUTPUT then
      let b := headBytes id (c.n Head.DEPTH)
      hostClaims u (frameCost b r * 1000000) 0 (c.n Head.OUT_BASE * 4096) (c.n Head.OUT_COUNT * ceil4K b)
    else []
  sumClaims (layers ++ out)
/-- COST_MBS of a head: its scalers once each, its layers and its output. -/
def headCost (c : HeadCfg) (r : Raster) (id : Nat) : Nat :=
  let ws := ((c.tiles.map fun d => (d.scaler, d.writeCost)).eraseDups).foldl (fun a x => a + x.2) 0
  let ls := c.descs.foldl (fun a d => a + if d.ty = tyTile then frameCost d.tileBytes r else if d.ty = tyGraphics then frameCost (d.w * d.h * 4) r else 0) 0
  let out := if 2 ≤ c.n Head.OUTPUT then frameCost (headBytes id (c.n Head.DEPTH)) r else 0
  ws + ls + out

/-- The channel on which a scaler's ring lies, among given claims first. -/
def State.ringChan (s : State) (new : List Claim) (w : Nat) : Nat :=
  match new.find? (·.unit == U.scaler w) with
  | some x => x.chan
  | none => (s.claimChan (U.scaler w)).getD 0

/-! ### Shadow writes (R283, R285, R290) -/

def headsetChecks (s : State) (vs : List Int) (h : Nat) : Checks :=
  let ps := Head.headsetParams
  let out := pn ps vs Head.OUTPUT_SH
  let depth := pn ps vs Head.DEPTH_SH
  let len := pn ps vs Head.OUT_COUNT_SH * ceil4K (headBytes (s.planRaster (pn ps vs Head.PLAN_SH)) depth)
  [(.range, !paramsOk ps vs || (depth == 2 && (out == 1 || out == 3)) ||
      (decide (2 ≤ out) && decide (barnBytes < pn ps vs Head.OUT_BASE_SH * 4096 + len))),
   (.nounit, s.unitBad (U.head h))]

def judgeHeadset (i : Issue) (s : State) : Judged :=
  let ps := Head.headsetParams
  let pr := getParams ps false i
  let vs := pr.getD []
  let hs := targets i 0x16 (U.head 0) 16
  { checks := (.format, i.badFlags true false true false || pr.isNone) :: eachTarget hs (headsetChecks s vs)
    members := memberChecks (U.head 0) hs (headsetChecks s vs)
    verdict := .act ((hs.getD []).foldl (fun a h => a.wrParams (U.head h) ps vs) s) }
def execHeadset (i : Issue) (s : State) : Res := .next (s.issue i .other (judgeHeadset i))

def judgeLayerset (i : Issue) (s : State) : Judged :=
  let l := i.sub % 64
  let w := fun (k : Nat) => ((i.params.drop k).headD 0).toNat
  let d : Desc := ⟨w 0, w 1, w 2, w 3⟩
  let hs := targets i 0x16 (U.head 0) 16
  { checks := (.format, i.badFlags true false true false || decide (64 ≤ i.sub) || i.npw != 4 || i.params.length != 4 || d.reserved) ::
      (.range, d.badRange) :: eachTarget hs fun h => [(.nounit, s.unitBad (U.head h))]
    members := memberChecks (U.head 0) hs fun h => [(.nounit, s.unitBad (U.head h))]
    verdict := .act ((hs.getD []).foldl (fun a h => a.putDesc h (256 + 4 * l) d) s) }
def execLayerset (i : Issue) (s : State) : Res := .next (s.issue i .other (judgeLayerset i))

/-! ### Commit -/

/-- Scaler bookkeeping: the key of the tiles it now makes and of those before, and from when (clk plus one) the newer
one holds; buffers written; a staged configuration (key plus one) with its `headcommit`. -/
def Scaler.key : Field := ⟨300, 0, false, 0⟩
def Scaler.oldKey : Field := ⟨301, 0, false, 0⟩
def Scaler.since : Field := ⟨302, 0, false, 0⟩
def Scaler.written : Field := ⟨303, 0, false, 0⟩
/-- Layer bookkeeping: frames a PENDING layer may still draw its previous descriptor, when its fallback shows, the
stamp (plus one) of the tile drawn, a choice of the partner awaited (instant plus one). -/
def Layer.pendLeft : Field := ⟨300, 0, false, 0⟩
def Layer.inFallback : Field := ⟨301, 1, false, 0⟩
def Layer.drawn : Field := ⟨302, 0, false, 0⟩
def Layer.choiceDue : Field := ⟨303, 0, false, 0⟩
/-- Frames composed and Barn frames written by a head. -/
def Head.barnSeq : Field := ⟨300, 0, false, 0⟩

/-- Tile uses of a set of head configurations: scaler, key and plan. -/
def tileUses (cs : List (Nat × HeadCfg)) : List (Nat × Nat × Nat) :=
  cs.flatMap fun c => c.2.tiles.map fun d => (d.scaler, d.key, c.2.n Head.PLAN)

/-- Tile uses that stand beside a `headcommit` of thread `t` on heads `hs`: committed ones of other heads, and staged
ones that it does not supersede (R282; notes/assumptions/15.md). -/
def State.otherUses (s : State) (t : Nat) (hs : List Nat) : List (Nat × Nat × Nat) :=
  tileUses (((List.range 16).filter fun h => !hs.contains h).map fun h => (h, s.headActive h)) ++
  s.staged.flatMap fun e => match e.eff with
    | .cfg 0x42 m _ vs => if e.th = t && (maskHeads m).all hs.contains then [] else tileUses (headCfgs (maskHeads m) vs)
    | _ => []

/-- Two uses of one scaler disagree (R282). -/
def clashes (a b : List (Nat × Nat × Nat)) : Bool := a.any fun x => b.any fun y => x.1 == y.1 && (x.2.1 != y.2.1 || x.2.2 != y.2.2)

/-- The heads that a `headcommit` names: a mask, or under GROUP a head or the Plaza by unit ID. -/
def headMask (i : Issue) : Option (List Nat) :=
  if i.group then targets i 0x16 (U.head 0) 16 else if i.index = 0 then none else some (maskHeads i.index)

/-- Admission of a `headcommit`: the rings of its scalers, then the layer and output claims of its heads. -/
def State.headAdmit (s : State) (cs : List (Nat × HeadCfg)) : Option (List Claim) × Option Nat :=
  let rings := ((cs.flatMap fun c => c.2.tiles.map fun d => (d.scaler, d)).foldl
    (fun (a : List (Nat × Desc)) x => if a.any (·.1 == x.1) then a else a ++ [x]) []).map fun x =>
      (⟨U.scaler x.1, x.2.writeCost * 1000000, 0, 3 * ceil4K x.2.tileBytes, none⟩ : Request)
  match s.admitFrom [] rings with
  | (none, b) => (none, b)
  | (some cur, _) =>
    s.admitFrom cur (cs.map fun c =>
      let id := s.planRaster (c.2.n Head.PLAN)
      ⟨U.head c.1, 0, 0, 0, some (headClaims c.1 c.2 (raster id) id (s.ringChan cur))⟩)

/-- A scaler that no committed descriptor names takes the configuration of the `headcommit` at its staging (R294). -/
def State.presetScaler (s : State) (d : Desc) : State :=
  let u := U.scaler d.scaler
  if s.rn u Scaler.HEADS ≠ 0 ∨ s.rn u Scaler.key = d.key then s
  else s.wrs u [(Scaler.oldKey, 0), (Scaler.key, d.key), (Scaler.since, s.clk + 1)]

def judgeHeadcommit (i : Issue) (s : State) : Judged :=
  let hs := (headMask i).getD []
  let cs := hs.map fun h => (h, s.headShadow h)
  let plans := hs.map fun h => s.rn (U.head h) Head.PLAN
  let plan := plans.headD 0
  let tiles := cs.flatMap fun c => c.2.tiles
  let uses := tileUses cs
  let (adm, best) := s.headAdmit cs
  let scalers := (tiles.map (·.scaler)).eraseDups
  { checks := [(.format, i.badFlags true false true false || i.npw != 0 || i.params != [] || i.sub != 0),
      (.range, hs.isEmpty || plans.any (· != plan)),
      (.nounit, cs.any fun c => c.2.n Head.OUTPUT != 0 && !s.planOn (c.2.n Head.PLAN)),
      (.locked, (cs.any fun c => c.2.n Head.PLAN != s.rn (U.head c.1) Head.PLAN && s.anyCellNames (fun _ => true) (· == 2432 + c.1)) ||
        clashes uses (s.otherUses i.th hs ++ uses)),
      (.linebuf, tiles.any fun d => d.vtaps.isNone),
      (.bandwidth, adm.isNone)]
    verdict := .stage [⟨plan, 0, hs.map fun h => ⟨U.head h, 0⟩, hs.map U.head ++ scalers.map U.scaler,
      .cfg 0x42 (hs.foldl (fun a h => a + 2 ^ h) 0) 0 (cs.flatMap fun c => c.2.vals)⟩]
    claims := adm.getD []
    refuse := fun a => a.countRefusal best }
def execHeadcommit (i : Issue) (s : State) : Res := .next (s.issue i (.ticked 0x42) (judgeHeadcommit i))

/-- The scalers named by committed layers follow the committed descriptors: HEADS, size, taps, key (R277, R293). -/
def State.refreshScaler (s : State) (w : Nat) : State :=
  let u := U.scaler w
  let users := (List.range 16).filter fun h => (List.range 64).any fun l => let d := s.activeDesc h l; d.ty == tyTile && d.scaler == w
  let heads := users.foldl (fun a h => a + 2 ^ h) 0
  let d? : Option Desc := users.findSome? fun h => (List.range 64).findSome? fun l => let d := s.activeDesc h l; if d.ty = tyTile ∧ d.scaler = w then some d else none
  match d? with
  | none => (s.wrs u [(Scaler.HEADS, 0), (Scaler.W, 0), (Scaler.H, 0), (Scaler.VTAPS, 0), (Scaler.LINES_USED, 0),
      (unitWorkF, if s.rb u Scaler.HEADS then (s.clk : Int) else s.rd u unitWorkF)]).setClaims u []
  | some d =>
    let vt := d.vtaps.getD 0
    let s1 := s.wrs u [(Scaler.HEADS, heads), (Scaler.W, d.w), (Scaler.H, d.h), (Scaler.VTAPS, vt), (Scaler.LINES_USED, d.lines vt)]
    let s2 := if s1.rn u Scaler.key = d.key then s1
      else s1.wrs u [(Scaler.oldKey, s1.rd u Scaler.key), (Scaler.key, d.key), (Scaler.since, s1.clk + 1)]
    s2.setClaims u [⟨u, s2.ringChan [] w, d.writeCost * 1000000, 0, 3 * ceil4K d.tileBytes⟩]

/-- A layer takes its new descriptor (R293). -/
def State.commitLayer (s : State) (h l : Nat) (d : Desc) : State :=
  let u := U.layer h l
  let old := s.activeDesc h l
  let vt := if d.ty = tyTile then d.vtaps.getD 0 else 0
  let s1 := (s.putDesc h (4 * l) d).wrs u [(Layer.TYPE, d.ty), (Layer.VTAPS, vt)]
  let s2 := if vt = 2 ∨ vt = 4 then s1.countEvent (U.head h) Ctr.Head.TAPDROPS else s1
  if d.ty = tyTile ∧ old.ty = tyTile then
    if d.key = old.key ∧ d.scaler = old.scaler then s2
    else (s2.putDesc h (512 + 4 * l) old).wrs u [(Layer.STATE, 4), (Layer.pendLeft, d.fallback), (Layer.NOT_READY_RUN, 0), (Layer.inFallback, 0)]
  else s2.wrs u [(Layer.STATE, if d.ty = 0 ∨ d.ty = tyTile then 0 else 1), (Layer.pendLeft, 0), (Layer.NOT_READY_RUN, 0), (Layer.inFallback, 0), (Layer.TILE_SEQ, 0),
    (Layer.drawn, 0)]

/-- A `headcommit` commits at tick `n` (R291 to R293, R298). -/
def State.commitHeads (s : State) (m : Nat) (n : Int) (vals : List Int) : State :=
  let cs := headCfgs (maskHeads m) vals
  let s1 := cs.foldl (fun a c =>
    let u := U.head c.1
    let b := (c.2.descs.zipIdx).foldl (fun a x => a.commitLayer c.1 x.2 x.1) (a.wrParams u Head.headactParams c.2.params)
    let id := b.planRaster (c.2.n Head.PLAN)
    (b.wrs u [(unitWorkF, b.clk), (Head.COMMIT_TICK, n), (Head.COST_MBS, headCost c.2 (raster id) id)]).count u Ctr.Head.COMMITS) s
  let s2 := s1.each (List.range 192) State.refreshScaler
  let s3 := cs.foldl (fun a c =>
    let id := a.planRaster (c.2.n Head.PLAN)
    a.setClaims (U.head c.1) (headClaims c.1 c.2 (raster id) id (a.ringChan []))) s2
  -- a head whose seat output is OFF carries nothing (R137)
  cs.foldl (fun (a : State) c => if a.srcCarries (2432 + c.1) 0 then a else State.followStop 8 (2432 + c.1) none a) s3

end Sys2Proof.Machine
end

