-- ==== Sys2Proof/Machine/Detect.lean ====
section
/-!
DEFINITION. The detector unit: block peaks, silence, clip and DC flags, loudness and correlation meters; and the audio
taps to the Barn (R346 to R350, R362, R363, R591).
-/
namespace Sys2Proof.Machine

/-! ### Samples of the block just ended -/

/-- Unit number of a channel: space 0 a-channels, 1 slots. -/
def chanUnit (space ch : Nat) : Nat := if space = 0 then U.ach ch else U.slot ch
def spaceSize (space : Nat) : Nat := if space = 0 then 131072 else 65536
def State.spaceRate (s : State) (space ch : Nat) : Nat := if space = 0 then s.achRate ch else s.slotRate ch
/-- The odd half of a 96 kHz pair. -/
def State.spaceOdd (s : State) (space ch : Nat) : Bool := if space = 0 then s.achOdd ch else s.slotOdd ch
/-- Number, in milliseconds, of the 1 ms block that ended last. -/
def State.lastBlock (s : State) : Int := (s.now / Config.ms : Nat) - 1
/-- Samples of block `b` of a channel: pool instants of an a-channel, stage 7 of a slot (R346). -/
def State.blockSamples (s : State) (space ch : Nat) (b : Int) : List Int :=
  let n := if s.spaceRate space ch = 0 then 48 else 96
  (List.range n).map fun (i : Nat) =>
    let u := b * n + (i : Int)
    if space = 0 then s.poolAt ch u else s.slotOut ch u
/-- Pool instants of block `b` at which a fed a-channel has no sample of its own (R306). -/
def State.blockGaps (s : State) (a : Nat) (b : Int) : Nat :=
  match s.feeder a with
  | none => 0
  | some f =>
    if U.tone 0 ≤ f.unit ∧ f.unit < U.tone 48 then 0
    else
      let n : Nat := if f.rate = 0 then 48 else 96
      let have_ := (s.poolRaw a).filter fun e => decide (b * (n : Int) ≤ e.1) && decide (e.1 < (b + 1) * (n : Int))
      n - have_.length
/-- Gap samples of the block just ended, counted by their sources (R306). -/
def State.countGaps (s : State) : State :=
  s.feeds.foldl (fun a f =>
    let g := (List.range f.count).foldl (fun (t : Nat) q => t + s.blockGaps (f.first + q * (1 + f.rate)) s.lastBlock) 0
    if U.tone 0 ≤ f.unit ∧ f.unit < U.tone 48 then a else a.countBy (concealCtr f.unit).1 (concealCtr f.unit).2 g) s

/-! ### Detector unit and its profiles (R347, R591) -/

/-- The detector unit has reached READY. -/
def State.detectorOn (s : State) : Bool := s.unitState U.detector == stReady || s.unitState U.detector == stRunning

/-- Block peak, in 0.01 dB, and flags of a channel; blocks below the silence level; length of a run of full samples;
instant of the last clip; the sums of the running second; seconds in a row above the DC level. -/
def Det.PEAK : Field := ⟨320, 16, true, -14400⟩
def Det.SILENT : Field := ⟨321, 1, false, 0⟩
def Det.CLIPPED : Field := ⟨322, 1, false, 0⟩
def Det.DC : Field := ⟨323, 1, false, 0⟩
def Det.quiet : Field := ⟨324, 0, false, 0⟩
def Det.run : Field := ⟨325, 0, false, 0⟩
def Det.clipAt : Field := ⟨326, 0, true, 0⟩
def Det.sum : Field := ⟨327, 0, true, 0⟩
def Det.count : Field := ⟨328, 0, false, 0⟩
def Det.over : Field := ⟨329, 0, false, 0⟩
/-- Number of the block after the one measured last, and of the second evaluated last. -/
def Det.block : Field := ⟨330, 0, true, -1⟩
def Det.second : Field := ⟨331, 0, true, -1⟩

/-- Ranges that `detassign` has given a profile, in the order given: first, count, profile. -/
def rangesOf : List Int → List (Nat × Nat × Nat)
  | a :: b :: c :: t => (a.toNat, b.toNat, c.toNat) :: rangesOf t
  | _ => []
/-- Profile of a channel (R347). -/
def State.profileOf (s : State) (space ch : Nat) : Nat :=
  (rangesOf (s.buf U.detector space)).foldl (fun p r => if r.1 ≤ ch ∧ ch < r.1 + r.2.1 then r.2.2 else p) 0
def State.profN (s : State) (space ch : Nat) (f : Field) : Nat := s.rn (U.detProf (s.profileOf space ch)) f

def judgeDetcfg (i : Issue) (s : State) : Judged :=
  let pr := getParams DetProf.detcfgParams false i
  let vs := pr.getD []
  let ts := elements i 16
  { checks := (.format, i.badFlags true false true false || pr.isNone) :: eachTarget ts fun _ => [(.range, !paramsOk DetProf.detcfgParams vs)]
    verdict := .act ((ts.getD []).foldl (fun a p => a.wrParams (U.detProf p) DetProf.detcfgParams vs) s) }
def execDetcfg (i : Issue) (s : State) : Res := .next (s.issue i .other (judgeDetcfg i))

def Assign.SPACE : Field := ⟨0, 1, false, 0⟩
def Assign.FIRST : Field := ⟨1, 17, false, 0⟩
def Assign.COUNT : Field := ⟨2, 18, false, 0⟩
def Assign.PROFILE : Field := ⟨3, 4, false, 0⟩
def Assign.params : List Param :=
  [⟨Assign.SPACE, 0, 1, none⟩, ⟨Assign.FIRST, 0, 131071, none⟩, ⟨Assign.COUNT, 1, 131072, none⟩, ⟨Assign.PROFILE, 0, 15, none⟩]

def judgeDetassign (i : Issue) (s : State) : Judged :=
  let ps := Assign.params
  let pr := getParams ps false i
  let vs := pr.getD []
  let n := pn ps vs
  let sp := n Assign.SPACE
  let (first, count) := (n Assign.FIRST, n Assign.COUNT)
  let kept := (rangesOf (s.buf U.detector sp)).filter fun r => !(decide (first ≤ r.1) && decide (r.1 + r.2.1 ≤ first + count))
  let all := kept ++ [(first, count, n Assign.PROFILE)]
  { checks := [(.format, i.badFlags true false true false || pr.isNone),
      (.range, i.group || i.index != 0 || !paramsOk ps vs || decide (spaceSize sp < first + count))]
    verdict := .act (s.setBuf U.detector sp (all.flatMap fun r => [(r.1 : Int), (r.2.1 : Int), (r.2.2 : Int)])) }
def execDetassign (i : Issue) (s : State) : Res := .next (s.issue i .other (judgeDetassign i))

/-- The channel's flag entered or left, posted where the profile asks for events (R348): the element number in DETAIL
[23:8], bit 24 for an a-channel 65,536 or above, and CAUSE in [31:25] (R565). -/
def State.detEvent (s : State) (space ch kind : Nat) (on : Bool) : State :=
  if s.profN space ch DetProf.EVENTS = 0 then s
  else s.post (bankOf (chanUnit space ch)) evStateEntry
    (ch % 65536 * 2 ^ 8 + (if 65536 ≤ ch then 2 ^ 24 else 0) + (2 * kind - (if on then 1 else 0)) * 2 ^ 25)

/-- A peak in units of 0.01 dB (R346). -/
def peakCdB (x : Nat) : Int := if x = 0 then -14400 else max (-14400) (Fx.toInt (Fx.db x (2 ^ 27) * 100))
/-- Sample magnitude of a level of -`c` units of 0.01 dB. -/
def levelOf (c : Nat) : Int := Fx.toInt (Fx.ofDb (-((c : Int) * Fx.one / 100)) * 2 ^ 27)

/-- Samples at or above the clip level form runs; a run of CLIP_RUN or more that ends counts once (R348). -/
def clipRuns (level : Int) (least : Nat) : Nat → Nat → List Int → Nat × Nat
  | run, n, [] => (run, n)
  | run, n, x :: t => if level ≤ x.natAbs then clipRuns level least (run + 1) n t else clipRuns level least 0 (if least ≤ run then n + 1 else n) t

/-- Counter places of CLIPS and SILENT_ENTRIES. -/
def clipsCtr (space : Nat) : Nat := if space = 0 then Ctr.Ach.CLIPS else Ctr.Slot.CLIPS
def silentCtr (space : Nat) : Nat := if space = 0 then Ctr.Ach.SILENT_ENTRIES else Ctr.Slot.SILENT_ENTRIES

/-- METER layers that show a channel remember its largest peak until their head's next decision (R288). -/
def State.feedMeters (s : State) (space ch : Nat) (p : Int) : State :=
  (List.range 16).foldl (fun a h => (List.range 64).foldl (fun b l =>
    let d := b.activeDesc h l
    if d.ty = tyMeter ∧ d.space = space ∧ d.first ≤ ch ∧ ch < d.first + d.bars then
      let old := b.buf (U.layer h l) 1
      let row := (List.range d.bars).map fun (q : Nat) => (old.drop q).headD (-14400)
      b.setBuf (U.layer h l) 1 (row.set (ch - d.first) (max p ((row.drop (ch - d.first)).headD (-14400))))
    else b) a) s

/-- The block peak of a channel and the flags that follow from its samples, once for each 1 ms block (R346, R348). -/
def execBlockPeak (dt space ch : Nat) (s0 : State) : Res :=
  let s := s0.after dt
  .next (s.ifUp [U.detector] (if 1 < space ∨ spaceSize space ≤ ch ∨ s.detectorOn = false ∨ s.spaceOdd space ch = true ∨
      s.rd (chanUnit space ch) Det.block = s.lastBlock + 1 then s
    else
      let u := chanUnit space ch
      let xs := s.blockSamples space ch s.lastBlock
      let p := peakCdB (xs.foldl (fun m x => max m x.natAbs) 0)
      let prof := s.profN space ch
      let sil := -(100 * (prof DetProf.SIL_LEVEL : Int))
      let quiet := if p < sil then s.rn u Det.quiet + 1 else 0
      let (run, clips) := clipRuns (levelOf (prof DetProf.CLIP_LEVEL)) (prof DetProf.CLIP_RUN) (s.rn u Det.run) 0 xs
      let s1 := (s.wrs u [(Det.PEAK, p), (Det.quiet, quiet), (Det.run, run), (Det.sum, s.rd u Det.sum + xs.foldl (· + ·) 0),
        (Det.count, s.rd u Det.count + (xs.length : Int)), (Det.block, s.lastBlock + 1)]).feedMeters space ch p
      let s2 := if s.rb u Det.SILENT = false ∧ prof DetProf.SIL_TIME * 100 ≤ quiet then
          ((s1.wr u Det.SILENT 1).count u (silentCtr space)).detEvent space ch 1 true
        else if s.rb u Det.SILENT = true ∧ sil + 300 ≤ p then (s1.wr u Det.SILENT 0).detEvent space ch 1 false
        else s1
      if clips = 0 then s2
      else
        let s3 := (s2.countBy u (clipsCtr space) clips).wrs u [(Det.CLIPPED, 1), (Det.clipAt, s.clk)]
        if s.rb u Det.CLIPPED then s3 else s3.detEvent space ch 2 true))

/-- The DC detector evaluates the mean of the whole second of system time that has ended, at its end (R348). -/
def execDcSecond (dt space ch : Nat) (s0 : State) : Res :=
  let s := s0.after dt
  .next (s.ifUp [U.detector] (if 1 < space ∨ spaceSize space ≤ ch ∨ s.detectorOn = false ∨ s.rd (chanUnit space ch) Det.count = 0 ∨
      s.rd (chanUnit space ch) Det.second = (s.now / Config.second : Nat) ∨ Config.ms ≤ s.now % Config.second then s
    else
      let u := chanUnit space ch
      let n := s.rd u Det.count
      -- |mean| above the level: |sum| above level times the number of samples
      let above := decide (levelOf (100 * s.profN space ch DetProf.DC_LEVEL) * n < (s.rd u Det.sum).natAbs)
      let runs := if above then s.rn u Det.over + 1 else 0
      let s1 := s.wrs u [(Det.sum, 0), (Det.count, 0), (Det.over, runs), (Det.second, (s.now / Config.second : Nat))]
      if s.rb u Det.DC = false ∧ 2 ≤ runs then (s1.wr u Det.DC 1).detEvent space ch 3 true
      else if s.rb u Det.DC = true ∧ runs = 0 then (s1.wr u Det.DC 0).detEvent space ch 3 false
      else s1))

/-- CLIPPED clears 1 s after the last clip (R348). -/
def execClippedClear (dt space ch : Nat) (s0 : State) : Res :=
  let s := s0.after dt
  let u := chanUnit space ch
  .next (s.ifUp [U.detector] (if s.rb u Det.CLIPPED = true ∧ s.rd u Det.clipAt + Config.second ≤ s.clk then (s.wr u Det.CLIPPED 0).detEvent space ch 2 false else s))

/-! ### Loudness (R349) -/

def Loud.chF (q : Nat) : Field := ⟨Loud.CH0.pos + 2 * q, 17, false, 0⟩
def Loud.roleF (q : Nat) : Field := ⟨Loud.ROLE0.pos + 2 * q, 2, false, 0⟩
/-- Weighted square sum and samples of the running 100 ms; the true peaks of it and since the reset; the block (in ms,
plus one) at which a reset takes effect; whole 100 ms since the reset. -/
def Loud.acc : Field := ⟨300, 0, false, 0⟩
def Loud.accN : Field := ⟨301, 0, false, 0⟩
def Loud.tpNow : Field := ⟨302, 0, false, 0⟩
def Loud.tpAll : Field := ⟨303, 0, false, 0⟩
def Loud.resetAt : Field := ⟨304, 0, true, 0⟩
def Loud.since : Field := ⟨305, 0, true, 0⟩
/-- The millisecond of the last report. -/
def Loud.reportAt : Field := ⟨306, 0, true, -1⟩

/-- Channels of a meter with their roles. -/
def State.loudChans (s : State) (m : Nat) : List (Nat × Nat × Nat) :=
  (List.range 8).filterMap fun q => let r := s.rn (U.loud m) (Loud.roleF q); if r = 0 then none else some (q, s.rn (U.loud m) (Loud.chF q), r)

/-- K-weighting of BS.1770-4 as two biquads with 40 fractional bits (PRESUMED: the standard's filters, notes/assumptions/16.md):
b0 b1 b2 a1 a2 of each, by rate. -/
def kFilter (rate : Nat) : List Int × List Int :=
  if rate = 0 then
    ([1687887633204, -2959551258693, 1317646830176, -1858899551462, 805371128373],
     [1099511627776, -2199023255552, 1099511627776, -2188080316416, 1088595951616])
  else
    ([1714923930767, -3217986396783, 1515414218059, -2028169560850, 941009685117],
     [1099511627776, -2199023255552, 1099511627776, -2193544988042, 1094040192979])
/-- One output of a biquad: direct form, from three inputs and two past outputs. -/
def biquad (c : List Int) (x x1 x2 y1 y2 : Int) : Int :=
  match c with
  | [b0, b1, b2, a1, a2] => (b0 * x + b1 * x1 + b2 * x2 - a1 * y1 - a2 * y2) / 2 ^ 40
  | _ => 0
/-- State of a channel's weighting: two past inputs, two past outputs of each biquad, and the sum of squares; samples
carry 20 more fractional bits. -/
def kStep (k : List Int × List Int) (a : List Int × Int) (x0 : Int) : List Int × Int :=
  match a.1 with
  | [x1, x2, v1, v2, y1, y2] =>
    let x := x0 * 2 ^ 20
    let v := biquad k.1 x x1 x2 v1 v2
    let y := biquad k.2 v v1 v2 y1 y2
    ([x, x1, v, v1, y, y1], a.2 + y * y)
  | _ => ([x0 * 2 ^ 20, 0, 0, 0, 0, 0], a.2)

/-- The 4-phase interpolator of Annex 2 of BS.1770-4, over 8,192 (PRESUMED as above). -/
def tpPhases : List (List Int) :=
  [[14, 90, -161, 272, -487, 1125, 7964, -838, 390, -218, 122, -68],
   [-239, 240, -424, 730, -1364, 3810, 6388, -1641, 832, -477, 271, -155],
   [-155, 271, -477, 832, -1641, 6388, 3810, -1364, 730, -424, 240, -239],
   [-68, 122, -218, 390, -838, 7964, 1125, -487, 272, -161, 90, 14]]
/-- Largest magnitude, times 8,192, of the oversampled signal: `win` holds the last 12 samples, newest first. -/
def truePeak : List Int → Nat → List Int → Nat
  | _, m, [] => m
  | win, m, x :: t =>
    let w := (x :: win).take 12
    truePeak w (tpPhases.foldl (fun a ph => max a ((ph.zip w).foldl (fun (b : Int) e => b + e.1 * e.2) 0).natAbs) m) t

/-- The meter takes in the block just ended: places 10 + q of its lists hold weighting states, 20 + q past samples. -/
def State.loudBlock (s : State) (m : Nat) : State :=
  let u := U.loud m
  let b := s.lastBlock
  let s0 := if s.rd u Loud.resetAt = b + 1 then (s.setBuf u 1 []).wrs u [(Loud.resetAt, 0), (Loud.tpAll, 0), (Loud.since, if b % 100 = 0 then 0 else -1)] else s
  (s0.loudChans m).foldl (fun a c =>
    let (q, ch, role) := c
    let rate := s.spaceRate (s.rn u Loud.SPACE) ch
    let xs := s.blockSamples (s.rn u Loud.SPACE) ch b
    if role = 3 then a
    else
      let past := match a.buf u (10 + q) with
        | [] => [0, 0, 0, 0, 0, 0]
        | l => l
      let (st, e) := xs.foldl (kStep (kFilter rate)) (past, 0)
      let tp := truePeak (a.buf u (20 + q)) 0 xs
      let w : Int := if role = 2 then 141 else 100
      ((a.setBuf u (10 + q) st).setBuf u (20 + q) (xs.reverse.take 12)).wrs u
        [(Loud.acc, a.rd u Loud.acc + w * e), (Loud.accN, xs.length), (Loud.tpNow, max (a.rd u Loud.tpNow) tp), (Loud.tpAll, max (a.rd u Loud.tpAll) tp)]) s0

/-- Loudness in 0.01 LUFS of weighted squares `z` (weights times 100) over `n` samples; -32768 below -70 LUFS. -/
def lufs (z n : Nat) : Int :=
  if z = 0 ∨ n = 0 then -32768
  else
    let v := Fx.toInt (Fx.ln z (n * 100 * 2 ^ 94) * 1000 * Fx.one / Fx.ln10) - 69
    if v < -7000 then -32768 else v
/-- Integrated loudness over the gating blocks of `n` samples each (R349). -/
def integrated (zs : List Nat) (n : Nat) : Int :=
  let mean := fun (l : List Nat) => if l.isEmpty then 0 else l.foldl (· + ·) 0 / l.length
  let a := zs.filter fun z => lufs z n != -32768
  let rel := lufs (mean a) n - 1000
  let r := a.filter fun z => decide (rel < lufs z n)
  if r.isEmpty then -32768 else lufs (mean r) n
/-- A true peak in 0.01 dBTP. -/
def tpCdB (x : Nat) : Int := if x = 0 then -32768 else max (-32768) (Fx.toInt (Fx.db x (2 ^ 40) * 100))

/-- A loudness meter reports at a multiple of 100 ms (R349); list 0 holds the sums of the last 30 tenths of a second,
list 1 those of the gating blocks since the reset. -/
def execLoudnessReport (dt meter : Nat) (s0 : State) : Res :=
  let s := s0.after dt
  let u := U.loud meter
  .next (s.ifUp [U.detector] (if 1024 ≤ meter ∨ s.now % (100 * Config.ms) ≠ 0 ∨ s.rd u Loud.reportAt = (s.now / Config.ms : Nat) then s
    else if s.detectorOn = false ∨ (s.loudChans meter).isEmpty = true then
      s.wrs u [(Loud.M, -32768), (Loud.S, -32768), (Loud.I, -32768), (Loud.TP, -32768), (Loud.TP_MAX, -32768)]
    else
      let l := s.buf u 0 ++ [s.rd u Loud.acc]
      let tenths := l.drop (l.length - 30)
      let n := 100 * s.rn u Loud.accN
      let last4 := (tenths.drop (tenths.length - 4)).foldl (· + ·) 0
      let since := s.rd u Loud.since + 1
      let gates := if 4 ≤ since then s.buf u 1 ++ [last4] else s.buf u 1
      ((s.setBuf u 0 tenths).setBuf u 1 gates).wrs u
        [(Loud.acc, 0), (Loud.since, since), (Loud.reportAt, (s.now / Config.ms : Nat)), (Loud.M, lufs last4.toNat (4 * n)), (Loud.S, lufs (tenths.foldl (· + ·) 0).toNat (30 * n)),
         (Loud.I, integrated (gates.map Int.toNat) (4 * n)), (Loud.TP, tpCdB (s.rn u Loud.tpNow)), (Loud.TP_MAX, tpCdB (s.rn u Loud.tpAll)), (Loud.tpNow, 0)]))

def loudcfgChecks (s : State) (vs : List Int) : Checks :=
  let ps := Loud.loudcfgParams
  let sp := pn ps vs Loud.SPACE
  let used := (List.range 8).filter fun q => pn ps vs (Loud.roleF q) != 0
  let chs := used.map fun q => pn ps vs (Loud.chF q)
  [(.range, !paramsOk ps vs || chs.any (fun c => decide (spaceSize sp ≤ c) || s.spaceOdd sp c) ||
      (List.range 8).any fun q => pn ps vs (Loud.roleF q) == 0 && pn ps vs (Loud.chF q) != 0),
   (.rate, ((chs.map (s.spaceRate sp)).eraseDups).length > 1)]

def judgeLoudcfg (i : Issue) (s : State) : Judged :=
  let ps := Loud.loudcfgParams
  let pr := getParams ps false i
  let vs := pr.getD []
  let ts := elements i 1024
  let some_ := (List.range 8).any fun q => pn ps vs (Loud.roleF q) != 0
  let clear := fun (a : State) u => ((List.range 8).foldl (fun (b : State) q => (b.setBuf u (10 + q) []).setBuf u (20 + q) []) ((a.setBuf u 0 []).setBuf u 1 [])).wrs u
    [(Loud.acc, 0), (Loud.tpNow, 0), (Loud.tpAll, 0), (Loud.since, -1), (Loud.resetAt, 0)]
  { checks := (.format, i.badFlags true false true false || pr.isNone) :: eachTarget ts fun _ => loudcfgChecks s vs
    verdict := .act ((ts.getD []).foldl (fun a m => clear (a.wrParams (U.loud m) ps vs) (U.loud m)) (if some_ then s.wake U.detector else s)) }
def execLoudcfg (i : Issue) (s : State) : Res := .next (s.issue i .other (judgeLoudcfg i))

def judgeLoudreset (i : Issue) (s : State) : Judged :=
  let ts := elements i 1024
  { checks := (.format, i.badFlags true false true false || i.sub != 0 || i.npw != 0 || i.params != []) :: eachTarget ts fun _ => []
    verdict := .stage ((ts.getD []).map fun m => ⟨s.thn i.th Lamp.PLAN, 0, [⟨U.loud m, 0⟩], [], .cfg 0x33 m 0 []⟩) }
def execLoudreset (i : Issue) (s : State) : Res := .next (s.issue i (.ticked 0x33) (judgeLoudreset i))
/-- First block whose first instant is at or after the audio switch instant of a tick at `t` (R328, R349, R362). -/
def firstBlock (t : Int) : Int := (gridCeil (t + 250 * Config.us) 48000 + 47) / 48
def State.commitLoudreset (s : State) (m : Nat) (n : Int) : State :=
  s.wrs (U.loud m) [(Loud.RESET_TICK, n), (Loud.resetAt, firstBlock s.now + 1)]

/-! ### Correlation (R350) -/

/-- Sums of the running 100 ms: xy, x², y². Lists 0 to 2 hold those of the last four tenths of a second. -/
def Corr.xy : Field := ⟨300, 0, true, 0⟩
def Corr.xx : Field := ⟨301, 0, false, 0⟩
def Corr.yy : Field := ⟨302, 0, false, 0⟩
def Corr.n : Field := ⟨303, 0, false, 0⟩
/-- A correlation meter is configured. -/
def Corr.set : Field := ⟨304, 1, false, 0⟩
/-- The millisecond of the last report. -/
def Corr.reportAt : Field := ⟨305, 0, true, -1⟩

def State.corrBlock (s : State) (m : Nat) : State :=
  let u := U.corr m
  let sp := s.rn u Corr.SPACE
  let z := (s.blockSamples sp (s.rn u Corr.X) s.lastBlock).zip (s.blockSamples sp (s.rn u Corr.Y) s.lastBlock)
  s.wrs u [(Corr.xy, s.rd u Corr.xy + z.foldl (fun (a : Int) e => a + e.1 * e.2) 0), (Corr.xx, s.rd u Corr.xx + z.foldl (fun (a : Int) e => a + e.1 * e.1) 0),
    (Corr.yy, s.rd u Corr.yy + z.foldl (fun (a : Int) e => a + e.2 * e.2) 0), (Corr.n, s.rd u Corr.n + (z.length : Int))]

def execCorrelationReport (dt meter : Nat) (s0 : State) : Res :=
  let s := s0.after dt
  let u := U.corr meter
  .next (s.ifUp [U.detector] (if 4096 ≤ meter ∨ s.now % (100 * Config.ms) ≠ 0 ∨ s.rd u Corr.reportAt = (s.now / Config.ms : Nat) then s
    else if s.detectorOn = false ∨ s.rb u Corr.set = false then s.wrs u [(Corr.R, 0), (Corr.LOW, 1)]
    else
      let add := fun (p : Nat) (f : Field) => let l := s.buf u p ++ [s.rd u f]; l.drop (l.length - 4)
      let sum := fun (l : List Int) => l.foldl (· + ·) 0
      let (a, b, c, n) := (add 0 Corr.xy, add 1 Corr.xx, add 2 Corr.yy, add 3 Corr.n)
      let (xy, xx, yy, m) := (sum a, sum b, sum c, sum n)
      -- mean square below -90 dBFS
      let low := decide (xx * 10 ^ 9 < m * 2 ^ 54) || decide (yy * 10 ^ 9 < m * 2 ^ 54)
      let root : Int := Fx.isqrt (xx * yy * 10 ^ 12).toNat
      let r := if low then 0 else Fx.round (xy * 10 ^ 10) root
      ((((s.setBuf u 0 a).setBuf u 1 b).setBuf u 2 c).setBuf u 3 n).wrs u
        [(Corr.R, r), (Corr.LOW, if low then 1 else 0), (Corr.reportAt, (s.now / Config.ms : Nat)), (Corr.xy, 0), (Corr.xx, 0), (Corr.yy, 0), (Corr.n, 0)]))

def judgeCorrcfg (i : Issue) (s : State) : Judged :=
  let ps := Corr.corrcfgParams
  let pr := getParams ps false i
  let vs := pr.getD []
  let ts := elements i 4096
  let n := pn ps vs
  let sp := n Corr.SPACE
  let bad := fun c => decide (spaceSize sp ≤ c) || s.spaceOdd sp c
  { checks := (.format, i.badFlags true false true false || pr.isNone) :: eachTarget ts fun _ =>
      [(.range, !paramsOk ps vs || bad (n Corr.X) || bad (n Corr.Y)), (.rate, s.spaceRate sp (n Corr.X) != s.spaceRate sp (n Corr.Y))]
    verdict := .act ((ts.getD []).foldl (fun a m =>
      let u := U.corr m
      (((((a.wrParams u ps vs).setBuf u 0 []).setBuf u 1 []).setBuf u 2 []).setBuf u 3 []).wrs u [(Corr.set, 1), (Corr.xy, 0), (Corr.xx, 0), (Corr.yy, 0), (Corr.n, 0)])
      (s.wake U.detector)) }
def execCorrcfg (i : Issue) (s : State) : Res := .next (s.issue i .other (judgeCorrcfg i))

/-- What the meters take in as a block ends. -/
def State.meterBlock (s : State) : State :=
  if !s.detectorOn then s
  else
    let louds := ((s.regs.filterMap fun e => if U.loud 0 ≤ e.1.unit ∧ e.1.unit < U.loud 1024 ∧ Loud.SPACE.pos ≤ e.1.pos ∧ e.1.pos ≤ Loud.ROLE7.pos then some (e.1.unit - U.loud 0) else none)).eraseDups
    let corrs := s.holding (U.corr 0) 4096 Corr.set 1
    corrs.foldl State.corrBlock (louds.foldl State.loudBlock s)

/-- The detector unit goes OFF: what it measures reads as R591 says. -/
def State.detectorClear (s : State) : State :=
  { s with
    regs := s.regs.filterMap fun e =>
      let chan := (decide (U.ach 0 ≤ e.1.unit) && decide (e.1.unit < U.ach 131072)) || (decide (U.slot 0 ≤ e.1.unit) && decide (e.1.unit < U.slot 65536))
      if chan && decide (320 ≤ e.1.pos) && decide (e.1.pos < 332) then none
      else if decide (U.loud 0 ≤ e.1.unit) && decide (e.1.unit < U.loud 1024) && (decide (e.1.pos ≤ Loud.TP_MAX.pos) || (decide (300 ≤ e.1.pos) && decide (e.1.pos < 306))) then none
      else if decide (U.corr 0 ≤ e.1.unit) && decide (e.1.unit < U.corr 4096) && (e.1.pos == Corr.R.pos || (decide (300 ≤ e.1.pos) && decide (e.1.pos < 304))) then none
      else if decide (U.corr 0 ≤ e.1.unit) && decide (e.1.unit < U.corr 4096) && e.1.pos == Corr.LOW.pos then some (e.1, 1)
      else some e
    bufs := s.bufs.filter fun e => !((decide (U.loud 0 ≤ e.1.unit) && decide (e.1.unit < U.loud 1024)) || (decide (U.corr 0 ≤ e.1.unit) && decide (e.1.unit < U.corr 4096))) }

/-- Loudness or correlation work, fed a-channels or live slots: the detector unit carries work (R591). -/
def State.detectorWork (s : State) : Bool :=
  !s.feeds.isEmpty || !s.stagedFeeds.isEmpty || (s.sheaf.any fun e => entActive e.2.toNat) ||
  (s.holding (U.emb 0) 2304 Emb.ENABLE 1).any (fun d => (List.range (s.embChannels d)).any fun q => s.rn (U.emb d) (Emb.chF q) / 65536 == 2) ||
  (s.holding (U.tx 0) 8192 Tx.SEAT 0x7FF).any (fun c => s.rn (U.tx c) Tx.TYPE == 2 || s.rn (U.tx c) Tx.TYPE == 3) ||
  (List.range 16).any (fun n => s.rb (U.stookSide n 1) Stook.MODE) ||
  (List.range 64).any (fun n => s.rb (U.tap n) Tap.ENABLE && s.rb (U.tap n) Tap.SPACE) ||
  !(s.holding (U.corr 0) 4096 Corr.set 1).isEmpty ||
  (s.regs.any fun e => decide (U.loud 0 ≤ e.1.unit) && decide (e.1.unit < U.loud 1024) && decide (Loud.ROLE0.pos ≤ e.1.pos) && decide (e.1.pos ≤ Loud.ROLE7.pos) &&
    (e.1.pos - Loud.ROLE0.pos) % 2 == 0 && e.2 != 0)

/-! ### Audio taps (R362, R363) -/

/-- Records written, and the block (in ms, plus one) that is next for the configuration now in force. -/
def Tap.written : Field := ⟨300, 0, false, 0⟩
/-- Number of the block after the one recorded last. -/
def Tap.block : Field := ⟨301, 0, true, -1⟩

/-- Bytes of one record of a tap configuration. -/
def recordBytes (chans pack rate : Nat) : Nat := ceilDiv (32 + chans * (if rate = 0 then 48 else 96) * (3 + pack)) 64 * 64
/-- Channels of a tap configuration. -/
def tapChans (vs : List Int) (rate : Nat) : List Nat :=
  (List.range (pn Tap.tapcfgParams vs Tap.CHANNELS)).map fun q => pn Tap.tapcfgParams vs Tap.FIRST + q * (1 + rate)
def State.tapRate (s : State) (vs : List Int) : Nat := s.spaceRate (pn Tap.tapcfgParams vs Tap.SPACE) (pn Tap.tapcfgParams vs Tap.FIRST)
/-- Barn bytes of the ring and of one record. -/
def State.tapSize (s : State) (vs : List Int) : Nat := recordBytes (pn Tap.tapcfgParams vs Tap.CHANNELS) (pn Tap.tapcfgParams vs Tap.PACK) (s.tapRate vs)
/-- Capture-class claims of a tap (R363). -/
def State.tapClaims (s : State) (n : Nat) (vs : List Int) : List Claim :=
  if pv Tap.tapcfgParams vs Tap.ENABLE = 0 then []
  else hostClaims (U.tap n) 0 (s.tapSize vs * 1000) (pn Tap.tapcfgParams vs Tap.BASE * 4096) (s.tapSize vs * pn Tap.tapcfgParams vs Tap.BLOCKS)

def tapcfgChecks (s : State) (vs : List Int) : Checks :=
  let ps := Tap.tapcfgParams
  let sp := pn ps vs Tap.SPACE
  let rate := s.tapRate vs
  let chs := tapChans vs rate
  [(.range, !paramsOk ps vs || chs.any (fun c => decide (spaceSize sp ≤ c) || s.spaceOdd sp c) ||
      decide (barnBytes < pn ps vs Tap.BASE * 4096 + s.tapSize vs * pn ps vs Tap.BLOCKS)),
   (.rate, chs.any fun c => s.spaceRate sp c != rate)]

def judgeTapcfg (i : Issue) (s : State) : Judged :=
  let ps := Tap.tapcfgParams
  let pr := getParams ps false i
  let vs := pr.getD []
  let ts := targets i 0x27 (U.tap 0) 64
  let (adm, best) := s.admitAll ((ts.getD []).map fun n => ⟨U.tap n, 0, 0, 0, some (s.tapClaims n vs)⟩)
  { checks := (.format, i.badFlags true false true false || pr.isNone) :: (.bandwidth, adm.isNone) :: eachTarget ts fun _ => tapcfgChecks s vs
    verdict := .stage ((ts.getD []).map fun n => ⟨s.thn i.th Lamp.PLAN, 0, [⟨U.tap n, 0⟩], [U.tap n], .cfg 0x70 n 0 vs⟩)
    claims := adm.getD []
    refuse := fun a => a.countRefusal best }
def execTapcfg (i : Issue) (s : State) : Res := .next (s.issue i (.ticked 0x70) (judgeTapcfg i))

/-- A tap configuration commits: it governs from the first block of R362, or from the block after the one in progress
where it stops the tap. -/
def State.commitTapcfg (s : State) (n : Nat) (vs : List Int) : State :=
  let ps := Tap.tapcfgParams
  let u := U.tap n
  let from0 : Int := if pv ps vs Tap.ENABLE = 0 then (s.now / Config.ms : Nat) + 1 else firstBlock s.now
  ((s.setClaims u (s.tapClaims n vs)).setBuf u 0 (from0 :: s.valsOf u ps)).wrParams u ps vs

/-- Words of a byte list, least significant byte first, padded with zeros. -/
def packBytes : Nat → List Nat → List Word
  | 0, _ => []
  | n + 1, l => BitVec.ofNat 64 ((l.take 8).foldr (fun b a => b + 256 * a) 0) :: packBytes n (l.drop 8)
def leBytes : Nat → Nat → List Nat
  | 0, _ => []
  | n + 1, v => v % 256 :: leBytes n (v / 256)

/-- Samples of a record: sample-major, channel-minor. -/
def State.tapSamples (s : State) (sp pack : Nat) (chs : List Nat) (rate : Nat) (b : Int) : List Nat :=
  let rows := chs.map fun c => s.blockSamples sp c b
  (List.range (if rate = 0 then 48 else 96)).flatMap fun k => rows.flatMap fun r =>
    let x := (r.drop k).headD 0
    if pack = 0 then leBytes 3 (out24 x % 2 ^ 24).toNat else leBytes 4 (x % 2 ^ 32).toNat
/-- FLAGS of Table 12.9; a step of system time sets the gap flag of the record in progress (R379). -/
def State.tapFlags (s : State) (sp : Nat) (chs : List Nat) (rate : Nat) (b : Int) : Nat :=
  let n : Int := if rate = 0 then 48 else 96
  let feeds := if sp = 0 then chs.filterMap s.feeder else []
  (if s.rd U.tower Tower.stepBlock = b + 1 || (sp = 0 && chs.any (fun c => s.blockGaps c b != 0)) then 1 else 0) +
  (if feeds.any fun f => decide (b * n ≤ s.rd f.unit Src.slipAt) && decide (s.rd f.unit Src.slipAt < (b + 1) * n) then 2 else 0) +
  (if feeds.any fun f => s.rb f.unit Src.asrc && !s.rb f.unit Src.asrcLock then 4 else 0) +
  (if sp = 1 && chs.any (fun c => s.rd (U.slot c) Slot.eccBlock == b + 1) then 8 else 0)

/-- The configuration that tap `u` records block `b` with: the one before until a newer one's first block; a changed layout
starts the ring again at NEXT 0 (R362). -/
def State.tapConfig (s : State) (u : Nat) (b : Int) : List Int × State :=
  let now := s.valsOf u Tap.tapcfgParams
  match s.buf u 0 with
  | from0 :: old =>
    if b < from0 then (old, s)
    else (now, if old == now then s.setBuf u 0 [] else (s.setBuf u 0 []).wr u Tap.NEXT 0)
  | [] => (now, s)

/-- The record of block `b` of a tap whose configuration is `vs`: its 32-byte header and its samples stand at its place in the Barn, which
is that of the block NEXT names (R362, R363). `s` holds the samples, `x` the state the record is written into. -/
def State.tapStore (s x : State) (u : Nat) (vs : List Int) (b : Int) : State :=
  let ps := Tap.tapcfgParams
  let (sp, pack) := (pn ps vs Tap.SPACE, pn ps vs Tap.PACK)
  let rate := s.tapRate vs
  let chs := tapChans vs rate
  let size := s.tapSize vs
  let at_ := pn ps vs Tap.BASE * 4096 + x.rn u Tap.NEXT * size
  let seq := x.rn u Tap.written
  let w0 := 0x4154 + chs.length * 2 ^ 16 + pack * 2 ^ 23 + rate * 2 ^ 24 + s.tapFlags sp chs rate b * 2 ^ 25
  let ns := (b.toNat % 1000) * 1000000
  let w1 := ns + seq % 2 ^ 32 * 2 ^ 32
  let body := packBytes ((size - 32) / 8) (s.tapSamples sp pack chs rate b)
  let y := (chansOf at_ size).foldl (fun a c => a.faultAccess u 7 c) x
  (y.barnStores (at_ + 32) body).barnStores at_ [BitVec.ofNat 64 w0, BitVec.ofNat 64 w1, 0, 0]

/-- A tap writes the record of the block just ended (R362, R363). -/
def execTapRecord (dt tap : Nat) (s0 : State) : Res :=
  let s := s0.after dt
  let ps := Tap.tapcfgParams
  let u := U.tap tap
  let b := s.lastBlock
  .next (if 64 ≤ tap ∨ s.now % Config.ms ≠ 0 ∨ s.unitBad u = true ∨ s.rd u Tap.block = b + 1 then s
    else
      let (vs, s1) := s.tapConfig u b
      if pv ps vs Tap.ENABLE = 0 then s1
      else
        let (next, seq) := (s1.rn u Tap.NEXT, s1.rn u Tap.written)
        ((s.tapStore s1 u vs b).wrs u [(Tap.NEXT, (next + 1) % pn ps vs Tap.BLOCKS), (Tap.SEQ, seq), (Tap.written, seq + 1), (Tap.block, b + 1)]).count u Ctr.Tap.RECORDS)

end Sys2Proof.Machine
end

