-- ==== Sys2Proof/Machine/Power.lean ====
section
/-!
DEFINITION. Unit states as they read, waking and returning to OFF, faults, `unitcfg`, telemetry, and the Barn channels'
self-refresh, scrubbing and faults (R42 to R44, R457, R542, R543, R555 to R558, R566).
-/
namespace Sys2Proof.Machine

/-- The unit carries work (Table 1.8): its configuration or input gives it something to do; the units of the always-on parts
have work from when the boot sequence runs (notes/assumptions/22.md). -/
def State.carries (s : State) (u : Nat) : Bool :=
  let c := U.classOf u
  if c = 0x05 then s.rb u Kerb.STATE
  else if c = 0x06 then s.rb u Trib.RX_STATE || s.rb u Trib.TX_STATE
  else if c = 0x08 then s.rd u Lane.TX_STATE == 0 || s.rd u Lane.RX_STATE == 0
  else if c = 0x0A then s.rb u Mac.LINK
  else if c = 0x0B then s.rb u Rx.TYPE
  else if c = 0x0C then s.rb u Tx.TYPE
  else if c = 0x0D then s.rn u Fwd.INPUT_CFG != 2047
  else if c = 0x11 then s.rb u Gran.MODE
  else if c = 0x12 then s.rb u Sub.ENABLE
  else if c = 0x14 then s.rb u Scaler.HEADS
  else if c = 0x16 then s.rb u Head.OUTPUT
  else if c = 0x17 then s.rb u Layer.TYPE
  else if c = 0x19 then s.allClaims.any fun x => x.chan == u - 0x7001
  else if c = 0x21 then !s.sheaf.isEmpty
  else if c = 0x22 then s.detectorWork
  else if c = 0x23 then s.rb u Deemb.ENABLE
  else if c = 0x24 then s.rb u Emb.ENABLE
  else if c = 0x25 then (List.range 2).any fun k => s.rb (U.stookSide (u - 0x8310) k) Stook.MODE || s.rb (U.stookSide (u - 0x8310) k) Stook.STATE
  else if c = 0x26 then s.rb u Stook.MODE || s.rb u Stook.STATE
  else if c = 0x27 then s.rb u Tap.ENABLE
  else if c = 0x30 then s.rd u Lamp.STATE == thRunning || s.rd u Lamp.STATE == thTickWait || s.rd u Lamp.STATE == thEventWait
  else if c = 0x31 then s.errands.any fun e => e.queue == u - 0x8440 && e.phase != 3
  else if c = 0x32 then s.rb u Plan.STATE
  else if c = 0x33 then s.rb u Sign.ENABLE
  else if c = 0x34 then s.rn u Ret.MIRROR != 4095
  else if c = 0x35 ∨ c = 0x36 then s.rb u Bundle.COUNT
  else if c = 0x41 then s.rb u Cand.STATE
  else if c = 0x42 then s.rb u Ptp.ENABLE
  else if c = 0x44 then s.rb u Capt.EDGES
  else if c = 0x45 then s.rb u Tt.MODE
  else if c = 0x46 then s.rb u ClkOut.SOURCE
  else if c = 0x50 then s.rb u Twin.MODE
  else if c = 0x51 then s.rb u Harv.ARMED
  else if c = 0x52 then s.rb u Crier.UNREAD
  else (c == 0x40 || c == 0x43 || (decide (0x53 ≤ c) && decide (c ≤ 0x57))) && s.rb U.boot Boot.STAGE

/-- Both sides of a lane are OFF, or one of them is waking (Table 5.9). -/
def State.laneOff (s : State) (u : Nat) : Bool := s.rn u Lane.TX_STATE == 3 && s.rn u Lane.RX_STATE == 3
def State.laneWaking (s : State) (u : Nat) : Bool := s.rb u Lane.wakeTx || s.rb u Lane.wakeRx

/-- STATE of one unit as it reads (Table 1.8, R457, R566). A Cell has work while it selects a source or holds a staged
effect. -/
def State.ownState (s : State) (u : Nat) : Int :=
  let st := s.unitState u
  if st = stFault then stFault
  else if !s.unitEnabled u then stOff
  else if u < 2688 then
    let idle := (s.selectedBy u).all (· == noSeat) && !s.staged.any fun e => e.elems.any fun k => k.unit == U.cell u
    if idle then stReady else stRunning
  else if U.classOf u = 0x08 then
    if s.laneWaking u then stWaking else if s.laneOff u then stOff else if s.carries u then stRunning else stReady
  else if st = stReady && s.carries u then stRunning else st
/-- STATE as it reads: a group unit without a power state of its own shows the highest of its members (R42). Of the groups over
power-gated members R42 then gives OFF at reset, where Table 1.7 gives 0x2 to every unit that is not itself at a gated level; the
model takes R42's maximum (DESIGN CHOICE, notes/assumptions/88.md). -/
def State.shownState (s : State) (u : Nat) : Int :=
  let ms := U.members u
  if ms.isEmpty || U.gated u then s.ownState u else (ms.map s.ownState).foldl max 0

/-- A current or staged selection names the unit, or its own configuration or an effect staged on it puts it to use (R43). -/
def State.named (s : State) (u : Nat) : Bool :=
  let c := U.classOf u
  let src := fun (f : Nat → Bool) => s.anyCellNames (fun _ => true) f
  s.stagedUses u || src (fun x => (srcUnits x).contains u) || s.anyCellNames (fun d => (destUnits d).contains u) (· != noSeat) ||
  (if c = 0x06 then src (· == u - 0x1400) || s.anyCellNames (· == u - 0x1400) (· != noSeat)
   else if c = 0x08 then s.rb u Lane.MODE || s.laneLive (u - 0x1900)
   else if c = 0x0A then s.macInUse (u - 0x1B00)
   else if c = 0x0B then s.rb u Rx.TYPE && src (· == 1152 + s.rn u Rx.SEAT)
   else if c = 0x0C then s.rb u Tx.TYPE && s.anyCellNames (· == 1152 + s.rn u Tx.SEAT) (· != noSeat)
   else if c = 0x0D then s.rn u Fwd.INPUT_CFG != 2047
   else if c = 0x14 then s.rb u Scaler.HEADS
   else if c = 0x16 then s.rb u Head.OUTPUT
   else if c = 0x19 then s.allClaims.any fun x => x.chan == u - 0x7001
   else if c = 0x22 ∨ c = 0x25 ∨ c = 0x26 ∨ c = 0x27 then s.carries u
   else false)

/-- A configuration, current or staged, names a seat with the property: a FALLBACK_SEAT, a member of a source bundle, or the seat of an
enabled candidate. -/
def State.configNames (s : State) (f : Nat → Bool) : Bool :=
  let bs := Bundle.bundlecfgParams
  (s.regs.any fun e => f e.2.toNat &&
    ((decide (e.1.unit < 2688) && e.1.pos == Cell.FALLBACK_SEAT.pos) ||
      (decide (U.sbundle 0 ≤ e.1.unit) && decide (e.1.unit < U.sbundle 512) && decide (Bundle.M0.pos ≤ e.1.pos) && decide (e.1.pos ≤ Bundle.M3.pos)))) ||
  (s.staged.any fun e => !e.armed && match e.eff with
    | .cfg 0x51 _ _ vs => f (pn Cell.cellcfgParams vs Cell.FALLBACK_SEAT)
    | .cfg 0x53 _ 0 vs => [Bundle.M0, Bundle.M1, Bundle.M2, Bundle.M3].any fun m => f (pn bs vs m)
    | _ => false) ||
  (List.range 4).any fun k => s.rb (U.cand (8 + k)) Cand.ENABLE && f (s.rn (U.cand (8 + k)) Cand.SEAT)
/-- `unitcfg` finds the unit named by a selection or a configuration (R457): what R43 counts, and the seats that configurations name. -/
def State.namedAtAll (s : State) (u : Nat) : Bool :=
  s.named u || s.configNames fun x => (srcUnits x).contains u || (U.classOf u == 0x06 && x == u - 0x1400)

/-- The unit is taken to OFF: what it holds in its own power domain goes (R43, R457). A channel in FAULT stays so. -/
def State.powerOff (s : State) (u : Nat) : State :=
  let c := U.classOf u
  if c = 0x08 then (s.setSide (u - 0x1900) 3 true).setSide (u - 0x1900) 3 false
  else if c = 0x19 && s.unitState u == stFault then s
  else
    let s1 := s.setUnitState u stOff
    if c = 0x22 then s1.detectorClear
    else if c = 0x14 then s1.setClaims u []
    else s1

/-- A woken unit reaches READY (R43). -/
def execUnitWakeDone (dt unit : Nat) (s0 : State) : Res :=
  let s := s0.after dt
  .next (if U.gated unit && s.unitState unit == stWaking then (s.setUnitState unit stReady).wr unit unitReadyF s.clk else s)

/-- A unit that carries no work and is named by nothing returns to OFF 1 s after the end of its last work (R43); lanes and Barn
channels follow R155 and R555. -/
def execUnitIdleOff (dt unit : Nat) (s0 : State) : Res :=
  let s := s0.after dt
  let c := U.classOf unit
  .next (if U.gated unit && c != 0x08 && c != 0x19 && s.unitState unit == stReady && !s.carries unit && !s.named unit &&
      decide (max (s.rn unit unitReadyF) (s.rn unit unitWorkF) + Config.second ≤ s.clk) then s.powerOff unit else s)

/-- A detected hardware fault puts a unit in FAULT (R44). -/
def execUnitFault (dt unit cause : Nat) (s0 : State) : Res :=
  let s := s0.after dt
  .next (if U.classOf unit = 0 ∨ s.unitState unit = stFault then s else s.faultUnit unit cause)

/-! ### unitcfg (R457) -/

def unitcfgOk (u : Nat) : Bool :=
  U.gated u || [0x05, 0x06, 0x0B, 0x0C, 0x0D, 0x33, 0x34, 0x26, 0x27].contains (U.classOf u)
def unitcfgTargets (u : Nat) : Option (List Nat) :=
  if unitcfgOk u then some [u]
  else if !(U.members u).isEmpty && (U.members u).all unitcfgOk then some (U.members u) else none

def judgeUnitcfg (i : Issue) (s : State) : Judged :=
  let ts := unitcfgTargets i.index
  let on := i.sub == 1
  let one := fun (a : State) (u : Nat) =>
    if on then
      let b := a.wr u unitEnableF 1
      if a.unitEnabled u || U.gated u then b else b.setUnitState u stReady
    else (a.wr u unitEnableF 0).powerOff u
  { checks := (.format, i.badFlags true false true false || decide (2 ≤ i.sub) || i.npw != 0 || !i.params.isEmpty) ::
      eachTarget ts fun u => [(.locked, !on && !i.force && (s.shownState u == stRunning || s.namedAtAll u))]
    members := memberChecks 0 ts fun u => [(.locked, !on && !i.force && (s.shownState u == stRunning || s.namedAtAll u))]
    verdict := .act ((ts.getD []).foldl one s) }
def execUnitcfg (i : Issue) (s : State) : Res := .next (s.issue i .other (judgeUnitcfg i))

/-! ### Telemetry and Dormant (R556, R558) -/

/-- The device is Dormant: lanes of the Avenues OFF, plans disabled, power-gated units OFF, Barn channels in self-refresh
or FAULT. -/
def State.dormant (s : State) : Bool :=
  ((List.range 288).all fun l => s.laneOff (U.lane l)) && ((List.range 16).all fun p => !s.planOn p) &&
  ((List.range 128).all fun n => s.ownState (U.gran n) == stOff) && ((List.range 192).all fun n => s.ownState (U.scaler n) == stOff) &&
  ((List.range 16).all fun n => s.ownState (U.head n) == stOff && s.ownState (U.stookPort n) == stOff) &&
  ((List.range 144).all fun n => s.ownState (U.mac n) == stOff) && s.ownState U.detector == stOff &&
  (List.range 24).all fun c => s.chanFault c || (s.rb (U.chan c) Chan.SELF_REFRESH && s.ownState (U.chan c) == stReady)

/-- Telemetry fields from their first: 8 voltages, 8 currents, 8 temperatures (Table 20.6). -/
def State.setTelemetry (s : State) (first : Nat) (width : Nat) (signed : Bool) (l : List Int) : State :=
  ((List.range 8).zip l).foldl (fun a e => a.wr U.power ⟨first + e.1, width, signed, 0⟩ e.2) s
/-- Telemetry of 1 ms: rail voltages in mV, currents in 10 mA, temperatures in 0.1 °C. POWER_EST is their total. -/
def execTelemetrySample (dt : Nat) (mv ma : List Nat) (tj : List Int) (s0 : State) : Res :=
  let s := s0.after dt
  let s1 := s.setTelemetry Power.V_VCORE.pos 16 false ((mv.take 8).map fun (x : Nat) => (x : Int))
  let s2 := s1.setTelemetry Power.I_VCORE.pos 16 false ((ma.take 8).map fun (x : Nat) => (x : Int))
  let s3 := s2.setTelemetry Power.TJ0.pos 12 true (tj.take 8)
  let w := ((mv.zip ma).map fun e => e.1 * e.2).foldl (· + ·) 0
  .next (s3.wrs U.power [(Power.TJ_MAX, (tj.take 8).foldl max (tj.headD 0)), (Power.POWER_EST, (w / 10000 : Nat))])

/-! ### Barn channels -/

/-- A channel with no claim and no access for 1 s enters self-refresh (R555). -/
def execSelfRefreshEntry (dt chan : Nat) (s0 : State) : Res :=
  let s := s0.after dt
  let u := U.chan chan
  .next (if 24 ≤ chan ∨ s.unitState u ≠ stReady ∨ s.carries u = true ∨ s.clk < s.rn u unitWorkF + Config.second then s
    else s.wr u Chan.SELF_REFRESH 1)

/-- The scrubber reads one location: good (0), corrected (1) or uncorrectable (2); `last` ends a pass (R542). An offset
below 256 MB lies in the host region. -/
def execBarnScrub (dt chan offset result : Nat) (last : Bool) (s0 : State) : Res :=
  let s := s0.after dt
  let u := U.chan chan
  .next (if 24 ≤ chan ∨ s.chanFault chan = true then s
    else
      let s1 := if result = 1 then s.count u Ctr.Chan.CE_READS
        else if result = 2 then
          let s2 := s.barnError u 10 chan
          if offset < 0x10000000 then s2.setNv nvBadBurst ((chan * 0x10000000 + offset) / 64) 0 1 else s2
        else s
      if last then s1.count u Ctr.Chan.SCRUB_PASSES else s1)

/-- A channel fails training (`cause` 1), times out (2) or passes 64 uncorrectable bursts within 1 s (3), which the model
counts (R543). Its claims stay charged; the
sub-slots stored on it lose their frames (Table 20.4). -/
def execBarnChannelFault (dt chan cause : Nat) (s0 : State) : Res :=
  let s := s0.after dt
  let u := U.chan chan
  .next (if 24 ≤ chan ∨ s.chanFault chan = true ∨ (cause = 3 ∧ (s.burstsOfSecond chan).length ≤ 64) then s
    else
      let s1 := ((s.setUnitState u stFault).postEntry u 7 (s.unitState u).toNat cause 0).evidence 4 u
      let slots := (List.range 128).filter fun sl => s1.claims.any fun x => x.unit == U.gran sl && x.chan == chan
      slots.foldl (fun a sl => (List.range 8).foldl (fun b j =>
        if b.rb (U.sub sl j) Sub.ENABLE then b.subEnter sl j subLost 0 else b) (a.faultAccess (U.gran sl) 1 chan)) s1)

end Sys2Proof.Machine
end

