-- ==== Sys2Proof/Machine/Bulk.lean ====
section
/-!
DEFINITION. BACKGROUND writes of the Ledger and the Barn (R83, R455, R458), and the Watchman probes' configuration,
whole-second report and capture (R140, R573).
-/
namespace Sys2Proof.Machine

/-- A BACKGROUND operation ends with a code. -/
def State.finishBg (s : State) (b : BgOp) (code : Nat) : State :=
  State.closePart { s with bg := s.bg.filter (·.pid != b.pid) } b.pid code
/-- The first operation of an opcode that a thread started. -/
def State.bgFirst (s : State) (op th : Nat) : Option BgOp := s.bg.find? fun b => b.op == op && b.th == th

/-- Words written to the Ledger from an index, each atomically (R83). -/
def State.ldputs (s : State) (i : Nat) : List Word → State
  | [] => s
  | w :: t => (s.ldput i w).ldputs (i + 1) t

def judgeLdload (i : Issue) (s : State) : Judged :=
  { checks := [(.format, i.badFlags true false true false || i.sub != 0 || i.npw != i.params.length),
      (.range, i.group || decide (65536 < i.index + i.npw))]
    verdict := .start s 0xC0 i.index 0 (i.params.map fun w => (w.toNat : Int)) s.clk }
def execLdload (i : Issue) (s : State) : Res := .next (s.issue i .other (judgeLdload i))

/-- A Ledger load of thread `th` completes (R458). -/
def execLdloadDone (dt th : Nat) (s0 : State) : Res :=
  .next ((s0.after dt).onThreads (s0.bgFirst 0xC0 th).isSome fun s => match s.bgFirst 0xC0 th with
    | none => s
    | some b => (s.ldputs b.index (b.vals.map fun (v : Int) => BitVec.ofInt 64 v)).finishBg b 0)

def judgeBarnwr (i : Issue) (s : State) : Judged :=
  let w := (i.params.headD 0).toNat
  let len := 8 * (i.params.length - 1)
  { checks := [(.format, i.badFlags true false true false || i.sub != 0 || i.npw != i.params.length || i.npw == 0 || bitsAt w 63 40 != 0),
      (.range, i.group || i.index != 0 || w % 8 != 0 || decide (barnBytes < w + len))]
    verdict := .start s 0xC1 0 0 (i.params.map fun w => (w.toNat : Int)) s.clk }
def execBarnwr (i : Issue) (s : State) : Res := .next (s.issue i .other (judgeBarnwr i))

/-- A Barn write of thread `th` completes; one that meets a channel in FAULT reports FAULT (R454, R455). -/
def execBarnwrDone (dt th : Nat) (s0 : State) : Res :=
  .next ((s0.after dt).onThreads (s0.bgFirst 0xC1 th).isSome fun s => match s.bgFirst 0xC1 th with
    | none => s
    | some b =>
      let off := (b.vals.headD 0).toNat
      let ws := (b.vals.drop 1).map fun (v : Int) => BitVec.ofInt 64 v
      let bad := (chansOf off (8 * ws.length)).any s.chanFault
      (s.barnWrites off ws).finishBg b (if bad then Code.fault.num else 0))

/-! ### Watchman (R140) -/

/-- The capture under way: 0 none, 1 waits for line 1, 2 in its frame, 3 complete, 4 failed; bytes written so far; line
last taken. -/
def Probe.cap : Field := ⟨300, 3, false, 0⟩
def Probe.capBytes : Field := ⟨301, 0, false, 0⟩
def Probe.capLine : Field := ⟨302, 0, false, 0⟩
/-- TIMING: extremes of the running second, and whether it has any. -/
def Probe.minNow : Field := ⟨303, 0, true, 0⟩
def Probe.maxNow : Field := ⟨304, 0, true, 0⟩
def Probe.hasNow : Field := ⟨305, 1, false, 0⟩
/-- HASH: consecutive equal hashes, the running CRC register of the frame, and whether a hash has been formed. -/
def Probe.equal : Field := ⟨306, 0, false, 0⟩
def Probe.run : Field := ⟨307, 0, false, 0⟩
def Probe.hashed : Field := ⟨308, 1, false, 0⟩
/-- Lines of the frame so far. -/
def Probe.lines : Field := ⟨309, 0, false, 0⟩

/-- Bytes of one interface line as 40-bit beats of 5 bytes, four 10-bit words to a beat. -/
def lineBytes (r : Raster) : Nat := (r.words + 3) / 4 * 5
/-- The CAPTURE claim of a probe: the bytes of every line at the rate of the Cell's plan (notes/assumptions/23.md). -/
def State.captureClaims (s : State) (p : Nat) (vs : List Int) : List Claim :=
  let n := pn Probe.watchcfgParams vs
  let r := s.planRas (s.cellN (2624 + p) Cell.PLAN)
  let len := lineBytes r * (n Probe.LAST + 1 - n Probe.FIRST)
  if n Probe.FUNCTION = 3 then hostClaims (U.probe p) 0 (ceilDiv (lineBytes r * r.lines * r.num) r.den) (n Probe.ADDR) len else []

def watchcfgChecks (s : State) (vs : List Int) (p : Nat) : Checks :=
  let n := pn Probe.watchcfgParams vs
  let d := 2624 + p
  let r := s.planRas (s.cellN d Cell.PLAN)
  [(.range, !paramsOk Probe.watchcfgParams vs || decide (n Probe.LAST < n Probe.FIRST) || n Probe.ADDR % 8 != 0 ||
      (n Probe.FUNCTION == 1 && s.cellTimed d) ||
      (n Probe.FUNCTION == 3 && decide (barnBytes < n Probe.ADDR + lineBytes r * (n Probe.LAST + 1 - n Probe.FIRST))))]

def judgeWatchcfg (i : Issue) (s : State) : Judged :=
  let pr := getParams Probe.watchcfgParams false i
  let vs := pr.getD []
  let ts := elements i 64
  let p := (ts.getD []).headD 0
  let reqs : List Request := match s.captureClaims p vs with
    | [] => []
    | l => [⟨U.probe p, 0, 0, 0, some l⟩]
  let (adm, best) := s.admitAll reqs
  { checks := (.format, i.badFlags true false true false || pr.isNone) :: (.bandwidth, adm.isNone) :: eachTarget ts (watchcfgChecks s vs)
    verdict := .stage [⟨s.cellN (2624 + p) Cell.PLAN, 0, [⟨U.probe p, 0⟩], [U.cell (2624 + p)], .cfg 0x55 p 0 vs⟩]
    claims := adm.getD []
    refuse := fun a => a.countRefusal best }
def execWatchcfg (i : Issue) (s : State) : Res := .next (s.issue i (.ticked 0x55) (judgeWatchcfg i))

/-- A probe's configuration commits. A CAPTURE that it replaces ends with CONFLICT; a CAPTURE it begins owes its code
until it completes (R140). -/
def State.commitWatchcfg (s : State) (p : Nat) (vs : List Int) (pid th : Nat) : State :=
  let u := U.probe p
  let old := s.bg.filter fun b => b.op == 0x55 && b.index == p
  let s1 := old.foldl (fun a b => a.finishBg b Code.conflict.num) s
  let claims := s.captureClaims p vs
  let fn := pn Probe.watchcfgParams vs Probe.FUNCTION
  let s2 := ((s1.wrParams u Probe.watchcfgParams vs).setClaims u claims).wrs u
    [(Probe.cap, if fn = 3 then 1 else 0), (Probe.CAPT_BUSY, if fn = 3 then 1 else 0), (Probe.capBytes, 0), (Probe.equal, 0), (Probe.hashed, 0),
     (Probe.hasNow, 0), (Probe.lines, 0)]
  if fn = 3 then { s2 with bg := s2.bg ++ [⟨pid, th, 0x55, p, 0, vs, s2.clk⟩] } else s2.closePart pid 0

/-- A TIMING probe shows the extremes of the second that has ended, 0 where no line fell in it (Table 4.8). -/
def execWatchSecond (dt probe : Nat) (s0 : State) : Res :=
  let s := s0.after dt
  let u := U.probe probe
  .next (s.ifUp [U.cell (2624 + probe)] (if 64 ≤ probe ∨ s.now % Config.second ≠ 0 ∨ s.rn u Probe.FUNCTION ≠ 1 then s
    else s.wrs u [(Probe.OFFSET_MIN, if s.rb u Probe.hasNow then s.rd u Probe.minNow else 0),
      (Probe.OFFSET_MAX, if s.rb u Probe.hasNow then s.rd u Probe.maxNow else 0), (Probe.hasNow, 0)]))

/-- A CAPTURE has written its last line: DONE, or FAULT where a channel failed it (Table 20.4). -/
def execCaptureDone (dt probe : Nat) (s0 : State) : Res :=
  let s := s0.after dt
  let u := U.probe probe
  .next (match s.bg.find? fun b => b.op == 0x55 && b.index == probe with
    | none => s
    | some b =>
      if s.rn u Probe.cap < 3 then s
      else ((s.wrs u [(Probe.cap, 0), (Probe.CAPT_BUSY, 0)]).setClaims u []).finishBg b (if s.rn u Probe.cap = 3 then 0 else Code.fault.num))

end Sys2Proof.Machine
end

