-- ==== Sys2Proof/Machine/Postbox.lean ====
section
/-!
DEFINITION. The Postbox: receipt of an errand, its ACCEPT and FINAL replies, the reply rings, retransmissions and the
start of execution (R85 to R95, R100, R494 to R497).
-/
namespace Sys2Proof.Machine

/-! Queue bookkeeping beside Tables 3.4 and 18.7: whether an errand has been accepted since reset, the CRC word and
identifier (plus one) of the most recent one, and the SEQ of the reply last completed (Table 18.4). -/
def Queue.any : Field := ⟨300, 1, false, 0⟩
def Queue.lastCrc : Field := ⟨301, 64, false, 0⟩
def Queue.lastId : Field := ⟨302, 0, false, 0⟩
def Queue.replySeq : Field := ⟨303, 16, false, 0⟩

/-- Words of an errand queue and of a reply ring (R85, R93). -/
abbrev ringWords : Nat := 131072

/-! ### Errand header (Table 3.2) -/

def hLength (w : Word) : Nat := bitsAt w.toNat 15 0
def hQueue (w : Word) : Nat := bitsAt w.toNat 19 16
def hMode (w : Word) : Nat := bitsAt w.toNat 21 20
def hPlan (w : Word) : Nat := bitsAt w.toNat 27 24
def hSeq (w : Word) : Nat := bitsAt w.toNat 47 32
/-- Reserved bits of the header are 0 and REV is 1. -/
def hdrOk (w : Word) : Bool :=
  bitsAt w.toNat 23 22 == 0 && bitsAt w.toNat 31 28 == 0 && bitsAt w.toNat 55 48 == 1 && bitsAt w.toNat 63 56 == 0
/-- Target words of a mode (Table 3.3). -/
def targetWords (mode : Nat) : Nat := if mode = 1 then 1 else if mode = 2 then 2 else 0
/-- Instruction words of an errand. -/
def instrWords (ws : List Word) : List Word := (ws.drop (1 + targetWords (hMode (ws.headD 0)))).dropLast

/-! ### Walking the instruction words; `skip` words still belong to the instruction before -/

/-- SALVO and ENDSALVO brackets are balanced and not nested (R88). -/
def bracketsOk : List Word → Nat → Bool → Bool
  | [], _, isOpen => !isOpen
  | _ :: t, skip + 1, isOpen => bracketsOk t skip isOpen
  | w :: t, 0, isOpen =>
    if opcodeOf w = 6 then !isOpen && bracketsOk t (instrLen w - 1) true
    else if opcodeOf w = 7 then isOpen && bracketsOk t (instrLen w - 1) false
    else bracketsOk t (instrLen w - 1) isOpen

/-- Every branch goes forward, at most to the CRC word (R88, R450). -/
def jumpsOk : List Word → Nat → Bool
  | [], _ => true
  | _ :: t, skip + 1 => jumpsOk t skip
  | w :: t, 0 =>
    let imm := bitsAt w.toNat 31 0
    (if opcodeOf w = 2 ∨ opcodeOf w = 3 then decide (1 ≤ imm) && decide (imm ≤ t.length + 1) else true) && jumpsOk t (instrLen w - 1)

/-- Words of return data of one instruction (Table 16.7). -/
def dataLen (w : Word) : Nat :=
  if opcodeOf w = 0xE0 then bitsAt w.toNat 47 40 else if opcodeOf w = 0xE1 then 1 else if opcodeOf w = 0xE2 then 2
  else if opcodeOf w = 0x31 then 1 else 0
/-- The queries of an errand: place among the instruction words and words of data. -/
def queries : List Word → Nat → Nat → List (Nat × Nat)
  | [], _, _ => []
  | _ :: t, skip + 1, k => queries t skip (k + 1)
  | w :: t, 0, k => (if dataLen w = 0 then [] else [(k, dataLen w)]) ++ queries t (instrLen w - 1) (k + 1)
/-- Salvos that the instruction words open. -/
def salvoCount : List Word → Nat → Nat
  | [], _ => 0
  | _ :: t, skip + 1 => salvoCount t skip
  | w :: t, 0 => (if opcodeOf w = 6 then 1 else 0) + salvoCount t (instrLen w - 1)

/-- Words of the largest possible FINAL reply with its frame word (R494). -/
def maxFinal (is : List Word) : Nat :=
  3 + (is.length + 7) / 8 + salvoCount is 0 + ((queries is 0 0).map (·.2)).foldl (· + ·) 0

/-! ### Checks on receipt (R87, R88) -/

/-- Step 1: the word count differs from LENGTH, or the CRC does not match. -/
def integrityBad (ws : List Word) (whole : Bool) : Bool :=
  !whole || decide (ws.length < 2) || hLength (ws.headD 0) != ws.length ||
    bitsAt (ws.getLastD 0).toNat 31 0 != crc32 (ws.dropLast.map (·.toNat))

/-- Step 2, for an errand written to queue `q`. -/
def formatBad (q : Nat) (ws : List Word) : Bool :=
  let h := ws.headD 0
  let is := instrWords ws
  let t1 := (ws.getD 1 0).toNat
  let t2 := (ws.getD 2 0).toNat
  !hdrOk h || hQueue h != q || (hMode h == 0 && hPlan h != 0) ||
    (hMode h == 2 && (bitsAt t1 63 48 != 0 || decide (1000000000 ≤ t2))) ||
    bitsAt (ws.getLastD 0).toNat 63 32 != 0 || decide (ws.length < 3 + targetWords (hMode h)) ||
    !bracketsOk is 0 false || !jumpsOk is 0 || decide (65536 < maxFinal is)

/-! ### Queues and rings -/

/-- WORDS_QUEUED: words held, the errand executing and waiting retransmissions included (Table 3.4, R89). -/
def State.wordsQueued (s : State) (q : Nat) : Nat :=
  ((s.errands.filter fun e => e.queue == q && (decide (e.phase ≤ 1) || e.phase == 4)).map (·.length)).foldl (· + ·) 0
/-- The errand at the head of a queue. -/
def State.headErrand (s : State) (q : Nat) : Option Errand :=
  s.errands.find? fun e => e.queue == q && (decide (e.phase ≤ 1) || e.phase == 4)
/-- Ring words free. -/
def State.replyRoom (s : State) (q : Nat) : Nat := ringWords - s.rn (U.queue q) Queue.REPLY_WORDS

/-- The instant a TIME errand names (Table 3.3), in grains. -/
def timeTarget (ws : List Word) : Nat :=
  bitsAt (ws.getD 1 0).toNat 47 0 * Config.second + (ws.getD 2 0).toNat * Config.ns
/-- The intended tick on PLAN: n, or the first tick at or after T while the plan is enabled (Table 3.6). -/
def State.targetTick (s : State) (e : Errand) : Option Int :=
  if e.mode = 1 then some e.target
  else if e.mode = 2 && s.planOn e.plan then some (s.firstTickFrom e.plan e.target)
  else none
/-- The target releases the errand: tick n - 1 has occurred, or the mode waits for none (R100); a copy that is brought up
to date waits for no tick (R437). -/
def State.releases (s : State) (e : Errand) : Bool :=
  if s.rb U.twin Twin.replaying then true
  else if e.mode = 1 ∨ e.mode = 2 then
    match s.targetTick e with
    | some n => s.planOn e.plan && decide (n ≤ s.rd (U.plan e.plan) Plan.TICK + 1)
    | none => false
  else true

/-- Words of a reply ring written at REPLY_WR_PTR, which moves past them (R496). -/
def State.ringPut (s : State) (q : Nat) (ws : List Word) : State :=
  let u := U.queue q
  let wp := s.rn u Queue.REPLY_WR_PTR
  let m := ((List.range ws.length).zip ws).foldl (fun m e => Tbl.set ⟨q, (wp + e.1) % ringWords⟩ 0 e.2 m) s.replies
  State.wrs { s with replies := m } u
    [(Queue.REPLY_WR_PTR, (wp + ws.length) % ringWords), (Queue.REPLY_WORDS, s.rd u Queue.REPLY_WORDS + ws.length)]

/-- A reply posted in the ring of queue `q`, after its frame word, with the interrupt of R498. -/
def State.ringReply (s : State) (q : Nat) (ws : List Word) : State :=
  ((s.ringPut q (BitVec.ofNat 64 ws.length :: ws)).wr (U.queue q) Queue.replySeq (bitsAt (ws.headD 0).toNat 15 0)).raiseIbi (q + 1)

/-- A reply goes to the ring of its queue, to the twin for an errand its host addressed to queue 8 (R495), or round
the Footpath to the origin of a queue 9 errand (R522). -/
def State.postReply (s : State) (q source : Nat) (ws : List Word) : State :=
  if source = 2 then s.alleySend 6 ws
  else if q = 9 then s.footSend 2 5 (ringWord (source - 3) (source - 3) 63 0 :: ws)
  else s.ringReply q ws

/-- Words 0 and 1 of a reply (Table 3.5). -/
def replyHead (seq q kind code count drops : Nat) (tick : Word) : List Word :=
  [BitVec.ofNat 64 (seq % 65536 + q % 16 * 2 ^ 16 + kind * 2 ^ 20 + code * 2 ^ 24 + count % 65536 * 2 ^ 32 + min drops 255 * 2 ^ 48), tick]
abbrev noTick : Word := BitVec.ofNat 64 (2 ^ 64 - 1)
/-- COUNT of an errand as its header gives it. -/
def countOf (ws : List Word) : Nat := hLength (ws.headD 0) - 2 - targetWords (hMode (ws.headD 0))

/-- ACCEPT reply of an errand refused with a code. -/
def State.refuseErrand (s : State) (q source : Nat) (ws : List Word) (c : Code) : State :=
  let s1 := s.countEvent (U.queue q) (if c = .integrity then Ctr.Queue.INTEGRITY else Ctr.Queue.FORMAT)
  s1.postReply q source (replyHead (hSeq (ws.headD 0)) q 1 c.num (countOf ws) 0 noTick)

/-- The errand goes to the twin with its queue and the system time of its arrival (R419). -/
def State.forwardErrand (s : State) (q : Nat) (ws : List Word) : State :=
  if s.rn U.twin Twin.ROLE == 1 && q != 8 && s.alleyUp then
    (s.alleySend 4 (BitVec.ofNat 64 q :: BitVec.ofNat 64 s.nowS :: BitVec.ofNat 64 s.nowNs :: ws)).count U.twin Ctr.Twin.ERRANDS_FORWARDED
  else s

/-- Errands that have their FINAL reply are kept only while a retransmission could still name them. -/
def State.dropFinished (s : State) : State :=
  { s with errands := s.errands.filter fun e => e.phase != 3 || s.rn (U.queue e.queue) Queue.lastId == e.id + 1 ||
      s.errands.any fun x => x.phase == 4 && x.target == e.id }

/-- Receipt of an errand in queue `q` (R88, R89, R92): `source` as in Errand, `whole` that the transfer held whole
words. Answers whether it was accepted. -/
def State.receiveErrand (s0 : State) (q source : Nat) (ws : List Word) (whole : Bool) : State :=
  let u := U.queue q
  let s := s0.count u Ctr.Queue.ERRANDS
  if integrityBad ws whole then s.refuseErrand q source ws .integrity
  else if formatBad q ws then s.refuseErrand q source ws .format
  else
    let h := ws.headD 0
    let crc := (ws.getLastD 0).toNat
    let any := s.rb u Queue.any
    let (id, s1) := s.fresh
    if any && hSeq h == s.rn u Queue.LAST_SEQ && crc == s.rn u Queue.lastCrc then
      let r : Errand := ⟨id, q, hSeq h, crc, source, s.now, 0, 0, s.rn u Queue.lastId - 1, ws.length, [], 4, 0, 0, [], [], none, []⟩
      State.forwardErrand ({ s1 with errands := s1.errands ++ [r] }.count u Ctr.Queue.RETRANSMITS) q ws
    else
      let target := if hMode h = 1 then (ws.getD 1 0).toNat else if hMode h = 2 then timeTarget ws else 0
      let e : Errand := ⟨id, q, hSeq h, crc, source, s.now, hMode h, hPlan h, target, ws.length, instrWords ws, 0, 0, 0, [], [], none, []⟩
      let tick : Word := match s.targetTick e with
        | some n => BitVec.ofInt 64 n
        | none => noTick
      let s2 := if any && hSeq h != (s.rn u Queue.LAST_SEQ + 1) % 65536 then s1.count u Ctr.Queue.SEQ_GAPS else s1
      let s3 := { s2 with errands := s2.errands ++ [{ e with acceptTick := tick.toNat }] }.wrs u
        [(Queue.any, 1), (Queue.LAST_SEQ, hSeq h), (Queue.lastCrc, crc), (Queue.lastId, id + 1)]
      (State.forwardErrand (s3.dropFinished.postReply q source (replyHead (hSeq h) q 1 0 (instrWords ws).length 0 tick)) q ws)

/-! ### The FINAL reply (R93 to R95) -/

/-- Final code of instruction word `k`: the first code other than DONE of what ran for it, in execution order. -/
def codeAt (ps : List Part) (k : Nat) : Nat :=
  ((ps.filter fun p => decide (p.idx ≤ k) && decide (k < p.idx + p.len)).map (·.code)).find? (· != 0) |>.getD 0
/-- Codes packed eight to a word. -/
def codeWords (cs : List Nat) : List Word :=
  (List.range ((cs.length + 7) / 8)).map fun w =>
    BitVec.ofNat 64 ((List.range 8).foldl (fun a (j : Nat) => a + cs.getD (8 * w + j) 0 % 256 * 2 ^ (8 * j)) 0)

/-- The FINAL reply of an errand. A query that did not run leaves zero words of its length (R459). -/
def State.finalWords (s : State) (e : Errand) : List Word :=
  let ps := s.parts.filter fun p => p.errand == some e.id
  let codes := (List.range e.words.length).map (codeAt ps)
  let dat : List Word := (queries e.words 0 0).flatMap fun q =>
    match e.data.find? fun d => d.1 == e.head + q.1 with
    | some d => (d.2 ++ List.replicate q.2 (0 : Word)).take q.2
    | none => List.replicate q.2 (0 : Word)
  let tick : Word := match e.lastTick with
    | some n => BitVec.ofNat 64 n
    | none => noTick
  replyHead e.seq e.queue 2 0 e.words.length e.drops.length tick ++ codeWords codes ++ e.drops ++ dat

/-- Every instruction of the errand holds its final code. -/
def State.finalReady (s : State) (e : Errand) : Bool :=
  e.phase == 2 && (s.parts.filter fun p => p.errand == some e.id).all fun p => p.left == 0

/-- Post the FINAL reply of the first errand of the queue that is ready, once more for each retransmission that waits
for it (R89, R93). -/
def execFinalReply (dt queue : Nat) (s0 : State) : Res :=
  let own := s0.errands.any fun e => e.queue == queue && e.source != 1 && s0.finalReady e
  .next ((s0.after dt).onThreads own fun s => match s.errands.find? fun e => e.queue == queue && s.finalReady e with
    | none => s
    | some e =>
      let ws := s.finalWords e
      let n := 1 + e.repeats
      if e.source ≤ 1 && decide (s.replyRoom queue < n * (ws.length + 1)) then s
      else
        let s1 := (List.range n).foldl (fun a _ => a.postReply queue e.source ws) s
        let s2 := s1.setErrand { e with phase := 3, repeats := 0, final := ws }
        State.dropFinished { s2 with parts := s2.parts.filter fun p => p.errand != some e.id })

/-- The replies of a retransmitted errand are posted again once the ring has room for all of them; if the FINAL is
still to come it will be posted twice (R89). -/
def execReplyRepost (dt queue : Nat) (s0 : State) : Res :=
  let s := s0.after dt
  .next (match s.headErrand queue with
    | some r =>
      match s.errands.find? fun e => e.id == r.target with
      | some e =>
        let room := s.replyRoom queue
        let accept := replyHead e.seq queue 1 0 e.words.length 0 (BitVec.ofNat 64 e.acceptTick)
        let gone := { s with errands := s.errands.filter fun x => x.id != r.id }
        if r.phase ≠ 4 then s
        else if e.phase = 3 then
          if r.source ≤ 1 && decide (room < 3 + e.final.length + 1) then s
          else ((gone.postReply queue r.source accept).postReply queue r.source e.final).dropFinished
        else if r.source ≤ 1 && decide (room < 3 + maxFinal e.words) then s
        else (gone.postReply queue r.source accept).setErrand { e with repeats := e.repeats + 1 }
      | none => s
    | none => s)

/-- Ring words promised to FINAL replies of errands already started. -/
def State.finalsDue (s : State) (q : Nat) : Nat :=
  ((s.errands.filter fun e => e.queue == q && (e.phase == 1 || e.phase == 2)).map fun e => (1 + e.repeats) * maxFinal e.words).foldl (· + ·) 0

/-- The thread waiting on a queue. -/
def State.servingThread (s : State) (q : Nat) : Option Nat :=
  (List.range 64).find? fun t => s.th t Lamp.STATE == thQueueWait && s.thn t Lamp.QUEUE == q

/-- The serving thread begins the errand at the head of its queue, once its target releases it and the ring has room
for its largest FINAL reply (R90, R93, R100). -/
def execErrandExecutionStart (dt queue : Nat) (s0 : State) : Res :=
  let own := s0.errands.any fun e => e.queue == queue && e.source != 1 && e.phase == 0
  .next ((s0.after dt).onThreads own fun s => match s.headErrand queue, s.servingThread queue with
    | some e, some t =>
      if e.phase ≠ 0 || !s.releases e ||
          (decide (e.source ≤ 1) && decide (s.replyRoom queue < s.finalsDue queue + maxFinal e.words)) then s
      else
        let n := (s.targetTick e).getD 0
        (s.setErrand { e with phase := 1 }).wrs (U.thread t)
          [(Lamp.errand, e.id + 1), (Lamp.IN_ERRAND, 1), (Lamp.PC, e.head), (Lamp.STATE, thRunning), (Lamp.callIdx, 0), (Lamp.past, 0),
           (Lamp.tMode, if e.mode = 0 then 0 else if e.mode = 3 then 2 else 1), (Lamp.tPlan, e.plan), (Lamp.TARGET, n)]
    | _, _ => s)

end Sys2Proof.Machine
end

