-- ==== Sys2Proof/Machine/StookPorts.lean ====
section
/-!
DEFINITION. Stook ports and ASRC attachment: TDM and AES3 frames, their tap times, channel status, starts and stops, loss
of clock and lock (R351 to R361, R364).
-/
namespace Sys2Proof.Machine

/-- Side of a port: 0 receive, 1 transmit. Bookkeeping: when it started or began to stop, whether it starts again after a
stop, AES3 lock, channel status sent, place of the last transmitted frame's phase (four times, in grains). -/
def Stook.since : Field := ⟨300, 0, false, 0⟩
def Stook.again : Field := ⟨301, 1, false, 0⟩
def Stook.aesLock : Field := ⟨302, 1, false, 0⟩
def Stook.txCsA : Field := ⟨303, 192, false, 0⟩
def Stook.txCsB : Field := ⟨304, 192, false, 0⟩
def Stook.phi : Field := ⟨305, 0, true, 0⟩
def Stook.rampAt : Field := ⟨306, 0, true, 0⟩
def Stook.lostBy : Field := ⟨307, 2, false, 0⟩
/-- Device time of the last frame edge; AES3 frames in a row with good preambles and parity, and without good preambles. -/
def Stook.edgeAt : Field := ⟨308, 0, false, 0⟩
def Stook.aesGood : Field := ⟨309, 0, false, 0⟩
def Stook.aesBad : Field := ⟨310, 0, false, 0⟩
/-- Channel status latched by an ST 2110-31 context: subframes 1 and 2 of each pair, in its lists 20 and on. -/
abbrev stOffS : Int := 0
abbrev stStarting : Int := 1
abbrev stRunS : Int := 2
abbrev stLost : Int := 3
abbrev stStopping : Int := 4

/-- Channels of a side with these settings. -/
def stookChannels (vs : List Int) : Nat := if pn Stook.stookcfgParams vs Stook.MODE = 2 then 2 else pn Stook.stookcfgParams vs Stook.CHANNELS
def slotBits (slotw : Nat) : Nat := if slotw = 0 then 16 else if slotw = 1 then 24 else 32

/-! ### ASRC channels (R360) -/

/-- ASRC channels that a unit's attachment charges: one a channel, two at 96 kHz. -/
def State.asrcCharge (s : State) (u : Nat) : Nat :=
  if U.stookSide 0 0 ≤ u ∧ u < U.stookSide 16 0 then stookChannels (s.valsOf u Stook.stookcfgParams) * (1 + s.rn u Stook.RATE)
  else match s.feeds.find? (·.unit == u) with
    | some f => f.count * (1 + f.rate)
    | none => if U.deemb 0 ≤ u ∧ u < U.deemb 2304 then s.rn u Deemb.CHANNELS * (1 + s.rn u Deemb.RATE) else s.rn u Rx.CHANNELS
/-- Unit that `asrccfg` names. -/
def asrcUnit (kind k : Nat) : Nat :=
  match kind with
  | 0 => U.deemb k | 1 => U.rx k | 2 => U.stookSide k 0 | _ => U.stookSide k 1
/-- Units with ASRC attached, or to be attached by a staged instruction, with what they charge. -/
def State.asrcHeld (s : State) (but : Nat) : Nat :=
  let now := s.regs.filterMap fun e => if e.1.pos = Src.asrc.pos ∧ e.2 = 1 ∧ e.1.unit ≠ but then some (e.1.unit, s.asrcCharge e.1.unit) else none
  let staged := s.staged.filterMap fun e => match e.eff with
    | .cfg 0x6E k side vs => if pv Stook.stookcfgParams vs Stook.ASRC = 1 ∧ U.stookSide k side ≠ but then some (U.stookSide k side, stookChannels vs * (1 + pn Stook.stookcfgParams vs Stook.RATE)) else none
    | .cfg 0x6F k kind vs => if vs.headD 0 = 1 ∧ asrcUnit kind k ≠ but then some (asrcUnit kind k, s.asrcCharge (asrcUnit kind k)) else none
    | _ => none
  let all := now ++ staged
  ((all.map (·.1)).eraseDups).foldl (fun a u => a + ((all.filter (·.1 == u)).map (·.2)).foldl max 0) 0

def judgeAsrccfg (i : Issue) (s : State) : Judged :=
  let kind := i.sub % 4
  let en := bitsAt i.sub 2 2
  let n := if kind = 0 then 2304 else if kind = 1 then 8192 else 16
  let ts := if kind = 0 then targets i 0x23 (U.deemb 0) 2304 else if kind = 1 then targets i 0x0B (U.rx 0) 8192
    else targets i 0x25 (U.stookPort 0) 16
  let plan := fun k => if kind = 0 then s.kerbPlan k i.th else s.thn i.th Lamp.PLAN
  let want := (ts.getD []).foldl (fun a k => a + s.asrcCharge (asrcUnit kind k)) 0
  let others := (ts.getD []).foldl (fun (a : Nat) k => a - (if s.rb (asrcUnit kind k) Src.asrc then s.asrcCharge (asrcUnit kind k) else 0)) (s.asrcHeld 0xFFFFFF)
  { checks := (.format, i.badFlags true false true false || decide (8 ≤ i.sub) || i.npw != 0 || i.params != []) :: (.bandwidth, en == 1 && decide (1024 < others + want)) ::
      eachTarget ts fun k => [(.range, decide (n ≤ k) || (kind == 3 && en == 1 && !s.rb (U.stookSide k 1) Stook.CLOCK))]
    verdict := .stage ((ts.getD []).map fun k => ⟨plan k, 3, [⟨asrcUnit kind k, 0⟩], [asrcUnit kind k], .cfg 0x6F k kind [(en : Int)]⟩) }
def execAsrccfg (i : Issue) (s : State) : Res := .next (s.issue i (.ticked 0x6F) (judgeAsrccfg i))
def State.commitAsrccfg (s : State) (k kind : Nat) (vs : List Int) : State :=
  let u := asrcUnit kind k
  let en := vs.headD 0
  if s.rd u Src.asrc = en then s
  else
    let s1 := s.wrs u [(Src.asrc, en), (Src.asrcLock, 0), (Src.last, 0), (Src.offRate, 0), (Src.winAt, 0)]
    if 2 ≤ kind then s1.wrs u [(Stook.ASRC, en), (Stook.ASRC_LOCK, 0)] else s1

/-- An attached ASRC locks or loses lock; `range` tells an input outside 2 % of a supported rate (R360, Table 12.10). -/
def execAsrcLock (dt unit : Nat) (lock range : Bool) (s0 : State) : Res :=
  let s := s0.after dt
  let side := decide (U.stookSide 0 0 ≤ unit) && decide (unit < U.stookSide 16 0)
  .next (s.ifUp [unit] (if s.rb unit Src.asrc = false ∨ s.rb unit Src.asrcLock = lock then s
    else
      let s1 := s.wr unit Src.asrcLock (if lock then 1 else 0)
      let s2 := if side then s1.wr unit Stook.ASRC_LOCK (if lock then 1 else 0) else s1
      if lock then s2
      else if range then (s2.wr unit Src.last 0).countLimited unit (slipCtr unit + 3) 0x0605 0
      else (s2.wr unit Src.last 0).count unit (slipCtr unit + 3)))

/-! ### Settings (R352, R356) -/

def stookcfgChecks (s : State) (vs : List Int) (port side : Nat) : Checks :=
  let ps := Stook.stookcfgParams
  let n := pn ps vs
  let ch := stookChannels vs
  let rate := n Stook.RATE
  let size := if side = 0 then 131072 else 65536
  let u := U.stookSide port side
  [(.range, !paramsOk ps vs || decide (size ≤ n Stook.FIRST) || (n Stook.MODE == 1 && (decide (98304000 < rateHz rate * ch * slotBits (n Stook.SLOTW)) || (n Stook.FS_FORM == 1 && ch % 2 == 1))) ||
      (n Stook.MODE != 0 && (decide (size < n Stook.FIRST + ch * (1 + rate)) || (rate == 1 && n Stook.FIRST % 2 == 1)))),
   (.locked, side == 0 && (s.feedLocked (feedOf 0x6E port 0 vs) || s.sheafRateLock u (feedOf 0x6E port 0 vs))),
   (.bandwidth, n Stook.ASRC == 1 && decide (1024 < s.asrcHeld u + ch * (1 + rate)))]

def judgeStookcfg (i : Issue) (s : State) : Judged :=
  let pr := getParams Stook.stookcfgParams true i
  let vs := pr.getD []
  let side := i.sub % 2
  let ts := targets i 0x25 (U.stookPort 0) 16
  { checks := (.format, i.badFlags true false true false || pr.isNone || decide (2 ≤ i.sub)) :: eachTarget ts fun n => stookcfgChecks s vs n side
    verdict := .stage ((ts.getD []).map fun n => ⟨s.thn i.th Lamp.PLAN, 0, [⟨U.stookSide n side, 0⟩], [U.stookPort n, U.stookSide n side], .cfg 0x6E n side vs⟩) }
def execStookcfg (i : Issue) (s : State) : Res := .next (s.issue i (.ticked 0x6E) (judgeStookcfg i))

/-- A side starts: silence first (R356). -/
def State.startSide (s : State) (u : Nat) : State :=
  ((s.wrs u [(Stook.STATE, stStarting), (Stook.since, s.clk), (Stook.again, 0), (Src.last, 0), (Stook.lostBy, 0), (Stook.edgeAt, s.clk),
    (Stook.aesGood, 0), (Stook.aesBad, 0)]).setBuf u 1 []).count u Ctr.Stook.STARTS
def State.commitStookcfg (s : State) (port side : Nat) (vs : List Int) : State :=
  let ps := Stook.stookcfgParams
  let u := U.stookSide port side
  let mode := pv ps vs Stook.MODE
  let hard := [Stook.MODE, Stook.CLOCK, Stook.RATE, Stook.CHANNELS, Stook.SLOTW].any fun f => pv ps vs f != s.rd u f
  let asrcNew := pv ps vs Stook.ASRC
  let s1 := if s.rd u Src.asrc = asrcNew then s else s.wrs u [(Src.asrc, asrcNew), (Src.asrcLock, 0), (Stook.ASRC_LOCK, 0), (Src.last, 0)]
  let old := s.valsOf u ps
  let s2 := s1.wrParams u ps vs
  if s.rd u Stook.STATE = stOffS then (if mode = 0 then s2 else s2.startSide u)
  else if !hard then s2
  else if s.rd u Stook.STATE = stStopping then s2.wr u Stook.again (if mode = 0 then 0 else 1)
  else
    -- the settings that run until the stop has ended are kept in list 1
    (s2.wrs u [(Stook.STATE, stStopping), (Stook.since, s.clk), (Stook.again, if mode = 0 then 0 else 1), (Stook.aesLock, 0)]).setBuf u 1 old

/-- After 2 ms of silence a started side runs and ramps its samples in (R356). -/
def execStookStart (dt port side : Nat) (s0 : State) : Res :=
  let s := s0.after dt
  let u := U.stookSide port (side % 2)
  .next (s.ifUp [U.stookPort port] (if 16 ≤ port ∨ s.rd u Stook.STATE ≠ stStarting ∨ s.clk < s.rn u Stook.since + 2 * Config.ms then s
    else s.wrs u [(Stook.STATE, stRunS), (Stook.rampAt, s.rd u Src.last)]))

/-- A stopping side has ramped out and sent 2 ms of silence: its clocks stop, or it starts again (R352, R356). -/
def execStookStop (dt port side : Nat) (s0 : State) : Res :=
  let s := s0.after dt
  let u := U.stookSide port (side % 2)
  .next (s.ifUp [U.stookPort port] (if 16 ≤ port ∨ s.rd u Stook.STATE ≠ stStopping ∨ s.clk < s.rn u Stook.since + 3 * Config.ms then s
    else
      let s1 := ((s.wrs u [(Stook.STATE, stOffS), (Src.last, 0)]).setBuf u 1 []).wr (U.stookPort port) unitWorkF s.clk
      if s.rb u Stook.again then s1.startSide u else s1))

/-- A SLAVE side whose clock comes from pins of its own: a TDM side, or the word clock of an AES3 transmit side
(Table 12.5). -/
def State.stookSlave (s : State) (u side : Nat) : Bool :=
  s.rb u Stook.CLOCK && (s.rn u Stook.MODE == 1 || (side == 1 && s.rn u Stook.MODE == 2))

/-- A SLAVE side without bit clock or frame sync for 2 frame periods is lost (R364). -/
def execStookClockLoss (dt port side : Nat) (s0 : State) : Res :=
  let s := s0.after dt
  let u := U.stookSide port (side % 2)
  let st := s.rd u Stook.STATE
  .next (s.ifUp [U.stookPort port] (if 16 ≤ port ∨ s.stookSlave u (side % 2) = false ∨ st = stOffS ∨ st = stLost ∨ st = stStopping ∨
      (s.clk - s.rn u Stook.edgeAt) * rateHz (s.rn u Stook.RATE) < 2 * Config.second then s
    else (s.wrs u [(Stook.STATE, stLost), (Stook.lostBy, 1), (Src.last, 0)]).countLimited u Ctr.Stook.CLOCK_LOSS 0x0600 0))

/-- A frame reaches the AES3 receive side of a port, its preambles valid or not and its parity good or not: the side locks
after 8 frames in a row that are good in both, and loses lock after 2 in a row without valid preambles (R354). -/
def execAes3Lock (dt port : Nat) (preambles parity : Bool) (s0 : State) : Res :=
  let s := s0.after dt
  let u := U.stookSide port 0
  .next (s.ifUp [U.stookPort port] (if 16 ≤ port ∨ s.rn u Stook.MODE ≠ 2 ∨ s.rd u Stook.STATE = stOffS ∨ s.rd u Stook.STATE = stStopping then s
    else
      let good := if preambles && parity then s.rn u Stook.aesGood + 1 else 0
      let bad := if preambles then 0 else s.rn u Stook.aesBad + 1
      let s1 := s.wrs u [(Stook.aesGood, good), (Stook.aesBad, bad)]
      if s.rb u Stook.aesLock = false ∧ 8 ≤ good then
        let s2 := s1.wr u Stook.aesLock 1
        if s.rd u Stook.STATE = stLost then s2.wr u Stook.STATE stRunS else s2
      else if s.rb u Stook.aesLock = true ∧ 2 ≤ bad then
        (s1.wrs u [(Stook.aesLock, 0), (Stook.STATE, stLost), (Src.last, 0)]).countLimited u Ctr.Stook.AES_LOCK_LOSS 0x0604 0
      else s1))

/-! ### Receive frames (R353 to R355, R357) -/

/-- CRCC of a channel status block: bytes 0 to 22, x⁸+x⁴+x³+x²+1 from all ones (PRESUMED: AES3; notes/assumptions/19.md). -/
def csCrcc (cs : Nat) : Nat := crcLsb 0xB8 0xFF (bitsLsb 184 cs)
/-- A capture may be latched: not professional, or its CRCC agrees (R357). -/
def csGood (cs : Nat) : Bool := !bitAt cs 0 || bitsAt cs 191 184 == csCrcc cs
/-- Generated professional channel status: linear PCM, no emphasis, the sampling frequency, 24 bits (R358; PRESUMED
places as above). -/
def csGenerate (rate : Nat) : Nat :=
  let body := (if rate = 0 then 0x85 else 0x05) + 0x2C * 2 ^ 16 + (if rate = 0 then 0 else 0x10 * 2 ^ 32)
  body + csCrcc body * 2 ^ 184

/-- One subframe's C bit: collected over 192 frames from a block start, then latched (R357). `place` is the list that
collects, `f` the latched field. -/
def State.captureC (s : State) (u place : Nat) (f : Field) (z c : Bool) : State :=
  let have_ := s.buf u place
  let s1 := if z && have_.length == 192 then
      let cs := ofBitsLsb (have_.map (· != 0))
      if csGood cs then s.wr u f cs else s.countLimited u Ctr.Stook.CS_CRC_ERRORS 0 0
    else s
  let b : Int := if c then 1 else 0
  if z then s1.setBuf u place [b]
  else if have_.isEmpty ∨ 192 ≤ have_.length then s1.setBuf u place []
  else s1.setBuf u place (have_ ++ [b])

/-- V and U of a sample, kept by pool instant for slots that pass them (R358): list 2 of the a-channel. -/
def State.keepVU (s : State) (a : Nat) (m : Int) (v u : Bool) : State :=
  let l := (pairsOf (s.buf (U.ach a) 2)).filter fun e => decide (m - 2000 < e.1) && e.1 != m
  let x : Int := (if v then 1 else 0) + (if u then 2 else 0)
  s.setBuf (U.ach a) 2 ((if x = 0 then l else l ++ [(m, x)]).flatMap fun e => [e.1, e.2])

/-- Signed pool sample that a slot of `w` bits carries, at the pool's scale (R353). -/
def slotValue (w : Nat) (x : BitVec 32) : Int :=
  let v := x.toNat % 2 ^ w
  if w = 16 then signedAt 16 v * 4096 else if w = 24 then signedAt 24 v * 16 else signedAt 24 (v / 256) * 16
/-- What the two sub-frames of an AES3 frame say beside their samples: parity errors and V counted, channel status gathered, NONAUDIO (R355, R357). -/
def State.aesStatus (s : State) (u : Nat) (f : StookIn) : State :=
  let s2 := [0, 1].foldl (fun (a : State) q =>
    let b := if (f.parityBad.drop q).headD false then a.countLimited u Ctr.Stook.PARITY_ERRORS 0 0 else a
    if (f.v.drop q).headD false then b.count u Ctr.Stook.VALIDITY_SET else b) s
  let s3 := (s2.captureC u 2 Stook.CS_A f.z (f.c.headD false)).captureC u 3 Stook.CS_B f.z ((f.c.drop 1).headD false)
  s3.wr u Stook.NONAUDIO (if bitAt (s3.rn u Stook.CS_A) 1 then 1 else 0)
/-- The two samples of an AES3 frame: none for a parity error, nor for one marked invalid where V_MUTE says so (R355). -/
def aesValues (mute : Bool) (f : StookIn) : List (Option Int) :=
  ((f.words.take 2).zipIdx).map fun x =>
    if (f.parityBad.drop x.2).headD false || (mute && (f.v.drop x.2).headD false) then none else some (signedAt 24 (x.1.toNat % 2 ^ 24) * 16)
/-- A receive side whose source has left or re-entered its rate since `old` is LOST or RUNNING (R354). -/
def State.sideRated (old s : State) (u : Nat) : State :=
  if s.rb u Src.offRate && !old.rb u Src.offRate then s.wr u Stook.STATE stLost
  else if !s.rb u Src.offRate && old.rb u Src.offRate then s.wr u Stook.STATE stRunS else s

/-- A receive frame has ended: `age` grains since its FS edge or first preamble, its bit periods, its slot words, and for
AES3 the flags of each subframe and the block start (R353 to R357, R364). -/
def execStookRxFrame (dt port : Nat) (f : StookIn) (s0 : State) : Res :=
  let s := s0.after dt
  let u := U.stookSide port 0
  let st := s.rd u Stook.STATE
  .next (match feedOf 0x6E port 0 (s.valsOf u Stook.stookcfgParams) with
    | none => s
    | some fd =>
      if 16 ≤ port ∨ st = stOffS ∨ st = stStopping ∨ s.unitBad u = true ∨ s.unitBad (U.stookPort port) = true then s
      else
        let s1 := (if st = stLost && s.rn u Stook.lostBy == 1 then (s.wrs u [(Stook.STATE, stRunS), (Stook.lostBy, 0)]).post u 0x0601 0 else s).wr u
          Stook.edgeAt s.clk
        let tau : Int := ((s.now : Int) - f.age) * 10 / (32 * Config.ns) * (32 * Config.ns) / 10
        if s.rn u Stook.MODE = 1 then
          let w := slotBits (s.rn u Stook.SLOTW)
          if f.bits ≠ fd.count * w then s1.countLimited u Ctr.Stook.FRAMING_ERRORS 0x0602 0
          else State.sideRated s1 (s1.tapSource fd tau ((f.words.take fd.count).map fun x => some (slotValue w x))) u
        else if s.rb u Stook.aesLock = false then s1
        else
          let s5 := (s1.aesStatus u f).tapSource fd tau (aesValues (s.rb u Stook.V_MUTE) f)
          let m := if s5.followsDecisions then -(-((tau + 250 * Config.us) * rateHz fd.rate) / Config.second) else s5.rd u Src.last - 1
          let s6 := [0, 1].foldl (fun (a : State) q => a.keepVU (fd.first + q * (1 + fd.rate)) m ((f.v.drop q).headD false) ((f.u.drop q).headD false)) s5
          State.sideRated s1 s6 u)

/-! ### Channel status of a slot pair (R358) -/

/-- Latest channel status latched for an a-channel that carries one: AES3 receive sides keep it in CS_A and CS_B, ST
2110-31 contexts in list 20 + channel. -/
def State.achCs (s : State) (a : Nat) : Option Nat :=
  match s.feeder a with
  | none => none
  | some f =>
    if U.stookSide 0 0 ≤ f.unit ∧ f.unit < U.stookSide 16 0 then
      let cs := s.rn f.unit (if (a - f.first) / (1 + f.rate) % 2 = 0 then Stook.CS_A else Stook.CS_B)
      if s.rn f.unit Stook.MODE = 2 ∧ s.rb f.unit Stook.aesLock ∧ cs ≠ 0 then some cs else none
    else match s.buf f.unit (20 + (a - f.first)) with
      | [x] => some x.toNat
      | _ => none
/-- Channel status of output slot `sl`, that of its pair. -/
def State.slotCs (s : State) (sl : Nat) : Nat :=
  let even := sl - sl % 2
  let gen := csGenerate (s.slotRate even)
  if s.rb (U.slot even) Slot.CS_MODE then (s.achCs (s.rn (U.slot even) Slot.CS_ACH + sl % 2)).getD gen else gen
/-- V and U that travel with slot sample `u` (R358): 1 V, 2 U. -/
def State.slotVU (s : State) (sl : Nat) (u : Int) : Nat :=
  let even := sl - sl % 2
  let a := s.rn (U.slot even) Slot.CS_ACH + sl % 2
  if s.rb (U.slot even) Slot.CS_MODE && (s.achCs a).isSome then
    let m := u - (if s.slotRate even = 0 then 96 else 192) - s.rd (U.slot sl) Slot.DELAY
    (((pairsOf (s.buf (U.ach a) 2)).find? (·.1 == m)).map (·.2.toNat)).getD 0
  else 0

/-! ### Transmit frames (R355, R356, R359) -/

/-- Slot instant that a SLAVE side's frame with FS edge at `e` takes, by the mirror of R359: the instant, the slip (0 none,
1 repeat, 2 drop) and the phase. -/
def State.txInstant (s : State) (u : Nat) (e : Int) (own : Bool) : Int × Nat × Int :=
  let x := (e - 250 * Config.us) * rateHz (s.rn u Stook.RATE)
  let first := x / Config.second
  let prev := s.rd u Src.last - 1
  if s.rd u Src.last = 0 ∨ prev + 5 < first then (first, 0, 0)
  else
    let m := prev + 1
    let phi4 := 4 * (x - m * Config.second)
    if !own then (m, 0, phi4)
    else if phi4 < -(Config.second : Int) then (prev, 1, phi4)
    else if 5 * (Config.second : Int) ≤ phi4 then (m + 1, 2, phi4)
    else (m, 0, phi4)

/-- A slip of a transmit side, counted and posted (R359). -/
def State.txSlip (s : State) (u slip : Nat) : State :=
  if slip = 1 then s.countEventLimited u Ctr.Stook.SLIPS_REPEAT else if slip = 2 then s.countEventLimited u Ctr.Stook.SLIPS_DROP else s

/-- Gain of a start or stop ramp, as a fraction of `n` (R356): samples since its start, or `n` outside a ramp. -/
def rampIn (n k : Int) : Int := if k < 0 then 0 else if k + 1 < n then k + 1 else n

/-- Slot words of one transmit frame: each channel's sample, at slot sample `m`. A slot of the other rate gives values
that the spec does not state (notes/assumptions/17.md). -/
def State.txSamples (s : State) (first count rate : Nat) (m : Int) : List Int × State :=
  (List.range count).foldl (fun (a : List Int × State) q =>
    let sl := first + q * (1 + rate)
    if a.2.slotRate sl = rate then (a.1 ++ [a.2.slotOut sl m], a.2)
    else
      let (v, b) := a.2.free (2 ^ 28)
      (a.1 ++ [(v : Int) - 2 ^ 27], b)) ([], s)

/-- P bit of a subframe: even parity over time slots 4 to 31. -/
def parityOf (w : Nat) : Nat := ((bitsLsb 27 w).filter id).length % 2

/-- A SLAVE transmit side follows its clock: it leaves LOST after a lost clock, measures the rate, and is LOST while that is out of
range (R356, R359). -/
def State.txClock (s : State) (fd : Feed) (slave : Bool) (e : Int) : State :=
  let u := fd.unit
  let s1 := if s.rd u Stook.STATE = stLost ∧ s.rn u Stook.lostBy = 1 then (s.wrs u [(Stook.STATE, stRunS), (Stook.lostBy, 0)]).post u 0x0601 0 else s
  let s2 := if slave && !s.rb u Src.asrc then s1.measureRate fd e else s1
  if slave && s2.rb u Src.offRate then s2.wr u Stook.STATE stLost
  else if slave && s.rb u Src.offRate then s2.wr u Stook.STATE stRunS else s2
/-- What the frame for slot instant `m` leaves behind: the next instant, the slip and its report to the partner (R359, R361). -/
def State.txNote (s : State) (u : Nat) (slave : Bool) (e m phi : Int) (slip : Nat) : State :=
  let k := s.rn u Src.ordinal
  let s1 := (s.wrs u [(Src.last, m + 1), (Stook.edgeAt, s.clk), (Stook.phi, phi), (Src.ordinal, k + 1),
    (Src.slip, if slip = 0 then s.rd u Src.slip else ((2 * k + slip : Nat) : Int)),
    (Src.due, if slave && s.followsDecisions then ((e / Config.ms + 1) * Config.ms + 4 * Config.us) else 0)]).txSlip u slip
  if s1.rd u Stook.STATE = stRunS ∧ s1.rd u Stook.rampAt = 0 then s1.wr u Stook.rampAt m else s1
/-- `n` free samples: what an ASRC makes of its input (R360; notes/assumptions/17.md). -/
def State.freeSamples (s : State) (n : Nat) : List Int × State :=
  (List.range n).foldl (fun (a : List Int × State) _ => let (v, b) := a.2.free (2 ^ 28); (a.1 ++ [(v : Int) - 2 ^ 27], b)) ([], s)
/-- The ramp of a side: in from the end of the silent 2 ms, out from the start of a stop (R356). -/
def State.txGain (s : State) (u rate : Nat) (m : Int) : Int :=
  let len : Int := if rate = 0 then 48 else 96
  match s.rd u Stook.STATE with
  | 2 => rampIn len (m - s.rd u Stook.rampAt)
  | 4 => let gone := ((s.clk : Int) - s.rd u Stook.since) * rateHz rate / Config.second; max 0 (len - 1 - gone)
  | _ => 0
/-- The frame of samples `xs` leaves the port: TDM words, or AES3 subframes with V, U, C and P (R353 to R355, R358). Blocks begin where the
grid index is a multiple of 192; the channel status is taken there. -/
def State.stookFrame (s : State) (port mode width first rate : Nat) (m : Int) (whole : Bool) (xs : List Int) : State :=
  let u := U.stookSide port 1
  if mode = 1 then
    s.emit (.stook port (xs.map fun x =>
      if width = 0 then (out16 x % 2 ^ 16).toNat else if width = 1 then (out24 x % 2 ^ 24).toNat else (out24 x % 2 ^ 24).toNat * 256))
  else
    let i := (m % 192).toNat
    let s1 := if i = 0 then s.wrs u [(Stook.txCsA, s.slotCs first), (Stook.txCsB, s.slotCs (first + 1 + rate))] else s
    let sub := fun (q : Nat) =>
      let cs := s1.rn u (if q = 0 then Stook.txCsA else Stook.txCsB)
      let vu := if whole then s1.slotVU (first + q * (1 + rate)) m else 0
      let w := (out24 ((xs.drop q).headD 0) % 2 ^ 24).toNat + vu * 2 ^ 24 + (if bitAt cs i then 2 ^ 26 else 0)
      -- preamble 0 X, 1 Y, 2 Z above the 28 time slots
      w + parityOf w * 2 ^ 27 + (if q = 1 then 1 else if i = 0 then 2 else 0) * 2 ^ 28
    s1.emit (.stook port [sub 0, sub 1])

/-- A MASTER side's FS edge may stand here: within 5 ns of 250 µs after a grid instant, one frame to an instant (R355). -/
def State.masterEdge (s : State) (u rate : Nat) (e : Int) : Bool :=
  let x := (e - 250 * Config.us) * rateHz rate
  let m := Fx.round x Config.second
  decide ((x - m * Config.second).natAbs ≤ 5 * Config.ns * rateHz rate) && (s.rd u Src.last == 0 || decide (s.rd u Src.last ≤ m))

/-- The samples that a transmit side with settings `vs` sends next, the pool instant they are of, and whether they are at full gain; an ASRC without lock
sends zeros (R354, R356, R360, R364). -/
def State.stookOut (s : State) (u : Nat) (vs : List Int) : (List Int × Int × Bool) × State :=
  let n := pn Stook.stookcfgParams vs
  let rate := n Stook.RATE
  let len : Int := if rate = 0 then 48 else 96
  let slave := n Stook.CLOCK == 1
  let asrc := s.rb u Src.asrc
  let e : Int := s.now
  let s1 := s.txClock ⟨u, n Stook.FIRST, stookChannels vs, rate⟩ slave e
  let natural := Fx.round ((e - 250 * Config.us) * rateHz rate) Config.second
  let i := if slave && !asrc then s1.txInstant u e (!s1.followsDecisions) else (natural, 0, 0)
  let s2 := s1.txNote u slave e i.1 i.2.2 i.2.1
  let gain := s2.txGain u rate i.1
  let r := if asrc then s2.freeSamples (stookChannels vs) else s2.txSamples (n Stook.FIRST) (stookChannels vs) rate i.1
  let xs := if asrc && !s.rb u Src.asrcLock then r.1.map fun _ => 0 else r.1.map fun x => x * gain / len
  ((xs, i.1, gain == len), r.2)

/-- A transmit frame is sent at its FS edge, now (R353 to R356, R358 to R361). -/
def execStookTxFrame (dt port : Nat) (s0 : State) : Res :=
  let s := s0.after dt
  let u := U.stookSide port 1
  let st := s.rd u Stook.STATE
  let vs := if st = stStopping then s.buf u 1 else s.valsOf u Stook.stookcfgParams
  let n := pn Stook.stookcfgParams vs
  .next (if 16 ≤ port ∨ st = stOffS ∨ s.unitBad u = true ∨ s.unitBad (U.stookPort port) = true ∨
      (n Stook.CLOCK ≠ 1 ∧ s.masterEdge u (n Stook.RATE) s.now = false) then s
    else
      let r := s.stookOut u vs
      r.2.stookFrame port (n Stook.MODE) (n Stook.SLOTW) (n Stook.FIRST) (n Stook.RATE) r.1.2.1 r.1.2.2 r.1.1)

end Sys2Proof.Machine
end

