-- ==== Sys2Proof/Machine/Regmap.lean ====
section
/-!
DEFINITION. The register map: what every address of the windows reads, counters in live and snapshot form, and the
query instructions (R40, R434, R459, R460, R563 to R574).
-/
namespace Sys2Proof.Machine

/-! ### Counters (R463, R570) -/

/-- Counters a class lists for itself; the boot unit's list goes on with those of its two Footpath links. -/
def ownCtrs (c : Nat) : Nat :=
  match c with
  | 0x04 => 7 | 0x05 => 4 | 0x06 => 24 | 0x07 => 1 | 0x08 => 16 | 0x0A => 25 | 0x0B => 21 | 0x0C => 8 | 0x0D => 6
  | 0x12 => 15 | 0x14 => 2 | 0x16 => 4 | 0x17 => 5 | 0x19 => 5 | 0x21 => 1 | 0x23 => 8 | 0x24 => 3 | 0x25 => 1
  | 0x26 => 12 | 0x27 => 1 | 0x30 => 5 | 0x31 => 5 | 0x35 => 1 | 0x36 => 2 | 0x40 => 7 | 0x41 => 4 | 0x42 => 13
  | 0x44 => 2 | 0x50 => 27 | 0x51 => 3 | 0x52 => 4 | 0x53 => 25 | 0x54 => 14 | 0x58 => 2 | 0x59 => 2
  | _ => 0
/-- Members whose list a group unit shows as sums; groups of unlike members show none (R570). -/
def sumMembers (u : Nat) : List Nat := if u = U.audio ∨ u = U.tower then [] else U.members u
/-- Length of a unit's list: its own counters, then those of its members. -/
def ctrCount (u : Nat) : Nat :=
  ownCtrs (U.classOf u) + (match sumMembers u with
    | [] => 0
    | m :: _ => ownCtrs (U.classOf m) + (match sumMembers m with
      | [] => 0
      | n :: _ => ownCtrs (U.classOf n)))
/-- An array bank: its first element, its elements and the counters of each (R570). -/
def bankShape (u : Nat) : Option (Nat × Nat × Nat) :=
  if u = U.bankAch then some (U.ach 0, 131072, 2)
  else if u = U.bankSlot then some (U.slot 0, 65536, 8)
  else if u = U.bankCls then some (U.clsEntry 0, 16640, 1)
  else none
/-- Words that a unit's counters fill. -/
def ctrWords (u : Nat) : Nat :=
  match bankShape u with
  | some (_, n, k) => n * k
  | none => ctrCount u

/-- The j-th word of a unit's counters: its own, an element's, or the sum over the members (R40), each read once. -/
def State.ctrSum (s : State) : Nat → Nat → Nat → Nat
  | 0, u, j => s.ctr u j
  | fuel + 1, u, j =>
    match bankShape u with
    | some (base, _, k) => s.ctr (base + j / k) (j % k)
    | none =>
      if j < ownCtrs (U.classOf u) then s.ctr u j
      else (((sumMembers u).map fun m => s.ctrSum fuel m (j - ownCtrs (U.classOf u))).foldl (· + ·) 0) % 2 ^ 64
def State.ctrWord (s : State) (u j : Nat) : Nat := s.ctrSum 3 u j

/-- Every unit ID that Table 21.2 assigns. -/
def allUnits : List Nat := (List.range 0x8B21).filter fun u => U.classOf u != 0
/-- Counter entries in all (Table 17.3). -/
def totalCtrs : Nat := (allUnits.map ctrWords).foldl (· + ·) 0

/-- The live word at a byte offset of the unit register space (R570). -/
def State.liveCounter (s : State) (off : Nat) : Nat :=
  match allUnits.find? fun u => decide ((Config.counterBase u).toNat ≤ off) && decide (off < (Config.counterBase u).toNat + 8 * ctrWords u) with
  | some u => s.ctrWord u ((off - (Config.counterBase u).toNat) / 8)
  | none => 0

/-- Word k of a snapshot bank (Table 17.3, R570). -/
def State.snapWord (s : State) (bank k : Nat) : Nat :=
  if k < 8 then (Tbl.get ⟨bank, k⟩ 0 s.snapHdr).toNat
  else
    let i := k - 8
    let t := { s with ctrs := Tbl.get ⟨bank, 0⟩ [] s.snapCtrs }
    match allUnits.find? fun u => decide ((Config.snapshotIndex u).toNat ≤ i) && decide (i < (Config.snapshotIndex u).toNat + ctrWords u) with
    | some u => t.ctrWord u (i - (Config.snapshotIndex u).toNat)
    | none => 0

/-! ### Status fields -/

/-- What a status field shows: as stored, or as it follows from other state. -/
def State.shownField (s : State) (u : Nat) (f : Field) : Int :=
  let c := U.classOf u
  let stored := s.rd u f
  if c = 0x32 ∧ f = Plan.PHASE_NOW then s.phaseAt (u - 0x8480) s.now / Config.ns
  else if c = 0x04 ∧ f = Cell.STAGED then (if s.staged.any fun e => !e.armed && e.elems.any fun k => k.unit == u then 1 else 0)
  else if c = 0x16 ∧ f = Head.STAGED then (if s.staged.any fun e => !e.armed && e.elems.any fun k => k.unit == u then 1 else 0)
  else if c = 0x06 ∧ f = Trib.PID_VALID then (if s.clk ≤ s.rn (U.kerb (u - U.trib 0)) Kerb.pidUntil then stored else 0)
  else if c = 0x14 ∧ f = Scaler.STATE then s.ownState u
  else if c = 0x31 ∧ f = Queue.WORDS_QUEUED then s.wordsQueued (u - 0x8440)
  else if c = 0x31 ∧ f = Queue.WAITING then
    (match s.headErrand (u - 0x8440) with
      | some e => if e.phase = 0 ∧ s.releases e = false then 1 else 0
      | none => 0)
  else if c = 0x43 then
    (if f = Time.NOW_S then s.nowS else if f = Time.NOW_NS then s.nowNs else if f = Time.NOW_SUBNS then s.nowSub
     else if f = Time.MILESTONE then s.milestone else s.rn U.tower Tower.TRACEABLE)
  else if u = U.tower ∧ f = Tower.PHASE_PENDING then s.phasePending
  else if u = U.tower ∧ f = Tower.WTR_LEFT then s.wtrLeft
  else if u = U.twin ∧ f = Twin.ALLEY_LANES then s.alleyLanes
  else if u = U.twin ∧ f = Twin.HB_AGE then
    (if s.rb u Twin.hbAt then min 65535 ((s.clk + 1 - s.rn u Twin.hbAt) / Config.us) else 65535 : Nat)
  else if u = U.barn ∧ f = Barn.RT_TOTAL_MBS then (ceilDiv (deviceTotal s.claimSets (·.rt)) 1000000 : Nat)
  else if u = U.barn ∧ f = Barn.CAP_TOTAL_MBS then (ceilDiv (deviceTotal s.claimSets (·.cap)) 1000000 : Nat)
  else if c = 0x19 then
    let on := s.allClaims.filter fun x => x.chan == u - 0x7001
    (if f = Chan.RT_MBS then (ceilDiv (sumBy on (·.rt)) 1000000 : Nat) else if f = Chan.CAP_MBS then (ceilDiv (sumBy on (·.cap)) 1000000 : Nat)
     else if f = Chan.POOL_FREE_MB then ((s.poolBytes (u - 0x7001) - sumBy on (·.pool)) / 1048576 : Nat) else stored)
  else if u = U.power ∧ f = Power.DORMANT then (if s.dormant then 1 else 0)
  else if u = U.identity then
    (if f = Ident.SILICON_REV then Config.siliconRev.toNat else if f = Ident.GRADE then Config.grade.toNat
     else if f = Ident.DIE_ID then Config.dieId.toNat else stored)
  else stored

/-- Status fields of a class from offset 0x20 (Table 21.2). -/
def statusOf (c : Nat) : List Field :=
  match c with
  | 0x04 => Cell.status | 0x05 => Kerb.status | 0x06 => Trib.status | 0x07 => Avenue.status | 0x08 => Lane.status
  | 0x0A => Mac.status | 0x0B => Rx.status | 0x0C => Tx.status | 0x0D => Fwd.status | 0x11 => Gran.status
  | 0x12 => Sub.status | 0x14 => Scaler.status | 0x16 => Head.status | 0x17 => Layer.status | 0x18 => Barn.statusX
  | 0x19 => Chan.status | 0x21 => Mix.status | 0x23 => Deemb.status | 0x24 => Emb.status | 0x26 => Stook.status
  | 0x27 => Tap.status | 0x30 => Lamp.status | 0x31 => Queue.status ++ Queue.status2 | 0x32 => Plan.status
  | 0x40 => Tower.status | 0x41 => Cand.status | 0x42 => Ptp.status | 0x43 => Time.status | 0x44 => Capt.statusX
  | 0x50 => Twin.status | 0x51 => Harv.status | 0x52 => Crier.status | 0x53 => Boot.status | 0x54 => Hostp.status
  | 0x55 => Power.status | 0x56 => Arcade.statusX | 0x57 => Slew.status | 0x5A => Ident.status
  | _ => []

/-- Units whose fields follow the device throughout TAKEOVER_HOLD (R434). -/
def liveInHold (c : Nat) : Bool := [0x31, 0x43, 0x44, 0x50, 0x51, 0x52, 0x53, 0x54].contains c
/-- The state that a unit's status fields show. -/
def State.view (s : State) (c : Nat) : State :=
  match s.held with
  | some h => if liveInHold c then s else { s with clk := h.clk, tsOff := h.tsOff, regs := h.regs, staged := h.staged, claims := h.claims }
  | none => s

/-- Words of packed status fields of a unit. -/
def State.packed (s : State) (u : Nat) (fs : List Field) : List Word := pack fs (fs.map (s.shownField u))

/-- Word k of a unit block (R566, R567; Table 21.3). -/
def State.blockWord (s0 : State) (u k : Nat) : Nat :=
  let c := U.classOf u
  let s := s0.view c
  if c = 0 then 0
  else if k = 0 then
    u + c * 2 ^ 16 + (s.shownState u).toNat * 2 ^ 24 + (if s.unitEnabled u then 2 ^ 27 else 0) + U.parentOf u * 2 ^ 32
  else if k = 1 then (Config.counterBase u).toNat + (Config.snapshotIndex u).toNat * 2 ^ 32
  else if k < 4 then 0
  else if 8 ≤ k ∧ 2304 ≤ u ∧ u < 2432 then ((s.packed u Cell.statusX).getD (k - 8) 0).toNat
  else if 8 ≤ k ∧ 2624 ≤ u ∧ u < 2688 then ((s.packed (U.probe (u - 2624)) Probe.status).getD (k - 8) 0).toNat
  else ((s.packed u (statusOf c)).getD (k - 4) 0).toNat

/-! ### The unit register space (Table 21.4) -/

/-- Sixty-four detector flags from a channel on (R348). -/
def State.flagWord (s : State) (space first : Nat) (f : Field) : Nat :=
  (List.range 64).foldl (fun a (i : Nat) => a + (if first + i < spaceSize space && s.rb (chanUnit space (first + i)) f then 2 ^ i else 0)) 0
/-- Word at a byte offset of the detector flag arrays. -/
def State.flagsAt (s0 : State) (o : Nat) : Nat :=
  let s := s0.view 0
  if o < 0x4000 then s.flagWord 0 (8 * o) Det.SILENT else if o < 0x8000 then s.flagWord 0 (8 * (o - 0x4000)) Det.CLIPPED
  else if o < 0xC000 then s.flagWord 0 (8 * (o - 0x8000)) Det.DC else if o < 0xE000 then s.flagWord 1 (8 * (o - 0xC000)) Det.SILENT
  else if o < 0x10000 then s.flagWord 1 (8 * (o - 0xE000)) Det.CLIPPED
  else if o < 0x12000 then s.flagWord 1 (8 * (o - 0x10000)) Det.DC else 0

/-- Word at a byte offset (a multiple of 8) of the unit register space. -/
def State.unitSpace (s : State) (o : Nat) : Nat :=
  if o < 0x4000000 then s.blockWord (o / 0x400) (o % 0x400 / 8)
  else if o < 0x4010000 then (Tbl.get ⟨(o - 0x4000000) / 16, o % 16 / 8⟩ 0 s.crierRing).toNat
  else if o < 0x4012000 then (if o % 32 / 8 = 3 then 0 else (Tbl.get ⟨(o - 0x4010000) / 32, o % 32 / 8⟩ 0 s.compareLog).toNat)
  else if o < 0x4012200 then (Tbl.get ⟨0, (o - 0x4012000) / 8⟩ 0 s.ringReports).toNat
  else if o < 0x4013000 then 0
  else if o < 0x4013800 then (Tbl.get ⟨(o - 0x4013000) / 0x200, o % 0x200 / 8⟩ 0 s.captRing).toNat
  else if o < 0x4020000 then 0
  else if o < 0x4022000 then (List.range 4).foldl (fun a (i : Nat) => a + (Config.blueNoise ((o - 0x4020000) / 2 + i)).toNat * 2 ^ (16 * i)) 0
  else if o < 0x4030000 then 0
  else if o < 0x4040000 then
    let r := o % 0x1000 / 8
    (Tbl.get ⟨(o - 0x4030000) / 0x1000, r⟩ 0 s.layers).toNat
  else if o < 0x4052000 then s.flagsAt (o - 0x4040000)
  else if o < 0x4100000 then 0
  else if o < 0x4180000 then
    let l := s.buf (U.probe ((o - 0x4100000) / 0x2000)) 0
    let k := o % 0x2000 / 4
    (l.getD k 0).toNat % 2 ^ 32 + (l.getD (k + 1) 0).toNat % 2 ^ 32 * 2 ^ 32
  else if o < 0x5000000 then 0
  else if o < 0x5900000 then (Tbl.get ⟨(o - 0x5000000) / 0x100000, o % 0x100000 / 8⟩ 0 s.replies).toNat
  else if o < 0x6000000 then 0
  else if o < 0x6200000 then
    let n := (o - 0x6000000) / 32
    let t := s.view 0
    let sl := if n % 2 = 1 ∧ t.rb (U.slot (n - 1)) Slot.RATE then n - 1 else n
    ((pack (Slot.status ++ Slot.status2) ((Slot.status ++ Slot.status2).map (t.rd (U.slot sl)))).getD (o % 32 / 8) 0).toNat
  else if o < 0x6208000 then
    ((pack Loud.status (Loud.status.map ((s.view 0).rd (U.loud ((o - 0x6200000) / 32))))).getD (o % 32 / 8) 0).toNat
  else if o < 0x6210000 then 0
  else if o < 0x6212000 then ((pack Corr.statusX (Corr.statusX.map ((s.view 0).rd (U.corr ((o - 0x6210000) / 8))))).getD 0 0).toNat
  else if o < 0x8000000 then 0
  else if o < 0xA000000 then s.snapWord (if o < 0x9000000 then 0 else 1) (o % 0x1000000 / 8)
  else if o < 0xB000000 then s.liveCounter o
  else 0

/-! ### Windows (Table 21.1) -/

/-- Window of an address: 0 Ledger, 1 unit register space, 2 Sheaf, 3 Barn. -/
def windowOf (a : Nat) : Option Nat :=
  if 0x20000000 ≤ a ∧ a < 0x20080000 then some 0
  else if 0x40000000 ≤ a ∧ a < 0x50000000 then some 1
  else if 0x80000000 ≤ a ∧ a < 0x81000000 then some 2
  else if 0x100000000 ≤ a ∧ a < 0x280000000 then some 3
  else none

/-- Arcade target of a window, in the order of Table 18.9. -/
def targetOf (w : Nat) : Nat := U.target (w + 2)
/-- An access of `n` words counts as bursts of up to 16 beats at its master and its target (R502, R506). R15 lets a read change
only READS, BAD_ADDR, EARLY_READS and the events of Table 18.5, while the text after R506 has masters count TRANSACTIONS and
targets GRANTS, a read's among them: the model counts these too (DESIGN CHOICE, notes/assumptions/89.md). -/
def State.arcadeUse (s : State) (master a n : Nat) : State :=
  match windowOf a with
  | some w => (s.countBy master Ctr.Master.TRANSACTIONS ((n + 15) / 16)).countBy (targetOf w) Ctr.Target.GRANTS ((n + 15) / 16)
  | none => s

/-- The 64-bit word at an address in a window, read by an Arcade master; a Barn read may count (R550). -/
def State.arcadeRead (s : State) (master a : Nat) : Word × State :=
  match windowOf a with
  | some 0 => (s.ldword ((a - 0x20000000) / 8), s)
  | some 1 => (BitVec.ofNat 64 (s.unitSpace (a - 0x40000000)), s)
  | some 2 => (BitVec.ofNat 64 (s.entry ((a - 0x80000000) / 256) (a % 256 / 8)), s)
  | some _ => s.barnRead master (a - 0x100000000)
  | none => (0, s)
/-- Consecutive words. -/
def State.arcadeReads (s : State) (master a : Nat) : Nat → List Word × State
  | 0 => ([], s)
  | n + 1 =>
    let (w, s1) := s.arcadeRead master a
    let (ws, s2) := s1.arcadeReads master (a + 8) n
    (w :: ws, s2)

/-- The address is a multiple of 8 and `n` words from it lie in one window (R460). -/
def addrOk (a n : Nat) : Bool := a % 8 == 0 && (windowOf a).isSome && windowOf (a + 8 * (n - 1)) == windowOf a

/-! ### Query instructions (R459, R460) -/

/-- Master number of the Lamplighter table port (Table 18.8). -/
abbrev lampPort : Nat := U.master 0

def judgeRd (i : Issue) (s : State) : Judged :=
  let ok := addrOk i.addr i.qN && i.qN != 0
  let (ws, s1) := if ok then (s.arcadeUse lampPort i.addr i.qN).arcadeReads lampPort i.addr i.qN else (List.replicate i.qN 0, s)
  let direct := s.rb (U.thread i.th) Lamp.IN_ERRAND
  { checks := [(.format, i.badFlags false false false false || !i.params.isEmpty), (.range, !ok || (!direct && decide (1 < i.qN)))]
    verdict := .act (s1.gset i.th i.qD (ws.headD 0)), data := ws, permit := 1, recovery := true }
def execRd (i : Issue) (s : State) : Res := .next (s.issue i .other (judgeRd i))

def judgeRdind (i : Issue) (s : State) : Judged :=
  let a := (s.gget i.th i.xA).toNat
  let ok := addrOk a 1
  let (w, s1) := if ok then (s.arcadeUse lampPort a 1).arcadeRead lampPort a else (0, s)
  { checks := [fmtX i false false true true false false false, (.range, !ok)]
    verdict := .act (s1.gset i.th i.xD w), data := [w], permit := 1 }
def execRdind (i : Issue) (s : State) : Res := .next (s.issue i .other (judgeRdind i))

def judgeRdtime (i : Issue) (s : State) : Judged :=
  let a : Word := BitVec.ofNat 64 (s.nowS % 2 ^ 48 + s.nowSub % 2 ^ 16 * 2 ^ 48)
  let b : Word := BitVec.ofNat 64 (s.nowNs + s.milestone % 2 ^ 32 * 2 ^ 32)
  { checks := [fmtX i false false true false false false false, (.range, i.xD % 2 == 1)]
    verdict := .act ((s.gset i.th i.xD a).gset i.th (i.xD + 1) b), data := [a, b], permit := 1, recovery := true }
def execRdtime (i : Issue) (s : State) : Res := .next (s.issue i .other (judgeRdtime i))

end Sys2Proof.Machine
end

