-- ==== Sys2Proof/Machine/Harvest.lean ====
section
/-!
DEFINITION. The Harvest unit: arming, target instants, capture, snapshot banks and the TAKE_IN edge (R103, R467 to R474).
-/
namespace Sys2Proof.Machine

/-- Target instant of the armed capture in grains of system time (0: not yet known), whether it was moved (R468), and
when (in `clk`, plus one) the capture whose copy runs was taken. -/
def Harv.target : Field := ⟨300, 0, false, 0⟩
def Harv.late : Field := ⟨301, 1, false, 0⟩
def Harv.copying : Field := ⟨302, 0, false, 0⟩

abbrev harvestGrid : Nat := 100 * Config.us
/-- First multiple of 100 us at or after an instant. -/
def gridFrom (t : Nat) : Nat := (t + harvestGrid - 1) / harvestGrid * harvestGrid

/-- The target instant becomes known: it is moved where it lies less than 20 us ahead, or before the previous copy's
end, which lies within 1 ms of its own target (R468, R471). -/
def State.setTarget (s : State) (t : Nat) : State :=
  let copyEnd := if s.rb U.harvest Harv.copying then s.now + s.rn U.harvest Harv.copying - 1 + Config.ms - s.clk else 0
  let least := max (s.now + 20 * Config.us) copyEnd
  let late := decide (t < least)
  let t' := if late then gridFrom least else t
  let s1 := s.wrs U.harvest [(Harv.target, t'), (Harv.late, if late then 1 else 0), (Harv.ARMED_T_S, t' / Config.second),
    (Harv.ARMED_T_NS, t' % Config.second / Config.ns)]
  if late then s1.count U.harvest Ctr.Harv.HARVEST_LATE else s1

/-- A capture that is armed is replaced (R469). -/
def State.supersedeHarvest (s : State) : State :=
  if s.rb U.harvest Harv.ARMED then
    (s.count U.harvest Ctr.Harv.HARVEST_SUPERSEDED).post U.harvest 0x0021 ((s.rn U.harvest Harv.LAST_SEQ + 1) % 2 ^ 32)
  else s

/-- Reference instant of a NOW capture: the arrival of the errand, or execution in a Ledger program (Table 17.2). -/
def State.harvestRef (s : State) (t : Nat) : Nat :=
  match s.errandOf t with
  | some e => e.arrival
  | none => s.now

/-- Arm a capture (R467, R469). -/
def State.armHarvest (s : State) (t trigger at_ : Nat) : State :=
  let s1 := s.supersedeHarvest.wrs U.harvest [(Harv.ARMED, 1), (Harv.ARMED_TRIGGER, trigger), (Harv.ARMED_T_S, 0),
    (Harv.ARMED_T_NS, 0), (Harv.target, 0), (Harv.late, 0)]
  if trigger = 0 then s1.setTarget (gridFrom (s.harvestRef t + 50 * Config.us))
  else if trigger = 1 then s1.setTarget at_ else s1

def judgeHarvest (i : Issue) (s : State) : Judged :=
  let trigger := i.sub % 4
  let sec := (i.params.getD 0 0).toNat
  let ns := (i.params.getD 1 0).toNat
  let at_ := sec * Config.second + ns * Config.ns
  { checks := [(.format, i.badFlags false false false false || i.npw != i.params.length || i.sub != trigger ||
        i.npw != (if trigger = 1 then 2 else 0) || decide (2 ^ 48 ≤ sec) || decide (2 ^ 32 ≤ ns)),
      (.range, i.index != 0 || trigger == 3 || (trigger == 1 && (decide (1000000000 ≤ ns) || at_ % harvestGrid != 0)))]
    verdict := .act (s.armHarvest i.th trigger at_), permit := 1 }
def execHarvest (i : Issue) (s : State) : Res := .next (s.issue i .other (judgeHarvest i))

/-- A TAKE_IN rising edge: STROBE banks are released, and a TAKE_IN capture learns its target (R103, R467). -/
def execTakeInEdge (dt : Nat) (s0 : State) : Res :=
  let s := (s0.after dt).releaseArmed
  .next (if s.rb U.harvest Harv.ARMED ∧ s.rn U.harvest Harv.ARMED_TRIGGER = 2 ∧ s.rn U.harvest Harv.target = 0 then
    s.setTarget (gridFrom (s.now + 20 * Config.us)) else s)

/-- Word 1 of a bank (Table 17.3). -/
def harvestWord1 (sec trigger late standby state : Nat) : Word :=
  BitVec.ofNat 64 (sec % 2 ^ 48 + trigger * 2 ^ 48 + late * 2 ^ 50 + standby * 2 ^ 51 + state * 2 ^ 52)

/-- A snapshot is taken: words 1 and 2 of its bank's header, and every counter as it is. -/
def State.freezeSnap (s : State) (bank : Nat) (w1 w2 : Word) : State :=
  { s with snapHdr := Tbl.set ⟨bank, 2⟩ 0 w2 (Tbl.set ⟨bank, 1⟩ 0 w1 s.snapHdr), snapCtrs := Tbl.set ⟨2, 0⟩ [] s.ctrs s.snapCtrs }
/-- The target instant: every unit captures its counters, and the bank begins to fill (R470, R472, R473). -/
def execHarvestCapture (dt : Nat) (s0 : State) : Res :=
  let s := s0.after dt
  let t := s.rn U.harvest Harv.target
  .next (s.ifUp [U.harvest] (if s.rb U.harvest Harv.ARMED ∧ 0 < t ∧ t ≤ s.now + 2 * Config.ns ∧ s.rb U.harvest Harv.copying = false then
    let bank := (s.rn U.harvest Harv.LAST_SEQ + 1) % 2
    let w1 := harvestWord1 (t / Config.second) (s.rn U.harvest Harv.ARMED_TRIGGER) (s.rn U.harvest Harv.late)
      (if s.isStandby then 1 else 0) 1
    let w2 : Word := BitVec.ofNat 64 (t % Config.second / Config.ns + totalCtrs * 2 ^ 32)
    (s.freezeSnap bank w1 w2).wrs U.harvest [(Harv.ARMED, 0), (Harv.ARMED_TRIGGER, 0), (Harv.ARMED_T_S, 0), (Harv.ARMED_T_NS, 0),
      (Harv.target, 0), (Harv.late, 0), (Harv.copying, s.clk + 1)]
  else s))

/-- The copy completes: SEQ is written, then STATE = COMPLETE (R471, R473). -/
def execHarvestDone (dt : Nat) (s0 : State) : Res :=
  let s := s0.after dt
  .next (s.ifUp [U.harvest] (if s.rb U.harvest Harv.copying then
    let seq := s.rn U.harvest Harv.LAST_SEQ + 1
    let bank := seq % 2
    let w1 : Word := BitVec.ofNat 64 ((Tbl.get ⟨bank, 1⟩ 0 s.snapHdr).toNat + 2 ^ 52)
    let s1 := { s with snapHdr := Tbl.set ⟨bank, 1⟩ 0 w1 (Tbl.set ⟨bank, 0⟩ 0 (BitVec.ofNat 64 seq) s.snapHdr)
                       snapCtrs := Tbl.set ⟨2, 0⟩ [] [] (Tbl.set ⟨bank, 0⟩ [] (Tbl.get ⟨2, 0⟩ [] s.snapCtrs) s.snapCtrs) }
    ((s1.wrs U.harvest [(Harv.LAST_SEQ, seq), (Harv.copying, 0)]).count U.harvest Ctr.Harv.HARVESTS).post U.harvest 0x0020 (seq % 2 ^ 32)
  else s))

end Sys2Proof.Machine
end

