-- ==== Sys2Proof/Machine/TwinState.lean ====
section
/-!
DEFINITION. Twin operation: roles and pins, heartbeat bodies, manifests, the copy that replication sends, compare
records, local evidence and the suspect policy (R412 to R440). The bodies of MANIFEST, SUSPECT, REPLICA and STEP
messages are the model's own: the spec gives what they carry and no layout (notes/assumptions/25.md).
-/
namespace Sys2Proof.Machine

/-- Level last driven on TWIN_OK; when the SEEKING state was entered; slot of the last heartbeat sent (plus one);
HB_SEQ sent and received, and whether one was received; runs of skewed slots, of role disagreements and agreements, of
missing slots, and of ROLE_IN high; start of the dual-active interval (plus one); partner's PAIR, SWITCHING and MINOR;
MSG_SEQ of the newest manifest; a refusal of the pairing; the Alley seen DOWN. -/
def Twin.okOut : Field := ⟨312, 1, false, 0⟩
def Twin.seekAt : Field := ⟨313, 0, false, 0⟩
def Twin.hbSlot : Field := ⟨314, 0, false, 0⟩
def Twin.hbTx : Field := ⟨315, 16, false, 0⟩
def Twin.hbRx : Field := ⟨316, 16, false, 0⟩
def Twin.hbAny : Field := ⟨317, 1, false, 0⟩
def Twin.skewRun : Field := ⟨318, 0, false, 0⟩
def Twin.disRun : Field := ⟨319, 0, false, 0⟩
def Twin.agreeRun : Field := ⟨320, 0, false, 0⟩
def Twin.missRun : Field := ⟨321, 0, false, 0⟩
def Twin.highRun : Field := ⟨322, 0, false, 0⟩
def Twin.dualAt : Field := ⟨323, 0, false, 0⟩
def Twin.pPair : Field := ⟨324, 3, false, 0⟩
def Twin.pSwitching : Field := ⟨325, 1, false, 0⟩
def Twin.manSeq : Field := ⟨326, 32, false, 0⟩
def Twin.refused : Field := ⟨327, 1, false, 0⟩
def Twin.wasDown : Field := ⟨328, 1, false, 0⟩
/-- ROLE_FAULT as it stood when the heartbeat was lost (R432). -/
def Twin.faultAtLoss : Field := ⟨329, 1, false, 0⟩
/-- End of TAKEOVER_HOLD (`clk`, plus one). -/
def Twin.holdEnd : Field := ⟨330, 0, false, 0⟩
/-- Replication on the ACTIVE device: 0 none, 1 waits for a curfew of TWIN_PLAN, 2 copy sent, 3 STEP sent; when it began
(plus one); the step tick named (plus one); when the last step was taken (plus one); the whole copy has been loaded. -/
def Twin.repl : Field := ⟨331, 2, false, 0⟩
def Twin.replAt : Field := ⟨332, 0, false, 0⟩
def Twin.stepDue : Field := ⟨333, 0, false, 0⟩
def Twin.stepAt : Field := ⟨334, 0, false, 0⟩
def Twin.loaded : Field := ⟨335, 1, false, 0⟩
/-- Twin protocol version of the running image and the range it serves (Table 19.4, R440). -/
def Boot.twMajor : Field := ⟨320, 4, false, 0⟩
def Boot.twMinor : Field := ⟨321, 4, false, 0⟩
def Boot.twMin : Field := ⟨322, 4, false, 0⟩
def Boot.twMax : Field := ⟨323, 4, false, 0⟩
/-- Of a plan: the last tick a manifest was applied for, plus one. -/
def Plan.manTick : Field := ⟨310, 0, true, 0⟩
/-- Of a Cell or slot: compare applies (Table 15.7); second of the last COMPARE, plus one; frame offset a FOLLOW Cell adopted
(R425); lines compared and mismatched of its frame. -/
def Cmp.on : Field := ⟨350, 1, false, 0⟩
def Cmp.sec : Field := ⟨351, 0, false, 0⟩
def Cmp.shift : Field := ⟨352, 0, true, 0⟩
def Cmp.bad : Field := ⟨353, 0, false, 0⟩
def Cmp.good : Field := ⟨354, 0, false, 0⟩

abbrev roleSolo : Int := 0
abbrev roleActive : Int := 1
abbrev roleStandby : Int := 2
abbrev prNone : Int := 0
abbrev prSeeking : Int := 1
abbrev prReplicating : Int := 2
abbrev prInStep : Int := 3
abbrev prPartnerLost : Int := 4
abbrev prAlleyDown : Int := 5
abbrev prTwinLost : Int := 6

def State.tw (s : State) (f : Field) : Int := s.rd U.twin f
def State.twN (s : State) (f : Field) : Nat := s.rn U.twin f
def State.twSet (s : State) (f : Field) (v : Int) : State := s.wr U.twin f v

/-! ### Roles and pins (R412, R413) -/

/-- TWIN_OK is high while IN_STEP, with neither device suspect and no slot missing (R413, R429, Table 15.12). -/
def State.twinOk (s : State) : Bool :=
  s.tw Twin.PAIR == prInStep && !s.rb U.twin Twin.SUSPECT_SELF && !s.rb U.twin Twin.SUSPECT_PARTNER && !s.rb U.twin Twin.DECIDE &&
    s.twN Twin.missRun == 0
/-- TWIN_OK follows. -/
def State.showOk (s : State) : State :=
  let v := if s.twinOk then 1 else 0
  if s.tw Twin.okOut = v then s else (s.twSet Twin.okOut v).emit (.pin pinTwinOk v.toNat)
/-- The role changes: ROLE_OUT is low in STANDBY only (Table 15.1). -/
def State.setRole (s : State) (r : Int) : State :=
  if s.tw Twin.ROLE = r then s
  else
    let s1 := s.twSet Twin.ROLE r
    if (s.tw Twin.ROLE = roleStandby) = (r = roleStandby) then s1 else s1.emit (.pin pinRoleOut (if r = roleStandby then 0 else 1))
/-- The pair state changes. A pair that leaves IN_STEP or begins again holds no copy and no records. -/
def State.setPair (s : State) (p : Int) : State :=
  if s.tw Twin.PAIR = p then s
  else
    let s1 := { s with shadow := none }.wrs U.twin [(Twin.PAIR, p), (Twin.repl, 0), (Twin.replAt, 0), (Twin.stepDue, 0), (Twin.loaded, 0)]
    (((s1.setBuf U.twin 50 []).setBuf U.twin 51 []).setBuf U.twin 52 []).showOk
/-- Replication starts (again): the ACTIVE device waits for a curfew of TWIN_PLAN (R436, R437). -/
def State.replicate (s : State) : State :=
  let s1 := (s.setPair prReplicating).wrs U.twin [(Twin.repl, if s.tw Twin.ROLE = roleActive then 1 else 0), (Twin.replAt, s.clk + 1), (Twin.stepDue, 0),
    (Twin.loaded, 0)]
  { s1 with shadow := none }
/-- A staged `twinswitch` waits for its tick (Table 15.3). -/
def State.switching (s : State) : Bool :=
  s.staged.any fun e => match e.eff with
    | .cfg 0xF1 _ _ _ => true
    | _ => false

/-- The two devices exchange roles at the tick of a `twinswitch` (R435). -/
def State.commitTwinswitch (s : State) : State :=
  let r := s.tw Twin.ROLE
  if r = roleActive then (s.setRole roleStandby).wrs U.twin [(Twin.highRun, 0), (Twin.dualAt, 0)]
  else if r = roleStandby then (s.setRole roleActive).wrs U.twin [(Twin.highRun, 0), (Twin.dualAt, 0)] else s

/-! ### Suspects (R428 to R430) -/

/-- Stage a switchover for the first tick of TWIN_PLAN whose curfew lies at least 200 us ahead (R430). -/
def State.autoYield (s : State) : State :=
  let p := s.twN Twin.TWIN_PLAN
  if !s.planOn p || s.switching then s
  else
    let n := (s.firstTickFrom p ((s.now : Int) + curfewLead + 200 * Config.us)).toNat
    { s with
      nextId := s.nextId + 1
      staged := s.staged ++ [⟨s.nextId, s.nextId, 0, none, false, p, p, n, n, false, false, false, 0, [⟨U.twin, 0⟩], [], .cfg 0xF1 0 0 []⟩] }
/-- A device is marked suspect, or cleared (R429, R430, R442). -/
def State.markSuspect (s : State) (partner set : Bool) : State :=
  let f := if partner then Twin.SUSPECT_PARTNER else Twin.SUSPECT_SELF
  let s1 := s.twSet f (if set then 1 else 0)
  let activeIs := if partner then roleStandby else roleActive
  let other := if partner then Twin.SUSPECT_SELF else Twin.SUSPECT_PARTNER
  let s2 := if set && s.rb U.twin Twin.AUTO_YIELD && s.tw Twin.ROLE == activeIs && !s.rb U.twin other && s.tw Twin.PAIR == prInStep then s1.autoYield else s1
  s2.showOk

/-- Lanes, Kerbs, tributaries and units on the path of a source seat (R428); `fuel` bounds chains through the Granary, the Plaza
and return seats. -/
def State.srcPath (s : State) : Nat → Nat → List Nat
  | 0, _ => []
  | fuel + 1, src =>
    if src < 1152 then
      let l := s.rn (U.trib src) Trib.LANE
      [U.kerb src, U.trib src] ++ (if l < 288 then [U.lane l] else [])
    else if src < 2304 then
      U.kerb src :: (match s.rxOfSeat src with
        | some c => [U.rx c]
        | none => [])
    else if src < 2432 then
      let sl := src - 2304
      (U.gran sl :: (List.range 8).map fun j => U.sub sl j) ++ ((List.range 8).map fun j => s.srcPath fuel (s.cellN src (Cell.msSource j))).flatten
    else if src < 2448 then
      let h := src - 2432
      let ws := ((List.range 64).filterMap fun l => let d := s.activeDesc h l; if d.ty = tyTile then some d.scaler else none).eraseDups
      (U.head h :: ((List.range 64).map fun l => U.layer h l) ++ ws.map U.scaler) ++ (ws.map fun w => s.srcPath fuel (s.cellN (2432 + w) Cell.SOURCE)).flatten
    else if src < 2496 then [U.sign (src - 2448)]
    else if src < 2688 then
      let m := s.rn (U.ret (src - 2496)) Ret.MIRROR
      U.ret (src - 2496) :: (if m < 2688 then U.cell m :: s.srcPath fuel (s.cellN m Cell.SOURCE) else [])
    else []
/-- Units on the path of a destination seat, or of an output slot. -/
def State.itemPath (s : State) (kind item : Nat) : List Nat :=
  if kind = 0 then
    (U.cell item :: U.emb item :: (if item < 1152 then [U.trib item] else [])) ++ s.srcPath 6 (s.cellN item Cell.SOURCE)
  else
    let as := (s.sheaf.filter fun e => e.1.unit == item && entActive e.2.toNat).map fun e => entAch e.2.toNat
    let seats := (s.feeds.filter fun f => as.any fun a => decide (f.first ≤ a) && decide (a < f.first + f.count * (1 + f.rate))).map (·.unit)
    [U.slot item, U.mix] ++ seats ++ (seats.map fun u => if U.classOf u = 0x23 then s.srcPath 1 (u - 0x7100) else []).flatten

/-- Local fault evidence of an item over the window of R428, as a mask by kind. -/
def State.evidenceMask (s : State) (kind item at_ : Nat) : Nat :=
  let path := s.itemPath kind item
  let rec go : List Int → Nat → Nat
    | k :: u :: t :: l, m =>
      let inWin := decide ((at_ : Int) - 10 * Config.ms ≤ t) && decide (t ≤ at_ + Config.ms)
      go l (if inWin && path.contains u.toNat then setBit m k.toNat else m)
    | _, m => m
  go (s.buf U.twin 40) 0

/-- Both devices' evidence is known: the log entry, and the marking (R428, R429, Table 15.11). A line that both concealed is
evidence of neither. -/
def State.conclude (s : State) (head key selfMask partnerMask crcs : Nat) : State :=
  if s.rb U.twin Twin.SUSPECT_SELF || s.rb U.twin Twin.SUSPECT_PARTNER then s
  else
    let both := bitAt selfMask 2 && bitAt partnerMask 2
    let a := if both then clearBit selfMask 2 else selfMask
    let b := if both then clearBit partnerMask 2 else partnerMask
    let outcome := if a ≠ 0 ∧ b = 0 then 0 else if a = 0 ∧ b ≠ 0 then 1 else 2
    let i := s.twN Twin.LOG_NEXT
    let w0 : Word := BitVec.ofNat 64 (head % 2 ^ 29 + selfMask * 2 ^ 29 + partnerMask * 2 ^ 34 + outcome * 2 ^ 39)
    let s1 := { s with compareLog := Tbl.set ⟨i, 2⟩ 0 (BitVec.ofNat 64 crcs) (Tbl.set ⟨i, 1⟩ 0 (BitVec.ofNat 64 key) (Tbl.set ⟨i, 0⟩ 0 w0 s.compareLog)) }
    let s2 := s1.wrs U.twin [(Twin.LOG_NEXT, i + 1), (Twin.LOG_COUNT, s.tw Twin.LOG_COUNT + 1)]
    if outcome = 0 then (s2.markSuspect false true).post U.twin 0x0908 0
    else if outcome = 1 then (s2.markSuspect true true).post U.twin 0x0908 0
    else (s2.twSet Twin.DECIDE 1).showOk

/-! ### Compare (R425 to R427) -/

/-- A compare record: kind (0 line, 1 block), item, FRAME or BLOCK, line, CRC, and when it was made (`clk`). -/
structure CmpRec where
  kind : Nat
  item : Nat
  key : Nat
  line : Nat
  crc : Nat
  at_ : Nat
deriving DecidableEq, Repr

def cmpRecs : List Int → List CmpRec
  | a :: b :: c :: d :: e :: f :: t => ⟨a.toNat, b.toNat, c.toNat, d.toNat, e.toNat, f.toNat⟩ :: cmpRecs t
  | _ => []
def cmpInts (l : List CmpRec) : List Int := l.flatMap fun r => [(r.kind : Int), (r.item : Int), (r.key : Int), (r.line : Int), (r.crc : Int), (r.at_ : Int)]
def CmpRec.same (a b : CmpRec) : Bool := a.kind == b.kind && a.item == b.item && a.key == b.key && a.line == b.line
/-- Unit or element that an item is. -/
def cmpUnit (kind item : Nat) : Nat := if kind = 0 then U.cell item else U.slot item
/-- Compare is switched on for this kind, the pair is IN_STEP, and the item has reached its point of Table 15.7. -/
def State.compares (s : State) (kind item : Nat) : Bool :=
  s.tw Twin.PAIR == prInStep && bitAt (s.twN Twin.COMPARE) kind && s.rb (cmpUnit kind item) Cmp.on

/-- Two records of one line or block (R426). -/
def State.compareRecs (s : State) (own other : CmpRec) : State :=
  let u := cmpUnit own.kind own.item
  if own.crc = other.crc then
    (s.count U.twin (if own.kind = 0 then Ctr.Twin.LINES_COMPARED else Ctr.Twin.BLOCKS_COMPARED)).wr u Cmp.good (s.rd u Cmp.good + 1)
  else
    let s1 := (s.count U.twin (if own.kind = 0 then Ctr.Twin.LINE_MISMATCHES else Ctr.Twin.BLOCK_MISMATCHES)).wr u Cmp.bad (s.rd u Cmp.bad + 1)
    if s.rb U.twin Twin.SUSPECT_SELF || s.rb U.twin Twin.SUSPECT_PARTNER || s.rn u Cmp.sec == s.nowS + 1 then s1
    else
      let follow : Nat := if own.kind = 0 ∧ s.cellTimed own.item = false then 1 else 0
      let head : Nat := own.kind + own.item % 65536 * 2 + own.line % 2048 * 2 ^ 17 + follow * 2 ^ 28
      let s2 := (s1.wr u Cmp.sec (s.nowS + 1)).post (bankOf u) 0x0907 (own.line % 65536)
      s2.setBuf U.twin 52 (s2.buf U.twin 52 ++ [(head : Int), (own.key : Int), (own.crc : Int), (other.crc : Int), (s.clk : Int)])

/-- A record joins one side's list (`mine`, or the partner's), or meets its equal on the other side. -/
def State.compareAdd (s : State) (mine : Bool) (r : CmpRec) : State :=
  if !s.compares r.kind r.item then s
  else
    let far := if mine then 51 else 50
    let near := if mine then 50 else 51
    let l := cmpRecs (s.buf U.twin far)
    match l.find? (·.same r) with
    | some x =>
      let s1 := s.setBuf U.twin far (cmpInts (l.filter fun y => !y.same r))
      if mine then s1.compareRecs r x else s1.compareRecs x r
    | none => s.setBuf U.twin near (s.buf U.twin near ++ cmpInts [r])

/-- A line or block of this device: its record goes to the partner and into the comparison (Table 15.5). -/
def State.compareOwn (s : State) (kind item key line crc : Nat) : State :=
  if s.tw Twin.PAIR ≠ prInStep || !bitAt (s.twN Twin.COMPARE) kind then s
  else
    let follow := if kind = 0 ∧ s.cellTimed item = false then 1 else 0
    let w1 : Word := if kind = 0 then BitVec.ofNat 64 (item % 4096 + 2 ^ 12 + follow * 2 ^ 17 + line % 65536 * 2 ^ 32)
      else BitVec.ofNat 64 (item % 65536 + 2 ^ 16)
    let s1 := s.alleySend (if kind = 0 then 0x20 else 0x21) [w1, BitVec.ofNat 64 key, BitVec.ofNat 64 (crc % 2 ^ 32)]
    s1.compareAdd true ⟨kind, item, key, line, crc, s.clk⟩

/-- FRAME of Table 15.5 for a Cell in a line that system time `t` lies in; a FOLLOW Cell's count since its commit is carried in `frames`. -/
def State.frameKey (s : State) (d frames : Nat) (t : Int) : Nat :=
  if s.cellTimed d then
    let p := s.cellN d Cell.PLAN
    ((t - s.phaseAt p t) / (s.planRas p).frame).toNat
  else
    s.cellN d Cell.LAST_TICK % 2 ^ 48 + ((frames : Int) + s.rd (U.cell d) Cmp.shift).toNat % 65536 * 2 ^ 48

/-- Compare begins for a Cell at line 1 of a frame, by its source (Table 15.7): the instant of the step is `since`. -/
def State.armCell (s : State) (d : Nat) : State :=
  let u := U.cell d
  let since := s.twN Twin.stepAt - 1
  let src := s.cellN d Cell.SOURCE
  let age := s.clk - since
  let ready :=
    if !s.cellTimed d then true
    else if src < 2304 then s.rd (U.kerb src) Kerb.STATE == 2
    else if src < 2432 then
      let g := U.gran (src - 2304)
      decide ((s.rn g Gran.DEPTH_MAX + 3) * (s.planRas (s.rn g Gran.PLAN)).frame < age)
    else if src < 2448 then decide (4 * (s.planRas (s.rn (U.head (src - 2432)) Head.PLAN)).frame < age)
    else true
  if s.tw Twin.PAIR = prInStep && s.rb U.twin Twin.stepAt && !s.rb u Cmp.on && ready && decide (since < s.clk) then s.wr u Cmp.on 1 else s
/-- Compare begins for a slot with the first block that begins at or after t_J + 4 ms, DELAY and the lookahead. -/
def State.armSlot (s : State) (sl blockAt : Nat) : State :=
  let u := U.slot sl
  let v := rateHz (s.slotRate sl)
  let look := if s.rb u Slot.LOOKAHEAD then s.rn u Slot.DELAY + v / 1000 else s.rn u Slot.DELAY
  if s.tw Twin.PAIR = prInStep && s.rb U.twin Twin.stepAt && !s.rb u Cmp.on &&
      decide (s.twN Twin.stepAt - 1 + 4 * Config.ms + look * Config.second / v ≤ blockAt) then s.wr u Cmp.on 1 else s

/-! ### Manifests (R422) -/

/-- A staged effect as the manifest counts it. -/
structure LogEntry where
  th : Nat
  id : Nat
  mode : Nat
  words : List Nat
deriving DecidableEq, Repr

/-- The entries of a plan's log; each is its thread, effect, mode, number of words and words. -/
def logEntries : Nat → List Int → List LogEntry
  | 0, _ => []
  | fuel + 1, t :: i :: m :: n :: l => ⟨t.toNat, i.toNat, m.toNat, (l.take n.toNat).map Int.toNat⟩ :: logEntries fuel (l.drop n.toNat)
  | _, _ => []
def logInts (l : List LogEntry) : List Int :=
  l.flatMap fun e => [(e.th : Int), (e.id : Int), (e.mode : Int), (e.words.length : Int)] ++ e.words.map fun (w : Nat) => (w : Int)
def State.planLog (s : State) (p : Nat) : List LogEntry := logEntries (s.buf (U.plan p) 60).length (s.buf (U.plan p) 60)

/-- Final codes, known once the plan is resolved, of those entries that were resolved with it: winners and losers. -/
def codesOf (before after : State) (p : Nat) (n : Int) (es : List LogEntry) : List Nat :=
  es.filterMap fun x =>
    match before.staged.find? fun e => e.id == x.id && e.plan == p && !e.armed && decide ((e.tick : Int) ≤ n) with
    | none => none
    | some e => some (if after.staged.any fun y => y.id == x.id && y.won then (if e.late then 2 else 0) else 1)

/-- The ACTIVE device's manifest of the curfew of tick `n`, from the state before and after resolution (R422). -/
def State.sendManifest (after before : State) (p : Nat) (n : Int) : State :=
  if !after.sendsDecisions then after
  else
    let ths := ((before.staged.filter fun e => !e.armed && e.plan == p && decide ((e.tick : Int) ≤ n)).map (·.th)).eraseDups
    let log := before.planLog p
    let body := ths.flatMap fun t =>
      let es := log.filter (·.th == t)
      [BitVec.ofNat 64 (t + es.length * 2 ^ 8 + crc32c 64 (es.flatMap (·.words)) * 2 ^ 32), BitVec.ofNat 64 (crc32c 8 (codesOf before after p n es))]
    let s1 := (after.setBuf (U.plan p) 60 (logInts (log.filter fun e => !ths.contains e.th))).twSet Twin.manSeq (after.tw (Twin.txSeq 0))
    s1.alleySend 3 (BitVec.ofNat 64 (p + ths.length * 2 ^ 8) :: BitVec.ofInt 64 n :: body)

/-- One thread of a manifest: thread, effects, CRC of their words, CRC of their codes. -/
def manifestRows : List Word → List (Nat × Nat × Nat × Nat)
  | a :: b :: t => (bitsAt a.toNat 7 0, bitsAt a.toNat 31 8, bitsAt a.toNat 63 32, bitsAt b.toNat 31 0) :: manifestRows t
  | _ => []

/-- The effects a manifest names have all been staged here. -/
def State.manifestMet (s : State) (p : Nat) (rows : List (Nat × Nat × Nat × Nat)) : Bool :=
  rows.all fun r =>
    let es := (s.planLog p).filter (·.th == r.1)
    decide (r.2.1 ≤ es.length) && crc32c 64 ((es.take r.2.1).flatMap (·.words)) == r.2.2.1

/-- Assign staged effects to ticks by the manifest, resolve, and compare the codes (R422). -/
def State.applyManifest (s : State) (p : Nat) (n : Int) (rows : List (Nat × Nat × Nat × Nat)) (seq : Nat) : State :=
  let log := s.planLog p
  let named := rows.flatMap fun r => (log.filter (·.th == r.1)).take r.2.1
  let rest := log.filter fun e => !named.any (·.id == e.id)
  let s1 := { s with staged := s.staged.map fun e =>
    match named.find? (·.id == e.id) with
    | some x =>
      let want := if x.mode = 1 then max e.intended n.toNat else n.toNat
      { e with tick := want, late := decide (e.intended < want) }
    | none => if rest.any (·.id == e.id) && decide ((e.tick : Int) ≤ n) then { e with tick := (n + 1).toNat, late := decide ((e.intended : Int) < n + 1) } else e }
  let s2 := (s1.setBuf (U.plan p) 60 (logInts rest)).wr (U.plan p) Plan.manTick (n + 1)
  let s3 := (s2.resolve p n).twSet Twin.manSeq seq
  let bad := rows.any fun r => crc32c 8 (codesOf s1 s3 p n ((log.filter (·.th == r.1)).take r.2.1)) != r.2.2.2
  if bad then (s3.count U.twin Ctr.Twin.CODE_DIVERGE).post U.twin 0x0903 0 else s3

/-! ### The copy that replication sends (R437) -/

/-- A signed number as four words. -/
def intWords (v : Int) : List Word := natWords 4 ((v % 2 ^ 256).toNat)
def wordsInt (l : List Word) : Int := signedAt 256 (wordsNat (l.take 4))
/-- An item of the copy: section, unit, place, contents. -/
def item (section_ unit pos : Nat) (c : List Word) : List Word :=
  BitVec.ofNat 64 (section_ + unit % 2 ^ 32 * 2 ^ 8 + c.length % 65536 * 2 ^ 48) :: BitVec.ofNat 64 pos :: c

/-- The Barn bytes of a region. -/
def State.barnRegion (s : State) (base len : Nat) : List Host.Cell := s.barn.filter fun c => decide (base ≤ c.1) && decide (c.1 < base + len)
def errandWords (e : Errand) : List Word :=
  ([e.id, e.queue, e.seq, e.crc, e.mode, e.plan, e.length, e.phase].map fun (v : Nat) => BitVec.ofNat 64 v) ++ intWords e.arrival ++ intWords e.target ++ e.words

/-- The items of the copy: thread state, queue contents, configuration, tables, and the regions of committed GRAPHICS layers. -/
def State.copyItems (s : State) : List (List Word) :=
  [item 0 0 0 []] ++
  (s.regs.filterMap fun e =>
    if copied e.1 then some (item 1 e.1.unit e.1.pos (intWords e.2)) else if e.1.pos = 200 then some (item 12 e.1.unit 0 []) else none) ++
  (s.gregs.map fun e => item 2 e.1.unit e.1.pos [e.2]) ++
  (s.preds.map fun e => item 3 e.1.unit e.1.pos [if e.2 then 1 else 0]) ++
  (s.calls.map fun e => item 4 e.1.unit e.1.pos (e.2.map fun c => BitVec.ofNat 64 (c.1 + (if c.2 then 2 ^ 32 else 0)))) ++
  (s.ledger.map fun e => item 5 e.1.unit e.1.pos [e.2]) ++
  (s.sheaf.map fun e => item 6 e.1.unit e.1.pos [e.2]) ++
  (s.layers.map fun e => item 7 e.1.unit e.1.pos [e.2]) ++
  (s.classifier.map fun e => item 8 e.1.unit e.1.pos (e.2.flatMap fun v => natWords 6 v)) ++
  (s.bufs.flatMap fun e => if copiedBuf e.1 then (chunks 256 e.2.length e.2).map fun c => item 9 e.1.unit e.1.pos (c.flatMap intWords) else []) ++
  ((s.errands.filter fun e => e.queue != 8 && decide (e.phase ≤ 1)).map fun e => item 10 e.queue 0 (errandWords e)) ++
  ((List.range 16).flatMap fun h => (List.range 64).flatMap fun l =>
    let d := s.activeDesc h l
    if d.ty = tyGraphics then
      let cells := s.barnRegion d.base (d.w * d.h * 4)
      (chunks 256 cells.length cells).map fun c => item 11 0 0 (c.map fun x => BitVec.ofNat 64 (x.1 + x.2.toNat * 2 ^ 48))
    else []) ++
  [item 255 0 0 []]

/-- At the curfew of tick J0 the ACTIVE device copies its state and sends it (R437). -/
def State.sendCopy (s : State) : State :=
  let s1 := (chunks 32 s.copyItems.length s.copyItems).foldl (fun a m => a.alleySend 0x30 m.flatten) s
  s1.wrs U.twin [(Twin.repl, 2), (Twin.replAt, s.clk + 1)]

/-- An errand of the copy. -/
def errandOfWords (c : List Word) : Errand :=
  let g := fun (k : Nat) => (c.getD k 0).toNat
  ⟨g 0, g 1, g 2, g 3, 1, (wordsInt (c.drop 8)).toNat, g 4, g 5, (wordsInt (c.drop 12)).toNat, g 6, c.drop 16, g 7, 0, 0, [], [], none, []⟩
/-- Groups of `k` words. -/
def wordGroups (k : Nat) (c : List Word) : List (List Word) := chunks k c.length c

/-- The copy with one item loaded. -/
def Shadow.load (h : Shadow) (sec unit pos : Nat) (c : List Word) : Shadow :=
  let k : Key := ⟨unit, pos⟩
  match sec with
  | 1 => { h with regs := Tbl.put k (wordsInt c) h.regs }
  | 2 => { h with gregs := Tbl.put k (c.headD 0) h.gregs }
  | 3 => { h with preds := Tbl.put k (c.headD 0 != 0) h.preds }
  | 4 => { h with calls := Tbl.put k (c.map fun w => (bitsAt w.toNat 31 0, bitAt w.toNat 32)) h.calls }
  | 5 => { h with ledger := Tbl.put k (c.headD 0) h.ledger }
  | 6 => { h with sheaf := Tbl.put k (c.headD 0) h.sheaf }
  | 7 => { h with layers := Tbl.put k (c.headD 0) h.layers }
  | 8 => { h with classifier := Tbl.put k ((wordGroups 6 c).map wordsNat) h.classifier }
  | 9 => { h with bufs := Tbl.put k (Tbl.get k [] h.bufs ++ (wordGroups 4 c).map wordsInt) h.bufs }
  | 10 => { h with errands := h.errands ++ [errandOfWords c] }
  | 11 => { h with barn := c.foldl (fun m w => barnPut m (bitsAt w.toNat 47 0) (BitVec.ofNat 8 (bitsAt w.toNat 63 48))) h.barn }
  | _ => h
/-- An empty copy over the device's own Barn, from which the items build the partner's state. -/
def State.emptyShadow (s : State) : Shadow :=
  ⟨[], [], [], [], [], [], [], [], [], [], [], [], [], s.barn, s.claims, [], []⟩

/-- Load the items of a REPLICA message: the first clears the copy, the last completes it, and units that the partner has
woken are woken. -/
def State.loadItems (s : State) : Nat → List Word → State
  | 0, _ => s
  | fuel + 1, a :: p :: t =>
    let sec := bitsAt a.toNat 7 0
    let unit := bitsAt a.toNat 39 8
    let n := bitsAt a.toNat 63 48
    let s1 := if sec = 0 then { s with shadow := some s.emptyShadow }
      else if sec = 12 then s.wake unit
      else if sec = 255 then s.twSet Twin.loaded 1
      else { s with shadow := s.shadow.map fun h => h.load sec unit p.toNat (t.take n) }
    s1.loadItems fuel (t.drop n)
  | _, _ => s

/-- Gains of limiters and compressors (R437): element and gain, as the STEP message carries them. -/
def State.gainItems (s : State) : List Word :=
  s.regs.flatMap fun e =>
    let lim := decide (U.slot 0 ≤ e.1.unit) && decide (e.1.unit < U.slot 65536) && e.1.pos == Slot.limG.pos
    let cmp := decide (U.comp 0 ≤ e.1.unit) && decide (e.1.unit < U.comp 16384) && e.1.pos == Comp.gs.pos
    if lim || cmp then BitVec.ofNat 64 e.1.unit :: intWords e.2 else []
def State.setGains (s : State) : Nat → List Int → State
  | 0, _ => s
  | fuel + 1, u :: v :: l =>
    (if U.comp 0 ≤ u.toNat then s.wr u.toNat Comp.gs v else s.wr u.toNat Slot.limG v).setGains fuel l
  | _, _ => s
def gainPairs : List (List Word) → List Int
  | [] => []
  | g :: t => ((g.headD 0).toNat : Int) :: wordsInt (g.drop 1) :: gainPairs t

end Sys2Proof.Machine
end

