-- ==== Sys2Proof/Machine/Net.lean ====
section
/-!
DEFINITION. Ethernet, IP, UDP and RTP headers as the MACs read them (R197 to R201, R217). Layouts are those of the
named standards (PRESUMED, notes/assumptions/26.md).
-/
namespace Sys2Proof.Machine

/-- Big-endian number of the first `n` bytes from offset `o`. -/
def be (l : List Nat) (o n : Nat) : Nat := ((l.drop o).take n).foldl (fun a b => a * 256 + b) 0
/-- Ones' complement sum of 16-bit big-endian words. -/
def sum16 : List Nat → Nat
  | a :: b :: t => a * 256 + b + sum16 t
  | [a] => a * 256
  | [] => 0
def fold16 (x : Nat) : Nat := let y := x % 65536 + x / 65536; let z := y % 65536 + y / 65536; z % 65536 + z / 65536

/-- An Ethernet frame without its FCS: VLAN ID (0 untagged or priority-tagged), Ethertype and payload; none for an S-tag
or a second tag (R197). -/
structure Eth where
  dst : Nat
  src : Nat
  vlan : Nat
  etype : Nat
  body : List Nat
deriving DecidableEq, Repr

def parseEth (l : List Nat) : Option Eth :=
  let t := be l 12 2
  if t = 0x88A8 then none
  else if t = 0x8100 then
    let t2 := be l 16 2
    if t2 = 0x8100 ∨ t2 = 0x88A8 then none else some ⟨be l 0 6, be l 6 6, be l 14 2 % 4096, t2, l.drop 18⟩
  else some ⟨be l 0 6, be l 6 6, 0, t, l.drop 14⟩

/-- What the checks of R200 find. -/
inductive IpCheck where
  | ok | header | fragment
deriving DecidableEq, Repr

/-- An IP packet: version 6, protocol, addresses, and its payload. -/
structure Ip where
  v6 : Bool
  proto : Nat
  src : Nat
  dst : Nat
  ttl : Nat
  routerAlert : Bool
  body : List Nat
deriving DecidableEq, Repr

/-- MLD messages, by ICMPv6 type (Table 7.2). -/
def isMld (t : Nat) : Bool := [130, 131, 132, 143].contains t
/-- IPv4: version, IHL, header checksum, total length, fragmentation; IPv6: version, payload length, no extension header but a
hop-by-hop header before MLD (R200). -/
def parseIp (etype : Nat) (l : List Nat) : IpCheck × Ip :=
  if etype = 0x0800 then
    let ihl := be l 0 1 % 16 * 4
    let total := be l 2 2
    let ip : Ip := ⟨false, be l 9 1, be l 12 4, be l 16 4, be l 8 1, decide (24 ≤ ihl) && be l 20 1 == 0x94, (l.take total).drop ihl⟩
    if be l 0 1 / 16 ≠ 4 ∨ ihl < 20 ∨ fold16 (sum16 (l.take ihl)) ≠ 65535 ∨ l.length < total ∨ total < ihl then (.header, ip)
    else if be l 6 2 % 16384 ≠ 0 then (.fragment, ip) else (.ok, ip)
  else
    let plen := be l 4 2
    let next := be l 6 1
    let body := (l.drop 40).take plen
    let hop := next == 0 && be body 0 1 == 58 && isMld (be body (8 * (be body 1 1 + 1)) 1)
    let ip : Ip := ⟨true, if hop then 58 else next, be l 8 16, be l 24 16, be l 7 1, hop, if hop then body.drop (8 * (be body 1 1 + 1)) else body⟩
    if be l 0 1 / 16 ≠ 6 ∨ l.length < 40 + plen then (.header, ip)
    else if next = 44 then (.fragment, ip)
    else if [43, 50, 51, 60, 135].contains next || (next == 0 && !hop) then (.header, ip) else (.ok, ip)

/-- Header of a UDP datagram; its length fits the IP payload. -/
def udpOk (ip : Ip) : Bool := decide (8 ≤ ip.body.length) && decide (8 ≤ be ip.body 4 2) && decide (be ip.body 4 2 ≤ ip.body.length)
/-- The UDP checksum holds, or is absent in IPv4. -/
def udpSumOk (ip : Ip) : Bool :=
  let len := be ip.body 4 2
  let b := ip.body.take len
  let pseudo := fun (v : Nat) (n : Nat) => (List.range n).foldl (fun (a i : Nat) => a + v / 65536 ^ i % 65536) 0
  let n := if ip.v6 then 8 else 2
  (!ip.v6 && be ip.body 6 2 == 0) || fold16 (pseudo ip.src n + pseudo ip.dst n + 17 + len + sum16 b) == 65535
def udpPayload (ip : Ip) : List Nat := (ip.body.take (be ip.body 4 2)).drop 8

/-- An RTP packet (R217): version, marker, payload type, sequence, timestamp, SSRC, payload without CSRCs, header extension
and padding. -/
structure Rtp where
  version : Nat
  marker : Bool
  pt : Nat
  seq : Nat
  ts : Nat
  ssrc : Nat
  body : List Nat
deriving DecidableEq, Repr

def parseRtp (l : List Nat) : Rtp :=
  let b0 := be l 0 1
  let skip := 12 + 4 * (b0 % 16)
  let ext := bitAt b0 4
  let skip2 := if ext then skip + 4 + 4 * be l (skip + 2) 2 else skip
  let pad := if bitAt b0 5 then l.getLastD 0 else 0
  let body := l.drop skip2
  ⟨if l.length < 12 then 0 else b0 / 64, bitAt (be l 1 1) 7, be l 1 1 % 128, be l 2 2, be l 4 4, be l 8 4, body.take (body.length - pad)⟩

/-! ### Membership and addresses of a MAC -/

/-- Link-local address of a MAC by the modified EUI-64 rule (Table 7.1). -/
def linkLocal (addr : Nat) : Nat :=
  0xFE80 * 2 ^ 112 + ((addr / 2 ^ 24) ^^^ 0x020000) * 2 ^ 40 + 0xFFFE * 2 ^ 24 + addr % 2 ^ 24
/-- An own IP address of the MAC; ADDR 0 disables own traffic (Table 7.1). -/
def State.ownIp (s : State) (m : Nat) (v6 : Bool) (a : Nat) : Bool :=
  let u := U.mac m
  s.rb u Mac.ADDR && a != 0 && (if v6 then a == s.rn u Mac.IPV6 || a == linkLocal (s.rn u Mac.ADDR) else a == s.rn u Mac.IPV4)
/-- Solicited-node group of an own IPv6 address. -/
def State.solicited (s : State) (m a : Nat) : Bool :=
  let g := fun (x : Nat) => 0xFF02 * 2 ^ 112 + 2 ^ 32 + 0xFF * 2 ^ 24 + x % 2 ^ 24
  s.rb (U.mac m) Mac.ADDR && ((s.rb (U.mac m) Mac.IPV6 && a == g (s.rn (U.mac m) Mac.IPV6)) || a == g (linkLocal (s.rn (U.mac m) Mac.ADDR)))

/-- A multicast destination address. -/
def isMcast (v6 : Bool) (a : Nat) : Bool := if v6 then a / 2 ^ 120 == 0xFF else a / 2 ^ 28 == 0xE
/-- Ethernet address of a multicast IP address (RFC 1112, RFC 2464). -/
def mcastMac (v6 : Bool) (a : Nat) : Nat := if v6 then 0x3333 * 2 ^ 32 + a % 2 ^ 32 else 0x01005E * 2 ^ 24 + a % 2 ^ 23

end Sys2Proof.Machine
end

