-- ==== Sys2Proof/Machine/Classify.lean ====
section
/-!
DEFINITION. MACs and the packet classifier: binding, exact-match sub-tables with relocation, wildcards, lookups and the
group membership their JOIN bits hold (R196, R201 to R206, R250).
-/
namespace Sys2Proof.Machine

/-! ### Keys (Table 7.3) -/

def keyV6 (k : Nat) : Bool := decide (2 ≤ k % 4)
def keySsm (k : Nat) : Bool := k % 2 == 0
def keyMac (k : Nat) : Nat := bitsAt k 9 2
def keyDst (k : Nat) : Nat := if keyV6 k then bitsAt k 165 38 else bitsAt k 69 38
def keySrc (k : Nat) : Nat := if keyV6 k then bitsAt k 293 166 else bitsAt k 101 70
/-- The key of a packet for one lookup. -/
def mkKey (v6 ssm : Bool) (mac vlan port dst src : Nat) : Nat :=
  let kt := (if v6 then 2 else 0) + (if ssm then 0 else 1)
  let s := if ssm then src else 0
  kt + mac * 2 ^ 2 + vlan * 2 ^ 10 + port * 2 ^ 22 + dst * 2 ^ 38 + s * 2 ^ (if v6 then 166 else 70)

/-- Key bits beyond the layout are 0, and NPW fits KT (Table 16.6). -/
def keyFormatOk (npw k : Nat) : Bool :=
  if keyV6 k then npw == 5 && decide (k < 2 ^ 294) else npw == 3 && decide (k < 2 ^ 102)
/-- The ingress MAC exists or is 0xFF, and an ASM key names no source. -/
def keyRangeOk (k : Nat) : Bool := (decide (keyMac k < 144) || keyMac k == 0xFF) && (keySsm k || keySrc k == 0)

/-! ### Sub-tables (R202) -/

def clsSeed (s : Nat) : Nat := match s with | 0 => 0xFFFFFFFF | 1 => 0x9E3779B9 | 2 => 0x85EBCA6B | _ => 0xC2B2AE35
/-- Candidate index of a key in a sub-table: CRC-32C over the key's 20 or 40 bytes. -/
def clsIndex (s k : Nat) : Nat := crc32cFrom (clsSeed s) (if keyV6 k then 320 else 160) [k] % 4096
/-- Candidate places of a key: the positions it would occupy, by choice. -/
def clsPlaces (k : Nat) : List (List Key) :=
  if keyV6 k then [[⟨0, clsIndex 0 k⟩, ⟨1, clsIndex 0 k⟩], [⟨2, clsIndex 2 k⟩, ⟨3, clsIndex 2 k⟩]]
  else (List.range 4).map fun s => [⟨s, clsIndex s k⟩]

/-- Key and result of a position, if occupied. -/
def clsAt (t : Tbl (List Nat)) (p : Key) : Option (Nat × Nat) :=
  match Tbl.get p [] t with
  | [k, r] => some (k, r)
  | _ => none
/-- Where a key stands. -/
def clsFind (t : Tbl (List Nat)) (k : Nat) : Option (List Key) :=
  (clsPlaces k).find? fun ps => ps.all fun p => (clsAt t p).any fun e => e.1 == k
def clsRemove (t : Tbl (List Nat)) (ps : List Key) : Tbl (List Nat) := ps.foldl (fun a p => Tbl.del p a) t
def clsWrite (t : Tbl (List Nat)) (ps : List Key) (k r : Nat) : Tbl (List Nat) := ps.foldl (fun a p => Tbl.put p [k, r] a) t

/-- Place the keys of `todo` with at most `n` writes, each displacing the keys that stand in its way (R205). -/
def clsSettle : Nat → Tbl (List Nat) → List (Nat × Nat) → Option (Tbl (List Nat))
  | _, t, [] => some t
  | 0, _, _ :: _ => none
  | n + 1, t, (k, r) :: rest =>
    (clsPlaces k).findSome? fun ps =>
      let out := (ps.filterMap (clsAt t)).eraseDups
      let t1 := out.foldl (fun a e => clsRemove a ((clsFind a e.1).getD [])) t
      clsSettle n (clsWrite t1 ps k r) (out ++ rest)
/-- Fewest moves first: the key itself and up to 32 relocations. -/
def clsInsert (t : Tbl (List Nat)) (k r : Nat) : Option (Tbl (List Nat)) :=
  match clsFind t k with
  | some ps => some (clsWrite t ps k r)
  | none => (List.range 33).findSome? fun n => clsSettle (n + 1) t [(k, r)]

/-! ### Results (Table 7.4) -/

def resAction (r : Nat) : Nat := r % 4
def resLeg (r : Nat) : Nat := r / 4 % 2
def resIndex (r : Nat) : Nat := bitsAt r 15 3
def resJoin (r : Nat) : Bool := bitAt r 16
/-- A forwarding entry lies in 0 to 1023. -/
def resRangeOk (r : Nat) : Bool := resAction r != 3 || decide (resIndex r < 1024)

/-! ### Lookups (R204, R206) -/

/-- Element number of an entry: exact entries by sub-table and position, then the 256 wildcards. -/
def clsElement (p : Key) : Nat := if p.unit < 4 then p.unit * 4096 + p.pos else 16384 + p.pos
def State.clsExact (s : State) (k : Nat) : Option (Nat × Nat) :=
  match clsFind s.classifier k with
  | some (p :: _) => (clsAt s.classifier p).map fun e => (clsElement p, e.2)
  | _ => none
/-- Lowest-numbered wildcard entry whose masked bits agree. -/
def State.clsWildHit (s : State) (k : Nat) : Option (Nat × Nat) :=
  s.classifier.findSome? fun e =>
    match e.1.unit, e.2 with
    | 4, [v, m, r] => if k &&& m = v &&& m then some (clsElement e.1, r) else none
    | _, _ => none
/-- The five lookups of R204: the first hit decides. -/
def State.classify (s : State) (v6 : Bool) (mac vlan port dst src : Nat) : Option (Nat × Nat) :=
  let ks := [mkKey v6 true mac vlan port dst src, mkKey v6 false mac vlan port dst src, mkKey v6 true 0xFF vlan port dst src,
    mkKey v6 false 0xFF vlan port dst src]
  (ks.findSome? s.clsExact).or (s.clsWildHit (mkKey v6 true mac vlan port dst src))

/-! ### Membership (R250) -/

/-- A group that JOIN entries hold on a MAC: IPv6, group, source (0 for an ASM key). -/
structure Group where
  v6 : Bool
  dst : Nat
  src : Nat
deriving DecidableEq, Repr

/-- Groups held on MAC `m`, each once. -/
def State.groupsOf (s : State) (m : Nat) : List Group :=
  (s.classifier.filterMap fun e =>
    let k := e.2.headD 0
    if resJoin (e.2.getLastD 0) && isMcast (keyV6 k) (keyDst k) && (keyMac k == m || (keyMac k == 0xFF && s.rn (U.mac m) Mac.LANE != 511))
    then some ⟨keyV6 k, keyDst k, if keySsm k then keySrc k else 0⟩ else none).eraseDups

/-- Robustness learnt from the last query of a MAC, default 2 (R250). -/
def Mac.robust : Field := ⟨320, 0, false, 2⟩

/-- Membership changes that a MAC still has to report: IPv6, group, source, joined, reports left, due (`clk`). -/
structure Report where
  g : Group
  join : Bool
  left : Nat
  due : Nat
deriving DecidableEq, Repr
def reportsOf : List Int → List Report
  | a :: b :: c :: d :: e :: f :: t => ⟨⟨a == 1, b.toNat, c.toNat⟩, d == 1, e.toNat, f.toNat⟩ :: reportsOf t
  | _ => []
def unreports (l : List Report) : List Int :=
  l.flatMap fun r => [if r.g.v6 then 1 else 0, (r.g.dst : Int), (r.g.src : Int), if r.join then 1 else 0, (r.left : Int), (r.due : Int)]
def State.reports (s : State) (m : Nat) : List Report := reportsOf (s.buf (U.mac m) 20)

/-- Membership has changed since `old`: each change is to be reported at once and repeated. -/
def State.noteGroups (s old : State) : State :=
  (List.range 144).foldl (fun (a : State) m =>
    let was := old.groupsOf m
    let are := s.groupsOf m
    let new := (are.filter fun g => !was.contains g).map fun g => (⟨g, true, s.rn (U.mac m) Mac.robust, s.clk⟩ : Report)
    let gone := (was.filter fun g => !are.contains g).map fun g => (⟨g, false, s.rn (U.mac m) Mac.robust, s.clk⟩ : Report)
    if new.isEmpty && gone.isEmpty then a
    else
      let keep := (a.reports m).filter fun r => !(new ++ gone).any fun n => n.g == r.g
      a.setBuf (U.mac m) 20 (unreports (keep ++ new ++ gone))) s

/-! ### Instructions -/

def maccfgChecks (s : State) (i : Issue) (vs : List Int) (many : Bool) (m : Nat) : Checks :=
  let ps := Mac.maccfgParams
  let u := U.mac m
  let lane := pn ps vs Mac.LANE
  let old := s.rn u Mac.LANE
  let changed := ps.any fun p => pv ps vs p.fld != s.rd u p.fld
  [(.range, !paramsOk ps vs || bitAt (pn ps vs Mac.ADDR) 40 || (lane != 511 && !s.isPort lane)),
   (.nounit, s.unitBad u),
   (.locked, (lane != 511 && ((old != 511 && old != lane) || many || (s.holding (U.mac 0) 144 Mac.LANE (lane : Nat)).any (· != m))) ||
     (changed && s.macInUse m && !i.force))]
/-- A MAC takes its parameters; bound, it shows its port and link, and unbound neither (R196, Table 7.13). -/
def State.macTake (s : State) (vs : List Int) (m : Nat) : State :=
  let u := U.mac m
  let s1 := (s.wrParams u Mac.maccfgParams vs).wake u
  let lane := s1.rn u Mac.LANE
  if lane = 511 then
    let s2 := s1.wr u Mac.PORT 0
    if s2.rb u Mac.LINK then s2.macLink m false else s2
  else (s1.wr u Mac.PORT (s1.laneN lane Lane.PORT)).evalMac lane
def judgeMaccfg (i : Issue) (s : State) : Judged :=
  let pr := getParams Mac.maccfgParams false i
  let vs := pr.getD []
  let ts := targets i 0x0A (U.mac 0) 144
  { checks := (.format, i.badFlags true false true false || pr.isNone) :: eachTarget ts (maccfgChecks s i vs (decide (1 < (ts.getD []).length)))
    members := memberChecks (U.mac 0) ts (maccfgChecks s i vs (decide (1 < (ts.getD []).length)))
    verdict := .act (((ts.getD []).foldl (fun a m => a.macTake vs m) s).noteGroups s) }
def execMaccfg (i : Issue) (s : State) : Res := .next (s.issue i .other (judgeMaccfg i))

def judgeClsadd (i : Issue) (s : State) : Judged :=
  let k := wordsNat i.params
  let r := i.sub
  let t := clsInsert s.classifier k r
  { checks := [(.format, i.badFlags true false false false || i.npw != i.params.length || !keyFormatOk i.npw k || decide (2 ^ 17 ≤ r)),
      (.range, i.index != 0 || !keyRangeOk k || !resRangeOk r), (.tablefull, t.isNone)]
    verdict := .act (State.noteGroups { s with classifier := t.getD s.classifier } s) }
def execClsadd (i : Issue) (s : State) : Res := .next (s.issue i .other (judgeClsadd i))
def judgeClsdel (i : Issue) (s : State) : Judged :=
  let k := wordsNat i.params
  let at_ := clsFind s.classifier k
  { checks := [(.format, i.badFlags true false false false || i.npw != i.params.length || !keyFormatOk i.npw k || i.sub != 0),
      (.range, i.index != 0 || at_.isNone)]
    verdict := .act (State.noteGroups { s with classifier := clsRemove s.classifier (at_.getD []) } s) }
def execClsdel (i : Issue) (s : State) : Res := .next (s.issue i .other (judgeClsdel i))
/-- The spec does not say whether bits of VALUE and MASK beyond the key layout of Table 7.3 are reserved, as they are for `clsadd`: they
are accepted, and those of MASK compare with 0 (DESIGN CHOICE, notes/assumptions/95.md). -/
def judgeClswild (i : Issue) (s : State) : Judged :=
  let r := i.sub
  let v := wordsNat (i.params.take 5)
  let m := wordsNat (i.params.drop 5)
  let p : Key := ⟨4, i.index⟩
  let t := if m = 0 ∧ resAction r = 0 then Tbl.del p s.classifier else Tbl.put p [v, m, r] s.classifier
  { checks := [(.format, i.badFlags true false false false || i.npw != 10 || i.params.length != 10 || decide (2 ^ 17 ≤ r)),
      (.range, decide (256 ≤ i.index) || !resRangeOk r)]
    verdict := .act (State.noteGroups { s with classifier := t } s) }
def execClswild (i : Issue) (s : State) : Res := .next (s.issue i .other (judgeClswild i))

end Sys2Proof.Machine
end

