-- ==== Sys2Proof/Machine/Heads.lean ====
section
/-!
DEFINITION. Winnow scalers make tiles, heads choose and draw them: scaling, the choice, repeat and fallback of tiles, the
layer types, blending, quantisation, seat and Barn output (R279, R281, R284, R286 to R289, R295 to R297, R299).
-/
namespace Sys2Proof.Machine

/-! ### Scaling (R278, R279) -/

/-- The tile parameters that a key stands for. -/
def descOfKey (k : Nat) : Desc := ⟨1 + k / 2 ^ 55 * 2 ^ 36, k / 2 ^ 52 % 8 * 2 ^ 24, k % 2 ^ 52, 0⟩

/-- A line prepared for the filters: 14-bit YCbCr 4:4:4, component by component. -/
def prepareLine (p : Payload) (l : PicLine) : List (List Int) :=
  let xs := unpackLine p.sampling p.depth12 l
  let ys := if p.sampling = 2 then xs.map fun q => encodePx false p.colour p.full (decodePx true p.colour p.full q) else xs
  [ys.map (·.a), ys.map (·.b), ys.map (·.c)]
/-- 14-bit black of component `c` (R71). -/
def black14 (c : Nat) : Int := if c = 0 then 1024 else 8192
/-- One component line filtered to the tile width. -/
def scaleRow (d : Desc) (c : Nat) (l : List Int) : List Int :=
  (List.range d.w).map fun (i : Nat) =>
    let twice : Nat := 2 * d.w * d.cx + (2 * i + 1) * d.cw
    if 2 * d.w * l.length ≤ twice then black14 c
    else tapSum l (kernelRow (d.kernel == 1) 8 ((twice : Int) - d.w) (2 * d.w) d.cw d.w)
/-- Output line `j` of one component from its horizontally filtered lines; `field` 1 or 2 stands on every other frame
line. -/
def scaleColumn (d : Desc) (c field : Nat) (cols : List (List Int)) (j : Nat) : List Int :=
  let step : Nat := if field = 0 then 1 else 2
  let twice : Nat := 2 * d.h * d.cy + (2 * j + 1) * d.ch
  if 2 * d.h * step * cols.length ≤ twice then List.replicate d.w (black14 c)
  else
    let k := kernelRow (d.kernel == 1) (d.vtaps.getD 2) ((twice : Int) - d.h - 2 * d.h * ((field - 1 : Nat) : Int)) (2 * d.h * step)
      (max d.ch (step * d.h)) (step * d.h)
    (List.range d.w).map fun (x : Nat) => tapSum (cols.map fun r => r.getD x 0) k
/-- The tile of an input frame or field: filtered horizontally, then vertically, decimated and rounded to TILE_DEPTH. -/
def scaleTile (d : Desc) (p : Payload) (field : Nat) (rows : List PicLine) : List PicLine :=
  let bits := if d.depth12 then 12 else 10
  let ls := rows.map (prepareLine p)
  let cols := (List.range 3).map fun (c : Nat) => ls.map fun l => scaleRow d c (l.getD c [])
  let q := fun (l : List Int) => l.map fun v => (min (2 ^ bits - 1) (roundCode bits v)).toNat
  (List.range d.h).map fun (j : Nat) =>
    let r := fun (c : Nat) => scaleColumn d c field (cols.getD c []) j
    ⟨q (r 0), q (decimate (r 1)), q (decimate (r 2))⟩

/-! ### Tiles -/

/-- Tiles of a scaler's ring: SEQ, stamp (grains of system time), completion (clk), key and picture properties. -/
structure Tile where
  seq : Nat
  stamp : Nat
  done : Nat
  key : Nat
deriving DecidableEq, Repr
def tilesOf : List Int → List Tile
  | a :: b :: c :: d :: t => ⟨a.toNat, b.toNat, c.toNat, d.toNat⟩ :: tilesOf t
  | _ => []
def untiles (l : List Tile) : List Int := l.flatMap fun t => [(t.seq : Int), (t.stamp : Int), (t.done : Int), (t.key : Int)]
def State.ring (s : State) (w : Nat) : List Tile := tilesOf (s.buf (U.scaler w) 0)

/-- Some committed or staged tile layer names the scaler (R277). -/
def State.scalerNamed (s : State) (w : Nat) : Bool := s.rn (U.scaler w) Scaler.HEADS != 0 || s.stagedUses (U.scaler w)

/-- A complete input frame, field or segment at scaler: when its first line came (`clk`), which field or segment it is (0 a progressive
frame), its payload and its active rows. -/
structure TileIn where
  first : Nat
  field : Nat
  pay : Payload
  rows : List PicLine
deriving DecidableEq, Repr

/-- What a complete tile does at scaler `w` (R290 to R293): it is reduced and stored in the scaler's ring, unless the ring's channel is in FAULT. -/
def State.takeTile (s : State) (w : Nat) (t : TileIn) : State :=
  let u := U.scaler w
  let key := if s.rn u Scaler.since ≤ t.first + 1 then s.rn u Scaler.key else s.rn u Scaler.oldKey
  let c := s.ringChan [] w
  if key = 0 ∨ t.first < s.rn u unitReadyF then s
  else if s.chanFault c then s.faultAccess u 2 c
  else
    let seq := s.rn u Scaler.written
    let new : Tile := ⟨seq, ((t.first : Int) + s.tsOff).toNat, s.clk, key⟩
    let drawn := s.regs.filterMap fun e => if decide (U.layer 0 0 ≤ e.1.unit) && e.1.pos == Layer.drawn.pos then some e.2.toNat else none
    let kept := (s.ring w).filter fun x => decide (seq < x.seq + 2) || drawn.contains (x.stamp + 1)
    let d := descOfKey key
    let pic : Pict := ⟨u, seq, ⟨0, d.depth12, t.pay.colour, t.pay.full⟩, if t.field = 2 then 1 else 0, scaleTile d t.pay t.field t.rows, [], []⟩
    let s := s.dropPicts u fun k => kept.any fun x => x.seq == k
    let s := { s with pics := s.pics ++ [pic] }
    ((s.setBuf u 0 (untiles (kept ++ [new]))).wrs u [(Scaler.written, seq + 1), (Scaler.TILE_SEQ, seq), (unitWorkF, s.clk)]).count u Ctr.Scaler.TILES_WRITTEN

/-! ### Input frames of a scaler (R279, R281) -/

/-- The input under way: source of its last line (plus one), when that line came (`clk` plus one), and how many tiles the frame under way
has given. -/
def Scaler.inFrom : Field := ⟨304, 0, false, 0⟩
def Scaler.inAt : Field := ⟨305, 0, false, 0⟩
def Scaler.inTiles : Field := ⟨306, 2, false, 0⟩

/-- The scaler works: a tile layer names it and it is READY (R277). -/
def State.scalerOn (s : State) (w : Nat) : Bool :=
  decide (w < 192) && s.scalerNamed w && !s.unitBad (U.scaler w) && s.unitState (U.scaler w) != stOff && s.unitState (U.scaler w) != stWaking
/-- The field of the frame under way that its lines have wholly given and that has not yet become a tile: the raster, and 0 for a
progressive frame, 1 or 2 for a field or segment. -/
def State.readyField (s : State) (w : Nat) : Option (Nat × Nat) :=
  let ls := s.caught (U.scaler w)
  let k := s.rn (U.scaler w) Scaler.inTiles
  match detectRaster ls (pidOf ls), ls.head? with
  | some id, some l =>
    let fields := if twoFields id then 2 else 1
    if k < fields ∧ rowLine id k (fieldRows id k - 1) ≤ l.line then some (id, if fields = 2 then k + 1 else 0) else none
  | _, _ => none
/-- Tiles that the frame under way owes: one to a field. -/
def State.tilesOwed (s : State) (w : Nat) : Nat :=
  let ls := s.caught (U.scaler w)
  let n := match detectRaster ls (pidOf ls) with
    | some id => if twoFields id then 2 else 1
    | none => 1
  if ls.isEmpty then 0 else n - s.rn (U.scaler w) Scaler.inTiles
/-- The field that is ready becomes a tile. Colourimetry and sampling come from the payload ID; without one the input is YCbCr 4:2:2
10-bit narrow range BT.709 (R279). -/
def State.makeTile (s : State) (w : Nat) : State :=
  let u := U.scaler w
  match s.readyField w with
  | none => s
  | some (id, f) =>
    let ls := (s.caught u).reverse
    let pay := ((pidOf ls).map pidPayload).getD plainPayload
    let mine := ls.filter fun l => f == 0 || decide (field2First id ≤ l.line) == (f == 2)
    let r := s.placedRows id pay mine
    let n := ls.length - 1
    let d := (ls.getLastD ⟨0, [], false, false, false, 0⟩).time - (ls.headD ⟨0, [], false, false, false, 0⟩).time
    let first := (mine.headD ⟨0, [], false, false, false, 0⟩).time
    let s1 := r.2.wrs u [(Scaler.IN_RASTER, id), (Scaler.IN_PERIOD, ((raster id).lines * d / (n * Config.ns) : Nat)), (Scaler.inTiles, s.rd u Scaler.inTiles + 1)]
    s1.takeTile w ⟨first, f, pay, r.1.map (·.2)⟩
/-- The frame under way ends: what it still owes yields no tile and is counted (R281). -/
def State.endInput (s : State) (w : Nat) : State :=
  let u := U.scaler w
  let owed := s.tilesOwed w
  let known := match detectRaster (s.caught u) (pidOf (s.caught u)) with | some _ => true | none => false
  let s1 := if 0 < owed ∧ !known then s.wr u Scaler.IN_RASTER 63 else s
  ((s1.countBy u Ctr.Scaler.INCOMPLETE_FRAMES owed).setCaught u []).wr u Scaler.inTiles 0
/-- The scaler's Cell emits a line, from source `src`; `cut` marks the line that a FOLLOW take has truncated (R122, R281). -/
def State.winnowLine (s : State) (w src : Nat) (l : SeatLine) (cut : Bool) : State :=
  let u := U.scaler w
  if !s.scalerOn w then s
  else
    let s1 := s.makeTile w
    let go := match s1.caught u with
      | p :: _ => s1.rn u Scaler.inFrom == src + 1 && l.line == p.line + 1 && !cut
      | [] => false
    let s2 := (if go then s1 else s1.endInput w).wrs u [(Scaler.inFrom, src + 1), (Scaler.inAt, s.clk + 1)]
    if go then s2.setCaught u (l :: s2.caught u) else if l.line = 1 ∧ !cut then s2.setCaught u [l] else s2

/-- A scaler completes a tile, whose field or frame has given its last line; or its input has lost beats for two line periods of the longest
line, and the frame under way yields none (R281, R293, R294). -/
def execTileComplete (dt w : Nat) (s0 : State) : Res :=
  let s := s0.after dt
  let u := U.scaler w
  .next (if !s.scalerOn w then s
    else
      let s1 := s.makeTile w
      if s1.caught u ≠ [] ∧ s1.rn u Scaler.inAt - 1 + 2 * (raster 1).line ≤ s1.clk then s1.endInput w else s1)

/-! ### Decision (R295, R296) -/

/-- Newest complete tile at a key. -/
def State.newestTile (s : State) (w key : Nat) : Option Tile := ((s.ring w).filter fun t => t.key == key).getLast?

/-- Leave the fallback (R295). -/
def State.leaveFallback (s : State) (h l : Nat) : State :=
  let u := U.layer h l
  if s.rb u Layer.inFallback then (s.wr u Layer.inFallback 0).postEntry u 1 3 0 0 else s
/-- Show the fallback for this frame. -/
def State.showFallback (s : State) (h l : Nat) : State :=
  let u := U.layer h l
  let s1 := if s.rb u Layer.inFallback then s else (s.wr u Layer.inFallback 1).countEvent u Ctr.Layer.FALLBACK_ENTRIES
  (s1.wrs u [(Layer.STATE, 3), (Layer.drawn, 0)]).count u Ctr.Layer.FALLBACK_FRAMES_OUT
/-- Draw a tile. -/
def State.drawTile (s : State) (h l : Nat) (t : Tile) (st : Int) : State :=
  (s.wrs (U.layer h l) [(Layer.STATE, st), (Layer.TILE_SEQ, t.seq), (Layer.drawn, t.stamp + 1), (Layer.pendLeft, 0)]).decide_ 1 (U.layer h l) t.stamp

/-- One TILE layer at a decision instant `td` (clk): its own choice, or the partner's where its stamp is given. -/
def State.layerDecide (s : State) (h l : Nat) (td : Nat) (choice : Option Nat) : State :=
  let u := U.layer h l
  let d := s.activeDesc h l
  let w := d.scaler
  let tin := s.rn (U.scaler w) Scaler.IN_PERIOD * Config.ns
  let th := (s.planRas (s.rn (U.head h) Head.PLAN)).frame
  let matched : Option Tile := match choice with
    | some x => ((s.ring w).filter fun t => t.key == d.key && decide (4 * ((t.stamp : Int) - x).natAbs ≤ tin)).getLast?
    | none => none
  let s := if choice.isSome && matched.isNone then s.countEvent u Ctr.Layer.TWIN_CHOICES_OWN else s
  let run := s.rn u Layer.NOT_READY_RUN
  let again := fun (a : State) => (a.wr u Layer.NOT_READY_RUN (min 255 (run + 1))).count u Ctr.Layer.NOT_READY_FRAMES
  match matched, s.newestTile w d.key with
  | some t, _ =>
    if s.rn u Layer.drawn = t.stamp + 1 then (again s).drawTile h l t 2
    else ((s.wr u Layer.NOT_READY_RUN 0).leaveFallback h l).drawTile h l t 1
  | none, some t =>
    if td < t.done + tin + th then ((s.wr u Layer.NOT_READY_RUN 0).leaveFallback h l).drawTile h l t 1
    else if s.rb u Layer.inFallback || decide (d.fallback ≤ run) then (again s).showFallback h l
    else (again s).drawTile h l t 2
  | none, none =>
    if 0 < s.rn u Layer.pendLeft then (again s).wrs u [(Layer.STATE, 4), (Layer.pendLeft, s.rn u Layer.pendLeft - 1)]
    else (again s).showFallback h l

/-- The Barn header of a head frame (Table 10.3) at `at_`. -/
def State.headHeader (s : State) (h : Nat) (at_ seq : Nat) (o tick : Int) : State :=
  let u := U.head h
  let id := s.planRaster (s.rn u Head.PLAN)
  let w0 := 0x5048 + activeWidth id * 2 ^ 16 + activeHeight id * 2 ^ 29 + s.rn u Head.DEPTH * 2 ^ 42 + s.rn u Head.COLOUR * 2 ^ 44 + s.rn u Head.RANGE_FULL * 2 ^ 46
  let ot := o.toNat
  let st := ot % Config.second / Config.ns + ot / Config.second % 2 ^ 32 * 2 ^ 32
  let z : Word := 0
  s.barnStores at_ [BitVec.ofNat 64 w0, BitVec.ofNat 64 seq, BitVec.ofNat 64 st, BitVec.ofInt 64 tick, z, z, z, z]

/-- The Barn buffer of the next frame of a head (R284). -/
def State.headBuffer (s : State) (h : Nat) : Nat :=
  let u := U.head h
  let id := s.planRaster (s.rn u Head.PLAN)
  s.rn u Head.OUT_BASE * 4096 + s.rn u Head.barnSeq % s.rn u Head.OUT_COUNT * ceil4K (headBytes id (s.rn u Head.DEPTH))

/-- The head works: an output is on, its plan ticks, and the unit is READY. -/
def State.headLive (s : State) (h : Nat) : Bool :=
  decide (h < 16) && s.rn (U.head h) Head.OUTPUT != 0 && s.planOn (s.rn (U.head h) Head.PLAN) && !s.unitBad (U.head h) &&
    s.unitState (U.head h) != stOff && s.unitState (U.head h) != stWaking

/-- Barn errors met by the frame: layers and layer lines affected (R299, Table 20.4). -/
def State.eccLines (s : State) (h : Nat) (ue : List (Nat × Nat)) : State :=
  ((ue.map (·.1)).eraseDups).foldl (fun a l =>
    let d := a.activeDesc h l
    let n := (ue.filter fun e => e.1 == l).length
    if d.ty ≠ tyTile ∧ d.ty ≠ tyGraphics then a
    else
      let u := U.layer h l
      let c := if d.ty = tyTile then a.ringChan [] d.scaler else barnChan d.base
      ((a.countBy u Ctr.Layer.ECC_LINES (n - 1)).countEvent u Ctr.Layer.ECC_LINES).barnError u (if d.ty = tyTile then 2 else 3) c) s

/-! ### Composition (R284, R286 to R289) -/

/-- A 30-bit colour as a 14-bit sample. -/
def colourPx (v : Nat) : Px := ⟨bitsAt v 9 0 * 16, bitsAt v 19 10 * 16, bitsAt v 29 20 * 16⟩
/-- Black pixels of a layer line that a Barn error or a channel in FAULT has taken. -/
def blackPx : Px := ⟨1024, 8192, 8192⟩
/-- A layer sample over the one beneath it, at 14 bits (R287). -/
def blendPx (alpha pa : Nat) (l b : Px) : Px :=
  let a : Int := Fx.round ((alpha * pa * 65536 : Nat) : Int) 65025
  let f := fun (x y : Int) => (a * x + (65536 - a) * y + 32768) / 65536
  ⟨f l.a b.a, f l.b b.b, f l.c b.c⟩

/-- A layer ready to be drawn: its rectangle, its opacity, and lines of pixels (each with its pixel alpha) or none where the layer is
transparent. -/
structure Paint where
  x : Int
  y : Int
  alpha : Nat
  rows : List (List (Option (Nat × Px)))
deriving DecidableEq, Repr
/-- A layer whose pixels are given by place. -/
def Desc.paint (d : Desc) (f : Nat → Nat → Option (Nat × Px)) : Paint :=
  ⟨d.x, d.y, d.alpha, (List.range d.h).map fun (ly : Nat) => (List.range d.w).map fun (lx : Nat) => f lx ly⟩
/-- What a layer holds at a head sample. -/
def Paint.at (p : Paint) (x y : Nat) : Option (Nat × Px) :=
  let lx : Int := (x : Int) - p.x
  let ly : Int := (y : Int) - p.y
  if lx < 0 ∨ ly < 0 then none else ((p.rows.getD ly.toNat []).getD lx.toNat none)

/-- The SOURCE_LOST pattern, diagonals counted from the top line (Table 4.7). -/
def lostPx (lx ly : Nat) : Px := ⟨if Config.diagonal lx (ly % 32) then 1024 else 0x1C0 * 16, 8192, 8192⟩
/-- A tile at its place, converted where its colourimetry or range is not the head's (R287). -/
def tilePaint (d : Desc) (colour : Nat) (full : Bool) (bad : Nat → Bool) (p : Pict) : Paint :=
  let conv := fun (q : Px) =>
    if p.pay.colour = colour ∧ p.pay.full = full then q
    else encodePx false colour full (convert p.pay.colour colour none (decodePx false p.pay.colour p.pay.full q))
  ⟨d.x, d.y, d.alpha, p.rows.zipIdx.map fun e =>
    (unpackLine 0 p.pay.depth12 e.1).map fun q => some (255, if bad e.2 then blackPx else conv q)⟩
/-- A pixel of a graphics buffer: its alpha and its R'G'B' at 14 bits (R286). -/
def argb (deep : Bool) (w : Nat) : Nat × Px :=
  if deep then (bitsAt w 31 30 * 85, ⟨bitsAt w 29 20 * 16, bitsAt w 19 10 * 16, bitsAt w 9 0 * 16⟩)
  else (bitsAt w 31 24, ⟨bitsAt w 23 16 * 64, bitsAt w 15 8 * 64, bitsAt w 7 0 * 64⟩)
def Desc.deep (d : Desc) : Bool := bitAt d.w1 27
def Desc.gcolour (d : Desc) : Nat := bitsAt d.w1 29 28
/-- A graphics plane read from the Barn; lines that touch a channel in FAULT are black (R286, R299, Table 20.4). -/
def State.graphicsPaint (s : State) (d : Desc) (colour : Nat) (full : Bool) (bad : Nat → Bool) : Paint :=
  ⟨d.x, d.y, d.alpha, (List.range d.h).map fun (ly : Nat) =>
    let lost := bad ly || (chansOf (d.base + ly * d.w * 4) (d.w * 4)).any s.chanFault
    (List.range d.w).map fun (lx : Nat) =>
      let o := d.base + (ly * d.w + lx) * 4
      let (pa, q) := argb d.deep ((barnWord s.barn o).toNat % 2 ^ 32)
      some (if lost then (255, blackPx) else (pa, encodePx false colour full (convert d.gcolour colour none q)))⟩

/-- Levels of a METER's bars are kept in units of 1/24,000,000 dB, in which the fall per frame is whole for every rate (R288). -/
def meterUnit : Int := 240000
def meterFloor : Int := -14400 * meterUnit
/-- The levels shown for the next frame: the largest peak since the last decision, or the level before less its fall. -/
def State.meterStep (s : State) (h l : Nat) : State :=
  let u := U.layer h l
  let d := s.activeDesc h l
  if d.ty ≠ tyMeter then s
  else
    let r := s.planRas (s.rn (U.head h) Head.PLAN)
    let fall : Int := 282360000 * r.den / r.num
    let peaks := s.buf u 1
    let old := s.buf u 2
    (s.setBuf u 2 ((List.range d.bars).map fun (i : Nat) => max (peaks.getD i (-14400) * meterUnit) (old.getD i meterFloor - fall))).setBuf u 1 []
/-- Colour of a METER pixel `k` of `n` along a bar at a level, none where the bar is not filled: the scale runs from -60 dBFS to
0 dBFS, each pixel standing at its lower edge. -/
def Desc.meterPx (d : Desc) (level : Int) (k n : Nat) : Option (Nat × Px) :=
  let at_ : Int := -6000 * n + 6000 * k
  if level * n ≤ at_ * meterUnit then none
  else some (255, colourPx (if at_ < -1800 * n then d.colourA else if at_ ≤ -900 * n then d.colourB else d.colourC))
def State.meterPaint (s : State) (h l : Nat) (d : Desc) : Paint :=
  let lv := s.buf (U.layer h l) 2
  let size := (if d.horizontal then d.h else d.w) / d.bars
  d.paint fun lx ly =>
    let across := if d.horizontal then ly else lx
    if size = 0 ∨ d.bars ≤ across / size then none
    else
      let level := lv.getD (across / size) meterFloor
      if d.horizontal then d.meterPx level lx d.w else d.meterPx level (d.h - 1 - ly) d.h

/-- Symbols of HH:MM:SS:FF for the frame whose origin is `o`; 10 is the colon (R289). -/
def Desc.timeText (d : Desc) (o : Int) (r : Raster) : List Nat :=
  let sec : Int := Config.second
  let wh := o / sec
  let ff := ((o % sec) * r.num / (r.den * sec)).toNat
  let v := match d.tmode with
    | 0 => ((wh + d.offset) % 86400).toNat
    | 1 => (min (max (wh - d.ref) 0) 359999).toNat
    | _ => (min (max ((d.ref : Int) - wh) 0) 359999).toNat
  let two := fun (n : Nat) => [n / 10 % 10, n % 10]
  two (v / 3600) ++ [10] ++ two (v / 60 % 60) ++ [10] ++ two (v % 60) ++ [10] ++ two ff
def Desc.timePaint (d : Desc) (o : Int) (r : Raster) : Paint :=
  let text := d.timeText o r
  let cw := 8 * (d.size + 1)
  d.paint fun lx ly => match text[lx / cw]? with
    | none => none
    | some c => if ly < 2 * cw ∧ Config.glyph c d.size (lx % cw) ly then some (255, colourPx d.colourA) else none

/-- The tile of a scaler with a stamp (plus one), as its layer drew it. -/
def State.drawnPict (s : State) (w drawn : Nat) : Option Pict :=
  match (s.ring w).find? (fun t => t.stamp + 1 == drawn) with
  | some t => s.pict (U.scaler w) t.seq
  | none => none

/-- What layer `l` of a head draws in the frame with origin `o` (R286, R293, R295). -/
def State.layerPaint (s : State) (h l : Nat) (o : Int) (ue : List (Nat × Nat)) : Option Paint :=
  let u := U.head h
  let colour := s.rn u Head.COLOUR
  let full := s.rb u Head.RANGE_FULL
  let d := s.activeDesc h l
  let bad := fun (y : Nat) => ue.contains (l, y)
  match d.ty with
  | 1 =>
    let st := s.rd (U.layer h l) Layer.STATE
    let drawn := s.rn (U.layer h l) Layer.drawn
    if st = 3 then some (d.paint fun lx ly => some (255, lostPx lx ly))
    else if st = 4 then
      let p := s.descAt h (512 + 4 * l)
      (s.drawnPict p.scaler drawn).map (tilePaint p colour full bad)
    else if st = 0 then none
    else (s.drawnPict d.scaler drawn).map (tilePaint d colour full bad)
  | 2 => some (s.graphicsPaint d colour full bad)
  | 3 => some (d.paint fun _ _ => some (255, colourPx d.colourA))
  | 4 => some (d.paint fun lx ly =>
      if lx < d.thick ∨ ly < d.thick ∨ d.w ≤ lx + d.thick ∨ d.h ≤ ly + d.thick then some (255, colourPx d.colourA) else none)
  | 5 => some (s.meterPaint h l d)
  | 6 => some (d.timePaint o (s.planRas (s.rn u Head.PLAN)))
  | _ => none

/-- The composed frame, in codes of DEPTH bits: layers from the bottom up over BG, decimated and quantised (R287, R297). -/
def State.composed (s : State) (h : Nat) (o tick : Int) (ue : List (Nat × Nat)) : List PicLine :=
  let u := U.head h
  let id := s.planRaster (s.rn u Head.PLAN)
  let paints := (List.range 64).filterMap fun l => s.layerPaint h l o ue
  let bg := colourPx (s.rn u Head.BG)
  let bits := match s.rn u Head.DEPTH with | 0 => 8 | 1 => 10 | _ => 12
  let code := fun (c y step : Nat) (l : List Int) => l.zipIdx.map fun e => headCode bits (s.rn u Head.DITHER) tick c (step * e.2) y e.1
  (List.range (activeHeight id)).map fun (y : Nat) =>
    let row := (List.range (activeWidth id)).map fun (x : Nat) => paints.foldl (fun b p => match p.at x y with
      | some (pa, q) => blendPx p.alpha pa q b
      | none => b) bg
    let l := splitLine 0 row
    ⟨code 0 y 1 l.1, code 1 y 2 l.2.1, code 2 y 2 l.2.2⟩

/-- The frame leaves on the head's seat (R284): 10-bit codes, an 8-bit code times 4. -/
def State.sendHead (s : State) (h : Nat) (rows : List PicLine) : State :=
  let u := U.head h
  let k := if s.rn u Head.DEPTH = 0 then 4 else 1
  let x := fun (l : List Nat) => l.map (· * k)
  s.sendAir u 0 ⟨0, false, s.rn u Head.COLOUR, s.rb u Head.RANGE_FULL⟩ (rows.map fun l => ⟨x l.a, x l.b, x l.c⟩) [] []

/-- Words of a number, least significant first. -/
def pictureWords : Nat → Nat → List Word
  | 0, _ => []
  | n + 1, v => BitVec.ofNat 64 v :: pictureWords n (v / 2 ^ 64)
/-- The picture bytes of a head frame, after its header (Table 10.3). -/
def State.headPicture (s : State) (h at_ : Nat) (rows : List PicLine) : State :=
  let bits := match s.rn (U.head h) Head.DEPTH with | 0 => 8 | 1 => 10 | _ => 12
  (rows.foldl (fun (a : State × Nat) l =>
    let n := 2 * l.b.length * bits / 32
    (a.1.barnStores a.2 (pictureWords n (packLine bits l)), a.2 + 8 * n)) (s, at_ + 64)).1

/-- Frame that a head composes next, while it waits for its tiles: 1 waiting, its origin, its tick; lines with Barn errors are in
buffer 1, as layer and line. -/
def Head.waiting : Field := ⟨301, 1, false, 0⟩
def Head.origin : Field := ⟨302, 0, true, 0⟩
def Head.tick : Field := ⟨303, 0, true, 0⟩
/-- Instant of the last decision (`clk`, plus one). -/
def Head.decidedAt : Field := ⟨304, 0, false, 0⟩
def eccPairs : List Int → List (Nat × Nat)
  | a :: b :: t => (a.toNat, b.toNat) :: eccPairs t
  | _ => []

/-- The waiting frame, once every TILE layer has made its choice, leaves on the seat and in the Barn (R284, R287). -/
def State.composeHead (s : State) (h : Nat) : State :=
  let u := U.head h
  if s.rn u Head.waiting = 0 ∨ (List.range 64).any fun l => s.rb (U.layer h l) Layer.choiceDue then s
  else
    let p := s.rn u Head.PLAN
    let o := s.rd u Head.origin
    let tick := s.rd u Head.tick
    let rows := s.composed h o tick (eccPairs (s.buf u 1))
    let s := s.wr u Head.waiting 0
    let s1 := if s.rn u Head.OUTPUT % 2 = 1 then s.sendHead h rows else s
    if s1.rn u Head.OUTPUT < 2 then s1
    else
      let seq := s1.rn u Head.barnSeq
      let at_ := s1.headBuffer h
      let bad := (chansOf at_ (headBytes (s1.planRaster p) (s1.rn u Head.DEPTH))).filter s1.chanFault
      if !bad.isEmpty then bad.foldl (fun a c => a.faultAccess u 4 c) s1
      else (((s1.headPicture h at_ rows).headHeader h at_ seq o tick).wr u Head.barnSeq (seq + 1)).count u Ctr.Head.BARN_FRAMES

/-- What the decision of head `h` does at layer `l`: its channels are touched, its meter steps, and on the device that
decides its tile is chosen (R295, R296, R425). -/
def State.layerTurn (s : State) (h l : Nat) : State :=
  let d := s.activeDesc h l
  let a := if d.ty = tyTile then s.faultAccess (U.layer h l) 2 (s.ringChan [] d.scaler)
    else if d.ty = tyGraphics then (chansOf d.base (d.w * d.h * 4)).foldl (fun b c => b.faultAccess (U.layer h l) 3 c) s else s
  if d.ty = tyMeter then a.meterStep h l
  else if d.ty ≠ tyTile then a
  else if a.followsDecisions then a.wr (U.layer h l) Layer.choiceDue (a.clk + 4 * Config.us + 1)
  else a.layerDecide h l a.clk none
/-- The decision instant of a head; `ue` holds the layer lines that meet an uncorrectable Barn error (R284, R295, R296,
R299). On a STANDBY device the frame waits for the partner's choices. -/
def execHeadDecision (dt h : Nat) (ue : List (Nat × Nat)) (s0 : State) : Res :=
  let s := s0.after dt
  let u := U.head h
  .next (if !s.headLive h || !s.decisionNow (s.rn u Head.PLAN) || s.rn u Head.decidedAt == s.clk + 1 then s
    else
      let s1 := (List.range 64).foldl (fun a l => a.layerTurn h l) (s.wr u Head.decidedAt (s.clk + 1))
      let p := s1.rn u Head.PLAN
      let s2 := (((s1.eccLines h ue).count u Ctr.Head.FRAMES).wrs u [(unitWorkF, s1.clk), (Head.waiting, 1), (Head.origin, (s1.headFrame p).2),
        (Head.tick, s1.frameTick p)]).setBuf u 1 (ue.flatMap fun e => [(e.1 : Int), (e.2 : Int)])
      s2.composeHead h)

end Sys2Proof.Machine
end

