-- ==== Sys2Proof/Machine/LanePath.lean ====
section
/-!
DEFINITION. The bits of a lane: Gray mapping and precoding, the PRBS generator and checker, the error injector, and what leaves on the
pins or comes back through a loopback (R158 to R161, R167).
-/
namespace Sys2Proof.Machine

/-! Levels last sent and received, for precoding. Lists of a lane: 5 places of the checker's errors in its last 1,024 bits. -/
def Lane.txLevel : Field := ⟨335, 0, false, 0⟩
def Lane.rxLevel : Field := ⟨336, 0, false, 0⟩

/-! ### Levels (R158, R167) -/

/-- Level of a Gray-coded bit pair, first bit most significant, and the pair of a level. -/
def grayLevel (a b : Bool) : Nat := if a then (if b then 2 else 3) else (if b then 1 else 0)
def grayPair (v : Nat) : List Bool := [decide (2 ≤ v), v == 1 || v == 2]
def pairLevels : List Bool → List Nat
  | a :: b :: t => grayLevel a b :: pairLevels t
  | _ => []
/-- 1/(1+D) precoding modulo 4 from the level sent before, and its removal; with the last level. -/
def precode : Nat → List Nat → List Nat × Nat
  | p, [] => ([], p)
  | p, g :: t => let q := (g + 4 - p % 4) % 4; let r := precode q t; (q :: r.1, r.2)
def unprecode : Nat → List Nat → List Nat × Nat
  | p, [] => ([], p)
  | p, q :: t => let r := unprecode (q % 4) t; ((q + p) % 4 :: r.1, r.2)
def State.precodes (s : State) (l : Nat) : Bool := s.pam4 l && s.rb (U.lane l) Lane.PRECODE
/-- Levels of a lane with one polarity inverted. -/
def State.flipLevels (s : State) (l : Nat) (f : Field) (v : List Nat) : List Nat :=
  if s.rb (U.lane l) f then v.map fun x => (if s.pam4 l then 3 else 1) - x else v
/-- Levels that the serialiser of lane `l` sends for bits, and the bits that levels at its deserialiser spell. -/
def State.toLevels (s : State) (l : Nat) (bits : List Bool) : List Nat × State :=
  let g := if s.pam4 l then pairLevels bits else bits.map fun b => if b then 1 else 0
  let r := if s.precodes l then precode (s.laneN l Lane.txLevel) g else (g, 0)
  (s.flipLevels l Lane.TX_INVERT r.1, s.setLane l Lane.txLevel r.2)
def State.fromLevels (s : State) (l : Nat) (levels : List Nat) : List Bool × State :=
  let v := s.flipLevels l Lane.RX_INVERT levels
  let r := if s.precodes l then unprecode (s.laneN l Lane.rxLevel) v else (v, 0)
  (if s.pam4 l then r.1.flatMap grayPair else r.1.map (· == 1), s.setLane l Lane.rxLevel r.2)

/-! ### PRBS patterns (Table 5.10) -/

/-- Length of a pattern's register, and the places in it (newest bit 0) that the next bit sums. -/
def prbsTaps (pat : Nat) : Nat × List Nat :=
  match pat with
  | 0 => (7, [6, 5]) | 1 => (9, [8, 4]) | 2 => (13, [12, 11, 1, 0]) | 3 => (15, [14, 13]) | 4 => (23, [22, 17]) | _ => (31, [30, 27])
def prbsNext (pat r : Nat) : Bool := ((prbsTaps pat).2.map (bitAt r)).foldl (· != ·) false
def prbsShift (pat r : Nat) (b : Bool) : Nat := (r * 2 + (if b then 1 else 0)) % 2 ^ (prbsTaps pat).1
/-- `n` bits of a pattern from a register, and the register after them. -/
def prbsRun (pat : Nat) : Nat → Nat → List Bool × Nat
  | 0, r => ([], r)
  | n + 1, r =>
    let b := prbsNext pat r
    let t := prbsRun pat n (prbsShift pat r b)
    (b :: t.1, t.2)
/-- The generator of lane `l` gives `n` bits. The spec names no starting value: all ones (DESIGN CHOICE, notes/assumptions/96.md). -/
def State.genBits (s : State) (l n : Nat) : List Bool × State :=
  let r := prbsRun (s.laneN l Lane.GEN_PAT) n (s.laneN l Lane.genReg % 2 ^ (prbsTaps (s.laneN l Lane.GEN_PAT)).1)
  (if s.rb (U.lane l) Lane.GEN_INV then r.1.map not else r.1, s.setLane l Lane.genReg r.2)

/-! ### Sending (R160, R161) -/

/-- Place `i` of the bits sent next is flipped by `k` injections that wait: one bit each, a burst each, or the second bit of a pair,
which moves a symbol by one level (Table 5.11). The spec does not place an injection in the stream: they stand one after another from
the next bit on (DESIGN CHOICE, notes/assumptions/96.md). -/
def State.flipped (s : State) (l k i : Nat) : Bool :=
  match s.laneN l Lane.KIND with
  | 1 => decide (i < k * s.laneN l Lane.BURST)
  | 2 => if s.pam4 l then i % 2 == 1 && decide (i / 2 < k) else decide (i < k)
  | _ => decide (i < k)
/-- The PCS of lane `l` gives bits: a running generator replaces them, the injector flips some, and they leave on the TX pins. Answered
beside the state: what a near-end loopback gives the RX side. -/
def State.laneSend (s : State) (l : Nat) (pcs : List Bool) : State × Option (List Bool) :=
  if !s.laneSends l || s.laneN l Lane.LOOPBACK == 3 then (s, none)
  else
    let g := if s.rb (U.lane l) Lane.GEN_EN then s.genBits l pcs.length else (pcs, s)
    let k := s.laneN l Lane.flips
    let bits := if k = 0 then g.1 else g.1.zipIdx.map fun e => e.1 != s.flipped l k e.2
    let r := (g.2.setLane l Lane.flips 0).toLevels l bits
    let s2 := if s.pinsCarry l then r.2.emit (.lane l r.1) else r.2
    if !s.nearLoop l then (s2, none)
    else if s.laneN l Lane.LOOPBACK = 2 then (s2, some bits)
    else
      let b := s2.fromLevels l r.1
      (b.2, some b.1)
/-- Lane `l` receives levels from its pins: their bits, and under FAR the same levels sent back with the lane's own polarity. -/
def State.laneReceive (s : State) (l : Nat) (levels : List Nat) : List Bool × State :=
  let r := s.fromLevels l levels
  let back := s.laneSends l && s.laneN l Lane.LOOPBACK == 3
  (r.1, if back then r.2.emit (.lane l (s.flipLevels l Lane.TX_INVERT (s.flipLevels l Lane.RX_INVERT levels))) else r.2)

/-! ### The PRBS checker (R159) -/

/-- The checker at work: its register; error-free bits running, counting those that fill the register; place in the stream; an error in
the first bit of the pair under way; places of errors in the last 1,024 bits; and what it has counted. -/
structure Checker where
  reg : Nat
  run : Nat
  pos : Nat
  half : Bool
  lock : Bool
  errs : List Nat
  bits : Nat
  errors : Nat
  symbols : Nat
deriving DecidableEq, Repr

/-- One bit checked (R159). Out of lock the register follows the bits received, and 1,024 error-free ones beyond those that fill it give
lock; in lock it runs by itself, and more than 16 errors in the last 1,024 bits lose the lock. -/
def checkBit (pat : Nat) (c : Checker) (b : Bool) : Checker :=
  let n := (prbsTaps pat).1
  let p := prbsNext pat c.reg
  if c.lock then
    let bad := p != b
    let errs := ((if bad then c.pos :: c.errs else c.errs)).filter fun e => decide (c.pos < e + 1024)
    let sym := c.pos % 2 == 1 && (bad || c.half)
    let locked := decide (errs.length ≤ 16)
    ⟨if locked then prbsShift pat c.reg p else 0, 0, c.pos + 1, c.pos % 2 == 0 && bad, locked, if locked then errs else [], c.bits + 1,
      c.errors + (if bad then 1 else 0), c.symbols + (if sym then 1 else 0)⟩
  else
    let run := if c.run < n then c.run + 1 else if p == b then c.run + 1 else n
    { c with reg := prbsShift pat c.reg b, run := run, pos := c.pos + 1, half := false, lock := decide (n + 1024 ≤ run) }
/-- The checker of lane `l` as State holds it. -/
def State.checker (s : State) (l : Nat) : Checker :=
  ⟨s.laneN l Lane.chkReg, s.laneN l Lane.chkRun, s.laneN l Lane.chkAt, false, s.rb (U.lane l) Lane.PRBS_LOCK,
    (s.buf (U.lane l) 5).map (·.toNat), 0, 0, 0⟩
/-- The checker of lane `l` takes bits. -/
def State.prbsCheck (s : State) (l : Nat) (bits : List Bool) : State :=
  let u := U.lane l
  let inv := s.rb u Lane.CHK_INV
  let c := bits.foldl (fun a b => checkBit (s.laneN l Lane.CHK_PAT) a (b != inv)) (s.checker l)
  let s1 := ((s.wrs u [(Lane.chkReg, c.reg), (Lane.chkRun, c.run), (Lane.chkAt, c.pos), (Lane.PRBS_LOCK, if c.lock then 1 else 0)]).setBuf u 5
    (c.errs.map fun (e : Nat) => (e : Int)))
  let s2 := (s1.countBy u Ctr.Lane.PRBS_BITS c.bits).countBy u Ctr.Lane.PRBS_ERRORS c.errors
  if s.pam4 l then s2.countBy u Ctr.Lane.PRBS_SYMBOL_ERRORS c.symbols else s2
/-- The checker has taken as many bits as these levels spell: from the RX pins, or, in a near-end loopback, from the lane's own
generator. It locks after 1,024 error-free bits and may lose its lock (R159). -/
def execPrbsLock (dt l : Nat) (levels : List Nat) (s0 : State) : Res :=
  let s := s0.after dt
  .next (s.ifUp [U.lane l] (if 294 ≤ l || !s.rb (U.lane l) Lane.CHK_EN || s.laneN l Lane.RX_STATE != 0 then s
    else if s.nearLoop l then
      (if !s.rb (U.lane l) Lane.GEN_EN then s
      else match s.laneSend l (List.replicate ((if s.pam4 l then 2 else 1) * levels.length) false) with
        | (s1, some bits) => s1.prbsCheck l bits
        | (s1, none) => s1)
    else if !s.rb (U.lane l) Lane.CDR_LOCK then s
    else
      let r := s.laneReceive l levels
      r.2.prbsCheck l r.1))

end Sys2Proof.Machine
end

