-- ==== Sys2Proof/Machine/Haywain.lean ====
section
/-!
DEFINITION. Haywain codewords and frames, slot status, the back-channel, and direct SDI (R167 to R184, R193).
-/
namespace Sys2Proof.Machine

/-! Lane bookkeeping: runs of zero-syndrome and of uncorrectable codewords, frame alignment words seen and missed,
codewords since the last, locks lost before, frames and messages sent, the last SEQ received (16: none), the
back-channel message under assembly, the candidate bit offset of word alignment plus one (R182), and the descrambler. -/
def Lane.cwRun : Field := ⟨310, 0, false, 0⟩
def Lane.badRun : Field := ⟨311, 0, false, 0⟩
def Lane.fawRun : Field := ⟨312, 0, false, 0⟩
def Lane.fawMiss : Field := ⟨313, 0, false, 0⟩
def Lane.sinceFaw : Field := ⟨314, 0, false, 0⟩
def Lane.cwLost : Field := ⟨315, 1, false, 0⟩
def Lane.frameLost : Field := ⟨316, 1, false, 0⟩
def Lane.txFrame : Field := ⟨317, 0, false, 0⟩
def Lane.bcSeq : Field := ⟨318, 5, false, 16⟩
def Lane.bcMsg : Field := ⟨319, 60, false, 0⟩
def Lane.trsNew : Field := ⟨321, 0, false, 0⟩
def Lane.descr : Field := ⟨322, 31, false, 0x7FFFFFFF⟩

/-! ### Bit arithmetic -/

/-- CRC-3 of a rate word (Table 6.5) and CRC-8 of a back-channel message (Table 6.7). -/
def crc3 (v : Nat) : Nat := crcMsb 3 3 0 (bitsMsb 17 v)
def crc8 (v : Nat) : Nat := crcMsb 8 7 0 (bitsMsb 52 v)

/-- Additive scrambler x^31 + x^28 + 1 over a list of bits: the register holds the last 31 bits put out (R169). -/
def scramble : Nat → List Bool → Nat × List Bool
  | r, [] => (r, [])
  | r, b :: t =>
    let k := bitAt r 30 != bitAt r 27
    let (r', o) := scramble (r * 2 % 2 ^ 31 + (if k then 1 else 0)) t
    (r', (b != k) :: o)

/-! ### RS(544,514) over GF(2^10) (R167, IEEE 802.3 Clause 119) -/

def gfMul2 (a : Nat) : Nat := if 512 ≤ a then (a * 2) ^^^ 0x409 else a * 2
def gfMul (a b : Nat) : Nat :=
  ((List.range 10).foldl (fun (p : Nat × Nat) i => (if bitAt b i then p.1 ^^^ p.2 else p.1, gfMul2 p.2)) (0, a)).1
def gfPow (n : Nat) : Nat := (List.range n).foldl (fun a _ => gfMul2 a) 1
/-- Generator polynomial, the product of (x - a^j) for j = 0 to n - 1, highest coefficient first without the leading 1. -/
def rsGen (n : Nat) : List Nat :=
  ((List.range n).foldl (fun (g : List Nat) j =>
    let a := gfPow j
    (g ++ [0]).zipWith (· ^^^ ·) (0 :: g.map (gfMul a))) [1]).drop 1
/-- The `n` parity symbols of a message (first symbol of highest degree). -/
def rsParityOf (n : Nat) (msg : List Nat) : List Nat :=
  let g := rsGen n
  msg.foldl (fun (r : List Nat) m =>
    let f := m ^^^ r.headD 0
    (r.drop 1 ++ [0]).zipWith (fun x c => x ^^^ gfMul f c) g) (List.replicate n 0)
def rsParity (msg : List Nat) : List Nat := rsParityOf 30 msg

/-! ### Frame structure -/

abbrev faw : Nat := 0x93A5C
/-- Positions per slot per frame (Table 6.3). -/
def framePositions (n : Nat) : Nat := 2048 / n
/-- R173: position j of P carries a beat of COUNT C. -/
def validPos (C P j : Nat) : Bool := (j + 1) * C / P - j * C / P == 1
/-- Lane rate in bits per second (Table 6.3). -/
def laneBps (rate : Nat) : Nat := match rate with | 0 => 106250000000 | 1 => 53125000000 | 2 => 25781250000 | _ => 10312500000
/-- Nominal interface rate of a class (Table 6.6) in bits per second, times 1001. -/
def nominalBps1001 (cls m1001 : Nat) : Nat :=
  let r := match cls with | 1 => 270000000 | 2 => 1485000000 | 3 => 2970000000 | 4 => 5940000000 | _ => 11880000000
  if m1001 = 1 then r * 1000 else r * 1001

/-- Tributary in a slot of a lane. -/
def State.slotTrib (s : State) (l slot : Nat) : Option Nat := (s.tribsOf l).find? fun t => s.rn (U.trib t) Trib.SLOT == slot

/-- A rate word for the next frame (R172, R174, R193). -/
def State.rateWord (s : State) (l slot h : Nat) : State :=
  match s.slotTrib l slot with
  | none => s
  | some t =>
    let u := U.trib t
    let n := s.slotCount l
    let count := bitsAt h 19 8
    if crc3 (h / 8) ≠ h % 8 ∨ framePositions n < count then
      (s.wrs u [(Trib.dropNext, 1), (Trib.rwErr, 1), (Trib.winFrames, 0)]).countLimited u Ctr.Trib.RATEWORD_ERRORS 0x0304 0
    else
      let res := bitsAt h 7 3
      let s1 := s.wrs u [(Trib.countNext, count), (Trib.dropNext, 0)]
      let k := s1.rn u Trib.winFrames
      if k = 0 then s1.wrs u [(Trib.winFrames, 1), (Trib.winBeats, 0), (Trib.winRes, res)]
      else
        let sum := s1.rn u Trib.winBeats + count
        if k = 1250 ∧ s1.rn u Trib.RX_RATE = 0 then s1.wrs u [(Trib.winFrames, 1), (Trib.winBeats, 0), (Trib.winRes, res)]
        else if k = 1250 then
          -- rate_bps = 40 beats / (1250 frame periods); the frame period is 87,040 bits of the lane rate
          let beats32 : Int := 32 * sum + res - s1.rd u Trib.winRes
          let num : Int := 40 * beats32 * laneBps (s1.laneN l Lane.RATE) * 1001
          let den : Int := 32 * 1250 * 87040 * nominalBps1001 (s1.rn u Trib.RX_RATE) (s1.rn u Trib.RX_M1001)
          s1.wrs u [(Trib.RATE_OFFSET, (num - den) * 100000000 / den), (Trib.winFrames, 1), (Trib.winBeats, 0), (Trib.winRes, res)]
        else s1.wrs u [(Trib.winFrames, k + 1), (Trib.winBeats, sum)]

/-- A slot status field (R176, R177, R193). -/
def State.slotStatus (s : State) (l slot f : Nat) : State :=
  match s.slotTrib l slot with
  | none => s
  | some t =>
    let u := U.trib t
    let st := bitsAt f 9 7
    let rate := bitsAt f 6 4
    if (bitsLsb 10 f).foldl (· != ·) false then s.countLimited u Ctr.Trib.STATUS_PARITY_ERRORS 0 0
    else
      let bad := decide (5 ≤ st) || decide (6 ≤ rate)
      let s1 := s.wrs u [(Trib.RX_STATE, st), (Trib.hwRes, if bad then 1 else 0)]
      let s2 := if bad then (s1.count u Ctr.Trib.STATUS_RESERVED).post u 0x0306 (detail 0 st 0 0) else s1
      let s3 := if bitAt f 2 then s2.count u Ctr.Trib.SENDER_CRC_FRAMES else s2
      let s4 := if bitAt f 1 then s3.countLimited u Ctr.Trib.SENDER_SLIPS 0 0 else s3
      if !bad && (st == 1 || st == 4) then s4.tribRate t rate (bitsAt f 3 3)
      else s4.kerbLose t

/-- Modular rise of a 16-bit cumulative count since the last accepted one, kept plus one. -/
def bcRise (prev now : Nat) : Nat := if prev = 0 then 0 else (now + 65536 - (prev - 1)) % 65536

/-- A back-channel message (R179, R180, R193). -/
def State.backChannel (s : State) (l m : Nat) : State :=
  let n := s.slotCount l
  let slot := bitsAt m 59 57
  let ok := crc8 (m / 256) == m % 256 && decide (slot < n) && bitsAt m 12 8 == 0 && bitsAt m 20 17 == 0
  match s.slotTrib l (slot % n) with
  | none => if ok then s.setLane l Lane.bcSeq (bitsAt m 56 53) else s
  | some t =>
    let u := U.trib t
    if !ok then s.countLimited u Ctr.Trib.BC_ERRORS 0 0
    else
      let seq := bitsAt m 56 53
      let last := s.laneN l Lane.bcSeq
      let rise := bcRise (s.rn u Trib.bcRx) (bitsAt m 52 37)
      let s1 := (s.setLane l Lane.bcSeq seq).count u Ctr.Trib.BC_MESSAGES
      let s2 := if last ≠ 16 ∧ (last + 1) % 16 ≠ seq then s1.count u Ctr.Trib.BC_SEQ_GAPS else s1
      let s3 := if rise = 0 then s2
        else ((s2.countBy u Ctr.Trib.BC_OUT_CRC (rise - 1)).countEvent u Ctr.Trib.BC_OUT_CRC).evidence 3 u
      let s4 := s3.countBy u Ctr.Trib.BC_SRC_CRC (bcRise (s.rn u Trib.bcSrc) (bitsAt m 36 21))
      s4.wrs u [(Trib.bcRx, bitsAt m 52 37 + 1), (Trib.bcSrc, bitsAt m 36 21 + 1), (Trib.BC_FLAGS, bitsAt m 20 13)]

/-- Slots of the lane carry nothing: codeword or frame lock is lost (R171). -/
def State.slotsLost (s : State) (l : Nat) : State := (s.seatsLost l).evalLink l

/-- The counts announced for the next frame take effect at its codeword 0. A frame that is discarded breaks the line under way, whose
next word is marked (R172, R193). -/
def State.frameStart (s : State) (l : Nat) : State :=
  (s.tribsOf l).foldl (fun a t =>
    let u := U.trib t
    let a1 := a.wrs u [(Trib.countNow, a.rd u Trib.countNext), (Trib.dropNow, a.rd u Trib.dropNext), (Trib.dropNext, 0)]
    if a1.rb u Trib.dropNow then a1.wr u Trib.broken 1 else a1) (s.setLane l Lane.descr 0x7FFFFFFF)
/-- The frame at which frame lock is found has no announced counts: its beats cannot be placed, and the rate is recovered anew (R171,
R174). -/
def State.frameFirst (s : State) (l : Nat) : State :=
  (s.tribsOf l).foldl (fun a t => a.wrs (U.trib t) [(Trib.countNow, 0), (Trib.countNext, 0), (Trib.dropNow, 0), (Trib.dropNext, 0), (Trib.winFrames, 0)])
    (s.setLane l Lane.descr 0x7FFFFFFF)

/-- Words that a lane delivers to tributary `t`'s seat; the first is marked (plus 1,024) where what carried it, or what is missing before
it, was broken (R193). -/
def State.deliver (s : State) (t : Nat) (words : List Nat) : State :=
  let u := U.trib t
  if words.isEmpty then s
  else if s.rb u Trib.broken then (s.wr u Trib.broken 0).seatIn t ((words.headD 0 + 1024) :: words.drop 1)
  else s.seatIn t words
/-- The beats of one codeword, descrambled and dealt to their slots; those of an uncorrectable one are marked (R168, R169, R173, R193). -/
def State.dealBeats (s : State) (l c : Nat) (bad : Bool) (syms : List Nat) : State :=
  let n := s.slotCount l
  let P := framePositions n
  let (r, bits) := scramble (s.laneN l Lane.descr) ((syms.drop 2).map fun w => bitsLsb 10 w).flatten
  let s1 := s.setLane l Lane.descr r
  (s1.tribsOf l).foldl (fun a t =>
    let u := U.trib t
    let slot := a.rn u Trib.SLOT
    if a.rb u Trib.dropNow ∨ n ≤ slot then a
    else
      let qs := (List.range 128).filter fun q => q % n == slot && validPos (a.rn u Trib.countNow) P (c * (128 / n) + q / n)
      a.deliver t ((qs.map fun q => (List.range 4).map fun w => ofBitsLsb ((bits.drop (40 * q + 10 * w)).take 10) + (if bad then 1024 else 0)).flatten)) s1

/-- Codeword alignment is sought: four correct codewords running give it (R171). -/
def State.cwHunt (s : State) (l outcome : Nat) : State :=
  let u := U.lane l
  let run := if outcome = 0 then s.rn u Lane.cwRun + 1 else 0
  if run < 4 then s.setLane l Lane.cwRun run
  else
    let s3 := s.wrs u [(Lane.cwRun, 0), (Lane.badRun, 0), (Lane.cwLock, 1), (Lane.fawRun, 0), (Lane.sinceFaw, 0)]
    if s3.rb u Lane.cwLost then (s3.setLane l Lane.cwLost 0).post u 0x0301 0 else s3
/-- Frame alignment is sought: three alignment words 16 codewords apart give it (R171). -/
def State.frameHunt (s : State) (l h : Nat) (bad : Bool) : State :=
  let u := U.lane l
  let since := s.rn u Lane.sinceFaw + 1
  let run := s.rn u Lane.fawRun
  if h = faw && !bad && (run == 0 || since == 16) then
    if run + 1 < 3 then s.wrs u [(Lane.fawRun, run + 1), (Lane.sinceFaw, 0)]
    else
      let s4 := (s.wrs u [(Lane.frameLock, 1), (Lane.fawRun, 0), (Lane.fawMiss, 0), (Lane.sinceFaw, 0), (Lane.cwIdx, 0)]).frameFirst l
      let s5 := if s4.rb u Lane.frameLost then (s4.setLane l Lane.frameLost 0).post u 0x0303 0 else s4
      s5.evalLink l
  else s.wrs u [(Lane.sinceFaw, since), (Lane.fawRun, if 16 ≤ since then 0 else run)]
/-- A frame's first codeword: the alignment word, four misses of which lose the frame (R171). -/
def State.frameHead (s : State) (l h : Nat) : State :=
  let u := U.lane l
  let s6 := s.frameStart l
  if h = faw then s6.setLane l Lane.fawMiss 0
  else
    let miss := s6.rn u Lane.fawMiss + 1
    if miss < 4 then (s6.setLane l Lane.fawMiss miss).count u Ctr.Lane.FAW_ERRORS
    else (((s6.wrs u [(Lane.fawMiss, 0), (Lane.frameLock, 0), (Lane.frameLost, 1), (Lane.sinceFaw, 0)]).count u Ctr.Lane.FRAME_LOSS).post u 0x0302 0).slotsLost l
/-- The header word of codeword `c` of the frame (R170, R172 to R180). -/
def State.cwHeader (s : State) (l c h : Nat) (bad : Bool) : State :=
  let u := U.lane l
  if c = 0 then s.frameHead l h
  else if bad then
    if c ≤ 8 then match s.slotTrib l (c - 1) with
      | some t => s.wrs (U.trib t) [(Trib.dropNext, 1), (Trib.winFrames, 0)]
      | none => s
    else s
  else if c ≤ 8 then (if c - 1 < s.slotCount l then s.rateWord l (c - 1) h else s)
  else if c ≤ 12 then
    let one := fun (a : State) (slot f : Nat) => if slot < a.slotCount l then a.slotStatus l slot f else a
    one (one s (2 * (c - 9)) (h % 1024)) (2 * (c - 9) + 1) (h / 1024)
  else
    let m := (if c = 13 then 0 else s.rn u Lane.bcMsg) + h * 2 ^ (20 * (c - 13))
    if c = 15 then (s.setLane l Lane.bcMsg 0).backChannel l m else s.setLane l Lane.bcMsg m
/-- A codeword of a lane in codeword lock: eight bad ones running lose it; else its place in the frame (R171). -/
def State.cwLocked (s : State) (l h : Nat) (bad : Bool) (syms : List Nat) : State :=
  let u := U.lane l
  let badRun := if bad then s.rn u Lane.badRun + 1 else 0
  if 8 ≤ badRun then
    let s3 := (s.wrs u [(Lane.badRun, 0), (Lane.cwLock, 0), (Lane.frameLock, 0), (Lane.cwLost, 1), (Lane.cwRun, 0)]).count u Ctr.Lane.CW_LOCK_LOSS
    (s3.post u 0x0300 0).slotsLost l
  else
    let s3 := s.setLane l Lane.badRun badRun
    if !s3.rb u Lane.frameLock then s3.frameHunt l h bad
    else
      let c := (s3.rn u Lane.cwIdx + 1) % 16
      let s5 := (s3.setLane l Lane.cwIdx c).cwHeader l c h bad
      if s5.rb u Lane.frameLock then s5.dealBeats l c bad syms else s5
/-- The symbols of a codeword of 514 symbols and `n` parity symbols as the RS decoder leaves them, how many it corrected, and whether it is
uncorrectable: more than n/2 symbol errors, or none found that give a codeword (R167). -/
def rsDecodeOf (n : Nat) (syms : List Nat) (fixes : List (Nat × Nat)) : List Nat × Nat × Bool :=
  let good := fun (w : List Nat) => rsParityOf n (w.take 514) == w.drop 514
  if good syms then (syms, 0, false)
  else
    let w := fixes.foldl (fun (a : List Nat) e => a.set e.1 (a.getD e.1 0 ^^^ (e.2 % 1024))) syms
    if 2 * fixes.length ≤ n ∧ good w then (w, fixes.length, false) else (syms, 0, true)
def rsDecode (syms : List Nat) (fixes : List (Nat × Nat)) : List Nat × Nat × Bool := rsDecodeOf 30 syms fixes
/-- A codeword of lane `l` counts, with the symbols corrected in it and whether it is uncorrectable (Table 5.13). -/
def State.countCodeword (s : State) (l corrected : Nat) (bad : Bool) : State :=
  let u := U.lane l
  let s1 := (s.count u Ctr.Lane.FEC_CODEWORDS).countBy u Ctr.Lane.FEC_CORRECTED_SYMBOLS corrected
  if bad then (s1.countLimited u Ctr.Lane.FEC_UNCORRECTABLE 0 0).evidence 1 u else s1
/-- The bits of one received codeword (R171 to R180, R193). -/
def State.cwReceive (s : State) (l : Nat) (bits : List Bool) (fixes : List (Nat × Nat)) : State :=
  let (w, n, bad) := rsDecode ((chunks 10 bits.length bits).map ofBitsLsb) fixes
  let syms := w.take 514
  let h := syms.headD 0 + 1024 * (syms.drop 1).headD 0
  let s2 := s.countCodeword l n bad
  if !s.rb (U.lane l) Lane.cwLock then s2.cwHunt l (if bad then 2 else if n = 0 then 0 else 1) else s2.cwLocked l h bad syms
/-- A Haywain lane whose RX side receives. -/
def State.haywainRx (s : State) (l : Nat) : Bool :=
  decide (l < 288) && s.laneN l Lane.MODE == 1 && s.laneN l Lane.RX_STATE == 0 && s.rb (U.lane l) Lane.CDR_LOCK
/-- Parity symbols of the FEC of an Ethernet port whose lowest lane is `l` and whose RX side receives: RS(528,514) at 25G, RS(544,514) above;
none on another lane and where FEC25 says so (Table 5.4, Table 5.5). -/
def State.ethernetFec (s : State) (l : Nat) : Option Nat :=
  if !s.isPort l || s.laneN l Lane.RX_STATE != 0 || !s.rb (U.lane l) Lane.CDR_LOCK then none
  else if s.laneN l Lane.PORT = 0 then (if s.rb (U.lane l) Lane.FEC25 then none else some 14)
  else some 30
/-- A codeword received by an Ethernet port is decoded and counts at its lowest lane (Table 5.13); its frames come with MAC_FRAME_RX. Of a
port of several lanes the levels are those of the whole codeword (notes/assumptions/105.md). -/
def State.ethernetCodeword (s : State) (l : Nat) (cw : CodewordIn) : State :=
  match s.ethernetFec l with
  | none => s
  | some n =>
    let r := s.laneReceive l cw.levels
    if r.1.length ≠ 10 * (514 + n) then r.2
    else
      let d := rsDecodeOf n ((chunks 10 r.1.length r.1).map ofBitsLsb) cw.fixes
      r.2.countCodeword l d.2.1 d.2.2
/-- One codeword received at the RX pins, which a near-end loopback ignores. -/
def execHaywainCodewordRx (dt l : Nat) (cw : CodewordIn) (s0 : State) : Res :=
  let s := s0.after dt
  .next (s.ifUp [U.lane l] (if s.nearLoop l then s
    else if !s.haywainRx l then s.ethernetCodeword l cw
    else
      let r := s.laneReceive l cw.levels
      if r.1.length = 5440 then r.2.cwReceive l r.1 cw.fixes else r.2))

/-! ### Sending -/

/-- Source and stream whose beats destination Cell `d` puts out: the old selection while a FOLLOW Cell waits (R122). -/
def State.emitted (s : State) (d : Nat) : Nat × Nat :=
  if s.cellN d Cell.OUTPUT = 4 then (s.cellN d (Cell.oldSource 0), s.cellN d (Cell.oldStream 0)) else (s.cellN d Cell.SOURCE, s.cellN d Cell.STREAM)
/-- Rate of the signal that Cell `d` puts out, coded as `srcRate` does. -/
def State.outRate (s : State) (d : Nat) : Nat :=
  if s.cellTimed d then (s.planRas (s.cellN d Cell.PLAN)).rateKey else s.srcRate 200 (s.emitted d).1
/-- The output of destination seat `d` carries what its Cell puts out: false where a FOLLOW source has moved to a rate that the output
cannot carry (R184). -/
def State.outCarries (s : State) (d : Nat) : Bool := s.cellTimed d || !s.outputRefuses d (s.outRate d)
/-- STATE sent for tributary output t (R178, R184). -/
def State.txState (s : State) (t : Nat) : Nat :=
  let o := s.cellN t Cell.OUTPUT
  if !s.cellTimed t && s.cellN t Cell.SOURCE == noSeat && o != 4 then 0
  else if !s.outCarries t then 2
  else if o = 1 then 1 else if o = 2 ∨ o = 3 then 4
  else if o = 4 && s.srcCarries (s.emitted t).1 (s.emitted t).2 then 1 else 2

/-- Status field of a slot with its even parity (Table 6.6). -/
def statusField (st rate m1001 : Nat) (crcSeen : Bool) : Nat :=
  let v := st * 128 + rate * 16 + m1001 * 8 + (if crcSeen then 4 else 0)
  v + (if (bitsLsb 10 v).foldl (· != ·) false then 1 else 0)

/-- Φ of a TIMED output at instant `t`, in 1/32 beats, from the plan's raster (R175). -/
def State.phiTimed (s : State) (p t : Nat) : Nat :=
  let r := s.planRas p
  8 * t * r.words / r.line

/-- Beats of output `t` that have reached its output stage, in 1/32 beats: by the plan's media clock for a TIMED output, else the lines
put out so far, the last of them at its own rate (R175). -/
def State.phiNow (s : State) (t : Nat) : Nat :=
  if s.cellTimed t then s.phiTimed (s.cellN t Cell.PLAN) s.now
  else
    let u := U.trib t
    let all := 32 * s.rn u Trib.lineBeats
    let dur := s.rn u Trib.lineDur
    32 * s.rn u Trib.phiDone + (if dur = 0 then all else min all (all * (s.clk - s.rn u Trib.lineAt) / dur))
/-- What a lane announces of a slot: the rate word, the STATE field and the words of this frame (R172 to R177). -/
abbrev SlotOut := Nat × Nat × List Nat
/-- The turn of a slot in a frame of `P` positions a slot: COUNT and RESIDUE announced for the next frame, STATE, and the words sent. No
more beats are announced than wait, so that every announced beat is placed; what falls short moves the sender's constant offset (R172
to R177). -/
def State.txSlot (s : State) (P : Nat) (slot : Option Nat) : SlotOut × State :=
  match slot with
  | none => ((0, statusField 0 0 0 false, List.replicate (4 * P) 0), s)
  | some t =>
    let ut := U.trib t
    let st := s.txState t
    let live := st == 1 || st == 4
    let ph := s.phiNow t
    let fresh := s.rn ut Trib.phiSent = 0
    let off : Int := if fresh then (ph / 32 : Nat) else s.rd ut Trib.phiOff
    let sent : Int := if fresh then 0 else s.rd ut Trib.phiSent - 1
    let fifo := s.buf ut 1
    let now := s.rn ut Trib.txCount
    let want := (((ph / 32 : Nat) : Int) - off - sent).toNat
    let cnt := if live then min P (min want ((fifo.length - 4 * now) / 4)) else 0
    let w := cnt * 256 + (if live then ph % 32 * 8 else 0)
    let words := ((List.range P).foldl (fun (b : List Nat × List Int) j =>
      if validPos now P j then (b.1 ++ (List.range 4).map fun i => ((b.2.drop i).headD 0).toNat, b.2.drop 4)
      else (b.1 ++ [0, 0, 0, 0], b.2)) ([], fifo)).1
    let key := s.outRate t
    let s1 := (s.wrs ut [(Trib.TX_STATE, st), (Trib.phiSent, if live then sent + cnt + 1 else 0), (Trib.phiOff, off + want - cnt), (Trib.txCount, cnt),
      (Trib.lerrSent, 0)]).setBuf ut 1 (if live then fifo.drop (4 * now) else [])
    ((w + crc3 (w / 8), statusField st (if live then key / 2 else 0) (if live then key % 2 else 0) (s.rb ut Trib.lerrSent), words), s1)
/-- Words of a line wait for the slot of tributary output `t`; `dur` is the time over which they came. -/
def State.pushTrib (s : State) (t : Nat) (ws : List Nat) (dur : Nat) : State :=
  let u := U.trib t
  (s.wrs u [(Trib.phiDone, s.rd u Trib.phiDone + s.rd u Trib.lineBeats), (Trib.lineAt, s.clk), (Trib.lineBeats, ws.length / 4), (Trib.lineDur, dur)]).setBuf u 1
    (s.buf u 1 ++ ws.map fun (w : Nat) => (w : Int))
/-- The back-channel message of frame `f`, for the slot whose turn it is (R178 to R180). -/
def State.txMessage (s : State) (l f slot : Nat) : Nat :=
  let u := U.lane l
  let bc := match s.slotTrib l slot with
    | none => 0
    | some t =>
      let ut := U.trib t
      let valid := (s.rn ut Trib.RX_STATE == 1 || s.rn ut Trib.RX_STATE == 4) && !s.rb ut Trib.rateDev && !s.rb ut Trib.hwRes && s.rb u Lane.frameLock
      let flags := (if valid then 2 else 0) + (if s.rb ut Trib.rwErr then 4 else 0) + (if s.rn ut Trib.TX_STATE = 1 ∨ s.rn ut Trib.TX_STATE = 4 then 8 else 0)
      s.rn ut Trib.rxBad * 2 ^ 37 + s.ctr ut Ctr.Trib.TX_LERR_LINES % 65536 * 2 ^ 21 + flags * 2 ^ 13
  let m0 := slot * 2 ^ 57 + f % 16 * 2 ^ 53 + bc + (if s.rb u Lane.frameLock then 2 ^ 13 else 0)
  m0 + crc8 (m0 / 256)
/-- The header of codeword `c` (Table 6.4). -/
def txHeader (slots : Nat → SlotOut) (msg c : Nat) : Nat :=
  if c = 0 then faw else if c ≤ 8 then (slots (c - 1)).1
  else if c ≤ 12 then (slots (2 * (c - 9))).2.1 + 1024 * (slots (2 * (c - 9) + 1)).2.1 else msg / 2 ^ (20 * (c - 13)) % 2 ^ 20
/-- The message symbols of codeword `c` of a lane with `n` slots, and the scrambler after it (R167 to R169). -/
def txCodeword (slots : Nat → SlotOut) (n msg reg c : Nat) : List Nat × Nat :=
  let beats := ((List.range 128).map fun q => ((slots (q % n)).2.2.drop (4 * (c * (128 / n) + q / n))).take 4).flatten
  let r := scramble reg (beats.map (bitsLsb 10)).flatten
  let syms := (List.range 512).map fun k => ofBitsLsb ((r.2.drop (10 * k)).take 10)
  ([txHeader slots msg c % 1024, txHeader slots msg c / 1024] ++ syms, r.1)
/-- One codeword leaves lane `l`, and comes back where a near-end loopback returns it; the decoder finds what the injector flipped. -/
def State.sendCodeword (s : State) (l : Nat) (msg : List Nat) : State :=
  let syms := msg ++ rsParity msg
  match s.laneSend l (syms.map (bitsLsb 10)).flatten with
  | (s1, none) => s1
  | (s1, some bits) =>
    let got := (chunks 10 bits.length bits).map ofBitsLsb
    let fixes := (((got.zip syms).zipIdx.filter fun e => e.1.1 != e.1.2).map fun e => (e.2, e.1.1 ^^^ e.1.2)).take 16
    if s1.haywainRx l then s1.cwReceive l bits fixes else s1
/-- A Haywain frame leaves lane `l`. -/
def State.txHaywain (s : State) (l : Nat) : State :=
  let u := U.lane l
  let n := s.slotCount l
  let f := s.rn u Lane.txFrame
  let r := (List.range n).foldl (fun (a : List SlotOut × State) (k : Nat) =>
    let x := a.2.txSlot (framePositions n) (a.2.slotTrib l k)
    (a.1 ++ [x.1], x.2)) ([], s)
  let slots := fun (k : Nat) => (r.1.drop k).headD (0, 0, [])
  let msg := r.2.txMessage l f (f % n)
  let s2 := match r.2.slotTrib l (f % n) with
    | some t => r.2.wr (U.trib t) Trib.rwErr 0
    | none => r.2
  let sent := (List.range 16).foldl (fun (a : Nat × State) (c : Nat) =>
    let w := txCodeword slots n msg a.1 c
    (w.2, a.2.sendCodeword l w.1)) (0x7FFFFFFF, s2.setLane l Lane.txFrame (f + 1))
  sent.2
/-- The device sends one Haywain frame (R169, R170, R172, R173, R175, R178, R179). -/
def execHaywainFrameTx (dt l : Nat) (s0 : State) : Res :=
  let s := s0.after dt
  .next (s.ifUp [U.lane l] (if !(decide (l < 288) && s.laneN l Lane.MODE == 1 && s.laneN l Lane.TX_STATE == 0) then s else s.txHaywain l))

/-! ### Direct SDI (R182, R183) and rate deviation (R193) -/

/-- SDI scrambler x^9 + x^4 + 1 and NRZI: register, level, and bits sent. -/
def sdiScramble : Nat → Bool → List Bool → List Bool → Nat × Bool × List Bool
  | r, lv, [], acc => (r, lv, acc.reverse)
  | r, lv, b :: t, acc =>
    let x := (b != bitAt r 3) != bitAt r 8
    let lv' := lv != x
    sdiScramble (r * 2 % 512 + (if x then 1 else 0)) lv' t (lv' :: acc)
/-- NRZI and scrambler removed: register, level, and bits. -/
def sdiDescramble : Nat → Bool → List Bool → List Bool → Nat × Bool × List Bool
  | r, lv, [], acc => (r, lv, acc.reverse)
  | r, lv, b :: t, acc =>
    let x := lv != b
    let y := (x != bitAt r 3) != bitAt r 8
    sdiDescramble (r * 2 % 512 + (if x then 1 else 0)) b t (y :: acc)

/-- TRS preambles among serial bits: the place where the ones of the last 0x3FF end, the streams interleaved, and bit H of the XYZ word
that follows. `i` is the place, `ones` the ones running before it. -/
def trsScan : Nat → Nat → List Bool → List (Nat × Nat × Bool)
  | _, _, [] => []
  | i, ones, true :: t => trsScan (i + 1) (ones + 1) t
  | i, ones, false :: t =>
    let zeros := 1 + (t.takeWhile (!·)).length
    let words := zeros / 10
    let here := decide (10 ≤ ones) && decide (20 ≤ zeros)
    (if here then [(i, words / 2, (t.drop (10 * words - 1 + 6)).headD false)] else []) ++ trsScan (i + 1) 0 t

/-- The tributary of a direct SDI lane is delivered bits as 10-bit words. -/
def State.sdiWords (s : State) (l : Nat) (bits : List Bool) : State :=
  (s.tribsOf l).foldl (fun a t => a.deliver t (((chunks 10 bits.length bits).filter (·.length == 10)).map ofBitsLsb)) s
/-- Word alignment is set, or moved. -/
def State.sdiAlign (s : State) (l : Nat) : State :=
  ((s.tribsOf l).foldl (fun x t => x.wr (U.trib t) Trib.RX_STATE 1) (s.wrs (U.lane l) [(Lane.trsNew, 0), (Lane.aligned, 1)])).evalLink l
/-- A TRS preamble met in bits of which those from `start` on are not yet delivered; answered with where they then begin (R182). -/
def State.sdiTrs (s : State) (l : Nat) (all : List Bool) (start : Nat) (e : Nat × Nat × Bool) : Nat × State :=
  let (i, n, eav) := e
  let u := U.lane l
  let head := i - 10 * n
  let off := (i - start) % 10
  if i < start then (start, s)
  else if !s.rb u Lane.aligned then (head, s.sdiAlign l)
  else if off = 0 then (start, if eav then s.setLane l Lane.trsNew 0 else s)
  else if eav && s.rn u Lane.trsNew == off + 1 then
    let s1 := s.sdiWords l ((all.drop start).take (head - start))
    (head, ((s1.tribsOf l).foldl (fun a t => (a.count (U.trib t) Ctr.Trib.WORD_REALIGNS).post (U.trib t) 0x0307 0) s1).sdiAlign l)
  else (start, (s.tribsOf l).foldl (fun a t => a.wr (U.trib t) Trib.broken 1) (s.setLane l Lane.trsNew (off + 1)))
/-- Levels at the RX side of a direct SDI lane: decimated by 11 at 270 Mb/s, NRZI and scrambler removed, aligned and delivered (R182).
Lists of the lane: 7 samples short of a group of 11, 8 register and level, 9 bits short of a word. -/
def State.sdiReceive (s : State) (l : Nat) (levels : List Bool) : State :=
  let u := U.lane l
  let all := (s.buf u 7).map (· != 0) ++ levels
  let slow := s.laneN l Lane.RX_RATE == 8
  let groups := if slow then (chunks 11 all.length all).filter (·.length == 11) else []
  let bits := if slow then groups.map fun g => g.getD 5 false else all
  let rest := if slow then all.drop (11 * groups.length) else []
  let old := s.buf u 8
  let (r, lv, out) := sdiDescramble (old.getD 0 0).toNat (old.getD 1 0 != 0) bits []
  let num := fun (b : Bool) => if b then (1 : Int) else 0
  let work := (s.buf u 9).map (· != 0) ++ out
  let s1 := (s.setBuf u 7 (rest.map num)).setBuf u 8 [(r : Int), num lv]
  let done := (trsScan 0 0 work).foldl (fun (a : Nat × State) e => a.2.sdiTrs l work a.1 e) (0, s1)
  let left := work.drop done.1
  let s2 := if done.2.rb u Lane.aligned then done.2.sdiWords l left else done.2
  s2.setBuf u 9 ((left.drop (left.length / 10 * 10)).map num)
/-- A direct SDI lane receives the levels that follow those of the command before, up to the end of a timing reference (R182). -/
def execSdiTrsRx (dt l : Nat) (levels : List Nat) (s0 : State) : Res :=
  let s := s0.after dt
  .next (s.ifUp [U.lane l] (if !(decide (l < 288) && s.laneN l Lane.MODE == 3 && s.laneN l Lane.RX_STATE == 0 && s.rb (U.lane l) Lane.CDR_LOCK) || s.nearLoop l then s
    else
      let r := s.laneReceive l levels
      r.2.sdiReceive l r.1))

/-- Words of a line leave direct SDI output `t`: scrambled, NRZI coded, and at 270 Mb/s each bit 11 times (R182, R183). List 3 of the
tributary holds register and level. -/
def State.sdiSend (s : State) (t l : Nat) (ws : List Nat) : State :=
  let u := U.trib t
  let old := s.buf u 3
  let (r, lv, bits) := sdiScramble (old.getD 0 0).toNat (old.getD 1 0 != 0) (ws.flatMap (bitsLsb 10)) []
  let sent := if s.laneN l Lane.RATE = 8 then bits.flatMap (List.replicate 11) else bits
  match (s.setBuf u 3 [(r : Int), if lv then 1 else 0]).laneSend l sent with
  | (s1, none) => s1
  | (s1, some b) => if s1.laneN l Lane.RX_STATE = 0 ∧ s1.rb (U.lane l) Lane.CDR_LOCK then s1.sdiReceive l b else s1

/-- Step 4 of R188: a line that Cell `d` has put out over `dur` goes to the Haywain slot or the direct SDI driver of the tributary, and is
counted as sent (R183, R191). A driver at electrical idle begins again with it. -/
def State.sendTrib (s : State) (d : Nat) (ws : List Nat) (lerr : Bool) (dur : Nat) : State :=
  let u := U.trib d
  let l := s.rn u Trib.LANE
  let hay := s.laneN l Lane.MODE == 1 && decide (s.rn u Trib.SLOT < s.slotCount l)
  let sdi := s.laneN l Lane.MODE == 3
  if 288 ≤ l ∨ !(hay || sdi) ∨ !s.laneSends l ∨ !s.outCarries d then s
  else
    let a := s.count u Ctr.Trib.TX_LINES
    let b := if lerr then (a.count u Ctr.Trib.TX_LERR_LINES).wr u Trib.lerrSent 1 else a
    if hay then b.pushTrib d ws dur
    else (b.wrs u [(Trib.TX_STATE, 1), (Trib.lineAt, s.clk), (Trib.lineDur, dur)]).sdiSend d l ws

/-- The driver of a direct SDI output goes to electrical idle: its Cell has supplied no VALID beats for 2 line periods (R183). -/
def execTxSquelch (dt d : Nat) (s0 : State) : Res :=
  let s := s0.after dt
  let u := U.trib d
  let l := s.rn u Trib.LANE
  .next (s.ifUp [U.trib d] (if decide (d < 1152) && decide (l < 288) && s.laneN l Lane.MODE == 3 && s.rn u Trib.TX_STATE == 1 &&
      decide (s.rn u Trib.lineAt + 2 * s.rn u Trib.lineDur ≤ s.clk)
    then (s.wr u Trib.TX_STATE 2).count u Ctr.Trib.TX_SQUELCH_ENTRIES else s))

/-- The rate recovered over 1 ms lies outside, or again inside, 1,200 ppm of RATE (R193). -/
def execRateDeviation (dt t : Nat) (s0 : State) : Res :=
  let s := s0.after dt
  let u := U.trib t
  let on := decide (120000 < (s.rd u Trib.RATE_OFFSET).natAbs)
  .next (s.ifUp [U.trib t] (if 1152 ≤ t || s.rn u Trib.LANE == 511 || s.rb u Trib.rateDev == on then s
    else
      let s1 := s.wr u Trib.rateDev (if on then 1 else 0)
      if on then (s1.count u Ctr.Trib.RATE_DEVIATIONS).post u 0x0305 0 else s1))

end Sys2Proof.Machine
end

