-- ==== Sys2Proof/Machine/Emit.lean ====
section
/-!
DEFINITION. The line that a Cell emits: from the lines its seats offer, from the pictures of internal sources, from its fallback or
internal black, with the EAV group of the old selection where a take cuts (R27, R32, R63, R73, R114, R120, R122, R134).
-/
namespace Sys2Proof.Machine

/-! ### What a seat offers -/

/-- A line stored less than half a frame of `T` ago. -/
def State.freshLine (s : State) (T : Nat) (l : SeatLine) : Bool := decide (2 * (s.clk - l.time) < T)
/-- The newest line of that number that a Kerb or return seat has offered within half a frame. -/
def State.storedLine (s : State) (seat str line T : Nat) : Option SeatLine := (s.lineOf seat str line).filter (s.freshLine T)
/-- The unit that makes the lines of an internal source seat and its plan (Table 1.3). -/
def State.airSource (s : State) (seat str : Nat) : Option (Nat × Nat) :=
  if isGranSeat seat then some (U.sub (seat - 2304) str, s.rn (U.gran (seat - 2304)) Gran.PLAN)
  else if 2432 ≤ seat ∧ seat < 2448 then some (U.head (seat - 2432), s.rn (U.head (seat - 2432)) Head.PLAN)
  else if 2448 ≤ seat ∧ seat < 2496 then some (U.sign (seat - 2448), s.rn (U.sign (seat - 2448)) Sign.PLAN)
  else none
/-- Line `line` that a source seat offers, begun at `time`. -/
def State.seatLine (s : State) (seat str line T time : Nat) : Option SeatLine × State :=
  match s.airSource seat str with
  | some (u, p) =>
    let m := s.airMarks u (s.planRaster p) line
    (fun (x : List Nat × State) => (some ⟨line, x.1, m.1, false, m.2, time⟩, x.2)) (s.airLine u (s.planRaster p) line)
  | none => (s.storedLine seat str line T, s)

/-! ### TIMED Cells (R63, R73, R114, R120, R133 to R135) -/

/-- Internal black of a plan's raster, with its payload ID (R114): a line that the device has substituted. -/
def State.blackLine (s : State) (p line time : Nat) : SeatLine :=
  let id := s.planRaster p
  ⟨line, blackLine422 id line 0 (some (payloadId id true plainPayload)), false, false, true, time⟩
/-- What a TIMED Cell emits now: a source seat and stream, or 8,192 and its fallback seat. -/
def State.cellShows (s : State) (d : Nat) : Nat × Nat :=
  if s.cellN d Cell.OUTPUT = 2 then (8192 + s.cellN d Cell.FALLBACK_SEAT, 0) else (s.cellN d Cell.SOURCE, s.cellN d Cell.STREAM)
/-- Line `line` of what `shown` names, begun at `time`; black where the fallback generator sends nothing, and where a source that is not
lost has offered no such line (notes/assumptions/100.md). -/
def State.shownLine (s : State) (d : Nat) (shown : Nat × Nat) (line time : Nat) : SeatLine × State :=
  let p := s.cellN d Cell.PLAN
  let black := s.blackLine p line time
  let x := if shown.1 < 8192 then s.seatLine shown.1 shown.2 line (s.planRas p).frame time
    else if shown.1 - 8192 ≠ noSeat ∧ s.srcCarries (shown.1 - 8192) 0 then s.seatLine (shown.1 - 8192) 0 line (s.planRas p).frame time
    else (none, s)
  (x.1.getD black, x.2)
/-- The line of a TIMED Cell: where what it shows has changed since the line before ended, the EAV group is that of what it showed, and
all later words are new; a 3G level-B seat cuts after its own 16-word group (R60, R120). -/
def State.timedLine (s : State) (d line time : Nat) : SeatLine × State :=
  let now := s.cellShows d
  let was := (s.cellN d Cell.lineSource - 1, s.cellN d Cell.lineStream)
  let new := s.shownLine d now line time
  if s.cellN d Cell.lineSource = 0 ∨ was = now then new
  else
    let old := new.2.shownLine d was line time
    let r := s.planRas (s.cellN d Cell.PLAN)
    let g := if r.rate = 2 then max r.eav (max (eavGroup old.1.words) (eavGroup new.1.words)) else r.eav
    ({ new.1 with words := old.1.words.take g ++ new.1.words.drop g }, old.2)
/-! ### FOLLOW Cells (R73, R122, R137) -/

/-- Source and stream whose beats stream `j` of FOLLOW Cell `d` carries: the old selection while a cut waits, and for the line that the
cut has truncated (R122). -/
def State.followShows (s : State) (d j : Nat) (truncated : Bool) : Nat × Nat :=
  let u := U.cell d
  if truncated || s.rb u (Cell.pending j) then (s.rn u (Cell.oldSource j), s.rn u (Cell.oldStream j))
  else (s.rn u (Cell.msSource j), s.rn u (Cell.msStream j))
/-- The line of a FOLLOW Cell: one that its source has offered and it has not put out yet, or one that its internal source ends now; of a
truncated line only the words before the cut. -/
def State.followLine (s : State) (d : Nat) (l : LineOut) : Option SeatLine × State :=
  let x := s.followShows d l.stream (decide (0 < l.len))
  let cut := fun (y : SeatLine) => if l.len = 0 then y else { y with words := y.words.take l.len }
  match s.airSource x.1 x.2 with
  | some (_, p) =>
    if l.len = 0 ∧ !s.planLineEnds p l.line then (none, s)
    else (fun (y : Option SeatLine × State) => (y.1.map cut, y.2)) (s.seatLine x.1 x.2 l.line 0 (s.clk - l.age))
  | none =>
    (((s.storedLine x.1 x.2 l.line (raster 8).frame).filter fun y => y.time + 1 != s.rn (U.cell d) (Cell.outTime l.stream)).map cut, s)

end Sys2Proof.Machine
end

