-- ==== Sys2Proof/Machine/Receive.lean ====
section
/-!
DEFINITION. Receive flow contexts: configuration, sequence and SSRC rules, depacketising of ST 2110-20, -30, -31, -40 and
ST 2022-6, merge of two legs, and the states of a context (R207 to R223).
-/
namespace Sys2Proof.Machine

/-- A packet has been accepted since the context left OFF or its sequence reset; frame of the first accepted packet; instants
(`clk`, plus one) of the last accepted packet and of the last packet of each leg; SSRC latched on each leg. -/
def Rx.any : Field := ⟨300, 1, false, 0⟩
def Rx.firstK : Field := ⟨301, 0, true, 0⟩
def Rx.lastAt : Field := ⟨302, 0, false, 0⟩
def Rx.legAt (leg : Nat) : Field := ⟨303 + leg, 0, false, 0⟩
def Rx.latched (leg : Nat) : Field := ⟨305 + leg, 1, false, 0⟩
/-- Frame of the last format error and frames in a row with one (R214); frame of the last packet. -/
def Rx.errK : Field := ⟨307, 0, true, -2⟩
def Rx.errRun : Field := ⟨308, 0, false, 0⟩
def Rx.curK : Field := ⟨309, 0, true, 0⟩
/-- Leads and leg difference of the running second (ns), and whether any lead was measured in it (Table 7.12). -/
def Rx.minNow : Field := ⟨310, 32, true, 0⟩
def Rx.maxNow : Field := ⟨311, 32, true, 0⟩
def Rx.skewNow : Field := ⟨312, 32, true, 0⟩
def Rx.haveLead : Field := ⟨313, 1, false, 0⟩
/-- Next line to release: frame and line; active lines in a row released with no data. -/
def Rx.relK : Field := ⟨314, 0, true, 0⟩
def Rx.relL : Field := ⟨315, 0, false, 0⟩
def Rx.noData : Field := ⟨316, 0, false, 0⟩
/-- Next audio sample to release, plus one; extended sequence number released last, plus one. -/
def Rx.relIdx : Field := ⟨317, 0, true, 0⟩
def Rx.relSeq : Field := ⟨319, 0, false, 0⟩
/-- ST 2022-6: frame of the datagram released last; sequence number of that frame's first datagram, plus one (0 not known); the line
under way lacks data of the group. Instants (`clk`, plus one) of the last packet accepted on each leg. -/
def Rx.dgK : Field := ⟨320, 0, true, 0⟩
def Rx.dgBase : Field := ⟨321, 0, false, 0⟩
def Rx.coupled : Field := ⟨322, 1, false, 0⟩
def Rx.accAt (leg : Nat) : Field := ⟨323 + leg, 0, false, 0⟩

abbrev rxOff : Int := 0
abbrev rxWait : Int := 1
abbrev rxSync : Int := 2
abbrev rxRunning : Int := 3
abbrev rxGone : Int := 4
abbrev rxMismatch : Int := 5

/-! Lists of a context: 0 data stored (video rows frame, line, row of the line, first sample, samples, and their words packed; audio rows
sample index and values; ST 2022-6 rows sequence, release instant, frame, payload packed), 2 the sequence window, 4 ANC packets stored,
5 frame origins under ALIGN = TS, 6 running line CRCs of the seat (ST 2110-20) or what is left of a word: value, bits, whether filler
is in it (ST 2022-6). -/

/-- Rows of a list, `n` numbers each. -/
def rowsOf (n : Nat) : Nat → List Int → List (List Int)
  | 0, _ => []
  | fuel + 1, l => if l.length < n then [] else l.take n :: rowsOf n fuel (l.drop n)
def State.rows (s : State) (u p n : Nat) : List (List Int) := rowsOf n (s.buf u p).length (s.buf u p)
def State.setRows (s : State) (u p : Nat) (l : List (List Int)) : State := s.setBuf u p l.flatten
def at_ (r : List Int) (i : Nat) : Int := r.getD i 0
/-- Numbers below `b` as one number, and back. -/
def packNums (b : Nat) (l : List Nat) : Nat := l.foldr (fun w x => w + b * x) 1
def unpackNums (b : Nat) : Nat → Nat → List Nat
  | 0, _ => []
  | fuel + 1, x => if x ≤ 1 then [] else x % b :: unpackNums b fuel (x / b)
/-- Words of a packed list of at most 8,192. -/
def wordsIn (x : Int) : List Nat := unpackNums 1024 8192 x.toNat
/-- Bits of octets, most significant first; the number that the first `n` bits spell; whole ten-bit words. -/
def octetBits (l : List Nat) : List Bool := l.flatMap fun o => bitsMsb 8 o
def takeBits (n : Nat) (l : List Bool) : Nat := (l.take n).foldl (fun a b => 2 * a + if b then 1 else 0) 0
def tenBits (l : List Bool) : List Nat := (chunks 10 (l.length / 10) l).map (takeBits 10)

/-! ### Rasters on the wire -/

/-- Octets and samples of a pixel group (ST 2110-20). -/
def pgroup (sampling depth : Nat) : Nat × Nat :=
  if sampling = 0 then (if depth = 0 then (5, 2) else (6, 2)) else if depth = 0 then (15, 4) else (9, 2)
/-- Payload octets of one row, and of one active interface line. -/
def rowOctets (id sampling depth : Nat) : Nat := let g := pgroup sampling depth; activeWidth id * g.1 / g.2
def lineOctets (id sampling depth : Nat) : Nat := rowOctets id sampling depth * (if 0x15 ≤ id % 32 then 2 else 1)
/-- Combinations of Table 7.7. -/
def videoFormatOk (id sampling depth : Nat) : Bool :=
  rasterOk id && (nativeFormat sampling depth || (decide (5 ≤ id % 32) && decide (id % 32 ≤ 0x19)))
/-- Samples in a packet of PTIME, and octets of a sample on the wire. -/
def packetSamples (ptime : Nat) : Nat := if ptime = 0 then 48 else 6
def sampleOctets (ty sdepth : Nat) : Nat := if ty = 3 then 4 else if sdepth = 0 then 2 else 3
/-- Receive buffer hold capacity of a seat in grains: 1,441,792 bits at the seat's interface rate (Table 7.8). -/
def holdCapacity (id : Nat) (native : Bool) : Nat := 1441792 * (raster id).line / ((seatRas id native).words * 10)
/-- Arrival of a packet whose last bit passes the MAC now, to 1.6 ns (R215). -/
def State.arrival (s : State) : Int := (s.now : Int) / (16 * Config.ns / 10 : Nat) * (16 * Config.ns / 10 : Nat)

/-! ### Configuration (R207, R208, R220) -/

/-- Parameter values of a context as they stand once everything staged commits. -/
def State.rxVals (s : State) (c : Nat) : List Int :=
  (s.staged.foldl (fun a e => match e.eff with
    | .cfg 0xA0 i _ vs => if i = c then some vs else a
    | _ => a) none).getD (s.valsOf (U.rx c) Rx.rxflowParams)
/-- Contexts configured or staged, other than `c`. -/
def State.rxOthers (s : State) (c : Nat) : List (List Int) :=
  let conf := s.regs.filterMap fun e => if e.1.pos = Rx.TYPE.pos && decide (U.rx 0 ≤ e.1.unit) && decide (e.1.unit < U.rx 8192) then some (e.1.unit - U.rx 0) else none
  let st := s.staged.filterMap fun e => match e.eff with
    | .cfg 0xA0 i _ _ => some i
    | _ => none
  (((conf ++ st).eraseDups).filter (· != c)).map s.rxVals

/-- The limits of an essence group (R220): types and channels of its members. -/
def groupOk (ms : List (Nat × Nat)) : Bool :=
  let n := fun (f : Nat → Bool) => (ms.filter fun m => f m.1).length
  let chans : Nat := ((ms.filter fun m => m.1 == 2 || m.1 == 3).map (·.2)).foldl (· + ·) 0
  decide (n (fun t => t == 1 || t == 5) ≤ 1) && decide (n (fun t => t == 2 || t == 3) ≤ 8) && decide (chans ≤ 32) && decide (n (· == 4) ≤ 2)

def rxflowChecks (s : State) (vs : List Int) (c : Nat) : Checks :=
  let ps := Rx.rxflowParams
  let u := U.rx c
  let n := pn ps vs
  let ty := n Rx.TYPE
  let seat := n Rx.SEAT
  let formatOk := match ty with
    | 1 => videoFormatOk (n Rx.RASTER) (n Rx.SAMPLING) (n Rx.DEPTH)
    | 2 => decide (n Rx.CHANNELS * sampleOctets 2 (n Rx.SDEPTH) * packetSamples (n Rx.PTIME) ≤ 1440)
    | 3 => n Rx.CHANNELS % 2 == 0
    | 5 => rasterOk (n Rx.RASTER) && decide ((raster (n Rx.RASTER)).rate ≤ 2) && decide (500 ≤ pv ps vs Rx.RX_OFFSET)
    | _ => true
  let feed := feedOf 0xA0 c 0 vs
  let others := s.rxOthers c
  let audio := fun (v : List Int) => if pn ps v Rx.TYPE = 2 ∨ pn ps v Rx.TYPE = 3 then pn ps v Rx.CHANNELS else 0
  let group := (others.filter fun v => pn ps v Rx.SEAT == seat && pn ps v Rx.TYPE != 0).map fun v => (pn ps v Rx.TYPE, pn ps v Rx.CHANNELS)
  let old := s.rn u Rx.SEAT
  let key := [Rx.TYPE, Rx.RASTER, Rx.SAMPLING, Rx.DEPTH, Rx.SEAT].any fun f => pv ps vs f != s.rd u f
  [(.range, !paramsOk ps vs || !formatOk || ((ty == 1 || ty == 4 || ty == 5) && seat == 0x7FF) ||
      (feed.isSome && decide (131072 < n Rx.FIRST_ACH + n Rx.CHANNELS))),
   (.locked, (key && old != 0x7FF && s.timedSelects (1152 + old)) || s.feedLocked feed),
   (.bandwidth, decide (32768 < audio vs + (others.map audio).foldl (· + ·) 0)),
   (.bundle, seat != 0x7FF && ty != 0 && !groupOk ((ty, n Rx.CHANNELS) :: group))]

/-- Plan of the seat's Kerb when it is TIMED, otherwise that of the staging thread (R207). -/
def State.rxPlan (s : State) (seat t : Nat) : Nat := if seat = 0x7FF then s.thn t Lamp.PLAN else s.kerbPlan (1152 + seat) t

def judgeRxflow (i : Issue) (s : State) : Judged :=
  let ps := Rx.rxflowParams
  let pr := getParams ps false i
  let vs := pr.getD []
  let cs := targets i 0x0B (U.rx 0) 8192
  { checks := (.format, i.badFlags true false true false || pr.isNone) :: eachTarget cs (rxflowChecks s vs)
    verdict := .stage ((cs.getD []).map fun c => ⟨s.rxPlan (pn ps vs Rx.SEAT) i.th, 0, [⟨U.rx c, 0⟩], [U.rx c], .cfg 0xA0 c 0 vs⟩) }
def execRxflow (i : Issue) (s : State) : Res := .next (s.issue i (.ticked 0xA0) (judgeRxflow i))

/-! ### States (Table 7.6, R209, R222) -/

/-- Context that gives the group of `c` its frame origin and release offset. -/
def State.groupVideo (s : State) (c : Nat) : Option Nat :=
  let seat := s.rn (U.rx c) Rx.SEAT
  if seat = 0x7FF then none else s.rxOfSeat (1152 + seat)
def State.rxIsVideo (s : State) (c : Nat) : Bool := s.rn (U.rx c) Rx.TYPE == 1 || s.rn (U.rx c) Rx.TYPE == 5

/-- Enter a state: LOST and MISMATCH are posted, and a video context that leaves RUNNING takes its seat's Kerb to LOST. -/
def State.rxEnter (s : State) (c : Nat) (st : Int) : State :=
  let u := U.rx c
  let old := s.rd u Rx.STATE
  if old = st then s
  else
    let s1 := s.wr u Rx.STATE st
    let s2 := if st = rxGone then s1.post u 0x040E (detail 0 4 old.toNat 0)
      else if st = rxMismatch then s1.post u 0x040B (detail Code.rate.num 5 old.toNat 0) else s1
    let k := 1152 + s.rn u Rx.SEAT
    if old = rxRunning && s.rxIsVideo c && s.rn u Rx.SEAT != 0x7FF && s2.rd (U.kerb k) Kerb.STATE != kEmpty then
      s2.kerbLose k
    else s2

/-- The context forgets what it has received. -/
def State.rxClear (s : State) (c : Nat) : State :=
  let u := U.rx c
  let s1 := [0, 2, 4, 5, 6].foldl (fun (a : State) p => a.setBuf u p []) s
  s1.wrs u [(Rx.any, 0), (Rx.relK, 0), (Rx.relL, 0), (Rx.noData, 0), (Rx.relIdx, 0), (Rx.dgBase, 0), (Rx.coupled, 0), (Rx.relSeq, 0), (Rx.errRun, 0), (Rx.errK, -2), (Src.last, 0)]

/-- Between two states the rate of a seat may have moved: FOLLOW outputs that cannot carry it count it (R184). -/
def State.seatRateMoved (k : Nat) (old s : State) : State :=
  let key := s.srcRate 1 k
  if k < 2304 ∧ old.srcRate 1 k ≠ key then State.rateMoved 8 k key s else s
/-- A context commits (R207, Table 7.6). -/
def State.commitRxflow (s : State) (c : Nat) (vs : List Int) : State :=
  let ps := Rx.rxflowParams
  let u := U.rx c
  let fresh := [Rx.TYPE, Rx.SEAT, Rx.RASTER, Rx.SAMPLING, Rx.DEPTH, Rx.CHANNELS, Rx.PTIME, Rx.SDEPTH].any fun f => pv ps vs f != s.rd u f
  let ssrc := pv ps vs Rx.SSRC_MODE != s.rd u Rx.SSRC_MODE || pv ps vs Rx.SSRC != s.rd u Rx.SSRC
  let match_ := pn ps vs Rx.SSRC_MODE == 2
  let s1 := if fresh then (s.rxEnter c (if pn ps vs Rx.TYPE = 0 then rxOff else rxWait)).rxClear c else s
  let s2 := State.seatRateMoved (1152 + pn ps vs Rx.SEAT) s1 (s1.wrParams u ps vs)
  let s3 := if fresh then s2.wrs u [(Rx.LEGS, 0), (Rx.legAt 0, 0), (Rx.legAt 1, 0), (Rx.accAt 0, 0), (Rx.accAt 1, 0), (Rx.lastAt, 0)] else s2
  if ssrc || fresh then
    let v : Int := if match_ then pv ps vs Rx.SSRC else 0
    s3.wrs u [(Rx.latched 0, 0), (Rx.latched 1, 0), (Rx.SSRC_A, v), (Rx.SSRC_B, v)]
  else s3

/-! ### Media time (R212, R213) -/

/-- Extended timestamp of R212. -/
def State.tsExt (s : State) (clk ts : Nat) : Int :=
  let d : Int := 2 ^ 32 * Config.second
  ts + 2 ^ 32 * ((2 * ((s.now : Int) * clk - ts * Config.second) + d) / (2 * d))
/-- Frame of a video timestamp. -/
def frameOfTs (id : Nat) (x : Int) : Int :=
  let r := raster id
  (4 * x * r.num + 90000 * r.den) / (4 * 90000 * r.den)
/-- t_k in grains: the frame origin, or under ALIGN = TS what the frame's first packet carried. -/
def State.rxOrigin (s : State) (c : Nat) (k : Int) : Int :=
  let u := U.rx c
  let T : Int := (raster (s.rn u Rx.RASTER)).frame
  if s.rb u Rx.ALIGN then
    match (s.rows u 5 2).find? (fun r => at_ r 0 == k) with
    | some r => at_ r 1
    | none => match (s.rows u 5 2).getLast? with
      | some r => at_ r 1 + (k - at_ r 0) * T
      | none => k * T
  else k * T
/-- r(k, L) of R213. -/
def State.rxRelease (s : State) (c : Nat) (k : Int) (line : Int) : Int :=
  let u := U.rx c
  s.rxOrigin c k + s.rd u Rx.RX_OFFSET * Config.ns + (line - 1) * (raster (s.rn u Rx.RASTER)).line
/-- Kerb alignment delay A in grains, 0 for a FREE Kerb. -/
def State.seatDelay (s : State) (seat : Nat) : Int :=
  if seat ≠ 0x7FF ∧ s.rb (U.kerb (1152 + seat)) Kerb.MODE then s.rd (U.kerb (1152 + seat)) Kerb.ALIGN_DELAY * Config.ns else 0
/-- Release offset in force: the video context's in an essence group (R220), in grains. -/
def State.rxOffset (s : State) (c : Nat) : Int :=
  match s.groupVideo c with
  | some v => s.rd (U.rx v) Rx.RX_OFFSET * Config.ns
  | none => s.rd (U.rx c) Rx.RX_OFFSET * Config.ns
/-- Instant of an audio sample. -/
def sampleAt (idx : Int) : Int := idx * Config.second / 48000

/-! ### Legs, SSRC, sequence (R217, R223) -/

/-- A packet of a leg: the leg is UP, which is posted where legs are merged. -/
def State.legSeen (s : State) (c leg : Nat) : State :=
  let u := U.rx c
  let legs := s.rn u Rx.LEGS
  let s1 := s.wr u (Rx.legAt leg) (s.clk + 1)
  if bitAt legs leg then s1
  else
    let s2 := s1.wr u Rx.LEGS (setBit legs leg)
    if s.rb u Rx.MERGE then s2.post u 0x040D leg else s2

/-- SSRC rule: the place of its latch is the leg's own under MERGE. -/
def State.ssrcPlace (s : State) (c leg : Nat) : Nat := if s.rb (U.rx c) Rx.MERGE then leg else 0
def State.ssrcOk (s : State) (c leg ssrc : Nat) : Bool :=
  let u := U.rx c
  let p := s.ssrcPlace c leg
  match s.rn u Rx.SSRC_MODE with
  | 0 => true
  | 1 => !s.rb u (Rx.latched p) || s.rn u (if p = 0 then Rx.SSRC_A else Rx.SSRC_B) == ssrc
  | _ => s.rn u Rx.SSRC == ssrc
def State.ssrcLatch (s : State) (c leg ssrc : Nat) : State :=
  let u := U.rx c
  let p := s.ssrcPlace c leg
  if s.rn u Rx.SSRC_MODE = 1 ∧ !s.rb u (Rx.latched p) then s.wrs u [(Rx.latched p, 1), (if p = 0 then Rx.SSRC_A else Rx.SSRC_B, ssrc)] else s

/-- Extended sequence number: with its high half where the format carries it, otherwise nearest the newest accepted. -/
def State.extSeq (s : State) (c seq : Nat) (hi : Option Nat) : Nat :=
  let new := s.rn (U.rx c) Rx.EXT_SEQ
  match hi with
  | some h => h * 65536 + seq
  | none =>
    if !s.rb (U.rx c) Rx.any then seq
    else ((new : Int) + signedAt 16 ((seq + 65536 - new % 65536) % 65536) + 2 ^ 32).toNat % 2 ^ 32
/-- How far sequence number `q` lies after the newest accepted. -/
def State.seqAhead (s : State) (c q : Nat) : Int := signedAt 32 ((q + 2 ^ 32 - s.rn (U.rx c) Rx.EXT_SEQ) % 2 ^ 32)

/-- An entry of the sequence window: number, legs seen, release instant, first arrival, whether it has been counted, for ANC the frame
and line of its first and last packet, and whether what arrived was dropped. -/
structure Win where
  seq : Int
  legs : Nat
  rel : Int
  arr : Int
  done : Bool
  k : Int
  l1 : Int
  l2 : Int
  drop : Bool
deriving DecidableEq, Repr
def winOf (r : List Int) : Win := ⟨at_ r 0, (at_ r 1).toNat, at_ r 2, at_ r 3, at_ r 4 == 1, at_ r 5, at_ r 6, at_ r 7, at_ r 8 == 1⟩
def Win.row (w : Win) : List Int := [w.seq, w.legs, w.rel, w.arr, if w.done then 1 else 0, w.k, w.l1, w.l2, if w.drop then 1 else 0]
def State.window (s : State) (c : Nat) : List Win := (s.rows (U.rx c) 2 9).map winOf
def State.setWindow (s : State) (c : Nat) (l : List Win) : State := s.setRows (U.rx c) 2 (l.map Win.row)
/-- Insertion in order of sequence numbers, which stay within 32,767 of one another. -/
def winInsert (w : Win) : List Win → List Win
  | [] => [w]
  | x :: t => if signedAt 32 ((w.seq - x.seq) % 2 ^ 32).toNat < 0 then w :: x :: t else x :: winInsert w t

/-- Count what has been released: sequence numbers from one leg only, and those from neither (R223). -/
def State.winSettle (s : State) (c : Nat) : State :=
  let u := U.rx c
  let l := s.window c
  -- everything up to the last entry released
  let n := (l.zipIdx).foldl (fun (a : Nat) (e : Win × Nat) => if e.1.done || decide (e.1.rel ≤ (s.now : Int)) then e.2 + 1 else a) 0
  let r := (l.take n).foldl (fun (a : State × List Win) w =>
    if w.done then (a.1, a.2 ++ [w])
    else
      let b := a.1
      let last := b.rn u Rx.relSeq
      let gap := if last = 0 then 0 else signedAt 32 ((w.seq - last + 2 ^ 32) % 2 ^ 32).toNat
      let b1 := b.countBy u Ctr.Rx.LOST_PACKETS gap.toNat
      let b2 := if !b.rb u Rx.MERGE || w.drop then b1 else if w.legs = 1 then b1.count u Ctr.Rx.A_ONLY else if w.legs = 2 then b1.count u Ctr.Rx.B_ONLY else b1
      (b2.wr u Rx.relSeq (w.seq + 1), a.2 ++ [{ w with done := true }])) (s, [])
  -- entries stay for second copies, and those of ANC for gaps from one frame to the next
  let keep : Int := if s.rn u Rx.TYPE = 4 then 100 * Config.ms else 10 * Config.ms
  r.1.setWindow c ((r.2 ++ l.drop n).filter fun w => !w.done || decide ((s.now : Int) < w.rel + keep))
/-- Packets with sequence number `q` have arrived on a leg and were dropped: it is not one that arrived on neither leg (R223). -/
def State.rxDropped (s : State) (c leg q : Nat) (rel : Int) : State :=
  let w := s.window c
  if w.any (fun x => x.seq == (q : Int)) then s else s.setWindow c (winInsert ⟨q, 2 ^ leg, rel, s.now, false, 0, 0, 0, true⟩ w)
/-- A packet that is too late, or too early for the store (R215, R219). -/
def State.rxLate (s : State) (c leg q : Nat) (rel : Int) : State := (s.countLimited (U.rx c) Ctr.Rx.LATE_PACKETS 0x0409 0).rxDropped c leg q rel
def State.rxEarly (s : State) (c leg q : Nat) (rel : Int) : State := (s.countLimited (U.rx c) Ctr.Rx.OVERFLOW_PACKETS 0x040A 0).rxDropped c leg q rel

/-! ### Acceptance -/

/-- Lead statistics of an accepted packet (Table 7.12). -/
def State.leadStat (s : State) (c : Nat) (lead : Int) : State :=
  let u := U.rx c
  let ns := lead / Config.ns
  if s.rb u Rx.haveLead then s.wrs u [(Rx.minNow, min ns (s.rd u Rx.minNow)), (Rx.maxNow, max ns (s.rd u Rx.maxNow))]
  else s.wrs u [(Rx.haveLead, 1), (Rx.minNow, ns), (Rx.maxNow, ns)]

/-- A packet of a leg is accepted, or is the second copy of one: the leg's SSRC is latched (R217). -/
def State.rxTaken (s : State) (c leg ssrc : Nat) : State := (s.ssrcLatch c leg ssrc).wr (U.rx c) (Rx.accAt leg) (s.clk + 1)
/-- A packet is accepted: SSRC latch, newest sequence number, window and leads; a context that waits, is lost, or begins again goes to
SYNC at frame or sample `k`. -/
def State.rxAccept (s : State) (c leg ssrc q : Nat) (k rel lead l1 l2 : Int) : State :=
  let u := U.rx c
  let first := !s.rb u Rx.any
  let s1 := (s.rxTaken c leg ssrc).leadStat c lead
  let s2 := s1.wrs u [(Rx.any, 1), (Rx.lastAt, s.clk + 1), (Rx.EXT_SEQ, if first ∨ 0 < s.seqAhead c q then (q : Int) else s.rd u Rx.EXT_SEQ)]
  let w := s2.window c
  let old := w.filter fun x => x.seq != (q : Int)
  let s3 := s2.setWindow c (winInsert ⟨q, 2 ^ leg, rel, s.now, false, k, l1, l2, false⟩ old)
  let st := s.rd u Rx.STATE
  if st = rxWait ∨ st = rxGone ∨ (st = rxSync ∧ first) then
    (s3.rxEnter c rxSync).wrs u [(Rx.firstK, k), (Rx.relK, 0), (Rx.relL, 0), (Rx.relIdx, 0), (Rx.dgBase, 0), (Rx.noData, 0)]
  else s3

/-- A second copy of a sequence number in the window (R223). -/
def State.rxDuplicate (s : State) (c leg ssrc q : Nat) : Option State :=
  let u := U.rx c
  match (s.window c).find? fun w => w.seq == (q : Int) && !w.drop with
  | some w =>
    if !s.rb u Rx.MERGE then none
    else
      let d := ((s.now : Int) - w.arr) / Config.ns
      let skew := if bitAt w.legs leg then 0 else if leg = 1 then d else -d
      let s1 := ((s.rxTaken c leg ssrc).count u Ctr.Rx.DUPLICATES).setWindow c ((s.window c).map fun x => if x.seq = w.seq then { x with legs := if bitAt x.legs leg then x.legs else x.legs + 2 ^ leg } else x)
      some (if (s.rd u Rx.skewNow).natAbs < skew.natAbs then s1.wr u Rx.skewNow skew else s1)
  | none => none

/-! ### ST 2110-20 (R214 to R216) -/

structure Srd where
  len : Nat
  field : Nat
  row : Nat
  off : Nat
deriving DecidableEq, Repr

/-- Sample row data headers, at most three; none where there are more or the packet ends (ST 2110-20, PRESUMED layout). -/
def parseSrds : Nat → List Nat → Option (List Srd × List Nat)
  | 0, _ => none
  | n + 1, l =>
    if l.length < 6 then none
    else
      let a := be l 2 2
      let b := be l 4 2
      let h : Srd := ⟨be l 0 2, a / 32768, a % 32768, b % 32768⟩
      if b / 32768 = 0 then some ([h], l.drop 6)
      else match parseSrds n (l.drop 6) with
        | some (t, rest) => some (h :: t, rest)
        | none => none

/-- R214. -/
def srdBad (id sampling depth : Nat) (hs : List Srd) (data : Nat) : Bool :=
  let g := pgroup sampling depth
  let prog := !(interlaced id || psf id)
  decide (data < (hs.map (·.len)).foldl (· + ·) 0) ||
  hs.any fun h => (prog && h.field == 1) || decide (fieldRows id h.field ≤ h.row) || decide (activeWidth id ≤ h.off) || h.len % g.1 != 0 || h.off % g.2 != 0 ||
    decide (activeWidth id < h.off + h.len / g.1 * g.2)

/-- A format error of ST 2110-20 in frame `k`: MISMATCH after two frames in a row (Table 7.6). -/
def State.rxFormatError (s : State) (c leg q : Nat) (k : Int) : State :=
  let u := U.rx c
  let s1 := (s.count u Ctr.Rx.FORMAT_ERRORS).rxDropped c leg q (s.rxRelease c k (raster (s.rn u Rx.RASTER)).lines)
  let e := s.rd u Rx.errK
  let run := if k = e then max 1 (s.rn u Rx.errRun) else if k = e + 1 then s.rn u Rx.errRun + 1 else 1
  let s2 := s1.wrs u [(Rx.errK, k), (Rx.errRun, run), (Rx.curK, k)]
  let st := s.rd u Rx.STATE
  if 2 ≤ run ∧ st ≠ rxOff then s2.rxEnter c rxMismatch else s2

/-- In MISMATCH, a frame that ended with no format errors takes the context back to SYNC (Table 7.6). -/
def State.rxCleanFrame (s : State) (c : Nat) (k : Int) : State :=
  let u := U.rx c
  let cur := s.rd u Rx.curK
  let s1 := s.wr u Rx.curK (max cur k)
  if s.rd u Rx.STATE = rxMismatch ∧ cur < k ∧ s.rd u Rx.errK < cur then
    (s1.rxEnter c rxSync).wrs u [(Rx.firstK, k), (Rx.relK, 0), (Rx.relL, 0), (Rx.noData, 0)] else s1

/-- What each sample row of a packet carries. -/
def srdParts : List Srd → List Nat → List (Srd × List Nat)
  | [], _ => []
  | h :: t, l => (h, l.take h.len) :: srdParts t (l.drop h.len)
/-- Row of the interface line that a raster row is: 1 for the second of a 2160p line. -/
def lineSub (id row : Nat) : Nat := if 0x15 ≤ id % 32 then row % 2 else 0
/-- Rows [frame, line, row of the line, first sample, samples, words packed] that a packet of frame `k` stores. -/
def videoRows (id sampling depth : Nat) (k : Int) (parts : List (Srd × List Nat)) : List (List Int) :=
  let g := pgroup sampling depth
  parts.map fun p => [k, (rowLine id p.1.field p.1.row : Nat), (lineSub id p.1.row : Nat), (p.1.off : Nat), (p.1.len / g.1 * g.2 : Nat),
    (packNums 1024 (tenBits (octetBits p.2)) : Nat)]

/-- A video packet that passed the RTP checks. -/
def State.rxVideo (s : State) (c leg q : Nat) (r : Rtp) : State :=
  let u := U.rx c
  let id := s.rn u Rx.RASTER
  let x := s.tsExt 90000 r.ts
  let k := frameOfTs id x
  match parseSrds 3 (r.body.drop 2) with
  | none => s.rxFormatError c leg q k
  | some (hs, data) =>
    if srdBad id (s.rn u Rx.SAMPLING) (s.rn u Rx.DEPTH) hs data.length then s.rxFormatError c leg q k
    else
      let s := s.rxCleanFrame c k
      let known := (s.rows u 5 2).any fun e => at_ e 0 == k
      let s := if s.rb u Rx.ALIGN && !known then s.setRows u 5 (((s.rows u 5 2).drop ((s.rows u 5 2).length - 3)) ++ [[k, x * Config.second / 90000]]) else s
      let lines := hs.map fun h => (rowLine id h.field h.row : Int)
      let la := lines.foldl min (lines.headD 1)
      let lb := lines.foldl max (lines.headD 1)
      let lead := s.rxRelease c k la - s.arrival
      if 2 * lead < Config.us then s.rxLate c leg q (s.rxRelease c k lb)
      else if holdCapacity id (s.rxNative c) - s.seatDelay (s.rn u Rx.SEAT) < s.rxRelease c k lb - s.arrival then s.rxEarly c leg q (s.rxRelease c k lb)
      else
        let s1 := s.rxAccept c leg r.ssrc q k (s.rxRelease c k lb) lead la lb
        let s2 := s1.wr u Rx.TS_OFFSET (x - 90000 * s1.rxOrigin c k / Config.second)
        if s2.rd u Rx.STATE = rxMismatch then s2
        else s2.setRows u 0 (s2.rows u 0 6 ++ videoRows id (s.rn u Rx.SAMPLING) (s.rn u Rx.DEPTH) k (srdParts hs data))

/-! ### Audio (R219) -/

/-- 24-bit signed samples of a payload, frame by frame. -/
def audioSamples (ty sdepth channels : Nat) (body : List Nat) : List (List Int) :=
  let o := sampleOctets ty sdepth
  let n := body.length / (o * channels)
  (List.range n).map fun i => (List.range channels).map fun q =>
    let p := (i * channels + q) * o
    if ty = 3 then signedAt 24 (be body (p + 1) 3) else if o = 2 then signedAt 16 (be body p 2) * 256 else signedAt 24 (be body p 3)
/-- AES3 flags of ST 2110-31 subframes (PRESUMED layout): [5] block start, [2] C, [1] U, [0] V. -/
def aesFlags (channels : Nat) (body : List Nat) : List (List Nat) :=
  (List.range (body.length / (4 * channels))).map fun i => (List.range channels).map fun q => be body ((i * channels + q) * 4) 1

/-- Channel status of an ST 2110-31 channel, collected over a block and latched where its CRCC agrees (R357). -/
def State.rxChannelStatus (s : State) (u q flags : Nat) : State :=
  let have_ := s.buf u (100 + q)
  let cs := ofBitsLsb (have_.map (· != 0))
  let z := bitAt flags 5
  let s1 := if z && have_.length == 192 && csGood cs then s.setBuf u (20 + q) [(cs : Int)] else s
  let b : Int := if bitAt flags 2 then 1 else 0
  if z then s1.setBuf u (100 + q) [b]
  else if have_.isEmpty ∨ 192 ≤ have_.length then s1.setBuf u (100 + q) [] else s1.setBuf u (100 + q) (have_ ++ [b])

/-- An audio packet that passed the RTP checks. Rows stored: sample index, values, and for ST 2110-31 the flags. -/
def State.rxAudio (s : State) (c leg q : Nat) (r : Rtp) : State :=
  let u := U.rx c
  let ty := s.rn u Rx.TYPE
  let ch := s.rn u Rx.CHANNELS
  let n := packetSamples (s.rn u Rx.PTIME)
  if r.body.length ≠ ch * n * sampleOctets ty (s.rn u Rx.SDEPTH) then (s.countLimited u Ctr.Rx.FORMAT_ERRORS 0x0406 0).rxDropped c leg q s.now
  else
    let x := s.tsExt 48000 r.ts
    let rel := sampleAt x + s.rxOffset c
    let lead := rel - s.arrival
    if 2 * lead < Config.us then s.rxLate c leg q rel
    else if 8 * (Config.ms : Int) < lead then s.rxEarly c leg q rel
    else
      let s1 := s.rxAccept c leg r.ssrc q x rel lead 0 0
      let s2 := s1.wr u Rx.TS_OFFSET 0
      let s3 := if s2.rd u Rx.relIdx = 0 then s2.wr u Rx.relIdx (x + 1) else s2
      let vals := audioSamples ty (s.rn u Rx.SDEPTH) ch r.body
      let fl := if ty = 3 then aesFlags ch r.body else vals.map fun l => l.map fun _ => 0
      s3.setRows u 0 (s3.rows u 0 (1 + 2 * ch) ++ ((vals.zip fl).zipIdx).map fun e => (x + (e.2 : Int)) :: (e.1.1 ++ e.1.2.map fun (v : Nat) => (v : Int)))

/-! ### Ancillary data (R219, RFC 8331) -/

/-- An RFC 8331 ANC packet: C, line, stream (0 where not given), and its words DID, SDID, DC, UDW, checksum. -/
structure Anc where
  c : Bool
  line : Nat
  stream : Nat
  words : List Nat
  ok : Bool
deriving DecidableEq, Repr

def parityOk (w : Nat) : Bool :=
  let p := ((List.range 8).filter (bitAt w)).length % 2 == 1
  bitAt w 8 == p && bitAt w 9 == !p
def parseAnc : Nat → List Bool → List Anc
  | 0, _ => []
  | n + 1, l =>
    let f := fun (o k : Nat) => takeBits k (l.drop o)
    let dc := f 52 10 % 256
    let ws := (List.range (4 + dc)).map fun i => f (32 + 10 * i) 10
    let body := ws.take (3 + dc)
    let sum := (body.map (· % 512)).foldl (· + ·) 0 % 512
    let cs := ws.getLastD 0
    let good := ((ws.take 3).all parityOk) && cs % 512 == sum && bitAt cs 9 == !bitAt cs 8 && decide (32 + 10 * (4 + dc) ≤ l.length)
    let len := (32 + 10 * (4 + dc) + 31) / 32 * 32
    ⟨f 0 1 == 1, f 1 11, if f 24 1 = 1 then f 25 7 else 0, ws, good⟩ :: parseAnc n (l.drop len)

/-- Stream of a line that an ANC packet goes into, by its C and StreamNum fields (streams as `blankWord` orders them). -/
def ancStream (n : Nat) (c : Bool) (stream : Nat) : Nat :=
  if n = 1 then 0 else if n = 2 then (if c then 0 else 1) else if n = 4 then stream % 4 else stream % 4 + (if c then 0 else 4)
/-- Words of ancillary data a line can hold in one stream: after SAV on a line without picture, before it on an active one. -/
def ancRoom (id line : Nat) (native : Bool) : Nat :=
  let n := (seatRas id native).eav / 4
  let act := seatActive id native / n
  if isActive id line then (seatRas id native).words / n - act - 4 - (if n = 1 then 4 else 8) else act
/-- First line after the switching line of the field that a packet without a line belongs to (R219). -/
def State.ancFirst (s : State) (v : Nat) (field2 : Bool) : Nat :=
  let id := s.rn (U.rx v) Rx.RASTER
  let k := U.kerb (1152 + s.rn (U.rx v) Rx.SEAT)
  (if s.rb k Kerb.MODE then s.swline (s.rn k Kerb.PLAN) else defaultSwline id) + (if field2 && twoFields id then field2Add id else 0) + 1
/-- An ANC packet of frame `k`: kept for its line, or dropped and counted. Rows: frame, line, stream, words used, words packed. -/
def State.ancStore (s : State) (c v : Nat) (k : Int) (field2 : Bool) (a : Anc) : State :=
  let u := U.rx c
  let id := s.rn (U.rx v) Rx.RASTER
  let native := s.rxNative v
  let key : Int := ancStream ((seatRas id native).eav / 4) a.c a.stream
  let stored := s.rows u 4 5
  let others := (s.holding (U.rx 0) 8192 Rx.SEAT (s.rn u Rx.SEAT : Nat)).flatMap fun m => if s.rn (U.rx m) Rx.TYPE = 4 then s.rows (U.rx m) 4 5 else []
  let size : Int := (a.words.length + 3 : Nat)
  let used := fun (line : Nat) => ((others.filter fun r => at_ r 0 == k && at_ r 1 == (line : Int) && at_ r 2 == key).map fun r => at_ r 3).foldl (· + ·) 0
  let fits := fun (line : Nat) => decide (used line + size ≤ ancRoom id line native)
  let first := s.ancFirst v field2
  -- 0x7FF and 0x7FE give no specific line (RFC 8331)
  let line := if a.line < 0x7FE then some a.line
    else ((List.range ((raster id).lines + 1 - first)).map (· + first)).find? fits
  match line with
  | some l =>
    if a.ok && decide (1 ≤ l) && decide (l ≤ (raster id).lines) && fits l then s.setRows u 4 (stored ++ [[k, l, key, size, (packNums 1024 a.words : Nat)]])
    else s.countLimited u Ctr.Rx.ANC_DROPS 0 0
  | none => s.countLimited u Ctr.Rx.ANC_DROPS 0 0

/-- An ANC packet that passed the RTP checks: its RFC 8331 header gives the field and the packets. -/
def State.rxAnc (s : State) (c leg q : Nat) (r : Rtp) : State :=
  let u := U.rx c
  match s.groupVideo c with
  | none => s
  | some v =>
    let id := s.rn (U.rx v) Rx.RASTER
    let x := s.tsExt 90000 r.ts
    let k := frameOfTs id x
    let as := parseAnc (be r.body 4 1) (octetBits (r.body.drop 8))
    let field2 := be r.body 5 1 / 64 == 3
    let lineOf := fun (a : Anc) => (if a.line < 0x7FE then (a.line : Int) else (s.ancFirst v field2 : Nat))
    let l1 := ((as.head?).map lineOf).getD 1
    let l2 := ((as.getLast?).map lineOf).getD l1
    let lead := s.rxRelease v k l1 - s.arrival
    if 2 * lead < Config.us then s.rxLate c leg q (s.rxRelease v k l2)
    else
      let s1 := (s.rxAccept c leg r.ssrc q k (s.rxRelease v k l2) lead l1 l2).wr u Rx.TS_OFFSET (x - 90000 * s.rxOrigin v k / Config.second)
      as.foldl (fun a p => a.ancStore c v k field2 p) s1

/-! ### ST 2022-6 (R218) -/

/-- FRAME and FRATE codes of the ST 2022-6 payload header for a raster (PRESUMED, ST 2022-6). -/
def hbrmtCodes (id : Nat) : Nat :=
  let r := id % 32
  let frame := if r = 0 then 0x10 else if r = 1 then 0x11 else if r ≤ 4 then 0x30 else if interlaced id then 0x20 else if psf id then 0x22 else 0x21
  let frate := match r with
    | 0 => 0x18 | 1 => 0x16 | 2 => 0x12 | 3 => 0x11 | 4 => 0x10 | 18 => 0x12 | 19 => 0x11 | 20 => 0x10
    | _ => if (raster id).num = 25 then 0x16 else if (raster id).num = 30000 then 0x17 else if (raster id).num = 30 then 0x15 else if (raster id).num = 24 then 0x19 else 0x1A
  frame * 2 ^ 8 + frate
/-- Octets of the payload header: with the source format where F is 1, a video timestamp where CF is not 0, and EXT words more. -/
def hbrmtHead (body : List Nat) : Nat :=
  let w := be body 0 4
  4 + (if bitAt w 27 then 4 else 0) + (if bitsAt w 8 5 = 0 then 0 else 4) + 4 * bitsAt w 31 28
/-- Datagrams of a frame, and the payload bits that datagram `idx` of it holds. -/
def dgPerFrame (id : Nat) : Nat := let r := raster id; (r.words * 10 * r.lines + 11007) / 11008
def dgBits (id idx : Nat) : Nat := let r := raster id; min 11008 (r.words * 10 * r.lines - idx * 11008)
/-- A datagram that passed the RTP checks: its length, and FRAME and FRATE as the stream's raster has them. -/
def State.rxDatagram (s : State) (c leg q : Nat) (r : Rtp) : State :=
  let u := U.rx c
  let id := s.rn u Rx.RASTER
  let h := hbrmtHead r.body
  let bad := r.body.length != h + 1376 || (bitAt (be r.body 0 4) 27 && bitsAt (be r.body 4 4) 27 12 != hbrmtCodes id)
  if bad then (s.countLimited u Ctr.Rx.FORMAT_ERRORS 0x0406 0).rxDropped c leg q s.now
  else
    let x := s.tsExt 90000 r.ts
    let k := frameOfTs id x
    let rel : Int := s.arrival + s.rd u Rx.RX_OFFSET * Config.ns
    let last := s.rn u Rx.relSeq
    if last ≠ 0 ∧ signedAt 32 ((q + 2 ^ 33 - last) % 2 ^ 32) < 0 ∧ s.rd u Rx.STATE = rxRunning then s.rxLate c leg q rel
    else
      let s1 := s.rxAccept c leg r.ssrc q k rel (rel - s.arrival) 0 0
      let s2 := s1.wr u Rx.TS_OFFSET (if s.rb u Rx.ALIGN then 0 else x - 90000 * (k * (raster id).frame) / Config.second)
      s2.setRows u 0 (s2.rows u 0 4 ++ [[(q : Int), rel, k, (packNums 256 (r.body.drop h) : Nat)]])

/-! ### One packet of a context (R217) -/

/-- A sequence number too far from the newest accepted: the context returns to SYNC and begins again from this packet. -/
def State.seqReset (s : State) (c : Nat) : State :=
  let s1 := (s.countLimited (U.rx c) Ctr.Rx.SEQ_RESETS 0x0408 0).rxClear c
  s1.rxEnter c rxSync

def State.flowPacket (s : State) (c leg : Nat) (l : List Nat) : State :=
  let u := U.rx c
  let r := parseRtp l
  let ty := s.rn u Rx.TYPE
  if ty = 0 || s.unitBad u then s
  else
    let s := s.count u (Ctr.Rx.PACKETS_A + leg)
    if r.version ≠ 2 then s.countLimited u Ctr.Rx.FORMAT_ERRORS 0x0406 0
    else if s.rn u Rx.PT ≠ 255 ∧ s.rn u Rx.PT ≠ r.pt then s.countLimited u Ctr.Rx.PT_REJECTS 0x0406 0
    else if !s.ssrcOk c leg r.ssrc then s.countLimited u Ctr.Rx.SSRC_REJECTS 0x0407 0
    else
      let s := s.legSeen c leg
      let q := s.extSeq c r.seq (if ty = 1 ∨ ty = 4 then some (be r.body 0 2) else none)
      let s := if s.rb u Rx.any ∧ 32767 < (s.seqAhead c q).natAbs then s.seqReset c else s
      match s.rxDuplicate c leg r.ssrc q with
      | some t => t
      | none => match ty with
        | 1 => s.rxVideo c leg q r
        | 2 => s.rxAudio c leg q r
        | 3 => s.rxAudio c leg q r
        | 4 => s.rxAnc c leg q r
        | _ => s.rxDatagram c leg q r

end Sys2Proof.Machine
end

