-- ==== Sys2Proof/Machine/Release.lean ====
section
/-!
DEFINITION. What a receive flow context does in time: release of lines, datagrams and audio samples with the slip coupling of
an essence group, loss, legs, SSRC, and the figures of the previous second (R209, R213, R216 to R223, R226).
-/
namespace Sys2Proof.Machine

/-- Contexts of the essence group that feeds packet input `seat`. -/
def State.groupOf (s : State) (seat : Nat) : List Nat :=
  (s.holding (U.rx 0) 8192 Rx.SEAT (seat : Nat)).filter fun c => s.rb (U.rx c) Rx.TYPE

/-- Indices of the 48 kHz samples whose instants lie in [a, b). -/
def sampleSpan (a b : Int) : List Int :=
  let i := gridCeil a 48000
  (List.range (gridCeil b 48000 - i).toNat).map fun (j : Nat) => i + (j : Int)

/-- A running audio member still lacks a sample of the interval [a, b) that it has yet to release (R221). -/
def State.lacksAudio (s : State) (m : Nat) (a b : Int) : Bool :=
  let u := U.rx m
  let l := s.rows u 0 (1 + 2 * s.rn u Rx.CHANNELS)
  (sampleSpan a b).any fun i => decide (s.rd u Rx.relIdx ≤ i + 1) && !l.any fun r => at_ r 0 == i
/-- A gap in an ANC member's accepted sequence spans line `line` of frame `k` (R221). -/
def ancGap (k line : Int) : List Win → Bool
  | x :: y :: t =>
    let before := decide (x.k < k) || (x.k == k && decide (x.l2 ≤ line))
    let after_ := decide (k < y.k) || (y.k == k && decide (line ≤ y.l1))
    ((y.seq - x.seq) % 2 ^ 32 != 1 && before && after_ && (x.k == k || y.k == k)) || ancGap k line (y :: t)
  | _ => false

/-- The samples of the interval are concealed: they leave the store unreleased. -/
def State.dropAudio (s : State) (m : Nat) (a b : Int) : State :=
  let u := U.rx m
  let n := 1 + 2 * s.rn u Rx.CHANNELS
  let gone := sampleSpan a b
  s.setRows u 0 ((s.rows u 0 n).filter fun r => !gone.contains (at_ r 0))

/-- Running members of the group of video context `c`. -/
def State.runningOf (s : State) (c : Nat) : List Nat := (s.groupOf (s.rn (U.rx c) Rx.SEAT)).filter fun m => s.rd (U.rx m) Rx.STATE == rxRunning
def State.rxKind (s : State) (m : Nat) : Nat := s.rn (U.rx m) Rx.TYPE
/-- Interval of line `line` of frame `k`. -/
def State.rxInterval (s : State) (c : Nat) (k line : Int) : Int × Int :=
  let r := raster (s.rn (U.rx c) Rx.RASTER)
  let t0 := s.rxOrigin c k + (line - 1) * r.line
  (t0, t0 + r.line)
/-- The slip of an interval: counted, the line is incomplete and the audio of the interval is concealed (R221). -/
def State.slipInterval (s : State) (c : Nat) (k line : Int) : State :=
  let u := U.rx c
  let t := s.rxInterval c k line
  (s.runningOf c).foldl (fun a m => if s.rxKind m = 2 ∨ s.rxKind m = 3 then a.dropAudio m t.1 t.2 else a)
    ((s.count u Ctr.Rx.GROUP_SLIP_LINES).count u Ctr.Rx.LINES_INCOMPLETE)
/-- A running audio or ANC member lacks data of the interval. -/
def State.groupLacks (s : State) (c : Nat) (k line : Int) : Bool :=
  let t := s.rxInterval c k line
  (s.runningOf c).any fun m => match s.rxKind m with
    | 2 => s.lacksAudio m t.1 t.2
    | 3 => s.lacksAudio m t.1 t.2
    | 4 => ancGap k line ((s.window m).filter fun w => !w.drop)
    | _ => false
/-- The ANC packets of an interval are released from an ANC member, whose first release takes it to RUNNING: rows of its list. -/
def State.releaseAnc (s : State) (m : Nat) (k line : Int) : List (List Int) × State :=
  let u := U.rx m
  let rows := s.rows u 4 5
  let here := rows.filter fun r => at_ r 0 == k && at_ r 1 == line
  let b := s.setRows u 4 (rows.filter fun r => decide (k < at_ r 0) || (at_ r 0 == k && decide (line < at_ r 1)))
  (here, if !here.isEmpty && b.rd u Rx.STATE == rxSync then b.rxEnter m rxRunning else b)
/-- Interval `line` of frame `k` of a group is released; `short` says that the video lacks some of it. Whether it is coupled, the ANC
packets that go into the line, and the state (R220, R221). -/
def State.releaseInterval (s : State) (c : Nat) (k line : Int) (short : Bool) : Bool × List AncOut × State :=
  let group := s.groupOf (s.rn (U.rx c) Rx.SEAT)
  let s1 := group.foldl (fun a m => a.winSettle m) s
  let coupled := short || s1.groupLacks c k line
  let s2 := if coupled then s1.slipInterval c k line else s1
  let r := group.foldl (fun (a : List AncOut × State) m =>
    if s.rxKind m = 4 then
      let x := a.2.releaseAnc m k line
      (a.1 ++ x.1.map fun r => ((at_ r 2).toNat, wordsIn (at_ r 4)), x.2)
    else a) ([], s2)
  (coupled, if coupled then [] else r.1, r.2)

/-! ### ST 2110-20 lines (R210, R213, R216) -/

/-- Samples of a row that pieces (first, number) reach from its start without a gap. -/
def reach (l : List (Nat × Nat)) : Nat → Nat → Nat
  | 0, p => p
  | fuel + 1, p => reach l fuel (l.foldl (fun a e => if e.1 ≤ a then max a (e.1 + e.2) else a) p)
/-- What has been stored of row `j` of a line. -/
def rowParts (rows : List (List Int)) (j : Nat) : List (List Int) := rows.filter fun r => at_ r 2 == (j : Int)
def rowWhole (id : Nat) (parts : List (List Int)) : Bool :=
  decide (activeWidth id ≤ reach (parts.map fun r => ((at_ r 3).toNat, (at_ r 4).toNat)) parts.length 0)
/-- A 4:2:2 10-bit row: what has been stored of it over black (R216). -/
def rowFilled (id : Nat) (parts : List (List Int)) : List Nat :=
  parts.foldl (fun a r => putWords a (2 * (at_ r 3).toNat) (wordsIn (at_ r 5))) (blackRow422 (activeWidth id))
/-- Payload ID of the seat of a context (R210). -/
def State.rxPid (s : State) (c : Nat) : Nat :=
  let u := U.rx c
  payloadId (s.rn u Rx.RASTER) (s.rxNative c) ⟨s.rn u Rx.SAMPLING, s.rb u Rx.DEPTH, s.rn u Rx.COLOUR, s.rb u Rx.RANGE_FULL⟩
/-- A line's active words: of a native seat from its rows; how the standards of Table 7.7 place a non-native row in words the spec does
not say, so each is a free value that no timing reference uses (notes/assumptions/97.md). -/
def State.rxActive (s : State) (c : Nat) (rows : List (List Int)) : List Nat × State :=
  let id := s.rn (U.rx c) Rx.RASTER
  if s.rxNative c then (wordsOfRows id ((List.range (rowsPerLine id)).map fun j => rowFilled id (rowParts rows j)), s)
  else (List.range (seatActive id false)).foldl (fun (a : List Nat × State) _ => let r := a.2.free 1016; (a.1 ++ [r.1 + 4], r.2)) ([], s)
/-- The interface line that the depacketiser builds. -/
def State.rxLine (s : State) (c line : Nat) (rows : List (List Int)) (anc : List AncOut) : List Nat × State :=
  let u := U.rx c
  let id := s.rn u Rx.RASTER
  let native := s.rxNative c
  let r := seatRas id native
  let n := r.eav / 4
  let (act, s1) := if isActive id line then (fun (x : List Nat × State) => (some x.1, x.2)) (s.rxActive c rows) else (none, s)
  let ws := buildLine id n (r.words / n) line act (seatActive id native) ((s.buf u 6).map (·.toNat)) (pidAnc id n line (s.rxPid c) ++ anc)
  (ws, s1.setBuf u 6 ((if n = 1 then [] else lineRegs ws).map fun (x : Nat) => (x : Int)))
/-- Interface line `line` of frame `k` is released into the Kerb, with the slip coupling of its group; what is incomplete is marked
(R213, R216, R221). -/
def State.releaseLine (s : State) (c : Nat) (k line : Int) : State :=
  let u := U.rx c
  let seat := 1152 + s.rn u Rx.SEAT
  let id := s.rn u Rx.RASTER
  let ras := raster id
  let active := isActive id line.toNat
  let rows := (s.rows u 0 6).filter fun r => at_ r 0 == k && at_ r 1 == line
  let short := active && !(List.range (rowsPerLine id)).all fun j => rowWhole id (rowParts rows j)
  let s1 := if s.rd u Rx.STATE = rxSync then s.rxEnter c rxRunning else s
  let (coupled, anc, s2) := s1.releaseInterval c k line short
  let (ws, s3) := s2.rxLine c line.toNat rows anc
  let s4 := (s3.seatIn seat (if coupled then ws.map (· + 1024) else ws)).kerbEav seat line.toNat false
  let noData := if !active then s.rn u Rx.noData else if rows.isEmpty then s.rn u Rx.noData + 1 else 0
  let last := decide ((ras.lines : Int) ≤ line)
  let s5 := (s4.setRows u 0 ((s4.rows u 0 6).filter fun r => decide (k < at_ r 0) || (at_ r 0 == k && decide (line < at_ r 1)))).wrs u
    [(Rx.noData, noData), (Rx.relK, if last then k + 1 else k), (Rx.relL, if last then 1 else line + 1)]
  if 2 ≤ noData then s5.rxEnter c rxGone else s5

/-- The next line of an ST 2110-20 context falls due (R213). The first line released is line 1 of the frame after that of the
first accepted packet (Table 7.6). -/
def execLineRelease (dt c : Nat) (s0 : State) : Res :=
  let s := s0.after dt
  let u := U.rx c
  let st := s.rd u Rx.STATE
  let k := if s.rn u Rx.relL = 0 then s.rd u Rx.firstK + 1 else s.rd u Rx.relK
  let line : Int := if s.rn u Rx.relL = 0 then 1 else s.rd u Rx.relL
  .next (s.ifUp [U.rx c] (if 8192 ≤ c ∨ s.rn u Rx.TYPE ≠ 1 ∨ !(st == rxSync || st == rxRunning) ∨ !s.rb u Rx.any ∨ (s.now : Int) < s.rxRelease c k line then s
    else s.releaseLine c k line))

/-! ### ST 2022-6 words (R218, R221) -/

/-- How far sequence number `q` lies ahead of the next one released, 0 where none has been. -/
def aheadOf (last : Nat) (q : Int) : Int := if last = 0 then 0 else signedAt 32 ((q - last + 2 ^ 32) % 2 ^ 32).toNat
/-- Place in its frame of datagram `q`, whose timestamp gives frame `k`: a frame begins where the frame changes with no datagram missing,
or as many datagrams after the frame before as a frame has (Table 7.11: frames are placed by timestamp, not by marker). -/
def State.dgPlace (s : State) (c : Nat) (q : Nat) (k : Int) : Option Nat :=
  let u := U.rx c
  let n := dgPerFrame (s.rn u Rx.RASTER)
  let last := s.rn u Rx.relSeq
  let base := s.rn u Rx.dgBase
  let dk := k - s.rd u Rx.dgK
  if last ≠ 0 ∧ q = last % 2 ^ 32 ∧ dk ≠ 0 then some 0
  else if base = 0 then none
  else
    let i := signedAt 32 (((q : Int) + 1 - base - n * dk) % 2 ^ 32).toNat
    if 0 ≤ i ∧ i < n then some i.toNat else none
/-- Pieces of a run of words by interface line: line, place in it, words. -/
def linePieces (words : Nat) : Nat → Nat → List Nat → List (Nat × Nat × List Nat)
  | 0, _, _ => []
  | fuel + 1, w, l => if l.isEmpty then [] else (w / words + 1, w % words, l.take (words - w % words)) :: linePieces words fuel (w + (words - w % words)) (l.drop (words - w % words))
/-- Words of line `line` of frame `k` go into the seat from place `pos`: the interval is released with its first word, and is coupled
where a member lacks data or where filler stands in the line. ANC packets of the group find no place, since a datagram carries the
interface words themselves (DESIGN CHOICE, notes/assumptions/98.md). -/
def State.dgPiece (s : State) (c : Nat) (k : Int) (fill : Bool) (p : Nat × Nat × List Nat) : State :=
  let u := U.rx c
  let s1 := if p.2.1 ≠ 0 then s
    else
      let r := s.releaseInterval c k p.1 false
      r.2.2.wr u Rx.coupled (if r.1 then 1 else 0)
  let s2 := if fill && !s1.rb u Rx.coupled then (s1.slipInterval c k p.1).wr u Rx.coupled 1 else s1
  s2.seatIn (1152 + s.rn u Rx.SEAT) (if s2.rb u Rx.coupled then p.2.2.map (· + 1024) else p.2.2)
/-- The bits of datagram `idx` of frame `k` follow what is left of a word. Filler (no payload) has the correct length and words of a
free value that no timing reference uses (notes/assumptions/98.md). -/
def State.dgFeed (s : State) (c : Nat) (k : Int) (idx : Nat) (payload : Option (List Nat)) : State :=
  let u := U.rx c
  let id := s.rn u Rx.RASTER
  let carry := s.buf u 6
  let have_ := (at_ carry 1).toNat
  let bits := dgBits id idx
  let n := (have_ + bits) / 10
  let left := (have_ + bits) % 10
  let soiled := at_ carry 2 == 1
  let first := idx * 11008 / 10
  let (ws, rest, s1) : List Nat × Nat × State := match payload with
    | some l =>
      let all := ((List.range have_).map fun i => bitAt (at_ carry 0).toNat (have_ - 1 - i)) ++ (octetBits l).take bits
      (tenBits all, takeBits left (all.drop (10 * n)), s)
    | none => (fun (x : List Nat × State) => (x.1, 0, x.2))
        ((List.range n).foldl (fun (a : List Nat × State) _ => let r := a.2.free 1016; (a.1 ++ [r.1 + 4], r.2)) ([], s))
  -- a word that filler has begun is filler
  let parts := if soiled ∧ payload ≠ none then [(true, first, ws.take 1), (false, first + 1, ws.drop 1)] else [(payload == none, first, ws)]
  let s2 := s1.setBuf u 6 [(rest : Int), (left : Int), if payload = none ∧ left ≠ 0 then 1 else 0]
  parts.foldl (fun a e => (linePieces (raster id).words e.2.2.length e.2.1 e.2.2).foldl (fun x p => x.dgPiece c k e.1 p) a) s2
/-- Datagram `r` of context `c` is released: its words go into the seat, after filler for those missing before it (R218). The context
runs from line 1 of the frame after that of its first accepted packet (Table 7.6). -/
def State.releaseDatagram (s : State) (c : Nat) (r : List Int) : State :=
  let u := U.rx c
  let q := (at_ r 0).toNat
  let k := at_ r 2
  let n := dgPerFrame (s.rn u Rx.RASTER)
  let gap := min (aheadOf (s.rn u Rx.relSeq) (at_ r 0)).toNat n
  let known := s.rb u Rx.dgBase
  let s1 := ((s.setRows u 0 ((s.rows u 0 4).filter (· != r))).winSettle c).wrs u [(Rx.relSeq, (q : Int) + 1), (Rx.dgK, k)]
  match s.dgPlace c q k with
  | none => (s1.wr u Rx.dgBase 0).setBuf u 6 []
  | some i =>
    let s2 := s1.wr u Rx.dgBase (((q : Int) - i) % 2 ^ 32 + 1)
    let starts := s2.rd u Rx.STATE == rxSync && i == 0 && decide (s.rd u Rx.firstK < k)
    let s3 := if starts then (s2.rxEnter c rxRunning).setBuf u 6 [] else s2
    if s3.rd u Rx.STATE ≠ rxRunning then s3
    else
      let s4 := if starts || !known then s3
        else (List.range gap).foldl (fun (a : State) j =>
          let p := (i + gap * (n - 1) + j) % n
          a.dgFeed c (if i < p then k - 1 else k) p none) s3
      let s5 := if i = 0 then s4.setBuf u 6 [] else s4
      s5.dgFeed c k i (some (unpackNums 256 1377 (at_ r 3).toNat))
/-- The next ST 2022-6 datagram in sequence leaves at its arrival + RX_OFFSET; datagrams missing before it break every line they
span (R218). -/
def execDatagramRelease (dt c : Nat) (s0 : State) : Res :=
  let s := s0.after dt
  let u := U.rx c
  let st := s.rd u Rx.STATE
  let rows := s.rows u 0 4
  let last := s.rn u Rx.relSeq
  let due := rows.filter fun r => decide (at_ r 1 ≤ s.now)
  .next (s.ifUp [U.rx c] (if 8192 ≤ c ∨ s.rn u Rx.TYPE ≠ 5 ∨ !(st == rxSync || st == rxRunning) then s
    else match due.foldl (fun (a : Option (List Int)) r => match a with
        | none => some r
        | some b => if (if last = 0 then at_ r 1 < at_ b 1 else aheadOf last (at_ r 0) < aheadOf last (at_ b 0)) then some r else some b) none with
      | none => s
      | some r => s.releaseDatagram c r))


/-- The next audio sample of a context falls due: it is tapped, in a group after the Kerb alignment delay (R219, R220, R305). A
sample that has not arrived leaves a gap. -/
def execAudioFlowRelease (dt c : Nat) (s0 : State) : Res :=
  let s := s0.after dt
  let u := U.rx c
  let st := s.rd u Rx.STATE
  let ch := s.rn u Rx.CHANNELS
  let next := s.rd u Rx.relIdx
  let idx := next - 1
  let off := s.rxOffset c
  .next (s.ifUp [U.rx c] (if 8192 ≤ c ∨ !(s.rn u Rx.TYPE == 2 || s.rn u Rx.TYPE == 3) ∨ !(st == rxSync || st == rxRunning) ∨ next = 0 ∨ (s.now : Int) < sampleAt idx + off then s
    else match feedOf 0xA0 c 0 (s.valsOf u Rx.rxflowParams) with
      | none => s
      | some f =>
        let rows := s.rows u 0 (1 + 2 * ch)
        let s1 := (((s.setRows u 0 (rows.filter fun r => decide (idx < at_ r 0))).winSettle c).rxEnter c rxRunning).wr u Rx.relIdx (next + 1)
        match rows.find? fun r => at_ r 0 == idx with
        | none => s1
        | some r =>
          let seat := s.rn u Rx.SEAT
          -- with its video not running the whole seat is lost (R222)
          if (s.groupVideo c).any fun v => s.rd (U.rx v) Rx.STATE != rxRunning then s1
          else
          let tau := sampleAt idx + off + s.seatDelay seat
          let s2 := s1.tapSource f tau ((List.range ch).map fun q => some (at_ r (1 + q) * 16))
          if s.rn u Rx.TYPE ≠ 3 then s2
          else
            let m := if s2.followsDecisions then gridCeil (tau + 250 * Config.us) 48000 else s2.rd u Src.last - 1
            (List.range ch).foldl (fun a q =>
              let fl := (at_ r (1 + ch + q)).toNat
              (a.rxChannelStatus u q fl).keepVU (f.first + q) m (bitAt fl 0) (bitAt fl 1)) s2))

/-- No data for the context's timeout (Table 7.6). -/
def execFlowLost (dt c : Nat) (s0 : State) : Res :=
  let s := s0.after dt
  let u := U.rx c
  let st := s.rd u Rx.STATE
  let wait := match s.rn u Rx.TYPE with
    | 2 => 2 * packetSamples (s.rn u Rx.PTIME) * Config.second / 48000
    | 3 => 2 * packetSamples (s.rn u Rx.PTIME) * Config.second / 48000
    | 4 => 2 * Config.ms
    | _ => 2 * (raster (s.rn u Rx.RASTER)).line
  let silent := if s.rn u Rx.TYPE = 1 then decide (2 ≤ s.rn u Rx.noData) else decide (s.rn u Rx.lastAt - 1 + wait ≤ s.clk)
  .next (s.ifUp [U.rx c] (if 8192 ≤ c ∨ !(st == rxSync || st == rxRunning) ∨ silent = false then s else s.rxEnter c rxGone))

/-- A leg silent for 1 ms while the other delivers goes DOWN (R223). -/
def execLegDown (dt c leg : Nat) (s0 : State) : Res :=
  let s := s0.after dt
  let u := U.rx c
  let legs := s.rn u Rx.LEGS
  let quiet := decide (s.rn u (Rx.legAt leg) - 1 + Config.ms ≤ s.clk)
  let other := bitAt legs (1 - leg) && decide (s.clk < s.rn u (Rx.legAt (1 - leg)) - 1 + Config.ms)
  .next (s.ifUp [U.rx c] (if 8192 ≤ c ∨ 2 ≤ leg ∨ s.rb u Rx.MERGE = false ∨ bitAt legs leg = false ∨ quiet = false ∨ other = false then s
    else (s.wr u Rx.LEGS (clearBit legs leg)).post u 0x040C leg))

/-- The latch `leg` of a context has accepted nothing for 10 ms: without a merge both legs share one silence (R217). -/
def State.latchQuiet (s : State) (c leg : Nat) : Bool :=
  let u := U.rx c
  let last := if s.rb u Rx.MERGE then s.rn u (Rx.accAt leg) else max (s.rn u (Rx.accAt 0)) (s.rn u (Rx.accAt 1))
  decide (last - 1 + 10 * Config.ms ≤ s.clk)
/-- With no accepted packet for 10 ms a LATCH context, under MERGE a leg of it, latches again (R217). -/
def execSsrcRelatch (dt c : Nat) (s0 : State) : Res :=
  let s := s0.after dt
  let u := U.rx c
  .next (s.ifUp [U.rx c] (if 8192 ≤ c ∨ s.rn u Rx.SSRC_MODE ≠ 1 then s
    else s.wrs u ((if s.latchQuiet c 0 then [(Rx.latched 0, 0)] else []) ++ (if s.latchQuiet c 1 then [(Rx.latched 1, 0)] else []))))

/-- Second (plus one) of the last update of the fields that cover the previous second. -/
def Mix.secondAt : Field := ⟨303, 0, false, 0⟩
/-- What a receive context shows of the second that ended, and its gathering begun anew (R226). -/
def State.flowSecond (a : State) (u : Nat) : State :=
  a.wrs u [(Rx.LEAD_MIN, if a.rb u Rx.haveLead then a.rd u Rx.minNow else 0), (Rx.LEAD_MAX, if a.rb u Rx.haveLead then a.rd u Rx.maxNow else 0),
    (Rx.SKEW_MAX, a.rd u Rx.skewNow), (Rx.haveLead, 0), (Rx.minNow, 0), (Rx.maxNow, 0), (Rx.skewNow, 0)]

/-- Once per second the fields that cover the previous second are updated (Table 7.12, Table 11.14). -/
def execPreviousSecondUpdate (dt : Nat) (s0 : State) : Res :=
  let s := s0.after dt
  .next (if s.rn U.mix Mix.secondAt = s.nowS + 1 then s
    else
      let cs := s.regs.filterMap fun e => if e.1.pos = Rx.TYPE.pos && decide (U.rx 0 ≤ e.1.unit) && decide (e.1.unit < U.rx 8192) then some e.1.unit else none
      let s1 := cs.foldl State.flowSecond s
      s1.wrs U.mix [(Mix.LOAD_PEAK, s1.rd U.mix Mix.peak), (Mix.peak, s1.rd U.mix Mix.LOAD), (Mix.secondAt, s.nowS + 1)])

end Sys2Proof.Machine
end

