-- ==== Sys2Proof/Machine/Embed.lean ====
section
/-!
DEFINITION. What an embedder presents: audio-for-video maps, FOLLOW channels with their crossfades, SLOT channels
(R326 to R332).
-/
namespace Sys2Proof.Machine

/-- a-channel of seat channel `q` of a seat under KIND = OWN (R326): its de-embedder, its essence group in context-number order,
or its Signpost tone channels. -/
def State.ownAch (s : State) (seat q : Nat) : Option Nat :=
  let group := if 1152 ≤ seat ∧ seat < 2304 then (s.groupOf (seat - 1152)).filter fun c => s.rn (U.rx c) Rx.TYPE == 2 || s.rn (U.rx c) Rx.TYPE == 3 else []
  if !group.isEmpty then
    ((group.flatMap fun c => (List.range (s.rn (U.rx c) Rx.CHANNELS)).map fun j => s.rn (U.rx c) Rx.FIRST_ACH + j).drop q).head?
  else
    let unit := if seat < 2304 then U.deemb seat else U.tone (seat - 2448)
    if seat < 2304 ∨ (2448 ≤ seat ∧ seat < 2496) then
      match s.feeds.find? fun f => f.unit == unit with
      | some f => if q < f.count then some (f.first + q * (1 + f.rate)) else none
      | none => none
    else none

/-- A value the spec does not state: a sample of a channel whose rate is not the embedder's (notes/assumptions/17.md). -/
def State.freeSample (s : State) : Int × State :=
  let (v, t) := s.free (2 ^ 28)
  ((v : Int) - 2 ^ 27, t)
def State.achSample (s : State) (a rate : Nat) (m : Int) : Int × State :=
  if s.achRate a = rate then (s.poolAt a m, s) else s.freeSample
def State.slotSample (s : State) (sl rate : Nat) (u : Int) : Int × State :=
  if s.slotRate sl = rate then (s.slotOut sl u, s) else s.freeSample

/-- Map of a seat: KIND, FIRST, COUNT. -/
def State.afvOf (s : State) (seat : Nat) : Nat × Nat × Nat :=
  (s.rn (U.afv seat) (afvKindF seat), s.rn (U.afv seat) Afv.FIRST, s.rn (U.afv seat) Afv.COUNT)

/-- Samples that `n` channels of an embedder at one rate take, in order, from a function that may use free values. -/
def collect (s : State) (n : Nat) (f : State → Nat → Int × State) : List Int × State :=
  (List.range n).foldl (fun (a : List Int × State) q => let r := f a.2 q; (a.1 ++ [r.1], r.2)) ([], s)

/-- Sample of embedder channel `q` of destination `d` at slot instant `u` (R329, R331). `fuel` bounds chains of mirrors. A mirrored
embedder presents slot instant u' at u' + 250 us (R332), and is read where that is u - 2 ms. -/
def State.embSample (s : State) : Nat → Nat → Nat → Int → Int × State
  | 0, _, _, _ => (0, s)
  | fuel + 1, d, q, u =>
    let e := U.emb d
    let rate := s.rn e Emb.RATE
    let ms : Int := if rate = 0 then 96 else 192
    let ch := s.rn e (Emb.chF q)
    -- AFV position `q` of a seat (R326, R329)
    let afv := fun (s : State) (seat pos : Nat) =>
      let (kind, first, count) := s.afvOf seat
      if 2688 ≤ seat ∨ count ≤ pos then (0, s)
      else match kind with
        | 0 => match s.ownAch seat pos with
          | some a => s.achSample a rate (u - ms)
          | none => (0, s)
        | 1 => s.achSample (first + pos * (1 + rate)) rate (u - ms)
        | 2 => s.slotSample (first + pos * (1 + rate)) rate u
        | 3 =>
          let m := s.rn (U.ret (seat - 2496)) Ret.MIRROR
          if 2496 ≤ seat ∧ m < 2304 ∧ s.rb (U.emb m) Emb.ENABLE ∧ pos < s.embChannels m then
            (if s.rn (U.emb m) Emb.RATE = rate then s.embSample fuel m pos (u - ms - ms / 8) else s.freeSample)
          else (0, s)
        | _ => (0, s)
    match ch / 65536 with
    | 1 =>
      let pos := ch % 65536
      match pruneFades u (s.fades d) with
      | [] => afv s (s.rn e Emb.AFV_SEAT) pos
      | b :: rest =>
        rest.foldl (fun (a : Int × State) f =>
          let (wo, wi) := weights (if f.law = 1 then 2 else 0) (u - f.start) f.len
          let r := afv a.2 f.seat pos
          (Fx.toInt (a.1 * wo + r.1 * wi), r.2)) (afv s b.seat pos)
    | 2 => s.slotSample (ch % 65536) rate u
    | _ => (0, s)

/-- Channels embedded on the Cell's present rate: an SD output carries at most four 48 kHz groups (R327). -/
def State.embGroups (s : State) (d : Nat) (hd : Bool) : Nat :=
  let g := s.rn (U.emb d) Emb.GROUPS
  if hd then g else if s.rb (U.emb d) Emb.RATE then 0 else min g 4

/-- Slot instants that the embedder presents in the line interval [a, b): u + 250 us lies in it (R332). -/
def embInstants (rate : Nat) (a b : Int) : List Int :=
  let lo := gridCeil (a - 250 * Config.us) (rateHz rate)
  (List.range (gridCeil (b - 250 * Config.us) (rateHz rate) - lo).toNat).map fun (j : Nat) => lo + (j : Int)

end Sys2Proof.Machine
end

