-- ==== Sys2Proof/Machine/Transmit.lean ====
section
/-!
DEFINITION. Transmit flow contexts: configuration and admission, the frames, samples, ancillary packets and datagrams that
the Cell of a packet output gives them, departures, legs and states (R227 to R246).
-/
namespace Sys2Proof.Machine

/-- A packet has been sent since OFF; frame or sample, sequence number and packets per frame from which the numbers of a TIMED or
audio context are reckoned. They belong to its sequence state (R437). -/
def Tx.sentAny : Field := ⟨150, 1, false, 0⟩
def Tx.baseK : Field := ⟨151, 0, true, 0⟩
def Tx.baseSeq : Field := ⟨152, 32, false, 0⟩
def Tx.npBase : Field := ⟨153, 0, false, 0⟩
/-- Next sample of an audio context, plus one. -/
def Tx.idx : Field := ⟨154, 0, true, 0⟩
/-- Packets sent of the frame at the head; a frame is being taken from the Cell; the frame fails R232, and the one before did; the
payload ID seen in it; its timestamp; a STANDBY device waits for the partner's timestamp until then (plus one); whether a timestamp
is known (for a datagram: 1 the partner's, 2 the device's own after its wait); frames counted (R240). -/
def Tx.n : Field := ⟨300, 0, false, 0⟩
def Tx.live : Field := ⟨301, 1, false, 0⟩
def Tx.bad : Field := ⟨302, 1, false, 0⟩
def Tx.badBefore : Field := ⟨303, 1, false, 0⟩
def Tx.pidSeen : Field := ⟨304, 1, false, 0⟩
def Tx.frameTs : Field := ⟨305, 32, false, 0⟩
def Tx.tsDue : Field := ⟨306, 0, false, 0⟩
def Tx.haveTs : Field := ⟨307, 2, false, 0⟩
def Tx.frCount : Field := ⟨308, 8, false, 0⟩
/-- An audio context of an output that supplies no VALID beats sends silence (R243). -/
def Tx.silent : Field := ⟨309, 1, false, 0⟩
/-- Octets (bits, TYPE 5) taken of the frame under way, and its last line (R232). -/
def Tx.got : Field := ⟨310, 0, false, 0⟩
def Tx.lastLine : Field := ⟨311, 0, false, 0⟩

abbrev txOff : Int := 0
abbrev txWait : Int := 1
abbrev txRunning : Int := 2
abbrev txIdle : Int := 3
abbrev txNoLink : Int := 4

/-! Lists of a context: 0 octets (or bits, TYPE 5) taken from the Cell and not sent, 1 frames begun, 2 ancillary packets waiting. -/

/-! ### Legs (Table 8.2, R245, R246) -/

structure Leg where
  en : Bool
  mac : Nat
  v6 : Bool
  dst : Nat
  dstMac : Nat
  sport : Nat
  dport : Nat
  vlan : Nat
  pcp : Nat
  dscp : Nat
  ttl : Nat
deriving DecidableEq, Repr

/-- Fields of a leg descriptor of a transmit context, and of a forwarding output. -/
def txLegF (b : Bool) : List Field :=
  if b then [Tx.B_ENABLE, Tx.B_MAC, Tx.B_IPV6, Tx.B_DST_IP, Tx.B_DST_MAC, Tx.B_SRC_PORT, Tx.B_DST_PORT, Tx.B_VLAN, Tx.B_PCP, Tx.B_DSCP, Tx.B_TTL]
  else [Tx.A_ENABLE, Tx.A_MAC, Tx.A_IPV6, Tx.A_DST_IP, Tx.A_DST_MAC, Tx.A_SRC_PORT, Tx.A_DST_PORT, Tx.A_VLAN, Tx.A_PCP, Tx.A_DSCP, Tx.A_TTL]
def fwdLegF (b : Bool) : List Field :=
  if b then [Fwd.B_ENABLE, Fwd.B_MAC, Fwd.B_IPV6, Fwd.B_DST_IP, Fwd.B_DST_MAC, Fwd.B_SRC_PORT, Fwd.B_DST_PORT, Fwd.B_VLAN, Fwd.B_PCP, Fwd.B_DSCP, Fwd.B_TTL]
  else [Fwd.A_ENABLE, Fwd.A_MAC, Fwd.A_IPV6, Fwd.A_DST_IP, Fwd.A_DST_MAC, Fwd.A_SRC_PORT, Fwd.A_DST_PORT, Fwd.A_VLAN, Fwd.A_PCP, Fwd.A_DSCP, Fwd.A_TTL]
def legOf (g : Field → Nat) (fs : List Field) : Leg :=
  match fs.map g with
  | [a, b, c, d, e, f, h, i, j, k, l] => ⟨a == 1, b, c == 1, d, e, f, h, i, j, k, l⟩
  | _ => ⟨false, 0, false, 0, 0, 0, 0, 0, 0, 0, 0⟩

/-- RANGE and NOUNIT of an enabled leg (R229): a unicast destination with no MAC address, no own address of its IP version; an
unbound MAC. -/
def State.legRange (s : State) (l : Leg) : Bool :=
  l.en && ((!isMcast l.v6 l.dst && l.dstMac == 0) || (if l.v6 then s.rn (U.mac l.mac) Mac.IPV6 == 0 else s.rn (U.mac l.mac) Mac.IPV4 == 0) ||
    (!l.v6 && decide (2 ^ 32 ≤ l.dst)))
def State.legUnbound (s : State) (l : Leg) : Bool := l.en && (s.rn (U.mac l.mac) Mac.LANE == 511 || s.unitBad (U.mac l.mac))

/-- Port rate of a MAC in bit/s. -/
def State.portBps (s : State) (m : Nat) : Nat :=
  match s.rn (U.mac m) Mac.PORT with | 0 => 25000000000 | 1 => 100000000000 | 2 => 200000000000 | _ => 400000000000

/-- What a packet carries outside its payload: RTP fields and, with them, the headers the leg gives. -/
structure RtpOut where
  marker : Bool
  pt : Nat
  seq : Nat
  ts : Nat
  ssrc : Nat
  body : List Nat
deriving DecidableEq, Repr

/-- Octets of a packet on a leg as an Ethernet frame with its FCS. -/
def frameOctets (l : Leg) (payload : Nat) : Nat := payload + 12 + 8 + (if l.v6 then 40 else 20) + 18 + (if l.vlan = 0 then 0 else 4)

/-- Frames of a MAC reach the pins: no generator and no loopback replaces what the lanes of its port send (R158, R161). -/
def State.macSends (s : State) (m : Nat) : Bool :=
  (s.portLanes (s.rn (U.mac m) Mac.LANE)).all fun l => s.pinsCarry l && !s.rb (U.lane l) Lane.GEN_EN
/-- Put a packet out on a leg's MAC: destination and source addresses, VLAN, the octet of DSCP with ECN 0, TTL, ports and RTP header, then
the payload. -/
def State.putPacket (s : State) (l : Leg) (p : RtpOut) (extra : List Int) : State :=
  let m := U.mac l.mac
  let dst := if l.dstMac = 0 then mcastMac l.v6 l.dst else l.dstMac
  let src := if l.v6 then s.rn m Mac.IPV6 else s.rn m Mac.IPV4
  let fields : List Int := [(dst : Int), s.rd m Mac.ADDR, (l.vlan : Int), if l.vlan = 0 then 0 else (l.pcp : Int), if l.v6 then 6 else 4, (src : Int), (l.dst : Int),
    (4 * l.dscp : Nat), (l.ttl : Int), (l.sport : Int), (l.dport : Int), if p.marker then 1 else 0, (p.pt : Int), ((p.seq % 65536 : Nat) : Int), (p.ts : Int), (p.ssrc : Int)]
  let n := frameOctets l p.body.length
  ((if s.macSends l.mac then s.emit (.packet l.mac (fields ++ extra) p.body) else s).count m Ctr.Mac.TX_FRAMES).countBy m Ctr.Mac.TX_BYTES n

/-- Legs sent now: the rule of R245 over the enabled legs. -/
def State.legsNow (s : State) (both : Bool) (a b : Leg) : Bool × Bool :=
  let r := s.legRule both
  (r.1 && a.en, r.2 && b.en)

def State.txLeg (s : State) (c : Nat) (b : Bool) : Leg := legOf (s.rn (U.tx c)) (txLegF b)

/-- Send one packet of a context on its legs; where a leg's MAC has no link the packet is discarded and counted (R235). The
sequence number advances either way, and the state follows (R244). -/
def State.txSend (s : State) (c : Nat) (p : RtpOut) : State :=
  let u := U.tx c
  let a := s.txLeg c false
  let b := s.txLeg c true
  let (sa, sb) := s.legsNow (s.rb u Tx.LEG_POLICY) a b
  let one := fun (x : State) (on : Bool) (l : Leg) (k : Nat) =>
    if !on then x
    else if s.rb (U.mac l.mac) Mac.LINK then ((x.putPacket l p []).count u (Ctr.Tx.PACKETS_A + k)).countBy u Ctr.Tx.BYTES (frameOctets l p.body.length)
    else x.count u Ctr.Tx.TX_LINK_DROPS
  let s1 := one (one s sa a 0) sb b 1
  let linked := (sa && s.rb (U.mac a.mac) Mac.LINK) || (sb && s.rb (U.mac b.mac) Mac.LINK)
  let s2 := s1.wrs u [(Tx.LEGS_SENT, (if sa then 1 else 0) + (if sb then 2 else 0)), (Tx.EXT_SEQ, p.seq), (Tx.LAST_TS, p.ts), (Tx.sentAny, 1)]
  let st := s.rn u Tx.STATE
  if linked then (if st = 1 ∨ st = 4 then s2.wr u Tx.STATE txRunning else s2)
  else if (sa || sb) && st != 4 then (s2.wr u Tx.STATE txNoLink).postEntry u 4 st 0 0 else s2

/-! ### Formats and shaping (R231, R233, R236, R238, R239) -/

/-- R_ACTIVE as a fraction and TRO_DEFAULT in lines (Table 8.3). -/
def rActive (id : Nat) : Nat × Nat :=
  let r := id % 32
  if r = 0 then (487, 525) else if r = 1 then (576, 625) else if r ≤ 4 then (720, 750) else (1080, 1125)
def troLines (id : Nat) : Nat :=
  let r := id % 32
  if r = 0 then 23 else if r = 1 then 25 else if r ≤ 4 then 28 else if interlaced id ∨ psf id then 22 else 43
/-- Frames or fields to a frame. -/
def fieldsOf (id : Nat) : Nat := if interlaced id || psf id then 2 else 1
/-- Payload octets of field `f`, or of the frame. -/
def fieldOctets (id sampling depth f : Nat) : Nat := fieldRows id f * rowOctets id sampling depth
/-- Largest sample row data of a packet: 1,260 in BPM, whole pixel groups up to SRD_MAX in GPM. -/
def srdSize (packing srdMax sampling depth : Nat) : Nat := if packing = 0 then 1260 else srdMax / (pgroup sampling depth).1 * (pgroup sampling depth).1
/-- Packets of a field or frame. -/
def nPackets (id sampling depth packing srdMax f : Nat) : Nat :=
  let size := srdSize packing srdMax sampling depth
  if packing = 0 then ceilDiv (fieldOctets id sampling depth f) size else fieldRows id f * ceilDiv (rowOctets id sampling depth) size
/-- TRS in units of 1/1,024 ns. -/
def trsUnits (id sender n : Nat) : Nat :=
  let (a, b) := if sender = 0 then rActive id else (1, 1)
  if n = 0 then 0 else (raster id).frame * 1024 * a / (Config.ns * fieldsOf id * b * n)
/-- n × TRS in grains, of a field of `total` packets (R236). -/
def trsGrains (id sender n total : Nat) : Nat :=
  let (a, b) := if sender = 0 then rActive id else (1, 1)
  if total = 0 then 0 else n * (raster id).frame * a / (fieldsOf id * b * total)
/-- TR_OFFSET in grains. -/
def trOffset (id v : Nat) : Nat := if v = 0xFFFFFFFF then troLines id * (raster id).line else v * Config.ns
/-- Claim on the linear pool in KB (R238). -/
def poolKb (ty id sampling depth sender : Nat) : Nat :=
  let (a, b) := rActive id
  if ty = 1 ∧ sender ≠ 0 then ceilDiv (fieldOctets id sampling depth 0 * (b - a)) (b * 4096) * 4 else 0

/-- Wire rate of a context on a leg in bits per 1,001 seconds (R239). An ancillary context claims nothing: its rate is not fixed by
its configuration. -/
def txWire (g : Field → Nat) (l : Leg) : Nat :=
  let id := g Tx.RASTER
  let r := raster id
  let per := fun (pps payload header : Nat) => pps * (payload + 12 + header + 8 + (if l.v6 then 40 else 20) + 18 + (if l.vlan = 0 then 0 else 4) + 20) * 8
  if !l.en then 0
  else match g Tx.TYPE with
    | 1 => per (nPackets id (g Tx.SAMPLING) (g Tx.DEPTH) (g Tx.PACKING) (g Tx.SRD_MAX) 0 * fieldsOf id * r.num * (1001 / r.den))
        (if g Tx.PACKING = 0 then 1260 else min (rowOctets id (g Tx.SAMPLING) (g Tx.DEPTH)) (srdSize 1 (g Tx.SRD_MAX) (g Tx.SAMPLING) (g Tx.DEPTH))) 8
    | 5 => per (dgPerFrame id * r.num * (1001 / r.den)) 1376 8
    | 2 => per ((if g Tx.PTIME = 0 then 1000 else 8000) * 1001) (g Tx.CHANNELS * sampleOctets 2 (g Tx.SDEPTH) * packetSamples (g Tx.PTIME)) 0
    | 3 => per ((if g Tx.PTIME = 0 then 1000 else 8000) * 1001) (g Tx.CHANNELS * 4 * packetSamples (g Tx.PTIME)) 0
    | _ => 0

/-- Parameter values as they stand once everything staged commits, and those of the other contexts and outputs. -/
def State.stagedVals (s : State) (op u0 : Nat) (ps : List Param) (i : Nat) : List Int :=
  (s.staged.foldl (fun a e => match e.eff with
    | .cfg o k _ vs => if o = op ∧ k = i then some vs else a
    | _ => a) none).getD (s.valsOf (u0 + i) ps)
def State.configured (s : State) (op u0 n pos : Nat) : List Nat :=
  ((s.regs.filterMap fun e => if e.1.pos = pos && decide (u0 ≤ e.1.unit) && decide (e.1.unit < u0 + n) then some (e.1.unit - u0) else none) ++
   (s.staged.filterMap fun e => match e.eff with
    | .cfg o k _ _ => if o = op then some k else none
    | _ => none)).eraseDups
/-- Wire rate admitted on MAC `m` by every context but `c` and every forwarding output but `o`, in bits per 1,001 seconds. -/
def State.admitted (s : State) (m : Nat) (c o : Option Nat) : Nat :=
  let tx := (s.configured 0xA1 (U.tx 0) 8192 Tx.TYPE.pos).filter fun i => some i != c
  let fw := (s.configured 0xA2 (U.fwd 0) 1024 Fwd.INPUT_CFG.pos).filter fun i => some i != o
  let on := fun (l : Leg) (w : Nat) => if l.en && l.mac == m then w else 0
  (tx.map fun i =>
    let g := pn Tx.txflowParams (s.stagedVals 0xA1 (U.tx 0) Tx.txflowParams i)
    on (legOf g (txLegF false)) (txWire g (legOf g (txLegF false))) + on (legOf g (txLegF true)) (txWire g (legOf g (txLegF true)))).foldl (· + ·) 0 +
  (fw.map fun i =>
    let g := pn Fwd.fwdcfgParams (s.stagedVals 0xA2 (U.fwd 0) Fwd.fwdcfgParams i)
    let w := if g Fwd.INPUT_CFG = 2047 then 0 else g Fwd.RATE * 1000000 * 1001
    on (legOf g (fwdLegF false)) w + on (legOf g (fwdLegF true)) w).foldl (· + ·) 0
/-- The MACs of two legs would carry more than 97 % of their port rates. -/
def State.overBooked (s : State) (a b : Leg) (wa wb : Nat) (c o : Option Nat) : Bool :=
  let tooMuch := fun (m : Nat) => decide (s.portBps m * 1001 * 97 < 100 * (s.admitted m c o + (if a.en && a.mac == m then wa else 0) + (if b.en && b.mac == m then wb else 0)))
  (a.en && tooMuch a.mac) || (b.en && tooMuch b.mac)

/-! ### Configuration (R229) -/

def txflowChecks (s : State) (vs : List Int) (c : Nat) : Checks :=
  let ps := Tx.txflowParams
  let u := U.tx c
  let g := pn ps vs
  let ty := g Tx.TYPE
  let seat := g Tx.SEAT
  let id := g Tx.RASTER
  let a := legOf g (txLegF false)
  let b := legOf g (txLegF true)
  let d := 1152 + seat
  let formatOk := match ty with
    | 1 => videoFormatOk id (g Tx.SAMPLING) (g Tx.DEPTH)
    | 2 => decide (g Tx.CHANNELS * sampleOctets 2 (g Tx.SDEPTH) * packetSamples (g Tx.PTIME) ≤ 1440)
    | 3 => g Tx.CHANNELS % 2 == 0 && decide (g Tx.CHANNELS * 4 * packetSamples (g Tx.PTIME) ≤ 1440)
    | 5 => rasterOk id && decide ((raster id).rate ≤ 2)
    | _ => true
  let off := g Tx.TR_OFFSET
  let offOk := ty != 1 || off == 0xFFFFFFFF ||
    (decide (troLines id * (raster id).line ≤ off * Config.ns) && decide (off * Config.ns ≤ (troLines id + 1) * (raster id).line))
  let others := ((s.configured 0xA1 (U.tx 0) 8192 Tx.TYPE.pos).filter (· != c)).map fun i => pn ps (s.stagedVals 0xA1 (U.tx 0) ps i)
  let audio := fun (h : Field → Nat) => if h Tx.TYPE = 2 ∨ h Tx.TYPE = 3 then h Tx.CHANNELS else 0
  let pool := fun (h : Field → Nat) => poolKb (h Tx.TYPE) (h Tx.RASTER) (h Tx.SAMPLING) (h Tx.DEPTH) (h Tx.SENDER)
  let group := (others.filter fun h => h Tx.SEAT == seat && h Tx.TYPE != 0).map fun h => (h Tx.TYPE, h Tx.CHANNELS)
  let key := [Tx.TYPE, Tx.SEAT, Tx.RASTER, Tx.SAMPLING, Tx.DEPTH].any fun f => pv ps vs f != s.rd u f
  [(.range, !paramsOk ps vs || !formatOk || !offOk || s.legRange a || s.legRange b || (seat == 0x7FF && (ty == 1 || ty == 4 || ty == 5)) ||
      (seat == 0x7FF && (ty == 2 || ty == 3) && decide (65536 < g Tx.FIRST_SLOT + g Tx.CHANNELS))),
   (.nounit, s.legUnbound a || s.legUnbound b),
   (.locked, ty != 0 && s.rn u Tx.STATE != 0 && key),
   (.rate, (ty == 1 || ty == 5) && s.cellTimed d && (id != s.planRaster (s.cellN d Cell.PLAN) || (ty == 1 && !nativeFormat (g Tx.SAMPLING) (g Tx.DEPTH)))),
   (.bundle, seat != 0x7FF && ty != 0 && !groupOk ((ty, g Tx.CHANNELS) :: group)),
   (.bandwidth, ty != 0 && (s.overBooked a b (txWire g a) (txWire g b) (some c) none ||
      decide (48 * 1024 < pool g + (others.map pool).foldl (· + ·) 0) || decide (32768 < audio g + (others.map audio).foldl (· + ·) 0)))]

def judgeTxflow (i : Issue) (s : State) : Judged :=
  let ps := Tx.txflowParams
  let pr := getParams ps false i
  let vs := pr.getD []
  let cs := targets i 0x0C (U.tx 0) 8192
  let seat := pn ps vs Tx.SEAT
  let plan := if seat = 0x7FF then s.thn i.th Lamp.PLAN else s.cellN (1152 + seat) Cell.PLAN
  { checks := (.format, i.badFlags true false true false || pr.isNone) :: eachTarget cs (txflowChecks s vs)
    verdict := .stage ((cs.getD []).map fun c => ⟨plan, 0, [⟨U.tx c, 0⟩], [U.tx c], .cfg 0xA1 c 0 vs⟩) }
def execTxflow (i : Issue) (s : State) : Res := .next (s.issue i (.ticked 0xA1) (judgeTxflow i))

/-- A context commits (R230). -/
def State.commitTxflow (s : State) (c : Nat) (vs : List Int) : State :=
  let ps := Tx.txflowParams
  let u := U.tx c
  let g := pn ps vs
  let ty := g Tx.TYPE
  let s1 := s.wrParams u ps vs
  if ty = 0 then
    ([0, 1, 2].foldl (fun (a : State) p => a.setBuf u p []) s1).wrs u [(Tx.STATE, txOff), (Tx.POOL_KB, 0), (Tx.LEGS_SENT, 0), (Tx.NPACKETS, 0), (Tx.TRS, 0),
      (Tx.sentAny, 0), (Tx.idx, 0), (Tx.n, 0), (Tx.live, 0), (Tx.tsDue, 0), (Tx.npBase, 0)]
  else
    let n := if ty = 1 then nPackets (g Tx.RASTER) (g Tx.SAMPLING) (g Tx.DEPTH) (g Tx.PACKING) (g Tx.SRD_MAX) 0
      else if ty = 5 then dgPerFrame (g Tx.RASTER) else 0
    let k := packetSamples (g Tx.PTIME)
    let first := gridCeil s.now 48000
    let start := s.rn u Tx.STATE == 0
    let (sa, sb) := s1.legsNow (g Tx.LEG_POLICY == 1) (s1.txLeg c false) (s1.txLeg c true)
    let s2 := s1.wrs u [(Tx.NPACKETS, n), (Tx.TRS, if ty = 1 then (trsUnits (g Tx.RASTER) (g Tx.SENDER) n : Int) else 0),
      (Tx.POOL_KB, poolKb ty (g Tx.RASTER) (g Tx.SAMPLING) (g Tx.DEPTH) (g Tx.SENDER)), (Tx.LEGS_SENT, (if sa then 1 else 0) + (if sb then 2 else 0))]
    if start then
      s2.wrs u [(Tx.STATE, txWait), (Tx.sentAny, 0), (Tx.baseSeq, g Tx.SEQ_INIT), (Tx.idx, if ty = 2 ∨ ty = 3 then -(-first / k) * k + 1 else 0)]
    else if s.rn u Tx.PTIME ≠ g Tx.PTIME ∧ (ty = 2 ∨ ty = 3) then
      -- a new packet time begins at the next multiple of it not yet sent
      let i := s.rd u Tx.idx - 1
      s2.wrs u [(Tx.idx, -(-i / k) * k + 1), (Tx.sentAny, 1)]
    else s2

/-! ### What the Cell gives (R230 to R234, R240, R242) -/

/-- Timestamp of a frame: floor(clk × origin) + TS_ADJ (R234). -/
def State.rtpTs (s : State) (c clk : Nat) (t : Int) : Nat := ((t * clk / Config.second + s.rd (U.tx c) Tx.TS_ADJ) % 2 ^ 32).toNat

/-- Octets of 10-bit words, packed most significant bit first. -/
def packWords (ws : List Nat) : List Nat :=
  let rec go : List Nat → List Nat
    | a :: b :: c :: d :: t =>
      let v := ((a * 1024 + b) * 1024 + c) * 1024 + d
      [v / 2 ^ 32, v / 2 ^ 24 % 256, v / 2 ^ 16 % 256, v / 256 % 256, v % 256] ++ go t
    | _ => []
  go ws
/-- Octets of black in a format for one row (R232). -/
def blackRow (id sampling depth full : Nat) : List Nat :=
  let g := pgroup sampling depth
  let lo := if full = 1 then 0 else 64
  let mid := if sampling = 2 then lo else 512
  let v := fun (x : Nat) => if depth = 0 then x else x * 4
  let group := if sampling = 0 then [v mid, v lo, v mid, v lo] else (List.range g.2).flatMap fun _ => [v mid, v lo, v mid]
  let bits := group.flatMap fun x => bitsMsb (if depth = 0 then 10 else 12) x
  let octets := (chunks 8 bits.length bits).map fun b => b.foldl (fun n c => 2 * n + if c then 1 else 0) 0
  (List.range (activeWidth id / g.2)).flatMap fun _ => octets
/-- `n` octets whose values the spec leaves to the mapping standards it names. -/
def State.freeOctets (s : State) (n : Nat) : List Nat × State :=
  (List.range n).foldl (fun (a : List Nat × State) _ => let r := a.2.free 256; (a.1 ++ [r.1], r.2)) ([], s)

/-- Bytes of the payload ID that a line carries (ST 352, PRESUMED places). -/
def linePid (ws : List Nat) : Option (List Nat) :=
  (streamsOf ws).findSome? fun w => ((ancOf w).find? fun a => isPid a.2).map fun a => (a.2.drop 3).take 4 |>.map (· % 256)
/-- The payload ID agrees with a format: byte 3 [3:0] sampling, byte 4 [1:0] depth (ST 352, PRESUMED). -/
def pidFits (pid : List Nat) (sampling depth : Nat) : Bool :=
  pid.getD 2 0 % 16 == sampling && pid.getD 3 0 % 4 / 2 == depth
/-- Packets that an ST 2110-40 context leaves out: embedded audio, EDH, the payload ID (R242; PRESUMED DIDs). -/
def ancExcluded (w : List Nat) : Bool :=
  let did := w.getD 0 0 % 256
  decide (0xF8 ≤ did) || (decide (0xEC ≤ did) && decide (did ≤ 0xEF)) || (decide (0xE0 ≤ did) && decide (did ≤ 0xE7)) ||
    (decide (0xA0 ≤ did) && decide (did ≤ 0xA7)) || did == 0xF4 || (did == 0x41 && w.getD 1 0 % 256 == 1)

/-- Contexts of packet output `k`. -/
def State.txOf (s : State) (k : Nat) : List Nat := (s.holding (U.tx 0) 8192 Tx.SEAT (k : Nat)).filter fun c => s.rb (U.tx c) Tx.TYPE
/-- Line after which a field ends. -/
def fieldEnd (id : Nat) : Nat := if id % 32 = 0 then 265 else if id % 32 = 1 then 312 else if fieldsOf id = 2 then 563 else (raster id).lines

/-- The frame fails R232: counted once, and posted where the frame before was good. -/
def State.txBad (s : State) (c : Nat) : State :=
  let u := U.tx c
  if s.rb u Tx.bad then s
  else
    let s1 := (s.wr u Tx.bad 1)
    if s.rb u Tx.badBefore then s1.count u Ctr.Tx.FORMAT_MISMATCH_FRAMES else s1.countEvent u Ctr.Tx.FORMAT_MISMATCH_FRAMES

/-- Payload octets of a whole frame, and its bits for ST 2022-6. -/
def frameOctetsOf (id sampling depth : Nat) : Nat :=
  fieldOctets id sampling depth 0 + (if fieldsOf id = 2 then fieldOctets id sampling depth 1 else 0)
def frameBits (id : Nat) : Nat := (raster id).words * 10 * (raster id).lines
/-- The next frame begins before the one under way is whole (a FOLLOW cut, R122): its line structure fails R232, and black makes up
its packets; an ST 2022-6 frame ends with what it has, an ancillary field with its marker (DESIGN CHOICE, notes/assumptions/103.md). -/
def State.txFrameEnd (s : State) (c : Nat) : State :=
  let u := U.tx c
  let id := s.rn u Tx.RASTER
  let sm := s.rn u Tx.SAMPLING
  let dp := s.rn u Tx.DEPTH
  let got := s.rn u Tx.got
  if !s.rb u Tx.live then s
  else match s.rn u Tx.TYPE with
    | 1 =>
      let rest := frameOctetsOf id sm dp - got
      if rest = 0 then s
      else
        let s1 := s.txBad c
        let black := ((List.range (ceilDiv rest (rowOctets id sm dp))).flatMap fun _ => blackRow id sm dp (s.rn u Tx.RANGE_FULL)).take rest
        s1.setBuf u 0 (s1.buf u 0 ++ black.map fun (v : Nat) => (v : Int))
    | 5 =>
      let rows := s.rows u 1 3
      match rows.getLast? with
      | some r => s.setRows u 1 (rows.dropLast ++ (if got ≤ (at_ r 1).toNat * 11008 then [] else [[at_ r 0, at_ r 1, (min got (frameBits id) : Nat)]]))
      | none => s
    | 4 => if s.rb u Tx.lastLine then s.setRows u 2 (s.rows u 2 6 ++ [[s.rd u Tx.frameTs, 0, 1, 0, 0, 0]]) else s
    | _ => s

/-- A frame began at system time `now`: its timestamp, by the Cell mode (R234); a STANDBY device waits up to 2 us for its partner's
(Table 15.4). -/
def State.txFrame (s9 : State) (c d : Nat) (now : Int) : State :=
  let u := U.tx c
  let s := s9.txFrameEnd c
  let ty := s.rn u Tx.TYPE
  let id := s.rn u Tx.RASTER
  let timed := s.cellTimed d
  let p := s.cellN d Cell.PLAN
  let T : Int := (s.planRas p).frame
  let k := if timed then (now - s.phaseAt p now) / T else 0
  let origin := if timed then k * T + s.phaseAt p now else now
  let ts0 := s.rtpTs c 90000 origin
  let held := !timed && ty != 5 && s.rb u Tx.haveTs && decide (2 ^ 31 ≤ (ts0 + 2 ^ 32 - s.rn u Tx.frameTs - 1) % 2 ^ 32)
  let ts := if held then (s.rn u Tx.frameTs + 1) % 2 ^ 32 else ts0
  let s0 := if held then s.count u Ctr.Tx.TS_HOLDS else s
  let wait := !timed && s.followsDecisions
  let s1 := s0.wrs u [(Tx.live, 1), (Tx.badBefore, s.rd u Tx.bad), (Tx.bad, 0), (Tx.pidSeen, 0), (Tx.got, 0), (Tx.lastLine, 0)]
  let s2 := if ty = 5 then s1
    else
      let z := s1.wrs u [(Tx.frameTs, ts), (Tx.haveTs, 1), (Tx.tsDue, if wait then (s.clk + 2 * Config.us + 1 : Nat) else 0)]
      if timed then z else z.decide_ 4 u ts
  let s3 := if s.rd u Tx.STATE = txIdle then s2.wr u Tx.STATE txRunning else s2
  if ty = 1 then
    let n0 := nPackets id (s.rn u Tx.SAMPLING) (s.rn u Tx.DEPTH) (s.rn u Tx.PACKING) (s.rn u Tx.SRD_MAX) 0
    let n1 := if fieldsOf id = 2 then nPackets id (s.rn u Tx.SAMPLING) (s.rn u Tx.DEPTH) (s.rn u Tx.PACKING) (s.rn u Tx.SRD_MAX) 1 else 0
    let frames := s.rows u 1 8
    -- sequence number of the frame's first packet
    let after_ := match frames.getLast? with
      | some r => at_ r 2 + at_ r 4
      | none => if s.rb u Tx.sentAny then s.rd u Tx.EXT_SEQ + 1 else s.rd u Tx.SEQ_INIT
    let same := timed && s.rb u Tx.sentAny && s.rn u Tx.npBase == n0 + n1
    let q := (if same then s.rd u Tx.baseSeq + (k - s.rd u Tx.baseK) * (n0 + n1) else after_) % 2 ^ 32
    let s4 := if same then s3 else s3.wrs u [(Tx.baseK, k), (Tx.baseSeq, q), (Tx.npBase, n0 + n1)]
    let row := fun (o : Int) (q n f : Int) => [o, (ts : Int), q, f, n, if wait then 1 else 0, s.rd u Tx.PACKING, s.rd u Tx.SRD_MAX]
    s4.setRows u 1 (frames ++ (if fieldsOf id = 2 then [row origin q n0 0, row (origin + (raster id).frame / 2) (q + n0) n1 1] else [row origin q n0 0]))
  else if ty = 5 then (s3.setRows u 1 (s3.rows u 1 3 ++ [[now, 0, (frameBits id : Nat)]])).wr u Tx.frCount (s.rd u Tx.frCount + 1)
  else s3

/-- A video context takes one line: checks of R232, then the octets of its rows. -/
def State.txVideoLine (s : State) (c line : Nat) (ws : List Nat) : State :=
  let u := U.tx c
  let id := s.rn u Tx.RASTER
  let sm := s.rn u Tx.SAMPLING
  let dp := s.rn u Tx.DEPTH
  let pid := linePid ws
  let s1 := if pid.isSome then s.wr u Tx.pidSeen 1 else s
  let active := isActive id line
  let wrong := ws.length != (seatRas id (nativeFormat sm dp)).words || decide ((raster id).lines < line) || line != s.rn u Tx.lastLine + 1 ||
    (match pid with
      | some p => !pidFits p sm dp
      | none => active && !s1.rb u Tx.pidSeen && !nativeFormat sm dp)
  let s2 := (if wrong then s1.txBad c else s1).wr u Tx.lastLine line
  if !active || decide (frameOctetsOf id sm dp ≤ s.rn u Tx.got) then s2
  else
    let rows := if 0x15 ≤ id % 32 then 2 else 1
    let (octets, s3) :=
      if s2.rb u Tx.bad then (((List.range rows).flatMap fun _ => blackRow id sm dp (s.rn u Tx.RANGE_FULL)), s2)
      else if nativeFormat sm dp then ((rowWords id ws).flatMap packWords, s2)
      else s2.freeOctets (lineOctets id sm dp)
    (s3.setBuf u 0 (s3.buf u 0 ++ octets.map fun (v : Nat) => (v : Int))).wr u Tx.got (s.rn u Tx.got + octets.length : Nat)

/-- An ancillary context takes the packets of one line; a row with line 0 ends the field. Rows: timestamp, line, C, stream, place,
words. -/
def State.txAncLine (s : State) (c id line : Nat) (ws : List Nat) : State :=
  let u := U.tx c
  let ts := s.rd u Tx.frameTs
  let ss := streamsOf ws
  let n := ss.length
  let found := ss.zipIdx.flatMap fun e => ((ancOf e.1).filter fun a => !ancExcluded a.2).map fun a =>
    [ts, (line : Int), if n == 2 && e.2 == 0 then 1 else 0, if 2 < n then (e.2 : Int) else 0, (a.1 : Int),
      (a.2.foldr (fun w x => w + 1024 * x) 1 : Nat)]
  let last := line == (raster id).lines || (fieldsOf id == 2 && line == fieldEnd id)
  (s.setRows u 2 (s.rows u 2 6 ++ found ++ (if last then [[ts, 0, if line = (raster id).lines then 1 else 0, 0, 0, 0]] else []))).wr u Tx.lastLine
    (if line = (raster id).lines then 0 else line : Nat)

/-- The contexts of a packet output take a line that its Cell has emitted with VALID beats, from system time `start` on. -/
def State.txLine (s : State) (d line : Nat) (start : Int) (ws : List Nat) : State :=
  if d < 1152 ∨ 2304 ≤ d then s
  else
    (s.txOf (d - 1152)).foldl (fun a c =>
      let u := U.tx c
      let ty := a.rn u Tx.TYPE
      if ty = 2 ∨ ty = 3 then (if line = 1 then a.wr u Tx.silent 0 else a)
      else
        let b := if line = 1 then a.txFrame c d start else a
        let id := match ty with
          | 4 => match (a.txOf (d - 1152)).find? fun v => a.rn (U.tx v) Tx.TYPE == 1 || a.rn (U.tx v) Tx.TYPE == 5 with
            | some v => a.rn (U.tx v) Tx.RASTER
            | none => a.planRaster (a.cellN d Cell.PLAN)
          | _ => a.rn u Tx.RASTER
        if !b.rb u Tx.live then b
        else match ty with
          | 1 => b.txVideoLine c line ws
          | 4 => b.txAncLine c id line ws
          | _ =>
            let bits := (ws.flatMap (bitsMsb 10)).take (frameBits id - b.rn u Tx.got)
            (b.setBuf u 0 (b.buf u 0 ++ bits.map fun x => if x then (1 : Int) else 0)).wr u Tx.got (b.rn u Tx.got + bits.length : Nat)) s

/-! ### Departures (R233 to R237, R240 to R243) -/

/-- Big-endian octets. -/
def toBe (n v : Nat) : List Nat := (List.range n).map fun i => v / 256 ^ (n - 1 - i) % 256
/-- Sample row data headers and data of packet `n` of a field (R233): row, first sample, octets. -/
def srdsOf (id sampling depth packing srdMax n f : Nat) : List (Nat × Nat × Nat) :=
  let g := pgroup sampling depth
  let row := rowOctets id sampling depth
  let size := srdSize packing srdMax sampling depth
  if packing = 0 then
    let a := n * size
    let b := min (a + size) (fieldOctets id sampling depth f)
    let r := a / row
    let first := min b ((r + 1) * row)
    (r, (a - r * row) / g.1 * g.2, first - a) :: (if first < b then [(r + 1, 0, b - first)] else [])
  else
    let per := ceilDiv row size
    let o := n % per * size
    [(n / per, o / g.1 * g.2, min size (row - o))]
def srdHeaders (f : Nat) : List (Nat × Nat × Nat) → List Nat
  | [] => []
  | (r, o, len) :: t => toBe 2 len ++ toBe 2 (f * 32768 + r) ++ toBe 2 ((if t.isEmpty then 0 else 32768) + o) ++ srdHeaders f t

/-- The next packet of a video context leaves at d_n, or as soon as its data is complete (R236, R237). -/
def execPacketDeparture (dt c : Nat) (s0 : State) : Res :=
  let s := s0.after dt
  let u := U.tx c
  let st := s.rd u Tx.STATE
  .next (s.ifUp [U.tx c] (if 8192 ≤ c ∨ s.rn u Tx.TYPE ≠ 1 ∨ st = txOff ∨ st = txIdle then s
    else match s.rows u 1 8 with
      | [] => s
      | r :: rest =>
        let id := s.rn u Tx.RASTER
        let sm := s.rn u Tx.SAMPLING
        let dp := s.rn u Tx.DEPTH
        let n := s.rn u Tx.n
        let total := (at_ r 4).toNat
        let f := (at_ r 3).toNat
        let srds := srdsOf id sm dp (at_ r 6).toNat (at_ r 7).toNat n f
        let len : Nat := (srds.map fun x => x.2.2).foldl (· + ·) 0
        let due := at_ r 0 + trOffset id (s.rn u Tx.TR_OFFSET) + (trsGrains id (s.rn u Tx.SENDER) n total : Nat)
        let data := s.buf u 0
        if (s.now : Int) < due ∨ data.length < len ∨ (at_ r 5 = 1 ∧ s.rb u Tx.tsDue = true) then s
        else
          let q := ((at_ r 2 + n) % 2 ^ 32).toNat
          let body := toBe 2 (q / 65536) ++ srdHeaders f srds ++ (data.take len).map Int.toNat
          let s1 := s.txSend c ⟨n + 1 == total, s.rn u Tx.PT, q, (at_ r 1).toNat, s.rn u Tx.SSRC, body⟩
          let s2 := if due + Config.us < s.now then s1.count u Ctr.Tx.TX_LATE_PACKETS else s1
          let s3 := s2.setBuf u 0 (data.drop len)
          if n + 1 = total then (s3.setRows u 1 rest).wr u Tx.n 0 else s3.wr u Tx.n (n + 1)))

/-- AES3 flags octet and sample of an ST 2110-31 subframe (PRESUMED layout). -/
def aesOctets (b f c us v : Bool) (x : Nat) : List Nat :=
  let n := fun (t : Bool) (w : Nat) => if t then w else 0
  let par := ((bitsLsb 24 x).filter id).length + (if c then 1 else 0) + (if us then 1 else 0) + (if v then 1 else 0)
  (n b 32 + n f 16 + n (par % 2 == 1) 8 + n c 4 + n us 2 + n v 1) :: toBe 3 x

/-- Sample of channel `q` of an audio context at instant `idx`: an embedder channel of its output, or a slot; and the slot. -/
def State.txSample (s : State) (c q : Nat) (idx : Int) : (Int × Option Nat) × State :=
  let u := U.tx c
  let seat := s.rn u Tx.SEAT
  if seat = 0x7FF then
    let sl := s.rn u Tx.FIRST_SLOT + q
    let r := s.slotSample sl 0 idx
    ((r.1, some sl), r.2)
  else
    let d := 1152 + seat
    let e := U.emb d
    if s.rb u Tx.silent ∨ s.rb e Emb.ENABLE = false ∨ s.embChannels d ≤ q then ((0, none), s)
    else
      let ch := s.rn e (Emb.chF q)
      let r := if s.rb e Emb.RATE then s.freeSample else s.embSample 8 d q idx
      ((r.1, if ch / 65536 = 2 then some (ch % 65536) else none), r.2)

/-- Extended sequence number of a context's next packet: SEQ_INIT for its first, one more than the last for any other (R235). -/
def State.nextSeq (s : State) (c : Nat) : Nat :=
  if s.rb (U.tx c) Tx.sentAny then (s.rn (U.tx c) Tx.EXT_SEQ + 1) % 2 ^ 32 else s.rn (U.tx c) Tx.SEQ_INIT
/-- Octets of the samples from `idx` that one packet of an audio context carries, channel after channel (R241, R244). -/
def State.audioOctets (s : State) (c : Nat) (idx : Int) : List Nat × State :=
  let u := U.tx c
  (List.range (packetSamples (s.rn u Tx.PTIME))).foldl (fun (a : List Nat × State) (i : Nat) =>
    (List.range (s.rn u Tx.CHANNELS)).foldl (fun (b : List Nat × State) (q : Nat) =>
      let t := idx + (i : Int)
      let v := b.2.txSample c q t
      let x := v.1.1
      let octets := if s.rn u Tx.TYPE = 3 then
          let k := (t % 192).toNat
          let cs := match v.1.2 with
            | some sl => s.slotCs sl
            | none => csGenerate 0
          let vu := match v.1.2 with
            | some sl => s.slotVU sl t
            | none => 0
          aesOctets (k == 0) (q % 2 == 0) (bitAt cs k) (bitAt vu 1) (bitAt vu 0) ((out24 x % 2 ^ 24).toNat)
        else if s.rb u Tx.SDEPTH then toBe 3 ((out24 x % 2 ^ 24).toNat) else toBe 2 ((out16 x % 2 ^ 16).toNat)
      (b.1 ++ octets, v.2)) a) ([], s)

/-- The next packet of an audio context leaves 10 us after the sample that follows its last (R241). -/
def execAudioPacketDeparture (dt c : Nat) (s0 : State) : Res :=
  let s := s0.after dt
  let u := U.tx c
  let ty := s.rn u Tx.TYPE
  let n := packetSamples (s.rn u Tx.PTIME)
  let idx := s.rd u Tx.idx - 1
  .next (s.ifUp [U.tx c] (if 8192 ≤ c ∨ !(ty == 2 || ty == 3) ∨ s.rd u Tx.STATE = txOff ∨ s.rd u Tx.idx = 0 ∨ (s.now : Int) < sampleAt (idx + n) + 10 * Config.us then s
    else
      let r := s.audioOctets c idx
      let ts := ((idx + s.rd u Tx.TS_ADJ) % 2 ^ 32).toNat
      (r.2.txSend c ⟨false, s.rn u Tx.PT, s.nextSeq c, ts, s.rn u Tx.SSRC, r.1⟩).wr u Tx.idx (idx + n + 1)))

/-- Words of an ancillary packet kept as one number. -/
def ancWords : Nat → Nat → List Nat
  | 0, _ => []
  | fuel + 1, x => if x ≤ 1 then [] else x % 1024 :: ancWords fuel (x / 1024)
/-- An ancillary packet in RFC 8331 form (PRESUMED layout). -/
def ancOctets (line : Nat) (c : Bool) (stream hoff : Nat) (sBit : Bool) (ws : List Nat) : List Nat :=
  let bits := bitsMsb 1 (if c then 1 else 0) ++ bitsMsb 11 line ++ bitsMsb 12 hoff ++ bitsMsb 1 (if sBit then 1 else 0) ++ bitsMsb 7 stream ++ ws.flatMap (bitsMsb 10)
  let padded := bits ++ List.replicate ((32 - bits.length % 32) % 32) false
  (chunks 8 padded.length padded).map fun b => b.foldl (fun n x => 2 * n + if x then 1 else 0) 0
/-- Octets that a packet of either leg may carry after its RTP header and the 8 of RFC 8331. -/
def State.ancLimit (s : State) (c : Nat) : Nat :=
  let a := s.txLeg c false
  let b := s.txLeg c true
  let room := fun (l : Leg) => if l.en then s.rn (U.mac l.mac) Mac.MTU - frameOctets l 8 else 9216
  min (room a) (room b)

/-- The packets of the first line of `rows` that one RTP packet takes as far as the MTU allows, the rows left, and whether they end the
field: its last packet carries the marker, alone where the field has no packet (R242). A row of line 0 ends a field. -/
def State.ancNext (s : State) (c : Nat) (rows : List (List Int)) : List (List Nat) × List (List Int) × Bool :=
  let r := rows.headD []
  let line := at_ r 1
  if line = 0 then ([], rows.drop 1, true)
  else
    let mine := rows.takeWhile fun x => at_ x 1 == line && at_ x 0 == at_ r 0
    let fits := (mine.foldl (fun (a : List (List Nat) × Nat × Bool) x =>
      let o := ancOctets line.toNat (at_ x 2 == 1) (at_ x 3).toNat (at_ x 4).toNat (at_ x 3 != 0) (ancWords 300 (at_ x 5).toNat)
      if !a.2.2 || (decide (s.ancLimit c < a.2.1 + o.length) && !a.1.isEmpty) then (a.1, a.2.1, false) else (a.1 ++ [o], a.2.1 + o.length, true)) ([], 0, true)).1
    let left := rows.drop (max 1 fits.length)
    let ends := (left.headD []).getD 1 (-1) == 0
    (fits, if ends then left.drop 1 else left, ends)
/-- Octets that follow the RTP header of an ANC packet (R242). -/
def ancBody (q : Nat) (fits : List (List Nat)) : List Nat :=
  let data := fits.flatten
  toBe 2 (q / 65536) ++ toBe 2 data.length ++ [fits.length % 256] ++ toBe 3 0 ++ data

/-- The packets of the next line that carries some leave in one RTP packet (R242). -/
def execAncPacketDeparture (dt c : Nat) (s0 : State) : Res :=
  let s := s0.after dt
  let u := U.tx c
  let st := s.rd u Tx.STATE
  .next (s.ifUp [U.tx c] (if 8192 ≤ c ∨ s.rn u Tx.TYPE ≠ 4 ∨ st = txOff ∨ st = txIdle ∨ s.rb u Tx.tsDue = true then s
    else match s.rows u 2 6 with
      | [] => s
      | r :: rest =>
        let x := s.ancNext c (r :: rest)
        let q := s.nextSeq c
        (s.txSend c ⟨x.2.2, s.rn u Tx.PT, q, (at_ r 0).toNat, s.rn u Tx.SSRC, ancBody q x.1⟩).setRows u 2 x.2.1))

/-- The next ST 2022-6 datagram leaves once its last word has left the Cell (R240). -/
def execDatagramDeparture (dt c : Nat) (s0 : State) : Res :=
  let s := s0.after dt
  let u := U.tx c
  let st := s.rd u Tx.STATE
  .next (s.ifUp [U.tx c] (if 8192 ≤ c ∨ s.rn u Tx.TYPE ≠ 5 ∨ st = txOff ∨ st = txIdle ∨ s.rb u Tx.tsDue = true then s
    else match s.rows u 1 3 with
      | [] => s
      | r :: rest =>
        let id := s.rn u Tx.RASTER
        let ras := raster id
        let all := (at_ r 2).toNat
        let n := (at_ r 1).toNat
        let len := min 11008 (all - n * 11008)
        let bits := s.buf u 0
        if bits.length < len then s
        else if s.followsDecisions ∧ s.rb u Tx.haveTs = false then s.wr u Tx.tsDue (s.clk + 2 * Config.us + 1 : Nat)
        else
          let last := decide (all ≤ (n + 1) * 11008)
          let t := at_ r 0 + (n * 11008 / 10 * ras.line / ras.words : Nat)
          let own := s.rtpTs c 27000000 t
          -- on a STANDBY device the partner's value, where it came in time, stands in frameTs
          let ts := if s.rn u Tx.haveTs = 1 then s.rn u Tx.frameTs else own
          let q := s.nextSeq c
          let data := (bits.take len).map (· != 0) ++ List.replicate (11008 - len) false
          let octets := (chunks 8 data.length data).map fun b => b.foldl (fun k x => 2 * k + if x then 1 else 0) 0
          let head := [8, s.rn u Tx.frCount] ++ toBe 2 0 ++ toBe 3 (hbrmtCodes id) ++ [0]
          let s1 := (s.decide_ 4 u own).txSend c ⟨last, s.rn u Tx.PT, q, ts, s.rn u Tx.SSRC, head ++ octets⟩
          let s2 := (s1.setBuf u 0 (bits.drop len)).setRows u 1 (if last then rest else [at_ r 0, (n + 1 : Nat), at_ r 2] :: rest)
          s2.wr u Tx.haveTs 0))

/-- A FOLLOW output without VALID beats for two line periods: video and ANC contexts stop (R243, R244). -/
def execTxIdle (dt d : Nat) (s0 : State) : Res :=
  let s := s0.after dt
  let line := match (s.txOf (d - 1152)).find? fun v => s.rn (U.tx v) Tx.TYPE == 1 || s.rn (U.tx v) Tx.TYPE == 5 with
    | some v => (raster (s.rn (U.tx v) Tx.RASTER)).line
    | none => (s.planRas (s.cellN d Cell.PLAN)).line
  .next (s.ifUp [U.cell d] (if d < 1152 ∨ 2304 ≤ d ∨ s.cellTimed d = true ∨ s.clk < s.rn (U.cell d) Cell.outAt - 1 + 2 * line then s
    else (s.txOf (d - 1152)).foldl (fun a c =>
      let u := U.tx c
      let st := a.rn u Tx.STATE
      if a.rn u Tx.TYPE = 2 ∨ a.rn u Tx.TYPE = 3 then a.wr u Tx.silent 1
      else if st = 0 ∨ st = 3 then a
      else
        let b := ((a.wrs u [(Tx.STATE, txIdle), (Tx.live, 0), (Tx.n, 0)]).count u Ctr.Tx.TX_IDLE_ENTRIES).postEntry u 3 st 0 0
        [0, 1, 2].foldl (fun (z : State) p => z.setBuf u p []) b) s))

/-- The partner's timestamp of a frame or datagram reaches a STANDBY device, or (`none`) has not come in time and its own stands
(Table 15.4). -/
def State.applyTs (s : State) (c : Nat) (v : Option Nat) : State :=
  let u := U.tx c
  match s.rn u Tx.TYPE, v with
  | 5, some ts => s.wrs u [(Tx.frameTs, ts), (Tx.haveTs, 1), (Tx.tsDue, 0)]
  | 5, none => s.wrs u [(Tx.haveTs, 2), (Tx.tsDue, 0)]
  | _, none => s.wr u Tx.tsDue 0
  | ty, some ts =>
    if !s.rb u Tx.tsDue then s
    else
      let old := s.rd u Tx.frameTs
      let s1 := s.wrs u [(Tx.frameTs, ts), (Tx.tsDue, 0)]
      if ty = 1 then s1.setRows u 1 ((s.rows u 1 8).map fun r => if at_ r 5 = 1 ∧ at_ r 1 = old then [at_ r 0, (ts : Int), at_ r 2, at_ r 3, at_ r 4, 0, at_ r 6, at_ r 7] else r)
      else s1.setRows u 2 ((s.rows u 2 6).map fun r => if at_ r 0 = old then (ts : Int) :: r.drop 1 else r)

end Sys2Proof.Machine
end

