-- ==== Sys2Proof/Machine/Forward.lean ====
section
/-!
DEFINITION. Forwarding outputs, the path of a received frame through a MAC, and multicast membership (R197 to R200, R204,
R225, R247 to R252).
-/
namespace Sys2Proof.Machine

/-! ### Forwarding outputs (R247 to R249) -/

/-- Tick of the INPUT change under way (`clk`, plus one); the old input's marker has passed; the cut is forced; a packet has been
sent. Of a forwarding input: last packet (`clk`, plus one), whether it carried the marker, and its silence already counted. -/
def Fwd.cutAt : Field := ⟨300, 0, false, 0⟩
def Fwd.oldDone : Field := ⟨301, 1, false, 0⟩
def Fwd.forced : Field := ⟨302, 1, false, 0⟩
def Fwd.sent : Field := ⟨150, 1, false, 0⟩
def Fwd.inLast : Field := ⟨310, 0, false, 0⟩
def Fwd.inMarker : Field := ⟨311, 1, false, 0⟩
def Fwd.lossSeen : Field := ⟨312, 1, false, 0⟩

def State.fwdLeg (s : State) (o : Nat) (b : Bool) : Leg := legOf (s.rn (U.fwd o)) (fwdLegF b)
/-- A classifier entry that names forwarding input `x` reads packets of the other IP version than an enabled leg (R249). -/
def State.fwdVersionClash (s : State) (x : Nat) (l : Leg) : Bool :=
  l.en && x != 2047 && s.classifier.any fun e =>
    let r := e.2.getLastD 0
    resAction r == 3 && resIndex r == x && keyV6 (e.2.headD 0) != l.v6

def fwdcfgChecks (s : State) (vs : List Int) (o : Nat) : Checks :=
  let ps := Fwd.fwdcfgParams
  let g := pn ps vs
  let a := legOf g (fwdLegF false)
  let b := legOf g (fwdLegF true)
  let x := g Fwd.INPUT_CFG
  let w := if x = 2047 then 0 else g Fwd.RATE * 1000000 * 1001
  [(.range, !paramsOk ps vs || s.legRange a || s.legRange b || s.fwdVersionClash x a || s.fwdVersionClash x b),
   (.nounit, s.legUnbound a || s.legUnbound b),
   (.bandwidth, s.overBooked a b w w none (some o))]
def judgeFwdcfg (i : Issue) (s : State) : Judged :=
  let pr := getParams Fwd.fwdcfgParams false i
  let vs := pr.getD []
  let os := targets i 0x0D (U.fwd 0) 1024
  { checks := (.format, i.badFlags true false true false || pr.isNone) :: eachTarget os (fwdcfgChecks s vs)
    verdict := .stage ((os.getD []).map fun o => ⟨s.thn i.th Lamp.PLAN, 0, [⟨U.fwd o, 0⟩], [U.fwd o], .cfg 0xA2 o 0 vs⟩) }
def execFwdcfg (i : Issue) (s : State) : Res := .next (s.issue i (.ticked 0xA2) (judgeFwdcfg i))

/-- A forwarding output commits: a change of INPUT waits for its cut (R248). -/
def State.commitFwdcfg (s : State) (o : Nat) (vs : List Int) : State :=
  let u := U.fwd o
  let cur := s.rn u Fwd.INPUT
  let new := pn Fwd.fwdcfgParams vs Fwd.INPUT_CFG
  let s1 := s.wrParams u Fwd.fwdcfgParams vs
  if new = s.rn u Fwd.INPUT_CFG then s1
  else if new = cur then s1.wrs u [(Fwd.PENDING, 0), (Fwd.oldDone, 0), (Fwd.forced, 0), (Fwd.cutAt, 0)]
  else s1.wrs u [(Fwd.PENDING, 1), (Fwd.cutAt, s.clk + 1), (Fwd.oldDone, if cur = 2047 then 1 else 0), (Fwd.forced, 0)]

/-- One update of a checksum by RFC 1624 for a field of `n` bits. -/
def sumUpdate (hc n old new : Nat) : Nat :=
  (List.range (n / 16)).foldl (fun (h : Nat) i =>
    let m := old / 65536 ^ i % 65536
    let m' := new / 65536 ^ i % 65536
    65535 - fold16 ((65535 - h) + (65535 - m) + m')) hc

/-- A packet that a MAC has received for forwarding: IP version, addresses, UDP ports and checksum, IP length, its RTP header and
what follows it. -/
structure FwdIn where
  ip : Ip
  sum : Nat
  sport : Nat
  dport : Nat
  len : Nat
  rtp : Rtp
  first : Nat
  raw : List Nat
deriving DecidableEq, Repr

/-- Send a packet from an output on its legs, rewritten (R249). -/
def State.fwdSend (s : State) (o : Nat) (p : FwdIn) : State :=
  let u := U.fwd o
  let a := s.fwdLeg o false
  let b := s.fwdLeg o true
  let (sa, sb) := s.legsNow (s.rb u Fwd.LEG_POLICY) a b
  let q : Nat := if s.rb u Fwd.sent then (s.rn u Fwd.EXT_SEQ + 1) % 2 ^ 32 else s.rn u Fwd.SEQ_INIT
  let pt := if s.rn u Fwd.PT = 255 then p.rtp.pt else s.rn u Fwd.PT
  let ssrc := s.rn u Fwd.SSRC
  let tooLong := fun (l : Leg) => decide (s.rn (U.mac l.mac) Mac.MTU < p.len + 18 + (if l.vlan = 0 then 0 else 4))
  let one := fun (x : State × Bool) (on : Bool) (l : Leg) (k : Nat) =>
    if !on || l.v6 != p.ip.v6 then x
    else if tooLong l then (x.1.count u Ctr.Fwd.FWD_OVERSIZE, x.2)
    else if !s.rb (U.mac l.mac) Mac.LINK then (x.1, true)
    else
      let src := if l.v6 then s.rn (U.mac l.mac) Mac.IPV6 else s.rn (U.mac l.mac) Mac.IPV4
      let aw := if l.v6 then 128 else 32
      let h0 := p.first * 65536 + p.rtp.seq
      let h1 := (p.first / 256 * 256 + (if p.rtp.marker then 128 else 0) + pt) * 65536 + q % 65536
      let sum1 := sumUpdate (sumUpdate (sumUpdate (sumUpdate (sumUpdate (sumUpdate p.sum aw p.ip.src src) aw p.ip.dst l.dst) 16 p.sport l.sport) 16 p.dport l.dport) 32 h0 h1) 32 p.rtp.ssrc ssrc
      let sum := if !l.v6 && p.sum == 0 then 0 else if sum1 = 0 then 65535 else sum1
      ((x.1.putPacket l ⟨p.rtp.marker, pt, q, p.rtp.ts, ssrc, p.raw⟩ [(sum : Int)]).count u (Ctr.Fwd.PACKETS_A + k), true)
  let r := one (one (s, false) sa a 0) sb b 1
  let s1 := r.1.wr u Fwd.LEGS_SENT ((if sa then 1 else 0) + (if sb then 2 else 0))
  if r.2 then s1.wrs u [(Fwd.EXT_SEQ, q), (Fwd.sent, 1)] else s1

/-- An output meets a packet of input `x` (R248): the old input up to its marker, then the new one after its own. -/
def State.fwdOutput (s : State) (x o : Nat) (p : FwdIn) : State :=
  let u := U.fwd o
  let cur := s.rn u Fwd.INPUT
  let new := s.rn u Fwd.INPUT_CFG
  if !s.rb u Fwd.PENDING then (if cur = x then s.fwdSend o p else s)
  else if x = new ∧ (s.rb u Fwd.forced ∨ (s.rb u Fwd.oldDone ∧ s.rb (U.fwd x) Fwd.inMarker)) then
    let s1 := s.wrs u [(Fwd.INPUT, new), (Fwd.PENDING, 0), (Fwd.oldDone, 0), (Fwd.forced, 0), (Fwd.cutAt, 0)]
    s1.fwdSend o p
  else if x = cur ∧ s.rb u Fwd.oldDone = false then
    let s1 := s.fwdSend o p
    if !p.rtp.marker then s1
    else if new = 2047 then s1.wrs u [(Fwd.INPUT, 2047), (Fwd.PENDING, 0), (Fwd.oldDone, 0), (Fwd.cutAt, 0)]
    else s1.wr u Fwd.oldDone 1
  else s

/-- Outputs that select input `x`, now or after their cut. -/
def State.fwdOutputs (s : State) (x : Nat) : List Nat :=
  (s.holding (U.fwd 0) 1024 Fwd.INPUT (x : Nat) ++ s.holding (U.fwd 0) 1024 Fwd.INPUT_CFG (x : Nat)).eraseDups
/-- A packet of forwarding input `x`. -/
def State.fwdPacket (s : State) (x : Nat) (udp : Bool) (p : FwdIn) : State :=
  let outs := s.fwdOutputs x
  if !udp || p.rtp.version != 2 then outs.foldl (fun a o => a.countLimited (U.fwd o) Ctr.Fwd.FWD_FORMAT_ERRORS 0x0406 0) s
  else
    let s1 := outs.foldl (fun a o => a.fwdOutput x o p) s
    outs.foldl (fun a o => a.wr (U.fwd o) Fwd.lossSeen 0) (s1.wrs (U.fwd x) [(Fwd.inLast, s.clk + 1), (Fwd.inMarker, if p.rtp.marker then 1 else 0)])

/-- No marker within 100 ms of the tick: the cut is forced at the new input's next packet (R248). -/
def execFwdForcedCut (dt o : Nat) (s0 : State) : Res :=
  let s := s0.after dt
  let u := U.fwd o
  .next (s.ifUp [U.fwd o] (if 1024 ≤ o ∨ s.rb u Fwd.PENDING = false ∨ s.rb u Fwd.forced = true ∨ s.clk < s.rn u Fwd.cutAt - 1 + 100 * Config.ms then s
    else
      let s1 := if s.rn u Fwd.INPUT_CFG = 2047 then s.wrs u [(Fwd.INPUT, 2047), (Fwd.PENDING, 0), (Fwd.oldDone, 0), (Fwd.cutAt, 0)] else s.wr u Fwd.forced 1
      s1.countLimited u Ctr.Fwd.FWD_FORCED_CUTS 0x0503 0))
/-- A selected input is silent for 10 ms (R252). -/
def execFwdInputLoss (dt o : Nat) (s0 : State) : Res :=
  let s := s0.after dt
  let u := U.fwd o
  let x := s.rn u Fwd.INPUT
  .next (s.ifUp [U.fwd o] (if 1024 ≤ o ∨ x = 2047 ∨ s.rb u Fwd.lossSeen = true ∨ s.clk < s.rn (U.fwd x) Fwd.inLast - 1 + 10 * Config.ms then s
    else (s.wr u Fwd.lossSeen 1).countLimited u Ctr.Fwd.FWD_INPUT_LOSS 0x0502 0))

/-! ### A frame at a MAC (R197 to R200, R204, R225) -/

/-- Second (plus one) and frames passed to the Steward in it; frames in the queue for the Steward (R199). -/
def Mac.stwSec : Field := ⟨330, 0, false, 0⟩
def Mac.stwCount : Field := ⟨331, 0, false, 0⟩
def Mac.stwQueue : Field := ⟨332, 9, false, 0⟩
/-- A frame goes to the Steward, within its queue of 256 frames and 20,000 frames per second (R199). -/
def State.toSteward (s : State) (m : Nat) : State :=
  let u := U.mac m
  let n := if s.rn u Mac.stwSec = s.nowS + 1 then s.rn u Mac.stwCount else 0
  let held := s.rn u Mac.stwQueue
  if 256 ≤ held ∨ 20000 ≤ n then s.countLimited u Ctr.Mac.RX_STEWARD_DROPS 0x0405 0
  else (s.wrs u [(Mac.stwSec, s.nowS + 1), (Mac.stwCount, n + 1), (Mac.stwQueue, held + 1)]).count u Ctr.Mac.RX_STEWARD

/-- The frame is one of Table 7.2 that goes to the Steward. -/
def State.stewardFrame (s : State) (m : Nat) (e : Eth) (ip : Ip) : Bool :=
  if e.etype = 0x88CC then true
  else if e.etype = 0x0806 then s.ownIp m false (be e.body 24 4)
  else if e.etype = 0x0800 ∨ e.etype = 0x86DD then
    let t := be ip.body 0 1
    if ip.v6 then
      ip.proto == 58 && (isMld t || (t == 128 && s.ownIp m true ip.dst) ||
        (decide (133 ≤ t) && decide (t ≤ 137) && (s.ownIp m true ip.dst || s.solicited m ip.dst)))
    else ip.proto == 2 || (ip.proto == 1 && t == 8 && s.ownIp m false ip.dst)
  else false

/-- What the classifier's result does with an IP packet: none found, dropped, or to a flow context, the Steward or a forwarding
output (R206). -/
def State.routed (s : State) (m : Nat) (e : Eth) (ip : Ip) (port : Nat) (found : Option (Nat × Nat)) : State :=
  let udp := ip.proto == 17
  match found with
  | none => s.countLimited (U.mac m) Ctr.Mac.RX_UNCLASSIFIED 0x0404 0
  | some (n, r) =>
    let s1 := s.count (U.clsEntry n) Ctr.Cls.HITS
    let rtp := if udp then udpPayload ip else []
    match resAction r with
    | 1 => s1.flowPacket (resIndex r) (resLeg r) rtp
    | 2 => if udp && !udpSumOk ip then s1 else s1.toSteward m
    | 3 => s1.fwdPacket (resIndex r) udp ⟨ip, be ip.body 6 2, be ip.body 0 2, port, ip.body.length + (if ip.v6 then 40 else (be e.body 0 1 % 16) * 4), parseRtp rtp,
        be rtp 0 2, rtp.drop 12⟩
    | _ => s1

/-- A good IP packet: Steward, classifier, and what the entry that decides asks for. -/
def State.ipPacket (s : State) (m : Nat) (e : Eth) (ip : Ip) : State :=
  let udp := ip.proto == 17
  let port := if udp then be ip.body 2 2 else 0
  if s.stewardFrame m e ip then s.toSteward m
  else if udp && (port == 319 || port == 320) then s
  else s.routed m e ip port (s.classify ip.v6 m e.vlan port ip.dst ip.src)

/-- A frame addressed to the MAC: a second tag, Pause frames and what IP finds (R197, Table 7.5). -/
def State.ethFrame (s : State) (m : Nat) (e : Option Eth) : State :=
  let u := U.mac m
  match e with
  | none => s.countLimited u Ctr.Mac.RX_STAG_DROPS 0x0401 0
  | some e =>
    if e.etype = 0x8808 then s.count u Ctr.Mac.RX_PAUSE
    else if e.etype = 0x88F7 then s
    else if e.etype = 0x0800 ∨ e.etype = 0x86DD then
      match parseIp e.etype e.body with
      | (.header, _) => s.countLimited u Ctr.Mac.RX_IP_HDR_ERRORS 0x0402 0
      | (.fragment, _) => s.countLimited u Ctr.Mac.RX_FRAGMENTS 0x0403 0
      | (.ok, ip) => if ip.proto = 17 ∧ udpOk ip = false then s.countLimited u Ctr.Mac.RX_IP_HDR_ERRORS 0x0402 0 else s.ipPacket m e ip
    else if s.stewardFrame m e ⟨false, 0, 0, 0, 0, false, []⟩ then s.toSteward m
    else s.countLimited u Ctr.Mac.RX_UNCLASSIFIED 0x0404 0

/-- A MAC receives a frame, without its FCS: whether the FCS held, and how many frames of this MAC's queue the Steward has taken since the
MAC's last frame, its pace being nowhere stated (R197 to R200; notes/assumptions/99.md). PTP frames act at their own commands. -/
def execMacFrameRx (dt m : Nat) (fcsOk : Bool) (frame : List Byte) (taken : Nat) (s0 : State) : Res :=
  let s := s0.after dt
  let u := U.mac m
  let l := frame.map (·.toNat)
  let size := l.length + 4
  .next (if 144 ≤ m ∨ s.rn u Mac.LANE = 511 ∨ s.rb u Mac.LINK = false ∨ s.unitBad u = true then s
    else
      let s1 := ((s.wr u Mac.stwQueue (s.rn u Mac.stwQueue - taken : Nat)).count u Ctr.Mac.RX_FRAMES).countBy u Ctr.Mac.RX_BYTES size
      if !fcsOk then s1.countLimited u Ctr.Mac.RX_FCS_ERRORS 0x0400 0
      else if size < 64 then s1.countLimited u Ctr.Mac.RX_RUNTS 0x0400 0
      else if s.rn u Mac.MTU < size then s1.countLimited u Ctr.Mac.RX_OVERSIZE 0x0400 0
      else
        let dst := be l 0 6
        let own := s.rb u Mac.ADDR && s.rn u Mac.ADDR == dst
        if !own && !bitAt dst 40 then s1.count u Ctr.Mac.RX_DA_MISMATCH
        else s1.ethFrame m (parseEth l))

/-! ### Membership (R250 to R252) -/

/-- Compatibility mode ends at (`clk`, plus one; 0: not in it); elected querier (plus one) and when last heard, for IPv4 and IPv6. -/
def Mac.compatEnd (v6 : Bool) : Field := ⟨if v6 then 322 else 321, 0, false, 0⟩
def Mac.querier (v6 : Bool) : Field := ⟨if v6 then 324 else 323, 0, false, 0⟩
def Mac.querierAt (v6 : Bool) : Field := ⟨if v6 then 326 else 325, 0, false, 0⟩

/-- Reports for groups of a MAC: one IGMPv3 or MLDv2 report for all of them, or in compatibility mode one older message for each ASM
group; an SSM key that cannot be reported is counted and posted (R250, R251). A Steward halted or handing over sends none (R50). A record is join, destination, source. -/
def State.sendReports (s : State) (m : Nat) (v6 : Bool) (rs : List (Bool × Group)) : State :=
  let u := U.mac m
  let mine := rs.filter fun r => r.2.v6 == v6
  if mine.isEmpty || s.stewardBusy then s
  else
    let src : Int := if v6 then linkLocal (s.rn u Mac.ADDR) else s.rn u Mac.IPV4
    let put := fun (a : State) (version : Nat) (l : List (Bool × Group)) =>
      (a.emit (.packet m [if v6 then 6 else 4, (version : Int), src] (l.flatMap fun r => [if r.1 then 1 else 0, r.2.dst, r.2.src]))).count u Ctr.Mac.MCAST_REPORTS
    if !s.rb u (Mac.compatEnd v6) then put s (if v6 then 2 else 3) mine
    else mine.foldl (fun a r => if r.2.src = 0 then put a (if v6 then 1 else 2) [r] else a.countEvent u Ctr.Mac.MCAST_SSM_BLOCKED) s

/-- A membership query reaches the Steward (R250 to R252). Timers are those of RFC 3376 and RFC 3810 (PRESUMED,
notes/assumptions/26.md). -/
def execMcastQueryRx (dt m : Nat) (q : QueryIn) (s0 : State) : Res :=
  let s := s0.after dt
  let u := U.mac m
  let newest := if q.v6 then 2 else 3
  let rob := if newest ≤ q.version ∧ q.robust ≠ 0 then q.robust else 2
  let qi := if newest ≤ q.version ∧ q.interval ≠ 0 then q.interval else 125
  .next (s.ifUp [U.mac m] (if 144 ≤ m ∨ s.rn u Mac.LANE = 511 ∨ s.rb u Mac.LINK = false then s
    else if !q.ok then s.countLimited u Ctr.Mac.MCAST_RX_ERRORS 0x0500 0
    else
      let cur := s.rn u (Mac.querier q.v6)
      let live := cur != 0 && decide (s.clk < s.rn u (Mac.querierAt q.v6) + (rob * qi * 1000 + q.resp / 2) * Config.ms)
      if live && decide (cur - 1 < q.src) then s.count u Ctr.Mac.MCAST_FOREIGN_QUERIES
      else
        let s1 := s.wrs u [(Mac.querier q.v6, q.src + 1), (Mac.querierAt q.v6, s.clk), (Mac.robust, rob)]
        let old := decide (q.version < newest)
        let s2 := if !old then s1
          else
            let s3 := s1.wr u (Mac.compatEnd q.v6) (s.clk + (rob * qi * 1000 + q.resp) * Config.ms + 1)
            if s.rb u (Mac.compatEnd q.v6) then s3 else s3.countLimited u Ctr.Mac.MCAST_COMPAT_ENTRIES 0x0501 0
        s2.sendReports m q.v6 (((s2.groupsOf m).filter fun g => q.group == 0 || g.dst == q.group).map fun g => (true, g))))

/-- The Steward reports the membership changes of a MAC that fall due, and repeats each 1 s later while reports are left (R250). -/
def execMcastReport (dt m : Nat) (s0 : State) : Res :=
  let s := s0.after dt
  let all := s.reports m
  let due := all.filter fun r => decide (r.due ≤ s.clk)
  .next (s.ifUp [U.mac m] (if 144 ≤ m ∨ s.rn (U.mac m) Mac.LANE = 511 ∨ due.isEmpty = true ∨ s.stewardBusy = true then s
    else
      let rs := due.map fun r => (r.join, r.g)
      let s1 := (s.sendReports m false rs).sendReports m true rs
      s1.setBuf (U.mac m) 20 (unreports (all.filterMap fun r =>
        if due.contains r then (if r.left ≤ 1 then none else some { r with left := r.left - 1, due := s.clk + 1000 * Config.ms }) else some r))))

/-- The older-version querier present interval ends (R251). -/
def execMcastCompatExpiry (dt m : Nat) (v6 : Bool) (s0 : State) : Res :=
  let s := s0.after dt
  let u := U.mac m
  .next (s.ifUp [U.mac m] (if 144 ≤ m ∨ s.rb u (Mac.compatEnd v6) = false ∨ s.clk < s.rn u (Mac.compatEnd v6) - 1 then s else s.wr u (Mac.compatEnd v6) 0))

end Sys2Proof.Machine
end

