-- ==== Sys2Proof/Machine/OutStage.lean ====
section
/-!
DEFINITION. A Cell emits a line: fallback count, Watchman probes, the compare record, and the output stage with embedding,
line-number words, CRC words and Haywain or direct SDI output (R134, R140, R183, R187 to R192, R425).
-/
namespace Sys2Proof.Machine

/-- Compare on a FOLLOW Cell: LAST_TICK (plus one) from which its frames are counted, and frames begun since (R425). -/
def Cmp.tick : Field := ⟨355, 0, false, 0⟩
def Cmp.frame : Field := ⟨356, 0, false, 0⟩

/-! ### Watchman probes (R140) -/

/-- The list with `v` at place `i`, earlier places that it lacks filled with zeros. -/
def putAt (l : List Int) (i : Nat) (v : Int) : List Int := l.take i ++ List.replicate (i - l.length) 0 ++ [v] ++ l.drop (i + 1)

/-- The frame under way of a probe ends. -/
def State.probeFrameEnd (s : State) (p : Nat) : State :=
  let u := U.probe p
  let n := s.rn u Probe.lines
  if n = 0 then s
  else
    let s1 := s.wr u Probe.lines 0
    match s.rn u Probe.FUNCTION with
    | 0 => (s1.setBuf u 0 (s.buf u 1)).setBuf u 1 []
    | 1 => s1.wr u Probe.FRAME_LINES n
    | 2 =>
      let h := s.rn u Probe.run ^^^ 0xFFFFFFFF
      let same := s.rb u Probe.hashed && s.rn u Probe.PICTURE_HASH == h
      let run := if same then s.rn u Probe.equal + 1 else 1
      let frozen := decide (s.rn u Probe.FREEZE_FRAMES ≤ run)
      let s2 := s1.wrs u [(Probe.PICTURE_HASH, h), (Probe.hashed, 1), (Probe.equal, run), (Probe.FROZEN, if frozen then 1 else 0)]
      if frozen == s.rb u Probe.FROZEN then s2 else s2.postEntry (U.cell (2624 + p)) (if frozen then 1 else 0) (if frozen then 0 else 1) 0 0
    | _ => s1

/-- Bytes of words as 40-bit beats, little-endian (Table 4.8). -/
def beatBytes (ws : List Nat) : List Nat :=
  (chunks 4 ws.length ws).flatMap fun b =>
    let v := (b.getD 0 0) + (b.getD 1 0) * 2 ^ 10 + (b.getD 2 0) * 2 ^ 20 + (b.getD 3 0) * 2 ^ 30
    (List.range 5).map fun i => v / 2 ^ (8 * i) % 256
/-- A capture writes bytes; a channel in FAULT fails it (Table 20.4). -/
def State.captureBytes (s : State) (p at_ : Nat) (bs : List Nat) : State :=
  let u := U.probe p
  let cs := chansOf at_ bs.length
  let s1 := cs.foldl (fun a c => (a.faultAccess (U.cell (2624 + p)) 6 c).chanTouch c) s
  if cs.any s.chanFault then s1.wr u Probe.cap 4
  else
    let m := (bs.foldl (fun (a : List Host.Cell × Nat) b => (barnPut a.1 a.2 (BitVec.ofNat 8 b), a.2 + 1)) (s1.barn, at_)).1
    { s1 with barn := m }.wr u Probe.capBytes (s.rn u Probe.capBytes + bs.length)

/-- The active picture of a line by its SAV: the words after a SAV whose V bit is 0. -/
def activePart (ws : List Nat) : List Nat :=
  let n := max 1 (eavGroup ws / 4)
  match savOf n ws with
  | some k => if bitAt (ws.getD (k + 3 * n) 0) 7 then [] else ws.drop (k + 4 * n)
  | none => []
/-- A probe takes a line that its Cell has emitted from system time `start` on. -/
def State.probeLine (s : State) (p line : Nat) (start : Int) (ws : List Nat) (crc : Nat) : State :=
  let u := U.probe p
  let d := 2624 + p
  let begins := line == 1
  let s0 := if begins then s.probeFrameEnd p else s
  let n := s0.rn u Probe.lines
  -- a frame counts from its line 1
  let live := begins || decide (0 < n)
  let s1 := if live then s0.wr u Probe.lines (n + 1) else s0
  let s2 := match s.rn u Probe.FUNCTION with
    | 0 =>
      let x := s1.wrs u [(Probe.LAST_LINE, line), (Probe.LAST_CRC, crc)]
      if live then x.setBuf u 1 (putAt (x.buf u 1) (line - 1) crc) else x
    | 1 =>
      let pl := s.cellN d Cell.PLAN
      let r := s.planRas pl
      let T : Int := r.frame
      let step : Int := 32 * Config.ns / 10
      let t := start / step * step
      let e := (t - s.phaseAt pl t - ((line : Int) - 1) * r.line) % T
      let off := (if 2 * e > T then e - T else e) / Config.ns
      let has := s1.rb u Probe.hasNow
      s1.wrs u [(Probe.OFFSET, off), (Probe.LINE_WORDS, ws.length), (Probe.minNow, if has then min off (s1.rd u Probe.minNow) else off),
        (Probe.maxNow, if has then max off (s1.rd u Probe.maxNow) else off), (Probe.hasNow, 1)]
    | 2 =>
      let run := if begins then 0xFFFFFFFF else s1.rn u Probe.run
      s1.wr u Probe.run (crcNums 0x82F63B78 run 10 (activePart ws))
    | _ =>
      let x := if begins && (s1.rn u Probe.cap == 1 || s1.rn u Probe.cap == 2) then s1.wrs u [(Probe.cap, 2), (Probe.capBytes, 0)] else s1
      if x.rn u Probe.cap = 2 ∧ x.rn u Probe.FIRST ≤ line ∧ line ≤ x.rn u Probe.LAST then
        let y := x.captureBytes p (x.rn u Probe.ADDR + x.rn u Probe.capBytes) (beatBytes ws)
        if y.rn u Probe.cap = 2 ∧ line = y.rn u Probe.LAST then y.wr u Probe.cap 3 else y
      else x
  if s.cellTimed d && line == (s.planRas (s.cellN d Cell.PLAN)).lines then s2.probeFrameEnd p else s2

/-! ### Compare (R425) -/

/-- Rows [frames, line, CRC] of a FOLLOW Cell: 31 its own, 32 the partner's, newest frames only. -/
def State.followRows (s : State) (d p : Nat) : List (List Int) := s.rows (U.cell d) p 3
def State.noteRow (s : State) (d p frames line crc : Nat) : State :=
  s.setRows (U.cell d) p ((s.followRows d p).filter (fun r => (frames : Int) ≤ at_ r 0 + 2) ++ [[(frames : Int), (line : Int), (crc : Int)]])
/-- A whole frame of a FOLLOW Cell mismatches on every line, and the partner's records of a neighbouring frame count all match:
that offset is adopted (R425). -/
def State.realign (s : State) (d frames : Nat) : State :=
  let own := (s.followRows d 31).filter fun r => at_ r 0 == (frames : Int)
  let theirs := s.followRows d 32
  let agree := fun (k : Int) (r : List Int) => theirs.any fun x => at_ x 0 == (frames : Int) + k && at_ x 1 == at_ r 1 && at_ x 2 == at_ r 2
  let differs := fun (r : List Int) => theirs.any fun x => at_ x 0 == (frames : Int) && at_ x 1 == at_ r 1 && at_ x 2 != at_ r 2
  if own.isEmpty || !own.all differs then s
  else match ([-1, 1] : List Int).find? fun k => own.all (agree k) with
    | some k => ((((s.wr (U.cell d) Cmp.shift (s.rd (U.cell d) Cmp.shift + k)).setRows (U.cell d) 31 []).setRows (U.cell d) 32 []).count U.twin Ctr.Twin.FOLLOW_REALIGNS)
    | none => s

/-- The compare record of a line that system time `t` lies in. The frame that contains a FOLLOW cut is not compared. -/
def State.compareLine (s : State) (d line crc : Nat) (t : Int) : State :=
  if s.tw Twin.PAIR ≠ prInStep then s
  else
    let u := U.cell d
    let s0 := if line = 1 then s.armCell d else s
    if s.cellTimed d then s0.compareOwn 0 d (s0.frameKey d 0 t) line crc
    else
      let tick := s.cellN d Cell.LAST_TICK + 1
      let s1 := if s.rb u (Cell.pending 0) then s0.wrs u [(Cmp.frame, 0), (Cmp.tick, 0)]
        else if s.rn u Cmp.tick = tick then s0 else s0.wrs u [(Cmp.frame, 0), (Cmp.tick, tick), (Cmp.shift, 0)]
      if s.rb u (Cell.pending 0) then s1
      else
        let s2 := if line = 1 then s1.wr u Cmp.frame (s1.rn u Cmp.frame + 1) else s1
        let n := s2.rn u Cmp.frame
        if n = 0 then s2
        else
          let key := s2.frameKey d (n - 1) t
          let s3 := (s2.noteRow d 31 (key / 2 ^ 48) line crc).compareOwn 0 d key line crc
          if line = 1 ∧ 2 ≤ n then s3.realign d ((key / 2 ^ 48 + 65535) % 65536) else s3

/-! ### The output stage (R188) -/

/-- An ancillary packet is embedded audio (data or control) of ST 272 or ST 299 (PRESUMED DIDs, notes/assumptions/26.md). -/
def isAudioAnc (w : List Nat) : Bool :=
  let did := w.getD 0 0 % 256
  decide (0xF8 ≤ did) || (decide (0xEC ≤ did) && decide (did ≤ 0xEF)) || (decide (0xE0 ≤ did) && decide (did ≤ 0xE7)) ||
    (decide (0xA0 ≤ did) && decide (did ≤ 0xA7))
/-- Places of a stream that stay when its audio packets are replaced: all but the horizontal ancillary space, and there the other
packets. -/
def keptPlaces (hd : Bool) (ws : List Nat) : List Nat :=
  let lo := if hd then 8 else 4
  let hi := (savOf 1 ws).getD lo
  let others := ((findAnc ws.length 0 ws).filter fun a => !isAudioAnc a.2).flatMap fun a => (List.range (a.2.length + 3)).map (· + a.1)
  (List.range ws.length).filter fun i => decide (i < lo) || decide (hi ≤ i) || others.contains i
/-- The ancillary space of a stream after embedding: the words that the embedded packets take are formed by ST 272 or ST 299, whose
rules are not in the spec: each is a free value (notes/assumptions/6.md). -/
def State.embedStream (s : State) (hd : Bool) (ws : List Nat) : List Nat × State :=
  let kept := keptPlaces hd ws
  ws.zipIdx.foldl (fun (a : List Nat × State) e =>
    if kept.contains e.2 then (a.1 ++ [e.1], a.2)
    else
      let r := a.2.free 1024
      (a.1 ++ [r.1], r.2)) ([], s)

/-- A stream of an HD line with its line-number and CRC words; `r` runs over the active words of the line before. -/
def stageStream (ln : Option Nat) (mark : Bool) (r : Nat) (ws : List Nat) : List Nat × Nat :=
  let ws1 := match ln with
    | some n => (ws.set 4 (lnWords n).1).set 5 (lnWords n).2
    | none => ws
  let (c0, c1) := crcWords (crcNums 0x23000 r 10 (ws1.take 6))
  let m := if mark then 1 else 0
  ((ws1.set 6 (c0 ^^^ m)).set 7 (c1 ^^^ m), crcNums 0x23000 0 10 (streamActive ws1))

/-- Duration of a line that Cell `d` emits, from its plan or the rate of its source. -/
def State.lineDur (s : State) (d n : Nat) : Nat :=
  if s.cellTimed d then (s.planRas (s.cellN d Cell.PLAN)).line
  else
    let r := s.outRate d
    if r = 0 then 0 else n * 10 * 1001 * Config.second / nominalBps1001 (r / 2) (r % 2)

/-- The embedder presents its samples of the line that lies in [start, start + dur) (R332). -/
def State.presentSamples (s : State) (d : Nat) (start : Int) (dur : Nat) (hd : Bool) : State :=
  let e := U.emb d
  let g := s.embGroups d hd
  let chans := g * (if s.rb e Emb.RATE then 2 else 4)
  (embInstants (s.rn e Emb.RATE) start (start + dur)).foldl (fun (a : State) u =>
    let r := collect a chans fun x q => x.embSample 8 d q u
    r.2.emit (.embedded d u r.1)) s

/-- The embedder's turn in the output stage: the streams of the line with its words, and the samples presented (R326 to R332, R426). -/
def State.embedStage (s : State) (d : Nat) (l : SeatLine) (ss : List (List Nat)) (start : Int) (dur : Nat) : List (List Nat) × State :=
  let e := U.emb d
  if s.rb e Emb.ENABLE then
    let r := ss.foldl (fun (a : List (List Nat) × State) w => let x := a.2.embedStream l.hd w; (a.1 ++ [x.1], x.2)) ([], s)
    let lost : Nat := s.rn e Emb.GROUPS - s.embGroups d l.hd
    (r.1, (if l.line = 1 then r.2.countBy e Ctr.Emb.GROUPS_DROPPED lost else r.2).presentSamples d start dur l.hd)
  else (ss, s)
/-- The output stage of a tributary or packet output, for a line begun at system time `start` (R188 to R192). -/
def State.outputStage (s : State) (d : Nat) (l : SeatLine) (start : Int) (dur : Nat) : State :=
  let u := U.cell d
  if !s.outCarries d then s
  else
    let ss := if l.hd then streamsOf l.words else [l.words]
    -- 1 embedding
    let r := s.embedStage d l ss start dur
    -- 2 and 3: line-number and CRC words
    let ln := if s.cellTimed d then some l.line else none
    let mark := decide (d < 1152) && s.rb (U.trib d) Trib.CRC_MODE && l.lerrCrc && !l.conc && s.rd u Cell.OUTPUT != 2
    let regs := s.buf u 30
    let out := if l.hd then r.1.zipIdx.map fun x => stageStream ln mark (regs.getD x.2 0).toNat x.1 else r.1.map fun w => (w, 0)
    let ws := joinStreams ss.length (out.map (·.1))
    let s1 := (r.2.setBuf u 30 (out.map fun x => (x.2 : Int))).emit (.line d ws)
    -- 4 Haywain mapping, SDI scrambling or packets
    if d < 1152 then s1.sendTrib d ws l.lerr dur else s1.txLine d l.line start ws

/-! ### A Cell emits a line (R188) -/

/-- Beats of a line leave the Cell, reach the return seats that mirror it 64 ns later (R32), and are probed, compared and put out. -/
def State.emitLine (s : State) (d : Nat) (l : SeatLine) (start : Int) (dur : Nat) : State :=
  let u := U.cell d
  let crc := crc32c 10 l.words
  let shows := s.cellShows d
  let s1 := if s.rd u Cell.OUTPUT = 2 then s.count u Ctr.Cell.FALLBACK_LINES else s
  let s2 := s1.wrs u [(Cell.outAt, s.clk + 1), (Cell.outLine, l.line), (Cell.lineSource, shows.1 + 1), (Cell.lineStream, shows.2)]
  let s3 := (s2.compareLine d l.line crc (start + dur / 2)).emit (.beats d (l.beats 0))
  let s4 := (s3.holding (U.ret 0) 192 Ret.MIRROR (d : Nat)).foldl (fun (a : State) r =>
    a.offer (2496 + r) 0 { l with time := (start - s.tsOff + 64 * Config.ns).toNat }) s3
  let s5 := if 2624 ≤ d then s4.probeLine (d - 2624) l.line start l.words crc else s4
  if d < 2304 then s5.outputStage d l start dur else s5

/-- The Granary slot or Winnow scaler that Cell `d` feeds takes the line, begun at system time `start` (R258, R281). -/
def State.feedInput (s : State) (d : Nat) (l : LineOut) (y : SeatLine) : State :=
  let x := s.followShows d l.stream (decide (0 < l.len))
  let z := { y with time := s.clk - l.age }
  if 2304 ≤ d ∧ d < 2432 then s.granLine (d - 2304) l.stream (8 * x.1 + x.2) z (decide (0 < l.len))
  else if 2432 ≤ d ∧ d < 2624 then s.winnowLine (d - 2432) (8 * x.1 + x.2) z (decide (0 < l.len))
  else s

/-- A TIMED Cell emits a line at plan timing, once (R56, R73). -/
def State.timedOut (s : State) (d line : Nat) : State :=
  let p := s.cellN d Cell.PLAN
  let dur := (s.planRas p).line
  if !s.planLineEnds p line ∨ s.cellN d Cell.outAt = s.clk + 1 then s
  else
    let r := s.timedLine d line (s.clk - dur)
    r.2.emitLine d r.1 ((s.now : Int) - dur) dur
/-- A FOLLOW Cell emits a line of its source at the source's timing; a multi-stream Granary input emits each stream on its own. -/
def State.followOut (s : State) (d : Nat) (l : LineOut) : State :=
  let u := U.cell d
  if (l.stream = 0 ∧ s.rd u Cell.OUTPUT = 0) ∨ (l.stream ≠ 0 ∧ modeStreams (s.granMode (d - 2304)) ≤ l.stream) ∨ 7 < l.stream ∨ (l.stream ≠ 0 ∧ !s.cellMulti d) then s
  else
    let r := s.followLine d l
    match r.1 with
    | none => s
    | some y =>
      let s1 := r.2.wr u (Cell.outTime l.stream) (y.time + 1)
      (if l.stream = 0 then s1.emitLine d y ((s.now : Int) - l.age) (s.lineDur d y.words.length) else s1.emit (.beats d (y.beats l.stream))).feedInput d l y

/-- The last beat of a line leaves a Cell; the words are those after the selector (R188). -/
def execCellLineOut (dt seat : Nat) (l : LineOut) (s0 : State) : Res :=
  let s := s0.after dt
  .next (if 2688 ≤ seat then s
    else s.ifUp [U.cell seat] (if s.cellTimed seat then s.timedOut seat l.line else s.followOut seat l))

end Sys2Proof.Machine
end

