-- ==== Sys2Proof/Machine/Commit.lean ====
section
/-!
DEFINITION. The curfew, the tick and what a tick commits, the blocks of the mix engine, and the resumption of waiting
threads (R44, R61 to R63, R102, R109 to R112, R142, R301, R325, R409, R410, R422, R452).
-/
namespace Sys2Proof.Machine

/-! ### Commits -/

/-- An instruction's code becomes at least `c` without an outcome coming in. -/
def State.worsen (s : State) (pid c : Nat) : State :=
  { s with parts := s.parts.map fun x => if x.pid = pid then { x with code := combine x.code c } else x }

/-- What a TICKED configuration does at tick `n`: the code it returns where it cannot commit, and the state. -/
def State.commitCfg (s : State) (n : Int) (op k sub : Nat) (vs : List Int) : Option Nat × State :=
  match op with
  | 0x30 => (none, s.commitEntry k sub (vs.headD 0).toNat n)
  | 0x32 => (none, s.commitSheafclr k sub n)
  | 0x33 => (none, s.commitLoudreset k n)
  | 0x42 => (none, s.commitHeads k n vs)
  | 0x43 => s.commitGrancfg k vs
  | 0x44 => s.commitSubcfg k sub vs
  | 0x50 => (none, s.commitPlancfg k n vs)
  | 0x51 => (none, s.commitCellcfg k vs)
  | 0x52 => (none, s.commitKerbcfg k vs)
  | 0x53 => (none, s.commitBundlecfg k sub vs)
  | 0x54 => (none, s.commitSigncfg k vs)
  | 0x56 => (none, s.commitRetcfg k vs)
  | 0x60 => (none, s.commitSlotcfg k vs n)
  | 0x62 => (none, s.commitDeembcfg k vs)
  | 0x63 => (none, s.commitTonecfg k vs)
  | 0x64 => (none, s.commitAfvcfg k vs)
  | 0x65 => (none, s.commitEmbcfg k vs)
  | 0x66 => (none, s.commitLimcfg k vs n)
  | 0x67 => (none, s.commitCompcfg k vs n)
  | 0x68 => (none, s.commitDelaycfg k vs n)
  | 0x69 => (none, s.commitCscfg k vs n)
  | 0x6E => (none, s.commitStookcfg k sub vs)
  | 0x6F => (none, s.commitAsrccfg k sub vs)
  | 0x70 => (none, s.commitTapcfg k vs)
  | 0x90 => (none, s)
  | 0xA0 => (none, s.commitRxflow k vs)
  | 0xA1 => (none, s.commitTxflow k vs)
  | 0xA2 => (none, s.commitFwdcfg k vs)
  | 0xF1 => (none, s.commitTwinswitch)
  | _ => (none, s)

/-- A unit that an effect uses has stopped: its plan, a unit it names, or the unit that holds an element of it (R44). -/
def State.effectFault (s : State) (e : Staged) : Bool :=
  e.uses.any s.unitBad || (U.plan e.plan :: e.elems.map elemUnit).any fun u => s.unitState u == stFault

/-- One winning effect commits at tick `n`: a unit it uses in FAULT gives FAULT; LATE where its intended tick has passed (R44,
R101, R109). The reply's TICK is that of the last effect that did commit: a bracket or a refused commit sets none (R94). -/
def State.commitOne (s : State) (n : Int) (e : Staged) : State :=
  let s1 : State := { s with staged := s.staged.filter (·.id != e.id) }
  let late := if e.late then Code.late.num else 0
  if s.effectFault e then s1.closePart e.pid Code.fault.num
  else match e.eff with
    | .takes l =>
      let s2 := s1.commitSels n l
      (if l.isEmpty then s2 else s2.noteTick e.pid n).closePart e.pid late
    | .cfg 0x55 p _ vs => (((s1.noteTick e.pid n).worsen e.pid late).commitWatchcfg p vs e.pid e.th)
    | .cfg op k sub vs =>
      let (code, s2) := s1.commitCfg n op k sub vs
      (if code.isNone then s2.noteTick e.pid n else s2).closePart e.pid (code.getD late)

/-- Phase of a commit within a tick: Cell and bundle configurations and slot configurations go before what relies on them
(R142, R257). -/
def commitPhase (e : Staged) : Nat :=
  match e.eff with
  | .cfg 0x51 _ _ _ => 0
  | .cfg 0x53 _ _ _ => 0
  | .cfg 0x43 _ _ _ => 0
  | _ => 1
/-- Place of a Sheaf effect within its thread (R325). -/
def sheafPlace (e : Staged) : Nat :=
  match e.eff with
  | .cfg 0x30 k sub _ => 32 * k + sub
  | .cfg 0x32 k sub _ => 32 * k + sub
  | _ => 0
/-- Insertion in ascending order of `f`, after equals. -/
def insertBy (f : Staged → Nat) (e : Staged) : List Staged → List Staged
  | [] => [e]
  | x :: t => if f e < f x then e :: x :: t else x :: insertBy f e t
/-- Winners of a tick in the order they commit: by phase, then rank, then slot and index. -/
def State.commitOrder (s : State) (p : Nat) : List Staged :=
  let won := s.staged.filter fun e => e.won && e.plan == p
  let ranked := s.rankOrder.flatMap fun t => (won.filter (·.th == t)).foldl (fun a e => insertBy sheafPlace e a) []
  (ranked.filter fun e => commitPhase e == 0) ++ ranked.filter fun e => commitPhase e == 1

/-- Resolve the effects of tick `n`; a `ttset` that newly wins has its pin change scheduled (R408). -/
def State.resolveNew (s : State) (p : Nat) (n : Int) : State :=
  let old := (s.staged.filter (·.won)).map (·.id)
  let s1 := (s.resolve p n).wr (U.plan p) Plan.resolved (n + 1)
  (s1.staged.filter fun e => e.won && e.plan == p && !old.contains e.id).foldl State.scheduleTt s1

/-! ### Signpost pictures (R138, Table 4.7) -/

/-- R'G'B' of eight-bar colour bars, white to black (PRESUMED order, notes/assumptions/29.md). -/
def barRgb (i : Nat) (k : Int) : Px :=
  let on := fun (m : Nat) => if bitAt m (7 - i) then k else 0
  ⟨on 0xCC, on 0xF0, on 0xAA⟩
/-- A generator's active picture in 10-bit codes at output frame `k`.  The BLACK pattern keeps the narrow-range code 64
under RANGE_FULL = 1 too, where the spec gives no code (DESIGN CHOICE, notes/assumptions/101.md). -/
def State.signRows (s : State) (g : Nat) (k : Int) : List PicLine :=
  let u := U.sign g
  let id := s.planRaster (s.rn u Sign.PLAN)
  let w := activeWidth id
  let h := activeHeight id
  let rgb := s.rb u Sign.SAMPLING
  let full := s.rb u Sign.RANGE_FULL
  let colour := s.rn u Sign.COLOUR
  let flat := s.rn u Sign.FLAT_VALUE
  let lo : Int := if full then 4 else 64
  let hi : Int := if full then 1019 else 940
  let grey := fun (v : Int) => if rgb then (⟨v, v, v⟩ : Px) else ⟨v, 512, 512⟩
  let code := fun (v : BitVec 10) => (v.toNat : Int)
  let px := fun (x y : Nat) => match s.rn u Sign.PATTERN with
    | 0 => grey 64
    | 1 => encodeAt 10 4 rgb colour full (barRgb (8 * x / w) 4)
    | 2 => encodeAt 10 4 rgb colour full (barRgb (8 * x / w) 3)
    | 3 => let c := fun (j : Nat) => code (Config.hdrBars colour full j x y w h); ⟨c 0, c 1, c 2⟩
    | 4 => grey (whole (lo * (w - 1) + (hi - lo) * x) (w - 1))
    | 5 => if rgb then (let c := fun (j : Nat) => code (Config.checkRgb j x y); ⟨c 0, c 1, c 2⟩)
      else if 2 * y < h then ⟨0x198, 0x300, 0x300⟩ else ⟨0x110, 0x200, 0x200⟩
    | 6 => ⟨(bitsAt flat 9 0 : Nat), (bitsAt flat 19 10 : Nat), (bitsAt flat 29 20 : Nat)⟩
    | _ => grey (if Config.diagonal x (y % 32) then 64 else 0x1C0)
  let at_ := (((Config.motionStart g : Int) + k) % w).toNat
  let moved := fun (x y : Nat) =>
    if s.rb u Sign.MOTION && decide (y < 16) && decide ((x + w - at_) % w < 16) then
      (⟨code (Config.motionColour 0), code (Config.motionColour 1), code (Config.motionColour 2)⟩ : Px)
    else px x y
  let half := if rgb then 1 else 2
  (List.range h).map fun (y : Nat) =>
    let row := (List.range w).map fun (x : Nat) => (moved x y).map fun v => max 4 (min 1019 v)
    let chroma := fun (f : Px → Int) => (List.range (w / half)).map fun (i : Nat) => (f (row.getD (half * i) ⟨0, 0, 0⟩)).toNat
    ⟨row.map fun q => q.a.toNat, chroma (·.b), chroma (·.c)⟩
/-- Every RUNNING generator on the plan sends the picture of the frame or field that tick `n` stands in. -/
def State.sendSigns (s : State) (p : Nat) (n : Int) : State :=
  let part : Nat := if s.planField p then (if n % 2 = 0 then 1 else 2) else 0
  (List.range 48).foldl (fun (a : State) g =>
    let u := U.sign g
    if !a.rb u Sign.ENABLE ∨ a.rn u Sign.PLAN ≠ p ∨ a.unitBad u then a
    else a.sendAir u part ⟨if a.rb u Sign.SAMPLING then 2 else 0, false, a.rn u Sign.COLOUR, a.rb u Sign.RANGE_FULL⟩
      (partRows part (a.signRows g (if a.planField p then n / 2 else n))) [] []) s

/-- Tick `n` of plan `p` occurs: what has won commits (R63). -/
def State.tickNow (s : State) (p : Nat) (n : Int) : State :=
  let s2 := (s.resolveNew p n).enterTick p n
  ((((s2.commitOrder p).foldl (fun a e => a.commitOne n e) s2).noteCount U.mix Ctr.Mix.MIX_CUTS).sendPicts p n).sendSigns p n

/-- A tick of a plan in FAULT: nothing commits, and what was due returns FAULT (R44, R47). -/
def State.tickFault (s : State) (p : Nat) (n : Int) : State :=
  (s.staged.filter fun e => !e.armed && e.plan == p && decide ((e.tick : Int) ≤ n)).foldl
    (fun (a : State) e => { a with staged := a.staged.filter (·.id != e.id) }.closePart e.pid Code.fault.num) s

def execTick (dt p : Nat) (s0 : State) : Res :=
  let s := s0.after dt
  let n := s.tickAt p s.now
  .next (if 16 ≤ p ∨ !s.planOn p ∨ n ≤ s.rd (U.plan p) Plan.TICK ∨ n < s.issuable p n then s
    else if s.unitState (U.plan p) = stFault then s.tickFault p n else s.tickNow p n)

/-! ### The curfew (R62, R110, R422) -/

def execCurfewResolution (dt p : Nat) (s0 : State) : Res :=
  let s := s0.after dt
  let n := s.tickAt p ((s.now : Int) + curfewLead)
  .next (if 16 ≤ p ∨ !s.planOn p ∨ s.unitState (U.plan p) = stFault ∨ n < s.rd (U.plan p) Plan.resolved ∨ n ≤ s.rd (U.plan p) Plan.TICK ∨ s.followsDecisions then s
    else
      let s1 := s.resolveNew p n
      let s2 := if s.sendsDecisions then s1.sendManifest s p n
        else s1.setBuf (U.plan p) 60 (logInts ((s1.planLog p).filter fun x => s1.staged.any fun e => e.id == x.id && !e.won))
      if s.twN Twin.repl = 1 ∧ s.sendsDecisions ∧ p = s.twN Twin.TWIN_PLAN then s2.sendCopy else s2)

/-! ### Waiting threads (R409, R410, R452) -/

/-- A thread in a wait of one of `kinds` goes on where `f` holds. -/
def State.resumeWait (s : State) (t : Nat) (kinds : List Nat) (f : State → Bool) (g : State → State) : State :=
  s.onThreads false fun s =>
    let st := s.th t Lamp.STATE
    if decide (t < 64) && (st == thTickWait || st == thEventWait) && kinds.contains (s.thn t Lamp.waitKind) && f s then
      ((g s).wrs (U.thread t) [(Lamp.STATE, thRunning), (Lamp.waitKind, 0)]).settle t
    else s

def execTickWaitResume (dt th : Nat) (s0 : State) : Res :=
  .next ((s0.after dt).resumeWait th [1, 5] (fun s =>
    let p := s.thn th Lamp.PLAN
    if s.thn th Lamp.waitKind = 1 then s.th th Lamp.waitVal == 0 else s.planOn p && decide (s.th th Lamp.waitVal ≤ s.rd (U.plan p) Plan.TICK)) id)

def execTimeWaitResume (dt th : Nat) (s0 : State) : Res :=
  .next ((s0.after dt).resumeWait th [3] (fun s => decide (s.th th Lamp.waitVal ≤ (s.now : Int))) id)

/-- The capture that follows the start of the wait goes to gD. -/
def execCaptWaitResume (dt th : Nat) (s0 : State) : Res :=
  .next ((s0.after dt).resumeWait th [4] (fun s => s.rn (U.capt (s.thn th Lamp.waitVal)) Capt.WRITE_SEQ != s.thn th Lamp.waitSeq)
    fun s => s.gset th (s.thn th Lamp.waitReg) (Tbl.get ⟨s.thn th Lamp.waitVal, s.thn th Lamp.waitSeq % 64⟩ 0 s.captRing))

/-- A held TICKED instruction is issued again once tick gA - 1 of the bound plan has occurred (R452). -/
def execTargetHoldRelease (dt th : Nat) (s0 : State) : Res :=
  .next ((s0.after dt).resumeWait th [2] (fun s => decide (s.th th Lamp.waitVal ≤ s.rd (U.plan (s.thn th Lamp.PLAN)) Plan.TICK)) id)

/-- Every BACKGROUND operation of the thread has its final code: its `sync` is DONE. -/
def execSyncResume (dt th : Nat) (s0 : State) : Res :=
  let s := s0.after dt
  .next (s.resumeWait th [6] (fun s => (s.bgOf th).isEmpty) fun s =>
    match s.bgFirst 0x0C th with
    | some b => s.finishBg b 0
    | none => s)

/-! ### The mix engine (R301, R314, R425) -/

/-- Millisecond of system time (plus one) whose end the mix engine has processed last. -/
def Mix.lastMs : Field := ⟨301, 0, false, 0⟩

/-- Compare records of the block just computed, for every output slot. -/
def State.compareBlocks (s : State) : State :=
  if s.tw Twin.PAIR ≠ prInStep || !bitAt (s.twN Twin.COMPARE) 1 then s
  else
    let ms := s.now / Config.ms + 1
    let at_ := s.clk + (ms * Config.ms - s.now)
    (List.range 65536).foldl (fun (a : State) sl =>
      if a.slotOdd sl then a
      else
        let n := if a.slotRate sl = 0 then 48 else 96
        let xs := (List.range n).map fun (i : Nat) => ((a.slotOut sl (((ms * n : Nat) : Int) + (i : Int))) % 2 ^ 32).toNat
        (a.armSlot sl at_).compareOwn 1 sl ms 0 (crc32c 32 xs)) s

/-- At a whole millisecond: gaps of the block that ends are counted and its meters taken in, and the next block is computed. -/
def execMixBlock (dt : Nat) (ue : List (Nat × Nat)) (s0 : State) : Res :=
  let s := s0.after dt
  let ms := s.now / Config.ms + 1
  .next (s.ifUp [U.mix] (if s.rn U.mix Mix.lastMs = ms then s
    else (((((if s.detectorWork then s.wr U.detector unitWorkF s.clk else s).wr U.mix Mix.lastMs ms).countGaps.meterBlock).mixBlock ue).sendSlips).compareBlocks))

/-! ### Words of no instruction (R444, R448) -/

/-- An instruction word whose OPCODE is not in Table 16.5 returns FORMAT. -/
def judgeUnlistedOpcode (s : State) : Judged :=
  { checks := [(.format, true)], verdict := .act s, permit := 2, recovery := true }
def execUnlistedOpcode (i : Issue) (s : State) : Res := .next (s.issue i .other judgeUnlistedOpcode)

end Sys2Proof.Machine
end

