-- ==== Sys2Proof/Machine/HostPort.lean ====
section
/-!
DEFINITION. The host port: transfers, common command codes, in-band interrupts, the writable registers and the target
reset (R483 to R501, R506, R571).
-/
namespace Sys2Proof.Machine

/-! Host port state that Table 18.6 does not show: the set address and when it was set, a protocol error since the last
GETSTATUS, the reset action selected, bus ignored until the HDR exit pattern, and when the last interrupt was NACKed. -/
def Hostp.addr : Field := ⟨300, 40, false, 0⟩
def Hostp.addrAt : Field := ⟨301, 0, false, 0⟩
def Hostp.protoErr : Field := ⟨302, 1, false, 0⟩
def Hostp.action : Field := ⟨303, 8, false, 1⟩
def Hostp.ignoring : Field := ⟨304, 1, false, 0⟩
def Hostp.nackAt : Field := ⟨305, 0, false, 0⟩

def evHostParity : Nat := 0x0A00
def evHostBadCmd : Nat := 0x0A01
def evHostQueueFull : Nat := 0x0A02
def evHostReplyFull : Nat := 0x0A03
def evHostBadAddr : Nat := 0x0A04
def evHostRoWrite : Nat := 0x0A05
def evHostCcc : Nat := 0x0A06
def evHostIbiNack : Nat := 0x0A07
def evHostTargetReset : Nat := 0x0A08
def evHostPtr : Nat := 0x0A09
def evArcadeDrain : Nat := 0x0A13

/-- A violation of Table 18.5: counted, and its event rate-limited. -/
def State.hostBad (s : State) (ctr code : Nat) : State := s.countLimited U.host ctr code 0

/-- Words of a byte sequence, least significant byte first; a last part word is filled with zeros (R10). -/
def wordsOf : Nat → List Byte → List Word
  | 0, _ => []
  | _, [] => []
  | n + 1, l => BitVec.ofNat 64 (((l.take 8).zip (List.range 8)).foldl (fun a e => a + e.1.toNat * 2 ^ (8 * e.2)) 0) :: wordsOf n (l.drop 8)
def bytesToWords (l : List Byte) : List Word := wordsOf l.length l
/-- Bytes of words, least significant first. -/
def wordsToBytes (l : List Word) : List Byte :=
  l.flatMap fun w => (List.range 8).map fun (i : Nat) => BitVec.ofNat 8 (w.toNat / 2 ^ (8 * i))

/-- The port takes part in a transfer: it does not ignore the bus (R484). -/
def State.portHears (s : State) : Bool := !s.rb U.host Hostp.ignoring
/-- A parity or CRC error discards the transfer (Table 18.5). -/
def State.parityError (s : State) : State :=
  (s.wr U.host Hostp.protoErr 1).hostBad Ctr.HostP.PARITY_ERRORS evHostParity

/-! ### Errands (R493, R495) -/

/-- Errands of the queue are taken: the device is RUNNING (or its Steward is halted), or in recovery mode the queue is
queue 0 (R513, R517, R527). -/
def State.serves (s : State) (q : Nat) : Bool :=
  let st := s.rn U.boot Boot.STAGE
  st == 3 || st == 6 || (st == 4 && q == 0)

/-- A write transfer with one errand for queue `q`; `bad` is the first byte with a parity error, if any. -/
def State.errandTransfer (s0 : State) (q : Nat) (bytes : List Byte) (bad : Option Nat) : State :=
  let ws := bytesToWords bytes
  let s := match bad with
    | some _ => s0.parityError
    | none => s0
  let lost := match bad with
    | some k => decide (k < 8)
    | none => false
  if lost || decide (bytes.length < 2) then s
  else if !s.serves q || decide (ringWords < s.wordsQueued q + hLength (ws.headD 0)) then s.hostBad Ctr.HostP.QUEUE_FULL evHostQueueFull
  else if s.replyRoom q < 3 then s.hostBad Ctr.HostP.REPLY_FULL evHostReplyFull
  else if bad.isSome then (s.count (U.queue q) Ctr.Queue.ERRANDS).refuseErrand q 0 ws .integrity
  else s.receiveErrand q 0 ws (bytes.length % 8 == 0)

def execErrand (dt queue : Nat) (bytes : List Byte) (bad : Option Nat) (s0 : State) : Res :=
  let s := s0.after dt
  .next (if !s.portHears || decide (7 < queue) then s else (s.count U.host Ctr.HostP.WRITES).errandTransfer queue bytes bad)

/-- An errand for queue 8 of the partner: checked, and sent over the Alley (R495). -/
def execErrandPartner (dt : Nat) (bytes : List Byte) (bad : Option Nat) (s0 : State) : Res :=
  let s1 := s0.after dt
  let s := s1.count U.host Ctr.HostP.WRITES
  let ws := bytesToWords bytes
  let code : Option Code := if bad.isSome || integrityBad ws (bytes.length % 8 == 0) then some .integrity
    else if hQueue (ws.headD 0) != 8 then some .format else none
  let s2 := if bad.isSome then s.parityError else s
  let lost := match bad with
    | some k => decide (k < 8)
    | none => false
  .next (if !s1.portHears then s1
    else if lost then s2
    else match code with
    | some c =>
      if s2.replyRoom 8 < 3 then s2.hostBad Ctr.HostP.REPLY_FULL evHostReplyFull
      else s2.ringReply 8 (replyHead (hSeq (ws.headD 0)) 8 1 c.num (countOf ws) 0 noTick)
    | none =>
      if !s2.alleyUp || s2.rn U.twin Twin.ROLE == 0 || !s2.serves 8 then s2.hostBad Ctr.HostP.QUEUE_FULL evHostQueueFull
      else s2.alleySend 4 (BitVec.ofNat 64 8 :: BitVec.ofNat 64 s2.nowS :: BitVec.ofNat 64 s2.nowNs :: ws))

/-! ### Reading (R489, R490) -/

/-- SETADDR and the address of a REGWR: 40 bits, then three bytes of 0 (Table 18.3). -/
def hostAddr (bytes : List Byte) : Option Nat :=
  let w := ((bytesToWords (bytes.take 8)).headD 0).toNat
  if bytes.length < 8 ∨ w / 2 ^ 40 ≠ 0 then none else some w
/-- A malformed command is ignored as an unknown one is (Table 18.5; notes/assumptions/24.md). -/
def State.badCommand (s : State) : State := (s.wr U.host Hostp.protoErr 1).hostBad Ctr.HostP.BAD_CMD evHostBadCmd

def execSetaddr (dt : Nat) (bytes : List Byte) (bad : Option Nat) (s0 : State) : Res :=
  let s1 := s0.after dt
  let s := s1.count U.host Ctr.HostP.WRITES
  .next (if !s1.portHears then s1
    else if bad.isSome then s.parityError
    else match hostAddr bytes with
      | some a => if bytes.length = 8 then s.wrs U.host [(Hostp.addr, a), (Hostp.addrAt, s.clk)] else s.badCommand
      | none => s.badCommand)

/-- The word a host read finds at an address: zeros outside the windows, or beyond the window it starts in. -/
def State.hostWord (s : State) (start a : Nat) : Word × State × Bool :=
  if a % 8 = 0 ∧ (windowOf a).isSome ∧ windowOf a = windowOf start then
    let (w, s1) := s.arcadeRead (U.master 2) a
    (w, s1, false)
  else (0, s, true)
def State.hostWords (s : State) (start a : Nat) : Nat → List Word × State × Bool
  | 0 => ([], s, false)
  | n + 1 =>
    let (w, s1, b) := s.hostWord start a
    let (ws, s2, b2) := s1.hostWords start (a + 8) n
    (w :: ws, s2, b || b2)

/-- A read of `n` bytes, at most MRL. In SDR and I²C a read of the Ledger or the Barn within 2 µs of its SETADDR begins
with 0xFF bytes, how many being left open (R490). -/
def execRead (dt n : Nat) (hdr : Bool) (s0 : State) : Res :=
  let s1 := s0.after dt
  let s := s1.count U.host Ctr.HostP.READS
  let a := s.rn U.host Hostp.addr
  let len := min n (s.rn U.host Hostp.MRL)
  let (ws, s2, bad) := (s.arcadeUse (U.master 2) a ((len + 7) / 8)).hostWords a a ((len + 7) / 8)
  let s3 := if bad then s2.hostBad Ctr.HostP.BAD_ADDR evHostBadAddr else s2
  let early := !hdr && (windowOf a == some 0 || windowOf a == some 3) && decide (s.clk < s.rn U.host Hostp.addrAt + 2 * Config.us)
  let (k, s4) := if early then (s3.hostBad Ctr.HostP.EARLY_READS 0).free (len + 1) else (0, s3)
  .next (if !s1.portHears then s1
    else s4.emit (.host ((List.replicate k (0xFF : Byte) ++ wordsToBytes ws).take len)))

/-! ### Writable registers (R479, R491, R497, R498, R560, R571) -/

/-- A write of READ_PTR frees Crier records and may resume the Crier (R479). -/
def State.writeReadPtr (s : State) (v : Nat) : State :=
  let rp := s.rn U.crier Crier.READ_PTR
  let unread := s.rn U.crier Crier.UNREAD
  let dist := (v + 4096 - rp) % 4096
  let freed := if unread = 4096 ∧ dist = 0 then 4096 else dist
  if unread < dist then s.count U.crier Ctr.Crier.CRIER_PTR_ERRORS
  else
    let s1 := s.wrs U.crier [(Crier.READ_PTR, v), (Crier.UNREAD, unread - freed)]
    let s2 := if unread ≠ 0 ∧ unread = freed then s1.emit (.pin pinAttn 1) else s1
    if s2.rb U.crier Crier.OVERFLOW ∧ unread - freed ≤ 4094 then
      (s2.wr U.crier Crier.OVERFLOW 0).crierWrite U.crier evCrierResumed (min (2 ^ 32 - 1) (s2.rn U.crier Crier.discarded))
    else s2

/-- A write of REPLY_RD_PTR frees ring words (R497). -/
def State.writeReplyPtr (s : State) (q v : Nat) : State :=
  let u := U.queue q
  let held := s.rn u Queue.REPLY_WORDS
  let dist := (v + ringWords - s.rn u Queue.REPLY_RD_PTR) % ringWords
  let freed := if held = ringWords ∧ dist = 0 then ringWords else dist
  if held < dist then s.hostBad Ctr.HostP.PTR_ERRORS evHostPtr
  else s.wrs u [(Queue.REPLY_RD_PTR, v), (Queue.REPLY_WORDS, held - freed)]

/-- The writable fields of a unit (Table 21.5). -/
def writable (u : Nat) : List Field :=
  if u = U.crier then [Crier.READ_PTR]
  else if U.queue 0 ≤ u ∧ u ≤ U.queue 8 then [Queue.REPLY_RD_PTR]
  else if u = U.host then [Hostp.IBI_MASK]
  else if u = U.io then [Slew.TT, Slew.CLKOUT, Slew.STATUS, Slew.STOOK, Slew.QSPI]
  else []
/-- Word and bit of a status field within its unit block. -/
def placeOf (u : Nat) (f : Field) : Nat × Nat :=
  let fs := statusOf (U.classOf u)
  match (fs.zip (places fs 0 0)).find? fun e => e.1 == f with
  | some e => (e.2.1 + 4, e.2.2)
  | none => (0, 0)

/-- One writable field takes the value written; the reserved code of a slew field leaves it unchanged. -/
def State.writeField (s : State) (u : Nat) (f : Field) (v : Nat) : State :=
  if u = U.crier then s.writeReadPtr v
  else if u = U.host then s.wr u f v
  else if u = U.io then (if v = 3 then s else s.wr u f v)
  else s.writeReplyPtr (u - 0x8440) v

/-- One word of a REGWR at word k of the block of unit u (R491). -/
def State.writeBlock (s : State) (u k : Nat) (w : Word) : State :=
  match (writable u).filter fun f => (placeOf u f).1 == k with
  | [] => s.hostBad Ctr.HostP.RO_WRITES evHostRoWrite
  | fs => fs.foldl (fun a f => a.writeField u f (bitsAt w.toNat ((placeOf u f).2 + f.width - 1) (placeOf u f).2)) s
/-- One word of a REGWR at an address of the unit register space. -/
def State.writeWord (s : State) (a : Nat) (w : Word) : State :=
  let o := a - 0x40000000
  if o < 0x4000000 then s.writeBlock (o / 0x400) (o % 0x400 / 8) w else s.hostBad Ctr.HostP.RO_WRITES evHostRoWrite
def State.writeWords (s : State) (a : Nat) : List Word → State
  | [] => s
  | w :: t => (if windowOf a = some 1 then s.writeWord a w else s.hostBad Ctr.HostP.BAD_ADDR evHostBadAddr).writeWords (a + 8) t

/-- REGWR: an address, then 1 to 512 words. -/
def execRegwr (dt : Nat) (bytes : List Byte) (bad : Option Nat) (s0 : State) : Res :=
  let s1 := s0.after dt
  let s := s1.count U.host Ctr.HostP.WRITES
  let dat := bytes.drop 8
  .next (if !s1.portHears then s1
    else if bad.isSome then s.parityError
    else match hostAddr bytes with
      | none => s.badCommand
      | some a =>
        if dat.length % 8 ≠ 0 ∨ dat = [] ∨ 4096 < dat.length then s.badCommand
        else if a % 8 ≠ 0 ∨ windowOf a ≠ some 1 then s.hostBad Ctr.HostP.BAD_ADDR evHostBadAddr
        else (s.arcadeUse (U.master 2) a (dat.length / 8)).writeWords a (bytesToWords dat))

/-- A REGWR of one word at the place of a writable field. -/
def State.writeAt (s0 : State) (u : Nat) (f : Field) (w : Word) : State :=
  if !s0.portHears then s0
  else ((s0.count U.host Ctr.HostP.WRITES).arcadeUse (U.master 2) 0x40000000 1).writeBlock u (placeOf u f).1 w
def execReadPtr (dt : Nat) (w : Word) (s0 : State) : Res := .next ((s0.after dt).writeAt U.crier Crier.READ_PTR w)
def execReplyRdPtr (dt queue : Nat) (w : Word) (s0 : State) : Res :=
  .next (if 8 < queue then s0.after dt else (s0.after dt).writeAt (U.queue queue) Queue.REPLY_RD_PTR w)
def execIbiMask (dt : Nat) (w : Word) (s0 : State) : Res := .next ((s0.after dt).writeAt U.host Hostp.IBI_MASK w)
def execIoSlew (dt : Nat) (w : Word) (s0 : State) : Res := .next ((s0.after dt).writeAt U.io Slew.TT w)

/-! ### Common command codes (R484, Table 18.2) -/

/-- A command code reaches the device unless it ignores the bus. -/
def State.ccc (s0 : State) (dt : Nat) (f : State → State) : Res :=
  let s := s0.after dt
  .next (if s.portHears then f s else s)
/-- Answer of a directed GET, most significant byte first as I3C sends it. -/
def State.answer (s : State) (n v : Nat) : State :=
  s.emit (.host ((List.range n).map fun (i : Nat) => BitVec.ofNat 8 (v / 2 ^ (8 * (n - 1 - i)))))

def execEnec (dt : Nat) (events : Byte) (s : State) : Res :=
  s.ccc dt fun s => if bitAt events.toNat 0 then s.wr U.host Hostp.ENINT 1 else s
def execDisec (dt : Nat) (events : Byte) (s : State) : Res :=
  s.ccc dt fun s => if bitAt events.toNat 0 then s.wr U.host Hostp.ENINT 0 else s
def execRstdaa (dt : Nat) (s : State) : Res := s.ccc dt fun s => s.wrs U.host [(Hostp.DYN_ADDR, 0), (Hostp.MODE, 0)]
/-- ENTDAA with the address the device has won; only a device without one takes part. -/
def execEntdaa (dt addr : Nat) (s : State) : Res :=
  s.ccc dt fun s => if s.rb U.host Hostp.DYN_ADDR then s else s.wrs U.host [(Hostp.DYN_ADDR, addr), (Hostp.MODE, if addr % 128 = 0 then 0 else 1)]
def execSetmwl (dt v : Nat) (s : State) : Res := s.ccc dt fun s => s.wr U.host Hostp.MWL v
def execSetmrl (dt v : Nat) (s : State) : Res :=
  s.ccc dt fun s => if v < 8 then s.emit .nack else s.wr U.host Hostp.MRL (v % 65536 / 8 * 8 : Nat)
def execEnthdr0 (dt : Nat) (s : State) : Res := s.ccc dt fun s => s.wr U.host Hostp.MODE 2
/-- RSTACT: `get` is the direct GET form; 0x02 acts as 0x01 (R486). -/
def execRstact (dt action : Nat) (get : Bool) (s : State) : Res :=
  s.ccc dt fun s =>
    if get then s.answer 1 (s.rn U.host Hostp.action)
    else if action = 0 then s.wr U.host Hostp.action 0 else if action ≤ 2 then s.wr U.host Hostp.action 1 else s
def execSetdasa (dt addr : Nat) (s : State) : Res :=
  s.ccc dt fun s => if s.rb U.host Hostp.DYN_ADDR then s else s.wrs U.host [(Hostp.DYN_ADDR, addr), (Hostp.MODE, if addr % 128 = 0 then 0 else 1)]
def execSetnewda (dt addr : Nat) (s : State) : Res :=
  s.ccc dt fun s => if s.rb U.host Hostp.DYN_ADDR then s.wr U.host Hostp.DYN_ADDR addr else s
def execGetmwl (dt : Nat) (s : State) : Res := s.ccc dt fun s => s.answer 2 (s.rn U.host Hostp.MWL)
def execGetmrl (dt : Nat) (s : State) : Res := s.ccc dt fun s => s.answer 3 (s.rn U.host Hostp.MRL * 256 + 4)
/-- The provisioned ID (Table 18.1). -/
def State.provisionedId (s : State) : Nat :=
  0x2F1 * 2 ^ 33 + 0x1152 * 2 ^ 16 + s.rn U.twin Twin.SIDE % 2 * 2 ^ 15 + s.rn U.host Hostp.STATIC_ADDR % 8 * 2 ^ 12 + Config.siliconRev.toNat
def execGetpid (dt : Nat) (s : State) : Res := s.ccc dt fun s => s.answer 6 s.provisionedId
def execGetbcr (dt : Nat) (s : State) : Res := s.ccc dt fun s => s.answer 1 0x26
def execGetdcr (dt : Nat) (s : State) : Res := s.ccc dt fun s => s.answer 1 0x00
/-- GETSTATUS: pending interrupts and the protocol error flag, which it clears. -/
def execGetstatus (dt : Nat) (s : State) : Res :=
  s.ccc dt fun s =>
    let n := ((List.range 10).filter fun k => bitAt (s.rn U.host Hostp.IBI_PENDING) k).length
    (s.wr U.host Hostp.protoErr 0).answer 2 (min n 15 + (if s.rb U.host Hostp.protoErr then 32 else 0))
def execGetmxds (dt : Nat) (s : State) : Res := s.ccc dt fun s => s.answer 2 0
def execGetcaps (dt : Nat) (s : State) : Res := s.ccc dt fun s => s.answer 4 0x01010000

/-- Any other code: NACKed if directed, ignored if broadcast; another ENTHDR makes the device ignore the bus. -/
def execCccUnsupported (dt code : Nat) (directed : Bool) (s : State) : Res :=
  s.ccc dt fun s =>
    let s1 := s.hostBad Ctr.HostP.CCC_UNSUPPORTED evHostCcc
    if directed then s1.emit .nack else if 0x21 ≤ code ∧ code ≤ 0x27 then s1.wr U.host Hostp.ignoring 1 else s1

def execHdrExitPattern (dt : Nat) (s0 : State) : Res :=
  let s := s0.after dt
  .next (s.wrs U.host [(Hostp.ignoring, 0), (Hostp.MODE, if s.rb U.host Hostp.DYN_ADDR then 1 else 0)])

/-- A command byte or code that Table 18.3 does not list (R500). -/
def execUnknownCommand (dt : Nat) (s0 : State) : Res :=
  let s := s0.after dt
  .next (if s.portHears then s.badCommand else s)

/-- A master is reset with beats of a burst still to go: the fabric drains them (R506). -/
def State.drain (s : State) (master beats : Nat) : State :=
  if beats = 0 then s else (s.countBy master Ctr.Master.DRAINED_BEATS beats).post master evArcadeDrain 0

/-- The target reset pattern with action 0x01 resets the port and the I3C bridge; `beats` of a burst were left (R486). -/
def execTargetResetPattern (dt beats : Nat) (s0 : State) : Res :=
  let s := s0.after dt
  .next (if s.rn U.host Hostp.action ≠ 1 then s
    else
      let s1 := s.wrs U.host [(Hostp.DYN_ADDR, 0), (Hostp.ENINT, 0), (Hostp.MRL, 4096), (Hostp.addr, 0), (Hostp.addrAt, 0), (Hostp.MODE, 0), (Hostp.ignoring, 0)]
      (s1.drain (U.master 2) beats).hostBad Ctr.HostP.PORT_RESETS evHostTargetReset)

/-! ### In-band interrupts (R480, R498, R499) -/

/-- Payload of a pending source (Table 18.4). -/
def State.ibiPayload (s : State) (src : Nat) : List Byte :=
  let tail := fun (v : Nat) => [BitVec.ofNat 8 v, BitVec.ofNat 8 (v / 256)]
  if src = 0 then 0xA1 :: 0x00 :: tail (s.rn U.crier Crier.UNREAD)
  else 0xA2 :: BitVec.ofNat 8 (src - 1) :: tail (s.rn (U.queue (src - 1)) Queue.replySeq)

/-- The bus allows a request: the first pending source is raised, and the controller takes it or NACKs it. -/
def execIbiRequest (dt : Nat) (ack : Bool) (s0 : State) : Res :=
  let s := s0.after dt
  let pend := s.rn U.host Hostp.IBI_PENDING
  let wait := s.rb U.host Hostp.nackAt && decide (s.clk + 1 < s.rn U.host Hostp.nackAt + 100 * Config.us)
  .next (match (List.range 10).find? (bitAt pend) with
    | none => s
    | some src =>
      if !s.rb U.host Hostp.ENINT || !s.rb U.host Hostp.DYN_ADDR || wait then s
      else if ack then
        ((s.wrs U.host [(Hostp.IBI_PENDING, clearBit pend src), (Hostp.nackAt, 0)]).count U.host Ctr.HostP.IBI_SENT).emit (.ibi src (s.ibiPayload src))
      else (s.wr U.host Hostp.nackAt (s.clk + 1)).hostBad Ctr.HostP.IBI_NACKED evHostIbiNack)

/-- The Crier interrupts again 10 ms later while nothing has been read (R480). -/
def execCrierRepeatInterrupt (dt : Nat) (s0 : State) : Res :=
  let s := s0.after dt
  .next (if s.rb U.crier Crier.UNREAD ∧ s.rd U.crier Crier.READ_PTR = s.rd U.crier Crier.ptrAtIbi ∧ s.rn U.crier Crier.lastIbi + 10 * Config.ms ≤ s.clk then
      (s.wr U.crier Crier.lastIbi s.clk).raiseIbi 0
    else s)

end Sys2Proof.Machine
end

