-- ==== Sys2Proof/Machine/Twin.lean ====
section
/-!
DEFINITION. Twin operation: configuration, heartbeats, manifests, compare, suspects, takeover, pairing, replication and the
messages of the Alley (R412 to R443).
-/
namespace Sys2Proof.Machine

/-- Slot last counted as missing, plus one. -/
def Twin.missSlot : Field := ⟨336, 0, false, 0⟩

/-! ### Configuration and marking (R435, R442) -/

def judgeTwincfg (i : Issue) (s : State) : Judged :=
  let ps := Twin.twincfgParams
  let pr := getParams ps false i
  let vs := pr.getD []
  let mode := pv ps vs Twin.MODE
  let s1 := s.wrParams U.twin ps vs
  let s2 := if mode = s.tw Twin.MODE then s1
    else if mode = 0 then (s1.setRole roleSolo).setPair prNone
    else ((s1.setRole roleSolo).setPair prSeeking).wrs U.twin [(Twin.seekAt, s.clk), (Twin.hbSlot, 0), (Twin.hbAny, 0), (Twin.missRun, 0), (Twin.highRun, 0),
      (Twin.dualAt, 0), (Twin.refused, 0)]
  { checks := [(.format, i.badFlags true false true false || i.group || pr.isNone), (.range, i.index != 0 || !paramsOk ps vs)]
    verdict := .act s2.showOk, permit := 1 }
def execTwincfg (i : Issue) (s : State) : Res := .next (s.issue i .other (judgeTwincfg i))

/-- The STANDBY device of the pair is marked suspect. -/
def State.standbySuspect (s : State) : Bool := s.rb U.twin (if s.isStandby then Twin.SUSPECT_SELF else Twin.SUSPECT_PARTNER)

def judgeTwinswitch (i : Issue) (s : State) : Judged :=
  let force := i.force && s.thn i.th Lamp.PRIORITY == 7
  { checks := [(.format, i.badFlags true false true false || i.group || i.sub != 0 || i.npw != 0 || !i.params.isEmpty), (.range, i.index != 0),
      (.locked, !force && (s.tw Twin.PAIR != prInStep || s.standbySuspect))]
    verdict := .stage [⟨s.twN Twin.TWIN_PLAN, 0, [⟨U.twin, 0⟩], [], .cfg 0xF1 0 0 []⟩] }
def execTwinswitch (i : Issue) (s : State) : Res := .next (s.issue i (.ticked 0xF1) (judgeTwinswitch i))

/-- `twinmark`: SUB [0] self or partner, [1] SET, [2] clear UNREPLICATED. -/
def judgeTwinmark (i : Issue) (s : State) : Judged :=
  let s1 := (s.twSet Twin.DECIDE 0).markSuspect (bitAt i.sub 0) (bitAt i.sub 1)
  { checks := [(.format, i.badFlags true false true false || i.group || decide (8 ≤ i.sub) || i.npw != 0 || !i.params.isEmpty), (.range, i.index != 0)]
    verdict := .act (if bitAt i.sub 2 then s1.twSet Twin.UNREPLICATED 0 else s1), permit := 1 }

def execTwinmark (i : Issue) (s : State) : Res := .next (s.issue i .other (judgeTwinmark i))
def execClearUnreplicated (i : Issue) (s : State) : Res := .next (s.issue i .other (judgeTwinmark i))

/-! ### Acknowledged messages (R416, R441) -/

/-- MSG_SEQ of the messages received last, which a repeated message does not act on again. -/
def State.seenMsg (s : State) (q : Nat) : Bool := (s.buf U.twin 53).contains (q : Int)
/-- An acknowledged message arrives: with a bad CRC it is asked for again; otherwise it is acknowledged and acts once. -/
def State.alleyTake (s : State) (m : LinkMsg) (f : State → State) : State :=
  if s.unitBad U.twin then s
  else if !goodCrc m then (s.countLimited U.twin Ctr.Twin.ALLEY_RETRANSMITS 0 0).alleySend 0x7F [BitVec.ofNat 64 m.seq]
  else
    let s1 := s.alleySend 0x7E [BitVec.ofNat 64 m.seq]
    if s.seenMsg m.seq then s1 else f (s1.setBuf U.twin 53 ((s1.buf U.twin 53).drop ((s1.buf U.twin 53).length - 255) ++ [(m.seq : Int)]))

/-- A kept message of a link is released. -/
def State.release (s : State) (link q : Nat) : State :=
  let l := Tbl.get ⟨link, 0⟩ [] s.links
  if l.any (·.seq == q) then
    State.setNv (State.setNv { s with links := Tbl.set ⟨link, 0⟩ [] (l.filter (·.seq != q)) s.links } (nvSentAt link) q 0 0) (nvAttempts link) q 0 0
  else s
/-- A kept message of a link is sent once more. -/
def State.resend (s : State) (link : Nat) (m : LinkMsg) : State :=
  let n := s.cellNv (nvAttempts link) m.seq 0
  ((s.emit (if link = 0 then .alley m else .foot (link == 1) m)).setNv (nvAttempts link) m.seq 0 (n + 1)).setNv (nvSentAt link) m.seq 0 (s.clk + 1)
def State.keptMsg (s : State) (link q : Nat) : Option LinkMsg := (Tbl.get ⟨link, 0⟩ [] s.links).find? (·.seq == q)
/-- MSG_SEQ that an ACK or NAK names. -/
def ackSeq (m : LinkMsg) : Nat := bitsAt (m.body.headD 0).toNat 31 0

def execAlleyAck (dt : Nat) (m : LinkMsg) (s0 : State) : Res :=
  let s := s0.after dt
  .next (s.ifUp [U.twin] (if goodCrc m && m.typ == 0x7E then s.release 0 (ackSeq m) else s))
def execAlleyNak (dt : Nat) (m : LinkMsg) (s0 : State) : Res :=
  let s := s0.after dt
  .next (s.ifUp [U.twin] (match s.keptMsg 0 (ackSeq m) with
    | some x => if goodCrc m && m.typ == 0x7F && s.alleyUp then (s.resend 0 x).count U.twin Ctr.Twin.ALLEY_RETRANSMITS else s
    | none => s))

/-- The kept message of a link that was sent longest ago. -/
def State.oldestKept (s : State) (link : Nat) : Option LinkMsg :=
  (Tbl.get ⟨link, 0⟩ [] s.links).foldl (fun (a : Option LinkMsg) m => match a with
    | none => some m
    | some x => if s.cellNv (nvSentAt link) m.seq 0 < s.cellNv (nvSentAt link) x.seq 0 then some m else some x) none

/-- No ACK has answered a kept message: it is sent again. A REPLICA that fails 8 retransmissions fails the replication (R437); a
Footpath message that 8 sends have not delivered is discarded (R537). -/
def execRetransmitTimeout (dt link : Nat) (s0 : State) : Res :=
  let s := s0.after dt
  .next (match s.oldestKept link with
    | none => s
    | some m =>
      let n := s.cellNv (nvAttempts link) m.seq 0
      if link = 0 then
        if s.unitBad U.twin || !s.alleyUp then s
        else if m.typ = 0x30 ∧ 8 ≤ n then
          let drop : State := { s with links := Tbl.set ⟨0, 0⟩ [] ((Tbl.get ⟨0, 0⟩ [] s.links).filter (·.typ != 0x30)) s.links }
          (drop.count U.twin Ctr.Twin.REPLICATION_FAILS).replicate
        else (s.resend 0 m).count U.twin Ctr.Twin.ALLEY_RETRANSMITS
      else if 2 < link ∨ !s.rb U.boot (Fp.up link) then s
      else if 7 ≤ n then ((s.release link m.seq).wr U.boot (Fp.up link) 0).countLimited U.boot (Fp.ctr link Ctr.FpLink.FP_RETRY_FAILS) 0x0B10 (link - 1)
      else s.resend link m)

/-- Fewer than 2 Alley lanes are up (R415). -/
def execAlleyDown (dt : Nat) (s0 : State) : Res :=
  let s := s0.after dt
  .next (s.ifUp [U.twin] (if s.alleyUp || s.rb U.twin Twin.wasDown then s
    else ((s.twSet Twin.wasDown 1).count U.twin Ctr.Twin.ALLEY_DOWN_ENTRIES).post U.twin 0x0906 0))

/-! ### Compare (R426, R428, R429) -/

/-- Rows of `n` numbers of a list kept for the twin unit. -/
def State.twRows (s : State) (p n : Nat) : List (List Int) := s.rows U.twin p n

/-- A mismatch whose evidence both devices know is concluded. Rows of 54: head, key, own CRC, partner's CRC, own evidence; rows of
55: head, key, partner's evidence. -/
def State.concludeKnown (s : State) : State :=
  (s.twRows 54 5).foldl (fun a r =>
    match (a.twRows 55 3).find? fun x => at_ x 0 == at_ r 0 && at_ x 1 == at_ r 1 with
    | some x =>
      let b := (a.setRows U.twin 54 ((a.twRows 54 5).filter (· != r))).setRows U.twin 55 ((a.twRows 55 3).filter (· != x))
      b.conclude (at_ r 0).toNat (at_ r 1).toNat (at_ r 4).toNat (at_ x 2).toNat ((at_ r 2).toNat + (at_ r 3).toNat * 2 ^ 32)
    | none => a) s

/-- 1 ms after a mismatch its local evidence is gathered and sent (R428). -/
def State.sendEvidence (s : State) : State :=
  let (due, wait) := (s.twRows 52 5).partition fun r => decide (at_ r 4 + Config.ms ≤ (s.clk : Int))
  let s1 := s.setRows U.twin 52 wait
  (due.foldl (fun (a : State) r =>
    let head := (at_ r 0).toNat
    let mask := a.evidenceMask (head % 2) (head / 2 % 65536) (at_ r 4).toNat
    (a.setRows U.twin 54 (a.twRows 54 5 ++ [r.take 4 ++ [(mask : Int)]])).alleySend 5 [BitVec.ofNat 64 head, BitVec.ofNat 64 (at_ r 1).toNat, BitVec.ofNat 64 mask]) s1).concludeKnown
/-- Evidence older than any open window is forgotten. -/
def State.pruneEvidence (s : State) : State :=
  s.setBuf U.twin 40 ((chunks 3 (s.buf U.twin 40).length (s.buf U.twin 40)).filter (fun r => decide ((s.clk : Int) ≤ r.getD 2 0 + 20 * Config.ms))).flatten

def execSuspect (dt : Nat) (m : LinkMsg) (s0 : State) : Res :=
  .next ((s0.after dt).alleyTake m fun s =>
    if s.tw Twin.PAIR ≠ prInStep then s
    else (s.setRows U.twin 55 (s.twRows 55 3 ++ [[((m.body.getD 0 0).toNat : Int), ((m.body.getD 1 0).toNat : Int), ((m.body.getD 2 0).toNat % 32 : Nat)]])).concludeKnown)

/-- CRCs of a compare record, two to a word. -/
def recCrcs (n : Nat) (ws : List Word) : List Nat := (ws.flatMap fun w => [bitsAt w.toNat 31 0, bitsAt w.toNat 63 32]).take n
/-- Fields of a compare record: item, count, FOLLOW, first line; none where it is malformed. -/
def recHead (m : LinkMsg) : Option (Nat × Nat × Nat × Nat) :=
  let w := (m.body.headD 0).toNat
  if m.typ = 0x20 then
    let n := bitsAt w 16 12
    if !goodCrc m || n == 0 || decide (16 < n) || bitsAt w 31 18 != 0 || bitsAt w 63 48 != 0 || decide (2687 < bitsAt w 11 0) || m.body.length != 2 + (n + 1) / 2 then none
    else some (bitsAt w 11 0, n, bitsAt w 17 17, bitsAt w 47 32)
  else if m.typ = 0x21 then
    let n := bitsAt w 20 16
    if !goodCrc m || n == 0 || decide (16 < n) || bitsAt w 63 21 != 0 || decide (65536 < bitsAt w 15 0 + n) || m.body.length != 2 + (n + 1) / 2 then none
    else some (bitsAt w 15 0, n, 0, 0)
  else none

/-- A compare record of the partner (R426); a malformed one counts as uncompared (Table 15.8). -/
def execCompareRx (dt : Nat) (m : LinkMsg) (s0 : State) : Res :=
  let s := s0.after dt
  .next (s.ifUp [U.twin] (match recHead m with
    | none => s.count U.twin Ctr.Twin.UNCOMPARED
    | some (item, n, follow, line) =>
      let key := (m.body.getD 1 0).toNat
      let kind := if m.typ = 0x20 then 0 else 1
      ((recCrcs n (m.body.drop 2)).zipIdx).foldl (fun (a : State) e =>
        let r : CmpRec := if kind = 0 then ⟨0, item, key, line + e.2, e.1, s.clk⟩ else ⟨1, item + e.2, key, 0, e.1, s.clk⟩
        let b := a.compareAdd false r
        if follow = 1 && b.tw Twin.PAIR == prInStep then
          (b.noteRow item 32 (key / 2 ^ 48) (line + e.2) e.1).realign item ((b.rn (U.cell item) Cmp.frame + 65534 + (b.rd (U.cell item) Cmp.shift % 65536).toNat) % 65536)
        else b) s))

/-- Records that 1 ms has left without their partner (R426). -/
def execUncompared (dt : Nat) (s0 : State) : Res :=
  let s := s0.after dt
  .next (s.ifUp [U.twin] ([50, 51].foldl (fun (a : State) p =>
    let l := cmpRecs (a.buf U.twin p)
    let keep := l.filter fun r => decide (s.clk < r.at_ + Config.ms)
    (a.setBuf U.twin p (cmpInts keep)).countBy U.twin Ctr.Twin.UNCOMPARED (l.length - keep.length)) s))

/-! ### Heartbeats (R417, R418) -/

abbrev slotLen : Nat := 10 * Config.us

/-- Body of a heartbeat (Table 15.3). -/
def State.heartbeatBody (s : State) (roleIn : Bool) (slot : Nat) : List Word :=
  let b := fun (x : Bool) (k : Nat) => if x then 2 ^ k else 0
  let w1 := s.rn U.boot Boot.twMajor + s.rn U.boot Boot.twMinor * 2 ^ 4 + s.twN Twin.hbTx % 65536 * 2 ^ 8 + s.twN Twin.ROLE * 2 ^ 24 + s.twN Twin.SIDE * 2 ^ 26 +
    b roleIn 27 + s.twN Twin.PAIR * 2 ^ 28 + b s.switching 31 + b (s.rb U.twin Twin.SUSPECT_SELF) 32 + s.towerN Tower.SELECTED * 2 ^ 33 + s.towerN Tower.STATE * 2 ^ 37
  let t := slot * slotLen
  [BitVec.ofNat 64 w1, BitVec.ofNat 64 (t / Config.second), BitVec.ofNat 64 (t % Config.second / Config.ns + s.twN Twin.manSeq * 2 ^ 32)]

/-- A device yields: it becomes STANDBY (R433). -/
def State.yieldRole (s : State) : State :=
  ((s.setRole roleStandby).setPair prAlleyDown).wrs U.twin [(Twin.highRun, 0), (Twin.dualAt, 0)] |>.count U.twin Ctr.Twin.YIELDS
/-- The device finds itself dual-active: counted and posted once an interval (R433). -/
def State.noteDual (s : State) : State :=
  if s.rb U.twin Twin.dualAt then s else ((s.twSet Twin.dualAt (s.clk + 1)).count U.twin Ctr.Twin.DUAL_ACTIVE).post U.twin 0x0902 0
/-- Entry into TWIN_LOST (R432). -/
def State.twinLost (s : State) : State :=
  if s.tw Twin.PAIR = prTwinLost then s else ((s.setPair prTwinLost).count U.twin Ctr.Twin.TWIN_LOST_ENTRIES).post U.twin 0x0909 0

/-- ROLE_IN as an ACTIVE device samples it at a slot instant (R432, R433). -/
def State.sampleRoleIn (s : State) (roleIn : Bool) : State :=
  if s.tw Twin.ROLE ≠ roleActive || s.switching then s
  else if !roleIn then s.wrs U.twin [(Twin.highRun, 0), (Twin.dualAt, 0)]
  else
    let s1 := s.noteDual.twSet Twin.highRun (s.twN Twin.highRun + 1)
    let sideB := s.tw Twin.SIDE == 1
    if sideB && decide (3 ≤ s1.twN Twin.highRun) && s.tw Twin.PAIR != prTwinLost then s1.yieldRole
    else if !sideB && decide (3 ≤ s.twN Twin.missRun) && decide (s1.twN Twin.dualAt - 1 + 50 * Config.us ≤ s.clk) then s1.twinLost
    else s1

/-- At each slot a paired device sends a heartbeat and samples ROLE_IN. -/
def execHeartbeat (dt : Nat) (roleIn : Bool) (s0 : State) : Res :=
  let s := s0.after dt
  let slot := s.now / slotLen
  .next (s.ifUp [U.twin] (if s.tw Twin.MODE = 0 || s.twN Twin.hbSlot == slot + 1 then s
    else
      let s1 := (if s.alleyUp then s.twSet Twin.wasDown 0 else s).pruneEvidence.sendEvidence
      let s2 := s1.sampleRoleIn roleIn
      let s3 := (s2.alleySend 1 (s2.heartbeatBody roleIn slot)).wrs U.twin [(Twin.hbSlot, slot + 1), (Twin.hbTx, s.tw Twin.hbTx + 1)]
      (s3.count U.twin Ctr.Twin.HB_TX).showOk))

/-- A valid heartbeat is measured against this device's time and pins. -/
def State.checkHeartbeat (s : State) (skewed roleIn : Bool) (role : Nat) : State :=
  let run := if skewed then s.twN Twin.skewRun + 1 else 0
  let s1 := s.twSet Twin.skewRun run
  let s2 := if run ≠ 0 ∧ run % 100 = 0 then s1.countLimited U.twin Ctr.Twin.TIME_SKEW 0x0905 0 else s1
  let agrees := (role != 2) == roleIn
  let dis := if agrees then 0 else s2.twN Twin.disRun + 1
  let agr := if agrees then s2.twN Twin.agreeRun + 1 else 0
  let s3 := s2.wrs U.twin [(Twin.disRun, dis), (Twin.agreeRun, agr)]
  if dis = 3 ∧ !s3.rb U.twin Twin.ROLE_FAULT then (s3.twSet Twin.ROLE_FAULT 1).countLimited U.twin Ctr.Twin.ROLE_FAULTS 0x0904 0
  else if 100 ≤ agr then s3.twSet Twin.ROLE_FAULT 0 else s3

/-- What the pair state makes of a valid heartbeat (R433, R436). -/
def State.pairHeartbeat (s : State) (role pair : Nat) : State :=
  let p := s.tw Twin.PAIR
  let mine := s.tw Twin.ROLE
  if s.rb U.twin Twin.refused then s
  else if mine = roleActive ∧ role = 1 ∧ !s.switching then
    let s1 := s.noteDual
    if s.tw Twin.SIDE = 1 then s1.yieldRole.replicate else if p = prTwinLost then s1.replicate else s1
  else if mine = roleActive ∧ role = 2 ∧ (p = prPartnerLost ∨ p = prTwinLost ∨ (p = prInStep ∧ pair = 2)) then s.replicate
  else if mine = roleStandby ∧ role = 1 ∧ (p = prAlleyDown ∨ (p = prInStep ∧ pair = 2)) then s.replicate
  else s

/-- A heartbeat of the partner, sent at the slot instant `late` ago. -/
def execHeartbeatRx (dt : Nat) (m : LinkMsg) (late : Nat) (roleIn : Bool) (s0 : State) : Res :=
  let s := s0.after dt
  let w1 := (m.body.getD 0 0).toNat
  let w2 := (m.body.getD 1 0).toNat
  let w3 := (m.body.getD 2 0).toNat
  let bad := !goodCrc m || m.typ != 1 || m.body.length != 3 || bitsAt w1 63 40 != 0 || bitsAt w2 63 48 != 0
  .next (s.ifUp [U.twin] (if s.tw Twin.MODE = 0 then s
    else if bad then s.countLimited U.twin Ctr.Twin.HB_ERRORS 0 0
    else
      let seq := bitsAt w1 23 8
      let role := bitsAt w1 25 24
      let sent : Int := (w2 * Config.second + bitsAt w3 31 0 * Config.ns : Nat)
      let err := (sent - ((s.now : Int) - late)).natAbs
      let s1 := s.count U.twin Ctr.Twin.HB_RX
      let s2 := if s.rb U.twin Twin.hbAny && seq != (s.twN Twin.hbRx + 1) % 65536 then s1.count U.twin Ctr.Twin.HB_SEQ_GAPS else s1
      let major := bitsAt w1 3 0
      let s3 := s2.wrs U.twin [(Twin.hbAt, ((s.clk - late) + 1 : Nat)), (Twin.hbAny, 1), (Twin.hbRx, seq), (Twin.missRun, 0), (Twin.PARTNER_ROLE, role), (Twin.PARTNER_MAJOR, major),
        (Twin.pPair, bitsAt w1 30 28), (Twin.pSwitching, bitsAt w1 31 31)]
      let s4 := (s3.wr U.tower Tower.twinSel (bitsAt w1 36 33)).checkHeartbeat (decide (50 * Config.ns < err)) roleIn role
      let clash := bitsAt w1 26 26 == s.twN Twin.SIDE
      let version := decide (major < s.rn U.boot Boot.twMin) || decide (s.rn U.boot Boot.twMax < major)
      let s5 := s4.twSet Twin.refused (if clash || version then 1 else 0)
      let s6 := if clash then s5.countLimited U.twin Ctr.Twin.SIDE_CLASHES 0x0900 0 else s5
      let s7 := if version then s6.countLimited U.twin Ctr.Twin.VERSION_REFUSALS 0x0901 0 else s6
      ((if s.tw Twin.PAIR = prSeeking then s7 else s7.pairHeartbeat role (bitsAt w1 30 28)).showOk)))

/-- 2 us after a slot instant no valid heartbeat for it has come (R417, R432). -/
def execHeartbeatMissing (dt : Nat) (roleIn : Bool) (s0 : State) : Res :=
  let s := s0.after dt
  let late := s.now % slotLen
  let slot := s.now / slotLen
  .next (s.ifUp [U.twin] (if s.tw Twin.MODE = 0 ∨ late < 2 * Config.us ∨ s.twN Twin.missSlot = slot + 1 ∨ (s.clk - late) + 1 ≤ s.twN Twin.hbAt + Config.us then s
    else
      let run := s.twN Twin.missRun + 1
      let s1 := s.wrs U.twin [(Twin.missSlot, slot + 1), (Twin.missRun, run)]
      let s2 := if run = 1 then s1.twSet Twin.faultAtLoss (s.tw Twin.ROLE_FAULT) else s1
      let s3 := if s.tw Twin.ROLE = roleActive ∧ 3 ≤ run then
          if s2.rb U.twin Twin.faultAtLoss then s2.twinLost else if roleIn then s2 else if s.tw Twin.PAIR = prTwinLost then s2 else s2.setPair prPartnerLost
        else s2
      s3.showOk))

/-! ### Takeover (R431, R434, R438) -/

def execTakeover (dt : Nat) (roleIn : Bool) (s0 : State) : Res :=
  let s := s0.after dt
  let ok := s.tw Twin.MODE == 1 && s.tw Twin.ROLE == roleStandby && decide (3 ≤ s.twN Twin.missRun) && decide (s.twN Twin.hbAt + 40 * Config.us ≤ s.clk + 1) &&
    !(s.tw Twin.PAIR == prAlleyDown && roleIn)
  .next (s.ifUp [U.twin] (if !ok then s
    else
      let part := s.tw Twin.PAIR == prReplicating
      let hold := s.twN Twin.TAKEOVER_HOLD
      let s1 : State := { s with shadow := none, held := if hold = 0 then s.held else some ⟨s.clk, s.tsOff, s.regs, s.staged, s.claims⟩ }
      let s2 := (s1.wrs U.twin [(Twin.holdEnd, if hold = 0 then 0 else (s.clk + hold * Config.ms + 1 : Nat)), (Twin.highRun, 0), (Twin.dualAt, 0)]).setRole roleActive
      let s3 := if s.rb U.twin Twin.faultAtLoss then s2.twinLost else s2.setPair prPartnerLost
      let s4 := s3.count U.twin Ctr.Twin.TAKEOVERS
      let s5 := if part then (s4.count U.twin Ctr.Twin.REPLICATION_FAILS).twSet Twin.UNREPLICATED 1 else s4
      (s5.post U.twin 0x090A (detail 0 0 0 (if part then 1 else 0))).showOk))

def execTakeoverHoldEnd (dt : Nat) (s0 : State) : Res :=
  let s := s0.after dt
  .next (s.ifUp [U.twin] (if s.held.isNone ∨ s.clk + 1 < s.twN Twin.holdEnd then s
    else (State.twSet { s with held := none } Twin.holdEnd 0).emit (.pin pinTowerSt (s.towerN Tower.STATE))))

/-! ### Pairing and replication (R436, R437) -/

/-- 1 ms after `twincfg` MODE = PAIR the device takes its role. -/
def execPairSeekTimeout (dt : Nat) (roleIn : Bool) (s0 : State) : Res :=
  let s := s0.after dt
  let heard := s.rb U.twin Twin.hbAny && decide (s.twN Twin.missRun < 3)
  let role := s.twN Twin.PARTNER_ROLE
  .next (s.ifUp [U.twin] (if s.tw Twin.PAIR ≠ prSeeking ∨ s.clk < s.twN Twin.seekAt + Config.ms ∨ (heard && s.rb U.twin Twin.refused) = true then s
    else if !heard then
      if roleIn then (s.setRole roleStandby).setPair prAlleyDown else (s.setRole roleActive).setPair prPartnerLost
    else if role = 1 then (s.setRole roleStandby).replicate
    else if role = 0 then (if s.tw Twin.SIDE = 0 then (s.setRole roleActive).replicate else (s.setRole roleStandby).replicate)
    else s))

def execReplica (dt : Nat) (m : LinkMsg) (s0 : State) : Res :=
  .next ((s0.after dt).alleyTake m fun s =>
    if s.tw Twin.ROLE ≠ roleStandby ∨ s.tw Twin.PAIR ≠ prReplicating then s
    else
      let s1 := s.loadItems (m.body.length + 1) m.body
      match s1.shadow with
      | some h => { s1 with nextId := h.errands.foldl (fun n e => max n (e.id + 1)) s1.nextId }
      | none => s1)

/-- Manifests of a plan that wait for their effects, oldest first: plan, tick, then a row per thread. -/
def State.manifests (s : State) (p : Nat) : List LinkMsg := Tbl.get ⟨4, p⟩ [] s.links
def State.setManifests (s : State) (p : Nat) (l : List LinkMsg) : State := { s with links := Tbl.set ⟨4, p⟩ [] l s.links }
def manPlan (m : LinkMsg) : Nat := bitsAt (m.body.headD 0).toNat 7 0
def manTickOf (m : LinkMsg) : Int := (m.body.getD 1 0).toInt

/-- On the copy, manifests are executed in order as their effects come to be staged, without waiting for their ticks. -/
def State.replayManifests (s : State) : Nat → Nat → State
  | 0, _ => s
  | fuel + 1, p =>
    match s.manifests p with
    | [] => s
    | m :: rest =>
      let rows := manifestRows (m.body.drop 2)
      let met := match s.shadow with
        | some h => (s.withShadow h).manifestMet p rows
        | none => false
      if met then
        ((s.setManifests p rest).onThreads false fun c => (c.applyManifest p (manTickOf m) rows m.seq).tickNow p (manTickOf m)).replayManifests fuel p
      else s
def State.replayAll (s : State) : State := (List.range 16).foldl (fun a p => a.replayManifests ((a.manifests p).length) p) s

/-- The copy is behind while a manifest waits or an errand of it has not been passed on (R437). -/
def State.copyBehind (s : State) : Bool :=
  (List.range 16).any (fun p => !(s.manifests p).isEmpty) || (match s.shadow with
    | some h => h.errands.any fun e => decide (e.phase ≤ 1)
    | none => true)

/-- The STANDBY device has executed all it was sent: it reports that it has caught up. -/
def execReplicationCaughtUp (dt : Nat) (s0 : State) : Res :=
  let s := s0.after dt
  .next (s.ifUp [U.twin] (if !s.onCopy then s
    else if s.replayAll.copyBehind || !s.rb U.twin Twin.loaded || s.rb U.twin Twin.stepDue then s.replayAll else s.replayAll.alleySend 0x31 []))

/-- The ACTIVE device answers the report with the tick of the step; the STANDBY device takes the tick and the gains. -/
def execStep (dt : Nat) (m : LinkMsg) (s0 : State) : Res :=
  .next ((s0.after dt).alleyTake m fun s =>
    if s.tw Twin.PAIR ≠ prReplicating then s
    else if s.tw Twin.ROLE = roleActive then
      let p := s.twN Twin.TWIN_PLAN
      if s.twN Twin.repl = 2 ∧ m.body.isEmpty ∧ s.planOn p then
        let j := s.firstTickFrom p ((s.now : Int) + curfewLead + Config.ms)
        (s.wrs U.twin [(Twin.repl, 3), (Twin.stepDue, j + 1)]).alleySend 0x31 (BitVec.ofInt 64 j :: s.gainItems)
      else s
    else if s.rb U.twin Twin.loaded && !m.body.isEmpty then
      (s.twSet Twin.stepDue ((m.body.headD 0).toInt + 1)).setBuf U.twin 60 (gainPairs (wordGroups 5 (m.body.drop 1)))
    else s)

/-- The copy becomes current in one commit. Errands that this host sent keep their place. -/
def State.makeCurrent (s : State) : State :=
  match s.shadow with
  | none => s
  | some h =>
    let own := (s.errands.filter fun e => e.source != 1).map fun e => if e.phase = 1 then { e with phase := 2 } else e
    let parts := s.parts.filter fun p => own.any fun e => p.errand == some e.id
    let s1 := s.withShadow h
    State.setGains { s1 with errands := s1.errands ++ own, parts := s1.parts ++ parts } (s.buf U.twin 60).length (s.buf U.twin 60)

/-- What the compare of Cells and slots held of the time before the step is forgotten (R437). -/
def State.forgetCompare (s : State) : State :=
  { s with regs := s.regs.filter fun e => !(decide (Cmp.on.pos ≤ e.1.pos) && decide (e.1.pos ≤ Cmp.frame.pos) &&
    (decide (e.1.unit < 2688) || (decide (U.slot 0 ≤ e.1.unit) && decide (e.1.unit < U.slot 65536)))) }

/-- Tick J of the step (R437). -/
def execStepCommit (dt : Nat) (s0 : State) : Res :=
  let s := s0.after dt
  let p := s.twN Twin.TWIN_PLAN
  let j := s.tw Twin.stepDue - 1
  .next (s.ifUp [U.twin] (if s.tw Twin.PAIR ≠ prReplicating ∨ s.tw Twin.stepDue = 0 ∨ !s.planOn p ∨ s.tickAt p s.now < j then s
    else
      let s1 := if s.tw Twin.ROLE = roleStandby then s.replayAll.makeCurrent else s
      let s3 := (s1.forgetCompare.setBuf U.twin 60 []).setPair prInStep
      (((s3.wrs U.twin [(Twin.STEP_TICK, j), (Twin.stepAt, s.clk + 1)]).count U.twin Ctr.Twin.REPLICATIONS).post U.twin 0x090B 0).showOk))

/-- Replication has taken 2 s: it starts again (R437). -/
def execReplicationTimeout (dt : Nat) (s0 : State) : Res :=
  let s := s0.after dt
  .next (s.ifUp [U.twin] (if s.tw Twin.PAIR ≠ prReplicating ∨ s.clk < s.twN Twin.replAt - 1 + 2 * Config.second then s
    else (s.count U.twin Ctr.Twin.REPLICATION_FAILS).replicate))

/-! ### Manifests (R422, R423) -/

/-- A manifest is applied where its effects are staged, and otherwise waits for them. -/
def execManifestRx (dt : Nat) (m : LinkMsg) (s0 : State) : Res :=
  .next ((s0.after dt).alleyTake m fun s =>
    let p := manPlan m
    if 16 ≤ p ∨ m.typ ≠ 3 then s
    else if s.followsDecisions then
      if manTickOf m < s.rd (U.plan p) Plan.manTick then s
      else
        let rows := manifestRows (m.body.drop 2)
        if s.manifestMet p rows then s.applyManifest p (manTickOf m) rows m.seq else s.setManifests p (s.manifests p ++ [m])
    else if s.onCopy ∨ (s.tw Twin.ROLE = roleStandby ∧ s.tw Twin.PAIR = prReplicating) then (s.setManifests p (s.manifests p ++ [m])).replayAll
    else s)

/-- No manifest by the curfew and 10 us: the device resolves the tick by its own staging instants (R423). -/
def execManifestOwn (dt p : Nat) (s0 : State) : Res :=
  let s := s0.after dt
  let n := s.tickAt p ((s.now : Int) + curfewLead - 10 * Config.us)
  .next (s.ifUp [U.twin] (if 16 ≤ p ∨ !s.planOn p ∨ !s.followsDecisions ∨ n < s.rd (U.plan p) Plan.manTick ∨ n ≤ s.rd (U.plan p) Plan.TICK ∨ (s.manifests p).any (manTickOf · == n) then s
    else
      let s1 := ((s.resolveNew p n).wr (U.plan p) Plan.manTick (n + 1)).count U.twin Ctr.Twin.MANIFEST_OWN
      s1.setBuf (U.plan p) 60 (logInts ((s1.planLog p).filter fun x => s1.staged.any fun e => e.id == x.id && !e.won))))

/-- At the curfew and 40 us a manifest names effects that are still not staged: the device leaves IN_STEP (R422). -/
def execManifestLate (dt p : Nat) (s0 : State) : Res :=
  let s := s0.after dt
  .next (s.ifUp [U.twin] (if 16 ≤ p ∨ !s.followsDecisions then s
    else match s.manifests p with
      | [] => s
      | m :: rest =>
        let n := manTickOf m
        let rows := manifestRows (m.body.drop 2)
        if s.manifestMet p rows then (s.setManifests p rest).applyManifest p n rows m.seq
        else if (s.now : Int) < s.tickTime p n s.now - curfewLead + 40 * Config.us then s
        else (((s.setManifests p []).count U.twin Ctr.Twin.MANIFEST_LATE).post U.twin 0x0903 0).replicate))

/-! ### Decisions (R263, R296, R361, R424) -/

/-- Slip that a SLAVE transmit side makes: the partner's code, or (`none`) its own by its phase. -/
def State.txSlave (s : State) (u : Nat) (v : Option Nat) : State :=
  let phi := s.rd u Stook.phi
  let slip : Nat := match v with
    | some w => if w = 0 then 0 else (w - 1) % 2 + 1
    | none => if phi < -(Config.second : Int) then 1 else if 5 * (Config.second : Int) ≤ phi then 2 else 0
  let s1 := if v.isNone then s.countEvent u Ctr.Stook.TWIN_AUDIO_OWN else s
  let last := s.rd u Src.last
  ((s1.wrs u [(Src.due, 0), (Src.last, if slip = 1 then last - 1 else if slip = 2 then last + 1 else last)]).txSlip u slip)

/-- A decision that a STANDBY device waits for: the partner's value, or (`none`) its own choice. -/
def State.applyDecision (s : State) (kind u : Nat) (v : Option Nat) : State :=
  if kind = 0 then
    if U.classOf u = 0x12 ∧ s.rb u Sub.choiceDue = true then
      let x := u - 0x6500
      let s1 := s.wr u Sub.choiceDue 0
      match v with
      | some stamp => s1.subDecide (x / 8) (x % 8) (some stamp)
      | none => (s1.countEvent u Ctr.Sub.TWIN_CHOICES_OWN).subDecide (x / 8) (x % 8) none
    else s
  else if kind = 1 then
    if U.classOf u = 0x17 ∧ s.rb u Layer.choiceDue = true then
      let x := u - 0x6C00
      let td := s.rn u Layer.choiceDue - 1 - 4 * Config.us
      let s1 := s.wr u Layer.choiceDue 0
      match v with
      | some stamp => (s1.layerDecide (x / 64) (x % 64) td (some stamp)).composeHead (x / 64)
      | none => ((s1.countEvent u Ctr.Layer.TWIN_CHOICES_OWN).layerDecide (x / 64) (x % 64) td none).composeHead (x / 64)
    else s
  else if kind = 2 ∨ kind = 3 then
    if s.rb u Src.due = false then s
    else if U.classOf u = 0x26 ∧ u % 2 = 1 then s.txSlave u v
    else match s.feeds.find? (·.unit == u) with
      | some f => s.flushSource f v
      | none => s
  else if kind = 4 then
    if U.classOf u = 0x0C ∧ (s.rb u Tx.tsDue = true ∨ (s.rn u Tx.TYPE = 5 ∧ v.isSome)) then
      let s1 := s.applyTs (u - U.tx 0) v
      if v.isNone then s1.count U.twin Ctr.Twin.TWIN_TS_OWN else s1
    else s
  else s

/-- Last instant at which the partner's decision counts: in `clk` (plus one), or for audio in system time. -/
def State.decisionOpen (s : State) (kind u : Nat) : Bool :=
  match kind with
  | 0 => decide (s.clk + 1 ≤ s.rn u Sub.choiceDue)
  | 1 => decide (s.clk + 1 ≤ s.rn u Layer.choiceDue)
  | 2 => decide ((s.now : Int) ≤ s.rd u Src.due)
  | 3 => decide ((s.now : Int) ≤ s.rd u Src.due)
  | _ => s.rn u Tx.tsDue == 0 || decide (s.clk + 1 ≤ s.rn u Tx.tsDue)
/-- Units that a decision of a kind may name (Table 15.8). -/
def decisionUnit (kind u : Nat) : Bool :=
  match kind with
  | 0 => U.classOf u == 0x12
  | 1 => U.classOf u == 0x17
  | 4 => U.classOf u == 0x0C
  | _ => (kind == 2 || kind == 3) && [0x0B, 0x23, 0x26].contains (U.classOf u)

def execDecision (dt : Nat) (m : LinkMsg) (s0 : State) : Res :=
  let s := s0.after dt
  let w := (m.body.headD 0).toNat
  let kind := w % 256
  let u := bitsAt w 39 8
  .next (s.ifUp [U.twin] (if !s.followsDecisions || !goodCrc m || m.typ != 2 then s
    else if !decisionUnit kind u then (if kind = 4 then s.countLimited U.twin Ctr.Twin.TWIN_TS_OWN 0 0 else s)
    else if s.decisionOpen kind u then s.applyDecision kind u (some (m.body.getD 1 0).toNat) else s))

def execTwinDecisionTimeout (dt kind unit : Nat) (s0 : State) : Res :=
  let s := s0.after dt
  let due : Bool := match kind with
    | 0 => decide (s.rn unit Sub.choiceDue ≤ s.clk + 1)
    | 1 => decide (s.rn unit Layer.choiceDue ≤ s.clk + 1)
    | 4 => decide (s.rn unit Tx.tsDue ≤ s.clk + 1)
    | _ => decide (s.rd unit Src.due ≤ (s.now : Int))
  .next (s.ifUp [U.twin] (if due && decisionUnit kind unit then s.applyDecision kind unit none else s))

/-! ### Errands, replies and tables (R83, R419, R495) -/

/-- The errand that a receipt has just added keeps the instant at which the ACTIVE device received it. -/
def State.arrivedAt (s : State) (before at_ : Nat) : State :=
  { s with errands := s.errands.map fun e => if before ≤ e.id && e.source == 1 then { e with arrival := at_ } else e }

def execAlleyErrand (dt : Nat) (m : LinkMsg) (s0 : State) : Res :=
  .next ((s0.after dt).alleyTake m fun s =>
    let q := (m.body.getD 0 0).toNat
    let at_ := (m.body.getD 1 0).toNat * Config.second + (m.body.getD 2 0).toNat * Config.ns
    let ws := m.body.drop 3
    if q = 8 then
      if ringWords < s.wordsQueued 8 + ws.length then s.alleySend 6 [] else s.receiveErrand 8 2 ws true
    else if 9 < q ∨ s.tw Twin.ROLE ≠ roleStandby ∨ (s.tw Twin.PAIR = prReplicating ∧ s.shadow.isNone = true) then s
    else s.onThreads false fun c =>
      if ringWords < c.wordsQueued q + ws.length then c.hostBad Ctr.HostP.QUEUE_FULL evHostQueueFull
      else (c.receiveErrand q 1 ws true).arrivedAt c.nextId at_)

/-- A reply of the partner's queue 8; an empty one says that its queue has no room. A reply that the ring has no room for is not
acknowledged, so that it comes again. -/
def execAlleyReply (dt : Nat) (m : LinkMsg) (s0 : State) : Res :=
  let s := s0.after dt
  .next (s.ifUp [U.twin] (if goodCrc m && decide (s.replyRoom 8 < m.body.length + 1) && !s.seenMsg m.seq then s
    else s.alleyTake m fun a => if m.body.isEmpty then a.hostBad Ctr.HostP.QUEUE_FULL evHostQueueFull else a.ringReply 8 m.body))

/-- A bulk table for the Ledger: first index, then the words (R83). -/
def execAlleyBulk (dt : Nat) (m : LinkMsg) (s0 : State) : Res :=
  .next ((s0.after dt).alleyTake m fun s =>
    if s.tw Twin.ROLE ≠ roleStandby ∨ 65536 < (m.body.headD 0).toNat + (m.body.length - 1) then s
    else s.onThreads false fun c => c.ldputs (m.body.headD 0).toNat (m.body.drop 1))

end Sys2Proof.Machine
end

