-- ==== Sys2Proof/Machine/Flash.lean ====
section
/-!
DEFINITION. The boot flash, its boot record, the check of an image slot, and the settings store (R511 to R516, R532 to R535).
-/
namespace Sys2Proof.Machine

/-! ### Bytes and words of the flash (R512) -/

def State.flashByte (s : State) (a : Nat) : Byte := ~~~(barnGet s.flash a)
def State.flashPut (s : State) (a : Nat) (b : Byte) : State := { s with flash := barnPut s.flash a (~~~b) }
def State.flashWord (s : State) (a : Nat) : Nat := (List.range 8).foldl (fun x i => x + (s.flashByte (a + i)).toNat * 2 ^ (8 * i)) 0
def State.flashPutWord (s : State) (a w : Nat) : State :=
  (List.range 8).foldl (fun x i => x.flashPut (a + i) (BitVec.ofNat 8 (w / 2 ^ (8 * i)))) s
/-- Words from an address on. -/
def State.flashPutWords (s : State) (a : Nat) (l : List Nat) : State :=
  l.zipIdx.foldl (fun x (e : Nat × Nat) => x.flashPutWord (a + 8 * e.2) e.1) s
def State.flashWords (s : State) (a n : Nat) : List Nat := (List.range n).map fun i => s.flashWord (a + 8 * i)
def State.flashBytes (s : State) (a n : Nat) : List Byte := (List.range n).map fun i => s.flashByte (a + i)
/-- A region of `n` bytes is erased. -/
def State.flashErase (s : State) (a n : Nat) : State :=
  { s with flash := s.flash.filter fun c => !(decide (a ≤ c.1) && decide (c.1 < a + n)) }

/-- Where a slot begins (Table 19.2): 0 A, 1 B. -/
def slotBase (slot : Nat) : Nat := slot * 0x400000
/-- Bytes of a slot that `imgload` may write (R520). -/
def slotBytes : Nat := 1835520

/-! ### One-time storage -/

abbrev nvOtp : Nat := 0x0F05
def State.keyHash (s : State) : Nat := s.cellNv nvOtp 0 0
def State.fuses (s : State) : Nat := s.cellNv nvOtp 1 0

/-! Of the boot unit: SVN, SET_FORMAT and SET_MIN of the running image; the recovery slot; DIST_ID that writes the slot (plus one)
and whether the ring does; the distribution this node originates (plus one) and the reports kept of it; the distribution received
from the ring (plus one) and its code so far; the one skipped (plus one); RING_ACCEPT; region of the settings copy in use (plus
one); the last two watchdog expiries (plus one); reset has been released. -/
def Boot.runSvn : Field := ⟨340, 7, false, 0⟩
def Boot.setFormat : Field := ⟨341, 16, false, 0⟩
def Boot.setMin : Field := ⟨342, 16, false, 0⟩
def Boot.recSlot : Field := ⟨343, 1, false, 0⟩
def Boot.imgDist : Field := ⟨344, 0, false, 0⟩
def Boot.imgRing : Field := ⟨345, 1, false, 0⟩
def Boot.ownDist : Field := ⟨346, 0, false, 0⟩
def Boot.ownReports : Field := ⟨347, 0, false, 0⟩
def Boot.ringDist : Field := ⟨348, 0, false, 0⟩
def Boot.ringCode : Field := ⟨349, 8, false, 0⟩
def Boot.skipDist : Field := ⟨350, 0, false, 0⟩
def Boot.ringAccept : Field := ⟨351, 1, false, 1⟩
def Boot.setRegion : Field := ⟨352, 2, false, 0⟩
def Boot.dog1 : Field := ⟨353, 0, false, 0⟩
def Boot.dog2 : Field := ⟨354, 0, false, 0⟩
def Boot.released : Field := ⟨355, 1, false, 0⟩
/-- Handover of an activation: its instant, and RUN_VERSION, SVN and formats of the image replaced. -/
def Boot.handAt : Field := ⟨356, 0, false, 0⟩
def Boot.oldVersion : Field := ⟨357, 32, false, 0⟩
/-- NODE, VERSION and STAGE of the neighbours (R528). -/
def Boot.nbNode (link : Nat) : Field := ⟨360 + link, 16, false, 0⟩
def Boot.nbVersion (link : Nat) : Field := ⟨363 + link, 32, false, 0⟩
def Boot.nbStage (link : Nat) : Field := ⟨366 + link, 3, false, 0⟩

def evFwBooted : Nat := 0x0B00
def evFwRecovery : Nat := 0x0B01
def evFwSlotInvalid : Nat := 0x0B02
def evFwVerified : Nat := 0x0B03
def evFwActivated : Nat := 0x0B04
def evFwAborted : Nat := 0x0B05
def evFwRollback : Nat := 0x0B06
def evFwMigrated : Nat := 0x0B07
def evFwDefault : Nat := 0x0B08
def evFwSvn : Nat := 0x0B09
def evFwWatchdog : Nat := 0x0B0A

def State.bootN (s : State) (f : Field) : Nat := s.rn U.boot f
def State.bootSet (s : State) (l : List (Field × Int)) : State := s.wrs U.boot l

/-! ### The boot record (R514) -/

def recordBase (copy : Nat) : Nat := 0x800000 + 0x1000 * copy
/-- A copy holds MAGIC and a correct CRC. -/
def State.recordOk (s : State) (copy : Nat) : Bool :=
  let ws := s.flashWords (recordBase copy) 3
  ws.getD 0 0 % 65536 == 0x4252 && ws.getD 2 0 % 2 ^ 32 == crc32 (ws.take 2)
/-- The copy in force: valid, with the higher GEN. -/
def State.recordCopy (s : State) : Option Nat :=
  let g := fun (c : Nat) => s.flashWord (recordBase c + 8)
  if s.recordOk 0 ∧ s.recordOk 1 then some (if g 0 < g 1 then 1 else 0)
  else if s.recordOk 0 then some 0 else if s.recordOk 1 then some 1 else none
/-- ACTIVE, TRIAL and TRIES of the record in force; slot A and no trial where neither copy is valid. -/
def State.bootRecord (s : State) : Nat × Nat × Nat :=
  match s.recordCopy with
  | none => (0, 0, 0)
  | some c =>
    let w := s.flashWord (recordBase c)
    (bitsAt w 16 16, bitsAt w 17 17, bitsAt w 19 18)
/-- A write goes to the other copy, with GEN + 1; TRIAL and TRIES show it. -/
def State.writeRecord (s : State) (active trial tries : Nat) : State :=
  let copy := match s.recordCopy with
    | some c => 1 - c
    | none => 0
  let gen := match s.recordCopy with
    | some c => s.flashWord (recordBase c + 8) + 1
    | none => 1
  let w0 := 0x4252 + active % 2 * 2 ^ 16 + trial % 2 * 2 ^ 17 + tries % 4 * 2 ^ 18
  let ws := [w0, gen % 2 ^ 64, crc32 [w0, gen % 2 ^ 64]]
  ((s.flashErase (recordBase copy) 0x1000).flashPutWords (recordBase copy) ws).bootSet [(Boot.TRIAL, trial), (Boot.TRIES, tries)]

/-! ### Images (R515, R516) -/

/-- Words 0 to 2 of a slot's header. -/
def State.hdr (s : State) (slot k : Nat) : Nat := s.flashWord (slotBase slot + 8 * k)
def State.hdrSvn (s : State) (slot : Nat) : Nat := bitsAt (s.hdr slot 0) 30 24
def State.hdrVersion (s : State) (slot : Nat) : Nat := bitsAt (s.hdr slot 1) 31 0
def State.hdrFormat (s : State) (slot : Nat) : Nat := bitsAt (s.hdr slot 2) 31 16
def State.hdrSetMin (s : State) (slot : Nat) : Nat := bitsAt (s.hdr slot 2) 47 32
/-- Bytes lo to hi of a slot are all 0. -/
def State.zeroBytes (s : State) (slot lo hi : Nat) : Bool := (s.flashBytes (slotBase slot + lo) (hi + 1 - lo)).all (· == 0)

/-- The payload matches PAYLOAD_HASH. -/
def State.payloadOk (s : State) (slot : Nat) : Bool :=
  Sha.sha384 (s.flashBytes (slotBase slot + 512) (bitsAt (s.hdr slot 1) 63 32)) == Sha.be (s.flashBytes (slotBase slot + 32) 48)

/-- CHECK code of a slot (Table 19.5), the tests in order. -/
def State.checkSlot (s : State) (slot : Nat) (flashOk : Bool) : Nat :=
  let b := slotBase slot
  let w0 := s.hdr slot 0
  let w2 := s.hdr slot 2
  let len := bitsAt (s.hdr slot 1) 63 32
  let key := s.flashBytes (b + 128) 96
  if !flashOk then 8
  else if w0 % 65536 ≠ 0x4D49 then 1
  else if bitsAt w0 23 16 ≠ 1 ∨ len = 0 ∨ 1835008 < len ∨ bitsAt w0 31 31 ≠ 0 ∨ bitsAt w0 63 60 ≠ 0 ∨ bitsAt w2 15 12 ≠ 0 ∨ bitsAt w2 63 48 ≠ 0 ∨
      s.zeroBytes slot 24 31 = false ∨ s.zeroBytes slot 80 127 = false ∨ s.zeroBytes slot 320 511 = false then 2
  else if bitsAt w0 47 32 ≠ 0x1152 ∨ Config.siliconRev.toNat < bitsAt w0 59 48 then 3
  else if Sha.sha384 key ≠ s.keyHash then 4
  else if P384.verify (Sha.be (key.take 48)) (Sha.be (key.drop 48)) (Sha.sha384 (s.flashBytes b 224)) (Sha.be (s.flashBytes (b + 224) 48))
      (Sha.be (s.flashBytes (b + 272) 48)) = false then 5
  else if bitsAt w0 30 24 < s.fuses then 6
  else if s.payloadOk slot = false then 7
  else 0

def slotState (slot : Nat) : Field := if slot = 0 then Boot.SLOTA_STATE else Boot.SLOTB_STATE
def slotCheck (slot : Nat) : Field := if slot = 0 then Boot.SLOTA_CHECK else Boot.SLOTB_CHECK
def slotVersion (slot : Nat) : Field := if slot = 0 then Boot.SLOTA_VERSION else Boot.SLOTB_VERSION
def slotSvn (slot : Nat) : Field := if slot = 0 then Boot.SLOTA_SVN else Boot.SLOTB_SVN
/-- A slot shows the outcome of its check: VALID or INVALID. -/
def State.showSlot (s : State) (slot code : Nat) : State :=
  s.bootSet [(slotState slot, if code = 0 then 3 else 4), (slotCheck slot, code),
    (slotVersion slot, if code = 1 ∨ code = 8 then 0 else s.hdrVersion slot), (slotSvn slot, if code = 1 ∨ code = 8 then 0 else s.hdrSvn slot)]
/-- FW_SLOT_INVALID for a slot that is INVALID, entered from a state. -/
def State.postInvalid (s : State) (slot old : Nat) : State :=
  if s.bootN (slotState slot) = 4 then s.post U.boot evFwSlotInvalid (detail 0 4 old 0) else s

/-! ### The settings store (R532 to R535) -/

def regionBase (r : Nat) : Nat := 0x810000 + 0x10000 * r
/-- Records of a copy: TAG, LEN and data words; none where the words hold no whole records. -/
def recordsOf : Nat → List Nat → Option (List (Nat × Nat × List Nat))
  | _, [] => some []
  | 0, _ => none
  | fuel + 1, w :: t =>
    let n := (bitsAt w 31 16 + 7) / 8
    if bitsAt w 63 32 ≠ 0 ∨ t.length < n then none
    else (recordsOf fuel (t.drop n)).map fun rest => (bitsAt w 15 0, bitsAt w 31 16, t.take n) :: rest
/-- Words of records. -/
def wordsOfRecords (l : List (Nat × Nat × List Nat)) : List Nat := l.flatMap fun r => (r.1 + r.2.1 * 2 ^ 16) :: r.2.2

/-- Words of the records of a copy. -/
def State.copyWords (s : State) (r : Nat) : List Nat := s.flashWords (regionBase r + 32) (bitsAt (s.flashWord (regionBase r + 16)) 31 0 / 8)
/-- MAGIC, LENGTH and CRC are correct. -/
def State.copyOk (s : State) (r : Nat) : Bool :=
  let len := bitsAt (s.flashWord (regionBase r + 16)) 31 0
  s.flashWord (regionBase r) % 65536 == 0x5354 && decide (len ≤ 65504) && len % 8 == 0 &&
    bitsAt (s.flashWord (regionBase r + 16)) 63 32 == crc32 (s.copyWords r)
def State.copyFormat (s : State) (r : Nat) : Nat := bitsAt (s.flashWord (regionBase r)) 31 16
def State.copySeq (s : State) (r : Nat) : Nat := s.flashWord (regionBase r + 8)
def State.copyRecords (s : State) (r : Nat) : List (Nat × Nat × List Nat) := (recordsOf 8192 (s.copyWords r)).getD []

/-- The valid copy with the higher SEQ among those whose FORMAT meets a condition. -/
def State.pickCopy (s : State) (f : Nat → Bool) : Option Nat :=
  let ok := fun (r : Nat) => s.copyOk r && f (s.copyFormat r)
  if ok 0 ∧ ok 1 then some (if s.copySeq 0 < s.copySeq 1 then 1 else 0) else if ok 0 then some 0 else if ok 1 then some 1 else none

/-- A copy is written into a region: FORMAT, SEQ, VERSION of the writer, FORMAT migrated from, records. -/
def State.writeCopy (s : State) (r fmt seq ver from_ : Nat) (recs : List (Nat × Nat × List Nat)) : State :=
  let ws := wordsOfRecords recs
  (s.flashErase (regionBase r) 0x10000).flashPutWords (regionBase r)
    ([0x5354 + fmt % 65536 * 2 ^ 16, seq % 2 ^ 64, 8 * ws.length + crc32 ws * 2 ^ 32, ver % 2 ^ 32 + from_ % 65536 * 2 ^ 32] ++ ws)

/-- Value of a record: its first data word, or a default. -/
def settingOf (recs : List (Nat × Nat × List Nat)) (tag width d : Nat) : Nat :=
  match recs.find? fun r => r.1 == tag with
  | some r => r.2.2.headD d % 2 ^ width
  | none => d
/-- The settings of the records take effect: NODE_ID and RING_ACCEPT (R532). -/
def State.useRecords (s : State) (recs : List (Nat × Nat × List Nat)) : State :=
  s.bootSet [(Boot.NODE, settingOf recs 1 16 0xFFFE), (Boot.ringAccept, settingOf recs 2 1 1)]
/-- A copy is in use. -/
def State.useCopy (s : State) (r : Nat) : State :=
  (s.useRecords (s.copyRecords r)).bootSet [(Boot.SETTINGS_FORMAT, s.copyFormat r), (Boot.SETTINGS_SEQ, s.copySeq r), (Boot.setRegion, r + 1)]
/-- Records of the image's defaults (R532). -/
def defaultRecords : List (Nat × Nat × List Nat) := [(1, 2, [0xFFFE]), (2, 1, [1])]

/-- A migration of the copy in region `r` (R535): a copy in the new FORMAT with SEQ one higher in the other region, records that the
format does not know unaltered. -/
def State.migrate (s : State) (r fmt ver : Nat) : State :=
  s.writeCopy (1 - r) fmt (s.copySeq r + 1) ver (s.copyFormat r) (s.copyRecords r)

/-- What an image of SET_FORMAT `fmt` and SET_MIN `lo` does with the store at its start (R533): none where it refuses it. -/
def State.restoreFrom (s : State) (same older : Option Nat) (spoilt : Bool) (fmt ver : Nat) (migrates : Bool) : Option State :=
  match same, older with
  | some r, _ => some (s.useCopy r)
  | none, some r => if migrates then some (((s.migrate r fmt ver).useCopy (1 - r)).post U.boot evFwMigrated 0) else none
  | none, none => if spoilt then none else some ((s.writeCopy 0 fmt 1 ver 0 defaultRecords).useCopy 0)
/-- The same, with the copies the device finds: one of the image's own format, one of an older format it can read, any valid one. -/
def State.restore (s : State) (fmt lo ver : Nat) (migrates : Bool) : Option State :=
  s.restoreFrom (s.pickCopy (· == fmt)) (s.pickCopy fun f => decide (lo ≤ f) && decide (f < fmt)) (s.copyOk 0 || s.copyOk 1) fmt ver migrates

end Sys2Proof.Machine
end

