-- ==== Sys2Proof/Machine/Threads.lean ====
section
/-!
DEFINITION. Thread configuration, stopping a thread, and its faults (R78, R79, R82, R455, R456).
-/
namespace Sys2Proof.Machine

/-- ACTION of `thrcfg`: 0 CONFIGURE, 1 START; 2 and 3 are reserved (Table 16.6). -/
def thrcfgAction (i : Issue) : Nat := bitsAt i.sub 1 0

/-- The thread takes its configuration and begins at its entry (R78). -/
def State.configureThread (s : State) (t : Nat) (vs : List Int) (st : Int) : State :=
  let g := pv Lamp.thrcfgParams vs
  let s1 := (s.discardSalvo t Code.format.num).wrs (U.thread t)
    [(Lamp.STATE, st), (Lamp.PRIORITY, g Lamp.PRIORITY), (Lamp.PLAN, g Lamp.PLAN), (Lamp.QUEUE, g Lamp.QUEUE),
      (Lamp.ENTRY, g Lamp.ENTRY), (Lamp.REPORT, g Lamp.REPORT), (Lamp.PC, g Lamp.ENTRY), (Lamp.IN_ERRAND, 0), (Lamp.TARGET, 0),
      (Lamp.tMode, 0), (Lamp.callIdx, 0), (Lamp.past, 0), (Lamp.stopAtEnd, 0), (Lamp.waitKind, 0)]
  { s1 with calls := Tbl.set ⟨t, 0⟩ [] [] s1.calls }

/-- Another thread serves the queue (R78). -/
def State.queueTaken (s : State) (t q : Nat) : Bool :=
  q != 15 && (List.range 64).any fun o => o != t && s.thn o Lamp.QUEUE == q

/-- Both actions of `thrcfg`. -/
def thrcfg (i : Issue) (action : Nat) (s : State) : Judged :=
  let ts := targets i 0x30 (U.thread 0) 64
  let vs := (getParams Lamp.thrcfgParams true i).getD []
  let q := pn Lamp.thrcfgParams vs Lamp.QUEUE
  let st : Int := if action = 1 then thRunning else if q = 15 then thIdle else thQueueWait
  { checks := [(.format, i.badFlags true false true false || i.sub != action || (getParams Lamp.thrcfgParams true i).isNone),
      (.range, !paramsOk Lamp.thrcfgParams vs || (action == 1 && q != 15)),
      (.locked, decide (1 < (ts.getD []).length) && q != 15)] ++
      eachTarget ts fun t => [(.locked, t == i.th || s.queueTaken t q ||
        !(s.th t Lamp.STATE == thIdle || s.th t Lamp.STATE == thHalted || s.th t Lamp.STATE == thFault))]
    verdict := .act ((ts.getD []).foldl (fun a t => a.configureThread t vs st) s) }

def execConfigure (i : Issue) (s : State) : Res := .next (s.issue i .other (thrcfg i 0))
def execStart (i : Issue) (s : State) : Res := .next (s.issue i .other (thrcfg i 1))

/-- The named thread stops: at once, or at the end of the errand it executes (R456). -/
def State.stopThread (s : State) (t : Nat) : State :=
  if s.th t Lamp.STATE = thIdle ∨ s.th t Lamp.STATE = thFault then s
  else if s.inErrand t then s.setTh t Lamp.stopAtEnd 1
  else s.halt t

def judgeThrstop (i : Issue) (s : State) : Judged :=
  let ts := targets i 0x30 (U.thread 0) 64
  { checks := (.format, i.badFlags true false true false || i.sub != 0 || i.npw != 0 || !i.params.isEmpty) ::
      eachTarget ts fun t => [(.locked, t == i.th)]
    verdict := .act ((ts.getD []).foldl State.stopThread s) }
def execThrstop (i : Issue) (s : State) : Res := .next (s.issue i .other (judgeThrstop i))

/-- An uncorrectable SRAM error hits the thread's state or the instruction it fetches (R82). -/
def execThreadFault (dt th : Nat) (s0 : State) : Res :=
  .next ((s0.after dt).onThreads ((s0.errandOf th).any fun e => e.source != 1) fun s => if 63 < th then s else s.faultThread th)

end Sys2Proof.Machine
end

