-- ==== Sys2Proof/Machine/Boot.lean ====
section
/-!
DEFINITION. Reset and the boot sequence, image loading, hitless activation, confirmation, anti-rollback, the Steward watchdog and
the JTAG port (R511 to R520, R524 to R531, R534, R536, R553, R580, R586).
-/
namespace Sys2Proof.Machine

/-! ### The boot sequence (R513, R514, R517) -/

/-- The Footpath lanes, or the Alley lanes, power up and train (R415, R521). -/
def State.bringUp (s : State) (first n rate : Nat) : State :=
  (List.range n).foldl (fun a i =>
    let l := first + i
    (a.wrs (U.lane l) [(Lane.MODE, 1), (Lane.RATE, rate), (Lane.TX_STATE, 0), (Lane.RX_STATE, 0)]).startTrain l) s

/-- The Barn is trained (R540, R541): every channel that answers takes the smallest capacity found; one that does not enters FAULT. -/
def State.trainBarn (s : State) (mb : List Nat) : State :=
  let found := (mb.take 24).filter (· != 0)
  let cap := found.foldl min (found.headD 0)
  (List.range 24).foldl (fun a c =>
    if mb.getD c 0 = 0 then a.faultUnit (U.chan c) 0
    else ((a.setUnitState (U.chan c) stReady).wrs (U.chan c) [(Chan.CAPACITY_MB, cap), (unitWorkF, a.clk)])) s

/-- An image is started: REMAP, the running slot and what its header gives (R513, step 6). -/
def State.startImage (s : State) (slot : Nat) : State :=
  let w2 := s.hdr slot 2
  (s.wr U.arcade Arcade.REMAP 1).bootSet [(Boot.STAGE, 2), (Boot.SLOT_RUNNING, slot), (Boot.BANK, 0), (Boot.RUN_VERSION, s.hdrVersion slot),
    (Boot.runSvn, s.hdrSvn slot), (Boot.setFormat, s.hdrFormat slot), (Boot.setMin, s.hdrSetMin slot),
    (Boot.twMajor, bitsAt w2 3 0), (Boot.twMin, bitsAt w2 7 4), (Boot.twMax, bitsAt w2 11 8)]

/-- RUNNING is reached. -/
def State.running (s : State) (env : BootEnv) : State :=
  let s1 := ((s.trainBarn env.barnMB).bringUp 292 2 2).bringUp 288 4 0
  let s2 := s1.bootSet [(Boot.STAGE, 3), (Boot.LAST_BOOT_MS, (min 65535 (s1.clk / Config.ms) : Nat))]
  ((s2.post U.boot evFwBooted (s2.bootN Boot.SLOT_RUNNING + s2.bootN Boot.RECOVERY_CAUSE * 2)).postInvalid 0 0).postInvalid 1 0

/-- Recovery mode is entered (R517, R518). -/
def State.recover (s : State) (cause : Nat) : State :=
  let a := s.bootN Boot.SLOTA_CHECK
  let b := s.bootN Boot.SLOTB_CHECK
  let slot := if a ≠ 0 then 0 else if b ≠ 0 then 1 else 1 - s.bootRecord.1
  let s1 := match s.pickCopy fun _ => true with
    | some r => s.useRecords (s.copyRecords r)
    | none => s
  ((s1.bringUp 292 2 2).bootSet [(Boot.STAGE, 4), (Boot.RECOVERY_CAUSE, cause), (Boot.recSlot, slot), (Boot.RUN_VERSION, 0),
    (Boot.TRIAL, s.bootRecord.2.1), (Boot.TRIES, s.bootRecord.2.2)]).post U.boot evFwRecovery (cause * 2 ^ 24)

/-- The slots tried, in order (R514): the first that passes its check. -/
def State.trySlots (s : State) (flashOk : Bool) : List Nat → State × Option Nat
  | [] => (s, none)
  | slot :: rest =>
    let code := s.checkSlot slot flashOk
    let s1 := s.showSlot slot code
    if code = 0 then (s1, some slot) else s1.trySlots flashOk rest

/-- Steps 4 and 5: the slots in the order tried, the boot record's TRIES one less where a trial image is tried (R513, R514). -/
def State.bootOrder (s : State) (flashOk : Bool) : List Nat × State :=
  let (active, trial, tries) := if flashOk then s.bootRecord else (0, 0, 0)
  let pins := s.bootN Boot.BOOT_PINS
  let pref := if pins = 1 then 0 else if pins = 2 then 1 else active
  let spent := decide (pins = 0 ∧ trial = 1 ∧ tries = 0)
  let s1 := s.bootSet [(Boot.STAGE, 1), (Boot.TRIAL, trial), (Boot.TRIES, tries)]
  (if spent then [1 - pref, pref] else [pref, 1 - pref],
    if pins = 0 ∧ trial = 1 ∧ tries ≠ 0 then s1.writeRecord active trial (tries - 1) else s1)
/-- The image of `slot` has looked at the store (R533): it runs, or, refusing it, gives way once to the other slot, and
runs on the defaults the second time. -/
def State.bootRestored (s : State) (env : BootEnv) (again : Option (State → State)) (slot : Nat) (restored : Option State) : State :=
  match restored, again with
  | some t, _ => t.running env
  | none, none => ((s.useRecords []).post U.boot evFwDefault 0).running env
  | none, some next => next (((s.writeRecord (1 - slot) 0 (s.bootN Boot.TRIES)).count U.boot Ctr.Boot.ROLLBACKS).post U.boot evFwRollback 0)
/-- Steps 5 and 6: the first slot that passes starts; with none, recovery (R513, R530). -/
def State.bootImage (env : BootEnv) (again : Option (State → State)) (r : State × Option Nat) : State :=
  match r.2 with
  | none => r.1.recover 2
  | some slot =>
    let s := r.1.startImage slot
    s.bootRestored env again slot (s.restore (s.bootN Boot.setFormat) (s.bootN Boot.setMin) (s.bootN Boot.RUN_VERSION) (env.migrates.getD slot true))
/-- Steps 4 to 7; `again` counts how often a refused settings store may still roll back (R533). -/
def State.bootFrom4 (env : BootEnv) : Nat → State → State
  | 0, s =>
    let r := s.bootOrder env.flashOk
    State.bootImage env none (r.2.trySlots env.flashOk r.1)
  | n + 1, s =>
    let r := s.bootOrder env.flashOk
    State.bootImage env (some (State.bootFrom4 env n)) (r.2.trySlots env.flashOk r.1)

/-- What survives a reset: the flash, the one-time storage, the commands that wait, and the model's own supply of free values. -/
def State.afterReset (s : State) : State :=
  { State.reset with
    flash := s.flash
    nv := s.nv.filter fun e => e.1.unit == nvOtp
    freeIx := s.freeIx
    pending := s.pending }

/-- The device enters reset: every other part of its state takes its reset value, and the Lantern-driven pins their reset levels
(R552, R580). -/
def State.enterReset (s : State) : State :=
  { s.afterReset with outs := [.pin pinTowerSt 0, .pin pinRoleOut 0, .pin pinTwinOk 0] }

/-- RESET_N goes high (R511, R513): the pins are sampled, and the boot sequence runs to RUNNING, recovery or HALT. -/
def State.releaseReset (s : State) (r : ResetIn) : State :=
  let s0 := r.flash.foldl (fun a c => a.flashPut c.1 c.2) s.afterReset
  let s1 := match r.otp with
    | some (k, n) => (s0.setNv nvOtp 0 0 k.toNat).setNv nvOtp 1 0 (min 127 n)
    | none => s0
  let s2 := State.wrs { s1 with clk := r.bootMs * Config.ms } U.boot
    [(Boot.released, 1), (Boot.BOOT_PINS, (r.boot % 4 : Nat)), (Boot.OTP_SVN, s1.fuses)]
  let s3 := (s2.wr U.host Hostp.STATIC_ADDR ((0x48 + r.addr % 8 : Nat))).wr U.twin Twin.SIDE (if r.side then 1 else 0)
  if !r.recoveryN then
    ((s3.showSlot 0 (s3.checkSlot 0 r.env.flashOk)).showSlot 1 (s3.checkSlot 1 r.env.flashOk)).recover 1
  else if r.boot % 4 = 3 then s3.bootSet [(Boot.STAGE, 5)]
  else State.bootFrom4 r.env 1 s3

/-- The device leaves reset only from reset, and only with PWRGOOD high (R580). -/
def execResetRelease (dt : Nat) (r : ResetIn) (s0 : State) : Res :=
  .next (if !r.pwrgood || s0.rb U.boot Boot.released then s0.after dt else s0.releaseReset r)

/-- PWRGOOD falls and stays low for so many nanoseconds (R553, R580). -/
def execPwrgoodFall (dt lowNs : Nat) (s0 : State) : Res := .next (if lowNs < 100 then s0.after dt else s0.enterReset)
/-- RESET_N or PWRGOOD is held low for so many nanoseconds (R580). -/
def execResetAssert (dt lowNs : Nat) (s0 : State) : Res := .next (if lowNs < 100 then s0.after dt else s0.enterReset)

/-! ### Image instructions (R519, R520, R523) -/

/-- WHICH names this device for the thread's instruction (R519): a copy that the partner forwarded is named by PARTNER and BOTH,
any other by SELF and BOTH. -/
def State.named519 (s : State) (t sub : Nat) : Bool :=
  let which := bitsAt sub 2 1
  let copy := (s.errandOf t).any fun e => e.source == 1
  which == 2 || (if copy then which == 1 else which == 0)
/-- The slot that `imgload` writes. -/
def State.loadSlot (s : State) : Nat := if s.bootN Boot.STAGE = 4 then s.bootN Boot.recSlot else 1 - s.bootN Boot.SLOT_RUNNING

/-- A thread number that no thread has: segments that the Footpath ring brings. -/
abbrev ringTh : Nat := 1000
/-- Flash operations of instructions under way. -/
def State.loads (s : State) : Nat := (s.bg.filter fun b => b.op == 0xF3 && b.th != ringTh).length

/-- Offset 0 with a new DIST_ID starts the slot over: it is erased and WRITING (R520). -/
def State.beginSegment (s : State) (dist offset : Nat) (ring : Bool) : State :=
  if offset = 0 ∧ s.bootN Boot.imgDist ≠ dist + 1 then
    (s.flashErase (slotBase s.loadSlot) 0x400000).bootSet [(Boot.imgDist, dist + 1), (Boot.imgRing, if ring then 1 else 0), (slotState s.loadSlot, 2)]
  else s

/-- A SEGMENT goes down the ring; the report table starts over with a new DIST_ID (R523, R573). -/
def State.sendSegment (s : State) (dist sub : Nat) (ps : List Word) : State :=
  let s1 := if s.bootN Boot.ownDist = dist + 1 then s
    else State.bootSet { s with ringReports := [] } [(Boot.ownDist, dist + 1), (Boot.ownReports, 0)]
  s1.footSend 2 0x50 (ringWord (s1.bootN Boot.NODE) 0xFFFF (bitsAt sub 10 5) dist :: BitVec.ofNat 64 (sub % 2048) :: ps)

/-- Form of `imgload` (Table 19.6). -/
def imgloadForm (i : Issue) (kind : Nat) : Checks :=
  let w := (i.params.headD 0).toNat
  let off := bitsAt w 31 0
  let ring := bitAt i.sub 4
  let hops := bitsAt i.sub 10 5
  [(.format, i.badFlags true false true false || bitsAt i.sub 23 11 != 0 || bitsAt i.sub 0 0 != kind || i.npw != i.params.length ||
      decide (i.npw < 2) || bitsAt w 63 32 != 0),
    (.range, i.group || bitsAt i.sub 2 1 == 3 || off % 8 != 0 || decide (slotBytes < off + 8 * (i.npw - 1)) || (ring && kind == 1) ||
      (if ring then hops == 0 else hops != 0))]

def judgeImgload (i : Issue) (s : State) : Judged :=
  let off := bitsAt (i.params.headD 0).toNat 31 0
  let copy := (s.errandOf i.th).any fun e => e.source == 1
  let named := s.named519 i.th i.sub
  let sent := if bitAt i.sub 4 && !copy then s.sendSegment i.index i.sub i.params else s
  let vals : List Int := (off : Int) :: -1 :: (i.params.drop 1).map fun w => (w.toNat : Int)
  { checks := imgloadForm i 0 ++
      [(.locked, named && (s.stewardBusy || (off != 0 && s.bootN Boot.imgDist != i.index + 1))), (.bandwidth, named && decide (4 ≤ s.loads))]
    verdict := if named then .start (sent.beginSegment i.index off false) 0xF3 i.index i.sub vals s.clk else .act s
    permit := 1, recovery := true }
def execImgload (i : Issue) (s : State) : Res := .next (s.issue i .other (judgeImgload i))

/-- Records of a settings load (R534): each replaces the record of its tag, LEN 0 deletes it. -/
def mergeRecords (old new : List (Nat × Nat × List Nat)) : List (Nat × Nat × List Nat) :=
  new.foldl (fun acc r =>
    let rest := acc.filter fun x => x.1 != r.1
    if r.2.1 = 0 then rest else rest ++ [r]) old
/-- Records of the copy in use. -/
def State.recordsInUse (s : State) : List (Nat × Nat × List Nat) :=
  if s.bootN Boot.setRegion = 0 then defaultRecords else s.copyRecords (s.bootN Boot.setRegion - 1)

def judgeImgloadSettings (i : Issue) (s : State) : Judged :=
  let off := bitsAt (i.params.headD 0).toNat 31 0
  let named := s.named519 i.th i.sub
  let ws := (i.params.drop 1).map (·.toNat)
  let recs := recordsOf ws.length ws
  let merged := mergeRecords s.recordsInUse (recs.getD [])
  { checks := imgloadForm i 1 ++ [(.range, off != 0 || !bitAt i.sub 3),
      (.format, recs.isNone || (recs.getD []).any (fun r => decide (3 < r.1) || r.1 == 0) || decide (65504 < 8 * (wordsOfRecords merged).length)),
      (.locked, named && (s.stewardBusy || s.rb U.boot Boot.TRIAL)), (.bandwidth, named && decide (4 ≤ s.loads))]
    verdict := if named then .start s 0xF3 i.index i.sub (0 :: -1 :: ws.map fun (w : Nat) => (w : Int)) s.clk else .act s
    permit := 1 }
def execImgloadSettings (i : Issue) (s : State) : Res := .next (s.issue i .other (judgeImgloadSettings i))

/-- LAST is reached: the whole slot is checked; CHECK and the final code (R520). -/
def State.finishImage (s : State) (flashOk : Bool) : Nat × Nat × State :=
  let slot := s.loadSlot
  let check := s.checkSlot slot flashOk
  let code := if check = 0 then 0 else if check = 3 ∨ check = 6 then Code.version.num else Code.format.num
  let s1 := (((s.showSlot slot check).bootSet [(Boot.imgDist, 0)]).post U.boot evFwVerified check)
  (check, code, if s.bootN Boot.STAGE = 3 then s1.postInvalid slot 2 else s1)

/-- REPORT to the origin of a distribution (R523). -/
def State.sendReport (s : State) (origin dist code check : Nat) : State :=
  s.footSend 2 0x51 [ringWord origin origin 63 dist,
    BitVec.ofNat 64 (s.bootN Boot.NODE % 65536 + code * 2 ^ 16 + check * 2 ^ 24 + s.bootN (slotVersion s.loadSlot) * 2 ^ 32)]

/-- A segment or a settings copy is in the flash (R520, R523, R534). -/
def execImgloadDone (dt th : Nat) (flashOk : Bool) (s0 : State) : Res :=
  let s := s0.after dt
  .next (match s.bgFirst 0xF3 th with
    | none => s
    | some b =>
      let off := (b.vals.headD 0).toNat
      let origin := b.vals.getD 1 (-1)
      let ws := (b.vals.drop 2).map Int.toNat
      if bitAt b.sub 0 then
        let r := if s.bootN Boot.setRegion = 0 then 0 else 2 - s.bootN Boot.setRegion
        let fmt := if s.bootN Boot.setRegion = 0 then s.bootN Boot.setFormat else s.bootN Boot.SETTINGS_FORMAT
        let merged := mergeRecords s.recordsInUse ((recordsOf ws.length ws).getD [])
        ((s.writeCopy r fmt (s.bootN Boot.SETTINGS_SEQ + 1) (s.bootN Boot.RUN_VERSION) 0 merged).useCopy r).finishBg b 0
      else
        let s1 := (s.flashPutWords (slotBase s.loadSlot + off) ws).count U.boot Ctr.Boot.IMAGE_SEGMENTS
        if bitAt b.sub 3 then
          let (check, code, s2) := s1.finishImage flashOk
          let code' := if 0 ≤ origin ∧ s2.bootN Boot.ringCode ≠ 0 then s2.bootN Boot.ringCode else code
          let s3 := if 0 ≤ origin then s2.sendReport origin.toNat b.index code' check else s2
          s3.finishBg b code
        else s1.finishBg b 0)

/-! ### Activation (R524 to R528) -/

/-- The twin version rule of R440 holds with the image of a slot. -/
def State.twinFits (s : State) (slot pMin pMax : Nat) : Bool :=
  let w := s.hdr slot 2
  let major := s.twN Twin.PARTNER_MAJOR
  s.tw Twin.PAIR != prInStep ||
    (decide (bitsAt w 7 4 ≤ major) && decide (major ≤ bitsAt w 11 8) && decide (pMin ≤ bitsAt w 3 0) && decide (bitsAt w 3 0 ≤ pMax))

/-- In recovery: the record names the recovery slot and the boot sequence restarts at step 4 (R518). -/
def State.restartFromRecovery (s : State) (env : BootEnv) : State :=
  State.bootFrom4 env 1 ((s.writeRecord (s.bootN Boot.recSlot) 1 3).bootSet [(Boot.RECOVERY_CAUSE, 0)])

/-- `imgactivate`: the level of RECOVERY_N, the range of TWIN_MAJOR that the partner's image serves, and what a restart meets. -/
def judgeImgactivate (i : Issue) (recoveryN : Bool) (pMin pMax : Nat) (env : BootEnv) (s : State) : Judged :=
  let named := s.named519 i.th i.sub
  let slot := s.loadSlot
  let rec_ := s.bootN Boot.STAGE == 4
  let plan := bitsAt i.sub 6 3
  let lo := s.hdrSetMin slot
  let hi := s.hdrFormat slot
  let fits := (s.pickCopy fun f => decide (lo ≤ f) && decide (f ≤ hi)).isSome
  { checks := [(.format, i.badFlags true false true false || bitsAt i.sub 0 0 != 0 || bitsAt i.sub 23 7 != 0 || i.npw != 1 || i.params.length != 1),
      (.range, i.group || i.index != 0 || bitsAt i.sub 2 1 == 3),
      (.nounit, named && !rec_ && !s.planOn plan),
      (.locked, named && (s.bootN (slotState slot) != 3 || (if rec_ then !recoveryN else s.stewardBusy || s.rb U.boot Boot.TRIAL))),
      (.version, named && !rec_ && (decide (s.hdrSvn slot < s.fuses) || !s.twinFits slot pMin pMax || !fits))]
    verdict := if !named then .act s else if rec_ then .act (s.restartFromRecovery env)
      else .start (s.bootSet [(Boot.ACT_STATE, 1)]) 0xF4 0 i.sub [((i.params.headD 0).toNat : Int), 0] s.clk
    permit := 1, recovery := true }
def execImgactivate (i : Issue) (recoveryN : Bool) (pMin pMax : Nat) (env : BootEnv) (s : State) : Res := .next (s.issue i .other (judgeImgactivate i recoveryN pMin pMax env))

/-- The activation under way. -/
def State.activation (s : State) : Option BgOp := s.bg.find? (·.op == 0xF4)
/-- The activation ends without the new image: its code, with the boot record unchanged (R525). -/
def State.endActivation (s : State) (b : BgOp) (code : Nat) : State :=
  ((s.bootSet [(Boot.ACT_STATE, 0)]).count U.boot Ctr.Boot.ACTIVATION_ABORTS).finishBg b code

/-- The payload is in the free bank and its hash is checked. -/
def execActivationLoaded (dt : Nat) (ok : Bool) (s0 : State) : Res :=
  let s := s0.after dt
  .next (match s.activation with
    | none => s
    | some b => if s.bootN Boot.ACT_STATE ≠ 1 then s
      else if ok && s.payloadOk s.loadSlot then s.bootSet [(Boot.ACT_STATE, 2)]
      else s.endActivation b Code.fault.num)

/-- Handover tick and whether it is late (R524, R525). -/
def State.handoverTick (s : State) (plan : Nat) (n : Int) : Int × Bool :=
  if n = 0 then (s.firstMeeting plan (s.now + Config.ms), false)
  else
    let first := s.firstMeeting plan s.now
    if n < first then (first, true) else (n, false)

/-- Settings of an older format that the new image takes are migrated where no copy of its own format stands, and the tick of the handover is
set, with LATE marked where the one named can no longer be met (R524, R525). -/
def State.prepare (s : State) (b : BgOp) : State :=
  let fmt := s.hdrFormat s.loadSlot
  let from_ := s.pickCopy fun f => decide (s.hdrSetMin s.loadSlot ≤ f) && decide (f < fmt)
  let same := (s.pickCopy (· == fmt)).isSome
  let s1 := match same, from_ with
    | false, some r => (s.migrate r fmt (s.hdrVersion s.loadSlot)).post U.boot evFwMigrated 0
    | _, _ => s
  let (n, late) := s1.handoverTick (bitsAt b.sub 6 3) (b.vals.headD 0)
  let b' := { b with vals := [b.vals.headD 0, if late then 1 else 0] }
  State.bootSet { s1 with bg := s1.bg.map fun x => if x.pid = b.pid then b' else x } [(Boot.ACT_STATE, 3), (Boot.ACT_TICK, n)]

/-- The new image's migration entry has run, or refuses. -/
def execActivationPrepared (dt : Nat) (ok : Bool) (s0 : State) : Res :=
  let s := s0.after dt
  .next (match s.activation with
    | none => s
    | some b => if s.bootN Boot.ACT_STATE ≠ 2 then s
      else if !ok then s.endActivation b Code.version.num
      else s.prepare b)

/-- The handover tick has come: BANK and RUN_VERSION move. -/
def execActivationHandover (dt : Nat) (s0 : State) : Res :=
  let s := s0.after dt
  .next (match s.activation with
    | none => s
    | some b =>
      if s.bootN Boot.ACT_STATE ≠ 3 ∨ s.rd (U.plan (bitsAt b.sub 6 3)) Plan.TICK < s.bootN Boot.ACT_TICK then s
      else s.bootSet [(Boot.ACT_STATE, 4), (Boot.handAt, s.clk), (Boot.oldVersion, s.bootN Boot.RUN_VERSION),
        (Boot.BANK, ((1 - s.bootN Boot.BANK : Nat))), (Boot.RUN_VERSION, s.hdrVersion s.loadSlot)])

/-- The new image reports itself resumed within 20 ms. -/
def execActivationResumed (dt : Nat) (s0 : State) : Res :=
  let s := s0.after dt
  .next (match s.activation with
    | none => s
    | some b =>
      if s.bootN Boot.ACT_STATE ≠ 4 ∨ s.bootN Boot.handAt + 20 * Config.ms < s.clk then s
      else
        let slot := s.loadSlot
        let w2 := s.hdr slot 2
        let s1 := (s.writeRecord slot 1 3).bootSet [(Boot.ACT_STATE, 0), (Boot.SLOT_RUNNING, slot), (Boot.runSvn, s.hdrSvn slot),
          (Boot.setFormat, s.hdrFormat slot), (Boot.setMin, s.hdrSetMin slot), (Boot.twMajor, bitsAt w2 3 0), (Boot.twMin, bitsAt w2 7 4), (Boot.twMax, bitsAt w2 11 8)]
        let s2 := match s1.pickCopy (· == s.hdrFormat slot) with
          | some r => s1.useCopy r
          | none => s1
        ((s2.count U.boot Ctr.Boot.ACTIVATIONS).post U.boot evFwActivated 0).finishBg b (if b.vals.getD 1 0 = 1 then Code.late.num else 0))

/-- 20 ms after the tick the new image has not resumed: the old bank is mapped back (R526). -/
def execActivationAbort (dt : Nat) (s0 : State) : Res :=
  let s := s0.after dt
  .next (match s.activation with
    | none => s
    | some b =>
      if s.bootN Boot.ACT_STATE ≠ 4 ∨ s.clk < s.bootN Boot.handAt + 20 * Config.ms then s
      else
        let s1 := s.bootSet [(Boot.BANK, ((1 - s.bootN Boot.BANK : Nat))), (Boot.RUN_VERSION, s.bootN Boot.oldVersion)]
        let s2 := match s1.pickCopy (· == s1.bootN Boot.setFormat) with
          | some r => s1.useCopy r
          | none => s1
        (s2.post U.boot evFwAborted 0).endActivation b Code.fault.num)

/-! ### Confirmation and anti-rollback (R530, R531) -/

/-- The record with TRIAL 0; no write if it is 0 already. -/
def State.confirm (s : State) : State :=
  if s.rb U.boot Boot.TRIAL then s.writeRecord (s.bootN Boot.SLOT_RUNNING) 0 (s.bootN Boot.TRIES) else s

/-- Form of `imgadvance` (Table 19.6). -/
def imgadvanceForm (i : Issue) (advance : Bool) : Checks :=
  [(.format, i.badFlags true false true false || bitsAt i.sub 0 0 != 0 || bitsAt i.sub 23 5 != 0 || bitAt i.sub 4 != advance || i.npw != 0 || !i.params.isEmpty),
    (.range, i.group || i.index != 0 || bitsAt i.sub 2 1 == 3)]

def judgeConfirm (i : Issue) (s : State) : Judged :=
  let named := s.named519 i.th i.sub
  { checks := imgadvanceForm i false ++ [(.locked, named && s.stewardBusy)]
    verdict := .act (if named && bitAt i.sub 3 then s.confirm else s), permit := 1 }
def execConfirm (i : Issue) (s : State) : Res := .next (s.issue i .other (judgeConfirm i))

def judgeAdvance (i : Issue) (s : State) : Judged :=
  let named := s.named519 i.th i.sub
  let confirm := bitAt i.sub 3
  let s1 := if confirm then s.confirm else s
  { checks := imgadvanceForm i true ++ [(.locked, named && (s.stewardBusy || (s.rb U.boot Boot.TRIAL && !confirm)))]
    verdict := if !named then .act s
      else if s.bootN Boot.runSvn ≤ s.fuses then .act s1
      else .start s1 0xF5 0 i.sub [] s.clk
    permit := 1 }
def execAdvance (i : Issue) (s : State) : Res := .next (s.issue i .other (judgeAdvance i))

/-- One fuse has been written: it reads back blown, or not (R531). -/
def execFuseBlown (dt : Nat) (ok : Bool) (s0 : State) : Res :=
  let s := s0.after dt
  let mine := s.bg.filter (·.op == 0xF5)
  .next (if mine.isEmpty then s
    else if !ok then mine.foldl (fun a b => a.finishBg b Code.fault.num) s
    else
      let n := s.fuses + 1
      let s1 := (s.setNv nvOtp 1 0 n).bootSet [(Boot.OTP_SVN, n)]
      if n < s1.bootN Boot.runSvn then s1
      else mine.foldl (fun a b => a.finishBg b 0) (s1.post U.boot evFwSvn (n % 256)))

/-! ### Watchdog and JTAG (R536, R586) -/

/-- The Steward restarts alone; after three expiries within 60 s it stays halted. -/
def execWatchdogExpiry (dt : Nat) (s0 : State) : Res :=
  let s := s0.after dt
  .next (if s.bootN Boot.STAGE ≠ 3 then s
    else
      let third := s.rb U.boot Boot.dog2 && decide (s.clk + 1 ≤ s.bootN Boot.dog2 + 60 * Config.second)
      let s1 := (s.count U.boot Ctr.Boot.WATCHDOG_RESETS).post U.boot evFwWatchdog 0
      s1.bootSet [(Boot.dog2, s.bootN Boot.dog1), (Boot.dog1, ((s.clk + 1 : Nat))), (Boot.STAGE, if third then 6 else 3)])

/-- Words that the debug master reads in a host window. -/
def State.jtagWords (s : State) (a : Nat) : Nat → List Word × State
  | 0 => ([], s)
  | n + 1 =>
    let (w, s1) := s.arcadeRead (U.master 7) a
    let (ws, s2) := s1.jtagWords (a + 8) n
    (w :: ws, s2)

/-- An access of the debug master: `n` words read, or, in HALT, one word written to the Ledger, a register or the Barn. -/
def execJtagAccess (dt addr n : Nat) (write : Option Word) (s0 : State) : Res :=
  let s := s0.after dt
  let halt := s.bootN Boot.STAGE == 5
  .next (if addr % 8 ≠ 0 then s
    else match windowOf addr, write with
      | none, _ => s
      | some w, none =>
        if windowOf (addr + 8 * (n - 1)) = some w then
          let r := (s.arcadeUse (U.master 7) addr n).jtagWords addr n
          r.2.emit (.jtag r.1)
        else s
      | some w, some v =>
        if !halt then s
        else
          let s1 := s.arcadeUse (U.master 7) addr 1
          if w = 0 then s1.ldput ((addr - 0x20000000) / 8) v
          else if w = 1 then s1.writeWord addr v
          else if w = 3 then s1.barnWrites (addr - 0x100000000) [v]
          else s1)

end Sys2Proof.Machine
end

