-- ==== Sys2Proof/Machine/Footpath.lean ====
section
/-!
DEFINITION. The Footpath ring: HELLO, links, routing of ring messages, segments and reports (R521 to R523, R528, R537).
-/
namespace Sys2Proof.Machine

/-- The Footpath PLL is locked: LOSC has not failed since reset (R521). -/
def State.fpRuns (s : State) : Bool :=
  !bitAt (s.rn U.power deadClocksF) 4 && (s.bootN Boot.STAGE == 3 || s.bootN Boot.STAGE == 4 || s.bootN Boot.STAGE == 6)
def State.fpUp (s : State) (link : Nat) : Bool := s.rb U.boot (Fp.up link)
def State.fpCount (s : State) (link c : Nat) : State := s.count U.boot (Fp.ctr link c)

/-- HELLO leaves on both links, every 1 ms (Table 19.7). -/
def execHello (dt : Nat) (s0 : State) : Res :=
  let s := s0.after dt
  let w := BitVec.ofNat 64 (s.bootN Boot.NODE + s.bootN Boot.RUN_VERSION * 2 ^ 16 + s.bootN Boot.STAGE * 2 ^ 48)
  .next (if s.fpRuns then (s.footSend 1 1 [w]).footSend 2 1 [w] else s)

/-- A message with a bad CRC, or with an unknown type, a wrong length or a reserved bit set, is discarded; an acknowledged type is
asked for again (R537). -/
def State.fpBad (s : State) (link : Nat) (m : LinkMsg) (acked : Bool) : State :=
  let s1 := if !goodCrc m then s.countLimited U.boot (Fp.ctr link Ctr.FpLink.FP_CRC_ERRORS) 0 0
    else s.countLimited U.boot (Fp.ctr link Ctr.FpLink.FP_FORMAT_ERRORS) 0x0B12 0
  if acked then s1.footSend link 0x7F [BitVec.ofNat 64 m.seq] else s1

/-- Messages kept while the link was DOWN leave again when it comes UP. -/
def State.resendKept (s : State) (link : Nat) : State := (Tbl.get ⟨link, 0⟩ [] s.links).foldl (fun a m => a.resend link m) s

/-- A HELLO keeps its link UP, names the neighbour and shows a clash of NODE (R521, R537). -/
def execHelloRx (dt link : Nat) (m : LinkMsg) (s0 : State) : Res :=
  let s := s0.after dt
  let w := (m.body.headD 0).toNat
  .next (if (link ≠ 1 ∧ link ≠ 2) ∨ s.fpRuns = false then s
    else if !goodCrc m || m.typ != 1 || m.body.length != 1 || bitsAt w 63 51 != 0 then s.fpBad link m false
    else
      let s1 := s.bootSet [(Fp.up link, 1), (Fp.helloAt link, ((s.clk + 1 : Nat))), (Boot.nbNode link, (bitsAt w 15 0 : Nat)),
        (Boot.nbVersion link, (bitsAt w 47 16 : Nat)), (Boot.nbStage link, (bitsAt w 50 48 : Nat))]
      let s2 := if s.fpUp link then s1 else (s1.post U.boot 0x0B11 (link - 1)).resendKept link
      if bitsAt w 15 0 = s.bootN Boot.NODE then s2.countLimited U.boot (Fp.ctr link Ctr.FpLink.FP_NODE_CLASHES) 0x0B13 0 else s2)

/-- 3 ms after the last valid HELLO the link is DOWN. -/
def execFpLinkDown (dt link : Nat) (s0 : State) : Res :=
  let s := s0.after dt
  .next (if (link ≠ 1 ∧ link ≠ 2) ∨ s.fpUp link = false ∨ s.clk + 1 < s.bootN (Fp.helloAt link) + 3 * Config.ms then s
    else (s.bootSet [(Fp.up link, 0)]).countLimited U.boot (Fp.ctr link Ctr.FpLink.FP_LINK_DOWNS) 0x0B10 (link - 1))

/-- Ring messages held for a DOWN link are discarded after 100 ms. -/
def execFpHoldDiscard (dt link : Nat) (s0 : State) : Res :=
  let s := s0.after dt
  .next (if (link ≠ 1 ∧ link ≠ 2) ∨ s.fpUp link = true then s
    else ((Tbl.get ⟨link, 0⟩ [] s.links).filter fun m => decide (s.cellNv (nvSentAt link) m.seq 0 + 100 * Config.ms ≤ s.clk + 1)).foldl
      (fun a m => a.release link m.seq) s)

/-! ### Routing (R522) -/

def ringOrigin (w : Nat) : Nat := bitsAt w 15 0
def ringDest (w : Nat) : Nat := bitsAt w 31 16
def ringHops (w : Nat) : Nat := bitsAt w 37 32
def ringDist (w : Nat) : Nat := bitsAt w 63 48

/-- A ring message received from upstream: forwarded where R522 says so, then delivered by `f` where this node is named. REPLY and
REPORT (`back`) are delivered at ORIGIN only. -/
def State.ringRoute (s : State) (m : LinkMsg) (back : Bool) (f : State → State) : State :=
  let w := (m.body.headD 0).toNat
  let node := s.bootN Boot.NODE
  if ringOrigin w = node then (if back then (f s).fpCount 1 Ctr.FpLink.FP_DELIVERED else s)
  else
    let mine := !back && ringDest w == node
    let named := mine || (!back && ringDest w == 0xFFFF)
    let s1 := if mine then s
      else if ringHops w ≠ 0 then
        (s.footSend 2 m.typ (ringWord (ringOrigin w) (ringDest w) (ringHops w - 1) (ringDist w) :: m.body.drop 1)).fpCount 1 Ctr.FpLink.FP_FORWARDED
      else if named then s else s.countLimited U.boot (Fp.ctr 1 Ctr.FpLink.FP_HOPS_EXPIRED) 0 0
    if named then (f s1).fpCount 1 Ctr.FpLink.FP_DELIVERED else s1

/-- A ring message arrives on the upstream link: a bad one is refused; any other is acknowledged, and acts once. `busy` refuses it
for want of room (R537). -/
def State.ringTake (s : State) (m : LinkMsg) (typ least : Nat) (busy : Bool) (f : State → State) : State :=
  if !s.fpRuns || !s.fpUp 1 then s
  else if !goodCrc m || m.typ != typ || decide (m.body.length < least) || bitsAt (m.body.headD 0).toNat 47 38 != 0 then s.fpBad 1 m true
  else if busy then (s.countLimited U.boot (Fp.ctr 1 Ctr.FpLink.FP_QUEUE_FULL) 0 0).footSend 1 0x7F [BitVec.ofNat 64 m.seq]
  else
    let s1 := s.footSend 1 0x7E [BitVec.ofNat 64 m.seq]
    let seen := s1.buf U.boot 53
    if seen.contains (m.seq : Int) then s1 else f (s1.setBuf U.boot 53 (seen.drop (seen.length - 255) ++ [(m.seq : Int)]))

/-- An errand for queue 9: the errand's source is its origin. -/
def execFpErrand (dt : Nat) (m : LinkMsg) (s0 : State) : Res :=
  let s := s0.after dt
  let w := (m.body.headD 0).toNat
  let ws := m.body.drop 1
  let here := ringOrigin w != s.bootN Boot.NODE && (ringDest w == s.bootN Boot.NODE || ringDest w == 0xFFFF)
  let full := decide (ringWords < s.wordsQueued 9 + ws.length)
  .next (s.ringTake m 4 2 (here && full) fun a => a.ringRoute m false fun b => b.receiveErrand 9 (3 + ringOrigin w) ws true)

/-- A reply of a queue 9 errand: delivered at its origin, where the spec gives it no further place. -/
def execFpReply (dt : Nat) (m : LinkMsg) (s0 : State) : Res :=
  .next ((s0.after dt).ringTake m 5 3 false fun a => a.ringRoute m true fun b => b)

/-- A bulk table for the Ledger: first index, then the words (R83). -/
def execFpBulk (dt : Nat) (m : LinkMsg) (s0 : State) : Res :=
  .next ((s0.after dt).ringTake m 0x40 3 false fun a => a.ringRoute m false fun b =>
    let first := (m.body.getD 1 0).toNat
    let ws := m.body.drop 2
    if b.bootN Boot.STAGE = 4 ∨ 65536 < first + ws.length then b else b.ldputs first ws)

/-! ### Distribution (R523) -/

/-- SUB or OFFSET of a segment is bad (Table 19.11). -/
def segmentBad (m : LinkMsg) : Bool :=
  let sub := (m.body.getD 1 0).toNat
  let w := (m.body.getD 2 0).toNat
  let off := bitsAt w 31 0
  decide (2048 ≤ sub) || bitAt sub 0 || !bitAt sub 4 || bitsAt sub 10 5 == 0 || bitsAt sub 2 1 == 3 || bitsAt w 63 32 != 0 || off % 8 != 0 ||
    decide (slotBytes < off + 8 * (m.body.length - 3))

/-- The node does not write its copy: RING_ACCEPT is 0, or `imgload` writes the slot, or the Steward is busy. -/
def State.skipsRing (s : State) : Bool :=
  !s.rb U.boot Boot.ringAccept || (s.bootN Boot.imgDist != 0 && !s.rb U.boot Boot.imgRing) || s.loads != 0 || s.stewardBusy

/-- A segment for this node's own slot: written, refused, lost or skipped. -/
def State.takeSegment (s : State) (m : LinkMsg) : State :=
  let w := (m.body.headD 0).toNat
  let dist := ringDist w
  let sub := (m.body.getD 1 0).toNat
  let off := bitsAt (m.body.getD 2 0).toNat 31 0
  if segmentBad m then
    (s.countLimited U.boot (Fp.ctr 1 Ctr.FpLink.FP_FORMAT_ERRORS) 0 0).sendReport (ringOrigin w) dist Code.format.num 0
  else if s.skipsRing then
    if s.bootN Boot.skipDist = dist + 1 then s
    else (s.bootSet [(Boot.skipDist, ((dist + 1 : Nat)))]).count U.boot Ctr.Boot.RING_SKIPPED
  else
    let s1 := if s.bootN Boot.ringDist = dist + 1 ∧ off ≠ 0 then s else s.bootSet [(Boot.ringDist, ((dist + 1 : Nat))), (Boot.ringCode, 0)]
    let waiting := (s1.bg.filter fun b => b.op == 0xF3 && b.th == ringTh).length
    let code : Nat := if 32 ≤ waiting then Code.bandwidth.num
      else if off ≠ 0 ∧ s1.bootN Boot.imgDist ≠ dist + 1 then Code.locked.num else 0
    if code ≠ 0 then
      let s2 := s1.bootSet [(Boot.ringCode, code)]
      if bitAt sub 3 then s2.sendReport (ringOrigin w) dist code 0 else s2
    else
      let (pid, s2) := (s1.beginSegment dist off true).fresh
      { s2 with bg := s2.bg ++ [⟨pid, ringTh, 0xF3, dist, sub, (off : Int) :: (ringOrigin w : Int) :: (m.body.drop 3).map (fun (x : Word) => (x.toNat : Int)), s2.clk⟩] }

def execSegment (dt : Nat) (m : LinkMsg) (s0 : State) : Res :=
  .next ((s0.after dt).ringTake m 0x50 4 false fun a => a.ringRoute m false fun b => b.takeSegment m)

/-- A report reaches the origin's table: entry k holds the k-th report of the distribution (R523, R573). -/
def State.takeReport (s : State) (m : LinkMsg) : State :=
  let w := (m.body.headD 0).toNat
  let k := s.bootN Boot.ownReports
  if s.bootN Boot.ownDist ≠ ringDist w + 1 then s.count U.boot (Fp.ctr 1 Ctr.FpLink.FP_FORMAT_ERRORS)
  else
    let s1 := if k < 64 then { s with ringReports := Tbl.set ⟨0, k⟩ 0 (m.body.getD 1 0) s.ringReports } else s
    ((s1.bootSet [(Boot.ownReports, ((k + 1 : Nat)))]).count U.boot Ctr.Boot.RING_REPORTS).post U.boot 0x0B14 0

def execReport (dt : Nat) (m : LinkMsg) (s0 : State) : Res :=
  let bad := bitsAt (m.body.getD 1 0).toNat 31 28 != 0 || m.body.length != 2
  .next ((s0.after dt).ringTake m 0x51 (if bad then m.body.length + 1 else 2) false fun a => a.ringRoute m true fun b => b.takeReport m)

/-- An ACK frees the message it names; a NAK has it sent again (R416, R521). -/
def execFpAck (dt link : Nat) (m : LinkMsg) (s0 : State) : Res :=
  let s := s0.after dt
  .next (if (link = 1 ∨ link = 2) ∧ goodCrc m = true ∧ m.typ = 0x7E ∧ s.fpRuns = true then s.release link (ackSeq m) else s)
def execFpNak (dt link : Nat) (m : LinkMsg) (s0 : State) : Res :=
  let s := s0.after dt
  .next (if (link = 1 ∨ link = 2) ∧ goodCrc m = true ∧ m.typ = 0x7F ∧ s.fpRuns = true ∧ s.fpUp link = true then
      match s.keptMsg link (ackSeq m) with
      | some x => s.resend link x
      | none => s
    else s)

end Sys2Proof.Machine
end

