-- ==== Sys2Proof/Machine/Dispatch.lean ====
section
/-!
DEFINITION. The dispatch of a command to its meaning, one arm per row of the opcode table.
-/
namespace Sys2Proof.Machine

/-- The effect of a command on everything but the queue. -/
def exec (i : Instr) (s : State) : Host.Outcome State Fault Refusal :=
  match i with
  | .nop it => Sys2Proof.Machine.execNop it s
  | .halt it => Sys2Proof.Machine.execHalt it s
  | .br it => Sys2Proof.Machine.execBr it s
  | .bp it => Sys2Proof.Machine.execBp it s
  | .call it => Sys2Proof.Machine.execCall it s
  | .ret it => Sys2Proof.Machine.execRet it s
  | .salvo it => Sys2Proof.Machine.execSalvo it s
  | .endsalvo it => Sys2Proof.Machine.execEndsalvo it s
  | .waittick it => Sys2Proof.Machine.execWaittick it s
  | .waittime it => Sys2Proof.Machine.execWaittime it s
  | .waitcapt it => Sys2Proof.Machine.execWaitcapt it s
  | .target it => Sys2Proof.Machine.execTarget it s
  | .sync it => Sys2Proof.Machine.execSync it s
  | .li it => Sys2Proof.Machine.execLi it s
  | .mov it => Sys2Proof.Machine.execMov it s
  | .add it => Sys2Proof.Machine.execAdd it s
  | .sub it => Sys2Proof.Machine.execSub it s
  | .andOp it => Sys2Proof.Machine.execAnd it s
  | .orOp it => Sys2Proof.Machine.execOr it s
  | .xorOp it => Sys2Proof.Machine.execXor it s
  | .shl it => Sys2Proof.Machine.execShl it s
  | .shr it => Sys2Proof.Machine.execShr it s
  | .cmp it => Sys2Proof.Machine.execCmp it s
  | .bit it => Sys2Proof.Machine.execBit it s
  | .pset it => Sys2Proof.Machine.execPset it s
  | .take it => Sys2Proof.Machine.execTake it s
  | .taker it => Sys2Proof.Machine.execTaker it s
  | .btake it => Sys2Proof.Machine.execBtake it s
  | .lock it => Sys2Proof.Machine.execLock it s
  | .protect it => Sys2Proof.Machine.execProtect it s
  | .unlock it => Sys2Proof.Machine.execUnlock it s
  | .sheafset it => Sys2Proof.Machine.execSheafset it s
  | .sheafadd it => Sys2Proof.Machine.execSheafadd it s
  | .sheafclr it => Sys2Proof.Machine.execSheafclr it s
  | .loudreset it => Sys2Proof.Machine.execLoudreset it s
  | .headset it => Sys2Proof.Machine.execHeadset it s
  | .layerset it => Sys2Proof.Machine.execLayerset it s
  | .headcommit it => Sys2Proof.Machine.execHeadcommit it s
  | .grancfg it => Sys2Proof.Machine.execGrancfg it s
  | .subcfg it => Sys2Proof.Machine.execSubcfg it s
  | .plancfg it => Sys2Proof.Machine.execPlancfg it s
  | .cellcfg it => Sys2Proof.Machine.execCellcfg it s
  | .kerbcfg it => Sys2Proof.Machine.execKerbcfg it s
  | .bundlecfg it => Sys2Proof.Machine.execBundlecfg it s
  | .signcfg it => Sys2Proof.Machine.execSigncfg it s
  | .watchcfg it => Sys2Proof.Machine.execWatchcfg it s
  | .retcfg it => Sys2Proof.Machine.execRetcfg it s
  | .tribcfg it => Sys2Proof.Machine.execTribcfg it s
  | .pllcfg it => Sys2Proof.Machine.execPllcfg it s
  | .lanecfg it => Sys2Proof.Machine.execLanecfg it s
  | .laneeq it => Sys2Proof.Machine.execLaneeq it s
  | .lanetrain it => Sys2Proof.Machine.execLanetrain it s
  | .lanepwr it => Sys2Proof.Machine.execLanepwr it s
  | .lanetest it => Sys2Proof.Machine.execLanetest it s
  | .maccfg it => Sys2Proof.Machine.execMaccfg it s
  | .slotcfg it => Sys2Proof.Machine.execSlotcfg it s
  | .rampcfg it => Sys2Proof.Machine.execRampcfg it s
  | .deembcfg it => Sys2Proof.Machine.execDeembcfg it s
  | .tonecfg it => Sys2Proof.Machine.execTonecfg it s
  | .afvcfg it => Sys2Proof.Machine.execAfvcfg it s
  | .embcfg it => Sys2Proof.Machine.execEmbcfg it s
  | .limcfg it => Sys2Proof.Machine.execLimcfg it s
  | .compcfg it => Sys2Proof.Machine.execCompcfg it s
  | .delaycfg it => Sys2Proof.Machine.execDelaycfg it s
  | .cscfg it => Sys2Proof.Machine.execCscfg it s
  | .detcfg it => Sys2Proof.Machine.execDetcfg it s
  | .detassign it => Sys2Proof.Machine.execDetassign it s
  | .loudcfg it => Sys2Proof.Machine.execLoudcfg it s
  | .corrcfg it => Sys2Proof.Machine.execCorrcfg it s
  | .stookcfg it => Sys2Proof.Machine.execStookcfg it s
  | .asrccfg it => Sys2Proof.Machine.execAsrccfg it s
  | .tapcfg it => Sys2Proof.Machine.execTapcfg it s
  | .towercand it => Sys2Proof.Machine.execTowercand it s
  | .towertable it => Sys2Proof.Machine.execTowertable it s
  | .towercfg it => Sys2Proof.Machine.execTowercfg it s
  | .freqTrim it => Sys2Proof.Machine.execFreqTrim it s
  | .phaseStep it => Sys2Proof.Machine.execPhaseStep it s
  | .seconds it => Sys2Proof.Machine.execSeconds it s
  | .clkoutcfg it => Sys2Proof.Machine.execClkoutcfg it s
  | .ptpport it => Sys2Proof.Machine.execPtpport it s
  | .ptpcfg it => Sys2Proof.Machine.execPtpcfg it s
  | .tccfg it => Sys2Proof.Machine.execTccfg it s
  | .captcfg it => Sys2Proof.Machine.execCaptcfg it s
  | .ttcfg it => Sys2Proof.Machine.execTtcfg it s
  | .twincfg it => Sys2Proof.Machine.execTwincfg it s
  | .ttset it => Sys2Proof.Machine.execTtset it s
  | .rxflow it => Sys2Proof.Machine.execRxflow it s
  | .txflow it => Sys2Proof.Machine.execTxflow it s
  | .fwdcfg it => Sys2Proof.Machine.execFwdcfg it s
  | .clsadd it => Sys2Proof.Machine.execClsadd it s
  | .clsdel it => Sys2Proof.Machine.execClsdel it s
  | .clswild it => Sys2Proof.Machine.execClswild it s
  | .ldload it => Sys2Proof.Machine.execLdload it s
  | .barnwr it => Sys2Proof.Machine.execBarnwr it s
  | .lutload it => Sys2Proof.Machine.execLutload it s
  | .rd it => Sys2Proof.Machine.execRd it s
  | .rdind it => Sys2Proof.Machine.execRdind it s
  | .rdtime it => Sys2Proof.Machine.execRdtime it s
  | .harvest it => Sys2Proof.Machine.execHarvest it s
  | .twinswitch it => Sys2Proof.Machine.execTwinswitch it s
  | .twinmark it => Sys2Proof.Machine.execTwinmark it s
  | .clearUnreplicated it => Sys2Proof.Machine.execClearUnreplicated it s
  | .imgload it => Sys2Proof.Machine.execImgload it s
  | .imgloadSettings it => Sys2Proof.Machine.execImgloadSettings it s
  | .imgactivate it recoveryN pMin pMax env => Sys2Proof.Machine.execImgactivate it recoveryN pMin pMax env s
  | .confirm it => Sys2Proof.Machine.execConfirm it s
  | .advance it => Sys2Proof.Machine.execAdvance it s
  | .configure it => Sys2Proof.Machine.execConfigure it s
  | .start it => Sys2Proof.Machine.execStart it s
  | .thrstop it => Sys2Proof.Machine.execThrstop it s
  | .unitcfg it => Sys2Proof.Machine.execUnitcfg it s
  | .errand dt queue bytes bad => Sys2Proof.Machine.execErrand dt queue bytes bad s
  | .errandPartner dt bytes bad => Sys2Proof.Machine.execErrandPartner dt bytes bad s
  | .setaddr dt bytes bad => Sys2Proof.Machine.execSetaddr dt bytes bad s
  | .regwr dt bytes bad => Sys2Proof.Machine.execRegwr dt bytes bad s
  | .read dt n hdr => Sys2Proof.Machine.execRead dt n hdr s
  | .readPtr dt w => Sys2Proof.Machine.execReadPtr dt w s
  | .replyRdPtr dt queue w => Sys2Proof.Machine.execReplyRdPtr dt queue w s
  | .ibiMask dt w => Sys2Proof.Machine.execIbiMask dt w s
  | .ioSlew dt w => Sys2Proof.Machine.execIoSlew dt w s
  | .enec dt events => Sys2Proof.Machine.execEnec dt events s
  | .disec dt events => Sys2Proof.Machine.execDisec dt events s
  | .rstdaa dt => Sys2Proof.Machine.execRstdaa dt s
  | .entdaa dt addr => Sys2Proof.Machine.execEntdaa dt addr s
  | .setmwl dt v => Sys2Proof.Machine.execSetmwl dt v s
  | .setmrl dt v => Sys2Proof.Machine.execSetmrl dt v s
  | .enthdr0 dt => Sys2Proof.Machine.execEnthdr0 dt s
  | .rstact dt action get => Sys2Proof.Machine.execRstact dt action get s
  | .setdasa dt addr => Sys2Proof.Machine.execSetdasa dt addr s
  | .setnewda dt addr => Sys2Proof.Machine.execSetnewda dt addr s
  | .getmwl dt => Sys2Proof.Machine.execGetmwl dt s
  | .getmrl dt => Sys2Proof.Machine.execGetmrl dt s
  | .getpid dt => Sys2Proof.Machine.execGetpid dt s
  | .getbcr dt => Sys2Proof.Machine.execGetbcr dt s
  | .getdcr dt => Sys2Proof.Machine.execGetdcr dt s
  | .getstatus dt => Sys2Proof.Machine.execGetstatus dt s
  | .getmxds dt => Sys2Proof.Machine.execGetmxds dt s
  | .getcaps dt => Sys2Proof.Machine.execGetcaps dt s
  | .cccUnsupported dt code directed => Sys2Proof.Machine.execCccUnsupported dt code directed s
  | .hdrExitPattern dt => Sys2Proof.Machine.execHdrExitPattern dt s
  | .targetResetPattern dt beats => Sys2Proof.Machine.execTargetResetPattern dt beats s
  | .ibiRequest dt ack => Sys2Proof.Machine.execIbiRequest dt ack s
  | .crierRepeatInterrupt dt => Sys2Proof.Machine.execCrierRepeatInterrupt dt s
  | .replyRepost dt queue => Sys2Proof.Machine.execReplyRepost dt queue s
  | .errandExecutionStart dt queue => Sys2Proof.Machine.execErrandExecutionStart dt queue s
  | .finalReply dt queue => Sys2Proof.Machine.execFinalReply dt queue s
  | .threadFault dt th => Sys2Proof.Machine.execThreadFault dt th s
  | .unitFault dt unit cause => Sys2Proof.Machine.execUnitFault dt unit cause s
  | .curfewResolution dt plan => Sys2Proof.Machine.execCurfewResolution dt plan s
  | .tick dt plan => Sys2Proof.Machine.execTick dt plan s
  | .tickWaitResume dt th => Sys2Proof.Machine.execTickWaitResume dt th s
  | .timeWaitResume dt th => Sys2Proof.Machine.execTimeWaitResume dt th s
  | .captWaitResume dt th => Sys2Proof.Machine.execCaptWaitResume dt th s
  | .syncResume dt th => Sys2Proof.Machine.execSyncResume dt th s
  | .targetHoldRelease dt th => Sys2Proof.Machine.execTargetHoldRelease dt th s
  | .planSlewComplete dt plan => Sys2Proof.Machine.execPlanSlewComplete dt plan s
  | .followCommit dt seat stream => Sys2Proof.Machine.execFollowCommit dt seat stream s
  | .followTimeout dt seat stream => Sys2Proof.Machine.execFollowTimeout dt seat stream s
  | .kerbEavArrival dt kerb line edhBad => Sys2Proof.Machine.execKerbEavArrival dt kerb line edhBad s
  | .kerbAlign dt kerb => Sys2Proof.Machine.execKerbAlign dt kerb s
  | .kerbLossTimeout dt kerb => Sys2Proof.Machine.execKerbLossTimeout dt kerb s
  | .cellLossEntry dt seat => Sys2Proof.Machine.execCellLossEntry dt seat s
  | .cellLossReturn dt seat => Sys2Proof.Machine.execCellLossReturn dt seat s
  | .cellLineOut dt seat l => Sys2Proof.Machine.execCellLineOut dt seat l s
  | .txSquelch dt seat => Sys2Proof.Machine.execTxSquelch dt seat s
  | .haywainCodewordRx dt lane c => Sys2Proof.Machine.execHaywainCodewordRx dt lane c s
  | .haywainFrameTx dt lane => Sys2Proof.Machine.execHaywainFrameTx dt lane s
  | .sdiTrsRx dt lane levels => Sys2Proof.Machine.execSdiTrsRx dt lane levels s
  | .rateDeviation dt trib => Sys2Proof.Machine.execRateDeviation dt trib s
  | .laneLos dt lane bps => Sys2Proof.Machine.execLaneLos dt lane bps s
  | .cdrLoss dt lane lost => Sys2Proof.Machine.execCdrLoss dt lane lost s
  | .degrade dt lane on => Sys2Proof.Machine.execDegrade dt lane on s
  | .pllLoss dt avenue pll => Sys2Proof.Machine.execPllLoss dt avenue pll s
  | .pllLock dt avenue pll => Sys2Proof.Machine.execPllLock dt avenue pll s
  | .trainingDone dt lane ok ffe ctle snr => Sys2Proof.Machine.execTrainingDone dt lane ok ffe ctle snr s
  | .retrainTimer dt lane => Sys2Proof.Machine.execRetrainTimer dt lane s
  | .laneWakeDone dt lane side => Sys2Proof.Machine.execLaneWakeDone dt lane side s
  | .prbsLock dt lane levels => Sys2Proof.Machine.execPrbsLock dt lane levels s
  | .errorInject dt lane => Sys2Proof.Machine.execErrorInject dt lane s
  | .macFrameRx dt mac fcsOk frame taken => Sys2Proof.Machine.execMacFrameRx dt mac fcsOk frame taken s
  | .fwdForcedCut dt out => Sys2Proof.Machine.execFwdForcedCut dt out s
  | .fwdInputLoss dt out => Sys2Proof.Machine.execFwdInputLoss dt out s
  | .lineRelease dt ctx => Sys2Proof.Machine.execLineRelease dt ctx s
  | .datagramRelease dt ctx => Sys2Proof.Machine.execDatagramRelease dt ctx s
  | .audioFlowRelease dt ctx => Sys2Proof.Machine.execAudioFlowRelease dt ctx s
  | .flowLost dt ctx => Sys2Proof.Machine.execFlowLost dt ctx s
  | .legDown dt ctx leg => Sys2Proof.Machine.execLegDown dt ctx leg s
  | .ssrcRelatch dt ctx => Sys2Proof.Machine.execSsrcRelatch dt ctx s
  | .packetDeparture dt ctx => Sys2Proof.Machine.execPacketDeparture dt ctx s
  | .audioPacketDeparture dt ctx => Sys2Proof.Machine.execAudioPacketDeparture dt ctx s
  | .ancPacketDeparture dt ctx => Sys2Proof.Machine.execAncPacketDeparture dt ctx s
  | .datagramDeparture dt ctx => Sys2Proof.Machine.execDatagramDeparture dt ctx s
  | .txIdle dt seat => Sys2Proof.Machine.execTxIdle dt seat s
  | .mcastQueryRx dt mac q => Sys2Proof.Machine.execMcastQueryRx dt mac q s
  | .mcastReport dt mac => Sys2Proof.Machine.execMcastReport dt mac s
  | .mcastCompatExpiry dt mac v6 => Sys2Proof.Machine.execMcastCompatExpiry dt mac v6 s
  | .ptpSyncRx dt mac p => Sys2Proof.Machine.execPtpSyncRx dt mac p s
  | .ptpFollowUpRx dt mac p => Sys2Proof.Machine.execPtpFollowUpRx dt mac p s
  | .ptpDelayRespRx dt mac p => Sys2Proof.Machine.execPtpDelayRespRx dt mac p s
  | .ptpAnnounceRx dt mac p => Sys2Proof.Machine.execPtpAnnounceRx dt mac p s
  | .pdelayReqRx dt mac p => Sys2Proof.Machine.execPdelayReqRx dt mac p s
  | .pdelayRespRx dt mac p => Sys2Proof.Machine.execPdelayRespRx dt mac p s
  | .delayReqSend dt kind n => Sys2Proof.Machine.execDelayReqSend dt kind n s
  | .announceTimeout dt inst => Sys2Proof.Machine.execAnnounceTimeout dt inst s
  | .refMarker dt cand => Sys2Proof.Machine.execRefMarker dt cand s
  | .freqWindow dt => Sys2Proof.Machine.execFreqWindow dt s
  | .candQualified dt cand => Sys2Proof.Machine.execCandQualified dt cand s
  | .candMissing dt cand => Sys2Proof.Machine.execCandMissing dt cand s
  | .wtrExpiry dt => Sys2Proof.Machine.execWtrExpiry dt s
  | .towerInLock dt => Sys2Proof.Machine.execTowerInLock dt s
  | .towerReacquire dt => Sys2Proof.Machine.execTowerReacquire dt s
  | .loscFailure dt synth => Sys2Proof.Machine.execLoscFailure dt synth s
  | .clockStopped dt domain => Sys2Proof.Machine.execClockStopped dt domain s
  | .captEdge dt pin falling => Sys2Proof.Machine.execCaptEdge dt pin falling s
  | .takeInEdge dt => Sys2Proof.Machine.execTakeInEdge dt s
  | .ttEdge dt out => Sys2Proof.Machine.execTtEdge dt out s
  | .ttLevelChange dt out => Sys2Proof.Machine.execTtLevelChange dt out s
  | .harvestCapture dt => Sys2Proof.Machine.execHarvestCapture dt s
  | .harvestDone dt => Sys2Proof.Machine.execHarvestDone dt s
  | .granaryFrameComplete dt slot sub => Sys2Proof.Machine.execGranaryFrameComplete dt slot sub s
  | .granaryDecision dt slot sub ue => Sys2Proof.Machine.execGranaryDecision dt slot sub ue s
  | .granaryInputLoss dt slot sub => Sys2Proof.Machine.execGranaryInputLoss dt slot sub s
  | .tileComplete dt scaler => Sys2Proof.Machine.execTileComplete dt scaler s
  | .headDecision dt head ue => Sys2Proof.Machine.execHeadDecision dt head ue s
  | .twinDecisionTimeout dt kind unit => Sys2Proof.Machine.execTwinDecisionTimeout dt kind unit s
  | .decision dt m => Sys2Proof.Machine.execDecision dt m s
  | .mixBlock dt ue => Sys2Proof.Machine.execMixBlock dt ue s
  | .audioSampleTap dt seat a => Sys2Proof.Machine.execAudioSampleTap dt seat a s
  | .blockPeak dt space ch => Sys2Proof.Machine.execBlockPeak dt space ch s
  | .dcSecond dt space ch => Sys2Proof.Machine.execDcSecond dt space ch s
  | .clippedClear dt space ch => Sys2Proof.Machine.execClippedClear dt space ch s
  | .loudnessReport dt meter => Sys2Proof.Machine.execLoudnessReport dt meter s
  | .correlationReport dt meter => Sys2Proof.Machine.execCorrelationReport dt meter s
  | .tapRecord dt tap => Sys2Proof.Machine.execTapRecord dt tap s
  | .stookRxFrame dt port f => Sys2Proof.Machine.execStookRxFrame dt port f s
  | .stookTxFrame dt port => Sys2Proof.Machine.execStookTxFrame dt port s
  | .stookStart dt port side => Sys2Proof.Machine.execStookStart dt port side s
  | .stookStop dt port side => Sys2Proof.Machine.execStookStop dt port side s
  | .stookClockLoss dt port side => Sys2Proof.Machine.execStookClockLoss dt port side s
  | .aes3Lock dt port preambles parity => Sys2Proof.Machine.execAes3Lock dt port preambles parity s
  | .asrcLock dt unit lock range => Sys2Proof.Machine.execAsrcLock dt unit lock range s
  | .watchSecond dt probe => Sys2Proof.Machine.execWatchSecond dt probe s
  | .captureDone dt probe => Sys2Proof.Machine.execCaptureDone dt probe s
  | .ldloadDone dt th => Sys2Proof.Machine.execLdloadDone dt th s
  | .barnwrDone dt th => Sys2Proof.Machine.execBarnwrDone dt th s
  | .lutloadDone dt slot bank => Sys2Proof.Machine.execLutloadDone dt slot bank s
  | .imgloadDone dt th flashOk => Sys2Proof.Machine.execImgloadDone dt th flashOk s
  | .fuseBlown dt ok => Sys2Proof.Machine.execFuseBlown dt ok s
  | .activationLoaded dt ok => Sys2Proof.Machine.execActivationLoaded dt ok s
  | .activationPrepared dt ok => Sys2Proof.Machine.execActivationPrepared dt ok s
  | .activationHandover dt => Sys2Proof.Machine.execActivationHandover dt s
  | .activationResumed dt => Sys2Proof.Machine.execActivationResumed dt s
  | .activationAbort dt => Sys2Proof.Machine.execActivationAbort dt s
  | .watchdogExpiry dt => Sys2Proof.Machine.execWatchdogExpiry dt s
  | .unitWakeDone dt unit => Sys2Proof.Machine.execUnitWakeDone dt unit s
  | .unitIdleOff dt unit => Sys2Proof.Machine.execUnitIdleOff dt unit s
  | .selfRefreshEntry dt chan => Sys2Proof.Machine.execSelfRefreshEntry dt chan s
  | .barnScrub dt chan offset result last => Sys2Proof.Machine.execBarnScrub dt chan offset result last s
  | .barnChannelFault dt chan cause => Sys2Proof.Machine.execBarnChannelFault dt chan cause s
  | .heartbeat dt roleIn => Sys2Proof.Machine.execHeartbeat dt roleIn s
  | .heartbeatRx dt m late roleIn => Sys2Proof.Machine.execHeartbeatRx dt m late roleIn s
  | .heartbeatMissing dt roleIn => Sys2Proof.Machine.execHeartbeatMissing dt roleIn s
  | .takeover dt roleIn => Sys2Proof.Machine.execTakeover dt roleIn s
  | .takeoverHoldEnd dt => Sys2Proof.Machine.execTakeoverHoldEnd dt s
  | .manifestRx dt m => Sys2Proof.Machine.execManifestRx dt m s
  | .manifestOwn dt plan => Sys2Proof.Machine.execManifestOwn dt plan s
  | .manifestLate dt plan => Sys2Proof.Machine.execManifestLate dt plan s
  | .compareRx dt m => Sys2Proof.Machine.execCompareRx dt m s
  | .uncompared dt => Sys2Proof.Machine.execUncompared dt s
  | .suspect dt m => Sys2Proof.Machine.execSuspect dt m s
  | .pairSeekTimeout dt roleIn => Sys2Proof.Machine.execPairSeekTimeout dt roleIn s
  | .replica dt m => Sys2Proof.Machine.execReplica dt m s
  | .replicationCaughtUp dt => Sys2Proof.Machine.execReplicationCaughtUp dt s
  | .stepMsg dt m => Sys2Proof.Machine.execStep dt m s
  | .stepCommit dt => Sys2Proof.Machine.execStepCommit dt s
  | .replicationTimeout dt => Sys2Proof.Machine.execReplicationTimeout dt s
  | .alleyErrand dt m => Sys2Proof.Machine.execAlleyErrand dt m s
  | .alleyReply dt m => Sys2Proof.Machine.execAlleyReply dt m s
  | .alleyBulk dt m => Sys2Proof.Machine.execAlleyBulk dt m s
  | .alleyAck dt m => Sys2Proof.Machine.execAlleyAck dt m s
  | .alleyNak dt m => Sys2Proof.Machine.execAlleyNak dt m s
  | .alleyDown dt => Sys2Proof.Machine.execAlleyDown dt s
  | .hello dt => Sys2Proof.Machine.execHello dt s
  | .helloRx dt link m => Sys2Proof.Machine.execHelloRx dt link m s
  | .fpLinkDown dt link => Sys2Proof.Machine.execFpLinkDown dt link s
  | .fpHoldDiscard dt link => Sys2Proof.Machine.execFpHoldDiscard dt link s
  | .fpErrand dt m => Sys2Proof.Machine.execFpErrand dt m s
  | .fpReply dt m => Sys2Proof.Machine.execFpReply dt m s
  | .fpBulk dt m => Sys2Proof.Machine.execFpBulk dt m s
  | .segment dt m => Sys2Proof.Machine.execSegment dt m s
  | .reportMsg dt m => Sys2Proof.Machine.execReport dt m s
  | .fpAck dt link m => Sys2Proof.Machine.execFpAck dt link m s
  | .fpNak dt link m => Sys2Proof.Machine.execFpNak dt link m s
  | .resetRelease dt r => Sys2Proof.Machine.execResetRelease dt r s
  | .pwrgoodFall dt lowNs => Sys2Proof.Machine.execPwrgoodFall dt lowNs s
  | .resetAssert dt lowNs => Sys2Proof.Machine.execResetAssert dt lowNs s
  | .retransmitTimeout dt link => Sys2Proof.Machine.execRetransmitTimeout dt link s
  | .telemetrySample dt mv ma tj => Sys2Proof.Machine.execTelemetrySample dt mv ma tj s
  | .previousSecondUpdate dt => Sys2Proof.Machine.execPreviousSecondUpdate dt s
  | .unknownCommand dt => Sys2Proof.Machine.execUnknownCommand dt s
  | .unlistedOpcode it => Sys2Proof.Machine.execUnlistedOpcode it s
  | .jtagAccess dt addr n write => Sys2Proof.Machine.execJtagAccess dt addr n write s

end Sys2Proof.Machine
end

