-- ==== Sys2Proof/WellFormed.lean ====
section
/-!
DEFINITION. Well-formed commands: every number that names a thing of the block lies in the range that the spec gives its kind. What
a command does with an operand in range that the state refuses is its meaning, and no matter of form.
-/
namespace Sys2Proof

/-- A Lamplighter thread (R77). -/
def threadOk (n : Nat) : Bool := decide (n < 64)
/-- A Timing Plan (R49). -/
def planOk (n : Nat) : Bool := decide (n < 16)
/-- A Kerb. -/
def kerbOk (n : Nat) : Bool := decide (n < 2304)
/-- A seat of the Square (R111). -/
def seatOk (n : Nat) : Bool := decide (n < 2688)
/-- One of eight streams of a seat, or sub-slots of a Granary slot. -/
def streamOk (n : Nat) : Bool := decide (n < 8)
/-- A lane pair, those of the Alley and the Footpath included (R449). -/
def laneOk (n : Nat) : Bool := decide (n < 294)
/-- One of two. -/
def sideOk (n : Nat) : Bool := decide (n < 2)
def avenueOk (n : Nat) : Bool := decide (n < 36)
def slotOk (n : Nat) : Bool := decide (n < 128)
def scalerOk (n : Nat) : Bool := decide (n < 192)
def headOk (n : Nat) : Bool := decide (n < 16)
/-- A channel of an audio space. -/
def poolOk (n : Nat) : Bool := decide (n < 131072)
def probeOk (n : Nat) : Bool := decide (n < 64)
def portOk (n : Nat) : Bool := decide (n < 16)
/-- A unit ID (R36). -/
def unitOk (n : Nat) : Bool := decide (n < 65536)
def candOk (n : Nat) : Bool := decide (n < 12)
def macOk (n : Nat) : Bool := decide (n < 144)
def contextOk (n : Nat) : Bool := decide (n < 8192)
/-- A CAPT input or a TT output. -/
def pinOk (n : Nat) : Bool := decide (n < 4)
def chanOk (n : Nat) : Bool := decide (n < 24)
/-- A clock domain other than the Lantern's (R510). -/
def domainOk (n : Nat) : Bool := decide (n < 5)
def tribOk (n : Nat) : Bool := decide (n < 1152)
/-- A Postbox of the host, a queue with a reply ring, any queue (R85, R496). -/
def hostQueueOk (n : Nat) : Bool := decide (n < 8)
def replyQueueOk (n : Nat) : Bool := decide (n < 9)
def queueOk (n : Nat) : Bool := decide (n < 10)
def loudMeterOk (n : Nat) : Bool := decide (n < 1024)
def corrMeterOk (n : Nat) : Bool := decide (n < 4096)
def fwdOk (n : Nat) : Bool := decide (n < 1024)
/-- The Alley, or a Footpath link; a Footpath link. -/
def anyLinkOk (n : Nat) : Bool := decide (n < 3)
def linkOk (n : Nat) : Bool := n == 1 || n == 2
/-- A 7-bit bus address; a 40-bit fabric address; an 8-bit code. -/
def addrOk (n : Nat) : Bool := decide (n < 128)
def fabricOk (n : Nat) : Bool := decide (n < 2 ^ 40)
def causeOk (n : Nat) : Bool := decide (n < 256)
/-- An issue names a thread, and carries no more parameter words than NPW can count (Table 16.1). -/
def issueOk (i : Issue) : Bool := threadOk i.th && decide (i.params.length < 4096)
/-- TYPE and MSG_SEQ of a message fit their fields (R416). -/
def messageOk (m : LinkMsg) : Bool := decide (m.typ < 256) && decide (m.seq < 2 ^ 32)

/-- The command's operands name things that exist. -/
def Instr.wf : Instr → Bool
  | .nop i => issueOk i
  | .halt i => issueOk i
  | .br i => issueOk i
  | .bp i => issueOk i
  | .call i => issueOk i
  | .ret i => issueOk i
  | .salvo i => issueOk i
  | .endsalvo i => issueOk i
  | .waittick i => issueOk i
  | .waittime i => issueOk i
  | .waitcapt i => issueOk i
  | .target i => issueOk i
  | .sync i => issueOk i
  | .li i => issueOk i
  | .mov i => issueOk i
  | .add i => issueOk i
  | .sub i => issueOk i
  | .andOp i => issueOk i
  | .orOp i => issueOk i
  | .xorOp i => issueOk i
  | .shl i => issueOk i
  | .shr i => issueOk i
  | .cmp i => issueOk i
  | .bit i => issueOk i
  | .pset i => issueOk i
  | .take i => issueOk i
  | .taker i => issueOk i
  | .btake i => issueOk i
  | .lock i => issueOk i
  | .protect i => issueOk i
  | .unlock i => issueOk i
  | .sheafset i => issueOk i
  | .sheafadd i => issueOk i
  | .sheafclr i => issueOk i
  | .loudreset i => issueOk i
  | .headset i => issueOk i
  | .layerset i => issueOk i
  | .headcommit i => issueOk i
  | .grancfg i => issueOk i
  | .subcfg i => issueOk i
  | .plancfg i => issueOk i
  | .cellcfg i => issueOk i
  | .kerbcfg i => issueOk i
  | .bundlecfg i => issueOk i
  | .signcfg i => issueOk i
  | .watchcfg i => issueOk i
  | .retcfg i => issueOk i
  | .tribcfg i => issueOk i
  | .pllcfg i => issueOk i
  | .lanecfg i => issueOk i
  | .laneeq i => issueOk i
  | .lanetrain i => issueOk i
  | .lanepwr i => issueOk i
  | .lanetest i => issueOk i
  | .maccfg i => issueOk i
  | .slotcfg i => issueOk i
  | .rampcfg i => issueOk i
  | .deembcfg i => issueOk i
  | .tonecfg i => issueOk i
  | .afvcfg i => issueOk i
  | .embcfg i => issueOk i
  | .limcfg i => issueOk i
  | .compcfg i => issueOk i
  | .delaycfg i => issueOk i
  | .cscfg i => issueOk i
  | .detcfg i => issueOk i
  | .detassign i => issueOk i
  | .loudcfg i => issueOk i
  | .corrcfg i => issueOk i
  | .stookcfg i => issueOk i
  | .asrccfg i => issueOk i
  | .tapcfg i => issueOk i
  | .towercand i => issueOk i
  | .towertable i => issueOk i
  | .towercfg i => issueOk i
  | .freqTrim i => issueOk i
  | .phaseStep i => issueOk i
  | .seconds i => issueOk i
  | .clkoutcfg i => issueOk i
  | .ptpport i => issueOk i
  | .ptpcfg i => issueOk i
  | .tccfg i => issueOk i
  | .captcfg i => issueOk i
  | .ttcfg i => issueOk i
  | .twincfg i => issueOk i
  | .ttset i => issueOk i
  | .rxflow i => issueOk i
  | .txflow i => issueOk i
  | .fwdcfg i => issueOk i
  | .clsadd i => issueOk i
  | .clsdel i => issueOk i
  | .clswild i => issueOk i
  | .ldload i => issueOk i
  | .barnwr i => issueOk i
  | .lutload i => issueOk i
  | .rd i => issueOk i
  | .rdind i => issueOk i
  | .rdtime i => issueOk i
  | .harvest i => issueOk i
  | .twinswitch i => issueOk i
  | .twinmark i => issueOk i
  | .clearUnreplicated i => issueOk i
  | .imgload i => issueOk i
  | .imgloadSettings i => issueOk i
  | .imgactivate i _ _ _ _ => issueOk i
  | .confirm i => issueOk i
  | .advance i => issueOk i
  | .configure i => issueOk i
  | .start i => issueOk i
  | .thrstop i => issueOk i
  | .unitcfg i => issueOk i
  | .errand _ queue _ _ => hostQueueOk queue
  | .errandPartner _ _ _ => true
  | .setaddr _ _ _ => true
  | .regwr _ _ _ => true
  | .read _ _ _ => true
  | .readPtr _ _ => true
  | .replyRdPtr _ queue _ => replyQueueOk queue
  | .ibiMask _ _ => true
  | .ioSlew _ _ => true
  | .enec _ _ => true
  | .disec _ _ => true
  | .rstdaa _ => true
  | .entdaa _ addr => addrOk addr
  | .setmwl _ _ => true
  | .setmrl _ _ => true
  | .enthdr0 _ => true
  | .rstact _ action _ => causeOk action
  | .setdasa _ addr => addrOk addr
  | .setnewda _ addr => addrOk addr
  | .getmwl _ => true
  | .getmrl _ => true
  | .getpid _ => true
  | .getbcr _ => true
  | .getdcr _ => true
  | .getstatus _ => true
  | .getmxds _ => true
  | .getcaps _ => true
  | .cccUnsupported _ code _ => causeOk code
  | .hdrExitPattern _ => true
  | .targetResetPattern _ _ => true
  | .ibiRequest _ _ => true
  | .crierRepeatInterrupt _ => true
  | .replyRepost _ queue => queueOk queue
  | .errandExecutionStart _ queue => queueOk queue
  | .finalReply _ queue => queueOk queue
  | .threadFault _ th => threadOk th
  | .unitFault _ unit cause => unitOk unit && causeOk cause
  | .curfewResolution _ plan => planOk plan
  | .tick _ plan => planOk plan
  | .tickWaitResume _ th => threadOk th
  | .timeWaitResume _ th => threadOk th
  | .captWaitResume _ th => threadOk th
  | .syncResume _ th => threadOk th
  | .targetHoldRelease _ th => threadOk th
  | .planSlewComplete _ plan => planOk plan
  | .followCommit _ seat stream => seatOk seat && streamOk stream
  | .followTimeout _ seat stream => seatOk seat && streamOk stream
  | .kerbEavArrival _ kerb _ _ => kerbOk kerb
  | .kerbAlign _ kerb => kerbOk kerb
  | .kerbLossTimeout _ kerb => kerbOk kerb
  | .cellLossEntry _ seat => seatOk seat
  | .cellLossReturn _ seat => seatOk seat
  | .cellLineOut _ seat _ => seatOk seat
  | .txSquelch _ seat => seatOk seat
  | .haywainCodewordRx _ lane _ => laneOk lane
  | .haywainFrameTx _ lane => laneOk lane
  | .sdiTrsRx _ lane _ => laneOk lane
  | .rateDeviation _ trib => tribOk trib
  | .laneLos _ lane _ => laneOk lane
  | .cdrLoss _ lane _ => laneOk lane
  | .degrade _ lane _ => laneOk lane
  | .pllLoss _ avenue pll => avenueOk avenue && sideOk pll
  | .pllLock _ avenue pll => avenueOk avenue && sideOk pll
  | .trainingDone _ lane _ _ _ _ => laneOk lane
  | .retrainTimer _ lane => laneOk lane
  | .laneWakeDone _ lane side => laneOk lane && sideOk side
  | .prbsLock _ lane _ => laneOk lane
  | .errorInject _ lane => laneOk lane
  | .macFrameRx _ mac _ _ _ => macOk mac
  | .fwdForcedCut _ out => fwdOk out
  | .fwdInputLoss _ out => fwdOk out
  | .lineRelease _ ctx => contextOk ctx
  | .datagramRelease _ ctx => contextOk ctx
  | .audioFlowRelease _ ctx => contextOk ctx
  | .flowLost _ ctx => contextOk ctx
  | .legDown _ ctx leg => contextOk ctx && sideOk leg
  | .ssrcRelatch _ ctx => contextOk ctx
  | .packetDeparture _ ctx => contextOk ctx
  | .audioPacketDeparture _ ctx => contextOk ctx
  | .ancPacketDeparture _ ctx => contextOk ctx
  | .datagramDeparture _ ctx => contextOk ctx
  | .txIdle _ seat => seatOk seat
  | .mcastQueryRx _ mac _ => macOk mac
  | .mcastReport _ mac => macOk mac
  | .mcastCompatExpiry _ mac _ => macOk mac
  | .ptpSyncRx _ mac _ => macOk mac
  | .ptpFollowUpRx _ mac _ => macOk mac
  | .ptpDelayRespRx _ mac _ => macOk mac
  | .ptpAnnounceRx _ mac _ => macOk mac
  | .pdelayReqRx _ mac _ => macOk mac
  | .pdelayRespRx _ mac _ => macOk mac
  | .delayReqSend _ _ _ => true
  | .announceTimeout _ inst => sideOk inst
  | .refMarker _ cand => candOk cand
  | .freqWindow _ => true
  | .candQualified _ cand => candOk cand
  | .candMissing _ cand => candOk cand
  | .wtrExpiry _ => true
  | .towerInLock _ => true
  | .towerReacquire _ => true
  | .loscFailure _ _ => true
  | .clockStopped _ domain => domainOk domain
  | .captEdge _ pin _ => pinOk pin
  | .takeInEdge _ => true
  | .ttEdge _ out => pinOk out
  | .ttLevelChange _ out => pinOk out
  | .harvestCapture _ => true
  | .harvestDone _ => true
  | .granaryFrameComplete _ slot j => slotOk slot && streamOk j
  | .granaryDecision _ slot j _ => slotOk slot && streamOk j
  | .granaryInputLoss _ slot j => slotOk slot && streamOk j
  | .tileComplete _ scaler => scalerOk scaler
  | .headDecision _ head _ => headOk head
  | .twinDecisionTimeout _ _ _ => true
  | .decision _ m => messageOk m
  | .mixBlock _ _ => true
  | .audioSampleTap _ seat _ => seatOk seat
  | .blockPeak _ space ch => sideOk space && poolOk ch
  | .dcSecond _ space ch => sideOk space && poolOk ch
  | .clippedClear _ space ch => sideOk space && poolOk ch
  | .loudnessReport _ meter => loudMeterOk meter
  | .correlationReport _ meter => corrMeterOk meter
  | .tapRecord _ tap => probeOk tap
  | .stookRxFrame _ port _ => portOk port
  | .stookTxFrame _ port => portOk port
  | .stookStart _ port side => portOk port && sideOk side
  | .stookStop _ port side => portOk port && sideOk side
  | .stookClockLoss _ port side => portOk port && sideOk side
  | .aes3Lock _ port _ _ => portOk port
  | .asrcLock _ _ _ _ => true
  | .watchSecond _ probe => probeOk probe
  | .captureDone _ probe => probeOk probe
  | .ldloadDone _ th => threadOk th
  | .barnwrDone _ th => threadOk th
  | .lutloadDone _ slot bank => slotOk slot && sideOk bank
  | .imgloadDone _ th _ => (threadOk th || th == 1000)
  | .fuseBlown _ _ => true
  | .activationLoaded _ _ => true
  | .activationPrepared _ _ => true
  | .activationHandover _ => true
  | .activationResumed _ => true
  | .activationAbort _ => true
  | .watchdogExpiry _ => true
  | .unitWakeDone _ unit => unitOk unit
  | .unitIdleOff _ unit => unitOk unit
  | .selfRefreshEntry _ chan => chanOk chan
  | .barnScrub _ chan _ _ _ => chanOk chan
  | .barnChannelFault _ chan cause => chanOk chan && causeOk cause
  | .heartbeat _ _ => true
  | .heartbeatRx _ m _ _ => messageOk m
  | .heartbeatMissing _ _ => true
  | .takeover _ _ => true
  | .takeoverHoldEnd _ => true
  | .manifestRx _ m => messageOk m
  | .manifestOwn _ plan => planOk plan
  | .manifestLate _ plan => planOk plan
  | .compareRx _ m => messageOk m
  | .uncompared _ => true
  | .suspect _ m => messageOk m
  | .pairSeekTimeout _ _ => true
  | .replica _ m => messageOk m
  | .replicationCaughtUp _ => true
  | .stepMsg _ m => messageOk m
  | .stepCommit _ => true
  | .replicationTimeout _ => true
  | .alleyErrand _ m => messageOk m
  | .alleyReply _ m => messageOk m
  | .alleyBulk _ m => messageOk m
  | .alleyAck _ m => messageOk m
  | .alleyNak _ m => messageOk m
  | .alleyDown _ => true
  | .hello _ => true
  | .helloRx _ link m => linkOk link && messageOk m
  | .fpLinkDown _ link => linkOk link
  | .fpHoldDiscard _ link => linkOk link
  | .fpErrand _ m => messageOk m
  | .fpReply _ m => messageOk m
  | .fpBulk _ m => messageOk m
  | .segment _ m => messageOk m
  | .reportMsg _ m => messageOk m
  | .fpAck _ link m => linkOk link && messageOk m
  | .fpNak _ link m => linkOk link && messageOk m
  | .resetRelease _ _ => true
  | .pwrgoodFall _ _ => true
  | .resetAssert _ _ => true
  | .retransmitTimeout _ link => anyLinkOk link
  | .telemetrySample _ _ _ _ => true
  | .previousSecondUpdate _ => true
  | .unknownCommand _ => true
  | .unlistedOpcode i => issueOk i
  | .jtagAccess _ addr _ _ => fabricOk addr

end Sys2Proof
end

