-- ==== Sys2Proof/Safety.lean ====
section
/-!
DEFINITION. What counts as a safe run, and the words that claims use: when an instruction passes its checks, the state it is judged
in, what it has carried out, and what the reports of a command (events, final codes) leave alone.
-/
namespace Sys2Proof.Machine

/-! ### Safe states -/

/-- Every command that waits is well formed. -/
def State.queueOk (s : State) : Prop := ∀ c ∈ s.pending, c.wf = true

/-- The stores of bytes hold their canonical form: the Barn, the boot flash, and the Barn of a copy that is loading. -/
def State.storesOk (s : State) : Prop :=
  Memory.wf s.barn = true ∧ Memory.wf s.flash = true ∧ ∀ h, s.shadow = some h → Memory.wf h.barn = true

/-- The step answers a next state: no command of this block ends in a fault or a refusal. -/
def Runs (s : State) : Prop := ∃ t, step s = .next t

/-! ### An instruction that passes -/

/-- The state an instruction is judged in: time has passed, the program counter has moved past it (R449), and what it owes is open. -/
def State.facing (s : State) (i : Issue) (use : Use) : State :=
  (((s.after i.dt).advancePc i.th (1 + i.params.length)).openPart i.th (1 + i.params.length) 1 ((s.after i.dt).thn i.th Lamp.PC)
    (ticketWords i use)).2

/-- The thread acts on the device's own state: no copy of the partner's state is loading, or the errand is this host's (R437). -/
def State.servesOwn (s : State) (i : Issue) : Prop :=
  s.shadow = none ∨ s.onCopy = false ∨ (s.errandOf i.th).any (fun e => e.source != 1) = true

/-- The instruction executes normally: its thread, one of the 64 (R77), is RUNNING, no check of its own, of a salvo, of the role of this device or of
recovery mode fails (R20, R91, R107, R420, R517), and what it stages need not wait for the open generation (R452). -/
def State.passes (s : State) (i : Issue) (use : Use) (f : State → Judged) : Prop :=
  i.th < 64 ∧ s.servesOwn i ∧ s.th i.th Lamp.STATE = thRunning ∧
    (∀ ms, (f (s.facing i use)).verdict = .stage ms → (s.after i.dt).mustHold i.th = false) ∧
    firstFail ((f (s.facing i use)).checks ++ commonChecks (s.facing i use) i.th use (f (s.facing i use))) = none

/-- Thread `i.th` may issue: it is one of the 64 (R77) and RUNNING, acts on the device's own state, the role of the device lets it (`permit`: 0 no instruction of
queue 8, 1 also on a STANDBY device, 2 any queue; R91, R420), and the device is not in recovery mode (R517). -/
def State.mayIssue (s : State) (i : Issue) (permit : Nat) : Prop :=
  i.th < 64 ∧ s.servesOwn i ∧ s.th i.th Lamp.STATE = thRunning ∧ s.roleBar i.th permit = none ∧ s.rn U.boot Boot.STAGE ≠ 4

/-- The thread runs a Ledger program: no errand, and not its last word (R84). -/
def State.inProgram (s : State) (th : Nat) : Prop :=
  s.rb (U.thread th) Lamp.IN_ERRAND = false ∧ s.rb (U.thread th) Lamp.errand = false ∧ s.rb (U.thread th) Lamp.past = false ∧
    s.thn th Lamp.PC < 65535

/-- Execution goes on: the thread has neither run past the Ledger nor reached the end of its errand, or it does not run (R84). -/
def State.goesOn (x : State) (th : Nat) : Prop :=
  x.th th Lamp.STATE ≠ thRunning ∨
    (x.rb (U.thread th) Lamp.past = false ∧ x.rb (U.thread th) Lamp.IN_ERRAND = false) ∨
    (x.rb (U.thread th) Lamp.IN_ERRAND = true ∧ ∃ e, x.errandOf th = some e ∧ x.thn th Lamp.PC < e.head + e.words.length)

/-- No salvo is open on the thread. -/
def State.noSalvo (s : State) (th : Nat) : Prop := s.salvos.any (·.th == th) = false

/-- `t` differs from `e` only in thread `th`'s own registers, predicates, call stack and reports (errands, parts, events, interrupts,
and the counts of final codes, places 0 to 4 of a thread's list): every register of every other unit, every other counter, every
general register, and every store is that of `e`. -/
def State.sameUnits (th : Nat) (t e : State) : Prop :=
  (∀ u f, u ≠ U.thread th → u ≠ U.crier → u ≠ U.host → t.rd u f = e.rd u f) ∧
  (∀ u j, u < U.thread 0 ∨ 5 ≤ j → u ≠ U.crier → t.ctr u j = e.ctr u j) ∧
  t.clk = e.clk ∧ t.tsOff = e.tsOff ∧ t.gregs = e.gregs ∧ t.ledger = e.ledger ∧ t.replies = e.replies ∧ t.staged = e.staged ∧
  t.sheaf = e.sheaf ∧ t.layers = e.layers ∧ t.classifier = e.classifier ∧ t.barn = e.barn ∧ t.flash = e.flash ∧
  t.claims = e.claims ∧ t.bufs = e.bufs ∧ t.pics = e.pics ∧ t.links = e.links ∧ t.nv = e.nv ∧ t.pending = e.pending ∧ t.setAt = e.setAt ∧ t.setBy = e.setBy ∧ t.seatLines = e.seatLines

/-- An effect of instruction `m` is staged for thread `th`: for its plan and elements, not yet resolved, and for the next edge of
STROBE alone where the thread stages so (R99, R103). -/
def State.stagedAs (t : State) (th : Nat) (armed : Bool) (m : Member) : Prop :=
  ∃ e ∈ t.staged, e.th = th ∧ e.plan = m.plan ∧ e.kind = m.kind ∧ e.elems = m.elems ∧ e.uses = m.uses ∧ e.eff = m.eff ∧
    e.armed = armed ∧ e.won = false

/-- The same effect as part of a salvo: staged for part `pid` within salvo `sv`, strict or not. -/
def State.stagedIn (t : State) (th pid : Nat) (sv : Option Nat) (strict armed : Bool) (m : Member) : Prop :=
  ∃ e ∈ t.staged, (e.pid = pid ∧ e.salvo = sv ∧ e.strict = strict) ∧ e.th = th ∧ e.plan = m.plan ∧ e.kind = m.kind ∧ e.elems = m.elems ∧
    e.uses = m.uses ∧ e.eff = m.eff ∧ e.armed = armed ∧ e.won = false

/-- The salvo that stood open on the thread is closed. -/
def State.shutSalvo (s : State) (th : Nat) : State := State.setTh { s with salvos := s.salvos.filter (·.th != th) } th Lamp.SALVO 0

/-- Members that a TICKED instruction stages have been taken up: into the salvo that is open on the thread, as its last member,
or else into the staged effects; under STROBE a later member of one instruction may replace an earlier one, so the last counts. -/
def State.takesUp (v : State) (th : Nat) (ms : List Member) (t : State) : Prop :=
  match v.salvos.find? (·.th == th) with
  | some o => t.staged = v.staged ∧
      (v.goesOn th → ∃ o' ∈ t.salvos, o'.th = th ∧ o'.pid = o.pid ∧ o'.members.map (·.2) = o.members.map (·.2) ++ [ms])
  | none =>
    if v.thn th Lamp.tMode = 2 then ∀ m, ms.getLast? = some m → t.stagedAs th true m
    else ∀ m ∈ ms, t.stagedAs th false m

/-- Command `c`, issued as `i` and used as `use`, answers a next state in which its outcome is good and its members are taken up. -/
def State.stages (s : State) (c : Instr) (i : Issue) (use : Use) (ms : List Member) : Prop :=
  ∃ t, exec c s = .next t ∧ t.pget i.th 0 = true ∧ State.takesUp (s.facing i use) i.th ms t

/-- Command `c`, issued as `i`, answers a next state in which its outcome is good and `P` holds. -/
def State.does (s : State) (c : Instr) (i : Issue) (P : State → Prop) : Prop :=
  ∃ t, exec c s = .next t ∧ t.pget i.th 0 = true ∧ P t

/-- Unit `u` shows the values of a parameter list. -/
def State.shows (s : State) (u : Nat) (ps : List Param) (vs : List Int) : Prop :=
  ∀ e ∈ ps.zip vs, s.rd u e.1.fld = e.1.fld.norm e.2

/-- The effect a judgement has at once, for an instruction that stages nothing. -/
def Judged.effect (j : Judged) (v : State) : State :=
  match j.verdict with
  | .act e => e
  | .actCode e _ => e
  | .start e _ _ _ _ _ => e
  | _ => v

/-- The members a judgement stages. -/
def Judged.staging (j : Judged) : List Member :=
  match j.verdict with
  | .stage ms => ms
  | _ => []

/-! ### Instructions among the commands -/

/-- The issue a command stands for, how it may stand in a salvo and how it is judged; none for an event. -/
def judged (c : Instr) : Option (Issue × Use × (State → Judged)) :=
  match c with
  | .nop it => some (it, .other, (judgeNop it))
  | .halt it => some (it, .ends, (judgeHalt it))
  | .br it => some (it, .register, (judgeBr it))
  | .bp it => some (it, .register, (judgeBp it))
  | .call it => some (it, .other, (judgeCall it))
  | .ret it => some (it, .other, (judgeRet it))
  | .salvo it => some (it, .bracket, (judgeSalvo it))
  | .endsalvo it => some (it, .bracket, (judgeEndsalvo it))
  | .waittick it => some (it, .ends, (judgeWaittick it))
  | .waittime it => some (it, .ends, (judgeWaittime it))
  | .waitcapt it => some (it, .ends, (judgeWaitcapt it))
  | .target it => some (it, .other, (judgeTarget it))
  | .sync it => some (it, .other, (judgeSync it))
  | .li it => some (it, .register, (judgeLi it))
  | .mov it => some (it, .register, (judgeMov it))
  | .add it => some (it, .register, (judgeAlu it fun a b => a + b))
  | .sub it => some (it, .register, (judgeAlu it fun a b => a - b))
  | .andOp it => some (it, .register, (judgeAlu it fun a b => a &&& b))
  | .orOp it => some (it, .register, (judgeAlu it fun a b => a ||| b))
  | .xorOp it => some (it, .register, (judgeAlu it fun a b => a ^^^ b))
  | .shl it => some (it, .register, (judgeAlu it fun a b => a <<< (b.toNat % 64)))
  | .shr it => some (it, .register, (judgeAlu it fun a b => a >>> (b.toNat % 64)))
  | .cmp it => some (it, .register, (judgeCmp it))
  | .bit it => some (it, .register, (judgeBit it))
  | .pset it => some (it, .register, (judgePset it))
  | .take it => some (it, (.ticked 0x20), (judgeTake it))
  | .taker it => some (it, (.ticked 0x21), (judgeTaker it))
  | .btake it => some (it, (.ticked 0x22), (judgeBtake it))
  | .lock it => some (it, .other, (judgeLock it 2))
  | .protect it => some (it, .other, (judgeLock it 1))
  | .unlock it => some (it, .other, (judgeLock it 0))
  | .sheafset it => some (it, (.ticked 0x30), (judgeSheafset it))
  | .sheafadd it => some (it, (.ticked 0x31), (judgeSheafadd it))
  | .sheafclr it => some (it, (.ticked 0x32), (judgeSheafclr it))
  | .loudreset it => some (it, (.ticked 0x33), (judgeLoudreset it))
  | .headset it => some (it, .other, (judgeHeadset it))
  | .layerset it => some (it, .other, (judgeLayerset it))
  | .headcommit it => some (it, (.ticked 0x42), (judgeHeadcommit it))
  | .grancfg it => some (it, (.ticked 0x43), (judgeGrancfg it))
  | .subcfg it => some (it, (.ticked 0x44), (judgeSubcfg it))
  | .plancfg it => some (it, (.ticked 0x50), (judgePlancfg it))
  | .cellcfg it => some (it, (.ticked 0x51), (judgeCellcfg it))
  | .kerbcfg it => some (it, (.ticked 0x52), (judgeKerbcfg it))
  | .bundlecfg it => some (it, (.ticked 0x53), (judgeBundlecfg it))
  | .signcfg it => some (it, (.ticked 0x54), (judgeSigncfg it))
  | .watchcfg it => some (it, (.ticked 0x55), (judgeWatchcfg it))
  | .retcfg it => some (it, (.ticked 0x56), (judgeRetcfg it))
  | .tribcfg it => some (it, .other, (judgeTribcfg it))
  | .pllcfg it => some (it, .other, (judgePllcfg it))
  | .lanecfg it => some (it, .other, (judgeLanecfg it))
  | .laneeq it => some (it, .other, (judgeLaneeq it))
  | .lanetrain it => some (it, .other, (judgeLanetrain it))
  | .lanepwr it => some (it, .other, (judgeLanepwr it))
  | .lanetest it => some (it, .other, (judgeLanetest it))
  | .maccfg it => some (it, .other, (judgeMaccfg it))
  | .slotcfg it => some (it, (.ticked 0x60), (judgeSlotcfg it))
  | .rampcfg it => some (it, .other, (judgeRampcfg it))
  | .deembcfg it => some (it, (.ticked 0x62), (judgeDeembcfg it))
  | .tonecfg it => some (it, (.ticked 0x63), (judgeTonecfg it))
  | .afvcfg it => some (it, (.ticked 0x64), (judgeAfvcfg it))
  | .embcfg it => some (it, (.ticked 0x65), (judgeEmbcfg it))
  | .limcfg it => some (it, (.ticked 0x66), (judgeLimcfg it))
  | .compcfg it => some (it, (.ticked 0x67), (judgeCompcfg it))
  | .delaycfg it => some (it, (.ticked 0x68), (judgeDelaycfg it))
  | .cscfg it => some (it, (.ticked 0x69), (judgeCscfg it))
  | .detcfg it => some (it, .other, (judgeDetcfg it))
  | .detassign it => some (it, .other, (judgeDetassign it))
  | .loudcfg it => some (it, .other, (judgeLoudcfg it))
  | .corrcfg it => some (it, .other, (judgeCorrcfg it))
  | .stookcfg it => some (it, (.ticked 0x6E), (judgeStookcfg it))
  | .asrccfg it => some (it, (.ticked 0x6F), (judgeAsrccfg it))
  | .tapcfg it => some (it, (.ticked 0x70), (judgeTapcfg it))
  | .towercand it => some (it, .other, (judgeTowercand it))
  | .towertable it => some (it, .other, (judgeTowertable it))
  | .towercfg it => some (it, .other, (judgeTowercfg it))
  | .freqTrim it => some (it, .other, (judgeSteer it))
  | .phaseStep it => some (it, .other, (judgeSteer it))
  | .seconds it => some (it, .other, (judgeSteer it))
  | .clkoutcfg it => some (it, .other, (judgeClkoutcfg it))
  | .ptpport it => some (it, .other, (judgePtpport it))
  | .ptpcfg it => some (it, .other, (judgePtpcfg it))
  | .tccfg it => some (it, .other, (judgeTccfg it))
  | .captcfg it => some (it, .other, (judgeCaptcfg it))
  | .ttcfg it => some (it, .other, (judgeTtcfg it))
  | .twincfg it => some (it, .other, (judgeTwincfg it))
  | .ttset it => some (it, (.ticked 0x90), (judgeTtset it))
  | .rxflow it => some (it, (.ticked 0xA0), (judgeRxflow it))
  | .txflow it => some (it, (.ticked 0xA1), (judgeTxflow it))
  | .fwdcfg it => some (it, (.ticked 0xA2), (judgeFwdcfg it))
  | .clsadd it => some (it, .other, (judgeClsadd it))
  | .clsdel it => some (it, .other, (judgeClsdel it))
  | .clswild it => some (it, .other, (judgeClswild it))
  | .ldload it => some (it, .other, (judgeLdload it))
  | .barnwr it => some (it, .other, (judgeBarnwr it))
  | .lutload it => some (it, .other, (judgeLutload it))
  | .rd it => some (it, .other, (judgeRd it))
  | .rdind it => some (it, .other, (judgeRdind it))
  | .rdtime it => some (it, .other, (judgeRdtime it))
  | .harvest it => some (it, .other, (judgeHarvest it))
  | .twinswitch it => some (it, (.ticked 0xF1), (judgeTwinswitch it))
  | .twinmark it => some (it, .other, (judgeTwinmark it))
  | .clearUnreplicated it => some (it, .other, (judgeTwinmark it))
  | .imgload it => some (it, .other, (judgeImgload it))
  | .imgloadSettings it => some (it, .other, (judgeImgloadSettings it))
  | .imgactivate it recoveryN pMin pMax env => some (it, .other, (judgeImgactivate it recoveryN pMin pMax env))
  | .confirm it => some (it, .other, (judgeConfirm it))
  | .advance it => some (it, .other, (judgeAdvance it))
  | .configure it => some (it, .other, (thrcfg it 0))
  | .start it => some (it, .other, (thrcfg it 1))
  | .thrstop it => some (it, .other, (judgeThrstop it))
  | .unitcfg it => some (it, .other, (judgeUnitcfg it))
  | .errand _ _ _ _ => none
  | .errandPartner _ _ _ => none
  | .setaddr _ _ _ => none
  | .regwr _ _ _ => none
  | .read _ _ _ => none
  | .readPtr _ _ => none
  | .replyRdPtr _ _ _ => none
  | .ibiMask _ _ => none
  | .ioSlew _ _ => none
  | .enec _ _ => none
  | .disec _ _ => none
  | .rstdaa _ => none
  | .entdaa _ _ => none
  | .setmwl _ _ => none
  | .setmrl _ _ => none
  | .enthdr0 _ => none
  | .rstact _ _ _ => none
  | .setdasa _ _ => none
  | .setnewda _ _ => none
  | .getmwl _ => none
  | .getmrl _ => none
  | .getpid _ => none
  | .getbcr _ => none
  | .getdcr _ => none
  | .getstatus _ => none
  | .getmxds _ => none
  | .getcaps _ => none
  | .cccUnsupported _ _ _ => none
  | .hdrExitPattern _ => none
  | .targetResetPattern _ _ => none
  | .ibiRequest _ _ => none
  | .crierRepeatInterrupt _ => none
  | .replyRepost _ _ => none
  | .errandExecutionStart _ _ => none
  | .finalReply _ _ => none
  | .threadFault _ _ => none
  | .unitFault _ _ _ => none
  | .curfewResolution _ _ => none
  | .tick _ _ => none
  | .tickWaitResume _ _ => none
  | .timeWaitResume _ _ => none
  | .captWaitResume _ _ => none
  | .syncResume _ _ => none
  | .targetHoldRelease _ _ => none
  | .planSlewComplete _ _ => none
  | .followCommit _ _ _ => none
  | .followTimeout _ _ _ => none
  | .kerbEavArrival _ _ _ _ => none
  | .kerbAlign _ _ => none
  | .kerbLossTimeout _ _ => none
  | .cellLossEntry _ _ => none
  | .cellLossReturn _ _ => none
  | .cellLineOut _ _ _ => none
  | .txSquelch _ _ => none
  | .haywainCodewordRx _ _ _ => none
  | .haywainFrameTx _ _ => none
  | .sdiTrsRx _ _ _ => none
  | .rateDeviation _ _ => none
  | .laneLos _ _ _ => none
  | .cdrLoss _ _ _ => none
  | .degrade _ _ _ => none
  | .pllLoss _ _ _ => none
  | .pllLock _ _ _ => none
  | .trainingDone _ _ _ _ _ _ => none
  | .retrainTimer _ _ => none
  | .laneWakeDone _ _ _ => none
  | .prbsLock _ _ _ => none
  | .errorInject _ _ => none
  | .macFrameRx _ _ _ _ _ => none
  | .fwdForcedCut _ _ => none
  | .fwdInputLoss _ _ => none
  | .lineRelease _ _ => none
  | .datagramRelease _ _ => none
  | .audioFlowRelease _ _ => none
  | .flowLost _ _ => none
  | .legDown _ _ _ => none
  | .ssrcRelatch _ _ => none
  | .packetDeparture _ _ => none
  | .audioPacketDeparture _ _ => none
  | .ancPacketDeparture _ _ => none
  | .datagramDeparture _ _ => none
  | .txIdle _ _ => none
  | .mcastQueryRx _ _ _ => none
  | .mcastReport _ _ => none
  | .mcastCompatExpiry _ _ _ => none
  | .ptpSyncRx _ _ _ => none
  | .ptpFollowUpRx _ _ _ => none
  | .ptpDelayRespRx _ _ _ => none
  | .ptpAnnounceRx _ _ _ => none
  | .pdelayReqRx _ _ _ => none
  | .pdelayRespRx _ _ _ => none
  | .delayReqSend _ _ _ => none
  | .announceTimeout _ _ => none
  | .refMarker _ _ => none
  | .freqWindow _ => none
  | .candQualified _ _ => none
  | .candMissing _ _ => none
  | .wtrExpiry _ => none
  | .towerInLock _ => none
  | .towerReacquire _ => none
  | .loscFailure _ _ => none
  | .clockStopped _ _ => none
  | .captEdge _ _ _ => none
  | .takeInEdge _ => none
  | .ttEdge _ _ => none
  | .ttLevelChange _ _ => none
  | .harvestCapture _ => none
  | .harvestDone _ => none
  | .granaryFrameComplete _ _ _ => none
  | .granaryDecision _ _ _ _ => none
  | .granaryInputLoss _ _ _ => none
  | .tileComplete _ _ => none
  | .headDecision _ _ _ => none
  | .twinDecisionTimeout _ _ _ => none
  | .decision _ _ => none
  | .mixBlock _ _ => none
  | .audioSampleTap _ _ _ => none
  | .blockPeak _ _ _ => none
  | .dcSecond _ _ _ => none
  | .clippedClear _ _ _ => none
  | .loudnessReport _ _ => none
  | .correlationReport _ _ => none
  | .tapRecord _ _ => none
  | .stookRxFrame _ _ _ => none
  | .stookTxFrame _ _ => none
  | .stookStart _ _ _ => none
  | .stookStop _ _ _ => none
  | .stookClockLoss _ _ _ => none
  | .aes3Lock _ _ _ _ => none
  | .asrcLock _ _ _ _ => none
  | .watchSecond _ _ => none
  | .captureDone _ _ => none
  | .ldloadDone _ _ => none
  | .barnwrDone _ _ => none
  | .lutloadDone _ _ _ => none
  | .imgloadDone _ _ _ => none
  | .fuseBlown _ _ => none
  | .activationLoaded _ _ => none
  | .activationPrepared _ _ => none
  | .activationHandover _ => none
  | .activationResumed _ => none
  | .activationAbort _ => none
  | .watchdogExpiry _ => none
  | .unitWakeDone _ _ => none
  | .unitIdleOff _ _ => none
  | .selfRefreshEntry _ _ => none
  | .barnScrub _ _ _ _ _ => none
  | .barnChannelFault _ _ _ => none
  | .heartbeat _ _ => none
  | .heartbeatRx _ _ _ _ => none
  | .heartbeatMissing _ _ => none
  | .takeover _ _ => none
  | .takeoverHoldEnd _ => none
  | .manifestRx _ _ => none
  | .manifestOwn _ _ => none
  | .manifestLate _ _ => none
  | .compareRx _ _ => none
  | .uncompared _ => none
  | .suspect _ _ => none
  | .pairSeekTimeout _ _ => none
  | .replica _ _ => none
  | .replicationCaughtUp _ => none
  | .stepMsg _ _ => none
  | .stepCommit _ => none
  | .replicationTimeout _ => none
  | .alleyErrand _ _ => none
  | .alleyReply _ _ => none
  | .alleyBulk _ _ => none
  | .alleyAck _ _ => none
  | .alleyNak _ _ => none
  | .alleyDown _ => none
  | .hello _ => none
  | .helloRx _ _ _ => none
  | .fpLinkDown _ _ => none
  | .fpHoldDiscard _ _ => none
  | .fpErrand _ _ => none
  | .fpReply _ _ => none
  | .fpBulk _ _ => none
  | .segment _ _ => none
  | .reportMsg _ _ => none
  | .fpAck _ _ _ => none
  | .fpNak _ _ _ => none
  | .resetRelease _ _ => none
  | .pwrgoodFall _ _ => none
  | .resetAssert _ _ => none
  | .retransmitTimeout _ _ => none
  | .telemetrySample _ _ _ _ => none
  | .previousSecondUpdate _ => none
  | .unknownCommand _ => none
  | .unlistedOpcode it => some (it, .other, judgeUnlistedOpcode)
  | .jtagAccess _ _ _ _ => none

/-- The commands that may change the bytes of the Barn, of the flash, of a copy that is loading, or the fuses. -/
def mayStore (c : Instr) : Bool :=
  match c with
  | .nop _ => false
  | .halt _ => false
  | .br _ => false
  | .bp _ => false
  | .call _ => false
  | .ret _ => false
  | .salvo _ => false
  | .endsalvo _ => false
  | .waittick _ => false
  | .waittime _ => false
  | .waitcapt _ => false
  | .target _ => false
  | .sync _ => false
  | .li _ => false
  | .mov _ => false
  | .add _ => false
  | .sub _ => false
  | .andOp _ => false
  | .orOp _ => false
  | .xorOp _ => false
  | .shl _ => false
  | .shr _ => false
  | .cmp _ => false
  | .bit _ => false
  | .pset _ => false
  | .take _ => false
  | .taker _ => false
  | .btake _ => false
  | .lock _ => false
  | .protect _ => false
  | .unlock _ => false
  | .sheafset _ => false
  | .sheafadd _ => false
  | .sheafclr _ => false
  | .loudreset _ => false
  | .headset _ => false
  | .layerset _ => false
  | .headcommit _ => false
  | .grancfg _ => false
  | .subcfg _ => false
  | .plancfg _ => false
  | .cellcfg _ => false
  | .kerbcfg _ => false
  | .bundlecfg _ => false
  | .signcfg _ => false
  | .watchcfg _ => false
  | .retcfg _ => false
  | .tribcfg _ => false
  | .pllcfg _ => false
  | .lanecfg _ => false
  | .laneeq _ => false
  | .lanetrain _ => false
  | .lanepwr _ => false
  | .lanetest _ => false
  | .maccfg _ => false
  | .slotcfg _ => false
  | .rampcfg _ => false
  | .deembcfg _ => false
  | .tonecfg _ => false
  | .afvcfg _ => false
  | .embcfg _ => false
  | .limcfg _ => false
  | .compcfg _ => false
  | .delaycfg _ => false
  | .cscfg _ => false
  | .detcfg _ => false
  | .detassign _ => false
  | .loudcfg _ => false
  | .corrcfg _ => false
  | .stookcfg _ => false
  | .asrccfg _ => false
  | .tapcfg _ => false
  | .towercand _ => false
  | .towertable _ => false
  | .towercfg _ => false
  | .freqTrim _ => false
  | .phaseStep _ => false
  | .seconds _ => false
  | .clkoutcfg _ => false
  | .ptpport _ => false
  | .ptpcfg _ => false
  | .tccfg _ => false
  | .captcfg _ => false
  | .ttcfg _ => false
  | .twincfg _ => true
  | .ttset _ => false
  | .rxflow _ => false
  | .txflow _ => false
  | .fwdcfg _ => false
  | .clsadd _ => false
  | .clsdel _ => false
  | .clswild _ => false
  | .ldload _ => false
  | .barnwr _ => false
  | .lutload _ => false
  | .rd _ => false
  | .rdind _ => false
  | .rdtime _ => false
  | .harvest _ => false
  | .twinswitch _ => false
  | .twinmark _ => false
  | .clearUnreplicated _ => false
  | .imgload _ => true
  | .imgloadSettings _ => false
  | .imgactivate _ _ _ _ _ => true
  | .confirm _ => true
  | .advance _ => true
  | .configure _ => false
  | .start _ => false
  | .thrstop _ => false
  | .unitcfg _ => false
  | .errand _ _ _ _ => false
  | .errandPartner _ _ _ => false
  | .setaddr _ _ _ => false
  | .regwr _ _ _ => false
  | .read _ _ _ => false
  | .readPtr _ _ => false
  | .replyRdPtr _ _ _ => false
  | .ibiMask _ _ => false
  | .ioSlew _ _ => false
  | .enec _ _ => false
  | .disec _ _ => false
  | .rstdaa _ => false
  | .entdaa _ _ => false
  | .setmwl _ _ => false
  | .setmrl _ _ => false
  | .enthdr0 _ => false
  | .rstact _ _ _ => false
  | .setdasa _ _ => false
  | .setnewda _ _ => false
  | .getmwl _ => false
  | .getmrl _ => false
  | .getpid _ => false
  | .getbcr _ => false
  | .getdcr _ => false
  | .getstatus _ => false
  | .getmxds _ => false
  | .getcaps _ => false
  | .cccUnsupported _ _ _ => false
  | .hdrExitPattern _ => false
  | .targetResetPattern _ _ => false
  | .ibiRequest _ _ => false
  | .crierRepeatInterrupt _ => false
  | .replyRepost _ _ => false
  | .errandExecutionStart _ _ => false
  | .finalReply _ _ => false
  | .threadFault _ _ => false
  | .unitFault _ _ _ => false
  | .curfewResolution _ _ => false
  | .tick _ _ => false
  | .tickWaitResume _ _ => false
  | .timeWaitResume _ _ => false
  | .captWaitResume _ _ => false
  | .syncResume _ _ => false
  | .targetHoldRelease _ _ => false
  | .planSlewComplete _ _ => false
  | .followCommit _ _ _ => false
  | .followTimeout _ _ _ => false
  | .kerbEavArrival _ _ _ _ => false
  | .kerbAlign _ _ => false
  | .kerbLossTimeout _ _ => false
  | .cellLossEntry _ _ => false
  | .cellLossReturn _ _ => false
  | .cellLineOut _ _ _ => true
  | .txSquelch _ _ => false
  | .haywainCodewordRx _ _ _ => false
  | .haywainFrameTx _ _ => false
  | .sdiTrsRx _ _ _ => false
  | .rateDeviation _ _ => false
  | .laneLos _ _ _ => false
  | .cdrLoss _ _ _ => false
  | .degrade _ _ _ => false
  | .pllLoss _ _ _ => false
  | .pllLock _ _ _ => false
  | .trainingDone _ _ _ _ _ _ => false
  | .retrainTimer _ _ => false
  | .laneWakeDone _ _ _ => false
  | .prbsLock _ _ _ => false
  | .errorInject _ _ => false
  | .macFrameRx _ _ _ _ _ => false
  | .fwdForcedCut _ _ => false
  | .fwdInputLoss _ _ => false
  | .lineRelease _ _ => false
  | .datagramRelease _ _ => false
  | .audioFlowRelease _ _ => false
  | .flowLost _ _ => false
  | .legDown _ _ _ => false
  | .ssrcRelatch _ _ => false
  | .packetDeparture _ _ => false
  | .audioPacketDeparture _ _ => false
  | .ancPacketDeparture _ _ => false
  | .datagramDeparture _ _ => false
  | .txIdle _ _ => false
  | .mcastQueryRx _ _ _ => false
  | .mcastReport _ _ => false
  | .mcastCompatExpiry _ _ _ => false
  | .ptpSyncRx _ _ _ => false
  | .ptpFollowUpRx _ _ _ => false
  | .ptpDelayRespRx _ _ _ => false
  | .ptpAnnounceRx _ _ _ => false
  | .pdelayReqRx _ _ _ => false
  | .pdelayRespRx _ _ _ => false
  | .delayReqSend _ _ _ => false
  | .announceTimeout _ _ => false
  | .refMarker _ _ => false
  | .freqWindow _ => false
  | .candQualified _ _ => false
  | .candMissing _ _ => false
  | .wtrExpiry _ => false
  | .towerInLock _ => false
  | .towerReacquire _ => false
  | .loscFailure _ _ => false
  | .clockStopped _ _ => false
  | .captEdge _ _ _ => false
  | .takeInEdge _ => false
  | .ttEdge _ _ => false
  | .ttLevelChange _ _ => false
  | .harvestCapture _ => false
  | .harvestDone _ => false
  | .granaryFrameComplete _ _ _ => false
  | .granaryDecision _ _ _ _ => false
  | .granaryInputLoss _ _ _ => false
  | .tileComplete _ _ => false
  | .headDecision _ _ _ => true
  | .twinDecisionTimeout _ _ _ => true
  | .decision _ _ => true
  | .mixBlock _ _ => false
  | .audioSampleTap _ _ _ => false
  | .blockPeak _ _ _ => false
  | .dcSecond _ _ _ => false
  | .clippedClear _ _ _ => false
  | .loudnessReport _ _ => false
  | .correlationReport _ _ => false
  | .tapRecord _ _ => true
  | .stookRxFrame _ _ _ => false
  | .stookTxFrame _ _ => false
  | .stookStart _ _ _ => false
  | .stookStop _ _ _ => false
  | .stookClockLoss _ _ _ => false
  | .aes3Lock _ _ _ _ => false
  | .asrcLock _ _ _ _ => false
  | .watchSecond _ _ => false
  | .captureDone _ _ => false
  | .ldloadDone _ _ => false
  | .barnwrDone _ _ => true
  | .lutloadDone _ _ _ => false
  | .imgloadDone _ _ _ => true
  | .fuseBlown _ _ => true
  | .activationLoaded _ _ => false
  | .activationPrepared _ _ => true
  | .activationHandover _ => false
  | .activationResumed _ => true
  | .activationAbort _ => false
  | .watchdogExpiry _ => false
  | .unitWakeDone _ _ => false
  | .unitIdleOff _ _ => false
  | .selfRefreshEntry _ _ => false
  | .barnScrub _ _ _ _ _ => false
  | .barnChannelFault _ _ _ => false
  | .heartbeat _ _ => true
  | .heartbeatRx _ _ _ _ => true
  | .heartbeatMissing _ _ => true
  | .takeover _ _ => true
  | .takeoverHoldEnd _ => false
  | .manifestRx _ _ => true
  | .manifestOwn _ _ => false
  | .manifestLate _ _ => true
  | .compareRx _ _ => false
  | .uncompared _ => false
  | .suspect _ _ => false
  | .pairSeekTimeout _ _ => true
  | .replica _ _ => true
  | .replicationCaughtUp _ => true
  | .stepMsg _ _ => false
  | .stepCommit _ => true
  | .replicationTimeout _ => true
  | .alleyErrand _ _ => false
  | .alleyReply _ _ => false
  | .alleyBulk _ _ => false
  | .alleyAck _ _ => false
  | .alleyNak _ _ => false
  | .alleyDown _ => false
  | .hello _ => false
  | .helloRx _ _ _ => false
  | .fpLinkDown _ _ => false
  | .fpHoldDiscard _ _ => false
  | .fpErrand _ _ => false
  | .fpReply _ _ => false
  | .fpBulk _ _ => false
  | .segment _ _ => true
  | .reportMsg _ _ => false
  | .fpAck _ _ _ => false
  | .fpNak _ _ _ => false
  | .resetRelease _ _ => true
  | .pwrgoodFall _ _ => true
  | .resetAssert _ _ => true
  | .retransmitTimeout _ _ => true
  | .telemetrySample _ _ _ _ => false
  | .previousSecondUpdate _ => false
  | .unknownCommand _ => false
  | .unlistedOpcode _ => false
  | .jtagAccess _ _ _ _ => true

end Sys2Proof.Machine
end

