-- ==== Sys2Proof/Certificates/Slice0/Obligations.lean ====
section
/-!
DEFINITION. The statements for the provers. Each is a claim about every state of the block, or about what a command does; the
predicates they share (`State.passes`, `State.stages`, `State.does`, `State.sameUnits`, `mayStore`, ...) are in Safety.lean.
-/
open Sys2Proof Sys2Proof.Machine

/-- A step takes the command at the front of the queue and answers what `exec` answers on the queue's rest. -/
def Obligations.StepRunsFront : Prop :=
  ∀ (c : Instr) (s : State), step { s with pending := c :: s.pending } = exec c s

/-- With nothing waiting the block idles (the model's choice, notes/assumptions/1.md). -/
def Obligations.IdleStep : Prop := ∀ s : State, s.pending = [] → step s = .next s

/-- After reset threads L54 to L63 are bound to queues 0 to 9 in order and wait on them; L0 to L53 are IDLE and bound to none; all have priority 4 and
plan TP0. This is R79. -/
def Obligations.ResetThreads : Prop :=
  (∀ n, n < 10 → State.reset.th (54 + n) Lamp.QUEUE = n ∧ State.reset.th (54 + n) Lamp.STATE = thQueueWait) ∧
  (∀ n, n < 54 → State.reset.th n Lamp.STATE = thIdle ∧ State.reset.th n Lamp.QUEUE = 15) ∧
  ∀ n, n < 64 → State.reset.th n Lamp.PRIORITY = 4 ∧ State.reset.th n Lamp.PLAN = 0

/-- Reset leaves every register field of every unit that is no thread at the field's reset value, every counter, general register, predicate and Ledger
word at 0, every byte of the Barn at 0 and none of the flash written, and no errand, staged effect, BACKGROUND operation, open salvo, reply, Barn
claim, Crier record, Sheaf entry, layer, classifier entry, buffered value, picture, line or waiting command. The reset values that no table of the
spec gives are the model's choice (notes/assumptions/30.md and 31.md). -/
def Obligations.ResetElsewhere : Prop :=
  (∀ (u : Nat) (f : Field), u < U.thread 54 ∨ U.thread 63 < u → State.reset.rd u f = f.reset) ∧
  (∀ u j, State.reset.ctr u j = 0) ∧ (∀ t r, State.reset.gget t r = 0) ∧ (∀ t p, State.reset.pget t p = false) ∧
  (∀ i, State.reset.ldword i = 0) ∧ (∀ a, barnGet State.reset.barn a = 0) ∧
  State.reset.flash = [] ∧ State.reset.errands = [] ∧ State.reset.staged = [] ∧ State.reset.bg = [] ∧ State.reset.salvos = [] ∧
  State.reset.parts = [] ∧ State.reset.replies = [] ∧ State.reset.claims = [] ∧ State.reset.crierRing = [] ∧ State.reset.pending = [] ∧
  State.reset.sheaf = [] ∧ State.reset.layers = [] ∧ State.reset.classifier = [] ∧ State.reset.bufs = [] ∧ State.reset.pics = [] ∧
  State.reset.seatLines = []

/-- A counter wraps from 2^64 − 1 to 0 and does not saturate: counting k adds k modulo 2^64, the difference of two readings modulo 2^64 is what was
counted between them, and no other counter moves. This is R464. -/
def Obligations.CountersWrap : Prop :=
  ∀ (s : State) (u j k : Nat), (s.countBy u j k).ctr u j = (s.ctr u j + k) % 2 ^ 64 ∧ (s.ctr u j = 2 ^ 64 - 1 → (s.count u j).ctr u j = 0) ∧
    (s.ctr u j < 2 ^ 64 → ((s.countBy u j k).ctr u j + 2 ^ 64 - s.ctr u j) % 2 ^ 64 = k % 2 ^ 64) ∧
    (∀ w i, w ≠ u ∨ i ≠ j → (s.countBy u j k).ctr w i = s.ctr w i)

/-- At reset the waiting commands are well formed and the byte stores canonical. -/
def Obligations.ResetSafe : Prop := State.reset.queueOk ∧ State.reset.storesOk

/-- Every step keeps the waiting commands well formed and the byte stores in their canonical form, from every such state. -/
def Obligations.StepKeepsSafe : Prop :=
  ∀ s t : State, s.queueOk → s.storesOk → step s = .next t → t.queueOk ∧ t.storesOk

/-- No command stops the block, and no command touches the queue: every command answers a next state in which the same commands wait. -/
def Obligations.EveryCommandRuns : Prop :=
  ∀ (c : Instr) (s : State), ∃ t, exec c s = .next t ∧ t.pending = s.pending

/-- The SVN fuses change at two commands alone: FUSE_BLOWN blows at most one, and RESET_RELEASE takes the device's one-time storage as its operand gives
it. No other command changes the count, and so nothing the device does clears a fuse. -/
def Obligations.FusesKept : Prop :=
  ∀ (c : Instr) (s t : State), exec c s = .next t → (∀ dt e, c ≠ .resetRelease dt e) →
    s.fuses ≤ t.fuses ∧ t.fuses ≤ s.fuses + 1 ∧ ((∀ dt ok, c ≠ .fuseBlown dt ok) → t.fuses = s.fuses)

/-- A command that is not among those named by `mayStore` leaves every byte of the Barn, of the flash and of a copy that is loading as it was, and the
fuses. -/
def Obligations.OtherCommandsStoreNothing : Prop :=
  ∀ (c : Instr) (s t : State), mayStore c = false → exec c s = .next t →
    t.barn = s.barn ∧ t.flash = s.flash ∧ t.fuses = s.fuses ∧ t.shadow.map (·.barn) = s.shadow.map (·.barn)

/-- A thread that acts on the device's own state and is not RUNNING issues nothing: an instruction command then only lets its time pass. Rests on parts of
R78. -/
def Obligations.OnlyRunningThreadsIssue : Prop :=
  ∀ (c : Instr) (i : Issue) (use : Use) (f : State → Judged) (s : State), judged c = some (i, use, f) → s.servesOwn i →
    s.th i.th Lamp.STATE ≠ thRunning → exec c s = .next (s.after i.dt)

/-- Of an instruction that fails, the code that `firstFail` finds first among its checks is its staging outcome: its thread clears p0 and, where the code
is not BANDWIDTH (whose refusals are counted, R562), shows the code in LAST_CODE (unless it runs past the Ledger with it or the plan of its timing
class has a fault), and nothing changes but the thread's own registers, predicates, calls and reports: no register of another unit, no general
register, staged effect, line, picture or store. Rests on parts of R20, R96. -/
def Obligations.FailedInstructionsActOnNothing : Prop :=
  ∀ (c : Instr) (i : Issue) (use : Use) (f : State → Judged) (s : State) (k : Code), judged c = some (i, use, f) → i.th < 64 →
    s.servesOwn i → s.th i.th Lamp.STATE = thRunning →
    firstFail ((f (s.facing i use)).checks ++ commonChecks (s.facing i use) i.th use (f (s.facing i use))) = some k →
    ∃ t, exec c s = .next t ∧ t.pget i.th 0 = false ∧
      (k ≠ .bandwidth → State.sameUnits i.th t (s.after i.dt) ∧
        (classFault (s.facing i use) (f (s.facing i use)).verdict = false → (s.facing i use).rb (U.thread i.th) Lamp.past = false →
          t.th i.th Lamp.LAST_CODE = k.num))

/-- While a STANDBY device replicates, what a thread does for a forwarded errand changes the copy alone: of the device's own state no general register,
predicate, counter, Ledger word, staged effect, part, errand, open salvo, BACKGROUND operation, Barn, flash, Sheaf, layer, classifier, claim or buffer
changes, and of a unit's fields only STATE and the waking instant (places 200 and 202). The copy stands. Rests on parts of R437. -/
def Obligations.CopyChangesAlone : Prop :=
  ∀ (c : Instr) (i : Issue) (use : Use) (f : State → Judged) (s : State), judged c = some (i, use, f) → s.shadow.isSome = true →
    s.onCopy = true → (s.errandOf i.th).any (fun e => e.source != 1) = false →
    ∃ t, exec c s = .next t ∧ (∀ u (g : Field), g.pos ≠ 200 → g.pos ≠ 202 → t.rd u g = s.rd u g) ∧ t.ctrs = s.ctrs ∧ t.gregs = s.gregs ∧
      t.preds = s.preds ∧ t.ledger = s.ledger ∧ t.staged = s.staged ∧ t.parts = s.parts ∧ t.errands = s.errands ∧ t.salvos = s.salvos ∧
      t.bg = s.bg ∧ t.barn = s.barn ∧ t.flash = s.flash ∧ t.sheaf = s.sheaf ∧ t.layers = s.layers ∧ t.classifier = s.classifier ∧
      t.claims = s.claims ∧ t.bufs = s.bufs ∧ t.shadow.isSome = true

/-- The register instructions write gD at once, wrapping modulo 2^64, set p0, and change no other unit's registers, no counter but those of final codes,
no store and no other general register or predicate. Operand B is the sign-extended IMM under the IMM flag. `cmp`, `bit` and `pset` write predicate pD
after p0 has been set, and change nothing else; a predicate above p7, a condition above GEU, a bit above 63 and a value above 1 return RANGE. This is
R451. -/
def Obligations.RegisterAndPredicateInstructions : Prop :=
  (∀ (i : Issue) (s : State), s.mayIssue i 2 → i.params = [] → i.xRes = 0 → i.force = false → i.group = false →
     let a := s.gget i.th i.xA
     let b := if i.regImm then i.immS else s.gget i.th i.xB
     let wrote (c : Instr) (w : Word) : Prop := ∃ t, exec c s = .next t ∧ t.gget i.th i.xD = w ∧
       (∀ n r, (n, r % 16) ≠ (i.th, i.xD % 16) → t.gget n r = s.gget n r) ∧ t.pget i.th 0 = true ∧
       (∀ n p, (n, p) ≠ (i.th, 0) → t.pget n p = s.pget n p) ∧
       State.sameUnits i.th t ((s.after i.dt).gset i.th i.xD w)
     (i.opt = false → i.xCond = 0 → (if i.regImm then i.xB = 0 else i.imm = 0) →
       wrote (.add i) (a + b) ∧ wrote (.sub i) (a - b) ∧ wrote (.andOp i) (a &&& b) ∧ wrote (.orOp i) (a ||| b) ∧
       wrote (.xorOp i) (a ^^^ b) ∧ wrote (.shl i) (a <<< (b.toNat % 64)) ∧ wrote (.shr i) (a >>> (b.toNat % 64))) ∧
     (i.opt = false → i.regImm = false → i.xB = 0 → i.xCond = 0 → i.imm = 0 → wrote (.mov i) a) ∧
     (i.regImm = false → i.xA = 0 → i.xB = 0 → i.xCond = 0 →
       wrote (.li i) (if i.opt then BitVec.ofNat 64 (i.imm * 2 ^ 32 + (s.gget i.th i.xD).toNat % 2 ^ 32) else i.immS))) ∧
  (∀ (i : Issue) (s : State), s.mayIssue i 2 → i.params = [] → i.xRes = 0 → i.force = false → i.group = false → i.opt = false →
     let a := s.gget i.th i.xA
     let b := if i.regImm then i.immS else s.gget i.th i.xB
     let wrote (c : Instr) (v : Bool) : Prop := ∃ t, exec c s = .next t ∧ t.pget i.th i.xD = v ∧ (i.xD ≠ 0 → t.pget i.th 0 = true) ∧
       (∀ n p, (n, p) ≠ (i.th, 0) → (n, p) ≠ (i.th, i.xD) → t.pget n p = s.pget n p) ∧ State.sameUnits i.th t (s.after i.dt)
     let ranged (c : Instr) : Prop := ∃ t, exec c s = .next t ∧ t.pget i.th 0 = false ∧ State.sameUnits i.th t (s.after i.dt) ∧
       ((s.facing i .register).rb (U.thread i.th) Lamp.past = false → t.th i.th Lamp.LAST_CODE = Code.range.num)
     (i.xD ≤ 7 →
       ((if i.regImm then i.xB = 0 else i.imm = 0) →
         (i.xCond = 0 → wrote (.cmp i) (a == b)) ∧ (i.xCond = 1 → wrote (.cmp i) (a != b)) ∧
         (i.xCond = 2 → wrote (.cmp i) (decide (a.toInt < b.toInt))) ∧ (i.xCond = 3 → wrote (.cmp i) (decide (b.toInt ≤ a.toInt))) ∧
         (i.xCond = 4 → wrote (.cmp i) (decide (a.toNat < b.toNat))) ∧ (i.xCond = 5 → wrote (.cmp i) (decide (b.toNat ≤ a.toNat)))) ∧
       (i.regImm = false → i.xB = 0 → i.xCond = 0 → i.imm ≤ 63 → wrote (.bit i) (a.getLsbD i.imm)) ∧
       (i.regImm = false → i.xA = 0 → i.xB = 0 → i.xCond = 0 → i.imm ≤ 1 → wrote (.pset i) (i.imm == 1))) ∧
     ((if i.regImm then i.xB = 0 else i.imm = 0) → 7 < i.xD ∨ 5 < i.xCond → ranged (.cmp i)) ∧
     (i.regImm = false → i.xB = 0 → i.xCond = 0 → 7 < i.xD ∨ 63 < i.imm → ranged (.bit i)) ∧
     (i.regImm = false → i.xA = 0 → i.xB = 0 → i.xCond = 0 → 7 < i.xD ∨ 1 < i.imm → ranged (.pset i)))

/-- Control flow in a Ledger program, before its last word. `nop` moves on where no salvo is open; `halt` halts and leaves no salvo open; `br` goes to IMM
where no salvo is open or IMM lies ahead, and so does `bp` where its predicate is not OPT, and else moves on; where no salvo is open `call` goes to
IMM and keeps the return index if fewer than 8 are kept, and `ret` returns to the last one kept. No other unit's registers and no store change. Rests
on parts of R450, R84. -/
def Obligations.ControlFlowInPrograms : Prop :=
  ∀ (i : Issue) (s : State), s.mayIssue i 2 → s.inProgram i.th → i.params = [] → i.force = false → i.regImm = false → i.group = false →
    i.xRes = 0 → i.xA = 0 → i.xB = 0 → i.xCond = 0 →
    let next := s.thn i.th Lamp.PC + 1
    let stack := Tbl.get ⟨i.th, 0⟩ [] s.calls
    let goes (c : Instr) (pc : Nat) (st : Int) (calls : List (Nat × Bool)) : Prop := ∃ t, exec c s = .next t ∧ t.pget i.th 0 = true ∧
      t.thn i.th Lamp.PC = pc ∧ t.th i.th Lamp.STATE = st ∧ Tbl.get ⟨i.th, 0⟩ [] t.calls = calls ∧ State.sameUnits i.th t (s.after i.dt)
    (i.opt = false → i.xD = 0 → i.imm = 0 →
      (s.noSalvo i.th → goes (.nop i) next thRunning stack) ∧
      (goes (.halt i) next thHalted stack ∧ ∀ t, exec (.halt i) s = .next t → t.noSalvo i.th) ∧
      (∀ pc rest, s.noSalvo i.th → pc < 65536 → stack = (pc, false) :: rest → goes (.ret i) pc thRunning rest)) ∧
    (i.opt = false → i.xD = 0 → i.imm ≤ 65535 →
      (s.noSalvo i.th ∨ next ≤ i.imm → goes (.br i) i.imm thRunning stack) ∧
      (s.noSalvo i.th → stack.length < 8 → goes (.call i) i.imm thRunning ((next, false) :: stack))) ∧
    (i.xD ≤ 7 → s.pget i.th i.xD = i.opt → goes (.bp i) next thRunning stack) ∧
    (i.xD ≤ 7 → s.pget i.th i.xD ≠ i.opt → i.imm ≤ 65535 → s.noSalvo i.th ∨ next ≤ i.imm → goes (.bp i) i.imm thRunning stack)

/-- A `ret` with an empty stack halts a Ledger thread that has no open salvo, with FORMAT in LAST_CODE. In an errand a `br` whose IMM is at least 1 goes
IMM words forward from the branch word, where a word stands that begins an instruction; where the CRC word stands there, the errand's execution ends
and the thread waits on its queue again (R88, R90), unless `thrstop` ordered it to stop there. Rests on parts of R450. -/
def Obligations.ReturnsAndBranchesAtTheEdge : Prop :=
  (∀ (i : Issue) (s : State), s.mayIssue i 2 → s.inProgram i.th → s.noSalvo i.th → i.params = [] → i.force = false → i.regImm = false →
     i.group = false → i.opt = false → i.xRes = 0 → i.xD = 0 → i.xA = 0 → i.xB = 0 → i.xCond = 0 → i.imm = 0 →
     Tbl.get ⟨i.th, 0⟩ [] s.calls = [] →
     ∃ t, exec (.ret i) s = .next t ∧ t.th i.th Lamp.STATE = thHalted ∧ t.th i.th Lamp.LAST_CODE = Code.format.num ∧
       t.pget i.th 0 = false ∧ State.sameUnits i.th t (s.after i.dt)) ∧
  (∀ (i : Issue) (s : State) (e : Errand), s.mayIssue i 2 → s.rb (U.thread i.th) Lamp.IN_ERRAND = true → s.errandOf i.th = some e →
     s.rb (U.thread i.th) Lamp.stopAtEnd = false →
     i.params = [] → i.force = false → i.regImm = false → i.group = false → i.opt = false → i.xD = 0 → i.xRes = 0 → i.xA = 0 →
     i.xB = 0 → i.xCond = 0 → 1 ≤ i.imm → s.thn i.th Lamp.PC + i.imm ≤ e.head + e.words.length → s.thn i.th Lamp.PC + i.imm < 65536 →
     startsAt e.words 0 (s.thn i.th Lamp.PC + i.imm - e.head) = true →
     ∃ t, exec (.br i) s = .next t ∧ t.pget i.th 0 = true ∧ State.sameUnits i.th t (s.after i.dt) ∧
       (s.thn i.th Lamp.PC + i.imm < e.head + e.words.length →
         t.thn i.th Lamp.PC = s.thn i.th Lamp.PC + i.imm ∧ t.th i.th Lamp.STATE = thRunning) ∧
       (s.thn i.th Lamp.PC + i.imm = e.head + e.words.length → t.th i.th Lamp.STATE = thQueueWait ∧ t.inErrand i.th = false))

/-- In a Ledger program, before its last word, `waittick` begins a wait for IMM ticks (0: none) or, with ABS, for tick gA of the thread's plan, unless
that tick has come; `waittime` begins a wait until gA seconds and gB nanoseconds of system time, unless they have come; `waitcapt` begins one for the
next capture on pin IMM; none of them leaves a salvo open. With no salvo open, `target` sets the intended tick or clears it, and `sync` begins a wait
where a BACKGROUND operation of the thread has no final code. The program counter moves on. Rests on parts of Table 16.4, R452, R409. -/
def Obligations.WaitsInPrograms : Prop :=
  ∀ (i : Issue) (s : State), s.mayIssue i 2 → s.inProgram i.th → i.params = [] → i.force = false → i.regImm = false → i.group = false →
    i.xRes = 0 → i.xCond = 0 →
    let reg := fun (t : State) (f : Field) => t.rd (U.thread i.th) f
    let waits (c : Instr) (st : Int) : Prop := ∃ t, exec c s = .next t ∧ t.pget i.th 0 = true ∧ t.noSalvo i.th ∧
      t.thn i.th Lamp.PC = s.thn i.th Lamp.PC + 1 ∧ reg t Lamp.STATE = st ∧ State.sameUnits i.th t (s.after i.dt)
    let shows (c : Instr) (f : Field) (v : Int) : Prop := ∀ t, exec c s = .next t → reg t f = v
    let due := ((s.gget i.th i.xA).toNat % 2 ^ 48) * Config.second + (s.gget i.th i.xB).toNat * Config.ns
    (i.xD = 0 → i.xB = 0 →
      (i.opt = false → i.xA = 0 → i.imm = 0 → waits (.waittick i) thRunning) ∧
      (i.opt = false → i.xA = 0 → i.imm ≠ 0 → waits (.waittick i) thTickWait ∧ shows (.waittick i) Lamp.waitVal i.imm) ∧
      (i.opt = true → i.imm = 0 → (s.planOn (s.thn i.th Lamp.PLAN) && decide (((s.gget i.th i.xA).toNat : Int) ≤ s.rd (U.plan (s.thn i.th Lamp.PLAN)) Plan.TICK)) = true →
        waits (.waittick i) thRunning) ∧
      (i.opt = true → i.imm = 0 → (s.planOn (s.thn i.th Lamp.PLAN) && decide (((s.gget i.th i.xA).toNat : Int) ≤ s.rd (U.plan (s.thn i.th Lamp.PLAN)) Plan.TICK)) = false →
        waits (.waittick i) thTickWait ∧ shows (.waittick i) Lamp.waitVal (s.gget i.th i.xA).toNat)) ∧
    (i.opt = false → i.xD = 0 → i.imm = 0 → (s.gget i.th i.xA).toNat < 2 ^ 48 → (s.gget i.th i.xB).toNat < 1000000000 →
      (due ≤ (s.after i.dt).now → waits (.waittime i) thRunning) ∧
      ((s.after i.dt).now < due → waits (.waittime i) thTickWait ∧ shows (.waittime i) Lamp.waitVal due)) ∧
    (i.opt = false → i.xA = 0 → i.xB = 0 → i.imm ≤ 3 →
      waits (.waitcapt i) thEventWait ∧ shows (.waitcapt i) Lamp.waitVal i.imm ∧ shows (.waitcapt i) Lamp.waitReg i.xD ∧
      shows (.waitcapt i) Lamp.waitSeq (s.rd (U.capt i.imm) Capt.WRITE_SEQ)) ∧
    (i.xD = 0 → i.xB = 0 → i.imm = 0 → s.noSalvo i.th →
      (i.opt = false → waits (.target i) thRunning ∧ shows (.target i) Lamp.TARGET (s.gget i.th i.xA).toNat ∧ shows (.target i) Lamp.tMode 1) ∧
      (i.opt = true → i.xA = 0 → waits (.target i) thRunning ∧ shows (.target i) Lamp.TARGET 0 ∧ shows (.target i) Lamp.tMode 0) ∧
      (i.opt = false → i.xA = 0 → waits (.sync i) (if (s.bgOf i.th).isEmpty then thRunning else thEventWait)))

/-- `salvo` opens a salvo on its thread, strict under its flag. `endsalvo` closes the salvo. Of a salvo that is not strict, and of a strict one with no
failed member that is not late, it stages every member within one salvo, together with the two brackets, and what was staged stays; under STROBE it
arms the last effect. Of a strict salvo with a failed member, of a strict one that is late, and of any whose reference plan is OFF (the model's
choice, notes/assumptions/87.md) it stages nothing. The staging outcome is DONE, or LATE of a late salvo; that member's code; LATE; or NOUNIT. Rests
on parts of R106, R107, R99, R108. -/
def Obligations.SalvoBrackets : Prop :=
  (∀ (i : Issue) (s : State), s.mayIssue i 2 → s.inProgram i.th → s.noSalvo i.th → i.params = [] → i.force = false → i.regImm = false →
    i.group = false → i.xRes = 0 → i.xD = 0 → i.xA = 0 → i.xB = 0 → i.xCond = 0 → i.imm = 0 →
    ∃ t, exec (.salvo i) s = .next t ∧ t.pget i.th 0 = true ∧ t.th i.th Lamp.SALVO = (if i.opt then 2 else 1) ∧
      (∃ o ∈ t.salvos, o.th = i.th ∧ o.strict = i.opt ∧ o.members = [] ∧ o.failed = none) ∧ State.sameUnits i.th t (s.after i.dt)) ∧
  (∀ (i : Issue) (s : State) (o : OpenSalvo), s.passes i .bracket (judgeEndsalvo i) → s.salvos.find? (·.th == i.th) = some o →
    let v := (s.facing i .bracket).shutSalvo i.th
    let plan := v.salvoPlan i.th
    let late := v.wouldBeLate i.th v.now (bracket plan)
    let ends (good : Bool) (code : Nat) (P : State → Prop) : Prop := ∃ t, exec (.endsalvo i) s = .next t ∧ t.pget i.th 0 = good ∧
      (v.rb (U.thread i.th) Lamp.past = false → t.th i.th Lamp.LAST_CODE = code) ∧ t.noSalvo i.th ∧ P t
    (v.planOn plan = true → o.strict = false ∨ (o.failed = none ∧ late = false) →
      ends true (if late then Code.late.num else Code.done.num) fun t =>
        (v.thn i.th Lamp.tMode ≠ 2 → (∀ p ∈ o.members, ∀ m ∈ p.2, t.stagedIn i.th p.1 (some o.pid) o.strict false m) ∧
          t.stagedIn i.th o.pid (some o.pid) o.strict false (bracket plan) ∧
          t.stagedIn i.th s.nextId (some o.pid) o.strict false (bracket plan) ∧ ∀ e ∈ s.staged, e ∈ t.staged) ∧
        (v.thn i.th Lamp.tMode = 2 → ∀ p ms m, o.members.getLast? = some (p, ms) → ms.getLast? = some m →
          t.stagedIn i.th p (some o.pid) o.strict true m)) ∧
    (∀ cp (k : Code), o.strict = true → o.failed = some (cp, k.num) → k ≠ .done → k ≠ .late → ends false k.num fun t => t.staged = s.staged) ∧
    (o.strict = true → o.failed = none → v.planOn plan = true → late = true → ends true Code.late.num fun t => t.staged = s.staged) ∧
    (v.planOn plan = false → o.strict = false ∨ o.failed = none → ends false Code.nounit.num fun t => t.staged = s.staged))

/-- A `take` or `taker` that passes its checks stages, per destination Cell, the choice of its source (and stream) on that Cell's plan; `btake` stages, as
one effect on its first Cell's plan, for each Cell of a destination Bundle the choice of the source Bundle's member at the same place. Rests on parts
of R98, R99, Table 16.6, Table 16.7. -/
def Obligations.RoutesAreStaged : Prop :=
  (∀ (i : Issue) (s : State) (ds : List Nat), let v := s.facing i (.ticked 0x20); let o := takeOps v i
    s.passes i (.ticked 0x20) (judgeTake i) → (takeDests i o.dest).1 = some ds → (∀ d ∈ ds, d < 2688) →
    s.stages (.take i) i (.ticked 0x20) (ds.map fun d => ⟨v.cellN d Cell.PLAN, 0, [⟨U.cell d, (takeDests i o.dest).2⟩],
      U.cell d :: if o.source = noSeat then [] else srcUnits o.source ++ destUnits d, .takes [⟨d, (takeDests i o.dest).2, o.source, o.stream.getD 0⟩]⟩)) ∧
  (∀ (i : Issue) (s : State), let v := s.facing i (.ticked 0x21); let o := takeOps v i
    s.passes i (.ticked 0x21) (judgeTaker i) →
    s.stages (.taker i) i (.ticked 0x21) ((List.range i.rCount).map fun n => let d := o.dest % 4096 + n
      let j := if v.cellMulti d then bitsAt o.dest 14 12 else 0
      ⟨v.cellN d Cell.PLAN, 0, [⟨U.cell d, j⟩], U.cell d :: if o.source = noSeat then [] else srcUnits o.source ++ destUnits d,
        .takes [⟨d, j, o.source, o.stream.getD 0⟩]⟩)) ∧
  (∀ (i : Issue) (s : State) (ds ss : List Nat), let v := s.facing i (.ticked 0x22)
    let field := fun (n : Nat) => if i.regImm then (v.gget i.th (n % 16)).toNat % 1024 else n
    s.passes i (.ticked 0x22) (judgeBtake i) →
    v.bundleMembers (U.dbundle (field (opBits i 51 42))) = ds → v.bundleMembers (U.sbundle (field (opBits i 41 32))) = ss →
    s.stages (.btake i) i (.ticked 0x22) [⟨v.cellN (ds.headD 0) Cell.PLAN, 0, ds.map fun d => ⟨U.cell d, 0⟩,
      ((ds.zip ss).map fun p => U.cell p.1 :: (srcUnits p.2 ++ destUnits p.1)).flatten, .takes ((ds.zip ss).map fun p => ⟨p.1, 0, p.2, 0⟩)⟩])

/-- A configuration of Cells, a Bundle, return seats, signal generators, a watch probe, Kerbs or a plan, once its checks pass, is staged for the elements
it replaces, with its parameter values: a Cell on its plan, a source Bundle on the plan of the thread, a destination Bundle on the plan of its first
new member (of its first old one where it gets none), a return seat on the plan of the Cell it mirrors (else of the thread), a generator on its plan,
on the new one where it is not enabled (the model's choice, notes/assumptions/102.md), a probe on the plan of its Cell, a Kerb on its plan. A plan
that is OFF is configured on the plan of its thread, and at once where that one is OFF too (R80). Rests on parts of R98, Table 16.6, Table 16.7. -/
def Obligations.RouteConfigurationsAreStaged : Prop :=
  (∀ (i : Issue) (s : State) (ds : List Nat) (vs : List Int), let v := s.facing i (.ticked 0x51)
    s.passes i (.ticked 0x51) (judgeCellcfg i) → (if i.group then cellsOf i.index else some [i.index]) = some ds → (∀ d ∈ ds, d < 2688) →
    getParams Cell.cellcfgParams false i = some vs →
    s.stages (.cellcfg i) i (.ticked 0x51) (ds.map fun d => ⟨v.cellN d Cell.PLAN, 1,
      (List.range (if isGranSeat d then 8 else 1)).map fun j => ⟨U.cell d, j⟩, [U.cell d], .cfg 0x51 d 0 vs⟩)) ∧
  (∀ (i : Issue) (s : State) (b : Nat) (vs : List Int), let v := s.facing i (.ticked 0x53); let ps := Bundle.bundlecfgParams
    let ms := ([Bundle.M0, Bundle.M1, Bundle.M2, Bundle.M3].map (pn ps vs)).take (pn ps vs Bundle.COUNT)
    s.passes i (.ticked 0x53) (judgeBundlecfg i) → getParams ps true i = some vs →
    (i.sub = 0 → targets i 0x35 (U.sbundle 0) 512 = some [b] →
      s.stages (.bundlecfg i) i (.ticked 0x53) [⟨v.thn i.th Lamp.PLAN, 2, [⟨U.sbundle b, 0⟩], [], .cfg 0x53 b 0 vs⟩]) ∧
    (i.sub = 1 → targets i 0x36 (U.dbundle 0) 512 = some [b] → let old := v.bundleMembers (U.dbundle b)
      s.stages (.bundlecfg i) i (.ticked 0x53) [⟨v.cellN (ms.headD (old.headD 0)) Cell.PLAN, 2,
        (old ++ ms).eraseDups.map fun d => ⟨U.cell d, 0⟩, [], .cfg 0x53 b 1 vs⟩])) ∧
  (∀ (i : Issue) (s : State) (rs : List Nat), let v := s.facing i (.ticked 0x56)
    s.passes i (.ticked 0x56) (judgeRetcfg i) → targets i 0x34 (U.ret 0) 192 = some rs → i.sub < 4096 →
    s.stages (.retcfg i) i (.ticked 0x56) (rs.map fun r => ⟨if i.sub < 2688 then v.cellN i.sub Cell.PLAN else v.thn i.th Lamp.PLAN, 0,
      [⟨U.ret r, 0⟩], [U.ret r], .cfg 0x56 r 0 [(i.sub : Int)]⟩)) ∧
  (∀ (i : Issue) (s : State) (gs : List Nat) (vs : List Int), let v := s.facing i (.ticked 0x54)
    s.passes i (.ticked 0x54) (judgeSigncfg i) → targets i 0x33 (U.sign 0) 48 = some gs → getParams Sign.signcfgParams false i = some vs →
    s.stages (.signcfg i) i (.ticked 0x54) (gs.map fun g => ⟨if v.rb (U.sign g) Sign.ENABLE then v.rn (U.sign g) Sign.PLAN
      else pn Sign.signcfgParams vs Sign.PLAN, 0, [⟨U.sign g, 0⟩], [U.sign g], .cfg 0x54 g 0 vs⟩)) ∧
  (∀ (i : Issue) (s : State) (p : Nat) (vs : List Int), let v := s.facing i (.ticked 0x55)
    s.passes i (.ticked 0x55) (judgeWatchcfg i) → elements i 64 = some [p] → getParams Probe.watchcfgParams false i = some vs →
    s.stages (.watchcfg i) i (.ticked 0x55) [⟨v.cellN (2624 + p) Cell.PLAN, 0, [⟨U.probe p, 0⟩], [U.cell (2624 + p)], .cfg 0x55 p 0 vs⟩]) ∧
  (∀ (i : Issue) (s : State) (ks : List Nat) (vs : List Int), let v := s.facing i (.ticked 0x52)
    s.passes i (.ticked 0x52) (judgeKerbcfg i) → targets i 0x05 (U.kerb 0) 2304 = some ks → getParams Kerb.kerbcfgParams false i = some vs →
    s.stages (.kerbcfg i) i (.ticked 0x52) (ks.map fun k => ⟨v.rn (U.kerb k) Kerb.PLAN, 0, [⟨U.kerb k, 0⟩], [U.kerb k], .cfg 0x52 k 0 vs⟩)) ∧
  (∀ (i : Issue) (s : State) (p : Nat) (vs : List Int), let v := s.facing i (.ticked 0x50); let tp := v.thn i.th Lamp.PLAN
    s.passes i (.ticked 0x50) (judgePlancfg i) → targets i 0x32 (U.plan 0) 16 = some [p] → getParams Plan.plancfgParams false i = some vs →
    (v.planOn p = true → s.stages (.plancfg i) i (.ticked 0x50) [⟨p, 0, [⟨U.plan p, 0⟩], [], .cfg 0x50 p 0 vs⟩]) ∧
    (v.planOn p = false → v.planOn tp = true →
      s.stages (.plancfg i) i (.ticked 0x50) [⟨tp, 0, [⟨U.plan p, 0⟩], [], .cfg 0x50 p 0 vs⟩]) ∧
    (v.planOn p = false → v.planOn tp = false →
      ∃ t, exec (.plancfg i) s = .next t ∧ t.pget i.th 0 = true ∧ State.sameUnits i.th t (v.commitPlancfg p 0 vs)))

/-- `headcommit`, once its checks pass, stages the shadows of the heads it names as one effect on the plan of the first; `grancfg` the configuration of
each Granary slot on the slot's own plan (on the one it names where the slot is OFF), and `subcfg` that of one stream of each slot on the plan that
`slotPlan` gives. Rests on parts of R98, Table 16.7, 09_granary.md, 10_plaza.md. -/
def Obligations.PictureConfigurationsAreStaged : Prop :=
  (∀ (i : Issue) (s : State) (hs : List Nat), let v := s.facing i (.ticked 0x42); let cs := hs.map fun h => (h, v.headShadow h)
    s.passes i (.ticked 0x42) (judgeHeadcommit i) → headMask i = some hs →
    s.stages (.headcommit i) i (.ticked 0x42) [⟨v.rn (U.head (hs.headD 0)) Head.PLAN, 0, hs.map fun h => ⟨U.head h, 0⟩,
      hs.map U.head ++ ((cs.flatMap fun c => c.2.tiles).map (·.scaler)).eraseDups.map U.scaler,
      .cfg 0x42 (hs.foldl (fun a h => a + 2 ^ h) 0) 0 (cs.flatMap fun c => c.2.vals)⟩]) ∧
  (∀ (i : Issue) (s : State) (ls : List Nat) (vs : List Int), let v := s.facing i (.ticked 0x43); let ps := Gran.grancfgParams
    s.passes i (.ticked 0x43) (judgeGrancfg i) → targets i 0x11 (U.gran 0) 128 = some ls → getParams ps false i = some vs →
    s.stages (.grancfg i) i (.ticked 0x43) (ls.map fun l => ⟨if v.granMode l = 0 then pn ps vs Gran.PLAN else v.rn (U.gran l) Gran.PLAN, 0,
      [⟨U.gran l, 0⟩], if pn ps vs Gran.MODE = 0 then [] else [U.gran l], .cfg 0x43 l 0 vs⟩)) ∧
  (∀ (i : Issue) (s : State) (ls : List Nat) (vs : List Int), let v := s.facing i (.ticked 0x44)
    s.passes i (.ticked 0x44) (judgeSubcfg i) → targets i 0x11 (U.gran 0) 128 = some ls → i.sub < 8 → getParams Sub.subcfgParams true i = some vs →
    s.stages (.subcfg i) i (.ticked 0x44) (ls.map fun l => ⟨v.slotPlan i.th l, 0, [⟨U.sub l i.sub, 0⟩], [U.gran l], .cfg 0x44 l i.sub vs⟩))

/-- The instructions that configure the Sheaf and its slots, once their checks pass, stage what they name on the plan of the slot: an entry set, added at
the lowest place with no active entry, counting what the thread has staged, or cleared; a slot's settings, its limiter, its delay and its channel-
status source; a compressor's settings on the plan of the slot it names (where the value is the one that keeps the slot, of the slot it has; of the
thread where it then has none), and a loudness reset on the plan of the thread. Rests on parts of R98, Table 16.7, 11_audio_pool_and_sheaf.md,
12_audio_processing_and_ports.md. -/
def Obligations.MixConfigurationsAreStaged : Prop :=
  (∀ (i : Issue) (s : State), let v := s.facing i (.ticked 0x30); s.passes i (.ticked 0x30) (judgeSheafset i) → i.sub < 32 →
    s.stages (.sheafset i) i (.ticked 0x30) [⟨v.rn (U.slot i.index) Slot.PLAN, 0, [⟨U.slot i.index, i.sub⟩], [], .cfg 0x30 i.index i.sub [(entWord i : Int)]⟩]) ∧
  (∀ (i : Issue) (s : State) (e : Nat), let v := s.facing i (.ticked 0x31); s.passes i (.ticked 0x31) (judgeSheafadd i) →
    (e < 32 ∧ entActive (v.entryFor i.th i.index e) = false ∧ ∀ k < e, entActive (v.entryFor i.th i.index k) = true) →
    s.stages (.sheafadd i) i (.ticked 0x31) [⟨v.rn (U.slot i.index) Slot.PLAN, 0, [⟨U.slot i.index, e⟩], [], .cfg 0x30 i.index e [(entWord i : Int)]⟩]) ∧
  (∀ (i : Issue) (s : State), let v := s.facing i (.ticked 0x32); s.passes i (.ticked 0x32) (judgeSheafclr i) → i.sub < 32 →
    s.stages (.sheafclr i) i (.ticked 0x32) [⟨v.rn (U.slot i.index) Slot.PLAN, 0, [⟨U.slot i.index, i.sub⟩], [], .cfg 0x32 i.index i.sub []⟩]) ∧
  (∀ (i : Issue) (s : State), let v := s.facing i (.ticked 0x33); s.passes i (.ticked 0x33) (judgeLoudreset i) → i.index < 1024 →
    s.stages (.loudreset i) i (.ticked 0x33) [⟨v.thn i.th Lamp.PLAN, 0, [⟨U.loud i.index, 0⟩], [], .cfg 0x33 i.index 0 []⟩]) ∧
  (∀ (i : Issue) (s : State) (vs : List Int), i.index < 65536 → let plan := fun (v : State) => v.rn (U.slot i.index) Slot.PLAN
    (s.passes i (.ticked 0x60) (judgeSlotcfg i) → getParams Slot.slotcfgParams false i = some vs →
      s.stages (.slotcfg i) i (.ticked 0x60) [⟨plan (s.facing i (.ticked 0x60)), 0, [⟨U.slot i.index, 100⟩], [], .cfg 0x60 i.index 0 vs⟩]) ∧
    (s.passes i (.ticked 0x66) (judgeLimcfg i) → getParams Slot.limcfgParams false i = some vs →
      s.stages (.limcfg i) i (.ticked 0x66) [⟨plan (s.facing i (.ticked 0x66)), 0, [⟨U.slot i.index, 101⟩], [], .cfg 0x66 i.index 0 vs⟩]) ∧
    (s.passes i (.ticked 0x68) (judgeDelaycfg i) → getParams Slot.delaycfgParams false i = some vs →
      s.stages (.delaycfg i) i (.ticked 0x68) [⟨plan (s.facing i (.ticked 0x68)), 0, [⟨U.slot i.index, 102⟩], [], .cfg 0x68 i.index 0 vs⟩]) ∧
    (s.passes i (.ticked 0x69) (judgeCscfg i) →
      s.stages (.cscfg i) i (.ticked 0x69) [⟨plan (s.facing i (.ticked 0x69)), 0, [⟨U.slot i.index, 103⟩], [],
        .cfg 0x69 i.index 0 [((i.sub % 2 : Nat) : Int), (bitsAt i.sub 17 1 : Int)]⟩])) ∧
  (∀ (i : Issue) (s : State) (vs : List Int), let v := s.facing i (.ticked 0x67); let ps := Comp.compcfgParams
    let sl := if pn ps vs Comp.SLOT = 0x1FFFF then v.rn (U.comp i.index) Comp.SLOT else pn ps vs Comp.SLOT
    s.passes i (.ticked 0x67) (judgeCompcfg i) → i.index < 8192 → getParams ps false i = some vs →
    s.stages (.compcfg i) i (.ticked 0x67) [⟨if sl = 0x1FFFF then v.thn i.th Lamp.PLAN else v.rn (U.slot sl) Slot.PLAN, 0,
      [⟨U.comp i.index, 0⟩], [], .cfg 0x67 i.index 0 vs⟩])

/-- The other audio instructions, once their checks pass, stage: a de-embedder, and the rate converter of one, on the plan of its Kerb where that is TIMED
(else of the thread), the other rate converters, Stook sides and taps on the plan of the thread, a tone source on the plan of its generator, a fade on
the plan of its source (else of the thread), and an embedder on the plan of its Cell. Rests on parts of R98, Table 16.7, 11_audio_pool_and_sheaf.md,
12_audio_processing_and_ports.md. -/
def Obligations.AudioConfigurationsAreStaged : Prop :=
  (∀ (i : Issue) (s : State) (ks : List Nat) (vs : List Int), let v := s.facing i (.ticked 0x62)
    s.passes i (.ticked 0x62) (judgeDeembcfg i) → targets i 0x23 (U.deemb 0) 2304 = some ks → getParams Deemb.deembcfgParams false i = some vs →
    s.stages (.deembcfg i) i (.ticked 0x62) (ks.map fun k => ⟨v.kerbPlan k i.th, 0, [⟨U.deemb k, 0⟩], [U.deemb k], .cfg 0x62 k 0 vs⟩)) ∧
  (∀ (i : Issue) (s : State) (gs : List Nat) (vs : List Int), let v := s.facing i (.ticked 0x63)
    s.passes i (.ticked 0x63) (judgeTonecfg i) → targets i 0x33 (U.sign 0) 48 = some gs → getParams Tone.tonecfgParams false i = some vs →
    s.stages (.tonecfg i) i (.ticked 0x63) (gs.map fun g => ⟨v.rn (U.sign g) Sign.PLAN, 0, [⟨U.tone g, 0⟩], [U.sign g], .cfg 0x63 g 0 vs⟩)) ∧
  (∀ (i : Issue) (s : State) (vs : List Int), let v := s.facing i (.ticked 0x64)
    s.passes i (.ticked 0x64) (judgeAfvcfg i) → i.index < 2688 → getParams Afv.afvcfgParams false i = some vs →
    s.stages (.afvcfg i) i (.ticked 0x64) [⟨(v.srcPlan i.index).getD (v.thn i.th Lamp.PLAN), 0, [⟨U.afv i.index, 0⟩], [], .cfg 0x64 i.index 0 vs⟩]) ∧
  (∀ (i : Issue) (s : State) (ds : List Nat) (vs : List Int), let v := s.facing i (.ticked 0x65)
    s.passes i (.ticked 0x65) (judgeEmbcfg i) → targets i 0x24 (U.emb 0) 2304 = some ds → getParams Emb.embcfgParams false i = some vs →
    s.stages (.embcfg i) i (.ticked 0x65) (ds.map fun d => ⟨v.cellN d Cell.PLAN, 0, [⟨U.emb d, 0⟩], [U.emb d], .cfg 0x65 d 0 vs⟩)) ∧
  (∀ (i : Issue) (s : State) (ns : List Nat) (vs : List Int), let v := s.facing i (.ticked 0x6E)
    s.passes i (.ticked 0x6E) (judgeStookcfg i) → targets i 0x25 (U.stookPort 0) 16 = some ns → i.sub < 2 → getParams Stook.stookcfgParams true i = some vs →
    s.stages (.stookcfg i) i (.ticked 0x6E) (ns.map fun n => ⟨v.thn i.th Lamp.PLAN, 0, [⟨U.stookSide n i.sub, 0⟩],
      [U.stookPort n, U.stookSide n i.sub], .cfg 0x6E n i.sub vs⟩)) ∧
  (∀ (i : Issue) (s : State) (ks : List Nat), let v := s.facing i (.ticked 0x6F); let kind := i.sub % 4
    s.passes i (.ticked 0x6F) (judgeAsrccfg i) →
    (if kind = 0 then targets i 0x23 (U.deemb 0) 2304 else if kind = 1 then targets i 0x0B (U.rx 0) 8192 else targets i 0x25 (U.stookPort 0) 16) = some ks →
    s.stages (.asrccfg i) i (.ticked 0x6F) (ks.map fun k => ⟨if kind = 0 then v.kerbPlan k i.th else v.thn i.th Lamp.PLAN, 3,
      [⟨asrcUnit kind k, 0⟩], [asrcUnit kind k], .cfg 0x6F k kind [(bitsAt i.sub 2 2 : Int)]⟩)) ∧
  (∀ (i : Issue) (s : State) (ns : List Nat) (vs : List Int), let v := s.facing i (.ticked 0x70)
    s.passes i (.ticked 0x70) (judgeTapcfg i) → targets i 0x27 (U.tap 0) 64 = some ns → getParams Tap.tapcfgParams false i = some vs →
    s.stages (.tapcfg i) i (.ticked 0x70) (ns.map fun n => ⟨v.thn i.th Lamp.PLAN, 0, [⟨U.tap n, 0⟩], [U.tap n], .cfg 0x70 n 0 vs⟩))

/-- `rxflow`, `txflow`, `fwdcfg`, `ttset` and `twinswitch`, once their checks pass, stage their unit's new settings: a receive context on the plan that
`rxPlan` gives the seat it names, a transmit context on the plan of the Cell it reads (of the thread where it reads none), a forwarded output and a
timed output on the plan of the thread, and the exchange of roles on TWIN_PLAN (R435). Rests on parts of R207, R227, R247, R408, Table 16.7. -/
def Obligations.FlowAndTimeConfigurationsAreStaged : Prop :=
  (∀ (i : Issue) (s : State) (cs : List Nat) (vs : List Int), let v := s.facing i (.ticked 0xA0)
    s.passes i (.ticked 0xA0) (judgeRxflow i) → targets i 0x0B (U.rx 0) 8192 = some cs → getParams Rx.rxflowParams false i = some vs →
    s.stages (.rxflow i) i (.ticked 0xA0) (cs.map fun c => ⟨v.rxPlan (pn Rx.rxflowParams vs Rx.SEAT) i.th, 0, [⟨U.rx c, 0⟩], [U.rx c], .cfg 0xA0 c 0 vs⟩)) ∧
  (∀ (i : Issue) (s : State) (cs : List Nat) (vs : List Int), let v := s.facing i (.ticked 0xA1); let seat := pn Tx.txflowParams vs Tx.SEAT
    s.passes i (.ticked 0xA1) (judgeTxflow i) → targets i 0x0C (U.tx 0) 8192 = some cs → getParams Tx.txflowParams false i = some vs →
    s.stages (.txflow i) i (.ticked 0xA1) (cs.map fun c => ⟨if seat = 0x7FF then v.thn i.th Lamp.PLAN else v.cellN (1152 + seat) Cell.PLAN, 0,
      [⟨U.tx c, 0⟩], [U.tx c], .cfg 0xA1 c 0 vs⟩)) ∧
  (∀ (i : Issue) (s : State) (os : List Nat) (vs : List Int), let v := s.facing i (.ticked 0xA2)
    s.passes i (.ticked 0xA2) (judgeFwdcfg i) → targets i 0x0D (U.fwd 0) 1024 = some os → getParams Fwd.fwdcfgParams false i = some vs →
    s.stages (.fwdcfg i) i (.ticked 0xA2) (os.map fun o => ⟨v.thn i.th Lamp.PLAN, 0, [⟨U.fwd o, 0⟩], [U.fwd o], .cfg 0xA2 o 0 vs⟩)) ∧
  (∀ (i : Issue) (s : State) (ns : List Nat), let v := s.facing i (.ticked 0x90)
    s.passes i (.ticked 0x90) (judgeTtset i) → targets i 0x45 (U.tt 0) 4 = some ns →
    s.stages (.ttset i) i (.ticked 0x90) (ns.map fun n => ⟨v.thn i.th Lamp.PLAN, 0, [⟨U.tt n, 0⟩], [], .cfg 0x90 n 0 [(i.sub : Int)]⟩)) ∧
  (∀ (i : Issue) (s : State), let v := s.facing i (.ticked 0xF1)
    s.passes i (.ticked 0xF1) (judgeTwinswitch i) →
    s.stages (.twinswitch i) i (.ticked 0xF1) [⟨v.twN Twin.TWIN_PLAN, 0, [⟨U.twin, 0⟩], [], .cfg 0xF1 0 0 []⟩])

/-- `lock`, `protect` and `unlock` that pass leave each named Cell LOCKED, PROTECTED or FREE, with the thread as its OWNER, and change nothing else but
the thread's own registers and reports. Rests on parts of R124, R453. -/
def Obligations.LocksTaken : Prop :=
  ∀ (i : Issue) (s : State) (c : Instr) (target : Nat) (ds : List Nat),
    (c = .lock i ∧ target = 2) ∨ (c = .protect i ∧ target = 1) ∨ (c = .unlock i ∧ target = 0) →
    let v := s.facing i .other
    let dest := if i.regImm then (v.gget i.th (i.dest % 16)).toNat % 2 ^ 16 else i.dest
    s.passes i .other (judgeLock i target) → (if i.group then cellsOf dest else some [dest]) = some ds → (∀ d ∈ ds, d < 2688) →
    s.does c i fun t => (∀ d ∈ ds, t.cellN d Cell.LOCK = target ∧ t.cellN d Cell.OWNER = i.th) ∧
      State.sameUnits i.th t { s.after i.dt with regs := t.regs } ∧
      (∀ u f, u ≠ U.thread i.th → u ≠ U.crier → u ≠ U.host → (∀ d ∈ ds, u ≠ U.cell d) ∨ (f.pos ≠ Cell.LOCK.pos ∧ f.pos ≠ Cell.OWNER.pos) →
        t.rd u f = (s.after i.dt).rd u f)

/-- Each of these immediate settings, once it passes, writes its values into the elements it names: the shadow of picture heads (`headset`), a descriptor
of their shadow layers (`layerset`), an audio ramp (`rampcfg`), a detector profile (`detcfg`) and its assignment to a range of channels, which
replaces the ranges within it (`detassign`), a clock output (`clkoutcfg`), a PTP port (`ptpport`), a transparent-clock group (`tccfg`) and a capture
input (`captcfg`). Nothing else changes but the thread's own registers and reports. Rests on parts of R283, R290, R320, R347, R387, R392, R398, R405. -/
def Obligations.SettingsTakenAtOnce : Prop :=
  ∀ (i : Issue) (s : State) (vs : List Int) (ts : List Nat), let v := s.facing i .other; let before := s.after i.dt
    let elsewhere (t : State) (written : Nat → Field → Prop) : Prop := State.sameUnits i.th t { before with regs := t.regs } ∧
      ∀ u f, u ≠ U.thread i.th → u ≠ U.crier → u ≠ U.host → ¬ written u f → t.rd u f = before.rd u f
    let writes (c : Instr) (base : Nat → Nat) (ps : List Param) : Prop := s.does c i fun t => (∀ n ∈ ts, t.shows (base n) ps vs) ∧
      elsewhere t fun u f => (∃ n ∈ ts, u = base n) ∧ ∃ p ∈ ps, p.fld.pos = f.pos
    (s.passes i .other (judgeHeadset i) → targets i 0x16 (U.head 0) 16 = some ts → getParams Head.headsetParams false i = some vs →
      writes (.headset i) U.head Head.headsetParams) ∧
    (s.passes i .other (judgeRampcfg i) → elements i 32 = some ts → getParams Ramp.rampcfgParams false i = some vs →
      writes (.rampcfg i) U.ramp Ramp.rampcfgParams) ∧
    (s.passes i .other (judgeDetcfg i) → elements i 16 = some ts → getParams DetProf.detcfgParams false i = some vs →
      writes (.detcfg i) U.detProf DetProf.detcfgParams) ∧
    (s.passes i .other (judgeClkoutcfg i) → targets i 0x46 (U.clkout 0) 2 = some ts → getParams ClkOut.clkoutcfgParams false i = some vs →
      writes (.clkoutcfg i) U.clkout ClkOut.clkoutcfgParams) ∧
    (s.passes i .other (judgePtpport i) → targets i 0x0A (U.mac 0) 144 = some ts → getParams Mac.ptpportParams false i = some vs →
      writes (.ptpport i) U.mac Mac.ptpportParams) ∧
    (s.passes i .other (judgeTccfg i) → i.index < 15 → s.does (.tccfg i) i fun t => t.rd (U.tcGroup i.index) TcGroup.MODE = i.sub ∧
      elsewhere t fun u f => u = U.tcGroup i.index ∧ f.pos = TcGroup.MODE.pos) ∧
    (s.passes i .other (judgeCaptcfg i) → targets i 0x44 (U.capt 0) 4 = some ts →
      s.does (.captcfg i) i fun t => (∀ n ∈ ts, t.rd (U.capt n) Capt.EDGES = (i.sub % 4 : Nat) ∧ t.rd (U.capt n) Capt.EVENT = (i.sub / 4 : Nat)) ∧
        elsewhere t fun u f => (∃ n ∈ ts, u = U.capt n) ∧ (f.pos = Capt.EDGES.pos ∨ f.pos = Capt.EVENT.pos)) ∧
    (s.passes i .other (judgeLayerset i) → targets i 0x16 (U.head 0) 16 = some ts →
      s.does (.layerset i) i fun t => (∀ h ∈ ts, ∀ k < 4, Tbl.get ⟨h, 256 + 4 * i.sub + k⟩ 0 t.layers = i.params.getD k 0) ∧
        (∀ h k, ¬ (h ∈ ts ∧ 256 + 4 * i.sub ≤ k ∧ k < 256 + 4 * i.sub + 4) → Tbl.get ⟨h, k⟩ 0 t.layers = Tbl.get ⟨h, k⟩ 0 before.layers) ∧
        State.sameUnits i.th t { before with layers := t.layers }) ∧
    (s.passes i .other (judgeDetassign i) → getParams Assign.params false i = some vs →
      let n := pn Assign.params vs
      let kept := (rangesOf (v.buf U.detector (n Assign.SPACE))).filter fun r => !(decide (n Assign.FIRST ≤ r.1) && decide (r.1 + r.2.1 ≤ n Assign.FIRST + n Assign.COUNT))
      s.does (.detassign i) i fun t => rangesOf (t.buf U.detector (n Assign.SPACE)) = kept ++ [(n Assign.FIRST, n Assign.COUNT, n Assign.PROFILE)] ∧
        (∀ u k, ¬ (u = U.detector ∧ k = n Assign.SPACE) → t.buf u k = before.buf u k) ∧ State.sameUnits i.th t { before with bufs := t.bufs })

/-- `loudcfg`, once it passes, writes a meter's roles and empties what it has gathered, so that it measures afresh, and wakes the detector where a role is
given; `corrcfg` sets the pair a correlator measures, empties its sums and samples, and wakes the detector. Nothing else changes but the thread's own
registers and reports. Rests on parts of R349, R350. -/
def Obligations.MetersConfigured : Prop :=
  ∀ (i : Issue) (s : State) (vs : List Int), let v := s.facing i .other
    let fresh (c : Instr) (u : Nat) (ps : List Param) (woken : State) (P : State → Prop) : Prop := s.does c i fun t => t.shows u ps vs ∧ P t ∧
      State.sameUnits i.th t { woken with regs := t.regs, bufs := t.bufs } ∧
      (∀ w f, w ≠ u → w ≠ U.thread i.th → w ≠ U.crier → w ≠ U.host → t.rd w f = woken.rd w f) ∧ ∀ w k, w ≠ u → t.buf w k = woken.buf w k
    (s.passes i .other (judgeLoudcfg i) → getParams Loud.loudcfgParams false i = some vs →
      fresh (.loudcfg i) (U.loud i.index) Loud.loudcfgParams
        (if (List.range 8).any fun q => pn Loud.loudcfgParams vs (Loud.roleF q) != 0 then v.wake U.detector else v) fun t =>
          t.rd (U.loud i.index) Loud.since = -1 ∧ t.rd (U.loud i.index) Loud.acc = 0 ∧ t.rd (U.loud i.index) Loud.tpNow = 0 ∧ t.rd (U.loud i.index) Loud.tpAll = 0 ∧
          t.buf (U.loud i.index) 0 = [] ∧ t.buf (U.loud i.index) 1 = [] ∧
          ∀ q < 8, t.buf (U.loud i.index) (10 + q) = [] ∧ t.buf (U.loud i.index) (20 + q) = []) ∧
    (s.passes i .other (judgeCorrcfg i) → getParams Corr.corrcfgParams false i = some vs →
      fresh (.corrcfg i) (U.corr i.index) Corr.corrcfgParams (v.wake U.detector) fun t =>
        t.rd (U.corr i.index) Corr.set = 1 ∧ t.rd (U.corr i.index) Corr.n = 0 ∧ t.rd (U.corr i.index) Corr.xy = 0 ∧ t.rd (U.corr i.index) Corr.xx = 0 ∧
        t.rd (U.corr i.index) Corr.yy = 0 ∧ ∀ k < 4, t.buf (U.corr i.index) k = [])

/-- Once their checks pass, `clsadd` leaves the table that `clsInsert` gives for its key and result, `clsdel` the one without its key, and `clswild` the
one with the wildcard entry it names written, or cleared where MASK and action are 0; the membership reports that the change makes due are noted
(`noteGroups`), and nothing else changes but the thread's own registers and reports. Rests on parts of R205, R206, R250. -/
def Obligations.ClassifierChanged : Prop :=
  ∀ (i : Issue) (s : State), let v := s.facing i .other; let k := wordsNat i.params
    let becomes (c : Instr) (tbl : Tbl (List Nat)) : Prop :=
      s.does c i fun t => t.classifier = tbl ∧ State.sameUnits i.th t (State.noteGroups { v with classifier := tbl } v)
    (∀ tbl, s.passes i .other (judgeClsadd i) → clsInsert v.classifier k i.sub = some tbl → becomes (.clsadd i) tbl) ∧
    (∀ ps, s.passes i .other (judgeClsdel i) → clsFind v.classifier k = some ps → becomes (.clsdel i) (clsRemove v.classifier ps)) ∧
    (s.passes i .other (judgeClswild i) → let m := wordsNat (i.params.drop 5)
      becomes (.clswild i) (if m = 0 ∧ resAction i.sub = 0 then Tbl.del ⟨4, i.index⟩ v.classifier
        else Tbl.put ⟨4, i.index⟩ [wordsNat (i.params.take 5), m, i.sub] v.classifier))

/-- The tributary, lane, port and PLL instructions, once they pass, leave what the model's operation on one of them leaves, done in order on every one
they name: `tribcfg` on tributaries; `lanecfg` on lanes, one of a group for each Ethernet port; `lanepwr` moves the sides it names, on the lanes of
every port named, to the state it names; `maccfg` takes the parameters of MACs and notes the membership reports that become due; `pllcfg` sets the
family, and `lanetrain` begins training, the first a BACKGROUND operation until the lock where a family is set and the PLL has no lock, the second one
until training ends. `laneeq`, on every lane of the ports it names, writes the FFE setting of the TX side and the mode of the RX side's equaliser
where it names the side, and the CTLE and the DFE taps where the mode is set by hand; `lanetest` writes the test settings on every lane of the ports
it names, and where what is checked changes, no PRBS lock stands. No register of another unit changes, and nothing but registers (with `lanetest`,
counters: an injection is counted) and the thread's reports. Rests on parts of R144, R146, R149, R154, R155, R164, R196, R152, R158, R159. -/
def Obligations.LanesAndPortsConfigured : Prop :=
  (∀ (i : Issue) (s : State) (vs : List Int) (ts : List Nat), let v := s.facing i .other
     let becomes (c : Instr) (e : State) : Prop := s.does c i fun t => State.sameUnits i.th t e
     let awaits (c : Instr) (e : State) (op ix sub : Nat) (l : List Int) : Prop := s.does c i fun t => State.sameUnits i.th t e ∧
       ∃ b ∈ t.bg, b.th = i.th ∧ b.op = op ∧ b.index = ix ∧ b.sub = sub ∧ b.vals = l
     (s.passes i .other (judgeTribcfg i) → targets i 0x06 (U.trib 0) 1152 = some ts → getParams Trib.tribcfgParams false i = some vs →
       becomes (.tribcfg i) (ts.foldl (fun a n => a.tribTake vs n) v)) ∧
     (s.passes i .other (judgeLanecfg i) → laneTargets i = some ts → getParams Lane.lanecfgParams false i = some vs →
       let acted := ts.filter fun l => decide (ts.length = 1) || pn Lane.lanecfgParams vs Lane.MODE != 2 || l % portWidth (pn Lane.lanecfgParams vs Lane.PORT) == 0
       becomes (.lanecfg i) (acted.foldl (fun a l => a.laneConfigure vs l) v)) ∧
     (s.passes i .other (judgeMaccfg i) → targets i 0x0A (U.mac 0) 144 = some ts → getParams Mac.maccfgParams false i = some vs →
       becomes (.maccfg i) ((ts.foldl (fun a m => a.macTake vs m) v).noteGroups v)) ∧
     (s.passes i .other (judgeLanepwr i) → laneTargets i = some ts → let st := bitsAt i.sub 3 2
       becomes (.lanepwr i) ((ts.flatMap v.portLanes).eraseDups.foldl (fun a l =>
         let b := if bitAt i.sub 0 then a.setSide l st true else a; if bitAt i.sub 1 then b.setSide l st false else b) v)) ∧
     (s.passes i .other (judgeLanetrain i) → laneTargets i = some ts → let acted := (ts.flatMap v.portLanes).eraseDups
       awaits (.lanetrain i) (acted.foldl (fun a l => (a.startTrain l).evalLink l) v) 0x5B 0 0 (acted.map fun (l : Nat) => (l : Int))) ∧
     (∀ n, s.passes i .other (judgePllcfg i) → targets i 0x07 (U.avenue 0) 36 = some [n] → let pll := i.sub % 2; let fam := bitsAt i.sub 3 1
       let e := if v.rn (U.avenue n) (pllFamilyF pll) ≠ fam then v.wrs (U.avenue n) [(pllFamilyF pll, (fam : Int)), (pllLockF pll, 0)] else v
       (fam = 0 ∨ e.rb (U.avenue n) (pllLockF pll) = true → becomes (.pllcfg i) e) ∧
       (fam ≠ 0 → e.rb (U.avenue n) (pllLockF pll) = false → awaits (.pllcfg i) e 0x58 n pll []))) ∧
  (∀ (i : Issue) (s : State) (ts : List Nat), laneTargets i = some ts → let v := s.facing i .other; let before := s.after i.dt
     let ls := (ts.flatMap v.portLanes).eraseDups
     let elsewhere (t : State) : Prop := ∀ u f, u ≠ U.thread i.th → u ≠ U.crier → u ≠ U.host → (∀ l ∈ ls, u ≠ U.lane l) → t.rd u f = before.rd u f
     (∀ h d, s.passes i .other (judgeLaneeq i) → laneeqParse i = some (h, d) → s.does (.laneeq i) i fun t => (∀ l ∈ ls,
       (bitAt i.sub 0 = true → t.rd (U.lane l) Lane.FFE = Lane.FFE.norm ((h.headD 0).toNat : Int)) ∧
       (bitAt i.sub 1 = true → t.rd (U.lane l) Lane.EQ_MODE = Lane.EQ_MODE.norm (h.getD 1 0) ∧
         (h.getD 1 0 = 2 → t.rd (U.lane l) Lane.CTLE = Lane.CTLE.norm (h.getD 2 0) ∧ ∀ e ∈ eqDfe.zip d, t.rd (U.lane l) e.1 = e.1.norm e.2))) ∧
       elsewhere t ∧ State.sameUnits i.th t { before with regs := t.regs }) ∧
     (∀ vs, s.passes i .other (judgeLanetest i) → getParams Lane.lanetestParams false i = some vs → s.does (.lanetest i) i fun t => (∀ l ∈ ls,
       t.shows (U.lane l) Lane.lanetestParams vs ∧
       ((∃ f ∈ [Lane.CHK_EN, Lane.CHK_PAT, Lane.CHK_INV], t.rd (U.lane l) f ≠ before.rd (U.lane l) f) → t.rd (U.lane l) Lane.PRBS_LOCK = 0)) ∧
       elsewhere t ∧ State.sameUnits i.th t { before with regs := t.regs, ctrs := t.ctrs }))

/-- `towersteer` carries out each part that its SUB names: bit 0 stores the frequency trim, bit 1 adds the phase step to what is still pending, within the
register's range, and bit 2 sets the seconds of system time at the next whole second. No other unit changes. Rests on parts of R383. -/
def Obligations.TowerSteered : Prop :=
  ∀ (i : Issue) (s : State) (c : Instr) (vs : List Int), c = .freqTrim i ∨ c = .phaseStep i ∨ c = .seconds i →
    let v := s.facing i .other; let ps := Steer.params
    s.passes i .other (judgeSteer i) → getParams ps true i = some vs →
    s.does c i fun t =>
      (bitAt i.sub 0 = true → t.rd U.tower Tower.FREQ_TRIM = Tower.FREQ_TRIM.norm (pv ps vs Steer.TRIM)) ∧
      (bitAt i.sub 0 = false → t.rd U.tower Tower.FREQ_TRIM = (s.after i.dt).rd U.tower Tower.FREQ_TRIM) ∧
      (bitAt i.sub 1 = true → let a := if bitAt i.sub 0 then v.wr U.tower Tower.FREQ_TRIM (pv ps vs Steer.TRIM) else v
        t.rd U.tower Tower.PHASE_PENDING = Tower.PHASE_PENDING.norm
          (max (-(2 ^ 31)) (min (2 ^ 31 - 1) (Tower.PHASE_PENDING.norm a.phasePending + pv ps vs Steer.STEP)))) ∧
      (bitAt i.sub 1 = false → t.rd U.tower Tower.PHASE_PENDING = (s.after i.dt).rd U.tower Tower.PHASE_PENDING) ∧
      (bitAt i.sub 2 = true → t.setAt = v.clk + (Config.second - v.now % Config.second) ∧
        t.setBy = ((pn ps vs Steer.SECS : Int) - (v.nowS + 1 : Nat)) * Config.second) ∧
      (bitAt i.sub 2 = false → t.setAt = v.setAt ∧ t.setBy = v.setBy) ∧
      ∀ u f, u ≠ U.thread i.th → u ≠ U.crier → u ≠ U.host → u ≠ U.tower → t.rd u f = (s.after i.dt).rd u f

/-- `towercand` takes a reference's settings, which leave it DISABLED, MISSING until it qualifies, as it was, or lost where the source of its marks
changes; `towertable` takes a priority table and, where it is the active one, the Tower selects anew; `towercfg` takes the loop's settings and the
active table. Rests on parts of R367, R371, R372, R374, R377. -/
def Obligations.TowerConfigured : Prop :=
  ∀ (i : Issue) (s : State) (vs : List Int), let v := s.facing i .other
    (∀ c, s.passes i .other (judgeTowercand i) → targets i 0x41 (U.cand 0) 12 = some [c] → getParams Cand.towercandParams false i = some vs →
      let ps := Cand.towercandParams
      let b := v.wrParams (U.cand c) ps vs
      let hard := [Cand.FORMAT, Cand.RASTER, Cand.EDGE, Cand.SEAT].any fun f => pv ps vs f != v.rd (U.cand c) f
      s.does (.towercand i) i fun t => State.sameUnits i.th t
        (if pv ps vs Cand.ENABLE = 0 then
          (((b.candLeave c cdDisabled 0).wrs (U.cand c) [(Cand.last, 0), (Cand.hasRel, 0)]).setBuf (U.cand c) 0 []).reselect false false
        else if v.candState c = cdDisabled then b.wr (U.cand c) Cand.STATE cdMissing else if hard then b.candLost c 0 else b) ∧
        (pv ps vs Cand.ENABLE ≠ 0 → v.candState c = cdDisabled ∨ hard = false → t.shows (U.cand c) ps vs) ∧
        (pv ps vs Cand.ENABLE ≠ 0 → v.candState c = cdDisabled → t.candState c = cdMissing)) ∧
    (s.passes i .other (judgeTowertable i) → i.index < 4 → getParams TTab.towertableParams false i = some vs →
      let e := (v.wrParams (U.towerTable i.index) TTab.towertableParams vs).showPriorities
      s.does (.towertable i) i fun t => State.sameUnits i.th t (if i.index = v.towerN Tower.ACTIVE_TABLE_CFG then e.reselect true false else e) ∧
        (i.index ≠ v.towerN Tower.ACTIVE_TABLE_CFG → t.shows (U.towerTable i.index) TTab.towertableParams vs)) ∧
    (s.passes i .other (judgeTowercfg i) → getParams Tower.towercfgParams false i = some vs →
      pv Tower.towercfgParams vs Tower.ACTIVE_TABLE_CFG = v.tower Tower.ACTIVE_TABLE_CFG →
      s.does (.towercfg i) i fun t => t.shows U.tower Tower.towercfgParams vs ∧
        t.rd U.tower Tower.ACTIVE_TABLE = Tower.ACTIVE_TABLE.norm (pv Tower.towercfgParams vs Tower.ACTIVE_TABLE_CFG)) ∧
    (s.passes i .other (judgeTowercfg i) → getParams Tower.towercfgParams false i = some vs →
      pv Tower.towercfgParams vs Tower.ACTIVE_TABLE_CFG ≠ v.tower Tower.ACTIVE_TABLE_CFG →
      let a := ((v.settlePending.wrParams U.tower Tower.towercfgParams vs).wr U.tower Tower.ACTIVE_TABLE (pv Tower.towercfgParams vs Tower.ACTIVE_TABLE_CFG)).showPriorities
      let sel := a.towerN Tower.SELECTED
      s.does (.towercfg i) i fun t => State.sameUnits i.th t
        ((a.wr U.tower Tower.BW_EFF (if sel < 12 then a.bwEffCode sel else a.towerN Tower.BW)).reselect true false))

/-- `ptpcfg` takes a PTP client's settings, which start it, stop it or restart it where its port, transport, domain, delay mechanism or VLAN changes;
`ttcfg` takes a timed output's settings and, outside LEVEL mode, drives it idle; `twincfg` takes the pairing's settings, which on a change of mode end
the pairing or begin to seek the partner as SOLO. Rests on parts of R394, R407, R442. -/
def Obligations.ClientsOutputsAndPairConfigured : Prop :=
  ∀ (i : Issue) (s : State) (vs : List Int), let v := s.facing i .other
    (∀ n, s.passes i .other (judgePtpcfg i) → targets i 0x42 (U.ptp 0) 2 = some [n] → getParams Ptp.ptpcfgParams false i = some vs →
      let ps := Ptp.ptpcfgParams
      let b := v.wrParams (U.ptp n) ps vs
      let was := v.rb (U.ptp n) Ptp.ENABLE
      let hard := [Ptp.MAC, Ptp.TRANSPORT, Ptp.DOMAIN, Ptp.DELAY_MECH, Ptp.VLAN].any fun f => pv ps vs f != v.rd (U.ptp n) f
      s.does (.ptpcfg i) i fun t => State.sameUnits i.th t
        (if pv ps vs Ptp.ENABLE = 0 then (if was then b.ptpLoss n lostLink ptDisabled else b)
        else if !was then b.wr (U.ptp n) Ptp.STATE (if b.rb (U.mac (pn ps vs Ptp.MAC)) Mac.LINK then ptListening else ptFaulty)
        else if hard then b.ptpLoss n lostParent ptListening else b)) ∧
    (∀ n, s.passes i .other (judgeTtcfg i) → targets i 0x45 (U.tt 0) 4 = some [n] → getParams Tt.ttcfgParams false i = some vs →
      s.does (.ttcfg i) i fun t => t.shows (U.tt n) Tt.ttcfgParams vs ∧ t.rd (U.tt n) Tt.phase = 0 ∧
        (pn Tt.ttcfgParams vs Tt.MODE ≠ 1 → t.rb (U.tt n) Tt.active = false) ∧
        t.rd (U.tt n) Tt.armed = (if pn Tt.ttcfgParams vs Tt.MODE = 1 then 1 else 0)) ∧
    (s.passes i .other (judgeTwincfg i) → getParams Twin.twincfgParams false i = some vs →
      let b := v.wrParams U.twin Twin.twincfgParams vs
      let mode := pv Twin.twincfgParams vs Twin.MODE
      s.does (.twincfg i) i fun t => State.sameUnits i.th t (State.showOk
        (if mode = v.tw Twin.MODE then b else if mode = 0 then (b.setRole roleSolo).setPair prNone
        else ((b.setRole roleSolo).setPair prSeeking).wrs U.twin [(Twin.seekAt, v.clk), (Twin.hbSlot, 0), (Twin.hbAny, 0), (Twin.missRun, 0),
          (Twin.highRun, 0), (Twin.dualAt, 0), (Twin.refused, 0)])))

/-- `twinmark` marks or clears the suspicion of this device or its partner and clears DECIDE, and clears UNREPLICATED where its SUB says so; `harvest`
arms a capture of the named trigger, the armed one being superseded. Rests on parts of R438, R442, R467. -/
def Obligations.MarksAndHarvestArmed : Prop :=
  (∀ (i : Issue) (s : State) (c : Instr), c = .twinmark i ∨ c = .clearUnreplicated i → s.passes i .other (judgeTwinmark i) →
    s.does c i fun t => t.rd U.twin Twin.DECIDE = 0 ∧
      t.rd U.twin (if bitAt i.sub 0 then Twin.SUSPECT_PARTNER else Twin.SUSPECT_SELF) = (if bitAt i.sub 1 then 1 else 0) ∧
      t.rd U.twin Twin.UNREPLICATED = (if bitAt i.sub 2 then 0 else (s.after i.dt).rd U.twin Twin.UNREPLICATED) ∧
      ∀ u f, u ≠ U.thread i.th → u ≠ U.crier → u ≠ U.host → u ≠ U.twin → t.rd u f = (s.after i.dt).rd u f) ∧
  (∀ (i : Issue) (s : State), let v := s.facing i .other; s.passes i .other (judgeHarvest i) →
    s.does (.harvest i) i fun t => t.rd U.harvest Harv.ARMED = 1 ∧ t.rd U.harvest Harv.ARMED_TRIGGER = (i.sub % 4 : Nat) ∧
      State.sameUnits i.th t (v.armHarvest i.th (i.sub % 4) ((i.params.getD 0 0).toNat * Config.second + (i.params.getD 1 0).toNat * Config.ns)))

/-- The loads begin as BACKGROUND operations with the words they carry: Ledger words, Barn bytes, a look-up table (whose bank shows LOADING), an image
segment (whose slot a first segment erases), settings, an activation, and the blowing of fuses; an image instruction that names the other device only,
and `imgadvance` without a fuse to blow, act at once. Rests on parts of R271, R455, R458, R520, R524, R531, R534. -/
def Obligations.LoadsBegin : Prop :=
  ∀ (i : Issue) (s : State), let v := s.facing i .other; let named := v.named519 i.th i.sub
    let words := i.params.map fun w => (w.toNat : Int)
    let becomes (c : Instr) (e : State) : Prop := s.does c i fun t => State.sameUnits i.th t e
    let awaits (c : Instr) (e : State) (op ix sub : Nat) (l : List Int) : Prop := s.does c i fun t => State.sameUnits i.th t e ∧
      ∃ b ∈ t.bg, b.th = i.th ∧ b.op = op ∧ b.index = ix ∧ b.sub = sub ∧ b.vals = l
    (s.passes i .other (judgeLdload i) → awaits (.ldload i) v 0xC0 i.index 0 words) ∧
    (s.passes i .other (judgeBarnwr i) → awaits (.barnwr i) v 0xC1 0 0 words) ∧
    (∀ l, s.passes i .other (judgeLutload i) → targets i 0x11 (U.gran 0) 128 = some [l] →
      awaits (.lutload i) ((v.wake (U.gran l)).wr (U.gran l) (lutStateF (i.sub % 2)) 1) 0xC2 l (i.sub % 2) [((i.params.headD 0).toNat : Int)]) ∧
    (s.passes i .other (judgeImgload i) →
      (named = false → becomes (.imgload i) v) ∧
      (named = true → let off := bitsAt (i.params.headD 0).toNat 31 0
        awaits (.imgload i) (State.beginSegment (if bitAt i.sub 4 && !(v.errandOf i.th).any (fun e => e.source == 1) then v.sendSegment i.index i.sub i.params else v) i.index off false)
          0xF3 i.index i.sub ((off : Int) :: -1 :: words.drop 1))) ∧
    (s.passes i .other (judgeImgloadSettings i) →
      (named = false → becomes (.imgloadSettings i) v) ∧
      (named = true → awaits (.imgloadSettings i) v 0xF3 i.index i.sub (0 :: -1 :: words.drop 1))) ∧
    (∀ recoveryN pMin pMax env, s.passes i .other (judgeImgactivate i recoveryN pMin pMax env) → let c := Instr.imgactivate i recoveryN pMin pMax env
      (named = false → becomes c v) ∧
      (named = true → v.bootN Boot.STAGE = 4 → becomes c (v.restartFromRecovery env)) ∧
      (named = true → v.bootN Boot.STAGE ≠ 4 → awaits c (v.bootSet [(Boot.ACT_STATE, 1)]) 0xF4 0 i.sub [((i.params.headD 0).toNat : Int), 0])) ∧
    (s.passes i .other (judgeConfirm i) → becomes (.confirm i) (if named && bitAt i.sub 3 then v.confirm else v)) ∧
    (s.passes i .other (judgeAdvance i) → let e := if bitAt i.sub 3 then v.confirm else v
      (named = false → becomes (.advance i) v) ∧
      (named = true → v.bootN Boot.runSvn ≤ v.fuses → becomes (.advance i) e) ∧
      (named = true → v.fuses < v.bootN Boot.runSvn → awaits (.advance i) e 0xF5 0 i.sub []))

/-- `rd` puts the first word it reads into its destination, `rdind` the word at the address in a register, `rdtime` the seconds, nanoseconds, fraction and
milestone of one instant into a pair of registers; no other register of a thread changes, and a read of the Ledger or of the unit space is the word
that stands there. Rests on parts of R390, R459, R460. -/
def Obligations.QueriesRead : Prop :=
  ∀ (i : Issue) (s : State), let v := s.facing i .other
    (s.passes i .other (judgeRd i) → i.qN ≠ 0 → addrOk i.addr i.qN = true → let a := v.arcadeUse lampPort i.addr i.qN
      s.does (.rd i) i fun t =>
        (windowOf i.addr = some 0 → t.gget i.th i.qD = a.ldword ((i.addr - 0x20000000) / 8)) ∧
        (windowOf i.addr = some 1 → t.gget i.th i.qD = BitVec.ofNat 64 (a.unitSpace (i.addr - 0x40000000))) ∧
        (windowOf i.addr = some 2 → t.gget i.th i.qD = BitVec.ofNat 64 (a.entry ((i.addr - 0x80000000) / 256) (i.addr % 256 / 8))) ∧
        ∀ n r, n ≠ i.th ∨ r % 16 ≠ i.qD % 16 → t.gget n r = s.gget n r) ∧
    (s.passes i .other (judgeRdind i) → let p := (v.gget i.th i.xA).toNat; let a := v.arcadeUse lampPort p 1
      s.does (.rdind i) i fun t => t.gget i.th i.xD = (a.arcadeRead lampPort p).1 ∧
        ∀ n r, n ≠ i.th ∨ r % 16 ≠ i.xD % 16 → t.gget n r = s.gget n r) ∧
    (s.passes i .other (judgeRdtime i) → i.xD < 15 →
      s.does (.rdtime i) i fun t => t.gget i.th i.xD = BitVec.ofNat 64 (v.nowS % 2 ^ 48 + v.nowSub % 2 ^ 16 * 2 ^ 48) ∧
        t.gget i.th (i.xD + 1) = BitVec.ofNat 64 (v.nowNs + v.milestone % 2 ^ 32 * 2 ^ 32) ∧
        ∀ n r, n ≠ i.th ∨ (r % 16 ≠ i.xD ∧ r % 16 ≠ i.xD + 1) → t.gget n r = s.gget n r)

/-- `thrcfg` gives another thread its priority, plan, queue, entry and reporting and puts it in IDLE or QUEUE_WAIT, or starts it RUNNING at its entry;
`thrstop` names another thread and halts it, but leaves one that is IDLE or in FAULT as it is and marks one that executes an errand to stop at the
errand's end. Rests on parts of R78, R456. -/
def Obligations.ThreadsConfigured : Prop :=
  (∀ (i : Issue) (s : State) (c : Instr) (action n : Nat) (vs : List Int), (c = .configure i ∧ action = 0) ∨ (c = .start i ∧ action = 1) →
    let ps := Lamp.thrcfgParams
    s.passes i .other (thrcfg i action) → targets i 0x30 (U.thread 0) 64 = some [n] → getParams ps true i = some vs →
    s.does c i fun t =>
      t.th n Lamp.STATE = (if action = 1 then thRunning else if pn ps vs Lamp.QUEUE = 15 then thIdle else thQueueWait) ∧
      (∀ f ∈ [Lamp.PRIORITY, Lamp.PLAN, Lamp.QUEUE, Lamp.ENTRY, Lamp.REPORT], t.th n f = f.norm (pv ps vs f)) ∧
      t.th n Lamp.PC = Lamp.PC.norm (pv ps vs Lamp.ENTRY) ∧ t.th n Lamp.IN_ERRAND = 0 ∧ t.th n Lamp.TARGET = 0) ∧
  (∀ (i : Issue) (s : State) (n : Nat), let v := s.facing i .other
    s.passes i .other (judgeThrstop i) → targets i 0x30 (U.thread 0) 64 = some [n] →
    s.does (.thrstop i) i fun t => n ≠ i.th ∧
      (s.th n Lamp.STATE = thIdle ∨ s.th n Lamp.STATE = thFault → t.th n Lamp.STATE = s.th n Lamp.STATE) ∧
      (s.th n Lamp.STATE ≠ thIdle → s.th n Lamp.STATE ≠ thFault → v.inErrand n = false → t.th n Lamp.STATE = thHalted) ∧
      (s.th n Lamp.STATE ≠ thIdle → s.th n Lamp.STATE ≠ thFault → v.inErrand n = true → t.th n Lamp.stopAtEnd = 1 ∧ t.th n Lamp.STATE = s.th n Lamp.STATE))

/-- `unitcfg` sets ENABLE of the unit it names or of every member of a group, a unit without a power gate then showing READY and a unit taken out of use
going OFF; an opcode that Table 16.5 does not list returns FORMAT and changes no unit. Rests on parts of R444, R457. -/
def Obligations.UnitsEnabledAndOpcodesRefused : Prop :=
  (∀ (i : Issue) (s : State) (ts : List Nat), let v := s.facing i .other
    s.passes i .other (judgeUnitcfg i) → unitcfgTargets i.index = some ts →
    s.does (.unitcfg i) i fun t => State.sameUnits i.th t (ts.foldl (fun a u =>
      if i.sub = 0 then (a.wr u unitEnableF 0).powerOff u
      else if a.unitEnabled u || U.gated u then a.wr u unitEnableF 1 else (a.wr u unitEnableF 1).setUnitState u stReady) v)) ∧
  (∀ (i : Issue) (s : State), let v := s.facing i .other
    i.th < 64 → s.servesOwn i → s.th i.th Lamp.STATE = thRunning →
    ∃ t, exec (.unlistedOpcode i) s = .next t ∧ t.pget i.th 0 = false ∧ State.sameUnits i.th t (s.after i.dt) ∧
      (v.rb (U.thread i.th) Lamp.past = false → t.th i.th Lamp.LAST_CODE = Code.format.num))

/-- The common command codes, while the port heeds the bus: ENEC and DISEC set and clear the interrupt enable, RSTDAA, ENTDAA, SETDASA and SETNEWDA the
dynamic address, SETMWL and SETMRL the lengths (a read length below 8 is not acknowledged), ENTHDR0 enters the HDR mode, RSTACT sets or reads the
reset action, and each GET code answers its value; a broadcast code outside 0x21 to 0x27 that is not among these counts CCC_UNSUPPORTED, and a
directed one is not acknowledged as well. The HDR exit pattern ends the HDR mode. While the port ignores the bus, each of eleven codes and an unknown
command change nothing. Rests on parts of R484, R486. -/
def Obligations.BusCodesAct : Prop :=
  ∀ (dt : Nat) (s : State), let w := s.after dt; let h := U.host
    (w.portHears = true →
      (∀ e, exec (.enec dt e) s = .next (if bitAt e.toNat 0 then w.wr h Hostp.ENINT 1 else w)) ∧
      (∀ e, exec (.disec dt e) s = .next (if bitAt e.toNat 0 then w.wr h Hostp.ENINT 0 else w)) ∧
      exec (.rstdaa dt) s = .next ((w.wr h Hostp.DYN_ADDR 0).wr h Hostp.MODE 0) ∧
      (∀ a, w.rb h Hostp.DYN_ADDR = false →
        exec (.entdaa dt a) s = .next ((w.wr h Hostp.DYN_ADDR a).wr h Hostp.MODE (if a % 128 = 0 then 0 else 1)) ∧
        exec (.setdasa dt a) s = .next ((w.wr h Hostp.DYN_ADDR a).wr h Hostp.MODE (if a % 128 = 0 then 0 else 1)) ∧
        exec (.setnewda dt a) s = .next w) ∧
      (∀ a, w.rb h Hostp.DYN_ADDR = true → exec (.entdaa dt a) s = .next w ∧ exec (.setdasa dt a) s = .next w ∧
        exec (.setnewda dt a) s = .next (w.wr h Hostp.DYN_ADDR a)) ∧
      (∀ n, exec (.setmwl dt n) s = .next (w.wr h Hostp.MWL n)) ∧
      (∀ n, exec (.setmrl dt n) s = .next (if n < 8 then w.emit .nack else w.wr h Hostp.MRL (n % 65536 / 8 * 8 : Nat))) ∧
      exec (.enthdr0 dt) s = .next (w.wr h Hostp.MODE 2) ∧
      (∀ a, exec (.rstact dt a true) s = .next (w.answer 1 (w.rn h Hostp.action)) ∧
        exec (.rstact dt a false) s = .next (if a = 0 then w.wr h Hostp.action 0 else if a ≤ 2 then w.wr h Hostp.action 1 else w)) ∧
      exec (.getmwl dt) s = .next (w.answer 2 (w.rn h Hostp.MWL)) ∧
      exec (.getmrl dt) s = .next (w.answer 3 (w.rn h Hostp.MRL * 256 + 4)) ∧
      exec (.getpid dt) s = .next (w.answer 6 w.provisionedId) ∧
      exec (.getbcr dt) s = .next (w.answer 1 0x26) ∧ exec (.getdcr dt) s = .next (w.answer 1 0) ∧
      exec (.getmxds dt) s = .next (w.answer 2 0) ∧ exec (.getcaps dt) s = .next (w.answer 4 0x01010000) ∧
      (∃ n, n ≤ 15 ∧ exec (.getstatus dt) s =
        .next ((w.wr h Hostp.protoErr 0).answer 2 (n + if w.rb h Hostp.protoErr then 32 else 0))) ∧
      (∀ c, (c < 0x21 ∨ 0x27 < c) → exec (.cccUnsupported dt c false) s = .next (w.hostBad Ctr.HostP.CCC_UNSUPPORTED evHostCcc)) ∧
      (∀ c, exec (.cccUnsupported dt c true) s = .next ((w.hostBad Ctr.HostP.CCC_UNSUPPORTED evHostCcc).emit .nack))) ∧
    exec (.hdrExitPattern dt) s = .next ((w.wr h Hostp.ignoring 0).wr h Hostp.MODE (if w.rb h Hostp.DYN_ADDR then 1 else 0)) ∧
    (w.portHears = false → ∀ c ∈ [Instr.rstdaa dt, .enthdr0 dt, .getmwl dt, .getmrl dt, .getpid dt, .getbcr dt, .getdcr dt, .getstatus dt,
      .getmxds dt, .getcaps dt, .unknownCommand dt], exec c s = .next w)

/-- The transfers of the host port, while it heeds the bus: an errand is received by its queue, or refused and counted where the queue has no room; an
errand for the partner goes over the Alley; SETADDR sets the address; REGWR writes its words in the unit space; a read sends words, which begin with
0xFF bytes (how many is a free value) where the wait after SETADDR was too short; the Crier's and the reply rings' read pointers, the interrupt mask
and the slew settings take what is written; an unknown command is an error. A target reset pattern resets the port where the action says so; a pending
interrupt is sent, or not acknowledged by the controller and counted, and the Crier's is raised again after 10 ms. Rests on parts of R479, R480, R486,
R488 to R491, R493, R495, R497 to R500, R560. -/
def Obligations.HostTransfersAct : Prop :=
  ∀ (dt : Nat) (s : State), let w := s.after dt; let h := U.host
    let c := w.count h Ctr.HostP.WRITES; let x := c.arcadeUse (U.master 2) 0x40000000 1; let a := w.rn h Hostp.addr
    (w.portHears = true →
      (∀ q bytes, q ≤ 7 → 2 ≤ bytes.length → c.serves q = true →
        (ringWords < c.wordsQueued q + hLength ((bytesToWords bytes).headD 0) →
          exec (.errand dt q bytes none) s = .next (c.hostBad Ctr.HostP.QUEUE_FULL evHostQueueFull)) ∧
        (c.wordsQueued q + hLength ((bytesToWords bytes).headD 0) ≤ ringWords → 3 ≤ c.replyRoom q →
          exec (.errand dt q bytes none) s = .next (c.receiveErrand q 0 (bytesToWords bytes) (bytes.length % 8 == 0)))) ∧
      (∀ bytes, let ws := bytesToWords bytes
        integrityBad ws (bytes.length % 8 == 0) = false → hQueue (ws.headD 0) = 8 → c.alleyUp = true → c.rn U.twin Twin.ROLE ≠ 0 → c.serves 8 = true →
        exec (.errandPartner dt bytes none) s = .next (c.alleySend 4 (BitVec.ofNat 64 8 :: BitVec.ofNat 64 c.nowS :: BitVec.ofNat 64 c.nowNs :: ws))) ∧
      (∀ bytes, bytes.length = 8 → ((bytesToWords bytes).headD 0).toNat / 2 ^ 40 = 0 → exec (.setaddr dt bytes none) s =
        .next ((c.wr h Hostp.addr ((bytesToWords bytes).headD 0).toNat).wr h Hostp.addrAt w.clk)) ∧
      (∀ bytes p, hostAddr bytes = some p → (bytes.drop 8).length % 8 = 0 → bytes.drop 8 ≠ [] → (bytes.drop 8).length ≤ 4096 → p % 8 = 0 → windowOf p = some 1 →
        exec (.regwr dt bytes none) s = .next ((c.arcadeUse (U.master 2) p ((bytes.drop 8).length / 8)).writeWords p (bytesToWords (bytes.drop 8)))) ∧
      (∀ n hdr ws y bad, let len := min n (w.rn h Hostp.MRL)
        ((w.count h Ctr.HostP.READS).arcadeUse (U.master 2) a ((len + 7) / 8)).hostWords a a ((len + 7) / 8) = (ws, y, bad) →
        let z := if bad then y.hostBad Ctr.HostP.BAD_ADDR evHostBadAddr else y
        let early := hdr = false ∧ (windowOf a = some 0 ∨ windowOf a = some 3) ∧ w.clk < w.rn h Hostp.addrAt + 2 * Config.us
        (¬ early → exec (.read dt n hdr) s = .next (z.emit (.host ((wordsToBytes ws).take len)))) ∧
        (early → let r := (z.hostBad Ctr.HostP.EARLY_READS 0).free (len + 1)
          exec (.read dt n hdr) s = .next (r.2.emit (.host ((List.replicate r.1 (0xFF : Byte) ++ wordsToBytes ws).take len))))) ∧
      (∀ v, exec (.readPtr dt v) s = .next (x.writeReadPtr (bitsAt v.toNat 23 12))) ∧
      (∀ q v, q ≤ 8 → exec (.replyRdPtr dt q v) s = .next (x.writeReplyPtr q (bitsAt v.toNat 33 17))) ∧
      (∀ v, exec (.ibiMask dt v) s = .next (x.wr h Hostp.IBI_MASK (bitsAt v.toNat 58 49))) ∧
      (∀ v, exec (.ioSlew dt v) s = .next (([Slew.TT, Slew.CLKOUT, Slew.STATUS, Slew.STOOK, Slew.QSPI].zip [0, 2, 4, 6, 8]).foldl
        (fun b e => if bitsAt v.toNat (e.2 + 1) e.2 = 3 then b else b.wr U.io e.1 (bitsAt v.toNat (e.2 + 1) e.2)) x)) ∧
      exec (.unknownCommand dt) s = .next ((w.wr h Hostp.protoErr 1).hostBad Ctr.HostP.BAD_CMD evHostBadCmd)) ∧
    (∀ beats, w.rn h Hostp.action = 1 → exec (.targetResetPattern dt beats) s = .next (((w.wrs h [(Hostp.DYN_ADDR, 0), (Hostp.ENINT, 0),
      (Hostp.MRL, 4096), (Hostp.addr, 0), (Hostp.addrAt, 0), (Hostp.MODE, 0), (Hostp.ignoring, 0)]).drain (U.master 2) beats).hostBad
        Ctr.HostP.PORT_RESETS evHostTargetReset)) ∧
    (∀ src, (List.range 10).find? (bitAt (w.rn h Hostp.IBI_PENDING)) = some src → w.rb h Hostp.ENINT = true → w.rb h Hostp.DYN_ADDR = true → w.rb h Hostp.nackAt = false →
      exec (.ibiRequest dt true) s = .next ((((w.wr h Hostp.IBI_PENDING (clearBit (w.rn h Hostp.IBI_PENDING) src)).wr h Hostp.nackAt 0).count h Ctr.HostP.IBI_SENT).emit
        (.ibi src (w.ibiPayload src))) ∧
      exec (.ibiRequest dt false) s = .next ((w.wr h Hostp.nackAt (w.clk + 1)).hostBad Ctr.HostP.IBI_NACKED evHostIbiNack)) ∧
    (w.rb U.crier Crier.UNREAD = true → w.rd U.crier Crier.READ_PTR = w.rd U.crier Crier.ptrAtIbi → w.rn U.crier Crier.lastIbi + 10 * Config.ms ≤ w.clk →
      exec (.crierRepeatInterrupt dt) s = .next ((w.wr U.crier Crier.lastIbi w.clk).raiseIbi 0))

/-- An effect that commits at a tick writes what its instruction carried: the Kerb, signpost, tone source, de-embedder, comfort noise, limiter, tap,
receive context and forwarded output then show the parameters, and a return its mirror; an effect one of whose units stands in FAULT only leaves the
list of staged effects and changes no unit but the thread that staged it, the Crier and the host port. Rests on parts of R44, R98, R101, R109. -/
def Obligations.CommittedSettingsStand : Prop :=
  ∀ (s : State) (n : Int) (e : Staged) (op k sub : Nat) (vs : List Int), e.eff = .cfg op k sub vs →
    (s.effectFault e = true → State.sameUnits e.th (s.commitOne n e) { s with staged := s.staged.filter (·.id != e.id) }) ∧
    (s.effectFault e = false → let t := s.commitOne n e
      (op = 0x52 → k < 2304 → t.shows (U.kerb k) Kerb.kerbcfgParams vs) ∧ (op = 0x54 → k < 48 → t.shows (U.sign k) Sign.signcfgParams vs) ∧
      (op = 0x63 → t.shows (U.tone k) Tone.tonecfgParams vs) ∧ (op = 0x62 → k < 2304 → t.shows (U.deemb k) Deemb.deembcfgParams vs) ∧
      (op = 0x69 → t.shows (U.slot k) Slot.cscfgParams vs) ∧ (op = 0x66 → t.shows (U.slot k) Slot.limcfgParams vs) ∧
      (op = 0x70 → k < 64 → t.shows (U.tap k) Tap.tapcfgParams vs) ∧ (op = 0xA0 → k < 8192 → t.shows (U.rx k) Rx.rxflowParams vs) ∧
      (op = 0xA2 → k < 1024 → t.shows (U.fwd k) Fwd.fwdcfgParams vs) ∧
      (op = 0x56 → k < 192 → t.rd (U.ret k) Ret.MIRROR = Ret.MIRROR.norm (vs.headD 0)))

/-- At the tick of a plan that is on, is not in FAULT and has a later number, the plan enters the tick (`State.tickNow`: its winners commit); at the
curfew before it the effects of that tick are resolved, where this device neither follows its partner's decisions nor sends its own. A plan's slew
that has reached its target ends, STEPPED where a step fell into it and ALIGNED otherwise. A thread whose wait for a tick, a time, a capture, its
BACKGROUND operations or its target is over runs again. Rests on parts of R63, R99, R100, R110, R384, R452. -/
def Obligations.TicksAndWaitsPass : Prop :=
  ∀ (dt : Nat) (s : State), let w := s.after dt
    (∀ p, p < 16 → w.planOn p = true → let n := w.tickAt p w.now
      w.rd (U.plan p) Plan.TICK < n → w.issuable p n ≤ n → w.unitState (U.plan p) ≠ stFault → exec (.tick dt p) s = .next (w.tickNow p n)) ∧
    (∀ p, p < 16 → w.planOn p = true → let n := w.tickAt p ((w.now : Int) + curfewLead)
      w.unitState (U.plan p) ≠ stFault → w.rd (U.plan p) Plan.resolved ≤ n → w.rd (U.plan p) Plan.TICK < n → w.followsDecisions = false → w.sendsDecisions = false →
      let r := w.resolveNew p n
      exec (.curfewResolution dt p) s = .next (r.setBuf (U.plan p) 60 (logInts ((r.planLog p).filter fun x => r.staged.any fun e => e.id == x.id && !e.won)))) ∧
    (∀ p, w.unitBad (U.plan p) = false → w.rb (U.plan p) Plan.slewing = true → w.phaseAt p w.now = w.rd (U.plan p) Plan.PHASE_TARGET * Config.ns →
      exec (.planSlewComplete dt p) s = .next (w.wrs (U.plan p) [(Plan.STATE, if w.rb (U.plan p) Plan.stepped then planStepped else planAligned),
        (Plan.PHASE_NOW, w.rd (U.plan p) Plan.PHASE_TARGET), (Plan.slewing, 0)])) ∧
    (∀ th, th < 64 → w.shadow = none → w.th th Lamp.STATE = thTickWait ∨ w.th th Lamp.STATE = thEventWait →
      let goes := fun (x : State) => (x.wrs (U.thread th) [(Lamp.STATE, thRunning), (Lamp.waitKind, 0)]).settle th
      let p := w.thn th Lamp.PLAN
      (w.thn th Lamp.waitKind = 1 → w.th th Lamp.waitVal = 0 → exec (.tickWaitResume dt th) s = .next (goes w)) ∧
      (w.thn th Lamp.waitKind = 5 → w.planOn p = true → w.th th Lamp.waitVal ≤ w.rd (U.plan p) Plan.TICK → exec (.tickWaitResume dt th) s = .next (goes w)) ∧
      (w.thn th Lamp.waitKind = 3 → w.th th Lamp.waitVal ≤ (w.now : Int) → exec (.timeWaitResume dt th) s = .next (goes w)) ∧
      (w.thn th Lamp.waitKind = 4 → w.rn (U.capt (w.thn th Lamp.waitVal)) Capt.WRITE_SEQ ≠ w.thn th Lamp.waitSeq →
        exec (.captWaitResume dt th) s = .next (goes (w.gset th (w.thn th Lamp.waitReg) (Tbl.get ⟨w.thn th Lamp.waitVal, w.thn th Lamp.waitSeq % 64⟩ 0 w.captRing)))) ∧
      (w.thn th Lamp.waitKind = 6 → w.bgOf th = [] → w.bgFirst 0x0C th = none → exec (.syncResume dt th) s = .next (goes w)) ∧
      (∀ b, w.thn th Lamp.waitKind = 6 → w.bgOf th = [] → w.bgFirst 0x0C th = some b → exec (.syncResume dt th) s = .next (goes (w.finishBg b 0))) ∧
      (w.thn th Lamp.waitKind = 2 → w.th th Lamp.waitVal ≤ w.rd (U.plan p) Plan.TICK → exec (.targetHoldRelease dt th) s = .next (goes w)))

/-- On a device that does not replicate its partner: the thread that serves a queue begins the errand at its head once its target releases it and the ring
has room for its replies; the FINAL reply of an errand that is done is posted, once more for each retransmission; for a retransmission at the head of
the queue the ACCEPTED and FINAL replies of its errand are posted again, the FINAL one later where the errand is not done; and a thread that an
uncorrectable error hits goes to FAULT. Rests on parts of R82, R89, R90, R93, R100. -/
def Obligations.ErrandsServed : Prop :=
  ∀ (dt : Nat) (s : State), let w := s.after dt; s.shadow = none →
    (∀ q e t, w.headErrand q = some e → w.servingThread q = some t → e.phase = 0 → w.releases e = true → w.finalsDue q + maxFinal e.words ≤ w.replyRoom q →
      exec (.errandExecutionStart dt q) s = .next ((w.setErrand { e with phase := 1 }).wrs (U.thread t)
        [(Lamp.errand, e.id + 1), (Lamp.IN_ERRAND, 1), (Lamp.PC, e.head), (Lamp.STATE, thRunning), (Lamp.callIdx, 0), (Lamp.past, 0),
          (Lamp.tMode, if e.mode = 0 then 0 else if e.mode = 3 then 2 else 1), (Lamp.tPlan, e.plan), (Lamp.TARGET, (w.targetTick e).getD 0)])) ∧
    (∀ q e, w.errands.find? (fun e => e.queue == q && w.finalReady e) = some e → (1 + e.repeats) * ((w.finalWords e).length + 1) ≤ w.replyRoom q →
      let posted := ((List.range (1 + e.repeats)).foldl (fun a _ => a.postReply q e.source (w.finalWords e)) w).setErrand { e with phase := 3, repeats := 0, final := w.finalWords e }
      exec (.finalReply dt q) s = .next (State.dropFinished { posted with parts := posted.parts.filter fun p => p.errand != some e.id })) ∧
    (∀ q r e, w.headErrand q = some r → r.phase = 4 → w.errands.find? (fun e => e.id == r.target) = some e →
      let accept := replyHead e.seq q 1 0 e.words.length 0 (BitVec.ofNat 64 e.acceptTick)
      let gone := { w with errands := w.errands.filter fun x => x.id != r.id }
      (e.phase = 3 → 3 + e.final.length + 1 ≤ w.replyRoom q →
        exec (.replyRepost dt q) s = .next (((gone.postReply q r.source accept).postReply q r.source e.final).dropFinished)) ∧
      (e.phase ≠ 3 → 3 + maxFinal e.words ≤ w.replyRoom q →
        exec (.replyRepost dt q) s = .next ((gone.postReply q r.source accept).setErrand { e with repeats := e.repeats + 1 }))) ∧
    (∀ th, th < 64 → ∃ t, exec (.threadFault dt th) s = .next t ∧ t.th th Lamp.STATE = thFault)

/-- A FOLLOW Cell takes up its new source when a line of it arrives, or goes without one after 256 µs, and each take-up is counted; a TIMED Cell whose
source is lost enters loss with every Cell of its group (its Bundle, or itself alone): each is marked, counted and shows FALLBACK, and the entry is
reported; it returns when the sources of the whole group are back, and the return is reported. Rests on parts of R122, R123, R132 to R136. -/
def Obligations.CellsFollowAndLose : Prop :=
  ∀ (dt d : Nat) (s : State), let w := s.after dt; let u := U.cell d; let g := w.lossGroup d
    w.unitBad u = false →
    (w.cellTimed d = false → ∀ j, w.rb u (Cell.pending j) = true →
      (w.rn u (Cell.msSource j) ≠ noSeat → w.srcCarries (w.rn u (Cell.msSource j)) (w.rn u (Cell.msStream j)) = true →
        exec (.followCommit dt d j) s = .next (if j = 0 then (((w.wr u (Cell.pending j) 0).count u Ctr.Cell.FOLLOW_CUTS).wr u Cell.OUTPUT (w.followOutput d)).audioSwitch d
          else (w.wr u (Cell.pending j) 0).count u Ctr.Cell.FOLLOW_CUTS)) ∧
      (w.rn u (Cell.pendAt j) + 256 * Config.us ≤ w.clk → let x := ((w.wr u (Cell.pending j) 0).count u Ctr.Cell.FOLLOW_TIMEOUTS).count u Ctr.Cell.FOLLOW_CUTS
        exec (.followTimeout dt d j) s = .next (if j = 0 then (x.wr u Cell.OUTPUT 0).audioSwitch d else x))) ∧
    (w.cellTimed d = true → g.all (fun c => !w.rb (U.cell c) Cell.inLoss) = true → g.any (fun c => w.srcLost c && w.cellN c Cell.SOURCE != noSeat) = true →
      exec (.cellLossEntry dt d) s = .next ((g.foldl (fun a c => (a.wr (U.cell c) Cell.OUTPUT 2).audioSwitch c)
        (g.foldl (fun a c => (a.wr (U.cell c) Cell.inLoss 1).count (U.cell c) Ctr.Cell.LOSS_ENTRIES) w)).postEntry (w.lossUnit d) 2 (w.cellN d Cell.OUTPUT) 0 (w.lossDetail d))) ∧
    (w.cellTimed d = true → w.rb u Cell.inLoss = true → g.all (fun c => !w.srcLost c) = true →
      exec (.cellLossReturn dt d) s = .next ((g.foldl (fun a c => ((a.wr (U.cell c) Cell.inLoss 0).wr (U.cell c) Cell.OUTPUT (w.timedOutput c)).audioSwitch c) w).postEntry
        (w.lossUnit d) 1 2 0 0))

/-- The words of a line up to its EAV reach a Kerb whose seat is fed and that has begun a line: the line is judged (`State.lineEnded`) and, at line 1, the
frame marked; a seat that a context of TYPE 1 builds takes no such event. A Kerb that has matched a frame becomes ALIGNED at the frame origin of its
plan, and is LOST after two line periods without an EAV. A TIMED Cell puts out the line of its plan whose end is reached, a FOLLOW Cell the line its
source offers, each through `State.emitLine`. A rate that leaves its window is marked, counted and reported, and one that re-enters it unmarked. Rests
on parts of R67 to R70, R73, R188, R193. -/
def Obligations.LinesReachKerbsAndOutputs : Prop :=
  ∀ (dt : Nat) (s : State), let w := s.after dt
    (∀ k line edh i, k < 2304 → w.seatBuilt k = false → w.unitBad (U.kerb k) = false → w.kerbFed k = true → w.rb (U.kerb k) Kerb.begun = true →
      w.rd (U.kerb k) Kerb.STATE ≠ kEmpty → w.rd (U.kerb k) Kerb.STATE ≠ kLost →
      let fifo := (w.buf (U.kerb k) kerbFifo).map (·.toNat)
      findEav fifo.length 4 ((fifo.map (· % 1024)).drop 4) = some i →
      exec (.kerbEavArrival dt k line edh) s =
        .next (((w.setBuf (U.kerb k) kerbFifo ((fifo.drop i).map fun (n : Nat) => (n : Int))).lineEnded k line (fifo.take i) edh).lineOneMarker k line)) ∧
    (∀ k line edh c, 1152 ≤ k → w.rxOfSeat k = some c → w.rn (U.rx c) Rx.TYPE = 1 → exec (.kerbEavArrival dt k line edh) s = .next w) ∧
    (∀ k, k < 2304 → w.rb (U.kerb k) Kerb.MODE = true → w.rb (U.kerb k) Kerb.ready = true →
      (w.rd (U.kerb k) Kerb.STATE = kAcquiring ∨ w.rd (U.kerb k) Kerb.STATE = kOutside ∨ w.rd (U.kerb k) Kerb.STATE = kRaster) →
      w.nearOrigin (w.rn (U.kerb k) Kerb.PLAN) = true → w.kerbFed k = true → w.unitBad (U.kerb k) = false →
      exec (.kerbAlign dt k) s = .next (w.kerbEnter k kAligned)) ∧
    (∀ k, k < 2304 → w.rb (U.kerb k) Kerb.MODE = true → w.rd (U.kerb k) Kerb.STATE = kAligned → w.unitBad (U.kerb k) = false →
      w.rn (U.kerb k) Kerb.lastEav + 2 * (w.planRas (w.rn (U.kerb k) Kerb.PLAN)).line ≤ w.clk →
      let r := w.planRas (w.rn (U.kerb k) Kerb.PLAN)
      let c := if w.conceals k then (List.range (w.linesGone k)).foldl (fun (a : State) (j : Nat) =>
        a.concealLine k ((w.rn (U.kerb k) Kerb.cur + j - 1) % r.lines + 1) (w.tsOff + w.rn (U.kerb k) Kerb.lastEav + (j * r.line : Nat)) false) w else w
      exec (.kerbLossTimeout dt k) s = .next (((c.kerbEnter k kLost).wrs (U.kerb k) [(Kerb.ready, 0), (Kerb.begun, 0), (Kerb.lines, 0)]).setBuf (U.kerb k) kerbFifo [])) ∧
    (∀ d (l : LineOut), d < 2688 → w.unitBad (U.cell d) = false →
      (w.cellTimed d = true → w.planLineEnds (w.cellN d Cell.PLAN) l.line = true → w.cellN d Cell.outAt ≠ w.clk + 1 →
        let dur := (w.planRas (w.cellN d Cell.PLAN)).line; let r := w.timedLine d l.line (w.clk - dur)
        exec (.cellLineOut dt d l) s = .next (r.2.emitLine d r.1 ((w.now : Int) - dur) dur)) ∧
      (w.cellTimed d = false → l.stream = 0 → w.rd (U.cell d) Cell.OUTPUT ≠ 0 → ∀ y z, w.followLine d l = (some y, z) →
        let a := z.wr (U.cell d) (Cell.outTime 0) (y.time + 1)
        exec (.cellLineOut dt d l) s = .next ((a.emitLine d y ((w.now : Int) - l.age) (w.lineDur d y.words.length)).feedInput d l y))) ∧
    (∀ t, t < 1152 → w.rn (U.trib t) Trib.LANE ≠ 511 → w.unitBad (U.trib t) = false →
      (w.rb (U.trib t) Trib.rateDev = false → 120000 < (w.rd (U.trib t) Trib.RATE_OFFSET).natAbs → exec (.rateDeviation dt t) s =
        .next (((w.wr (U.trib t) Trib.rateDev 1).count (U.trib t) Ctr.Trib.RATE_DEVIATIONS).post (U.trib t) 0x0305 0)) ∧
      (w.rb (U.trib t) Trib.rateDev = true → (w.rd (U.trib t) Trib.RATE_OFFSET).natAbs ≤ 120000 → exec (.rateDeviation dt t) s = .next (w.wr (U.trib t) Trib.rateDev 0)))

/-- A Haywain lane that receives turns the levels of a codeword into bits, decodes it, counts the codeword and the symbols it corrected and, where it is
uncorrectable, that too, and goes on hunting or, locked, takes the codeword's content; one that sends puts out its next frame; a lane in the direct
SDI mode takes the words of the levels received, and squelches an output that has sent no line for two line periods. Rests on parts of R169, R171,
R175, R182, R183. -/
def Obligations.LanesCarryLines : Prop :=
  ∀ (dt l : Nat) (s : State), let w := s.after dt; let u := U.lane l
    (l < 288 → w.unitBad u = false →
      (∀ (cw : CodewordIn), w.laneN l Lane.MODE = 1 → w.laneN l Lane.RX_STATE = 0 → w.rb u Lane.CDR_LOCK = true → w.nearLoop l = false →
        let r := w.laneReceive l cw.levels; r.1.length = 5440 →
        let d := rsDecode ((chunks 10 5440 r.1).map ofBitsLsb) cw.fixes; let syms := d.1.take 514
        let x := (r.2.count u Ctr.Lane.FEC_CODEWORDS).countBy u Ctr.Lane.FEC_CORRECTED_SYMBOLS d.2.1
        let y := if d.2.2 then (x.countLimited u Ctr.Lane.FEC_UNCORRECTABLE 0 0).evidence 1 u else x
        exec (.haywainCodewordRx dt l cw) s = .next (if r.2.rb u Lane.cwLock then y.cwLocked l (syms.headD 0 + 1024 * (syms.drop 1).headD 0) d.2.2 syms
          else y.cwHunt l (if d.2.2 then 2 else if d.2.1 = 0 then 0 else 1))) ∧
      (w.laneN l Lane.MODE = 1 → w.laneN l Lane.TX_STATE = 0 → exec (.haywainFrameTx dt l) s = .next (w.txHaywain l)) ∧
      (∀ levels, w.laneN l Lane.MODE = 3 → w.laneN l Lane.RX_STATE = 0 → w.rb u Lane.CDR_LOCK = true → w.nearLoop l = false →
        let r := w.laneReceive l levels
        exec (.sdiTrsRx dt l levels) s = .next (r.2.sdiReceive l r.1))) ∧
    (∀ d, d < 1152 → w.unitBad (U.trib d) = false → w.rn (U.trib d) Trib.LANE < 288 → w.laneN (w.rn (U.trib d) Trib.LANE) Lane.MODE = 3 →
      w.rn (U.trib d) Trib.TX_STATE = 1 → w.rn (U.trib d) Trib.lineAt + 2 * w.rn (U.trib d) Trib.lineDur ≤ w.clk →
      exec (.txSquelch dt d) s = .next ((w.wr (U.trib d) Trib.TX_STATE 2).count (U.trib d) Ctr.Trib.TX_SQUELCH_ENTRIES))

/-- The loss of a lane's signal and, but on a direct SDI lane, its return, a lane's CDR lock and its symbol errors, the loss and lock of a PLL, the steps
of training and the timer that begins it again, the waking of a side, the PRBS checker and the error injector each change their own lane's state,
count, and report. Rests on parts of R144, R147, R152, R154, R155, R159, R160, R162. -/
def Obligations.LanesRiseAndFall : Prop :=
  ∀ (dt l : Nat) (s : State), let w := s.after dt; let u := U.lane l; l < 294 →
    (∀ a p, a < 36 → p < 2 → w.unitBad (U.avenue a) = false →
      (w.rb (U.avenue a) (pllLockF p) = true → exec (.pllLoss dt a p) s =
        let x := (w.wr (U.avenue a) (pllLockF p) 0).count (U.avenue a) Ctr.Avenue.PLL_LOSS
        .next ((x.pllLanes a p).foldl (fun x l => let y := x.post (U.lane l) evHardwareFault 0
          if y.laneN l Lane.RX_STATE = 0 then y.rxLost l (y.rb (U.lane l) Lane.SIGNAL) false else y) x)) ∧
      (w.rb (U.avenue a) (pllLockF p) = false → w.rn (U.avenue a) (pllFamilyF p) ≠ 0 → ∃ t, exec (.pllLock dt a p) s = .next t ∧
        ∀ b ∈ t.bg, ¬ (b.op = 0x58 ∧ b.index = a ∧ b.sub = p))) ∧
    (w.unitBad u = false →
      (w.laneN l Lane.RX_STATE = 0 → w.rb u Lane.SIGNAL = true → w.nearLoop l = false →
        exec (.laneLos dt l none) s = .next ((((w.count u Ctr.Lane.LOS_ENTRIES).post u evHardwareFault 0).evidence 1 u).rxLost l false false) ∧
        (w.rb u Lane.CDR_LOCK = true → exec (.cdrLoss dt l true) s =
          .next ((((w.count u Ctr.Lane.CDR_LOSS).post u evHardwareFault 0).evidence 1 u).rxLost l true false)) ∧
        (w.rb u Lane.CDR_LOCK = false → w.pllReady l = true → exec (.cdrLoss dt l false) s = .next (((w.setLane l Lane.CDR_LOCK 1).post u evStateEntry 0).trainOnSignal l))) ∧
      (∀ bps, w.laneN l Lane.RX_STATE = 0 → w.rb u Lane.SIGNAL = false → w.nearLoop l = false → w.laneN l Lane.MODE ≠ 3 → w.pllReady l = true →
        exec (.laneLos dt l (some bps)) s = .next (((w.wrs u [(Lane.SIGNAL, 1), (Lane.CDR_LOCK, 1)]).post u evStateEntry 0).trainOnSignal l)) ∧
      (w.rb u Lane.DEGRADED = false → exec (.degrade dt l true) s =
        .next (((w.setLane l Lane.DEGRADED 1).count u Ctr.Lane.DEGRADE_ENTRIES).post u evHardwareFault 0)) ∧
      (w.rb u Lane.DEGRADED = true → exec (.degrade dt l false) s = .next ((w.setLane l Lane.DEGRADED 0).post u evStateEntry 0)) ∧
      (∀ ffe ctle snr, w.rb u Lane.training = true →
        (w.laneN l Lane.TRAIN_STATE = 1 → exec (.trainingDone dt l true ffe ctle snr) s = .next (w.setLane l Lane.TRAIN_STATE 2)) ∧
        (w.laneN l Lane.TRAIN_STATE = 2 → w.laneN l Lane.EQ_MODE = 0 → exec (.trainingDone dt l true ffe ctle snr) s = .next (((w.wrs u [(Lane.TRAIN_STATE, 3), (Lane.FFE, ffe.toNat),
          (Lane.RX_SNR, snr.toNat), (Lane.SIGNAL, 1), (Lane.CDR_LOCK, 1)]).setLane l Lane.CTLE ctle.toNat).evalLink l)) ∧
        (w.laneN l Lane.TRAIN_STATE = 2 → w.laneN l Lane.EQ_MODE ≠ 0 → exec (.trainingDone dt l true ffe ctle snr) s = .next ((w.wrs u [(Lane.TRAIN_STATE, 3), (Lane.FFE, ffe.toNat),
          (Lane.RX_SNR, snr.toNat), (Lane.SIGNAL, 1), (Lane.CDR_LOCK, 1)]).evalLink l)) ∧
        (w.laneN l Lane.trainAt + w.trainLimit l ≤ w.clk → exec (.trainingDone dt l false ffe ctle snr) s = .next ((((w.wrs u [(Lane.training, 0), (Lane.TRAIN_STATE, 4), (Lane.trainBad, 1),
          (Lane.retrainAt, (w.clk + 100 * Config.ms : Nat))]).count u Ctr.Lane.TRAIN_FAILS).post u evHardwareFault 0).trainOver l false))) ∧
      (w.laneN l Lane.RETRAIN = 0 → w.laneN l Lane.TRAIN_STATE = 4 → w.laneN l Lane.retrainAt ≤ w.clk → w.laneN l Lane.RX_STATE = 0 →
        exec (.retrainTimer dt l) s = .next (w.startTrain l)) ∧
      (w.rb u Lane.mustTrain = false → w.pllReady l = true →
        (w.rb u Lane.wakeTx = true → exec (.laneWakeDone dt l 0) s = .next (((w.wrs u [(Lane.wakeTx, 0), (Lane.TX_STATE, 0)]).count u Ctr.Lane.WAKES).evalLink l)) ∧
        (w.rb u Lane.wakeRx = true → exec (.laneWakeDone dt l 1) s = .next ((((w.wrs u [(Lane.wakeRx, 0), (Lane.RX_STATE, 0)]).count u
          Ctr.Lane.WAKES).wrs u [(Lane.SIGNAL, 1), (Lane.CDR_LOCK, 1)]).evalLink l))) ∧
      (∀ levels, w.rb u Lane.CHK_EN = true → w.laneN l Lane.RX_STATE = 0 → w.nearLoop l = false → w.rb u Lane.CDR_LOCK = true →
        let r := w.laneReceive l levels
        exec (.prbsLock dt l levels) s = .next (r.2.prbsCheck l r.1)) ∧
      (w.laneN l Lane.INJ = 2 → w.laneSends l = true →
        exec (.errorInject dt l) s = .next ((w.setLane l Lane.flips (w.rd u Lane.flips + 1)).countBy u Ctr.Lane.INJECTED (w.injectBits l))))

/-- A MAC whose link is up counts each frame it receives with its octets, drops one with a bad FCS, a runt, an oversize or one to another unicast address
under its own counter, and hands on any other (`State.ethFrame`); a forwarding output whose cut has waited 100 ms for a marker is forced, or goes off
where its new input is none, and one whose input is silent for 10 ms reports it; a MAC counts a bad query, answers one from a new querier with the
reports of the groups it asks for, ignores one from a higher address while a querier is present, sends the reports that are due, keeps those with a
repetition left for a second later, and leaves the compatibility mode when its time is over. Rests on parts of R197, R248, R250 to R252. -/
def Obligations.FramesAndMembership : Prop :=
  ∀ (dt : Nat) (s : State), let w := s.after dt
    (∀ m (fr : List Byte) taken, m < 144 → w.rn (U.mac m) Mac.LANE ≠ 511 → w.rb (U.mac m) Mac.LINK = true → w.unitBad (U.mac m) = false →
      let u := U.mac m
      let size := fr.length + 4
      let x := ((w.wr u Mac.stwQueue (w.rn u Mac.stwQueue - taken : Nat)).count u Ctr.Mac.RX_FRAMES).countBy u Ctr.Mac.RX_BYTES size
      let dst := be (fr.map (·.toNat)) 0 6
      let own := w.rb u Mac.ADDR = true ∧ w.rn u Mac.ADDR = dst
      exec (.macFrameRx dt m false fr taken) s = .next (x.countLimited u Ctr.Mac.RX_FCS_ERRORS 0x0400 0) ∧
      (size < 64 → exec (.macFrameRx dt m true fr taken) s = .next (x.countLimited u Ctr.Mac.RX_RUNTS 0x0400 0)) ∧
      (64 ≤ size → w.rn u Mac.MTU < size → exec (.macFrameRx dt m true fr taken) s = .next (x.countLimited u Ctr.Mac.RX_OVERSIZE 0x0400 0)) ∧
      (64 ≤ size → size ≤ w.rn u Mac.MTU → ¬ own → bitAt dst 40 = false →
        exec (.macFrameRx dt m true fr taken) s = .next (x.count u Ctr.Mac.RX_DA_MISMATCH)) ∧
      (64 ≤ size → size ≤ w.rn u Mac.MTU → own ∨ bitAt dst 40 = true →
        exec (.macFrameRx dt m true fr taken) s = .next (x.ethFrame m (parseEth (fr.map (·.toNat)))))) ∧
    (∀ o, o < 1024 → w.unitBad (U.fwd o) = false → w.rb (U.fwd o) Fwd.PENDING = true → w.rb (U.fwd o) Fwd.forced = false → w.rn (U.fwd o) Fwd.cutAt - 1 + 100 * Config.ms ≤ w.clk →
      (w.rn (U.fwd o) Fwd.INPUT_CFG ≠ 2047 →
        exec (.fwdForcedCut dt o) s = .next ((w.wr (U.fwd o) Fwd.forced 1).countLimited (U.fwd o) Ctr.Fwd.FWD_FORCED_CUTS 0x0503 0)) ∧
      (w.rn (U.fwd o) Fwd.INPUT_CFG = 2047 → exec (.fwdForcedCut dt o) s =
        .next ((w.wrs (U.fwd o) [(Fwd.INPUT, 2047), (Fwd.PENDING, 0), (Fwd.oldDone, 0), (Fwd.cutAt, 0)]).countLimited (U.fwd o) Ctr.Fwd.FWD_FORCED_CUTS 0x0503 0))) ∧
    (∀ o, o < 1024 → w.unitBad (U.fwd o) = false → w.rn (U.fwd o) Fwd.INPUT ≠ 2047 → w.rb (U.fwd o) Fwd.lossSeen = false →
      w.rn (U.fwd (w.rn (U.fwd o) Fwd.INPUT)) Fwd.inLast - 1 + 10 * Config.ms ≤ w.clk →
      exec (.fwdInputLoss dt o) s = .next ((w.wr (U.fwd o) Fwd.lossSeen 1).countLimited (U.fwd o) Ctr.Fwd.FWD_INPUT_LOSS 0x0502 0)) ∧
    (∀ m (q : QueryIn), m < 144 → w.unitBad (U.mac m) = false → w.rn (U.mac m) Mac.LANE ≠ 511 → w.rb (U.mac m) Mac.LINK = true → let u := U.mac m
      (q.ok = false → exec (.mcastQueryRx dt m q) s = .next (w.countLimited u Ctr.Mac.MCAST_RX_ERRORS 0x0500 0)) ∧
      (q.ok = true → w.rn u (Mac.querier q.v6) = 0 → (if q.v6 then 2 else 3) ≤ q.version → q.robust ≠ 0 →
        let x := w.wrs u [(Mac.querier q.v6, q.src + 1), (Mac.querierAt q.v6, w.clk), (Mac.robust, q.robust)]
        exec (.mcastQueryRx dt m q) s =
          .next (x.sendReports m q.v6 (((x.groupsOf m).filter fun g => q.group == 0 || g.dst == q.group).map fun g => (true, g)))) ∧
      (q.ok = true → w.rn u (Mac.querier q.v6) ≠ 0 → w.rn u (Mac.querier q.v6) - 1 < q.src →
        w.clk < w.rn u (Mac.querierAt q.v6) + (2 * 125 * 1000 + q.resp / 2) * Config.ms → q.version < (if q.v6 then 2 else 3) →
        exec (.mcastQueryRx dt m q) s = .next (w.count u Ctr.Mac.MCAST_FOREIGN_QUERIES))) ∧
    (∀ m, m < 144 → w.unitBad (U.mac m) = false → w.stewardBusy = false → w.rn (U.mac m) Mac.LANE ≠ 511 → (w.reports m).any (fun r => decide (r.due ≤ w.clk)) = true →
      let rs := ((w.reports m).filter fun r => decide (r.due ≤ w.clk)).map fun r => (r.join, r.g)
      ∃ l, exec (.mcastReport dt m) s = .next (((w.sendReports m false rs).sendReports m true rs).setBuf (U.mac m) 20 (unreports l)) ∧
        ∀ r ∈ l, (∃ x ∈ w.reports m, x.g = r.g ∧ x.join = r.join ∧ (w.clk < x.due ∧ r = x ∨ x.due ≤ w.clk ∧ 1 < x.left ∧ r.left + 1 = x.left ∧ r.due = w.clk + 1000 * Config.ms))) ∧
    (∀ m v, m < 144 → w.unitBad (U.mac m) = false → w.rb (U.mac m) (Mac.compatEnd v) = true → w.rn (U.mac m) (Mac.compatEnd v) - 1 ≤ w.clk →
      exec (.mcastCompatExpiry dt m v) s = .next (w.wr (U.mac m) (Mac.compatEnd v) 0))

/-- A receive context in SYNC or RUNNING releases its next line at its instant (TYPE 1), the earliest of the datagrams due (TYPE 5), and each audio sample
at its instant plus RX_OFFSET, a missing one as a gap (TYPE 2, 3); it enters LOST after its timeout; a leg silent for 1 ms beside one that delivers
goes DOWN; a LATCH context whose legs have accepted nothing for 10 ms latches again; and each second the peak load and the skew and lead of the
previous one are shown, and gathering begins anew. Rests on parts of R209, R213, R217 to R219, R223, R226. -/
def Obligations.FlowsReleased : Prop :=
  ∀ (dt c : Nat) (s : State), let w := s.after dt; let u := U.rx c; c < 8192 → w.unitBad u = false →
    (w.rd u Rx.STATE = rxSync ∨ w.rd u Rx.STATE = rxRunning →
      (w.rn u Rx.TYPE = 1 → w.rb u Rx.any = true → let k := if w.rn u Rx.relL = 0 then w.rd u Rx.firstK + 1 else w.rd u Rx.relK
        let line : Int := if w.rn u Rx.relL = 0 then 1 else w.rd u Rx.relL
        w.rxRelease c k line ≤ w.now → exec (.lineRelease dt c) s = .next (w.releaseLine c k line)) ∧
      (w.rn u Rx.TYPE = 5 → let due := (w.rows u 0 4).filter fun r => decide (at_ r 1 ≤ w.now)
        let last := w.rn u Rx.relSeq
        due ≠ [] → ∃ r ∈ due, exec (.datagramRelease dt c) s = .next (w.releaseDatagram c r) ∧
          ∀ x ∈ due, if last = 0 then at_ r 1 ≤ at_ x 1 else aheadOf last (at_ r 0) ≤ aheadOf last (at_ x 0)) ∧
      (∀ f, w.rn u Rx.TYPE = 2 ∨ w.rn u Rx.TYPE = 3 → w.rd u Rx.relIdx ≠ 0 → feedOf 0xA0 c 0 (w.valsOf u Rx.rxflowParams) = some f →
        let idx := w.rd u Rx.relIdx - 1
        sampleAt idx + w.rxOffset c ≤ w.now →
        let ch := w.rn u Rx.CHANNELS
        let rows := w.rows u 0 (1 + 2 * ch)
        let x := (((w.setRows u 0 (rows.filter fun r => decide (idx < at_ r 0))).winSettle c).rxEnter c rxRunning).wr u Rx.relIdx (w.rd u Rx.relIdx + 1)
        (rows.find? (fun r => at_ r 0 == idx) = none → exec (.audioFlowRelease dt c) s = .next x) ∧
        (∀ r, rows.find? (fun r => at_ r 0 == idx) = some r → (w.groupVideo c).any (fun v => w.rd (U.rx v) Rx.STATE != rxRunning) = false →
          let y := x.tapSource f (sampleAt idx + w.rxOffset c + w.seatDelay (w.rn u Rx.SEAT)) ((List.range ch).map fun q => some (at_ r (1 + q) * 16))
          (w.rn u Rx.TYPE = 2 → exec (.audioFlowRelease dt c) s = .next y) ∧
          (w.rn u Rx.TYPE = 3 → ∃ m, exec (.audioFlowRelease dt c) s = .next ((List.range ch).foldl (fun a q =>
            (a.rxChannelStatus u q (at_ r (1 + ch + q)).toNat).keepVU (f.first + q) m (bitAt (at_ r (1 + ch + q)).toNat 0) (bitAt (at_ r (1 + ch + q)).toNat 1)) y)))) ∧
      (w.rn u Rx.TYPE = 1 → 2 ≤ w.rn u Rx.noData → exec (.flowLost dt c) s = .next (w.rxEnter c rxGone)) ∧
      (w.rn u Rx.TYPE = 2 ∨ w.rn u Rx.TYPE = 3 → w.rn u Rx.lastAt - 1 + 2 * packetSamples (w.rn u Rx.PTIME) * Config.second / 48000 ≤ w.clk →
        exec (.flowLost dt c) s = .next (w.rxEnter c rxGone)) ∧
      (w.rn u Rx.TYPE = 4 → w.rn u Rx.lastAt - 1 + 2 * Config.ms ≤ w.clk → exec (.flowLost dt c) s = .next (w.rxEnter c rxGone)) ∧
      (w.rn u Rx.TYPE = 5 → w.rn u Rx.lastAt - 1 + 2 * (raster (w.rn u Rx.RASTER)).line ≤ w.clk → exec (.flowLost dt c) s = .next (w.rxEnter c rxGone))) ∧
    (∀ leg, leg < 2 → w.rb u Rx.MERGE = true → bitAt (w.rn u Rx.LEGS) leg = true → w.rn u (Rx.legAt leg) - 1 + Config.ms ≤ w.clk →
      bitAt (w.rn u Rx.LEGS) (1 - leg) = true → w.clk < w.rn u (Rx.legAt (1 - leg)) - 1 + Config.ms →
      exec (.legDown dt c leg) s = .next ((w.wr u Rx.LEGS (clearBit (w.rn u Rx.LEGS) leg)).post u 0x040C leg)) ∧
    (w.rn u Rx.SSRC_MODE = 1 → w.rn u (Rx.accAt 0) - 1 + 10 * Config.ms ≤ w.clk → w.rn u (Rx.accAt 1) - 1 + 10 * Config.ms ≤ w.clk →
      exec (.ssrcRelatch dt c) s = .next (w.wrs u [(Rx.latched 0, 0), (Rx.latched 1, 0)])) ∧
    (w.rn U.mix Mix.secondAt ≠ w.nowS + 1 → ∃ t, exec (.previousSecondUpdate dt) s = .next t ∧
      t.rd U.mix Mix.LOAD_PEAK = Mix.LOAD_PEAK.norm (w.rd U.mix Mix.peak) ∧ t.rd U.mix Mix.peak = Mix.peak.norm (w.rd U.mix Mix.LOAD) ∧
      ((w.regs.filter fun e => e.1.unit == u && e.1.pos == Rx.TYPE.pos).length = 1 → t.rd u Rx.SKEW_MAX = Rx.SKEW_MAX.norm (w.rd u Rx.skewNow) ∧
        t.rd u Rx.LEAD_MAX = Rx.LEAD_MAX.norm (if w.rb u Rx.haveLead then w.rd u Rx.maxNow else 0) ∧ t.rd u Rx.skewNow = 0))

/-- A transmit context sends its next packet once it is due and its data is there, with the next sequence number and the timestamp of the frame, the field
or the first sample: the last line's packet of a video frame, an ANC field or a frame of datagrams carries the marker. What is sent shows as EXT_SEQ
and LAST_TS. A FOLLOW output without a line for two line periods makes its audio contexts silent and its other contexts that are on IDLE. Rests on
parts of R235, R236, R240 to R244. -/
def Obligations.PacketsLeave : Prop :=
  ∀ (dt c : Nat) (s : State), let w := s.after dt; let u := U.tx c
    c < 8192 →
    (∀ (x : State) (p : RtpOut), (x.txSend c p).rd u Tx.EXT_SEQ = Tx.EXT_SEQ.norm p.seq ∧ (x.txSend c p).rd u Tx.LAST_TS = Tx.LAST_TS.norm p.ts) ∧
    (w.unitBad u = false → w.rd u Tx.STATE ≠ txOff →
      (w.rd u Tx.STATE ≠ txIdle → w.rn u Tx.TYPE = 1 → ∀ r rest, w.rows u 1 8 = r :: rest →
        let n := w.rn u Tx.n; let total := (at_ r 4).toNat
        let srds := srdsOf (w.rn u Tx.RASTER) (w.rn u Tx.SAMPLING) (w.rn u Tx.DEPTH) (at_ r 6).toNat (at_ r 7).toNat n (at_ r 3).toNat
        let len : Nat := (srds.map fun x => x.2.2).foldl (· + ·) 0
        let due := at_ r 0 + trOffset (w.rn u Tx.RASTER) (w.rn u Tx.TR_OFFSET) + (trsGrains (w.rn u Tx.RASTER) (w.rn u Tx.SENDER) n total : Nat)
        due ≤ w.now → len ≤ (w.buf u 0).length → at_ r 5 ≠ 1 ∨ w.rb u Tx.tsDue = false →
        let q := ((at_ r 2 + n) % 2 ^ 32).toNat
        let x := w.txSend c ⟨n + 1 == total, w.rn u Tx.PT, q, (at_ r 1).toNat, w.rn u Tx.SSRC,
          toBe 2 (q / 65536) ++ srdHeaders (at_ r 3).toNat srds ++ ((w.buf u 0).take len).map Int.toNat⟩
        let y := (if due + Config.us < w.now then x.count u Ctr.Tx.TX_LATE_PACKETS else x).setBuf u 0 ((w.buf u 0).drop len)
        exec (.packetDeparture dt c) s = .next (if n + 1 = total then (y.setRows u 1 rest).wr u Tx.n 0 else y.wr u Tx.n (n + 1))) ∧
      (w.rn u Tx.TYPE = 2 ∨ w.rn u Tx.TYPE = 3 → w.rd u Tx.idx ≠ 0 → let n := packetSamples (w.rn u Tx.PTIME); let idx := w.rd u Tx.idx - 1
        sampleAt (idx + n) + 10 * Config.us ≤ w.now → let r := w.audioOctets c idx
        exec (.audioPacketDeparture dt c) s = .next ((r.2.txSend c ⟨false, w.rn u Tx.PT, w.nextSeq c, ((idx + w.rd u Tx.TS_ADJ) % 2 ^ 32).toNat,
          w.rn u Tx.SSRC, r.1⟩).wr u Tx.idx (idx + n + 1))) ∧
      (w.rd u Tx.STATE ≠ txIdle → w.rn u Tx.TYPE = 4 → w.rb u Tx.tsDue = false → ∀ r rest, w.rows u 2 6 = r :: rest → let x := w.ancNext c (r :: rest)
        exec (.ancPacketDeparture dt c) s = .next ((w.txSend c ⟨x.2.2, w.rn u Tx.PT, w.nextSeq c, (at_ r 0).toNat, w.rn u Tx.SSRC,
          ancBody (w.nextSeq c) x.1⟩).setRows u 2 x.2.1)) ∧
      (w.rd u Tx.STATE ≠ txIdle → w.rn u Tx.TYPE = 5 → w.rb u Tx.tsDue = false → ∀ r rest, w.rows u 1 3 = r :: rest →
        let ras := raster (w.rn u Tx.RASTER); let all := (at_ r 2).toNat; let n := (at_ r 1).toNat; let len := min 11008 (all - n * 11008)
        len ≤ (w.buf u 0).length → w.followsDecisions = false ∨ w.rb u Tx.haveTs = true →
        let last := decide (all ≤ (n + 1) * 11008)
        let own := w.rtpTs c 27000000 (at_ r 0 + (n * 11008 / 10 * ras.line / ras.words : Nat))
        ∃ body, exec (.datagramDeparture dt c) s = .next ((((((w.decide_ 4 u own).txSend c
          ⟨last, w.rn u Tx.PT, w.nextSeq c, if w.rn u Tx.haveTs = 1 then w.rn u Tx.frameTs else own, w.rn u Tx.SSRC, body⟩).setBuf u 0 ((w.buf u 0).drop len)).setRows u 1
            (if last then rest else [at_ r 0, (n + 1 : Nat), at_ r 2] :: rest))).wr u Tx.haveTs 0))) ∧
    (∀ d, 1152 ≤ d → d < 2304 → w.unitBad (U.cell d) = false → w.cellTimed d = false → c ∈ w.txOf (d - 1152) →
      let line := match (w.txOf (d - 1152)).find? fun v => w.rn (U.tx v) Tx.TYPE == 1 || w.rn (U.tx v) Tx.TYPE == 5 with
        | some v => (raster (w.rn (U.tx v) Tx.RASTER)).line
        | none => (w.planRas (w.cellN d Cell.PLAN)).line
      w.rn (U.cell d) Cell.outAt - 1 + 2 * line ≤ w.clk → ∃ t, exec (.txIdle dt d) s = .next t ∧
        (w.rn u Tx.TYPE = 2 ∨ w.rn u Tx.TYPE = 3 → t.rd u Tx.silent = 1) ∧
        (w.rn u Tx.TYPE ≠ 2 → w.rn u Tx.TYPE ≠ 3 → w.rn u Tx.STATE ≠ 0 → t.rd u Tx.STATE = txIdle))

/-- A PTP message that arrives on a MAC passes to the transparent clock and to each instance on the MAC: a Sync and its Follow_Up from the parent give a
measurement, a Delay_Resp to a request of this device a delay sample, an Announce that is selected or the parent's makes a listening instance
UNCALIBRATED with its parent; a message that `State.ptpReject` rejects does what it says and no more. A Pdelay_Req is answered at most 64 times a
second, a Pdelay_Resp gives the link delay, and a request sent is remembered with its time. An instance that has lost its link, or whose parent's
Announce or Sync messages are late, reports loss. Rests on parts of R394, R395, R397, R399, R400. -/
def Obligations.PtpMessagesAct : Prop :=
  ∀ (dt mac : Nat) (p : PtpIn) (s : State), let w := s.after dt
    (w.unitBad (U.mac mac) = false → ∃ f : State → Nat → State, exec (.ptpSyncRx dt mac p) s = .next ((w.instancesOn mac p).foldl f (w.tcForward mac 0 p)) ∧
      ∀ a i, let u := U.ptp i
        let b := (a.count u Ctr.Ptp.SYNC_RX).wr u Ptp.LOG_SYNC p.logInterval
        (∀ x, a.ptpReject i p = some x → f a i = x) ∧ (a.ptpReject i p = none →
          (a.fromParent i p = false → f a i = a) ∧
          (a.fromParent i p = true → b.rb u Ptp.syncSeq = false →
            f a i = if p.twoStep then b.wrs u [(Ptp.syncSeq, p.seq + 1), (Ptp.syncT2, w.ingressTs mac), (Ptp.syncCf, p.cf * subGrains)]
              else b.ptpMeasure i (ptpTime p) (p.cf * subGrains) (w.ingressTs mac)))) ∧
    (w.unitBad (U.mac mac) = false → ∃ f : State → Nat → State, exec (.ptpFollowUpRx dt mac p) s = .next ((w.instancesOn mac p).foldl f (w.tcForward mac 8 p)) ∧
      ∀ a i, let u := U.ptp i
        let b := a.count u Ctr.Ptp.FOLLOWUP_RX
        (∀ x, a.ptpReject i p = some x → f a i = x) ∧ (a.ptpReject i p = none →
          (a.fromParent i p = false → f a i = a) ∧
          (a.fromParent i p = true → b.rn u Ptp.syncSeq = p.seq + 1 → (b.now : Int) - b.rd u Ptp.syncT2 ≤ logInterval (b.rd u Ptp.LOG_SYNC) →
            f a i = b.ptpMeasure i (ptpTime p) (b.rd u Ptp.syncCf + p.cf * subGrains) (b.rd u Ptp.syncT2)) ∧
          (a.fromParent i p = true → b.rn u Ptp.syncSeq ≠ p.seq + 1 → f a i = (b.wr u Ptp.syncSeq 0).countLimited u Ctr.Ptp.PTP_UNMATCHED 0 0))) ∧
    (w.unitBad (U.mac mac) = false → ∃ f : State → Nat → State, exec (.ptpDelayRespRx dt mac p) s = .next ((w.instancesOn mac p).foldl f (w.tcForward mac 9 p)) ∧
      ∀ a i, let u := U.ptp i
        let b := a.count u Ctr.Ptp.DELAY_RESP_RX
        (∀ x, a.ptpReject i p = some x → f a i = x) ∧ (a.ptpReject i p = none →
          (p.ours = false ∨ a.fromParent i p = false ∨ a.rb u Ptp.DELAY_MECH = true → f a i = a) ∧
          (p.ours = true → a.fromParent i p = true → a.rb u Ptp.DELAY_MECH = false →
            (b.rn u Ptp.reqSeq ≠ p.seq + 1 → f a i = b.countLimited u Ctr.Ptp.PTP_UNMATCHED 0 0) ∧
            (b.rn u Ptp.reqSeq = p.seq + 1 → let c := b.wr u Ptp.reqSeq 0
              let sample := (c.rd u Ptp.ms + (ptpTime p - c.rd u Ptp.t3 - p.cf * subGrains + c.macPs mac Mac.ASYM_PS)) / 2
              c.rb u Ptp.hasMs = true →
              (sample < 0 → f a i = c.countLimited u Ctr.Ptp.NEG_DELAY 0 0) ∧
              (0 ≤ sample → f a i = c.setBuf u 0 ((c.buf u 0 ++ [sample]).drop ((c.buf u 0 ++ [sample]).length - c.rn u Ptp.DELAY_WINDOW))))))) ∧
    (w.unitBad (U.mac mac) = false → ∃ f : State → Nat → State, exec (.ptpAnnounceRx dt mac p) s = .next ((w.instancesOn mac p).foldl f (w.tcForward mac 11 p)) ∧
      ∀ a i, let u := U.ptp i
        let b := a.count u Ctr.Ptp.ANNOUNCE_RX
        (p.versionOk = false → f a i = a.countLimited u Ctr.Ptp.PTP_FORMAT 0x0700 0) ∧
        (p.versionOk = true → p.checksumOk = false → f a i = a.countLimited u Ctr.Ptp.PTP_CHECKSUM 0 0) ∧
        (p.versionOk = true → p.checksumOk = true → 255 ≤ p.steps ∨ p.domain ≠ a.rn u Ptp.DOMAIN → f a i = a.count u Ctr.Ptp.PTP_ANNOUNCE_REJECTS) ∧
        (p.versionOk = true → p.checksumOk = true → p.steps < 255 → p.domain = a.rn u Ptp.DOMAIN → b.ptpState i = ptListening →
          p.selected = true ∧ b.stewardBusy = false ∨ b.fromParent i p = true → b.rn u Ptp.ACCEPT_GM = 0 ∨ b.rn u Ptp.ACCEPT_GM = p.gm.toNat →
          f a i = b.wrs u [(Ptp.STATE, ptUncal), (Ptp.PARENT_PORT, p.port.toNat), (Ptp.GM_ID, p.gm.toNat), (Ptp.GM_CLASS, p.gmClass), (Ptp.GM_ACCURACY, p.gmAccuracy),
            (Ptp.STEPS_REMOVED, p.steps), (Ptp.UTC_OFFSET, p.utcOffset), (Ptp.UTC_FLAGS, p.utcFlags), (Ptp.annAt, b.clk + 1), (Ptp.annLog, p.logInterval), (Ptp.syncAt, b.clk)])) ∧
    (mac < 144 → w.unitBad (U.mac mac) = false → w.rn (U.mac mac) Mac.TC_GROUP ≠ 15 → p.versionOk = true → p.checksumOk = true →
      let x := (w.tcForward mac 2 p).count (U.mac mac) Ctr.Mac.PDELAY_RX
      let n : Nat := if x.rn (U.mac mac) Mac.pdSec = x.nowS + 1 then x.rn (U.mac mac) Mac.pdCount else 0
      (64 ≤ n → exec (.pdelayReqRx dt mac p) s = .next (x.countLimited (U.mac mac) Ctr.Mac.PDELAY_EXCESS 0 0)) ∧
      (n < 64 → let y := (x.wrs (U.mac mac) [(Mac.pdSec, x.nowS + 1), (Mac.pdCount, n + 1)]).free (65536 * 3000)
        exec (.pdelayReqRx dt mac p) s = .next (y.2.ptpSend mac 3 p.transport p.vlan 0 p.domain p.seq
          (p.cf + y.1 + Fx.round ((w.rd (U.mac mac) Mac.INGRESS_PS + w.rd (U.mac mac) Mac.EGRESS_PS) * 65536) 1000)))) ∧
    (mac < 144 → w.unitBad (U.mac mac) = false → p.ours = true →
      (w.rn (U.mac mac) Mac.pdSeq = p.seq + 1 → 0 ≤ (w.ingressTs mac - w.rd (U.mac mac) Mac.pdT1 - p.cf * subGrains) / 2 → exec (.pdelayRespRx dt mac p) s =
        .next ((w.wr (U.mac mac) Mac.pdSeq 0).wr (U.mac mac) Mac.LINK_DELAY_PS ((w.ingressTs mac - w.rd (U.mac mac) Mac.pdT1 - p.cf * subGrains) / 2 / psGrains))) ∧
      (w.rn (U.mac mac) Mac.pdSeq ≠ p.seq + 1 → exec (.pdelayRespRx dt mac p) s =
        .next ((w.instancesOn mac p).foldl (fun a i => a.countLimited (U.ptp i) Ctr.Ptp.PTP_UNMATCHED 0 0) w))) ∧
    (∀ n, n < 2 → w.unitBad (U.ptp n) = false → w.stewardBusy = false → w.rb (U.ptp n) Ptp.DELAY_MECH = false → w.ptpState n = ptUncal ∨ w.ptpState n = ptReceiver →
      w.rb (U.mac (w.ptpMac n)) Mac.LINK = true → let u := U.ptp n; let q := w.rn u Ptp.txSeq
      exec (.delayReqSend dt 0 n) s = .next (((w.wrs u [(Ptp.reqSeq, q + 1), (Ptp.t3, w.egressTs (w.ptpMac n)), (Ptp.txSeq, q + 1)]).ptpSend
        (w.ptpMac n) 1 (w.rn u Ptp.TRANSPORT) (w.rn u Ptp.VLAN) (w.rn u Ptp.DSCP) (w.rn u Ptp.DOMAIN) q 0).count u Ctr.Ptp.DELAY_REQ_TX)) ∧
    (mac < 144 → w.unitBad (U.mac mac) = false → w.stewardBusy = false → w.measuresDelay mac = true → w.rb (U.mac mac) Mac.LINK = true → let q := w.rn (U.mac mac) Mac.pdTx
      ∃ i, exec (.delayReqSend dt 1 mac) s = .next ((w.wrs (U.mac mac) [(Mac.pdSeq, q + 1), (Mac.pdT1, w.egressTs mac), (Mac.pdTx, q + 1)]).ptpSend
        mac 2 (w.rn (U.ptp i) Ptp.TRANSPORT) (w.rn (U.ptp i) Ptp.VLAN) (w.rn (U.ptp i) Ptp.DSCP) (w.rn (U.ptp i) Ptp.DOMAIN) q 0)) ∧
    (∀ n, n < 2 → w.unitBad (U.ptp n) = false → w.rb (U.ptp n) Ptp.ENABLE = true → let u := U.ptp n
      let late := w.rb u Ptp.annAt = true ∧ w.rn u Ptp.annAt - 1 + w.rn u Ptp.ANNOUNCE_TIMEOUT * logInterval (w.rd u Ptp.annLog) ≤ w.clk
      (w.rb (U.mac (w.ptpMac n)) Mac.LINK = false → w.ptpState n ≠ ptFaulty → exec (.announceTimeout dt n) s = .next (w.ptpLoss n lostLink ptFaulty)) ∧
      (w.rb (U.mac (w.ptpMac n)) Mac.LINK = true → w.ptpState n = ptUncal ∨ w.ptpState n = ptReceiver →
        (late → exec (.announceTimeout dt n) s = .next (((w.count u Ctr.Ptp.PTP_TIMEOUTS).wr u Ptp.annAt 0).ptpLoss n lostTimeout ptUncal)) ∧
        (¬ late → w.ptpState n = ptReceiver → w.rn u Ptp.syncAt + 3 * logInterval (w.rd u Ptp.LOG_SYNC) ≤ w.clk →
          exec (.announceTimeout dt n) s = .next (w.ptpLoss n lostSync ptUncal))))

/-- An edge on a CAPT pin in a direction it takes, at least 40 ns after the last, is stored with its time and number and posts at most 1,000 events a
second, and a nearer one is counted missed; a timed output is driven at the instants its mode gives and a committed level at its own; a TAKE_IN edge
releases the armed effects and gives its target to a capture that waits for it; a capture copies the counters at its target, and its bank is numbered
and marked when the copy is whole. Rests on parts of R103, R405, R407, R408, R467, R471 to R473. -/
def Obligations.EdgesAndCaptures : Prop :=
  ∀ (dt n : Nat) (s : State), let w := s.after dt
    (∀ falling, n < 4 → w.unitBad (U.capt n) = false → bitAt (w.rn (U.capt n) Capt.EDGES) (if falling then 1 else 0) = true → let u := U.capt n
      (w.rb u Capt.last = true → w.clk + 1 < w.rn u Capt.last + 40 * Config.ns → exec (.captEdge dt n falling) s = .next (w.count u Ctr.Capt.CAPT_MISSED)) ∧
      (w.rb u Capt.last = false ∨ w.rn u Capt.last + 40 * Config.ns ≤ w.clk + 1 → 
        let q := w.rn u Capt.WRITE_SEQ
        let x := { w with captRing := Tbl.set ⟨n, q % 64⟩ 0 (BitVec.ofNat 64 (w.milestone + (if falling then 2 ^ 32 else 0) + q % 65536 * 2 ^ 48)) w.captRing }
        let y := (x.wrs u [(Capt.WRITE_SEQ, q + 1), (Capt.last, w.clk + 1)]).count u Ctr.Capt.CAPTURES
        let m : Nat := if y.rn u Capt.evSec = y.nowS + 1 then y.rn u Capt.evCount else 0
        exec (.captEdge dt n falling) s = .next (if w.rb u Capt.EVENT = false then y else if 1000 ≤ m then y.count U.crier Ctr.Crier.EVENTS_SUPPRESSED
          else (y.wrs u [(Capt.evSec, y.nowS + 1), (Capt.evCount, m + 1)]).post u 0x0705 q))) ∧
    (n < 4 → w.unitBad (U.tt n) = false → let u := U.tt n; let start := w.ttStart n; let width : Int := (w.rn u Tt.WIDTH * Config.ns : Nat)
      (w.rn u Tt.MODE = 1 → w.rb u Tt.armed = true → start ≤ w.now →
        exec (.ttEdge dt n) s = .next ((w.wr u Tt.armed 0).ttChange n start (w.rn u Tt.stamp) (w.rb u Tt.LEVEL))) ∧
      (w.rn u Tt.MODE = 2 → w.rn u Tt.phase = 0 → start ≤ w.now → exec (.ttEdge dt n) s = .next ((w.wr u Tt.phase 1).ttDrive n true)) ∧
      (w.rn u Tt.MODE = 2 → w.rn u Tt.phase = 1 → start + width ≤ w.now → exec (.ttEdge dt n) s = .next ((w.wr u Tt.phase 2).ttDrive n false)) ∧
      (w.rn u Tt.MODE = 3 → w.rb u Tt.active = false → start ≤ w.now → ((w.now : Int) - start) % (w.rn u Tt.PERIOD * Config.ns : Nat) < width →
        exec (.ttEdge dt n) s = .next (w.ttDrive n true)) ∧
      (w.rn u Tt.MODE = 3 → w.rb u Tt.active = true → width ≤ ((w.now : Int) - start) % (w.rn u Tt.PERIOD * Config.ns : Nat) →
        exec (.ttEdge dt n) s = .next (w.ttDrive n false)) ∧
      (w.rn u Tt.MODE = 4 → let x := (w.now : Int) - w.rd u Tt.TICK_OFFSET * Config.ns
        let want := w.planOn (w.rn u Tt.PLAN) && decide (x - w.tickTime (w.rn u Tt.PLAN) (w.tickAt (w.rn u Tt.PLAN) x) x < width)
        want ≠ w.rb u Tt.active → exec (.ttEdge dt n) s = .next (w.ttDrive n want))) ∧
    (∀ x, w.unitBad (U.tt n) = false → (w.ttPending n).filter (fun x => decide (x.1 ≤ (w.now : Int))) = [x] →
      let y := w.setTtPending n ((w.ttPending n).filter (· != x))
      exec (.ttLevelChange dt n) s = .next (if y.rn (U.tt n) Tt.MODE = 1 then y.ttChange n x.1 x.2.1 (x.2.2 == 1) else y)) ∧
    (let y := w.releaseArmed;
      exec (.takeInEdge dt) s = .next (if y.rb U.harvest Harv.ARMED = true ∧ y.rn U.harvest Harv.ARMED_TRIGGER = 2 ∧ y.rn U.harvest Harv.target = 0 then
        y.setTarget (gridFrom (y.now + 20 * Config.us)) else y)) ∧
    (let t := w.rn U.harvest Harv.target; let bank := (w.rn U.harvest Harv.LAST_SEQ + 1) % 2
      w.unitBad U.harvest = false → w.rb U.harvest Harv.ARMED = true → 0 < t → t ≤ w.now + 2 * Config.ns → w.rb U.harvest Harv.copying = false →
      let second : Word := BitVec.ofNat 64 (t % Config.second / Config.ns + totalCtrs * 2 ^ 32)
      exec (.harvestCapture dt) s = .next ((w.freezeSnap bank (harvestWord1 (t / Config.second) (w.rn U.harvest Harv.ARMED_TRIGGER) (w.rn U.harvest Harv.late)
        (if w.isStandby then 1 else 0) 1) second).wrs U.harvest [(Harv.ARMED, 0), (Harv.ARMED_TRIGGER, 0),
          (Harv.ARMED_T_S, 0), (Harv.ARMED_T_NS, 0), (Harv.target, 0), (Harv.late, 0), (Harv.copying, w.clk + 1)])) ∧
    (w.unitBad U.harvest = false → w.rb U.harvest Harv.copying = true → let seq := w.rn U.harvest Harv.LAST_SEQ + 1; let bank := seq % 2
      let x := { w with snapHdr := Tbl.set ⟨bank, 1⟩ 0 (BitVec.ofNat 64 ((Tbl.get ⟨bank, 1⟩ 0 w.snapHdr).toNat + 2 ^ 52)) (Tbl.set ⟨bank, 0⟩ 0 (BitVec.ofNat 64 seq) w.snapHdr)
                        snapCtrs := Tbl.set ⟨2, 0⟩ [] [] (Tbl.set ⟨bank, 0⟩ [] (Tbl.get ⟨2, 0⟩ [] w.snapCtrs) w.snapCtrs) }
      exec (.harvestDone dt) s = .next (((x.wrs U.harvest [(Harv.LAST_SEQ, seq), (Harv.copying, 0)]).count U.harvest Ctr.Harv.HARVESTS).post U.harvest 0x0020 (seq % 2 ^ 32)))

/-- The Tower takes each marker of a candidate, judges frequency each second, qualifies a candidate that has held QUAL_TIME and loses one that is reported
lost, shows another raster or is silent, selects anew when wait-to-restore ends, enters LOCKED after its time in lock and acquires again after a
second out of it; the failure of LOSC stops every watched domain, that of the synthesiser the Tower alone, and a stopped clock is reported. Rests on
parts of R47, R369 to R371, R374, R375, R380 to R382, R510. -/
def Obligations.TowerFollowsReferences : Prop :=
  ∀ (dt n : Nat) (s : State), let w := s.after dt
    (w.unitBad U.tower = false →
      (n < 6 → w.tower Tower.STATE ≠ twFault → exec (.refMarker dt n) s = .next (w.marker n)) ∧
      (w.now % Config.second = 0 → w.tower Tower.STATE ≠ twFault → let y := ((((List.range 12).foldl State.windowCand w).historySecond.loopSecond).settlePending)
        (12 ≤ y.towerN Tower.SELECTED ∨ candClass (y.towerN Tower.SELECTED) ≠ 2 →
          exec (.freqWindow dt) s = .next ((y.reselect false true).wr U.tower Tower.WTR_LEFT (y.reselect false true).wtrLeft)) ∧
        (y.towerN Tower.SELECTED < 12 → candClass (y.towerN Tower.SELECTED) = 2 →
          let e := y.candFreq (y.towerN Tower.SELECTED) + y.monitorBase - y.tower Tower.freq
          let z := (y.noteLock (decide (e.natAbs ≤ 10000)) (decide (100000 < e.natAbs))).reselect false true
          exec (.freqWindow dt) s = .next (z.wr U.tower Tower.WTR_LEFT z.wtrLeft))) ∧
      (n < 12 → w.candState n = cdQualifying → w.rn (U.cand n) Cand.QUAL_LEFT = 0 →
        let y := (((w.wrs (U.cand n) [(Cand.STATE, cdQualified), (Cand.qualAt, w.clk)]).count (U.cand n) Ctr.Cand.QUALIFICATIONS).post (U.cand n) 0x0804 0).reselect false false
        exec (.candQualified dt n) s = .next (y.wr U.tower Tower.WTR_LEFT y.wtrLeft)) ∧
      (n < 12 → let kerb := w.rd (U.kerb (w.rn (U.cand n) Cand.SEAT)) Kerb.STATE
        let reported := candClass n = 0 ∧ w.rb (U.ptp (n - 6)) Ptp.lost = true ∨ 8 ≤ n ∧ (kerb = 4 ∨ kerb = 5)
        (reported → exec (.candMissing dt n) s = .next (w.candLost n 4)) ∧
        (¬ reported → 8 ≤ n → w.seatShows (w.rn (U.cand n) Cand.SEAT) (w.rn (U.cand n) Cand.RASTER) = false → exec (.candMissing dt n) s = .next (w.candLost n 3)) ∧
        (¬ reported → n < 8 → w.rd (U.cand n) Cand.last ≠ 0 → 13 * (w.candP n : Int) ≤ 4 * ((w.now : Int) - (w.rd (U.cand n) Cand.last - 1)) →
          exec (.candMissing dt n) s = .next ((w.countBy (U.cand n) Ctr.Cand.MISSING_MARKERS 3).candLost n 1))) ∧
      (let y := w.reselect false false;
        exec (.wtrExpiry dt) s = .next (y.wr U.tower Tower.WTR_LEFT y.wtrLeft)) ∧
      (w.tower Tower.STATE = twAcquire ∨ w.tower Tower.STATE = twRefswitch → w.towerN Tower.okSince ≠ 0 →
        w.towerN Tower.okSince - 1 + w.lockTime (w.towerN Tower.SELECTED) ≤ w.clk → exec (.towerInLock dt) s = .next (w.towerTo twLocked)) ∧
      (w.tower Tower.STATE = twLocked → w.towerN Tower.badSince ≠ 0 → w.towerN Tower.badSince - 1 + Config.second ≤ w.clk →
        exec (.towerReacquire dt) s = .next (((w.leaveLocked.count U.tower Ctr.Tower.REACQUIRES).towerTo twAcquire).mayStep (w.towerN Tower.SELECTED) false))) ∧
    (w.tower Tower.STATE ≠ twFault →
      exec (.loscFailure dt false) s = .next ((([0, 1, 2, 3, 4].foldl State.stopDomain w).post U.tower evHardwareFault (detail 0 7 (w.tower Tower.STATE).toNat 0)).towerTo twFault) ∧
      exec (.loscFailure dt true) s = .next ((w.post U.tower evHardwareFault (detail 0 7 (w.tower Tower.STATE).toNat 0)).towerTo twFault)) ∧
    (n < 5 → exec (.clockStopped dt n) s = .next ((w.stopDomain n).post U.host 0x0A12 (n * 2 ^ 24)))

/-- A frame of a Granary input that has ended is put together and written to its sub-slot, or discarded where more than BAD_LINES_MAX of its lines are
broken; a line that ends no frame does nothing. An input that was heard and has been silent for two line periods is lost. A sub-slot decides once at
its instant, and where the device follows its partner's decisions and the sub-slot is RUNNING it waits up to 4 µs for the partner's. A LUT load ends.
A scaler takes up what the lines it has heard make, and ends an input that is silent. A head decides once at its instant: its layers take their turns
in order and the frame is composed. Rests on parts of R258 to R260, R264, R271, R275, R281, R284, R293 to R296, R299. -/
def Obligations.FramesStoredAndComposed : Prop :=
  ∀ (dt k j : Nat) (s : State), let w := s.after dt
    (let u := U.sub k j; let g := U.gran k; k < 128 → j < 8 → w.rd u Sub.STATE ≠ subOff → w.unitBad g = false →
      (w.unitEnded k j = false → exec (.granaryFrameComplete dt k j) s = .next w) ∧
      (w.unitEnded k j = true → let r := w.gathered k j
        let y := r.2.setCaught u []
        (exec (.granaryFrameComplete dt k j) s = .next (y.writeFrame k j r.1)) ∧
        ((y.wr u Sub.PAYLOAD_ID (r.1.pid.getD 0)).rn g Gran.BAD_LINES_MAX < r.1.broken.length → exec (.granaryFrameComplete dt k j) s =
          .next ((((y.wr u Sub.PAYLOAD_ID (r.1.pid.getD 0)).count u Ctr.Sub.DISCARDED_FRAMES).wr u Sub.okRun 0).slipFrame k r.1.stamp))) ∧
      (w.rb u Sub.inAt = true → w.rn u Sub.inAt - 1 + 2 * (w.planRas (w.rn g Gran.PLAN)).line ≤ w.clk →
        exec (.granaryInputLoss dt k j) s = .next (((w.takeUnit k j).wr u Sub.inAt 0).declareLost k j false)) ∧
      (w.decisionNow (w.rn g Gran.PLAN) = true → w.rn u Sub.decidedAt ≠ w.clk + 1 → let d := w.wr u Sub.decidedAt (w.clk + 1)
        (exec (.granaryDecision dt k j []) s = .next (let x := d.setBuf u 5 []
          if x.followsDecisions = true ∧ x.rd u Sub.STATE = subRunning then x.wrs u [(Sub.choiceDue, x.clk + 4 * Config.us + 1)] else x.subDecide k j none)) ∧
        (∀ a ue, let l := a :: ue
          let z := d.setBuf u 5 (l.map fun (x : Nat) => (x : Int))
          let x := ((z.countBy u Ctr.Sub.ECC_LINES ue.length).countEvent u Ctr.Sub.ECC_LINES).barnError u 1 ((z.claimChan g).getD 0)
          exec (.granaryDecision dt k j l) s =
            .next (if x.followsDecisions = true ∧ x.rd u Sub.STATE = subRunning then x.wrs u [(Sub.choiceDue, x.clk + 4 * Config.us + 1)] else x.subDecide k j none)))) ∧
    (∀ b, w.bg.find? (fun b => b.op == 0xC2 && b.index == k && b.sub == j) = some b →
      exec (.lutloadDone dt k j) s = .next ((w.endBg b.pid).lutEnd (U.gran k) j b.pid (b.vals.headD 0).toNat)) ∧
    (w.scalerOn k = true → let u := U.scaler k; let x := w.makeTile k
      exec (.tileComplete dt k) s = .next (if x.caught u ≠ [] ∧ x.rn u Scaler.inAt - 1 + 2 * (raster 1).line ≤ x.clk then x.endInput k else x)) ∧
    (∀ ue, let u := U.head k; w.headLive k = true → w.decisionNow (w.rn u Head.PLAN) = true → w.rn u Head.decidedAt ≠ w.clk + 1 →
      let x := (List.range 64).foldl (fun a l => a.layerTurn k l) (w.wr u Head.decidedAt (w.clk + 1))
      exec (.headDecision dt k ue) s = .next (((((x.eccLines k ue).count u Ctr.Head.FRAMES).wrs u [(unitWorkF, x.clk), (Head.waiting, 1),
        (Head.origin, (x.headFrame (x.rn u Head.PLAN)).2), (Head.tick, x.frameTick (x.rn u Head.PLAN))]).setBuf u 1
          (ue.flatMap fun e => [(e.1 : Int), (e.2 : Int)])).composeHead k))

/-- Each millisecond the Sheaf computes its block, once; a sample that a sounding seat brings reaches the pool; a channel's detector takes each block
once, with its peak, and flags silence, clips and, each second once, DC; a clip flag clears 1 s after the last clip; a loudness meter and a
correlation meter report each 100 ms, at rest where they have nothing to measure; and a tap that is enabled stores the record of the block and moves
on to its next. Rests on parts of R187, R305 to R307, R346 to R350, R362, R363. -/
def Obligations.SamplesMixedAndMeasured : Prop :=
  ∀ (dt k ch : Nat) (s : State), let w := s.after dt
    (∀ ue, w.unitBad U.mix = false → let ms : Nat := w.now / Config.ms + 1
      (w.rn U.mix Mix.lastMs ≠ ms → exec (.mixBlock dt ue) s =
        .next ((((((if w.detectorWork then w.wr U.detector unitWorkF w.clk else w).wr U.mix Mix.lastMs ms).countGaps.meterBlock).mixBlock ue).sendSlips).compareBlocks)) ∧
      (w.rn U.mix Mix.lastMs = ms → exec (.mixBlock dt ue) s = .next w)) ∧
    (∀ a f, k < 2304 → feedOf 0x62 k 0 (w.valsOf (U.deemb k) Deemb.deembcfgParams) = some f → w.unitBad (U.deemb k) = false → w.seatSounds k = true → let u := U.deemb k
      exec (.audioSampleTap dt k a) s = .next (((w.countBy u Ctr.Deemb.GROUP_RATE_ERRORS a.wrongRate).countBy u Ctr.Deemb.SAMPLES
        ((a.samples.take f.count).filter Option.isSome).length).tapSource f w.now (a.samples.map fun v => v.map fun (x : Int) => x * 16))) ∧
    (k ≤ 1 → ch < spaceSize k → w.unitBad U.detector = false → let u := chanUnit k ch
      (w.detectorOn = true → w.spaceOdd k ch = false → w.rd u Det.block ≠ w.lastBlock + 1 → let xs := w.blockSamples k ch w.lastBlock
        let p := peakCdB (xs.foldl (fun m x => max m x.natAbs) 0)
        let sil := -(100 * (w.profN k ch DetProf.SIL_LEVEL : Int))
        let quiet := if p < sil then w.rn u Det.quiet + 1 else 0
        let r := clipRuns (levelOf (w.profN k ch DetProf.CLIP_LEVEL)) (w.profN k ch DetProf.CLIP_RUN) (w.rn u Det.run) 0 xs
        let x := (w.wrs u [(Det.PEAK, p), (Det.quiet, quiet), (Det.run, r.1), (Det.sum, w.rd u Det.sum + xs.foldl (· + ·) 0),
          (Det.count, w.rd u Det.count + (xs.length : Int)), (Det.block, w.lastBlock + 1)]).feedMeters k ch p
        let y := if w.rb u Det.SILENT = false ∧ w.profN k ch DetProf.SIL_TIME * 100 ≤ quiet then ((x.wr u Det.SILENT 1).count u (silentCtr k)).detEvent k ch 1 true
          else if w.rb u Det.SILENT = true ∧ sil + 300 ≤ p then (x.wr u Det.SILENT 0).detEvent k ch 1 false else x
        (r.2 = 0 → exec (.blockPeak dt k ch) s = .next y) ∧
        (r.2 ≠ 0 → let z := (y.countBy u (clipsCtr k) r.2).wrs u [(Det.CLIPPED, 1), (Det.clipAt, w.clk)]
          exec (.blockPeak dt k ch) s = .next (if w.rb u Det.CLIPPED then z else z.detEvent k ch 2 true))) ∧
      (w.detectorOn = true → w.rd u Det.count ≠ 0 → w.rd u Det.second ≠ (w.now / Config.second : Nat) → w.now % Config.second < Config.ms →
        let above := decide (levelOf (100 * w.profN k ch DetProf.DC_LEVEL) * w.rd u Det.count < (w.rd u Det.sum).natAbs)
        let runs := if above then w.rn u Det.over + 1 else 0
        let x := w.wrs u [(Det.sum, 0), (Det.count, 0), (Det.over, runs), (Det.second, (w.now / Config.second : Nat))]
        exec (.dcSecond dt k ch) s = .next (if w.rb u Det.DC = false ∧ 2 ≤ runs then (x.wr u Det.DC 1).detEvent k ch 3 true
          else if w.rb u Det.DC = true ∧ runs = 0 then (x.wr u Det.DC 0).detEvent k ch 3 false else x)) ∧
      (w.rb u Det.CLIPPED = true → w.rd u Det.clipAt + Config.second ≤ w.clk →
        exec (.clippedClear dt k ch) s = .next ((w.wr u Det.CLIPPED 0).detEvent k ch 2 false))) ∧
    (w.now % (100 * Config.ms) = 0 → w.unitBad U.detector = false →
      (k < 1024 → let u := U.loud k; w.rd u Loud.reportAt ≠ (w.now / Config.ms : Nat) →
        (w.detectorOn = false ∨ w.loudChans k = [] → exec (.loudnessReport dt k) s =
          .next (w.wrs u [(Loud.M, -32768), (Loud.S, -32768), (Loud.I, -32768), (Loud.TP, -32768), (Loud.TP_MAX, -32768)])) ∧
        (w.detectorOn = true → w.loudChans k ≠ [] → let tenths := (w.buf u 0 ++ [w.rd u Loud.acc]).drop ((w.buf u 0 ++ [w.rd u Loud.acc]).length - 30)
          let last4 := (tenths.drop (tenths.length - 4)).foldl (· + ·) 0
          let n : Nat := 100 * w.rn u Loud.accN
          let gates := if 4 ≤ w.rd u Loud.since + 1 then w.buf u 1 ++ [last4] else w.buf u 1
          exec (.loudnessReport dt k) s = .next (((w.setBuf u 0 tenths).setBuf u 1 gates).wrs u [(Loud.acc, 0), (Loud.since, w.rd u Loud.since + 1),
            (Loud.reportAt, (w.now / Config.ms : Nat)), (Loud.M, lufs last4.toNat (4 * n)), (Loud.S, lufs (tenths.foldl (· + ·) 0).toNat (30 * n)),
            (Loud.I, integrated (gates.map Int.toNat) (4 * n)), (Loud.TP, tpCdB (w.rn u Loud.tpNow)), (Loud.TP_MAX, tpCdB (w.rn u Loud.tpAll)), (Loud.tpNow, 0)]))) ∧
      (k < 4096 → let u := U.corr k; w.rd u Corr.reportAt ≠ (w.now / Config.ms : Nat) →
        (w.detectorOn = false ∨ w.rb u Corr.set = false → exec (.correlationReport dt k) s = .next (w.wrs u [(Corr.R, 0), (Corr.LOW, 1)])) ∧
        (w.detectorOn = true → w.rb u Corr.set = true →
          let last := fun (p : Nat) (f : Field) => (w.buf u p ++ [w.rd u f]).drop ((w.buf u p ++ [w.rd u f]).length - 4)
          let sum := fun (p : Nat) (f : Field) => (last p f).foldl (· + ·) 0
          let low := decide (sum 1 Corr.xx * 10 ^ 9 < sum 3 Corr.n * 2 ^ 54) || decide (sum 2 Corr.yy * 10 ^ 9 < sum 3 Corr.n * 2 ^ 54)
          let root : Int := Fx.isqrt (sum 1 Corr.xx * sum 2 Corr.yy * 10 ^ 12).toNat
          exec (.correlationReport dt k) s = .next (((((w.setBuf u 0 (last 0 Corr.xy)).setBuf u 1 (last 1 Corr.xx)).setBuf u 2 (last 2 Corr.yy)).setBuf u 3 (last 3 Corr.n)).wrs u
            [(Corr.R, if low then 0 else Fx.round (sum 0 Corr.xy * 10 ^ 10) root), (Corr.LOW, if low then 1 else 0), (Corr.reportAt, (w.now / Config.ms : Nat)),
             (Corr.xy, 0), (Corr.xx, 0), (Corr.yy, 0), (Corr.n, 0)])))) ∧
    (k < 64 → w.now % Config.ms = 0 → let u := U.tap k; w.unitBad u = false → w.rd u Tap.block ≠ w.lastBlock + 1 → let c := w.tapConfig u w.lastBlock
      (pv Tap.tapcfgParams c.1 Tap.ENABLE = 0 → exec (.tapRecord dt k) s = .next c.2) ∧
      (pv Tap.tapcfgParams c.1 Tap.ENABLE ≠ 0 → exec (.tapRecord dt k) s = .next (((w.tapStore c.2 u c.1 w.lastBlock).wrs u
        [(Tap.NEXT, ((c.2.rn u Tap.NEXT + 1) % pn Tap.tapcfgParams c.1 Tap.BLOCKS : Nat)), (Tap.SEQ, c.2.rn u Tap.written),
         (Tap.written, (c.2.rn u Tap.written + 1 : Nat)), (Tap.block, w.lastBlock + 1)]).count u Ctr.Tap.RECORDS)))

/-- An ASRC shows lock and loss of lock; a Stook side starts after 2 ms and stops after its ramp of 3 ms, and starts anew where it was set again
meanwhile; a slave side whose clock has been silent for two periods is lost; an AES3 receiver locks after 8 good subframe pairs and loses lock after 2
bad ones; a serial frame of the wrong length is a framing error, another reaches the pool, as does an AES3 frame while locked, with its channel status
and parity noted; and a transmit side sends the frame its settings give. Rests on parts of R352 to R357, R360, R364. -/
def Obligations.StooksRun : Prop :=
  ∀ (dt p side unit : Nat) (s : State), let w := s.after dt
    (∀ lock range, w.unitBad unit = false → w.rb unit Src.asrc = true → w.rb unit Src.asrcLock ≠ lock →
      let x := w.wr unit Src.asrcLock (if lock then 1 else 0)
      let y := if U.stookSide 0 0 ≤ unit ∧ unit < U.stookSide 16 0 then x.wr unit Stook.ASRC_LOCK (if lock then 1 else 0) else x
      exec (.asrcLock dt unit lock range) s = .next (if lock then y
        else if range then (y.wr unit Src.last 0).countLimited unit (slipCtr unit + 3) 0x0605 0 else (y.wr unit Src.last 0).count unit (slipCtr unit + 3))) ∧
    (p < 16 → w.unitBad (U.stookPort p) = false → let u := U.stookSide p (side % 2); let r := U.stookSide p 0; let t := U.stookSide p 1
      (w.rd u Stook.STATE = stStarting → w.rn u Stook.since + 2 * Config.ms ≤ w.clk →
        exec (.stookStart dt p side) s = .next (w.wrs u [(Stook.STATE, stRunS), (Stook.rampAt, w.rd u Src.last)])) ∧
      (w.rd u Stook.STATE = stStopping → w.rn u Stook.since + 3 * Config.ms ≤ w.clk →
        let x := ((w.wrs u [(Stook.STATE, stOffS), (Src.last, 0)]).setBuf u 1 []).wr (U.stookPort p) unitWorkF w.clk
        exec (.stookStop dt p side) s = .next (if w.rb u Stook.again then x.startSide u else x)) ∧
      (w.stookSlave u (side % 2) = true → w.rd u Stook.STATE ≠ stOffS → w.rd u Stook.STATE ≠ stLost → w.rd u Stook.STATE ≠ stStopping →
        2 * Config.second ≤ (w.clk - w.rn u Stook.edgeAt) * rateHz (w.rn u Stook.RATE) → exec (.stookClockLoss dt p side) s =
          .next ((w.wrs u [(Stook.STATE, stLost), (Stook.lostBy, 1), (Src.last, 0)]).countLimited u Ctr.Stook.CLOCK_LOSS 0x0600 0)) ∧
      (∀ preambles parity, w.rn r Stook.MODE = 2 → w.rd r Stook.STATE ≠ stOffS → w.rd r Stook.STATE ≠ stStopping →
        let good := if preambles && parity then w.rn r Stook.aesGood + 1 else 0
        let bad := if preambles then 0 else w.rn r Stook.aesBad + 1
        let x := w.wrs r [(Stook.aesGood, good), (Stook.aesBad, bad)]
        (w.rb r Stook.aesLock = false → exec (.aes3Lock dt p preambles parity) s = .next (if good < 8 then x
          else if w.rd r Stook.STATE = stLost then (x.wr r Stook.aesLock 1).wr r Stook.STATE stRunS else x.wr r Stook.aesLock 1)) ∧
        (w.rb r Stook.aesLock = true → exec (.aes3Lock dt p preambles parity) s = .next (if bad < 2 then x
          else (x.wrs r [(Stook.aesLock, 0), (Stook.STATE, stLost), (Src.last, 0)]).countLimited r Ctr.Stook.AES_LOCK_LOSS 0x0604 0))) ∧
      (∀ f fd, feedOf 0x6E p 0 (w.valsOf r Stook.stookcfgParams) = some fd → w.rd r Stook.STATE ≠ stOffS → w.rd r Stook.STATE ≠ stStopping → w.unitBad r = false →
        let tau : Int := ((w.now : Int) - f.age) * 10 / (32 * Config.ns) * (32 * Config.ns) / 10
        let b := (if w.rd r Stook.STATE = stLost ∧ w.rn r Stook.lostBy = 1 then (w.wrs r [(Stook.STATE, stRunS), (Stook.lostBy, 0)]).post r 0x0601 0 else w).wr r Stook.edgeAt w.clk
        (w.rn r Stook.MODE = 1 → let n := slotBits (w.rn r Stook.SLOTW)
          (f.bits ≠ fd.count * n → exec (.stookRxFrame dt p f) s = .next (b.countLimited r Ctr.Stook.FRAMING_ERRORS 0x0602 0)) ∧
          (f.bits = fd.count * n → exec (.stookRxFrame dt p f) s =
            .next (State.sideRated b (b.tapSource fd tau ((f.words.take fd.count).map fun x => some (slotValue n x))) r))) ∧
        (w.rn r Stook.MODE ≠ 1 → w.rb r Stook.aesLock = false → exec (.stookRxFrame dt p f) s = .next b) ∧
        (w.rn r Stook.MODE ≠ 1 → w.rb r Stook.aesLock = true → let y := (b.aesStatus r f).tapSource fd tau (aesValues (w.rb r Stook.V_MUTE) f)
          let m := if y.followsDecisions then -(-((tau + 250 * Config.us) * rateHz fd.rate) / Config.second) else y.rd r Src.last - 1
          exec (.stookRxFrame dt p f) s = .next (State.sideRated b ([0, 1].foldl (fun a q => a.keepVU (fd.first + q * (1 + fd.rate)) m ((f.v.drop q).headD false)
            ((f.u.drop q).headD false)) y) r))) ∧
      (w.rd t Stook.STATE ≠ stOffS → w.unitBad t = false →
        let vs := if w.rd t Stook.STATE = stStopping then w.buf t 1 else w.valsOf t Stook.stookcfgParams
        let n := pn Stook.stookcfgParams vs
        let q := w.stookOut t vs
        n Stook.CLOCK = 1 ∨ w.masterEdge t (n Stook.RATE) w.now = true →
        exec (.stookTxFrame dt p) s = .next (q.2.stookFrame p (n Stook.MODE) (n Stook.SLOTW) (n Stook.FIRST) (n Stook.RATE) q.1.2.1 q.1.2.2 q.1.1)))

/-- On a device that holds no copy, a Ledger load and a Barn write store their words when they end and close their instruction, the Barn write with FAULT
where it reaches a channel in FAULT. Each second a Watchman probe shows the extremes of the second that ended, or 0 where it had none, and a capture
that has stopped ends. A waking unit becomes READY, an idle gated unit goes OFF 1 s after it became READY and last worked, and a unit that fails goes
into FAULT. Telemetry is taken. An idle channel enters self-refresh; a scrub counts what it finds and marks the burst of an error it cannot correct;
and a channel that fails posts its fault and loses the enabled sub-slots of the Granary slots that hold claims on it. Rests on parts of R43, R44,
R140, R454, R455, R542, R543, R553, R555. -/
def Obligations.BulkEndsAndUnitsChange : Prop :=
  ∀ (dt n : Nat) (s : State), let w := s.after dt
    (∀ b, s.shadow = none → s.bgFirst 0xC0 n = some b →
      exec (.ldloadDone dt n) s = .next ((w.ldputs b.index (b.vals.map fun (v : Int) => BitVec.ofInt 64 v)).finishBg b 0)) ∧
    (∀ b, s.shadow = none → s.bgFirst 0xC1 n = some b → let off := (b.vals.headD 0).toNat
      let ws := (b.vals.drop 1).map fun (v : Int) => BitVec.ofInt 64 v
      exec (.barnwrDone dt n) s = .next ((w.barnWrites off ws).finishBg b (if (chansOf off (8 * ws.length)).any w.chanFault then Code.fault.num else 0))) ∧
    (n < 64 → w.now % Config.second = 0 → w.rn (U.probe n) Probe.FUNCTION = 1 → w.unitBad (U.cell (2624 + n)) = false → let u := U.probe n
      exec (.watchSecond dt n) s = .next (w.wrs u [(Probe.OFFSET_MIN, if w.rb u Probe.hasNow then w.rd u Probe.minNow else 0),
        (Probe.OFFSET_MAX, if w.rb u Probe.hasNow then w.rd u Probe.maxNow else 0), (Probe.hasNow, 0)])) ∧
    (∀ b, w.bg.find? (fun b => b.op == 0x55 && b.index == n) = some b → 3 ≤ w.rn (U.probe n) Probe.cap → let u := U.probe n
      exec (.captureDone dt n) s = .next (((w.wrs u [(Probe.cap, 0), (Probe.CAPT_BUSY, 0)]).setClaims u []).finishBg b
        (if w.rn u Probe.cap = 3 then 0 else Code.fault.num))) ∧
    (U.gated n = true → w.unitState n = stWaking → exec (.unitWakeDone dt n) s = .next ((w.setUnitState n stReady).wr n unitReadyF w.clk)) ∧
    (U.gated n = true → U.classOf n ≠ 0x08 → U.classOf n ≠ 0x19 → w.unitState n = stReady → w.carries n = false → w.named n = false →
      w.rn n unitReadyF + Config.second ≤ w.clk → w.rn n unitWorkF + Config.second ≤ w.clk → exec (.unitIdleOff dt n) s = .next (w.powerOff n)) ∧
    (∀ cause, U.classOf n ≠ 0 → w.unitState n ≠ stFault → exec (.unitFault dt n cause) s = .next (w.faultUnit n cause)) ∧
    (∀ mv ma tj, exec (.telemetrySample dt mv ma tj) s = .next
      ((((w.setTelemetry Power.V_VCORE.pos 16 false ((mv.take 8).map fun (x : Nat) => (x : Int))).setTelemetry Power.I_VCORE.pos 16 false
        ((ma.take 8).map fun (x : Nat) => (x : Int))).setTelemetry Power.TJ0.pos 12 true (tj.take 8)).wrs U.power
          [(Power.TJ_MAX, (tj.take 8).foldl max (tj.headD 0)), (Power.POWER_EST, ((((mv.zip ma).map fun e => e.1 * e.2).foldl (· + ·) 0 / 10000 : Nat)))])) ∧
    (n < 24 → let u := U.chan n
      (w.unitState u = stReady → w.carries u = false → w.rn u unitWorkF + Config.second ≤ w.clk →
        exec (.selfRefreshEntry dt n) s = .next (w.wr u Chan.SELF_REFRESH 1)) ∧
      (w.chanFault n = false →
        (∀ o last, exec (.barnScrub dt n o 0 last) s = .next (if last then w.count u Ctr.Chan.SCRUB_PASSES else w) ∧
          exec (.barnScrub dt n o 1 last) s = .next (if last then (w.count u Ctr.Chan.CE_READS).count u Ctr.Chan.SCRUB_PASSES else w.count u Ctr.Chan.CE_READS) ∧
          (let x := w.barnError u 10 n;
            let y := if o < 0x10000000 then x.setNv nvBadBurst ((n * 0x10000000 + o) / 64) 0 1 else x
            exec (.barnScrub dt n o 2 last) s = .next (if last then y.count u Ctr.Chan.SCRUB_PASSES else y))) ∧
        (∀ cause, cause ≠ 3 ∨ 64 < (w.burstsOfSecond n).length → let x := ((w.setUnitState u stFault).postEntry u 7 (w.unitState u).toNat cause 0).evidence 4 u
          exec (.barnChannelFault dt n cause) s = .next (((List.range 128).filter fun sl => x.claims.any fun y => y.unit == U.gran sl && y.chan == n).foldl
            (fun a sl => (List.range 8).foldl (fun b j => if b.rb (U.sub sl j) Sub.ENABLE then b.subEnter sl j subLost 0 else b) (a.faultAccess (U.gran sl) 1 n)) x))))

/-- What the three commands that store at a place of their own leave of the Barn: after a Barn write that ends (on a device that holds no copy) every byte
outside its words from its offset reads as before, and where no Barn write is open all of the Barn; after a tap's record every byte outside its place
in the tap's ring; after a debug access every byte outside the word addressed, and after a debug read all of them. The stores a capture and a head
frame make leave every byte outside the place they are given. Rests on parts of R284, R362, R454, R586. -/
def Obligations.BarnStoresLandWhereComputed : Prop :=
  ∀ (dt n : Nat) (s t : State), let w := s.after dt
    (∀ b, s.shadow = none → s.bgFirst 0xC1 n = some b → exec (.barnwrDone dt n) s = .next t → let off := (b.vals.headD 0).toNat
      ∀ a, a < off ∨ off + 8 * (b.vals.length - 1) ≤ a → barnGet t.barn a = barnGet s.barn a) ∧
    (s.bgFirst 0xC1 n = none → exec (.barnwrDone dt n) s = .next t → t.barn = s.barn) ∧
    (n < 64 → exec (.tapRecord dt n) s = .next t → let c := w.tapConfig (U.tap n) w.lastBlock
      let at_ := pn Tap.tapcfgParams c.1 Tap.BASE * 4096 + c.2.rn (U.tap n) Tap.NEXT * w.tapSize c.1
      ∀ a, a < at_ ∨ at_ + max 32 (w.tapSize c.1) ≤ a → barnGet t.barn a = barnGet s.barn a) ∧
    (∀ addr v, exec (.jtagAccess dt addr n v) s = .next t → ∀ a, addr - 0x100000000 + 8 ≤ a ∨ a < addr - 0x100000000 ∨ v = none → barnGet t.barn a = barnGet s.barn a) ∧
    (∀ p at_ bs a, a < at_ ∨ at_ + bs.length ≤ a → barnGet (s.captureBytes p at_ bs).barn a = barnGet s.barn a) ∧
    (∀ h at_ seq o tick a, a < at_ ∨ at_ + 64 ≤ a → barnGet (s.headHeader h at_ seq o tick).barn a = barnGet s.barn a) ∧
    (∀ h at_ (rows : List PicLine) a, let bits := match s.rn (U.head h) Head.DEPTH with | 0 => 8 | 1 => 10 | _ => 12
      a < at_ + 64 ∨ at_ + 64 + (rows.map fun l => 8 * (2 * l.b.length * bits / 32)).sum ≤ a → barnGet (s.headPicture h at_ rows).barn a = barnGet s.barn a)

/-- Reset is left when power is good and the device is not released yet, and entered when power or the reset pin is low for 100 ns. A segment reaches the
flash when its load ends, and the last one ends the image; a settings segment is merged into the copy that is not in use. An activation is loaded,
prepared, handed over at its tick, resumed or aborted after 20 ms. Fuses are blown one by one until the running image's security number is reached;
the watchdog restarts the Steward, and halts it the third time within 60 s; the debug master reads, and writes where the Steward is halted by it.
Rests on parts of R510, R514, R520, R523 to R528, R531, R534, R536, R586. -/
def Obligations.BootProceeds : Prop :=
  ∀ (dt n : Nat) (s : State), let w := s.after dt; let B := U.boot
    (∀ r : ResetIn, r.pwrgood = true → s.rb B Boot.released = false → exec (.resetRelease dt r) s = .next (s.releaseReset r)) ∧
    (n < 100 → exec (.pwrgoodFall dt n) s = .next w ∧ exec (.resetAssert dt n) s = .next w) ∧
    (100 ≤ n → exec (.pwrgoodFall dt n) s = .next s.enterReset ∧ exec (.resetAssert dt n) s = .next s.enterReset) ∧
    (∀ b ok, w.bgFirst 0xF3 n = some b → bitAt b.sub 0 = false →
      let x := (w.flashPutWords (slotBase w.loadSlot + (b.vals.headD 0).toNat) ((b.vals.drop 2).map Int.toNat)).count B Ctr.Boot.IMAGE_SEGMENTS
      (bitAt b.sub 3 = false → exec (.imgloadDone dt n ok) s = .next (x.finishBg b 0)) ∧
      (bitAt b.sub 3 = true → b.vals.getD 1 (-1) < 0 → exec (.imgloadDone dt n ok) s = .next ((x.finishImage ok).2.2.finishBg b (x.finishImage ok).2.1)) ∧
      (bitAt b.sub 3 = true → 0 ≤ b.vals.getD 1 (-1) → let y := (x.finishImage ok).2.2
        exec (.imgloadDone dt n ok) s = .next ((y.sendReport (b.vals.getD 1 (-1)).toNat b.index (if y.bootN Boot.ringCode ≠ 0 then y.bootN Boot.ringCode
          else (x.finishImage ok).2.1) (x.finishImage ok).1).finishBg b (x.finishImage ok).2.1))) ∧
    (∀ b ok, w.bgFirst 0xF3 n = some b → bitAt b.sub 0 = true →
      let r := if w.bootN Boot.setRegion = 0 then 0 else 2 - w.bootN Boot.setRegion
      let f := if w.bootN Boot.setRegion = 0 then w.bootN Boot.setFormat else w.bootN Boot.SETTINGS_FORMAT
      let ws := (b.vals.drop 2).map Int.toNat
      exec (.imgloadDone dt n ok) s = .next (((w.writeCopy r f (w.bootN Boot.SETTINGS_SEQ + 1) (w.bootN Boot.RUN_VERSION) 0
        (mergeRecords w.recordsInUse ((recordsOf ws.length ws).getD []))).useCopy r).finishBg b 0)) ∧
    (∀ b, w.activation = some b →
      (w.bootN Boot.ACT_STATE = 1 →
        (∀ ok, ok = true ∧ w.payloadOk w.loadSlot = true → exec (.activationLoaded dt ok) s = .next (w.bootSet [(Boot.ACT_STATE, 2)])) ∧
        (∀ ok, ok = false ∨ w.payloadOk w.loadSlot = false → exec (.activationLoaded dt ok) s = .next (w.endActivation b Code.fault.num))) ∧
      (w.bootN Boot.ACT_STATE = 2 → exec (.activationPrepared dt false) s = .next (w.endActivation b Code.version.num) ∧
        exec (.activationPrepared dt true) s = .next (w.prepare b)) ∧
      (w.bootN Boot.ACT_STATE = 3 → w.bootN Boot.ACT_TICK ≤ w.rd (U.plan (bitsAt b.sub 6 3)) Plan.TICK → exec (.activationHandover dt) s =
        .next (w.bootSet [(Boot.ACT_STATE, 4), (Boot.handAt, w.clk), (Boot.oldVersion, w.bootN Boot.RUN_VERSION), (Boot.BANK, (1 - w.bootN Boot.BANK : Nat)),
          (Boot.RUN_VERSION, w.hdrVersion w.loadSlot)])) ∧
      (w.bootN Boot.ACT_STATE = 4 → w.clk ≤ w.bootN Boot.handAt + 20 * Config.ms →
        let x := (w.writeRecord w.loadSlot 1 3).bootSet [(Boot.ACT_STATE, 0), (Boot.SLOT_RUNNING, w.loadSlot), (Boot.runSvn, w.hdrSvn w.loadSlot),
          (Boot.setFormat, w.hdrFormat w.loadSlot), (Boot.setMin, w.hdrSetMin w.loadSlot), (Boot.twMajor, bitsAt (w.hdr w.loadSlot 2) 3 0),
          (Boot.twMin, bitsAt (w.hdr w.loadSlot 2) 7 4), (Boot.twMax, bitsAt (w.hdr w.loadSlot 2) 11 8)]
        let code := if b.vals.getD 1 0 = 1 then Code.late.num else 0
        (x.pickCopy (· == w.hdrFormat w.loadSlot) = none → exec (.activationResumed dt) s = .next (((x.count B Ctr.Boot.ACTIVATIONS).post B evFwActivated 0).finishBg b code)) ∧
        (∀ r, x.pickCopy (· == w.hdrFormat w.loadSlot) = some r →
          exec (.activationResumed dt) s = .next ((((x.useCopy r).count B Ctr.Boot.ACTIVATIONS).post B evFwActivated 0).finishBg b code))) ∧
      (w.bootN Boot.ACT_STATE = 4 → w.bootN Boot.handAt + 20 * Config.ms ≤ w.clk →
        let x := w.bootSet [(Boot.BANK, (1 - w.bootN Boot.BANK : Nat)), (Boot.RUN_VERSION, w.bootN Boot.oldVersion)]
        (x.pickCopy (· == x.bootN Boot.setFormat) = none → exec (.activationAbort dt) s = .next ((x.post B evFwAborted 0).endActivation b Code.fault.num)) ∧
        (∀ r, x.pickCopy (· == x.bootN Boot.setFormat) = some r →
          exec (.activationAbort dt) s = .next (((x.useCopy r).post B evFwAborted 0).endActivation b Code.fault.num)))) ∧
    (let mine := w.bg.filter (·.op == 0xF5); mine ≠ [] →
      exec (.fuseBlown dt false) s = .next (mine.foldl (fun a b => a.finishBg b Code.fault.num) w) ∧
      (let x := (w.setNv nvOtp 1 0 (w.fuses + 1)).bootSet [(Boot.OTP_SVN, (w.fuses + 1 : Nat))];
        exec (.fuseBlown dt true) s = .next (if w.fuses + 1 < x.bootN Boot.runSvn then x
          else mine.foldl (fun a b => a.finishBg b 0) (x.post B evFwSvn ((w.fuses + 1) % 256))))) ∧
    (w.bootN Boot.STAGE = 3 → let x := (w.count B Ctr.Boot.WATCHDOG_RESETS).post B evFwWatchdog 0
      exec (.watchdogExpiry dt) s = .next (x.bootSet [(Boot.dog2, w.bootN Boot.dog1), (Boot.dog1, (w.clk + 1 : Nat)),
        (Boot.STAGE, if w.rb B Boot.dog2 = true ∧ w.clk + 1 ≤ w.bootN Boot.dog2 + 60 * Config.second then 6 else 3)])) ∧
    (∀ a k, a % 8 = 0 → windowOf a = some k →
      (windowOf (a + 8 * (n - 1)) = some k → exec (.jtagAccess dt a n none) s =
        .next (((w.arcadeUse (U.master 7) a n).jtagWords a n).2.emit (.jtag ((w.arcadeUse (U.master 7) a n).jtagWords a n).1))) ∧
      (∀ v, w.bootN Boot.STAGE ≠ 5 → exec (.jtagAccess dt a n (some v)) s = .next w) ∧
      (∀ v, w.bootN Boot.STAGE = 5 → k = 0 → exec (.jtagAccess dt a n (some v)) s = .next ((w.arcadeUse (U.master 7) a 1).ldput ((a - 0x20000000) / 8) v)) ∧
      (∀ v, w.bootN Boot.STAGE = 5 → k = 1 → exec (.jtagAccess dt a n (some v)) s = .next ((w.arcadeUse (U.master 7) a 1).writeWord a v)))

/-- HELLO leaves on both links of a running Footpath; a valid one keeps its link UP and shows the neighbour, posts where the link was down, and counts a
clash where it names this node; a bad one is counted; without one for 3 ms the link is DOWN, and a message held 100 ms on a link that is DOWN is
dropped. A ring message that is bad is counted and refused; a new one is acknowledged, and acted on once and counted where it is for this node, and a
reply for another goes on with one hop fewer. An ACK frees its message, a NAK has it sent again; a message without its ACK is sent again or, on the
Footpath after 7 attempts, given up. On the Alley a message with a bad CRC is refused, a repeated one acknowledged alone, and a new errand, reply or
bulk table reaches its queue, ring or Ledger; the Alley that goes down counts and posts once. Rests on parts of R83, R416, R419, R521 to R523, R537. -/
def Obligations.LinkMessagesAct : Prop :=
  ∀ (dt link : Nat) (m : LinkMsg) (s : State), let w := s.after dt; let B := U.boot
    (w.fpRuns = true → let h := BitVec.ofNat 64 (w.bootN Boot.NODE + w.bootN Boot.RUN_VERSION * 2 ^ 16 + w.bootN Boot.STAGE * 2 ^ 48)
      exec (.hello dt) s = .next ((w.footSend 1 1 [h]).footSend 2 1 [h])) ∧
    (link = 1 ∨ link = 2 →
      (w.fpRuns = true → let h := (m.body.headD 0).toNat
        (goodCrc m = false ∨ m.typ ≠ 1 ∨ m.body.length ≠ 1 ∨ bitsAt h 63 51 ≠ 0 → exec (.helloRx dt link m) s = .next (w.fpBad link m false)) ∧
        (goodCrc m = true → m.typ = 1 → m.body.length = 1 → bitsAt h 63 51 = 0 →
          let x := w.bootSet [(Fp.up link, 1), (Fp.helloAt link, (w.clk + 1 : Nat)), (Boot.nbNode link, (bitsAt h 15 0 : Nat)),
            (Boot.nbVersion link, (bitsAt h 47 16 : Nat)), (Boot.nbStage link, (bitsAt h 50 48 : Nat))]
          let y := if w.fpUp link then x else (x.post B 0x0B11 (link - 1)).resendKept link
          exec (.helloRx dt link m) s = .next (if bitsAt h 15 0 = w.bootN Boot.NODE then y.countLimited B (Fp.ctr link Ctr.FpLink.FP_NODE_CLASHES) 0x0B13 0 else y))) ∧
      (w.fpUp link = true → w.bootN (Fp.helloAt link) + 3 * Config.ms ≤ w.clk + 1 → exec (.fpLinkDown dt link) s =
        .next ((w.bootSet [(Fp.up link, 0)]).countLimited B (Fp.ctr link Ctr.FpLink.FP_LINK_DOWNS) 0x0B10 (link - 1))) ∧
      (w.fpUp link = false → exec (.fpHoldDiscard dt link) s =
        .next (((Tbl.get ⟨link, 0⟩ [] w.links).filter fun m => decide (w.cellNv (nvSentAt link) m.seq 0 + 100 * Config.ms ≤ w.clk + 1)).foldl
          (fun a m => a.release link m.seq) w)) ∧
      (goodCrc m = true → m.typ = 0x7E → w.fpRuns = true → exec (.fpAck dt link m) s = .next (w.release link (ackSeq m))) ∧
      (∀ x, goodCrc m = true → m.typ = 0x7F → w.fpRuns = true → w.fpUp link = true → w.keptMsg link (ackSeq m) = some x →
        exec (.fpNak dt link m) s = .next (w.resend link x)) ∧
      (∀ x, w.oldestKept link = some x → w.rb B (Fp.up link) = true → exec (.retransmitTimeout dt link) s =
        .next (if 7 ≤ w.cellNv (nvAttempts link) x.seq 0 then ((w.release link x.seq).wr B (Fp.up link) 0).countLimited B (Fp.ctr link Ctr.FpLink.FP_RETRY_FAILS) 0x0B10 (link - 1)
          else w.resend link x))) ∧
    (w.fpRuns = true → w.fpUp 1 = true → let h := (m.body.headD 0).toNat
      (goodCrc m = false ∨ m.body.length < 2 → exec (.fpErrand dt m) s = .next (w.fpBad 1 m true) ∧ exec (.fpReply dt m) s = .next (w.fpBad 1 m true) ∧
        exec (.fpBulk dt m) s = .next (w.fpBad 1 m true) ∧ exec (.segment dt m) s = .next (w.fpBad 1 m true)) ∧
      (goodCrc m = true → bitsAt h 47 38 = 0 → let x := w.footSend 1 0x7E [BitVec.ofNat 64 m.seq]
        (x.buf B 53).contains (m.seq : Int) = false → let y := x.setBuf B 53 ((x.buf B 53).drop ((x.buf B 53).length - 255) ++ [(m.seq : Int)])
        let own := ringOrigin h = y.bootN Boot.NODE
        let passes := (y.footSend 2 m.typ (ringWord (ringOrigin h) (ringDest h) (ringHops h - 1) (ringDist h) :: m.body.drop 1)).fpCount 1 Ctr.FpLink.FP_FORWARDED
        (own → m.typ = 5 → 3 ≤ m.body.length → exec (.fpReply dt m) s = .next (y.fpCount 1 Ctr.FpLink.FP_DELIVERED)) ∧
        (own → m.typ = 0x51 → m.body.length = 2 → bitsAt (m.body.getD 1 0).toNat 31 28 = 0 →
          exec (.reportMsg dt m) s = .next ((y.takeReport m).fpCount 1 Ctr.FpLink.FP_DELIVERED)) ∧
        (¬ own → ringHops h ≠ 0 → m.typ = 5 → 3 ≤ m.body.length → exec (.fpReply dt m) s = .next passes) ∧
        (¬ own → ringDest h = y.bootN Boot.NODE →
          (m.typ = 4 → 2 ≤ m.body.length → w.wordsQueued 9 + (m.body.length - 1) ≤ ringWords → ringOrigin h ≠ w.bootN Boot.NODE →
            exec (.fpErrand dt m) s = .next ((y.receiveErrand 9 (3 + ringOrigin h) (m.body.drop 1) true).fpCount 1 Ctr.FpLink.FP_DELIVERED)) ∧
          (m.typ = 0x40 → 3 ≤ m.body.length → (m.body.getD 1 0).toNat + (m.body.length - 2) ≤ 65536 → y.bootN Boot.STAGE ≠ 4 →
            exec (.fpBulk dt m) s = .next ((y.ldputs (m.body.getD 1 0).toNat (m.body.drop 2)).fpCount 1 Ctr.FpLink.FP_DELIVERED)) ∧
          (m.typ = 0x50 → 4 ≤ m.body.length → exec (.segment dt m) s = .next ((y.takeSegment m).fpCount 1 Ctr.FpLink.FP_DELIVERED))))) ∧
    (w.unitBad U.twin = false → let bad := (w.countLimited U.twin Ctr.Twin.ALLEY_RETRANSMITS 0 0).alleySend 0x7F [BitVec.ofNat 64 m.seq]
      let x := w.alleySend 0x7E [BitVec.ofNat 64 m.seq]
      (goodCrc m = false → exec (.alleyErrand dt m) s = .next bad ∧ exec (.alleyReply dt m) s = .next bad ∧ exec (.alleyBulk dt m) s = .next bad) ∧
      (goodCrc m = true → w.seenMsg m.seq = true → exec (.alleyErrand dt m) s = .next x ∧ exec (.alleyReply dt m) s = .next x ∧ exec (.alleyBulk dt m) s = .next x) ∧
      (goodCrc m = true → w.seenMsg m.seq = false → let y := x.setBuf U.twin 53 ((x.buf U.twin 53).drop ((x.buf U.twin 53).length - 255) ++ [(m.seq : Int)])
        (m.body.getD 0 0 = 8 → y.wordsQueued 8 + (m.body.length - 3) ≤ ringWords → exec (.alleyErrand dt m) s = .next (y.receiveErrand 8 2 (m.body.drop 3) true)) ∧
        ((m.body.getD 0 0).toNat ≤ 7 ∨ m.body.getD 0 0 = 9 → y.tw Twin.ROLE = roleStandby → y.tw Twin.PAIR ≠ prReplicating → y.shadow = none →
          let q := (m.body.getD 0 0).toNat; y.wordsQueued q + (m.body.length - 3) ≤ ringWords → exec (.alleyErrand dt m) s =
            .next ((y.receiveErrand q 1 (m.body.drop 3) true).arrivedAt y.nextId ((m.body.getD 1 0).toNat * Config.second + (m.body.getD 2 0).toNat * Config.ns))) ∧
        (m.body ≠ [] → m.body.length + 1 ≤ w.replyRoom 8 → exec (.alleyReply dt m) s = .next (y.ringReply 8 m.body)) ∧
        (y.tw Twin.ROLE = roleStandby → y.shadow = none → (m.body.headD 0).toNat + (m.body.length - 1) ≤ 65536 →
          exec (.alleyBulk dt m) s = .next (y.ldputs (m.body.headD 0).toNat (m.body.drop 1)))) ∧
      (goodCrc m = true → m.typ = 0x7E → exec (.alleyAck dt m) s = .next (w.release 0 (ackSeq m))) ∧
      (∀ x, w.keptMsg 0 (ackSeq m) = some x → goodCrc m = true → m.typ = 0x7F → w.alleyUp = true →
        exec (.alleyNak dt m) s = .next ((w.resend 0 x).count U.twin Ctr.Twin.ALLEY_RETRANSMITS)) ∧
      (∀ x, w.oldestKept 0 = some x → w.alleyUp = true → x.typ ≠ 0x30 ∨ w.cellNv (nvAttempts 0) x.seq 0 < 8 →
        exec (.retransmitTimeout dt 0) s = .next ((w.resend 0 x).count U.twin Ctr.Twin.ALLEY_RETRANSMITS)) ∧
      (w.alleyUp = false → w.rb U.twin Twin.wasDown = false →
        exec (.alleyDown dt) s = .next (((w.twSet Twin.wasDown 1).count U.twin Ctr.Twin.ALLEY_DOWN_ENTRIES).post U.twin 0x0906 0)))

/-- Each slot a device with a MODE sends its heartbeat once, takes in its partner's and counts one that is missing, and an ACTIVE device that has missed
three is alone; a bad heartbeat is counted. The STANDBY device takes over after three and 40 µs, and the hold of its outputs ends. Roles are taken 1
ms after pairing began. A device that follows applies its partner's manifests and decisions and resolves for itself what does not come. The copy's
items are taken in, its step is sent and received, and made current at the tick of the step; replication that lasts 2 s starts again. Records to
compare are kept 1 ms, those of the partner are compared, and a SUSPECT message is judged while IN_STEP. Rests on parts of R417, R418, R420, R422 to
R424, R426, R428, R431, R432, R434, R436, R437. -/
def Obligations.TwinDecidesAndFollows : Prop :=
  ∀ (dt n : Nat) (m : LinkMsg) (s : State), let w := s.after dt; let T := U.twin
    let x := w.alleySend 0x7E [BitVec.ofNat 64 m.seq]
    let y := x.setBuf T 53 ((x.buf T 53).drop ((x.buf T 53).length - 255) ++ [(m.seq : Int)])
    w.unitBad T = false →
    (∀ roleIn, w.tw Twin.MODE ≠ 0 → let slot := w.now / slotLen
      (w.twN Twin.hbSlot ≠ slot + 1 → let z := ((if w.alleyUp then w.twSet Twin.wasDown 0 else w).pruneEvidence.sendEvidence).sampleRoleIn roleIn
        exec (.heartbeat dt roleIn) s = .next ((((z.alleySend 1 (z.heartbeatBody roleIn slot)).wrs T [(Twin.hbSlot, slot + 1), (Twin.hbTx, w.tw Twin.hbTx + 1)]).count T
          Ctr.Twin.HB_TX).showOk)) ∧
      (∀ late, goodCrc m = false ∨ m.typ ≠ 1 ∨ m.body.length ≠ 3 → exec (.heartbeatRx dt m late roleIn) s = .next (w.countLimited T Ctr.Twin.HB_ERRORS 0 0)) ∧
      (∀ late : Nat, let w1 := (m.body.getD 0 0).toNat; let w2 := (m.body.getD 1 0).toNat; let w3 := (m.body.getD 2 0).toNat
        goodCrc m = true → m.typ = 1 → m.body.length = 3 → bitsAt w1 63 40 = 0 → bitsAt w2 63 48 = 0 →
        let err := (((w2 * Config.second + bitsAt w3 31 0 * Config.ns : Nat) : Int) - ((w.now : Int) - late)).natAbs
        let a := w.count T Ctr.Twin.HB_RX
        let b := if w.rb T Twin.hbAny = true ∧ bitsAt w1 23 8 ≠ (w.twN Twin.hbRx + 1) % 65536 then a.count T Ctr.Twin.HB_SEQ_GAPS else a
        let z := (((b.wrs T [(Twin.hbAt, ((w.clk - late) + 1 : Nat)), (Twin.hbAny, 1), (Twin.hbRx, bitsAt w1 23 8), (Twin.missRun, 0),
          (Twin.PARTNER_ROLE, bitsAt w1 25 24), (Twin.PARTNER_MAJOR, bitsAt w1 3 0), (Twin.pPair, bitsAt w1 30 28), (Twin.pSwitching, bitsAt w1 31 31)]).wr U.tower
          Tower.twinSel (bitsAt w1 36 33)).checkHeartbeat (decide (50 * Config.ns < err)) roleIn (bitsAt w1 25 24))
        let clash := bitsAt w1 26 26 = w.twN Twin.SIDE
        let old := bitsAt w1 3 0 < w.rn U.boot Boot.twMin ∨ w.rn U.boot Boot.twMax < bitsAt w1 3 0
        let c := z.twSet Twin.refused (if clash ∨ old then 1 else 0)
        let d := if clash then c.countLimited T Ctr.Twin.SIDE_CLASHES 0x0900 0 else c
        let e := if old then d.countLimited T Ctr.Twin.VERSION_REFUSALS 0x0901 0 else d
        exec (.heartbeatRx dt m late roleIn) s = .next (if w.tw Twin.PAIR = prSeeking then e else e.pairHeartbeat (bitsAt w1 25 24) (bitsAt w1 30 28)).showOk) ∧
      (2 * Config.us ≤ w.now % slotLen → w.twN Twin.missSlot ≠ slot + 1 → w.twN Twin.hbAt + Config.us < (w.clk - w.now % slotLen) + 1 →
        let z := w.wrs T [(Twin.missSlot, slot + 1), (Twin.missRun, (w.twN Twin.missRun + 1 : Nat))]
        (w.twN Twin.missRun = 0 → exec (.heartbeatMissing dt roleIn) s = .next ((z.twSet Twin.faultAtLoss (w.tw Twin.ROLE_FAULT)).showOk)) ∧
        (w.twN Twin.missRun ≠ 0 → w.tw Twin.ROLE ≠ roleActive ∨ w.twN Twin.missRun < 2 → exec (.heartbeatMissing dt roleIn) s = .next z.showOk) ∧
        (2 ≤ w.twN Twin.missRun → w.tw Twin.ROLE = roleActive → exec (.heartbeatMissing dt roleIn) s =
          .next (if z.rb T Twin.faultAtLoss then z.twinLost else if roleIn then z else if w.tw Twin.PAIR = prTwinLost then z else z.setPair prPartnerLost).showOk))) ∧
    (∀ roleIn, w.tw Twin.MODE = 1 → w.tw Twin.ROLE = roleStandby → 3 ≤ w.twN Twin.missRun → w.twN Twin.hbAt + 40 * Config.us ≤ w.clk + 1 →
      w.tw Twin.PAIR ≠ prAlleyDown ∨ roleIn = false → let part := w.tw Twin.PAIR == prReplicating; let hold := w.twN Twin.TAKEOVER_HOLD
      let a : State := { w with shadow := none, held := if hold = 0 then w.held else some ⟨w.clk, w.tsOff, w.regs, w.staged, w.claims⟩ }
      let b := (a.wrs T [(Twin.holdEnd, if hold = 0 then 0 else (w.clk + hold * Config.ms + 1 : Nat)), (Twin.highRun, 0), (Twin.dualAt, 0)]).setRole roleActive
      let c := (if w.rb T Twin.faultAtLoss then b.twinLost else b.setPair prPartnerLost).count T Ctr.Twin.TAKEOVERS
      exec (.takeover dt roleIn) s = .next ((if part then (c.count T Ctr.Twin.REPLICATION_FAILS).twSet Twin.UNREPLICATED 1 else c).post T 0x090A
        (detail 0 0 0 (if part then 1 else 0))).showOk) ∧
    (w.held.isSome = true → w.twN Twin.holdEnd ≤ w.clk + 1 → exec (.takeoverHoldEnd dt) s =
      .next ((State.twSet { w with held := none } Twin.holdEnd 0).emit (.pin pinTowerSt (w.towerN Tower.STATE)))) ∧
    (w.tw Twin.PAIR = prSeeking → w.twN Twin.seekAt + Config.ms ≤ w.clk →
      (w.rb T Twin.hbAny = false ∨ 3 ≤ w.twN Twin.missRun →
        exec (.pairSeekTimeout dt true) s = .next ((w.setRole roleStandby).setPair prAlleyDown) ∧
        exec (.pairSeekTimeout dt false) s = .next ((w.setRole roleActive).setPair prPartnerLost)) ∧
      (∀ roleIn, w.rb T Twin.hbAny = true → w.twN Twin.missRun < 3 → w.rb T Twin.refused = false →
        (w.twN Twin.PARTNER_ROLE = 1 → exec (.pairSeekTimeout dt roleIn) s = .next ((w.setRole roleStandby).replicate)) ∧
        (w.twN Twin.PARTNER_ROLE = 0 → exec (.pairSeekTimeout dt roleIn) s =
          .next ((w.setRole (if w.tw Twin.SIDE = 0 then roleActive else roleStandby)).replicate)))) ∧
    (let l50 := cmpRecs (w.buf T 50); let k50 := l50.filter fun r => decide (w.clk < r.at_ + Config.ms);
      let a := (w.setBuf T 50 (cmpInts k50)).countBy T Ctr.Twin.UNCOMPARED (l50.length - k50.length)
      let l51 := cmpRecs (a.buf T 51); let k51 := l51.filter fun r => decide (w.clk < r.at_ + Config.ms)
      exec (.uncompared dt) s = .next ((a.setBuf T 51 (cmpInts k51)).countBy T Ctr.Twin.UNCOMPARED (l51.length - k51.length))) ∧
    (recHead m = none → exec (.compareRx dt m) s = .next (w.count T Ctr.Twin.UNCOMPARED)) ∧
    (∀ item k line, recHead m = some (item, k, 0, line) → exec (.compareRx dt m) s = .next (((recCrcs k (m.body.drop 2)).zipIdx).foldl (fun (a : State) e =>
      a.compareAdd false (if m.typ = 0x20 then ⟨0, item, (m.body.getD 1 0).toNat, line + e.2, e.1, w.clk⟩ else ⟨1, item + e.2, (m.body.getD 1 0).toNat, 0, e.1, w.clk⟩)) w)) ∧
    (goodCrc m = true → w.seenMsg m.seq = false →
      (y.tw Twin.PAIR = prInStep → exec (.suspect dt m) s = .next ((y.setRows T 55 (y.twRows 55 3 ++ [[((m.body.getD 0 0).toNat : Int), ((m.body.getD 1 0).toNat : Int),
        ((m.body.getD 2 0).toNat % 32 : Nat)]])).concludeKnown)) ∧
      (y.tw Twin.PAIR ≠ prInStep → exec (.suspect dt m) s = .next y) ∧
      (y.tw Twin.ROLE = roleStandby → y.tw Twin.PAIR = prReplicating → let z := y.loadItems (m.body.length + 1) m.body
        (z.shadow = none → exec (.replica dt m) s = .next z) ∧
        (∀ h, z.shadow = some h → exec (.replica dt m) s = .next { z with nextId := h.errands.foldl (fun n e => max n (e.id + 1)) z.nextId })) ∧
      (y.tw Twin.PAIR = prReplicating → let p := y.twN Twin.TWIN_PLAN
        (y.tw Twin.ROLE = roleActive → y.twN Twin.repl = 2 → m.body = [] → y.planOn p = true →
          let j := y.firstTickFrom p ((y.now : Int) + curfewLead + Config.ms); let z := y.wrs T [(Twin.repl, 3), (Twin.stepDue, j + 1)]
          exec (.stepMsg dt m) s = .next (z.alleySend 0x31 (BitVec.ofInt 64 j :: y.gainItems))) ∧
        (y.tw Twin.ROLE = roleStandby → y.rb T Twin.loaded = true → m.body ≠ [] → exec (.stepMsg dt m) s =
          .next ((y.twSet Twin.stepDue ((m.body.headD 0).toInt + 1)).setBuf T 60 (gainPairs (wordGroups 5 (m.body.drop 1)))))) ∧
      (let p := manPlan m; m.typ = 3 → p < 16 → y.followsDecisions = true → let rows := manifestRows (m.body.drop 2)
        (manTickOf m < y.rd (U.plan p) Plan.manTick → exec (.manifestRx dt m) s = .next y) ∧
        (y.rd (U.plan p) Plan.manTick ≤ manTickOf m → exec (.manifestRx dt m) s =
          .next (if y.manifestMet p rows then y.applyManifest p (manTickOf m) rows m.seq else y.setManifests p (y.manifests p ++ [m]))))) ∧
    (n < 16 → w.followsDecisions = true →
      (let k := w.tickAt n ((w.now : Int) + curfewLead - 10 * Config.us); w.planOn n = true → w.rd (U.plan n) Plan.manTick ≤ k → w.rd (U.plan n) Plan.TICK < k →
        (w.manifests n).any (manTickOf · == k) = false → let z := ((w.resolveNew n k).wr (U.plan n) Plan.manTick (k + 1)).count T Ctr.Twin.MANIFEST_OWN
        exec (.manifestOwn dt n) s = .next (z.setBuf (U.plan n) 60 (logInts ((z.planLog n).filter fun x => z.staged.any fun e => e.id == x.id && !e.won)))) ∧
      (∀ a rest, w.manifests n = a :: rest → let rows := manifestRows (a.body.drop 2)
        (w.manifestMet n rows = true → exec (.manifestLate dt n) s = .next ((w.setManifests n rest).applyManifest n (manTickOf a) rows a.seq)) ∧
        (w.manifestMet n rows = false → w.tickTime n (manTickOf a) w.now - curfewLead + 40 * Config.us ≤ w.now →
          exec (.manifestLate dt n) s = .next ((((w.setManifests n []).count T Ctr.Twin.MANIFEST_LATE).post T 0x0903 0).replicate)))) ∧
    (let kind := (m.body.headD 0).toNat % 256; let u := bitsAt (m.body.headD 0).toNat 39 8; w.followsDecisions = true → goodCrc m = true → m.typ = 2 →
      decisionUnit kind u = true → exec (.decision dt m) s = .next (if w.decisionOpen kind u then w.applyDecision kind u (some (m.body.getD 1 0).toNat) else w)) ∧
    (∀ u, decisionUnit n u = true → (n = 0 → w.rn u Sub.choiceDue ≤ w.clk + 1) → (n = 1 → w.rn u Layer.choiceDue ≤ w.clk + 1) → (n = 4 → w.rn u Tx.tsDue ≤ w.clk + 1) →
      (n ≠ 0 → n ≠ 1 → n ≠ 4 → w.rd u Src.due ≤ w.now) → exec (.twinDecisionTimeout dt n u) s = .next (w.applyDecision n u none)) ∧
    (w.onCopy = true → exec (.replicationCaughtUp dt) s = .next (if w.replayAll.copyBehind = true ∨ w.rb T Twin.loaded = false ∨ w.rb T Twin.stepDue = true
      then w.replayAll else w.replayAll.alleySend 0x31 [])) ∧
    (w.tw Twin.PAIR = prReplicating →
      (w.twN Twin.replAt - 1 + 2 * Config.second ≤ w.clk → exec (.replicationTimeout dt) s = .next ((w.count T Ctr.Twin.REPLICATION_FAILS).replicate)) ∧
      (let p := w.twN Twin.TWIN_PLAN; let j := w.tw Twin.stepDue - 1; w.tw Twin.stepDue ≠ 0 → w.planOn p = true → j ≤ w.tickAt p w.now →
        let z := if w.tw Twin.ROLE = roleStandby then w.replayAll.makeCurrent else w
        exec (.stepCommit dt) s = .next (((((((z.forgetCompare).setBuf T 60 []).setPair prInStep).wrs T [(Twin.STEP_TICK, j), (Twin.stepAt, w.clk + 1)]).count T
          Ctr.Twin.REPLICATIONS).post T 0x090B 0).showOk)))
end

