-- ==== Sys2Proof/Laws/State.lean ====
section
/-!
SUPPORT. Laws of the tables, of the memory, and of the named operations on State: what each update leaves in each field,
and what a read after a write gives.
-/
namespace Sys2Proof.Machine

/-! ### Tables -/

theorem Tbl.get_put_same {α : Type} (k : Key) (d v : α) (t : Tbl α) : Tbl.get k d (Tbl.put k v t) = v := by
  induction t with
  | nil => simp [Tbl.put, Tbl.get]
  | cons e t ih =>
    obtain ⟨k', w⟩ := e
    simp only [Tbl.put]
    split
    · simp [Tbl.get]
    · split
      · simp [Tbl.get]
      · simp [Tbl.get, *]
theorem Tbl.get_put_ne {α : Type} (k j : Key) (d v : α) (h : k ≠ j) (t : Tbl α) : Tbl.get k d (Tbl.put j v t) = Tbl.get k d t := by
  induction t with
  | nil => simp [Tbl.put, Tbl.get, h]
  | cons e t ih =>
    obtain ⟨k', w⟩ := e
    simp only [Tbl.put]
    split
    · subst_vars; simp [Tbl.get, h]
    · split
      · simp [Tbl.get, h]
      · simp [Tbl.get, ih]
theorem Tbl.get_del_same {α : Type} (k : Key) (d : α) (t : Tbl α) : Tbl.get k d (Tbl.del k t) = d := by
  induction t with
  | nil => rfl
  | cons e t ih =>
    obtain ⟨k', w⟩ := e
    simp only [Tbl.del]
    split
    · exact ih
    · simp [Tbl.get, *]
theorem Tbl.get_del_ne {α : Type} (k j : Key) (d : α) (h : k ≠ j) (t : Tbl α) : Tbl.get k d (Tbl.del j t) = Tbl.get k d t := by
  induction t with
  | nil => rfl
  | cons e t ih =>
    obtain ⟨k', w⟩ := e
    simp only [Tbl.del]
    split
    · subst_vars; simp [Tbl.get, h, ih]
    · simp [Tbl.get, ih]
/-- A read after a write of the same key gives the value written. -/
theorem Tbl.get_set_same {α : Type} [DecidableEq α] (k : Key) (d v : α) (t : Tbl α) : Tbl.get k d (Tbl.set k d v t) = v := by
  simp only [Tbl.set]
  split
  · subst_vars; exact Tbl.get_del_same k _ t
  · exact Tbl.get_put_same k d v t
/-- A write leaves every other key alone, whatever an unlisted key reads as. -/
theorem Tbl.get_set_ne {α : Type} [DecidableEq α] (k j : Key) (d e v : α) (h : k ≠ j) (t : Tbl α) :
    Tbl.get k d (Tbl.set j e v t) = Tbl.get k d t := by
  simp only [Tbl.set]
  split
  · exact Tbl.get_del_ne k j d h t
  · exact Tbl.get_put_ne k j d v h t

/-! ### Memory -/

/-- A byte read after it is written is the byte written. -/
theorem barnGet_cons (a x : Nat) (v : BitVec 8) (t : List Host.Cell) : barnGet ((x, v) :: t) a = if x = a then v else barnGet t a := by
  simp only [barnGet, List.find?_cons]
  by_cases h : x = a
  · simp [h]
  · have e : (x == a) = false := by simp [h]
    simp [h, e]
theorem barnGet_insert (m : List Host.Cell) (a c : Nat) (b : BitVec 8) :
    barnGet (barnInsert a b m) c = if a = c then b else barnGet m c := by
  induction m with
  | nil => simp [barnInsert, barnGet_cons]
  | cons e t ih =>
    obtain ⟨x, v⟩ := e
    simp only [barnInsert]
    split
    · simp [barnGet_cons]
    · split
      · subst_vars; simp only [barnGet_cons]; split <;> simp_all
      · simp only [barnGet_cons, ih]; split <;> simp_all
/-- Every listed address lies above `a`. -/
def above (a : Nat) : List Host.Cell → Prop
  | [] => True
  | (x, _) :: t => a < x ∧ above a t
theorem wf_cons (x : Nat) (v : BitVec 8) (t : List Host.Cell) : Memory.wf ((x, v) :: t) = true ↔ v ≠ 0 ∧ above x t ∧ Memory.wf t = true := by
  induction t generalizing x v with
  | nil => simp [Memory.wf, above]
  | cons e t ih =>
    obtain ⟨y, w⟩ := e
    simp only [Memory.wf, Bool.and_eq_true, bne_iff_ne, ne_eq, decide_eq_true_eq, above]
    constructor
    · rintro ⟨⟨h1, h2⟩, h3⟩
      refine ⟨h1, ⟨h2, ?_⟩, h3⟩
      have := ((ih y w).1 h3).2.1
      clear ih h3
      induction t with
      | nil => trivial
      | cons e t iht => obtain ⟨z, u⟩ := e; exact ⟨Nat.lt_trans h2 this.1, iht this.2⟩
    · rintro ⟨h1, ⟨h2, h3⟩, h4⟩
      exact ⟨⟨h1, h2⟩, h4⟩
theorem above_insert (a c : Nat) (b : BitVec 8) (t : List Host.Cell) (h : a < c) (ht : above a t) : above a (barnInsert c b t) := by
  induction t with
  | nil => exact ⟨h, trivial⟩
  | cons e t ih =>
    obtain ⟨x, v⟩ := e
    simp only [barnInsert]
    split
    · exact ⟨h, ht⟩
    · split
      · exact ⟨h, ht.2⟩
      · exact ⟨ht.1, ih ht.2⟩
theorem above_erase (a c : Nat) (t : List Host.Cell) (ht : above a t) : above a (barnErase c t) := by
  induction t with
  | nil => trivial
  | cons e t ih =>
    obtain ⟨x, v⟩ := e
    simp only [barnErase]
    split
    · exact ht.2
    · exact ⟨ht.1, ih ht.2⟩
theorem above_trans (a c : Nat) (t : List Host.Cell) (h : a ≤ c) (ht : above c t) : above a t := by
  induction t with
  | nil => trivial
  | cons e t ih => obtain ⟨x, v⟩ := e; exact ⟨Nat.lt_of_le_of_lt h ht.1, ih ht.2⟩
/-- Writing a byte keeps the canonical form. -/
theorem barnPut_wf (m : List Host.Cell) (a : Nat) (b : BitVec 8) (h : Memory.wf m = true) : Memory.wf (barnPut m a b) = true := by
  simp only [barnPut]
  split
  · induction m with
    | nil => exact h
    | cons e t ih =>
      obtain ⟨x, v⟩ := e
      rw [wf_cons] at h
      simp only [barnErase]
      split
      · exact h.2.2
      · rw [wf_cons]; exact ⟨h.1, above_erase x a t h.2.1, ih h.2.2⟩
  · rename_i hb
    induction m with
    | nil => simpa [barnInsert, Memory.wf] using hb
    | cons e t ih =>
      obtain ⟨x, v⟩ := e
      have h' := h
      rw [wf_cons] at h
      simp only [barnInsert]
      split
      · rename_i hx
        rw [wf_cons]
        exact ⟨hb, ⟨hx, above_trans a x t (Nat.le_of_lt hx) h.2.1⟩, h'⟩
      · split
        · subst_vars; rw [wf_cons]; exact ⟨hb, h.2.1, h.2.2⟩
        · rename_i h1 h2
          rw [wf_cons]; exact ⟨h.1, above_insert x a b t (by omega) h.2.1, ih h.2.2⟩
/-- A read of another byte gives what it gave before. -/
theorem barnGet_erase_ne (m : List Host.Cell) (a c : Nat) (h : a ≠ c) : barnGet (barnErase a m) c = barnGet m c := by
  induction m with
  | nil => rfl
  | cons e t ih =>
    obtain ⟨x, v⟩ := e
    simp only [barnErase]
    split
    · subst_vars; simp [barnGet_cons, h]
    · simp [barnGet_cons, ih]
theorem barnGet_above (m : List Host.Cell) (a : Nat) (h : above a m) : barnGet m a = 0 := by
  induction m with
  | nil => rfl
  | cons e t ih =>
    obtain ⟨x, v⟩ := e
    have := h.1
    rw [barnGet_cons, if_neg (by omega)]
    exact ih h.2
theorem barnGet_erase_same (m : List Host.Cell) (a : Nat) (h : Memory.wf m = true) : barnGet (barnErase a m) a = 0 := by
  induction m with
  | nil => rfl
  | cons e t ih =>
    obtain ⟨x, v⟩ := e
    rw [wf_cons] at h
    simp only [barnErase]
    split
    · subst_vars; exact barnGet_above t _ h.2.1
    · rename_i hx
      rw [barnGet_cons, if_neg (by omega)]
      exact ih h.2.2
theorem barnGet_put_same (m : List Host.Cell) (a : Nat) (b : BitVec 8) (h : Memory.wf m = true) : barnGet (barnPut m a b) a = b := by
  simp only [barnPut]
  split
  · subst_vars; exact barnGet_erase_same m a h
  · simp [barnGet_insert]
theorem barnGet_put_ne (m : List Host.Cell) (a c : Nat) (b : BitVec 8) (h : a ≠ c) : barnGet (barnPut m a b) c = barnGet m c := by
  simp only [barnPut]
  split
  · exact barnGet_erase_ne m a c h
  · simp [barnGet_insert, h]
theorem barnPutWord_wf (m : List Host.Cell) (o : Nat) (w : Word) (h : Memory.wf m = true) : Memory.wf (barnPutWord m o w) = true := by
  simp only [barnPutWord]
  generalize List.range 8 = l
  induction l generalizing m with
  | nil => exact h
  | cons i t ih => exact ih _ (barnPut_wf _ _ _ h)

/-! ### Fields after each update -/

@[simp] theorem State.wr_clk (s : State) (u : Nat) (f : Field) (v : Int) : (s.wr u f v).clk = s.clk := rfl
@[simp] theorem State.wr_tsOff (s : State) (u : Nat) (f : Field) (v : Int) : (s.wr u f v).tsOff = s.tsOff := rfl
@[simp] theorem State.wr_setAt (s : State) (u : Nat) (f : Field) (v : Int) : (s.wr u f v).setAt = s.setAt := rfl
@[simp] theorem State.wr_setBy (s : State) (u : Nat) (f : Field) (v : Int) : (s.wr u f v).setBy = s.setBy := rfl
@[simp] theorem State.wr_ctrs (s : State) (u : Nat) (f : Field) (v : Int) : (s.wr u f v).ctrs = s.ctrs := rfl
@[simp] theorem State.wr_gregs (s : State) (u : Nat) (f : Field) (v : Int) : (s.wr u f v).gregs = s.gregs := rfl
@[simp] theorem State.wr_preds (s : State) (u : Nat) (f : Field) (v : Int) : (s.wr u f v).preds = s.preds := rfl
@[simp] theorem State.wr_calls (s : State) (u : Nat) (f : Field) (v : Int) : (s.wr u f v).calls = s.calls := rfl
@[simp] theorem State.wr_ledger (s : State) (u : Nat) (f : Field) (v : Int) : (s.wr u f v).ledger = s.ledger := rfl
@[simp] theorem State.wr_errands (s : State) (u : Nat) (f : Field) (v : Int) : (s.wr u f v).errands = s.errands := rfl
@[simp] theorem State.wr_replies (s : State) (u : Nat) (f : Field) (v : Int) : (s.wr u f v).replies = s.replies := rfl
@[simp] theorem State.wr_parts (s : State) (u : Nat) (f : Field) (v : Int) : (s.wr u f v).parts = s.parts := rfl
@[simp] theorem State.wr_staged (s : State) (u : Nat) (f : Field) (v : Int) : (s.wr u f v).staged = s.staged := rfl
@[simp] theorem State.wr_bg (s : State) (u : Nat) (f : Field) (v : Int) : (s.wr u f v).bg = s.bg := rfl
@[simp] theorem State.wr_salvos (s : State) (u : Nat) (f : Field) (v : Int) : (s.wr u f v).salvos = s.salvos := rfl
@[simp] theorem State.wr_sheaf (s : State) (u : Nat) (f : Field) (v : Int) : (s.wr u f v).sheaf = s.sheaf := rfl
@[simp] theorem State.wr_layers (s : State) (u : Nat) (f : Field) (v : Int) : (s.wr u f v).layers = s.layers := rfl
@[simp] theorem State.wr_classifier (s : State) (u : Nat) (f : Field) (v : Int) : (s.wr u f v).classifier = s.classifier := rfl
@[simp] theorem State.wr_crierRing (s : State) (u : Nat) (f : Field) (v : Int) : (s.wr u f v).crierRing = s.crierRing := rfl
@[simp] theorem State.wr_compareLog (s : State) (u : Nat) (f : Field) (v : Int) : (s.wr u f v).compareLog = s.compareLog := rfl
@[simp] theorem State.wr_captRing (s : State) (u : Nat) (f : Field) (v : Int) : (s.wr u f v).captRing = s.captRing := rfl
@[simp] theorem State.wr_ringReports (s : State) (u : Nat) (f : Field) (v : Int) : (s.wr u f v).ringReports = s.ringReports := rfl
@[simp] theorem State.wr_snapHdr (s : State) (u : Nat) (f : Field) (v : Int) : (s.wr u f v).snapHdr = s.snapHdr := rfl
@[simp] theorem State.wr_snapCtrs (s : State) (u : Nat) (f : Field) (v : Int) : (s.wr u f v).snapCtrs = s.snapCtrs := rfl
@[simp] theorem State.wr_barn (s : State) (u : Nat) (f : Field) (v : Int) : (s.wr u f v).barn = s.barn := rfl
@[simp] theorem State.wr_flash (s : State) (u : Nat) (f : Field) (v : Int) : (s.wr u f v).flash = s.flash := rfl
@[simp] theorem State.wr_claims (s : State) (u : Nat) (f : Field) (v : Int) : (s.wr u f v).claims = s.claims := rfl
@[simp] theorem State.wr_holds (s : State) (u : Nat) (f : Field) (v : Int) : (s.wr u f v).holds = s.holds := rfl
@[simp] theorem State.wr_bufs (s : State) (u : Nat) (f : Field) (v : Int) : (s.wr u f v).bufs = s.bufs := rfl
@[simp] theorem State.wr_pics (s : State) (u : Nat) (f : Field) (v : Int) : (s.wr u f v).pics = s.pics := rfl
@[simp] theorem State.wr_links (s : State) (u : Nat) (f : Field) (v : Int) : (s.wr u f v).links = s.links := rfl
@[simp] theorem State.wr_seatLines (s : State) (u : Nat) (f : Field) (v : Int) : (s.wr u f v).seatLines = s.seatLines := rfl
@[simp] theorem State.wr_held (s : State) (u : Nat) (f : Field) (v : Int) : (s.wr u f v).held = s.held := rfl
@[simp] theorem State.wr_shadow (s : State) (u : Nat) (f : Field) (v : Int) : (s.wr u f v).shadow = s.shadow := rfl
@[simp] theorem State.wr_nv (s : State) (u : Nat) (f : Field) (v : Int) : (s.wr u f v).nv = s.nv := rfl
@[simp] theorem State.wr_outs (s : State) (u : Nat) (f : Field) (v : Int) : (s.wr u f v).outs = s.outs := rfl
@[simp] theorem State.wr_nextId (s : State) (u : Nat) (f : Field) (v : Int) : (s.wr u f v).nextId = s.nextId := rfl
@[simp] theorem State.wr_freeIx (s : State) (u : Nat) (f : Field) (v : Int) : (s.wr u f v).freeIx = s.freeIx := rfl
@[simp] theorem State.wr_pending (s : State) (u : Nat) (f : Field) (v : Int) : (s.wr u f v).pending = s.pending := rfl
@[simp] theorem State.countBy_clk (s : State) (u j k : Nat) : (s.countBy u j k).clk = s.clk := rfl
@[simp] theorem State.countBy_tsOff (s : State) (u j k : Nat) : (s.countBy u j k).tsOff = s.tsOff := rfl
@[simp] theorem State.countBy_setAt (s : State) (u j k : Nat) : (s.countBy u j k).setAt = s.setAt := rfl
@[simp] theorem State.countBy_setBy (s : State) (u j k : Nat) : (s.countBy u j k).setBy = s.setBy := rfl
@[simp] theorem State.countBy_regs (s : State) (u j k : Nat) : (s.countBy u j k).regs = s.regs := rfl
@[simp] theorem State.countBy_gregs (s : State) (u j k : Nat) : (s.countBy u j k).gregs = s.gregs := rfl
@[simp] theorem State.countBy_preds (s : State) (u j k : Nat) : (s.countBy u j k).preds = s.preds := rfl
@[simp] theorem State.countBy_calls (s : State) (u j k : Nat) : (s.countBy u j k).calls = s.calls := rfl
@[simp] theorem State.countBy_ledger (s : State) (u j k : Nat) : (s.countBy u j k).ledger = s.ledger := rfl
@[simp] theorem State.countBy_errands (s : State) (u j k : Nat) : (s.countBy u j k).errands = s.errands := rfl
@[simp] theorem State.countBy_replies (s : State) (u j k : Nat) : (s.countBy u j k).replies = s.replies := rfl
@[simp] theorem State.countBy_parts (s : State) (u j k : Nat) : (s.countBy u j k).parts = s.parts := rfl
@[simp] theorem State.countBy_staged (s : State) (u j k : Nat) : (s.countBy u j k).staged = s.staged := rfl
@[simp] theorem State.countBy_bg (s : State) (u j k : Nat) : (s.countBy u j k).bg = s.bg := rfl
@[simp] theorem State.countBy_salvos (s : State) (u j k : Nat) : (s.countBy u j k).salvos = s.salvos := rfl
@[simp] theorem State.countBy_sheaf (s : State) (u j k : Nat) : (s.countBy u j k).sheaf = s.sheaf := rfl
@[simp] theorem State.countBy_layers (s : State) (u j k : Nat) : (s.countBy u j k).layers = s.layers := rfl
@[simp] theorem State.countBy_classifier (s : State) (u j k : Nat) : (s.countBy u j k).classifier = s.classifier := rfl
@[simp] theorem State.countBy_crierRing (s : State) (u j k : Nat) : (s.countBy u j k).crierRing = s.crierRing := rfl
@[simp] theorem State.countBy_compareLog (s : State) (u j k : Nat) : (s.countBy u j k).compareLog = s.compareLog := rfl
@[simp] theorem State.countBy_captRing (s : State) (u j k : Nat) : (s.countBy u j k).captRing = s.captRing := rfl
@[simp] theorem State.countBy_ringReports (s : State) (u j k : Nat) : (s.countBy u j k).ringReports = s.ringReports := rfl
@[simp] theorem State.countBy_snapHdr (s : State) (u j k : Nat) : (s.countBy u j k).snapHdr = s.snapHdr := rfl
@[simp] theorem State.countBy_snapCtrs (s : State) (u j k : Nat) : (s.countBy u j k).snapCtrs = s.snapCtrs := rfl
@[simp] theorem State.countBy_barn (s : State) (u j k : Nat) : (s.countBy u j k).barn = s.barn := rfl
@[simp] theorem State.countBy_flash (s : State) (u j k : Nat) : (s.countBy u j k).flash = s.flash := rfl
@[simp] theorem State.countBy_claims (s : State) (u j k : Nat) : (s.countBy u j k).claims = s.claims := rfl
@[simp] theorem State.countBy_holds (s : State) (u j k : Nat) : (s.countBy u j k).holds = s.holds := rfl
@[simp] theorem State.countBy_bufs (s : State) (u j k : Nat) : (s.countBy u j k).bufs = s.bufs := rfl
@[simp] theorem State.countBy_pics (s : State) (u j k : Nat) : (s.countBy u j k).pics = s.pics := rfl
@[simp] theorem State.countBy_links (s : State) (u j k : Nat) : (s.countBy u j k).links = s.links := rfl
@[simp] theorem State.countBy_seatLines (s : State) (u j k : Nat) : (s.countBy u j k).seatLines = s.seatLines := rfl
@[simp] theorem State.countBy_held (s : State) (u j k : Nat) : (s.countBy u j k).held = s.held := rfl
@[simp] theorem State.countBy_shadow (s : State) (u j k : Nat) : (s.countBy u j k).shadow = s.shadow := rfl
@[simp] theorem State.countBy_nv (s : State) (u j k : Nat) : (s.countBy u j k).nv = s.nv := rfl
@[simp] theorem State.countBy_outs (s : State) (u j k : Nat) : (s.countBy u j k).outs = s.outs := rfl
@[simp] theorem State.countBy_nextId (s : State) (u j k : Nat) : (s.countBy u j k).nextId = s.nextId := rfl
@[simp] theorem State.countBy_freeIx (s : State) (u j k : Nat) : (s.countBy u j k).freeIx = s.freeIx := rfl
@[simp] theorem State.countBy_pending (s : State) (u j k : Nat) : (s.countBy u j k).pending = s.pending := rfl
@[simp] theorem State.count_clk (s : State) (u j : Nat) : (s.count u j).clk = s.clk := rfl
@[simp] theorem State.count_tsOff (s : State) (u j : Nat) : (s.count u j).tsOff = s.tsOff := rfl
@[simp] theorem State.count_setAt (s : State) (u j : Nat) : (s.count u j).setAt = s.setAt := rfl
@[simp] theorem State.count_setBy (s : State) (u j : Nat) : (s.count u j).setBy = s.setBy := rfl
@[simp] theorem State.count_regs (s : State) (u j : Nat) : (s.count u j).regs = s.regs := rfl
@[simp] theorem State.count_gregs (s : State) (u j : Nat) : (s.count u j).gregs = s.gregs := rfl
@[simp] theorem State.count_preds (s : State) (u j : Nat) : (s.count u j).preds = s.preds := rfl
@[simp] theorem State.count_calls (s : State) (u j : Nat) : (s.count u j).calls = s.calls := rfl
@[simp] theorem State.count_ledger (s : State) (u j : Nat) : (s.count u j).ledger = s.ledger := rfl
@[simp] theorem State.count_errands (s : State) (u j : Nat) : (s.count u j).errands = s.errands := rfl
@[simp] theorem State.count_replies (s : State) (u j : Nat) : (s.count u j).replies = s.replies := rfl
@[simp] theorem State.count_parts (s : State) (u j : Nat) : (s.count u j).parts = s.parts := rfl
@[simp] theorem State.count_staged (s : State) (u j : Nat) : (s.count u j).staged = s.staged := rfl
@[simp] theorem State.count_bg (s : State) (u j : Nat) : (s.count u j).bg = s.bg := rfl
@[simp] theorem State.count_salvos (s : State) (u j : Nat) : (s.count u j).salvos = s.salvos := rfl
@[simp] theorem State.count_sheaf (s : State) (u j : Nat) : (s.count u j).sheaf = s.sheaf := rfl
@[simp] theorem State.count_layers (s : State) (u j : Nat) : (s.count u j).layers = s.layers := rfl
@[simp] theorem State.count_classifier (s : State) (u j : Nat) : (s.count u j).classifier = s.classifier := rfl
@[simp] theorem State.count_crierRing (s : State) (u j : Nat) : (s.count u j).crierRing = s.crierRing := rfl
@[simp] theorem State.count_compareLog (s : State) (u j : Nat) : (s.count u j).compareLog = s.compareLog := rfl
@[simp] theorem State.count_captRing (s : State) (u j : Nat) : (s.count u j).captRing = s.captRing := rfl
@[simp] theorem State.count_ringReports (s : State) (u j : Nat) : (s.count u j).ringReports = s.ringReports := rfl
@[simp] theorem State.count_snapHdr (s : State) (u j : Nat) : (s.count u j).snapHdr = s.snapHdr := rfl
@[simp] theorem State.count_snapCtrs (s : State) (u j : Nat) : (s.count u j).snapCtrs = s.snapCtrs := rfl
@[simp] theorem State.count_barn (s : State) (u j : Nat) : (s.count u j).barn = s.barn := rfl
@[simp] theorem State.count_flash (s : State) (u j : Nat) : (s.count u j).flash = s.flash := rfl
@[simp] theorem State.count_claims (s : State) (u j : Nat) : (s.count u j).claims = s.claims := rfl
@[simp] theorem State.count_holds (s : State) (u j : Nat) : (s.count u j).holds = s.holds := rfl
@[simp] theorem State.count_bufs (s : State) (u j : Nat) : (s.count u j).bufs = s.bufs := rfl
@[simp] theorem State.count_pics (s : State) (u j : Nat) : (s.count u j).pics = s.pics := rfl
@[simp] theorem State.count_links (s : State) (u j : Nat) : (s.count u j).links = s.links := rfl
@[simp] theorem State.count_seatLines (s : State) (u j : Nat) : (s.count u j).seatLines = s.seatLines := rfl
@[simp] theorem State.count_held (s : State) (u j : Nat) : (s.count u j).held = s.held := rfl
@[simp] theorem State.count_shadow (s : State) (u j : Nat) : (s.count u j).shadow = s.shadow := rfl
@[simp] theorem State.count_nv (s : State) (u j : Nat) : (s.count u j).nv = s.nv := rfl
@[simp] theorem State.count_outs (s : State) (u j : Nat) : (s.count u j).outs = s.outs := rfl
@[simp] theorem State.count_nextId (s : State) (u j : Nat) : (s.count u j).nextId = s.nextId := rfl
@[simp] theorem State.count_freeIx (s : State) (u j : Nat) : (s.count u j).freeIx = s.freeIx := rfl
@[simp] theorem State.count_pending (s : State) (u j : Nat) : (s.count u j).pending = s.pending := rfl
@[simp] theorem State.setBuf_clk (s : State) (u p : Nat) (l : List Int) : (s.setBuf u p l).clk = s.clk := rfl
@[simp] theorem State.setBuf_tsOff (s : State) (u p : Nat) (l : List Int) : (s.setBuf u p l).tsOff = s.tsOff := rfl
@[simp] theorem State.setBuf_setAt (s : State) (u p : Nat) (l : List Int) : (s.setBuf u p l).setAt = s.setAt := rfl
@[simp] theorem State.setBuf_setBy (s : State) (u p : Nat) (l : List Int) : (s.setBuf u p l).setBy = s.setBy := rfl
@[simp] theorem State.setBuf_regs (s : State) (u p : Nat) (l : List Int) : (s.setBuf u p l).regs = s.regs := rfl
@[simp] theorem State.setBuf_ctrs (s : State) (u p : Nat) (l : List Int) : (s.setBuf u p l).ctrs = s.ctrs := rfl
@[simp] theorem State.setBuf_gregs (s : State) (u p : Nat) (l : List Int) : (s.setBuf u p l).gregs = s.gregs := rfl
@[simp] theorem State.setBuf_preds (s : State) (u p : Nat) (l : List Int) : (s.setBuf u p l).preds = s.preds := rfl
@[simp] theorem State.setBuf_calls (s : State) (u p : Nat) (l : List Int) : (s.setBuf u p l).calls = s.calls := rfl
@[simp] theorem State.setBuf_ledger (s : State) (u p : Nat) (l : List Int) : (s.setBuf u p l).ledger = s.ledger := rfl
@[simp] theorem State.setBuf_errands (s : State) (u p : Nat) (l : List Int) : (s.setBuf u p l).errands = s.errands := rfl
@[simp] theorem State.setBuf_replies (s : State) (u p : Nat) (l : List Int) : (s.setBuf u p l).replies = s.replies := rfl
@[simp] theorem State.setBuf_parts (s : State) (u p : Nat) (l : List Int) : (s.setBuf u p l).parts = s.parts := rfl
@[simp] theorem State.setBuf_staged (s : State) (u p : Nat) (l : List Int) : (s.setBuf u p l).staged = s.staged := rfl
@[simp] theorem State.setBuf_bg (s : State) (u p : Nat) (l : List Int) : (s.setBuf u p l).bg = s.bg := rfl
@[simp] theorem State.setBuf_salvos (s : State) (u p : Nat) (l : List Int) : (s.setBuf u p l).salvos = s.salvos := rfl
@[simp] theorem State.setBuf_sheaf (s : State) (u p : Nat) (l : List Int) : (s.setBuf u p l).sheaf = s.sheaf := rfl
@[simp] theorem State.setBuf_layers (s : State) (u p : Nat) (l : List Int) : (s.setBuf u p l).layers = s.layers := rfl
@[simp] theorem State.setBuf_classifier (s : State) (u p : Nat) (l : List Int) : (s.setBuf u p l).classifier = s.classifier := rfl
@[simp] theorem State.setBuf_crierRing (s : State) (u p : Nat) (l : List Int) : (s.setBuf u p l).crierRing = s.crierRing := rfl
@[simp] theorem State.setBuf_compareLog (s : State) (u p : Nat) (l : List Int) : (s.setBuf u p l).compareLog = s.compareLog := rfl
@[simp] theorem State.setBuf_captRing (s : State) (u p : Nat) (l : List Int) : (s.setBuf u p l).captRing = s.captRing := rfl
@[simp] theorem State.setBuf_ringReports (s : State) (u p : Nat) (l : List Int) : (s.setBuf u p l).ringReports = s.ringReports := rfl
@[simp] theorem State.setBuf_snapHdr (s : State) (u p : Nat) (l : List Int) : (s.setBuf u p l).snapHdr = s.snapHdr := rfl
@[simp] theorem State.setBuf_snapCtrs (s : State) (u p : Nat) (l : List Int) : (s.setBuf u p l).snapCtrs = s.snapCtrs := rfl
@[simp] theorem State.setBuf_barn (s : State) (u p : Nat) (l : List Int) : (s.setBuf u p l).barn = s.barn := rfl
@[simp] theorem State.setBuf_flash (s : State) (u p : Nat) (l : List Int) : (s.setBuf u p l).flash = s.flash := rfl
@[simp] theorem State.setBuf_claims (s : State) (u p : Nat) (l : List Int) : (s.setBuf u p l).claims = s.claims := rfl
@[simp] theorem State.setBuf_holds (s : State) (u p : Nat) (l : List Int) : (s.setBuf u p l).holds = s.holds := rfl
@[simp] theorem State.setBuf_pics (s : State) (u p : Nat) (l : List Int) : (s.setBuf u p l).pics = s.pics := rfl
@[simp] theorem State.setBuf_links (s : State) (u p : Nat) (l : List Int) : (s.setBuf u p l).links = s.links := rfl
@[simp] theorem State.setBuf_seatLines (s : State) (u p : Nat) (l : List Int) : (s.setBuf u p l).seatLines = s.seatLines := rfl
@[simp] theorem State.setBuf_held (s : State) (u p : Nat) (l : List Int) : (s.setBuf u p l).held = s.held := rfl
@[simp] theorem State.setBuf_shadow (s : State) (u p : Nat) (l : List Int) : (s.setBuf u p l).shadow = s.shadow := rfl
@[simp] theorem State.setBuf_nv (s : State) (u p : Nat) (l : List Int) : (s.setBuf u p l).nv = s.nv := rfl
@[simp] theorem State.setBuf_outs (s : State) (u p : Nat) (l : List Int) : (s.setBuf u p l).outs = s.outs := rfl
@[simp] theorem State.setBuf_nextId (s : State) (u p : Nat) (l : List Int) : (s.setBuf u p l).nextId = s.nextId := rfl
@[simp] theorem State.setBuf_freeIx (s : State) (u p : Nat) (l : List Int) : (s.setBuf u p l).freeIx = s.freeIx := rfl
@[simp] theorem State.setBuf_pending (s : State) (u p : Nat) (l : List Int) : (s.setBuf u p l).pending = s.pending := rfl
@[simp] theorem State.setNv_clk (s : State) (a b d v : Nat) : (s.setNv a b d v).clk = s.clk := rfl
@[simp] theorem State.setNv_tsOff (s : State) (a b d v : Nat) : (s.setNv a b d v).tsOff = s.tsOff := rfl
@[simp] theorem State.setNv_setAt (s : State) (a b d v : Nat) : (s.setNv a b d v).setAt = s.setAt := rfl
@[simp] theorem State.setNv_setBy (s : State) (a b d v : Nat) : (s.setNv a b d v).setBy = s.setBy := rfl
@[simp] theorem State.setNv_regs (s : State) (a b d v : Nat) : (s.setNv a b d v).regs = s.regs := rfl
@[simp] theorem State.setNv_ctrs (s : State) (a b d v : Nat) : (s.setNv a b d v).ctrs = s.ctrs := rfl
@[simp] theorem State.setNv_gregs (s : State) (a b d v : Nat) : (s.setNv a b d v).gregs = s.gregs := rfl
@[simp] theorem State.setNv_preds (s : State) (a b d v : Nat) : (s.setNv a b d v).preds = s.preds := rfl
@[simp] theorem State.setNv_calls (s : State) (a b d v : Nat) : (s.setNv a b d v).calls = s.calls := rfl
@[simp] theorem State.setNv_ledger (s : State) (a b d v : Nat) : (s.setNv a b d v).ledger = s.ledger := rfl
@[simp] theorem State.setNv_errands (s : State) (a b d v : Nat) : (s.setNv a b d v).errands = s.errands := rfl
@[simp] theorem State.setNv_replies (s : State) (a b d v : Nat) : (s.setNv a b d v).replies = s.replies := rfl
@[simp] theorem State.setNv_parts (s : State) (a b d v : Nat) : (s.setNv a b d v).parts = s.parts := rfl
@[simp] theorem State.setNv_staged (s : State) (a b d v : Nat) : (s.setNv a b d v).staged = s.staged := rfl
@[simp] theorem State.setNv_bg (s : State) (a b d v : Nat) : (s.setNv a b d v).bg = s.bg := rfl
@[simp] theorem State.setNv_salvos (s : State) (a b d v : Nat) : (s.setNv a b d v).salvos = s.salvos := rfl
@[simp] theorem State.setNv_sheaf (s : State) (a b d v : Nat) : (s.setNv a b d v).sheaf = s.sheaf := rfl
@[simp] theorem State.setNv_layers (s : State) (a b d v : Nat) : (s.setNv a b d v).layers = s.layers := rfl
@[simp] theorem State.setNv_classifier (s : State) (a b d v : Nat) : (s.setNv a b d v).classifier = s.classifier := rfl
@[simp] theorem State.setNv_crierRing (s : State) (a b d v : Nat) : (s.setNv a b d v).crierRing = s.crierRing := rfl
@[simp] theorem State.setNv_compareLog (s : State) (a b d v : Nat) : (s.setNv a b d v).compareLog = s.compareLog := rfl
@[simp] theorem State.setNv_captRing (s : State) (a b d v : Nat) : (s.setNv a b d v).captRing = s.captRing := rfl
@[simp] theorem State.setNv_ringReports (s : State) (a b d v : Nat) : (s.setNv a b d v).ringReports = s.ringReports := rfl
@[simp] theorem State.setNv_snapHdr (s : State) (a b d v : Nat) : (s.setNv a b d v).snapHdr = s.snapHdr := rfl
@[simp] theorem State.setNv_snapCtrs (s : State) (a b d v : Nat) : (s.setNv a b d v).snapCtrs = s.snapCtrs := rfl
@[simp] theorem State.setNv_barn (s : State) (a b d v : Nat) : (s.setNv a b d v).barn = s.barn := rfl
@[simp] theorem State.setNv_flash (s : State) (a b d v : Nat) : (s.setNv a b d v).flash = s.flash := rfl
@[simp] theorem State.setNv_claims (s : State) (a b d v : Nat) : (s.setNv a b d v).claims = s.claims := rfl
@[simp] theorem State.setNv_holds (s : State) (a b d v : Nat) : (s.setNv a b d v).holds = s.holds := rfl
@[simp] theorem State.setNv_bufs (s : State) (a b d v : Nat) : (s.setNv a b d v).bufs = s.bufs := rfl
@[simp] theorem State.setNv_pics (s : State) (a b d v : Nat) : (s.setNv a b d v).pics = s.pics := rfl
@[simp] theorem State.setNv_links (s : State) (a b d v : Nat) : (s.setNv a b d v).links = s.links := rfl
@[simp] theorem State.setNv_seatLines (s : State) (a b d v : Nat) : (s.setNv a b d v).seatLines = s.seatLines := rfl
@[simp] theorem State.setNv_held (s : State) (a b d v : Nat) : (s.setNv a b d v).held = s.held := rfl
@[simp] theorem State.setNv_shadow (s : State) (a b d v : Nat) : (s.setNv a b d v).shadow = s.shadow := rfl
@[simp] theorem State.setNv_outs (s : State) (a b d v : Nat) : (s.setNv a b d v).outs = s.outs := rfl
@[simp] theorem State.setNv_nextId (s : State) (a b d v : Nat) : (s.setNv a b d v).nextId = s.nextId := rfl
@[simp] theorem State.setNv_freeIx (s : State) (a b d v : Nat) : (s.setNv a b d v).freeIx = s.freeIx := rfl
@[simp] theorem State.setNv_pending (s : State) (a b d v : Nat) : (s.setNv a b d v).pending = s.pending := rfl
@[simp] theorem State.emit_clk (s : State) (o : Out) : (s.emit o).clk = s.clk := rfl
@[simp] theorem State.emit_tsOff (s : State) (o : Out) : (s.emit o).tsOff = s.tsOff := rfl
@[simp] theorem State.emit_setAt (s : State) (o : Out) : (s.emit o).setAt = s.setAt := rfl
@[simp] theorem State.emit_setBy (s : State) (o : Out) : (s.emit o).setBy = s.setBy := rfl
@[simp] theorem State.emit_regs (s : State) (o : Out) : (s.emit o).regs = s.regs := rfl
@[simp] theorem State.emit_ctrs (s : State) (o : Out) : (s.emit o).ctrs = s.ctrs := rfl
@[simp] theorem State.emit_gregs (s : State) (o : Out) : (s.emit o).gregs = s.gregs := rfl
@[simp] theorem State.emit_preds (s : State) (o : Out) : (s.emit o).preds = s.preds := rfl
@[simp] theorem State.emit_calls (s : State) (o : Out) : (s.emit o).calls = s.calls := rfl
@[simp] theorem State.emit_ledger (s : State) (o : Out) : (s.emit o).ledger = s.ledger := rfl
@[simp] theorem State.emit_errands (s : State) (o : Out) : (s.emit o).errands = s.errands := rfl
@[simp] theorem State.emit_replies (s : State) (o : Out) : (s.emit o).replies = s.replies := rfl
@[simp] theorem State.emit_parts (s : State) (o : Out) : (s.emit o).parts = s.parts := rfl
@[simp] theorem State.emit_staged (s : State) (o : Out) : (s.emit o).staged = s.staged := rfl
@[simp] theorem State.emit_bg (s : State) (o : Out) : (s.emit o).bg = s.bg := rfl
@[simp] theorem State.emit_salvos (s : State) (o : Out) : (s.emit o).salvos = s.salvos := rfl
@[simp] theorem State.emit_sheaf (s : State) (o : Out) : (s.emit o).sheaf = s.sheaf := rfl
@[simp] theorem State.emit_layers (s : State) (o : Out) : (s.emit o).layers = s.layers := rfl
@[simp] theorem State.emit_classifier (s : State) (o : Out) : (s.emit o).classifier = s.classifier := rfl
@[simp] theorem State.emit_crierRing (s : State) (o : Out) : (s.emit o).crierRing = s.crierRing := rfl
@[simp] theorem State.emit_compareLog (s : State) (o : Out) : (s.emit o).compareLog = s.compareLog := rfl
@[simp] theorem State.emit_captRing (s : State) (o : Out) : (s.emit o).captRing = s.captRing := rfl
@[simp] theorem State.emit_ringReports (s : State) (o : Out) : (s.emit o).ringReports = s.ringReports := rfl
@[simp] theorem State.emit_snapHdr (s : State) (o : Out) : (s.emit o).snapHdr = s.snapHdr := rfl
@[simp] theorem State.emit_snapCtrs (s : State) (o : Out) : (s.emit o).snapCtrs = s.snapCtrs := rfl
@[simp] theorem State.emit_barn (s : State) (o : Out) : (s.emit o).barn = s.barn := rfl
@[simp] theorem State.emit_flash (s : State) (o : Out) : (s.emit o).flash = s.flash := rfl
@[simp] theorem State.emit_claims (s : State) (o : Out) : (s.emit o).claims = s.claims := rfl
@[simp] theorem State.emit_holds (s : State) (o : Out) : (s.emit o).holds = s.holds := rfl
@[simp] theorem State.emit_bufs (s : State) (o : Out) : (s.emit o).bufs = s.bufs := rfl
@[simp] theorem State.emit_pics (s : State) (o : Out) : (s.emit o).pics = s.pics := rfl
@[simp] theorem State.emit_links (s : State) (o : Out) : (s.emit o).links = s.links := rfl
@[simp] theorem State.emit_seatLines (s : State) (o : Out) : (s.emit o).seatLines = s.seatLines := rfl
@[simp] theorem State.emit_held (s : State) (o : Out) : (s.emit o).held = s.held := rfl
@[simp] theorem State.emit_shadow (s : State) (o : Out) : (s.emit o).shadow = s.shadow := rfl
@[simp] theorem State.emit_nv (s : State) (o : Out) : (s.emit o).nv = s.nv := rfl
@[simp] theorem State.emit_nextId (s : State) (o : Out) : (s.emit o).nextId = s.nextId := rfl
@[simp] theorem State.emit_freeIx (s : State) (o : Out) : (s.emit o).freeIx = s.freeIx := rfl
@[simp] theorem State.emit_pending (s : State) (o : Out) : (s.emit o).pending = s.pending := rfl
@[simp] theorem State.after_regs (s : State) (dt : Nat) : (s.after dt).regs = s.regs := rfl
@[simp] theorem State.after_ctrs (s : State) (dt : Nat) : (s.after dt).ctrs = s.ctrs := rfl
@[simp] theorem State.after_gregs (s : State) (dt : Nat) : (s.after dt).gregs = s.gregs := rfl
@[simp] theorem State.after_preds (s : State) (dt : Nat) : (s.after dt).preds = s.preds := rfl
@[simp] theorem State.after_calls (s : State) (dt : Nat) : (s.after dt).calls = s.calls := rfl
@[simp] theorem State.after_ledger (s : State) (dt : Nat) : (s.after dt).ledger = s.ledger := rfl
@[simp] theorem State.after_errands (s : State) (dt : Nat) : (s.after dt).errands = s.errands := rfl
@[simp] theorem State.after_replies (s : State) (dt : Nat) : (s.after dt).replies = s.replies := rfl
@[simp] theorem State.after_parts (s : State) (dt : Nat) : (s.after dt).parts = s.parts := rfl
@[simp] theorem State.after_staged (s : State) (dt : Nat) : (s.after dt).staged = s.staged := rfl
@[simp] theorem State.after_bg (s : State) (dt : Nat) : (s.after dt).bg = s.bg := rfl
@[simp] theorem State.after_salvos (s : State) (dt : Nat) : (s.after dt).salvos = s.salvos := rfl
@[simp] theorem State.after_sheaf (s : State) (dt : Nat) : (s.after dt).sheaf = s.sheaf := rfl
@[simp] theorem State.after_layers (s : State) (dt : Nat) : (s.after dt).layers = s.layers := rfl
@[simp] theorem State.after_classifier (s : State) (dt : Nat) : (s.after dt).classifier = s.classifier := rfl
@[simp] theorem State.after_crierRing (s : State) (dt : Nat) : (s.after dt).crierRing = s.crierRing := rfl
@[simp] theorem State.after_compareLog (s : State) (dt : Nat) : (s.after dt).compareLog = s.compareLog := rfl
@[simp] theorem State.after_captRing (s : State) (dt : Nat) : (s.after dt).captRing = s.captRing := rfl
@[simp] theorem State.after_ringReports (s : State) (dt : Nat) : (s.after dt).ringReports = s.ringReports := rfl
@[simp] theorem State.after_snapHdr (s : State) (dt : Nat) : (s.after dt).snapHdr = s.snapHdr := rfl
@[simp] theorem State.after_snapCtrs (s : State) (dt : Nat) : (s.after dt).snapCtrs = s.snapCtrs := rfl
@[simp] theorem State.after_barn (s : State) (dt : Nat) : (s.after dt).barn = s.barn := rfl
@[simp] theorem State.after_flash (s : State) (dt : Nat) : (s.after dt).flash = s.flash := rfl
@[simp] theorem State.after_claims (s : State) (dt : Nat) : (s.after dt).claims = s.claims := rfl
@[simp] theorem State.after_holds (s : State) (dt : Nat) : (s.after dt).holds = s.holds := rfl
@[simp] theorem State.after_bufs (s : State) (dt : Nat) : (s.after dt).bufs = s.bufs := rfl
@[simp] theorem State.after_pics (s : State) (dt : Nat) : (s.after dt).pics = s.pics := rfl
@[simp] theorem State.after_links (s : State) (dt : Nat) : (s.after dt).links = s.links := rfl
@[simp] theorem State.after_seatLines (s : State) (dt : Nat) : (s.after dt).seatLines = s.seatLines := rfl
@[simp] theorem State.after_held (s : State) (dt : Nat) : (s.after dt).held = s.held := rfl
@[simp] theorem State.after_shadow (s : State) (dt : Nat) : (s.after dt).shadow = s.shadow := rfl
@[simp] theorem State.after_nv (s : State) (dt : Nat) : (s.after dt).nv = s.nv := rfl
@[simp] theorem State.after_nextId (s : State) (dt : Nat) : (s.after dt).nextId = s.nextId := rfl
@[simp] theorem State.after_freeIx (s : State) (dt : Nat) : (s.after dt).freeIx = s.freeIx := rfl
@[simp] theorem State.after_pending (s : State) (dt : Nat) : (s.after dt).pending = s.pending := rfl

/-! ### Reads after writes -/

@[simp] theorem State.after_clk (s : State) (dt : Nat) : (s.after dt).clk = s.clk + dt := rfl
@[simp] theorem State.after_outs (s : State) (dt : Nat) : (s.after dt).outs = [] := rfl
@[simp] theorem State.emit_outs (s : State) (o : Out) : (s.emit o).outs = s.outs ++ [o] := rfl
/-- A register field holds what was written to it, reduced to its width. -/
theorem State.rd_wr_same (s : State) (u : Nat) (f : Field) (v : Int) : (s.wr u f v).rd u f = f.norm v := by
  simp only [State.rd, State.wr]; exact Tbl.get_set_same _ _ _ _
/-- A write leaves every other field of every unit alone. -/
theorem State.rd_wr_ne (s : State) (u w : Nat) (f g : Field) (v : Int) (h : w ≠ u ∨ g.pos ≠ f.pos) : (s.wr u f v).rd w g = s.rd w g := by
  simp only [State.rd, State.wr]
  refine Tbl.get_set_ne _ _ _ _ _ ?_ _
  intro e
  cases h <;> simp_all
@[simp] theorem State.rd_countBy (s : State) (u j k w : Nat) (g : Field) : (s.countBy u j k).rd w g = s.rd w g := rfl
@[simp] theorem State.rd_count (s : State) (u j w : Nat) (g : Field) : (s.count u j).rd w g = s.rd w g := rfl
@[simp] theorem State.rd_setBuf (s : State) (u p w : Nat) (l : List Int) (g : Field) : (s.setBuf u p l).rd w g = s.rd w g := rfl
@[simp] theorem State.rd_setNv (s : State) (a b d v w : Nat) (g : Field) : (s.setNv a b d v).rd w g = s.rd w g := rfl
@[simp] theorem State.rd_emit (s : State) (o : Out) (w : Nat) (g : Field) : (s.emit o).rd w g = s.rd w g := rfl
@[simp] theorem State.rd_after (s : State) (dt w : Nat) (g : Field) : (s.after dt).rd w g = s.rd w g := rfl
@[simp] theorem State.rn_after (s : State) (dt w : Nat) (g : Field) : (s.after dt).rn w g = s.rn w g := rfl
@[simp] theorem State.rb_after (s : State) (dt w : Nat) (g : Field) : (s.after dt).rb w g = s.rb w g := rfl
/-- A counter holds one more, modulo 2^64. -/
theorem State.ctr_countBy_same (s : State) (u j k : Nat) : (s.countBy u j k).ctr u j = (s.ctr u j + k) % 2 ^ 64 := by
  simp only [State.ctr, State.countBy]; exact Tbl.get_set_same _ _ _ _
theorem State.ctr_countBy_ne (s : State) (u j k w i : Nat) (h : w ≠ u ∨ i ≠ j) : (s.countBy u j k).ctr w i = s.ctr w i := by
  simp only [State.ctr, State.countBy]
  refine Tbl.get_set_ne _ _ _ _ _ ?_ _
  intro e
  cases h <;> simp_all
theorem State.ctr_count_same (s : State) (u j : Nat) : (s.count u j).ctr u j = (s.ctr u j + 1) % 2 ^ 64 := State.ctr_countBy_same s u j 1
theorem State.ctr_count_ne (s : State) (u j w i : Nat) (h : w ≠ u ∨ i ≠ j) : (s.count u j).ctr w i = s.ctr w i := State.ctr_countBy_ne s u j 1 w i h
@[simp] theorem State.ctr_wr (s : State) (u : Nat) (f : Field) (v : Int) (w i : Nat) : (s.wr u f v).ctr w i = s.ctr w i := rfl
@[simp] theorem State.ctr_setBuf (s : State) (u p w i : Nat) (l : List Int) : (s.setBuf u p l).ctr w i = s.ctr w i := rfl
@[simp] theorem State.ctr_setNv (s : State) (a b d v w i : Nat) : (s.setNv a b d v).ctr w i = s.ctr w i := rfl
@[simp] theorem State.ctr_emit (s : State) (o : Out) (w i : Nat) : (s.emit o).ctr w i = s.ctr w i := rfl
@[simp] theorem State.ctr_after (s : State) (dt w i : Nat) : (s.after dt).ctr w i = s.ctr w i := rfl
/-- A list holds what was put there, and every other list is left alone. -/
theorem State.buf_setBuf_same (s : State) (u p : Nat) (l : List Int) : (s.setBuf u p l).buf u p = l := by
  simp only [State.buf, State.setBuf]; exact Tbl.get_set_same _ _ _ _
theorem State.buf_setBuf_ne (s : State) (u p w q : Nat) (l : List Int) (h : w ≠ u ∨ q ≠ p) : (s.setBuf u p l).buf w q = s.buf w q := by
  simp only [State.buf, State.setBuf]
  refine Tbl.get_set_ne _ _ _ _ _ ?_ _
  intro e
  cases h <;> simp_all
@[simp] theorem State.buf_wr (s : State) (u : Nat) (f : Field) (v : Int) (w q : Nat) : (s.wr u f v).buf w q = s.buf w q := rfl
@[simp] theorem State.buf_count (s : State) (u j w q : Nat) : (s.count u j).buf w q = s.buf w q := rfl

end Sys2Proof.Machine
end

