-- ==== Sys2Proof/Laws/Frame.lean ====
section
/-!
SUPPORT. What commands leave alone, once and for all: the waiting commands, the SVN fuses, and the canonical form of the Barn, the
flash and the copy's Barn. Here the notions and the lemmas over lists; the lemmas of the operations follow in FrameA to FrameD.
-/
namespace Sys2Proof.Machine

/-- What few operations touch: the commands waiting, the Barn, the flash, the SVN fuses, the copy of the partner's state. -/
def State.kept (s : State) : List Instr × List Host.Cell × List Host.Cell × Nat × Option (List Host.Cell) :=
  (s.pending, s.barn, s.flash, Tbl.get ⟨nvOtp, 1⟩ 0 s.nv, s.shadow.map (·.barn))

/-- A record update of other fields. -/
@[simp] theorem kept_upd (s : State) (clk tsOff setAt setBy regs ctrs gregs preds calls ledger errands replies parts staged bg salvos sheaf layers
    classifier crierRing compareLog captRing ringReports snapHdr snapCtrs claims holds bufs pics seatLines links held outs nextId freeIx) :
    State.kept ⟨clk, tsOff, setAt, setBy, regs, ctrs, gregs, preds, calls, ledger, errands, replies, parts, staged, bg, salvos, sheaf, layers,
      classifier, crierRing, compareLog, captRing, ringReports, snapHdr, snapCtrs, s.barn, s.flash, claims, holds, bufs, pics, seatLines, links, held, s.shadow,
      s.nv, outs, nextId, freeIx, s.pending⟩ = s.kept := by cases s; rfl

theorem foldl_kept {α : Type} (f : State → α → State) (h : ∀ a x, (f a x).kept = a.kept) (l : List α) (s : State) :
    (l.foldl f s).kept = s.kept := by
  induction l generalizing s with
  | nil => rfl
  | cons x t ih => simp [List.foldl_cons, ih, h]
theorem foldr_kept {α : Type} (f : α → State → State) (h : ∀ x a, (f x a).kept = a.kept) (l : List α) (s : State) :
    (l.foldr f s).kept = s.kept := by
  induction l with
  | nil => rfl
  | cons x t ih => simp [h, ih]
theorem foldl_kept2 {α β : Type} (f : β × State → α → β × State) (h : ∀ a x, (f a x).2.kept = a.2.kept) (l : List α) (s : β × State) :
    (l.foldl f s).2.kept = s.2.kept := by
  induction l generalizing s with
  | nil => rfl
  | cons x t ih => simp [List.foldl_cons, ih, h]
theorem foldl_kept1 {α β : Type} (f : State × β → α → State × β) (h : ∀ a x, (f a x).1.kept = a.1.kept) (l : List α) (s : State × β) :
    (l.foldl f s).1.kept = s.1.kept := by
  induction l generalizing s with
  | nil => rfl
  | cons x t ih => simp [List.foldl_cons, ih, h]

/-- The same where each step is shown against what the whole keeps. -/
theorem foldl_via {α : Type} (f : State → α → State) (k) (h : ∀ a x, a.kept = k → (f a x).kept = k) (l : List α) (s : State)
    (hs : s.kept = k) : (l.foldl f s).kept = k := by
  induction l generalizing s with
  | nil => exact hs
  | cons x t ih => exact ih _ (h _ _ hs)
theorem foldl_via1 {α β : Type} (f : State × β → α → State × β) (k) (h : ∀ a x, a.1.kept = k → (f a x).1.kept = k) (l : List α)
    (s : State × β) (hs : s.1.kept = k) : (l.foldl f s).1.kept = k := by
  induction l generalizing s with
  | nil => exact hs
  | cons x t ih => exact ih _ (h _ _ hs)
theorem foldl_via2 {α β : Type} (f : β × State → α → β × State) (k) (h : ∀ a x, a.2.kept = k → (f a x).2.kept = k) (l : List α)
    (s : β × State) (hs : s.2.kept = k) : (l.foldl f s).2.kept = k := by
  induction l generalizing s with
  | nil => exact hs
  | cons x t ih => exact ih _ (h _ _ hs)
theorem foldr_via {α : Type} (f : α → State → State) (k) (h : ∀ x a, a.kept = k → (f x a).kept = k) (l : List α) (s : State)
    (hs : s.kept = k) : (l.foldr f s).kept = k := by
  induction l with
  | nil => exact hs
  | cons x t ih => exact h _ _ ih
theorem ifUp_via (s : State) (us : List Nat) (t : State) (k) (hs : s.kept = k) (h : t.kept = k) : (s.ifUp us t).kept = k := by
  unfold State.ifUp; split
  · exact hs
  · exact h

@[simp] theorem nvBadBurst_ne : nvBadBurst ≠ nvOtp := by decide
@[simp] theorem nvFaultSeen_ne : nvFaultSeen ≠ nvOtp := by decide
@[simp] theorem nvAttempts_ne (l : Nat) : nvAttempts l ≠ nvOtp := by simp only [nvAttempts, nvOtp]; omega
@[simp] theorem nvSentAt_ne (l : Nat) : nvSentAt l ≠ nvOtp := by simp only [nvSentAt, nvOtp]; omega

/-- Canonical form of the Barn, the flash and the copy's Barn, of what `kept` names. -/
def keptWf (k : List Instr × List Host.Cell × List Host.Cell × Nat × Option (List Host.Cell)) : Prop :=
  Memory.wf k.2.1 = true ∧ Memory.wf k.2.2.1 = true ∧ ∀ b, k.2.2.2.2 = some b → Memory.wf b = true
/-- The same commands wait, the same fuses are blown, and canonical form is kept. -/
def keptRel (k0 k : List Instr × List Host.Cell × List Host.Cell × Nat × Option (List Host.Cell)) : Prop :=
  k.1 = k0.1 ∧ k.2.2.2.1 = k0.2.2.2.1 ∧ (keptWf k0 → keptWf k)
@[simp] theorem keptRel_refl (k) : keptRel k k := ⟨rfl, rfl, id⟩
theorem keptRel_trans {a b c} (h : keptRel a b) (g : keptRel b c) : keptRel a c :=
  ⟨g.1.trans h.1, g.2.1.trans h.2.1, fun x => g.2.2 (h.2.2 x)⟩
theorem foldl_rel {α : Type} (f : State → α → State) (k0) (h : ∀ a x, keptRel k0 a.kept → keptRel k0 (f a x).kept) (l : List α) (s : State)
    (hs : keptRel k0 s.kept) : keptRel k0 (l.foldl f s).kept := by
  induction l generalizing s with
  | nil => exact hs
  | cons x t ih => exact ih _ (h _ _ hs)
theorem foldl_rel1 {α β : Type} (f : State × β → α → State × β) (k0) (h : ∀ a x, keptRel k0 a.1.kept → keptRel k0 (f a x).1.kept) (l : List α)
    (s : State × β) (hs : keptRel k0 s.1.kept) : keptRel k0 (l.foldl f s).1.kept := by
  induction l generalizing s with
  | nil => exact hs
  | cons x t ih => exact ih _ (h _ _ hs)
theorem foldl_rel2 {α β : Type} (f : β × State → α → β × State) (k0) (h : ∀ a x, keptRel k0 a.2.kept → keptRel k0 (f a x).2.kept) (l : List α)
    (s : β × State) (hs : keptRel k0 s.2.kept) : keptRel k0 (l.foldl f s).2.kept := by
  induction l generalizing s with
  | nil => exact hs
  | cons x t ih => exact ih _ (h _ _ hs)
theorem foldl_barn {α β : Type} (f : List Host.Cell × β → α → List Host.Cell × β) (h : ∀ a x, Memory.wf a.1 = true → Memory.wf (f a x).1 = true)
    (l : List α) (s : List Host.Cell × β) (hs : Memory.wf s.1 = true) : Memory.wf (l.foldl f s).1 = true := by
  induction l generalizing s with
  | nil => exact hs
  | cons x t ih => exact ih _ (h _ _ hs)
/-- A state that differs in the Barn alone, in canonical form. -/
theorem rel_barn (k0) (s t : State) (h : keptRel k0 s.kept) (hp : t.pending = s.pending) (hn : t.nv = s.nv) (hf : t.flash = s.flash)
    (hs : t.shadow = s.shadow) (hb : Memory.wf s.barn = true → Memory.wf t.barn = true) : keptRel k0 t.kept := by
  refine keptRel_trans h ⟨?_, ?_, ?_⟩
  · simp [State.kept, hp]
  · simp [State.kept, hn]
  · intro w
    refine ⟨hb w.1, ?_, ?_⟩
    · simpa [State.kept, hf] using w.2.1
    · simpa [State.kept, hs] using w.2.2
/-- A state that differs in the flash alone, in canonical form. -/
theorem rel_flash (k0) (s t : State) (h : keptRel k0 s.kept) (hp : t.pending = s.pending) (hn : t.nv = s.nv) (hf : t.barn = s.barn)
    (hs : t.shadow = s.shadow) (hb : Memory.wf s.flash = true → Memory.wf t.flash = true) : keptRel k0 t.kept := by
  refine keptRel_trans h ⟨?_, ?_, ?_⟩
  · simp [State.kept, hp]
  · simp [State.kept, hn]
  · intro w
    refine ⟨?_, hb w.2.1, ?_⟩
    · simpa [State.kept, hf] using w.1
    · simpa [State.kept, hs] using w.2.2
/-- A state whose copy is gone. -/
theorem rel_noCopy (k0) (s t : State) (h : keptRel k0 s.kept) (hp : t.pending = s.pending) (hn : t.nv = s.nv) (hf : t.barn = s.barn)
    (hg : t.flash = s.flash) (hs : t.shadow = none) : keptRel k0 t.kept := by
  refine keptRel_trans h ⟨?_, ?_, ?_⟩
  · simp [State.kept, hp]
  · simp [State.kept, hn]
  · intro w
    refine ⟨?_, ?_, ?_⟩
    · simpa [State.kept, hf] using w.1
    · simpa [State.kept, hg] using w.2.1
    · simp [State.kept, hs]

/-- A state that differs in its copy alone, the copy's Barn in canonical form. -/
theorem rel_copy (k0) (s t : State) (h : keptRel k0 s.kept) (hp : t.pending = s.pending) (hn : t.nv = s.nv) (hf : t.barn = s.barn)
    (hg : t.flash = s.flash) (hs : keptWf s.kept → ∀ b, t.shadow.map (·.barn) = some b → Memory.wf b = true) : keptRel k0 t.kept := by
  refine keptRel_trans h ⟨?_, ?_, ?_⟩
  · simp [State.kept, hp]
  · simp [State.kept, hn]
  · intro w
    refine ⟨?_, ?_, fun b hb => hs w b hb⟩
    · simpa [State.kept, hf] using w.1
    · simpa [State.kept, hg] using w.2.1
theorem foldl_wf {α : Type} (f : List Host.Cell → α → List Host.Cell) (h : ∀ a x, Memory.wf a = true → Memory.wf (f a x) = true)
    (l : List α) (s : List Host.Cell) (hs : Memory.wf s = true) : Memory.wf (l.foldl f s) = true := by
  induction l generalizing s with
  | nil => exact hs
  | cons x t ih => exact ih _ (h _ _ hs)
theorem above_filter (a : Nat) (p : Host.Cell → Bool) (t : List Host.Cell) (h : above a t) : above a (t.filter p) := by
  induction t with
  | nil => trivial
  | cons e t ih =>
    obtain ⟨x, v⟩ := e
    simp only [List.filter_cons]
    split
    · exact ⟨h.1, ih h.2⟩
    · exact ih h.2
theorem filter_wf (p : Host.Cell → Bool) (m : List Host.Cell) (h : Memory.wf m = true) : Memory.wf (m.filter p) = true := by
  induction m with
  | nil => rfl
  | cons e t ih =>
    obtain ⟨x, v⟩ := e
    rw [wf_cons] at h
    simp only [List.filter_cons]
    split
    · rw [wf_cons]; exact ⟨h.1, above_filter x p t h.2.1, ih h.2.2⟩
    · exact ih h.2.2
theorem get_filter_unit (u i d : Nat) (t : Tbl Nat) : Tbl.get ⟨u, i⟩ d (t.filter fun e => e.1.unit == u) = Tbl.get ⟨u, i⟩ d t := by
  induction t with
  | nil => rfl
  | cons e t ih =>
    obtain ⟨k, v⟩ := e
    simp only [List.filter_cons]
    split
    · simp only [Tbl.get, ih]
    · rename_i hk
      have : (Key.mk u i) ≠ k := by intro e; subst e; simp at hk
      simp only [Tbl.get, if_neg this, ih]

end Sys2Proof.Machine
end

