-- ==== Sys2Proof/Laws/FrameA.lean ====
section
/-!
SUPPORT. What the operations of Ops, Links, Shadow, Thread, Stage, Issue, Control, Flags, Seats, Takes, Plans, Tower, Time, Lines, Kerbs leave alone.
-/
set_option linter.unusedSimpArgs false
namespace Sys2Proof.Machine

/-! ### Ops -/

@[simp] theorem State.wr_kept (s : State) (u : Nat) (f : Field) (v : Int) :
    (State.wr s u f v).kept = s.kept := by simp [State.wr]
@[simp] theorem State.wrs_kept (s : State) (u : Nat) (l : List (Field × Int)) : (s.wrs u l).kept = s.kept := by
  induction l generalizing s with
  | nil => rfl
  | cons x t ih => obtain ⟨f, v⟩ := x; simp [State.wrs, ih]
@[simp] theorem State.wrParams_kept (s : State) (u : Nat) (ps : List Param) (vs : List Int) :
    (State.wrParams s u ps vs).kept = s.kept := by simp [State.wrParams]
@[simp] theorem State.countBy_kept (s : State) (u : Nat) (j : Nat) (k : Nat) :
    (State.countBy s u j k).kept = s.kept := by simp [State.countBy]
@[simp] theorem State.count_kept (s : State) (u : Nat) (j : Nat) :
    (State.count s u j).kept = s.kept := by simp [State.count]
@[simp] theorem State.setBuf_kept (s : State) (u : Nat) (p : Nat) (l : List Int) :
    (State.setBuf s u p l).kept = s.kept := by simp [State.setBuf]
@[simp] theorem State.setNv_kept (s : State) (a b d v : Nat) (h : a ≠ nvOtp) : (s.setNv a b d v).kept = s.kept := by
  have k : (Key.mk nvOtp 1) ≠ ⟨a, b⟩ := by intro e; exact h (congrArg Key.unit e).symm
  simp only [State.setNv, State.kept]
  rw [Tbl.get_set_ne _ _ _ _ _ k]
@[simp] theorem State.free_kept (s : State) (n : Nat) :
    (State.free s n).2.kept = s.kept := by simp [State.free]
@[simp] theorem State.emit_kept (s : State) (o : Out) :
    (State.emit s o).kept = s.kept := by simp [State.emit]
@[simp] theorem State.after_kept (s : State) (dt : Nat) :
    (State.after s dt).kept = s.kept := by simp [State.after]
@[simp] theorem State.fresh_kept (s : State) :
    (State.fresh s).2.kept = s.kept := by simp [State.fresh]
@[simp] theorem State.setUnitState_kept (s : State) (u : Nat) (v : Int) :
    (State.setUnitState s u v).kept = s.kept := by simp [State.setUnitState]
@[simp] theorem State.ifUp_kept (s : State) (us : List Nat) (t : State) (h : t.kept = s.kept) : (State.ifUp s us t).kept = s.kept := by
  unfold State.ifUp; split
  · rfl
  · exact h

@[simp] theorem State.ifUp_rel (k0) (s : State) (us : List Nat) (t : State) (h0 : keptRel k0 s.kept) (h : keptRel k0 t.kept) :
    keptRel k0 (State.ifUp s us t).kept := by
  unfold State.ifUp; split
  · exact h0
  · exact h
@[simp] theorem State.wake_kept (s : State) (u : Nat) :
    (State.wake s u).kept = s.kept := by unfold State.wake; split <;> simp
@[simp] theorem State.raiseIbi_kept (s : State) (src : Nat) :
    (State.raiseIbi s src).kept = s.kept := by unfold State.raiseIbi; split <;> simp
@[simp] theorem State.crierWrite_kept (s : State) (unit : Nat) (code : Nat) (detail : Nat) :
    (State.crierWrite s unit code detail).kept = s.kept := by simp only [State.crierWrite]; (repeat' split) <;> simp
@[simp] theorem State.crierFull_kept (s : State) :
    (State.crierFull s).kept = s.kept := by unfold State.crierFull; split <;> simp
@[simp] theorem State.post_kept (s : State) (unit : Nat) (code : Nat) (detail : Nat) :
    (State.post s unit code detail).kept = s.kept := by unfold State.post; split <;> simp
@[simp] theorem State.postEntry_kept (s : State) (unit : Nat) (entered : Nat) (left : Nat) (cause : Nat) (code : Nat) :
    (State.postEntry s unit entered left cause code).kept = s.kept := by simp [State.postEntry]
@[simp] theorem State.countEvent_kept (s : State) (u : Nat) (j : Nat) :
    (State.countEvent s u j).kept = s.kept := by simp [State.countEvent]
@[simp] theorem State.countLimited_kept (s : State) (u : Nat) (j : Nat) (code : Nat) (det : Nat) :
    (State.countLimited s u j code det).kept = s.kept := by simp only [State.countLimited]; (repeat' split) <;> simp
@[simp] theorem State.noteCount_kept (s : State) (u : Nat) (j : Nat) :
    (State.noteCount s u j).kept = s.kept := by simp only [State.noteCount]; (repeat' split) <;> simp
@[simp] theorem State.countEventLimited_kept (s : State) (u : Nat) (j : Nat) :
    (State.countEventLimited s u j).kept = s.kept := by simp only [State.countEventLimited]; (repeat' split) <;> simp
@[simp] theorem State.evidence_kept (s : State) (kind : Nat) (unit : Nat) :
    (State.evidence s kind unit).kept = s.kept := by simp [State.evidence]
@[simp] theorem State.faultUnit_kept (s : State) (u : Nat) (cause : Nat) :
    (State.faultUnit s u cause).kept = s.kept := by simp [State.faultUnit]
@[simp] theorem State.each_kept (s : State) (l : List Nat) (f : State → Nat → State) (hf : ∀ a b, (f a b).kept = a.kept) :
    (State.each s l f).kept = s.kept := by simp only [State.each, State.each]; (repeat' split) <;> simp_all [apply_ite State.kept, foldl_kept, foldr_kept, foldl_kept1, foldl_kept2]

/-! ### Links -/

@[simp] theorem State.alleySend_kept (s : State) (typ : Nat) (body : List Word) :
    (State.alleySend s typ body).kept = s.kept := by unfold State.alleySend; (try dsimp only); (repeat' split) <;> simp (disch := first | decide | (simp only [nvSentAt, nvAttempts, nvOtp]; omega) | simp_all) [apply_ite State.kept, foldl_kept, State.each]
@[simp] theorem State.decide__kept (s : State) (kind : Nat) (unit : Nat) (value : Nat) :
    (State.decide_ s kind unit value).kept = s.kept := by unfold State.decide_; split <;> simp
@[simp] theorem State.footSend_kept (s : State) (link : Nat) (typ : Nat) (body : List Word) :
    (State.footSend s link typ body).kept = s.kept := by simp only [State.footSend]; (repeat' split) <;> simp

/-! ### Shadow -/

@[simp] theorem State.onThreads_kept (s : State) (own : Bool) (f : State → State) (hf : ∀ a, (f a).kept = a.kept) :
    (s.onThreads own f).kept = s.kept := by
  unfold State.onThreads
  split
  · exact hf s
  · rename_i h hs
    split
    · exact hf s
    · have hb : (f ((s.withShadow h).wr U.twin Twin.replaying 1)).barn = h.barn :=
        congrArg (fun k => k.2.1) (hf ((s.withShadow h).wr U.twin Twin.replaying 1))
      simp [State.kept, hs, State.extract, hb]

theorem State.onThreads_rel (k0) (s : State) (own : Bool) (f : State → State) (hf : ∀ a, keptRel a.kept (f a).kept) (h0 : keptRel k0 s.kept) :
    keptRel k0 (s.onThreads own f).kept := by
  unfold State.onThreads
  split
  · exact keptRel_trans h0 (hf s)
  · rename_i h hs
    split
    · exact keptRel_trans h0 (hf s)
    · refine keptRel_trans h0 ⟨?_, ?_, ?_⟩
      · simp [State.kept]
      · simp [State.kept]
      · intro w
        refine ⟨w.1, w.2.1, ?_⟩
        intro b hb
        have hw : Memory.wf h.barn = true := w.2.2 h.barn (by simp [State.kept, hs])
        have hr := (hf ((s.withShadow h).wr U.twin Twin.replaying 1)).2.2 ⟨hw, w.2.1, w.2.2⟩
        simp only [State.kept, Option.map_some, Option.some.injEq] at hb
        rw [← hb]
        exact hr.1

/-! ### Thread -/

@[simp] theorem State.setTh_kept (s : State) (t : Nat) (f : Field) (v : Int) :
    (State.setTh s t f v).kept = s.kept := by simp [State.setTh]
@[simp] theorem State.gset_kept (s : State) (t : Nat) (r : Nat) (v : Word) :
    (State.gset s t r v).kept = s.kept := by simp [State.gset]
@[simp] theorem State.pset_kept (s : State) (t : Nat) (p : Nat) (v : Bool) :
    (State.pset s t p v).kept = s.kept := by simp [State.pset]
@[simp] theorem State.ldput_kept (s : State) (i : Nat) (w : Word) :
    (State.ldput s i w).kept = s.kept := by simp [State.ldput]
@[simp] theorem State.setErrand_kept (s : State) (e : Errand) :
    (State.setErrand s e).kept = s.kept := by simp [State.setErrand]
@[simp] theorem State.openPart_kept (s : State) (t : Nat) (len : Nat) (left : Nat) (pc : Nat) (words : List Word) :
    (State.openPart s t len left pc words).2.kept = s.kept := by simp [State.openPart]
@[simp] theorem State.finalLedger_kept (s : State) (p : Part) :
    (State.finalLedger s p).kept = s.kept := by unfold State.finalLedger; split <;> simp
@[simp] theorem State.closePart_kept (s : State) (pid : Nat) (code : Nat) :
    (State.closePart s pid code).kept = s.kept := by simp only [State.closePart]; (repeat' split) <;> simp
@[simp] theorem State.owe_kept (s : State) (pid : Nat) (n : Nat) :
    (State.owe s pid n).kept = s.kept := by simp [State.owe]
@[simp] theorem State.noteTick_kept (s : State) (pid : Nat) (tick : Int) :
    (State.noteTick s pid tick).kept = s.kept := by unfold State.noteTick; split <;> simp
@[simp] theorem State.outcome_kept (s : State) (t : Nat) (code : Nat) (passed : Bool) :
    (State.outcome s t code passed).kept = s.kept := by simp [State.outcome]
@[simp] theorem State.endPart_kept (s : State) (pid : Nat) (code : Nat) :
    (State.endPart s pid code).kept = s.kept := by simp [State.endPart]
@[simp] theorem State.discardSalvo_kept (s : State) (t : Nat) (code : Nat) :
    (State.discardSalvo s t code).kept = s.kept := by simp only [State.discardSalvo, State.each]; (repeat' split) <;> simp [apply_ite State.kept, foldl_kept, foldr_kept, foldl_kept1, foldl_kept2]
@[simp] theorem State.halt_kept (s : State) (t : Nat) :
    (State.halt s t).kept = s.kept := by simp [State.halt]
@[simp] theorem State.endErrand_kept (s : State) (t : Nat) :
    (State.endErrand s t).kept = s.kept := by simp only [State.endErrand]; (repeat' split) <;> simp
@[simp] theorem State.popCall_kept (s : State) (t : Nat) :
    (State.popCall s t).kept = s.kept := by simp only [State.popCall]; (repeat' split) <;> simp
@[simp] theorem State.failCall_kept (s : State) (t c : Nat) : (State.failCall s t c).kept = s.kept := rfl
@[simp] theorem State.settle_kept (s : State) (t : Nat) :
    (State.settle s t).kept = s.kept := by simp only [State.settle]; (repeat' split) <;> simp
@[simp] theorem State.faultThread_kept (s : State) (t : Nat) :
    (State.faultThread s t).kept = s.kept := by simp only [State.faultThread]; (repeat' split) <;> simp

/-! ### Stage -/

@[simp] theorem State.logStaged_kept (s : State) (plan : Nat) (th : Nat) (id : Nat) (mode : Nat) (pid : Nat) :
    (State.logStaged s plan th id mode pid).kept = s.kept := by simp only [State.logStaged]; (repeat' split) <;> simp
@[simp] theorem State.stageOne_kept (s : State) (t : Nat) (pid : Nat) (salvo : Option Nat) (strict : Bool) (at_ : Int) (m : Member) :
    (State.stageOne s t pid salvo strict at_ m).kept = s.kept := by simp [State.stageOne, apply_ite State.kept, foldl_kept, foldr_kept, foldl_kept1, foldl_kept2, State.each]
@[simp] theorem State.stageAll_kept (s : State) (t : Nat) (pid : Nat) (salvo : Option Nat) (strict : Bool) (at_ : Int) (ms : List Member) :
    (State.stageAll s t pid salvo strict at_ ms).kept = s.kept := by simp [State.stageAll, apply_ite State.kept, foldl_kept, foldr_kept, foldl_kept1, foldl_kept2, State.each]
@[simp] theorem State.dropSalvo_kept (s : State) (pids : List Nat) (openPid : Nat) (causePid : Nat) (cause : Nat) :
    (State.dropSalvo s pids openPid causePid cause).kept = s.kept := by simp only [State.dropSalvo, State.each]; (repeat' split) <;> simp [apply_ite State.kept, foldl_kept, foldr_kept, foldl_kept1, foldl_kept2]
@[simp] theorem State.closeSalvo_kept (s : State) (t : Nat) (pid : Nat) :
    (State.closeSalvo s t pid).2.kept = s.kept := by simp only [State.closeSalvo, State.each]; (repeat' split) <;> simp [apply_ite State.kept, foldl_kept, foldr_kept, foldl_kept1, foldl_kept2]
@[simp] theorem State.loseEffect_kept (s : State) (e : Staged) :
    (State.loseEffect s e).kept = s.kept := by simp only [State.loseEffect, State.each]; (repeat' split) <;> simp [apply_ite State.kept, foldl_kept, foldr_kept, foldl_kept1, foldl_kept2]
@[simp] theorem State.resolve_kept (s : State) (p : Nat) (n : Int) :
    (State.resolve s p n).kept = s.kept := by simp [State.resolve, apply_ite State.kept, foldl_kept, foldr_kept, foldl_kept1, foldl_kept2, State.each]
@[simp] theorem State.releaseArmed_kept (s : State) :
    (State.releaseArmed s).kept = s.kept := by simp [State.releaseArmed, apply_ite State.kept, foldl_kept, foldr_kept, foldl_kept1, foldl_kept2, State.each]

/-! ### Issue -/

@[simp] theorem State.appendData_kept (s : State) (t : Nat) (pc : Nat) (d : List Word) :
    (State.appendData s t pc d).kept = s.kept := by simp only [State.appendData]; (repeat' split) <;> simp
@[simp] theorem State.nameMember_kept (s : State) (t : Nat) (m : Option Nat) :
    (State.nameMember s t m).kept = s.kept := by unfold State.nameMember; split <;> simp
@[simp] theorem State.failWith_kept (s : State) (t : Nat) (pid : Nat) (c : Code) :
    (State.failWith s t pid c).kept = s.kept := by simp only [State.failWith]; (repeat' split) <;> simp
/-- What a verdict does leaves what `kept` names alone. -/
def Verdict.keeps (v : Verdict) (s : State) : Prop :=
  match v with
  | .act t => t.kept = s.kept
  | .actCode t _ => t.kept = s.kept
  | .start t _ _ _ _ _ => t.kept = s.kept
  | .hold g => ∀ a, (g a).kept = a.kept
  | _ => True

/-- The same of a judgement: what it does if it passes, and what a refusal counts. -/
def Judged.keeps (j : Judged) (s : State) : Prop := j.verdict.keeps s ∧ ∀ a, (j.refuse a).kept = a.kept

theorem State.enact_kept (s : State) (t pid : Nat) (v : Verdict) (a : State) (h : v.keeps a) (ha : s.kept = a.kept) :
    (s.enact t pid v).kept = a.kept := by
  unfold State.enact
  cases v <;> dsimp only <;> (try simp only [Verdict.keeps] at h) <;> (repeat' split) <;> simp_all
@[simp] theorem State.advancePc_kept (s : State) (t : Nat) (words : Nat) :
    (State.advancePc s t words).kept = s.kept := by unfold State.advancePc; split <;> simp
@[simp] theorem State.hold_kept (s : State) (pid : Nat) (cs : List Claim) :
    (State.hold s pid cs).kept = s.kept := by unfold State.hold; split <;> simp
theorem State.issueOn_kept (s : State) (i : Issue) (use : Use) (f : State → Judged) (hf : ∀ a, (f a).keeps a) :
    (s.issueOn i use f).kept = s.kept := by
  unfold State.issueOn
  dsimp only
  split
  · rfl
  · generalize hp : (s.advancePc i.th (1 + i.params.length)).openPart i.th (1 + i.params.length) 1 (s.thn i.th Lamp.PC) (ticketWords i use) = p
    have h1 : p.2.kept = s.kept := by rw [← hp]; simp
    have hj := hf p.2
    split
    · split <;> split <;> simp [hj.2, h1]
    · split
      · rename_i g hv
        have h2 := hj.1
        rw [hv] at h2
        exact h2 s
      · simp
      · simp only [State.settle_kept, State.appendData_kept]
        rw [State.enact_kept _ _ _ _ p.2 hj.1 (by simp), h1]
theorem State.issue_kept (s : State) (i : Issue) (use : Use) (f : State → Judged) (hf : ∀ a, (f a).keeps a) :
    (s.issue i use f).kept = s.kept := by
  unfold State.issue
  rw [State.onThreads_kept _ _ _ fun a => State.issueOn_kept a i use f hf]
  simp

/-- What a verdict does leaves canonical form, the queue and the fuses alone. -/
def Verdict.soft (v : Verdict) (s : State) : Prop :=
  match v with
  | .act t => keptRel s.kept t.kept
  | .actCode t _ => keptRel s.kept t.kept
  | .start t _ _ _ _ _ => keptRel s.kept t.kept
  | .hold g => ∀ a, keptRel a.kept (g a).kept
  | _ => True

/-- The same of a judgement. -/
def Judged.soft (j : Judged) (s : State) : Prop := j.verdict.soft s ∧ ∀ a, (j.refuse a).kept = a.kept

theorem State.enact_soft (k0) (s : State) (t pid : Nat) (v : Verdict) (a : State) (h : v.soft a) (ha : keptRel k0 a.kept) (hs : keptRel k0 s.kept) :
    keptRel k0 (s.enact t pid v).kept := by
  unfold State.enact
  cases v <;> dsimp only <;> (try simp only [Verdict.soft] at h) <;> (repeat' split) <;>
    first | exact hs | exact keptRel_trans hs (h _) | (simp; first | exact hs | exact keptRel_trans ha h | exact keptRel_trans hs (h _)) | simp_all

theorem State.issueOn_soft (k0) (s : State) (i : Issue) (use : Use) (f : State → Judged) (hf : ∀ a, (f a).soft a) (hs : keptRel k0 s.kept) :
    keptRel k0 (s.issueOn i use f).kept := by
  unfold State.issueOn
  dsimp only
  split
  · exact hs
  · generalize hp : (s.advancePc i.th (1 + i.params.length)).openPart i.th (1 + i.params.length) 1 (s.thn i.th Lamp.PC) (ticketWords i use) = p
    have h1 : p.2.kept = s.kept := by rw [← hp]; simp
    have hj := hf p.2
    split
    · split <;> split <;> simp [hj.2, h1, hs]
    · split
      · rename_i g hv
        have h2 := hj.1
        rw [hv] at h2
        exact keptRel_trans hs (h2 s)
      · simp [hs]
      · simp only [State.settle_kept, State.appendData_kept]
        exact State.enact_soft k0 _ _ _ _ p.2 hj.1 (by rw [h1]; exact hs) (by simp [h1, hs])

theorem State.issue_soft (k0) (s : State) (i : Issue) (use : Use) (f : State → Judged) (hf : ∀ a, (f a).soft a) (hs : keptRel k0 s.kept) :
    keptRel k0 (s.issue i use f).kept := by
  unfold State.issue
  exact State.onThreads_rel k0 _ _ _ (fun a => State.issueOn_soft _ a i use f hf (keptRel_refl _)) (by simpa using hs)

/-! ### Control -/

@[simp] theorem State.jump_kept (s : State) (t : Nat) (target : Nat) :
    (State.jump s t target).kept = s.kept := by simp [State.jump]
@[simp] theorem judgeNop_keeps (i : Issue) (s : State) :
    (judgeNop i s).keeps s := by simp [judgeNop, Judged.keeps, Verdict.keeps]
theorem execNop_kept (i : Issue) (s : State) :
    ∃ t, (execNop i s) = .next t ∧ t.kept = s.kept := ⟨_, rfl, State.issue_kept _ _ _ _ (by simp)⟩
@[simp] theorem judgeHalt_keeps (i : Issue) (s : State) :
    (judgeHalt i s).keeps s := by simp [judgeHalt, Judged.keeps, Verdict.keeps]
theorem execHalt_kept (i : Issue) (s : State) :
    ∃ t, (execHalt i s) = .next t ∧ t.kept = s.kept := ⟨_, rfl, State.issue_kept _ _ _ _ (by simp)⟩
@[simp] theorem judgeBr_keeps (i : Issue) (s : State) :
    (judgeBr i s).keeps s := by simp [judgeBr, Judged.keeps, Verdict.keeps]
theorem execBr_kept (i : Issue) (s : State) :
    ∃ t, (execBr i s) = .next t ∧ t.kept = s.kept := ⟨_, rfl, State.issue_kept _ _ _ _ (by simp)⟩
@[simp] theorem judgeBp_keeps (i : Issue) (s : State) :
    (judgeBp i s).keeps s := by unfold judgeBp Judged.keeps; dsimp only; refine ⟨?_, fun a => ?_⟩ <;> (repeat' split) <;> simp [Verdict.keeps, apply_ite State.kept, foldl_kept, foldr_kept, foldl_kept1, foldl_kept2, State.each]
theorem execBp_kept (i : Issue) (s : State) :
    ∃ t, (execBp i s) = .next t ∧ t.kept = s.kept := ⟨_, rfl, State.issue_kept _ _ _ _ (by simp)⟩
@[simp] theorem judgeCall_keeps (i : Issue) (s : State) :
    (judgeCall i s).keeps s := by unfold judgeCall Judged.keeps; dsimp only; refine ⟨?_, fun a => ?_⟩ <;> (repeat' split) <;> simp [Verdict.keeps, apply_ite State.kept, foldl_kept, foldr_kept, foldl_kept1, foldl_kept2, State.each]
theorem execCall_kept (i : Issue) (s : State) :
    ∃ t, (execCall i s) = .next t ∧ t.kept = s.kept := ⟨_, rfl, State.issue_kept _ _ _ _ (by simp)⟩
@[simp] theorem judgeRet_keeps (i : Issue) (s : State) :
    (judgeRet i s).keeps s := by unfold judgeRet Judged.keeps; dsimp only; refine ⟨?_, fun a => ?_⟩ <;> (repeat' split) <;> simp [Verdict.keeps, apply_ite State.kept, foldl_kept, foldr_kept, foldl_kept1, foldl_kept2, State.each]
theorem execRet_kept (i : Issue) (s : State) :
    ∃ t, (execRet i s) = .next t ∧ t.kept = s.kept := ⟨_, rfl, State.issue_kept _ _ _ _ (by simp)⟩
@[simp] theorem judgeSalvo_keeps (i : Issue) (s : State) :
    (judgeSalvo i s).keeps s := by simp [judgeSalvo, Judged.keeps, Verdict.keeps]
theorem execSalvo_kept (i : Issue) (s : State) :
    ∃ t, (execSalvo i s) = .next t ∧ t.kept = s.kept := ⟨_, rfl, State.issue_kept _ _ _ _ (by simp)⟩
@[simp] theorem judgeEndsalvo_keeps (i : Issue) (s : State) :
    (judgeEndsalvo i s).keeps s := by simp [judgeEndsalvo, Judged.keeps, Verdict.keeps]
theorem execEndsalvo_kept (i : Issue) (s : State) :
    ∃ t, (execEndsalvo i s) = .next t ∧ t.kept = s.kept := ⟨_, rfl, State.issue_kept _ _ _ _ (by simp)⟩
@[simp] theorem State.beginWait_kept (s : State) (t : Nat) (st : Int) (kind : Nat) (val : Int) :
    (State.beginWait s t st kind val).kept = s.kept := by simp [State.beginWait]
@[simp] theorem judgeWaittick_keeps (i : Issue) (s : State) :
    (judgeWaittick i s).keeps s := by unfold judgeWaittick Judged.keeps; dsimp only; refine ⟨?_, fun a => ?_⟩ <;> (repeat' split) <;> simp [Verdict.keeps, apply_ite State.kept, foldl_kept, foldr_kept, foldl_kept1, foldl_kept2, State.each]
theorem execWaittick_kept (i : Issue) (s : State) :
    ∃ t, (execWaittick i s) = .next t ∧ t.kept = s.kept := ⟨_, rfl, State.issue_kept _ _ _ _ (by simp)⟩
@[simp] theorem judgeWaittime_keeps (i : Issue) (s : State) :
    (judgeWaittime i s).keeps s := by unfold judgeWaittime Judged.keeps; dsimp only; refine ⟨?_, fun a => ?_⟩ <;> (repeat' split) <;> simp [Verdict.keeps, apply_ite State.kept, foldl_kept, foldr_kept, foldl_kept1, foldl_kept2, State.each]
theorem execWaittime_kept (i : Issue) (s : State) :
    ∃ t, (execWaittime i s) = .next t ∧ t.kept = s.kept := ⟨_, rfl, State.issue_kept _ _ _ _ (by simp)⟩
@[simp] theorem judgeWaitcapt_keeps (i : Issue) (s : State) :
    (judgeWaitcapt i s).keeps s := by simp [judgeWaitcapt, Judged.keeps, Verdict.keeps]
theorem execWaitcapt_kept (i : Issue) (s : State) :
    ∃ t, (execWaitcapt i s) = .next t ∧ t.kept = s.kept := ⟨_, rfl, State.issue_kept _ _ _ _ (by simp)⟩
@[simp] theorem judgeTarget_keeps (i : Issue) (s : State) :
    (judgeTarget i s).keeps s := by unfold judgeTarget Judged.keeps; dsimp only; refine ⟨?_, fun a => ?_⟩ <;> (repeat' split) <;> simp [Verdict.keeps, apply_ite State.kept, foldl_kept, foldr_kept, foldl_kept1, foldl_kept2, State.each]
theorem execTarget_kept (i : Issue) (s : State) :
    ∃ t, (execTarget i s) = .next t ∧ t.kept = s.kept := ⟨_, rfl, State.issue_kept _ _ _ _ (by simp)⟩
@[simp] theorem judgeSync_keeps (i : Issue) (s : State) :
    (judgeSync i s).keeps s := by unfold judgeSync Judged.keeps; dsimp only; refine ⟨?_, fun a => ?_⟩ <;> (repeat' split) <;> simp [Verdict.keeps, apply_ite State.kept, foldl_kept, foldr_kept, foldl_kept1, foldl_kept2, State.each]
theorem execSync_kept (i : Issue) (s : State) :
    ∃ t, (execSync i s) = .next t ∧ t.kept = s.kept := ⟨_, rfl, State.issue_kept _ _ _ _ (by simp)⟩

/-! ### Flags -/

@[simp] theorem judgeLi_keeps (i : Issue) (s : State) :
    (judgeLi i s).keeps s := by simp [judgeLi, Judged.keeps, Verdict.keeps]
theorem execLi_kept (i : Issue) (s : State) :
    ∃ t, (execLi i s) = .next t ∧ t.kept = s.kept := ⟨_, rfl, State.issue_kept _ _ _ _ (by simp)⟩
@[simp] theorem judgeMov_keeps (i : Issue) (s : State) :
    (judgeMov i s).keeps s := by simp [judgeMov, Judged.keeps, Verdict.keeps]
theorem execMov_kept (i : Issue) (s : State) :
    ∃ t, (execMov i s) = .next t ∧ t.kept = s.kept := ⟨_, rfl, State.issue_kept _ _ _ _ (by simp)⟩
@[simp] theorem judgeAlu_keeps (i : Issue) (f : Word → Word → Word) (s : State) :
    (judgeAlu i f s).keeps s := by simp [judgeAlu, Judged.keeps, Verdict.keeps]
theorem execAdd_kept (i : Issue) (s : State) :
    ∃ t, (execAdd i s) = .next t ∧ t.kept = s.kept := ⟨_, rfl, State.issue_kept _ _ _ _ (by simp)⟩
theorem execSub_kept (i : Issue) (s : State) :
    ∃ t, (execSub i s) = .next t ∧ t.kept = s.kept := ⟨_, rfl, State.issue_kept _ _ _ _ (by simp)⟩
theorem execAnd_kept (i : Issue) (s : State) :
    ∃ t, (execAnd i s) = .next t ∧ t.kept = s.kept := ⟨_, rfl, State.issue_kept _ _ _ _ (by simp)⟩
theorem execOr_kept (i : Issue) (s : State) :
    ∃ t, (execOr i s) = .next t ∧ t.kept = s.kept := ⟨_, rfl, State.issue_kept _ _ _ _ (by simp)⟩
theorem execXor_kept (i : Issue) (s : State) :
    ∃ t, (execXor i s) = .next t ∧ t.kept = s.kept := ⟨_, rfl, State.issue_kept _ _ _ _ (by simp)⟩
theorem execShl_kept (i : Issue) (s : State) :
    ∃ t, (execShl i s) = .next t ∧ t.kept = s.kept := ⟨_, rfl, State.issue_kept _ _ _ _ (by simp)⟩
theorem execShr_kept (i : Issue) (s : State) :
    ∃ t, (execShr i s) = .next t ∧ t.kept = s.kept := ⟨_, rfl, State.issue_kept _ _ _ _ (by simp)⟩
@[simp] theorem judgeCmp_keeps (i : Issue) (s : State) :
    (judgeCmp i s).keeps s := by simp [judgeCmp, Judged.keeps, Verdict.keeps]
theorem execCmp_kept (i : Issue) (s : State) :
    ∃ t, (execCmp i s) = .next t ∧ t.kept = s.kept := ⟨_, rfl, State.issue_kept _ _ _ _ (by simp)⟩
@[simp] theorem judgeBit_keeps (i : Issue) (s : State) :
    (judgeBit i s).keeps s := by simp [judgeBit, Judged.keeps, Verdict.keeps]
theorem execBit_kept (i : Issue) (s : State) :
    ∃ t, (execBit i s) = .next t ∧ t.kept = s.kept := ⟨_, rfl, State.issue_kept _ _ _ _ (by simp)⟩
@[simp] theorem judgePset_keeps (i : Issue) (s : State) :
    (judgePset i s).keeps s := by simp [judgePset, Judged.keeps, Verdict.keeps]
theorem execPset_kept (i : Issue) (s : State) :
    ∃ t, (execPset i s) = .next t ∧ t.kept = s.kept := ⟨_, rfl, State.issue_kept _ _ _ _ (by simp)⟩

/-! ### Seats -/

@[simp] theorem State.audioSwitch_kept (s : State) (d : Nat) :
    (State.audioSwitch s d).kept = s.kept := by simp only [State.audioSwitch]; (repeat' split) <;> simp
@[simp] theorem State.followStop_kept (fuel seat : Nat) (str : Option Nat) (s : State) : (State.followStop fuel seat str s).kept = s.kept := by
  induction fuel generalizing seat str s with
  | zero => rfl
  | succ n ih =>
    unfold State.followStop
    refine foldl_kept _ (fun a d => ?_) _ _
    dsimp only
    split
    · rfl
    · simp [foldl_kept, ih]

/-! ### Takes -/

@[simp] theorem judgeTake_keeps (i : Issue) (s : State) :
    (judgeTake i s).keeps s := by simp [judgeTake, Judged.keeps, Verdict.keeps]
theorem execTake_kept (i : Issue) (s : State) :
    ∃ t, (execTake i s) = .next t ∧ t.kept = s.kept := ⟨_, rfl, State.issue_kept _ _ _ _ (by simp)⟩
@[simp] theorem judgeTaker_keeps (i : Issue) (s : State) :
    (judgeTaker i s).keeps s := by simp [judgeTaker, Judged.keeps, Verdict.keeps]
theorem execTaker_kept (i : Issue) (s : State) :
    ∃ t, (execTaker i s) = .next t ∧ t.kept = s.kept := ⟨_, rfl, State.issue_kept _ _ _ _ (by simp)⟩
@[simp] theorem judgeBtake_keeps (i : Issue) (s : State) :
    (judgeBtake i s).keeps s := by simp [judgeBtake, Judged.keeps, Verdict.keeps]
theorem execBtake_kept (i : Issue) (s : State) :
    ∃ t, (execBtake i s) = .next t ∧ t.kept = s.kept := ⟨_, rfl, State.issue_kept _ _ _ _ (by simp)⟩
@[simp] theorem State.lockCell_kept (s : State) (t : Nat) (d : Nat) (target : Nat) :
    (State.lockCell s t d target).kept = s.kept := by simp [State.lockCell]
@[simp] theorem judgeLock_keeps (i : Issue) (target : Nat) (s : State) :
    (judgeLock i target s).keeps s := by unfold judgeLock Judged.keeps; dsimp only; refine ⟨?_, fun a => ?_⟩ <;> (repeat' split) <;> simp [Verdict.keeps, apply_ite State.kept, foldl_kept, foldr_kept, foldl_kept1, foldl_kept2, State.each]
theorem execLock_kept (i : Issue) (s : State) :
    ∃ t, (execLock i s) = .next t ∧ t.kept = s.kept := ⟨_, rfl, State.issue_kept _ _ _ _ (by simp)⟩
theorem execProtect_kept (i : Issue) (s : State) :
    ∃ t, (execProtect i s) = .next t ∧ t.kept = s.kept := ⟨_, rfl, State.issue_kept _ _ _ _ (by simp)⟩
theorem execUnlock_kept (i : Issue) (s : State) :
    ∃ t, (execUnlock i s) = .next t ∧ t.kept = s.kept := ⟨_, rfl, State.issue_kept _ _ _ _ (by simp)⟩
@[simp] theorem State.settleLoss_kept (s : State) (d : Nat) :
    (State.settleLoss s d).kept = s.kept := by simp [State.settleLoss, apply_ite State.kept, foldl_kept, foldr_kept, foldl_kept1, foldl_kept2, State.each]
@[simp] theorem State.commitSel0_kept (s : State) (n : Int) (x : Sel) :
    (State.commitSel0 s n x).kept = s.kept := by simp only [State.commitSel0]; (repeat' split) <;> simp
@[simp] theorem State.commitSels_kept (s : State) (n : Int) (l : List Sel) :
    (State.commitSels s n l).kept = s.kept := by simp [State.commitSels, apply_ite State.kept, foldl_kept, foldr_kept, foldl_kept1, foldl_kept2, State.each]
@[simp] theorem State.commitCellcfg0_kept (s : State) (d : Nat) (vs : List Int) :
    (State.commitCellcfg0 s d vs).kept = s.kept := by simp only [State.commitCellcfg0]; (repeat' split) <;> simp
@[simp] theorem State.commitCellcfg_kept (s : State) (d : Nat) (vs : List Int) :
    (State.commitCellcfg s d vs).kept = s.kept := by simp [State.commitCellcfg]
@[simp] theorem judgeCellcfg_keeps (i : Issue) (s : State) :
    (judgeCellcfg i s).keeps s := by simp [judgeCellcfg, Judged.keeps, Verdict.keeps]
theorem execCellcfg_kept (i : Issue) (s : State) :
    ∃ t, (execCellcfg i s) = .next t ∧ t.kept = s.kept := ⟨_, rfl, State.issue_kept _ _ _ _ (by simp)⟩
@[simp] theorem judgeBundlecfg_keeps (i : Issue) (s : State) :
    (judgeBundlecfg i s).keeps s := by simp [judgeBundlecfg, Judged.keeps, Verdict.keeps]
theorem execBundlecfg_kept (i : Issue) (s : State) :
    ∃ t, (execBundlecfg i s) = .next t ∧ t.kept = s.kept := ⟨_, rfl, State.issue_kept _ _ _ _ (by simp)⟩
@[simp] theorem State.commitBundlecfg_kept (s : State) (b : Nat) (side : Nat) (vs : List Int) :
    (State.commitBundlecfg s b side vs).kept = s.kept := by simp [State.commitBundlecfg, apply_ite State.kept, foldl_kept, foldr_kept, foldl_kept1, foldl_kept2, State.each]
theorem execFollowCommit_kept (dt : Nat) (d : Nat) (j : Nat) (s0 : State) :
    ∃ t, (execFollowCommit dt d j s0) = .next t ∧ t.kept = s0.kept := ⟨_, rfl, by (repeat' split) <;> simp⟩
theorem execFollowTimeout_kept (dt : Nat) (d : Nat) (j : Nat) (s0 : State) :
    ∃ t, (execFollowTimeout dt d j s0) = .next t ∧ t.kept = s0.kept := ⟨_, rfl, by (repeat' split) <;> simp⟩
theorem execCellLossEntry_kept (dt : Nat) (d : Nat) (s0 : State) :
    ∃ t, (execCellLossEntry dt d s0) = .next t ∧ t.kept = s0.kept := ⟨_, rfl, by simp [apply_ite State.kept, foldl_kept, foldr_kept, foldl_kept1, foldl_kept2, State.each]⟩
theorem execCellLossReturn_kept (dt : Nat) (d : Nat) (s0 : State) :
    ∃ t, (execCellLossReturn dt d s0) = .next t ∧ t.kept = s0.kept := ⟨_, rfl, by simp [apply_ite State.kept, foldl_kept, foldr_kept, foldl_kept1, foldl_kept2, State.each]⟩
@[simp] theorem judgeRetcfg_keeps (i : Issue) (s : State) :
    (judgeRetcfg i s).keeps s := by simp [judgeRetcfg, Judged.keeps, Verdict.keeps]
theorem execRetcfg_kept (i : Issue) (s : State) :
    ∃ t, (execRetcfg i s) = .next t ∧ t.kept = s.kept := ⟨_, rfl, State.issue_kept _ _ _ _ (by simp)⟩
@[simp] theorem State.commitRetcfg_kept (s : State) (r : Nat) (vs : List Int) :
    (State.commitRetcfg s r vs).kept = s.kept := by simp [State.commitRetcfg]
@[simp] theorem judgeSigncfg_keeps (i : Issue) (s : State) :
    (judgeSigncfg i s).keeps s := by simp [judgeSigncfg, Judged.keeps, Verdict.keeps]
theorem execSigncfg_kept (i : Issue) (s : State) :
    ∃ t, (execSigncfg i s) = .next t ∧ t.kept = s.kept := ⟨_, rfl, State.issue_kept _ _ _ _ (by simp)⟩
@[simp] theorem State.commitSigncfg_kept (s : State) (g : Nat) (vs : List Int) :
    (State.commitSigncfg s g vs).kept = s.kept := by simp only [State.commitSigncfg]; (repeat' split) <;> simp

/-! ### Plans -/

@[simp] theorem State.deferTo_kept (s : State) (p : Nat) (n : Int) (m : Int) :
    (State.deferTo s p n m).kept = s.kept := by simp [State.deferTo]
@[simp] theorem State.changePhase_kept (s : State) (p : Nat) (n : Int) (phase : Int) :
    (State.changePhase s p n phase).kept = s.kept := by simp [State.changePhase, apply_ite State.kept, foldl_kept, foldr_kept, foldl_kept1, foldl_kept2, State.each]
@[simp] theorem State.renumber_kept (s : State) (old : State) (p : Nat) :
    (State.renumber s old p).kept = s.kept := by simp [State.renumber]
@[simp] theorem State.commitPlancfg_kept (s : State) (p : Nat) (n : Int) (vs : List Int) :
    (State.commitPlancfg s p n vs).kept = s.kept := by simp only [State.commitPlancfg]; (repeat' split) <;> simp
@[simp] theorem judgePlancfg_keeps (i : Issue) (s : State) :
    (judgePlancfg i s).keeps s := by unfold judgePlancfg Judged.keeps; dsimp only; refine ⟨?_, fun a => ?_⟩ <;> (repeat' split) <;> simp [Verdict.keeps, apply_ite State.kept, foldl_kept, foldr_kept, foldl_kept1, foldl_kept2, State.each]
theorem execPlancfg_kept (i : Issue) (s : State) :
    ∃ t, (execPlancfg i s) = .next t ∧ t.kept = s.kept := ⟨_, rfl, State.issue_kept _ _ _ _ (by simp)⟩
theorem execPlanSlewComplete_kept (dt : Nat) (p : Nat) (s0 : State) :
    ∃ t, (execPlanSlewComplete dt p s0) = .next t ∧ t.kept = s0.kept := ⟨_, rfl, by split <;> simp⟩
@[simp] theorem State.enterTick_kept (s : State) (p : Nat) (n : Int) :
    (State.enterTick s p n).kept = s.kept := by simp [State.enterTick, apply_ite State.kept, foldl_kept, foldr_kept, foldl_kept1, foldl_kept2, State.each]

/-! ### Tower -/

@[simp] theorem State.holdMean_kept (s : State) :
    (State.holdMean s).kept = s.kept := by simp only [State.holdMean]; (repeat' split) <;> simp
@[simp] theorem State.leaveLocked_kept (s : State) :
    (State.leaveLocked s).kept = s.kept := by unfold State.leaveLocked; split <;> simp
theorem kept_regs (s : State) (r : Tbl Int) : ({ s with regs := r } : State).kept = s.kept := rfl
@[simp] theorem State.stepTime_kept (s : State) (e : Int) : (State.stepTime s e).kept = s.kept := by
  unfold State.stepTime
  generalize List.range 16 = l
  dsimp only
  rw [State.post_kept, State.count_kept, State.wr_kept]
  refine Eq.trans (kept_regs _ _) ((foldl_kept _ (fun a p => ?_) _ _).trans rfl)
  split
  · rfl
  · rw [State.postEntry_kept, foldl_kept _ (fun a p => by rw [State.count_kept])]
    exact (State.wrs_kept _ _ _).trans (State.wrs_kept _ _ _)
@[simp] theorem State.towerTo_kept (s : State) (st : Int) :
    (State.towerTo s st).kept = s.kept := by simp only [State.towerTo]; (repeat' split) <;> simp
@[simp] theorem State.mayStep_kept (s : State) (c : Nat) (first : Bool) :
    (State.mayStep s c first).kept = s.kept := by simp [State.mayStep, apply_ite State.kept, foldl_kept, foldr_kept, foldl_kept1, foldl_kept2, State.each]
@[simp] theorem State.selectCand_kept (s : State) (c : Nat) :
    (State.selectCand s c).kept = s.kept := by simp only [State.selectCand]; (repeat' split) <;> simp
@[simp] theorem State.noteDisagree_kept (s : State) :
    (State.noteDisagree s).kept = s.kept := by simp only [State.noteDisagree]; (repeat' split) <;> simp
@[simp] theorem State.reselect_kept (s : State) (table : Bool) (window : Bool) :
    (State.reselect s table window).kept = s.kept := by simp only [State.reselect]; (repeat' split) <;> simp
@[simp] theorem State.candLeave_kept (s : State) (c : Nat) (st : Int) (cause : Nat) :
    (State.candLeave s c st cause).kept = s.kept := by simp only [State.candLeave]; (repeat' split) <;> simp
@[simp] theorem State.candLost_kept (s : State) (c : Nat) (cause : Nat) :
    (State.candLost s c cause).kept = s.kept := by unfold State.candLost; split <;> simp
@[simp] theorem State.noteLock_kept (s : State) (ok : Bool) (bad : Bool) :
    (State.noteLock s ok bad).kept = s.kept := by simp [State.noteLock]
@[simp] theorem State.validMarker_kept (s : State) (c : Nat) (at_ : Int) (own : Int) (e : Int) :
    (State.validMarker s c at_ own e).kept = s.kept := by simp only [State.validMarker]; (repeat' split) <;> simp
@[simp] theorem State.marker_kept (s : State) (c : Nat) :
    (State.marker s c).kept = s.kept := by simp only [State.marker]; (repeat' split) <;> simp
theorem execRefMarker_kept (dt : Nat) (cand : Nat) (s0 : State) :
    ∃ t, (execRefMarker dt cand s0) = .next t ∧ t.kept = s0.kept := ⟨_, rfl, by split <;> simp⟩
@[simp] theorem State.seatMarker_kept (s : State) (seat : Nat) :
    (State.seatMarker s seat).kept = s.kept := by simp [State.seatMarker, apply_ite State.kept, foldl_kept, foldr_kept, foldl_kept1, foldl_kept2, State.each]
@[simp] theorem State.windowCand_kept (s : State) (c : Nat) :
    (State.windowCand s c).kept = s.kept := by simp only [State.windowCand]; (repeat' split) <;> simp
@[simp] theorem State.settlePending_kept (s : State) :
    (State.settlePending s).kept = s.kept := by simp [State.settlePending]
@[simp] theorem State.loopSecond_kept (s : State) :
    (State.loopSecond s).kept = s.kept := by simp only [State.loopSecond]; (repeat' split) <;> simp
@[simp] theorem State.historySecond_kept (s : State) :
    (State.historySecond s).kept = s.kept := by unfold State.historySecond; split <;> simp
theorem execFreqWindow_kept (dt : Nat) (s0 : State) :
    ∃ t, (execFreqWindow dt s0) = .next t ∧ t.kept = s0.kept := ⟨_, rfl, by
      rw [State.ifUp]
      split
      · rw [State.after_kept]
      · split
        · rw [State.after_kept]
        · simp only [State.wr_kept, State.reselect_kept, apply_ite State.kept, State.noteLock_kept, State.settlePending_kept, State.loopSecond_kept,
            State.historySecond_kept, ite_self]
          exact (foldl_kept _ (fun a p => State.windowCand_kept _ _) _ _).trans (State.after_kept _ _)⟩
theorem execCandQualified_kept (dt : Nat) (cand : Nat) (s0 : State) :
    ∃ t, (execCandQualified dt cand s0) = .next t ∧ t.kept = s0.kept := ⟨_, rfl, by split <;> simp⟩
theorem execCandMissing_kept (dt : Nat) (cand : Nat) (s0 : State) :
    ∃ t, (execCandMissing dt cand s0) = .next t ∧ t.kept = s0.kept := ⟨_, rfl, by (repeat' split) <;> simp⟩
theorem execWtrExpiry_kept (dt : Nat) (s0 : State) :
    ∃ t, (execWtrExpiry dt s0) = .next t ∧ t.kept = s0.kept := ⟨_, rfl, by simp []⟩
theorem execTowerInLock_kept (dt : Nat) (s0 : State) :
    ∃ t, (execTowerInLock dt s0) = .next t ∧ t.kept = s0.kept := ⟨_, rfl, by split <;> simp⟩
theorem execTowerReacquire_kept (dt : Nat) (s0 : State) :
    ∃ t, (execTowerReacquire dt s0) = .next t ∧ t.kept = s0.kept := ⟨_, rfl, by split <;> simp⟩
@[simp] theorem judgeTowercand_keeps (i : Issue) (s : State) :
    (judgeTowercand i s).keeps s := by unfold judgeTowercand Judged.keeps; (try dsimp only); refine ⟨?_, fun a => ?_⟩ <;> (repeat' split) <;> simp [Verdict.keeps, apply_ite State.kept, foldl_kept, foldr_kept, foldl_kept1, foldl_kept2, State.each]
theorem execTowercand_kept (i : Issue) (s : State) :
    ∃ t, (execTowercand i s) = .next t ∧ t.kept = s.kept := ⟨_, rfl, State.issue_kept _ _ _ _ (by simp)⟩
@[simp] theorem State.showPriorities_kept (s : State) :
    (State.showPriorities s).kept = s.kept := by simp [State.showPriorities, apply_ite State.kept, foldl_kept, foldr_kept, foldl_kept1, foldl_kept2, State.each]
@[simp] theorem judgeTowertable_keeps (i : Issue) (s : State) :
    (judgeTowertable i s).keeps s := by unfold judgeTowertable Judged.keeps; (try dsimp only); refine ⟨?_, fun a => ?_⟩ <;> (repeat' split) <;> simp [Verdict.keeps, apply_ite State.kept, foldl_kept, foldr_kept, foldl_kept1, foldl_kept2, State.each]
theorem execTowertable_kept (i : Issue) (s : State) :
    ∃ t, (execTowertable i s) = .next t ∧ t.kept = s.kept := ⟨_, rfl, State.issue_kept _ _ _ _ (by simp)⟩
@[simp] theorem judgeTowercfg_keeps (i : Issue) (s : State) : (judgeTowercfg i s).keeps s := by
  unfold judgeTowercfg Judged.keeps
  refine ⟨?_, fun a => rfl⟩
  simp only [Verdict.keeps, apply_ite State.kept, State.reselect_kept, State.wr_kept, State.showPriorities_kept, State.wrParams_kept,
    State.settlePending_kept, ite_self]
theorem execTowercfg_kept (i : Issue) (s : State) :
    ∃ t, (execTowercfg i s) = .next t ∧ t.kept = s.kept := ⟨_, rfl, State.issue_kept _ _ _ _ (by simp)⟩
@[simp] theorem judgeSteer_keeps (i : Issue) (s : State) :
    (judgeSteer i s).keeps s := by unfold judgeSteer Judged.keeps; (try dsimp only); refine ⟨?_, fun a => ?_⟩ <;> (repeat' split) <;> simp [Verdict.keeps, apply_ite State.kept, foldl_kept, foldr_kept, foldl_kept1, foldl_kept2, State.each]
theorem execFreqTrim_kept (i : Issue) (s : State) :
    ∃ t, (execFreqTrim i s) = .next t ∧ t.kept = s.kept := ⟨_, rfl, State.issue_kept _ _ _ _ (by simp)⟩
theorem execPhaseStep_kept (i : Issue) (s : State) :
    ∃ t, (execPhaseStep i s) = .next t ∧ t.kept = s.kept := ⟨_, rfl, State.issue_kept _ _ _ _ (by simp)⟩
theorem execSeconds_kept (i : Issue) (s : State) :
    ∃ t, (execSeconds i s) = .next t ∧ t.kept = s.kept := ⟨_, rfl, State.issue_kept _ _ _ _ (by simp)⟩
@[simp] theorem judgeClkoutcfg_keeps (i : Issue) (s : State) :
    (judgeClkoutcfg i s).keeps s := by unfold judgeClkoutcfg Judged.keeps; (try dsimp only); refine ⟨?_, fun a => ?_⟩ <;> (repeat' split) <;> simp [Verdict.keeps, apply_ite State.kept, foldl_kept, foldr_kept, foldl_kept1, foldl_kept2, State.each]
theorem execClkoutcfg_kept (i : Issue) (s : State) :
    ∃ t, (execClkoutcfg i s) = .next t ∧ t.kept = s.kept := ⟨_, rfl, State.issue_kept _ _ _ _ (by simp)⟩
@[simp] theorem State.stopDomain_kept (s : State) (d : Nat) :
    (State.stopDomain s d).kept = s.kept := by simp [State.stopDomain, apply_ite State.kept, foldl_kept, foldr_kept, foldl_kept1, foldl_kept2, State.each]
theorem execLoscFailure_kept (dt : Nat) (synth : Bool) (s0 : State) :
    ∃ t, (execLoscFailure dt synth s0) = .next t ∧ t.kept = s0.kept := ⟨_, rfl, by (repeat' split) <;> simp⟩
theorem execClockStopped_kept (dt : Nat) (domain : Nat) (s0 : State) :
    ∃ t, (execClockStopped dt domain s0) = .next t ∧ t.kept = s0.kept := ⟨_, rfl, by split <;> simp⟩

/-! ### Time -/

@[simp] theorem State.ptpLoss_kept (s : State) (i : Nat) (cause : Nat) (st : Int) :
    (State.ptpLoss s i cause st).kept = s.kept := by simp only [State.ptpLoss]; (repeat' split) <;> simp
@[simp] theorem State.ptpMarker_kept (s : State) (i : Nat) (t2 : Int) (e : Int) :
    (State.ptpMarker s i t2 e).kept = s.kept := by simp only [State.ptpMarker]; (repeat' split) <;> simp
@[simp] theorem State.ptpAccept_kept (s : State) (i : Nat) (t2 : Int) (e : Int) :
    (State.ptpAccept s i t2 e).kept = s.kept := by simp only [State.ptpAccept]; (repeat' split) <;> simp
@[simp] theorem State.ptpMeasure_kept (s : State) (i : Nat) (t1 : Int) (cs : Int) (t2 : Int) :
    (State.ptpMeasure s i t1 cs t2).kept = s.kept := by simp only [State.ptpMeasure]; (repeat' split) <;> simp
@[simp] theorem State.ptpSend_kept (s : State) (mac : Nat) (typ : Nat) (transport : Nat) (vlan : Nat) (dscp : Nat) (domain : Nat) (seq : Nat) (cf : Int) :
    (State.ptpSend s mac typ transport vlan dscp domain seq cf).kept = s.kept := by simp [State.ptpSend]
@[simp] theorem State.ptpRelay_kept (s : State) (mac : Nat) (typ : Nat) (p : PtpIn) (cf : Int) (sum : Nat) :
    (State.ptpRelay s mac typ p cf sum).kept = s.kept := by simp [State.ptpRelay]
theorem State.ptpReject_kept (s b : State) (i : Nat) (p : PtpIn) (h : s.ptpReject i p = some b) : b.kept = s.kept := by
  unfold State.ptpReject at h
  dsimp only at h
  (repeat' split at h) <;> simp at h <;> subst h <;> simp

theorem ptpReject_getD (s : State) (i : Nat) (p : PtpIn) : ((s.ptpReject i p).getD s).kept = s.kept := by
  cases h : s.ptpReject i p with
  | none => rfl
  | some b => exact State.ptpReject_kept s b i p h

@[simp] theorem State.tcForward_kept (s : State) (mac : Nat) (typ : Nat) (p : PtpIn) :
    (State.tcForward s mac typ p).kept = s.kept := by
  have fin : ∀ r : Bool × State, r.2.kept = s.kept → (if r.1 then r.2.countLimited (U.mac mac) Ctr.Mac.TC_SATURATED 0 0 else r.2).kept = s.kept := by
    intro r h; split <;> simp [h]
  unfold State.tcForward
  dsimp only
  split
  · rfl
  split
  · simp
  refine fin _ (foldl_via2 _ _ (fun a m h => ?_) _ _ rfl)
  split <;> simp [h]
theorem execPtpSyncRx_kept (dt mac : Nat) (p : PtpIn) (s0 : State) : ∃ t, execPtpSyncRx dt mac p s0 = .next t ∧ t.kept = s0.kept := by
  refine ⟨_, rfl, ifUp_via _ _ _ _ (by simp) (foldl_via _ _ (fun a i h => ?_) _ _ (by simp))⟩
  dsimp only
  split
  · rename_i b hb; exact (State.ptpReject_kept a b i p hb).trans h
  · (repeat' split) <;> simp [h]
theorem execPtpFollowUpRx_kept (dt mac : Nat) (p : PtpIn) (s0 : State) : ∃ t, execPtpFollowUpRx dt mac p s0 = .next t ∧ t.kept = s0.kept := by
  refine ⟨_, rfl, ifUp_via _ _ _ _ (by simp) (foldl_via _ _ (fun a i h => ?_) _ _ (by simp))⟩
  dsimp only
  split
  · rename_i b hb; exact (State.ptpReject_kept a b i p hb).trans h
  · (repeat' split) <;> simp [h]
theorem execPtpDelayRespRx_kept (dt mac : Nat) (p : PtpIn) (s0 : State) : ∃ t, execPtpDelayRespRx dt mac p s0 = .next t ∧ t.kept = s0.kept := by
  refine ⟨_, rfl, ifUp_via _ _ _ _ (by simp) (foldl_via _ _ (fun a i h => ?_) _ _ (by simp))⟩
  dsimp only
  split
  · rename_i b hb; exact (State.ptpReject_kept a b i p hb).trans h
  · (repeat' split) <;> simp [h]
theorem execPtpAnnounceRx_kept (dt mac : Nat) (p : PtpIn) (s0 : State) : ∃ t, execPtpAnnounceRx dt mac p s0 = .next t ∧ t.kept = s0.kept := by
  refine ⟨_, rfl, ifUp_via _ _ _ _ (by simp) (foldl_via _ _ (fun a i h => ?_) _ _ (by simp))⟩
  simp [apply_ite State.kept, h]
theorem execPdelayReqRx_kept (dt mac : Nat) (p : PtpIn) (s0 : State) : ∃ t, execPdelayReqRx dt mac p s0 = .next t ∧ t.kept = s0.kept := by
  refine ⟨_, rfl, ifUp_via _ _ _ _ (by simp) ?_⟩
  dsimp only
  split
  · simp
  split
  · exact foldl_via _ _ (fun a i h => (ptpReject_getD a i p).trans h) _ _ (by simp)
  · (repeat' split) <;> simp
theorem execPdelayRespRx_kept (dt mac : Nat) (p : PtpIn) (s0 : State) : ∃ t, execPdelayRespRx dt mac p s0 = .next t ∧ t.kept = s0.kept := by
  refine ⟨_, rfl, ifUp_via _ _ _ _ (by simp) ?_⟩
  dsimp only
  split
  · simp
  split
  · exact foldl_via _ _ (fun a i h => by simp [h]) _ _ (by simp)
  · split
    · exact foldl_via _ _ (fun a i h => by simp [h]) _ _ (by simp)
    · simp
theorem execDelayReqSend_kept (dt : Nat) (kind : Nat) (n : Nat) (s0 : State) :
    ∃ t, (execDelayReqSend dt kind n s0) = .next t ∧ t.kept = s0.kept := ⟨_, rfl, by simp [apply_ite State.kept, foldl_kept, foldr_kept, foldl_kept1, foldl_kept2, State.each]⟩
theorem execAnnounceTimeout_kept (dt : Nat) (inst : Nat) (s0 : State) :
    ∃ t, (execAnnounceTimeout dt inst s0) = .next t ∧ t.kept = s0.kept := ⟨_, rfl, by (repeat' split) <;> simp⟩
@[simp] theorem judgePtpport_keeps (i : Issue) (s : State) :
    (judgePtpport i s).keeps s := by unfold judgePtpport Judged.keeps; (try dsimp only); refine ⟨?_, fun a => ?_⟩ <;> (repeat' split) <;> simp [Verdict.keeps, apply_ite State.kept, foldl_kept, foldr_kept, foldl_kept1, foldl_kept2, State.each]
theorem execPtpport_kept (i : Issue) (s : State) :
    ∃ t, (execPtpport i s) = .next t ∧ t.kept = s.kept := ⟨_, rfl, State.issue_kept _ _ _ _ (by simp)⟩
@[simp] theorem judgePtpcfg_keeps (i : Issue) (s : State) :
    (judgePtpcfg i s).keeps s := by unfold judgePtpcfg Judged.keeps; (try dsimp only); refine ⟨?_, fun a => ?_⟩ <;> (repeat' split) <;> simp [Verdict.keeps, apply_ite State.kept, foldl_kept, foldr_kept, foldl_kept1, foldl_kept2, State.each]
theorem execPtpcfg_kept (i : Issue) (s : State) :
    ∃ t, (execPtpcfg i s) = .next t ∧ t.kept = s.kept := ⟨_, rfl, State.issue_kept _ _ _ _ (by simp)⟩
@[simp] theorem judgeTccfg_keeps (i : Issue) (s : State) :
    (judgeTccfg i s).keeps s := by unfold judgeTccfg Judged.keeps; (try dsimp only); refine ⟨?_, fun a => ?_⟩ <;> (repeat' split) <;> simp [Verdict.keeps, apply_ite State.kept, foldl_kept, foldr_kept, foldl_kept1, foldl_kept2, State.each]
theorem execTccfg_kept (i : Issue) (s : State) :
    ∃ t, (execTccfg i s) = .next t ∧ t.kept = s.kept := ⟨_, rfl, State.issue_kept _ _ _ _ (by simp)⟩
@[simp] theorem judgeCaptcfg_keeps (i : Issue) (s : State) :
    (judgeCaptcfg i s).keeps s := by unfold judgeCaptcfg Judged.keeps; (try dsimp only); refine ⟨?_, fun a => ?_⟩ <;> (repeat' split) <;> simp [Verdict.keeps, apply_ite State.kept, foldl_kept, foldr_kept, foldl_kept1, foldl_kept2, State.each]
theorem execCaptcfg_kept (i : Issue) (s : State) :
    ∃ t, (execCaptcfg i s) = .next t ∧ t.kept = s.kept := ⟨_, rfl, State.issue_kept _ _ _ _ (by simp)⟩
theorem execCaptEdge_kept (dt : Nat) (pin : Nat) (falling : Bool) (s0 : State) :
    ∃ t, (execCaptEdge dt pin falling s0) = .next t ∧ t.kept = s0.kept := ⟨_, rfl, by simp [apply_ite State.kept, foldl_kept, foldr_kept, foldl_kept1, foldl_kept2, State.each]⟩
@[simp] theorem State.ttDrive_kept (s : State) (n : Nat) (act : Bool) :
    (State.ttDrive s n act).kept = s.kept := by simp [State.ttDrive]
@[simp] theorem State.ttChange_kept (s : State) (n : Nat) (at_ : Int) (stamp : Nat) (level : Bool) :
    (State.ttChange s n at_ stamp level).kept = s.kept := by simp only [State.ttChange]; (repeat' split) <;> simp
theorem execTtEdge_kept (dt : Nat) (out : Nat) (s0 : State) :
    ∃ t, (execTtEdge dt out s0) = .next t ∧ t.kept = s0.kept := ⟨_, rfl, by simp only [State.each]; (repeat' split) <;> simp [apply_ite State.kept, foldl_kept, foldr_kept, foldl_kept1, foldl_kept2]⟩
@[simp] theorem State.setTtPending_kept (s : State) (n : Nat) (l : List (Int × Nat × Nat)) :
    (State.setTtPending s n l).kept = s.kept := by simp [State.setTtPending]
@[simp] theorem State.scheduleTt_kept (s : State) (e : Staged) :
    (State.scheduleTt s e).kept = s.kept := by simp only [State.scheduleTt]; (repeat' split) <;> simp
theorem execTtLevelChange_kept (dt : Nat) (out : Nat) (s0 : State) :
    ∃ t, (execTtLevelChange dt out s0) = .next t ∧ t.kept = s0.kept := ⟨_, rfl, by (repeat' split) <;> simp⟩
@[simp] theorem judgeTtcfg_keeps (i : Issue) (s : State) :
    (judgeTtcfg i s).keeps s := by unfold judgeTtcfg Judged.keeps; (try dsimp only); refine ⟨?_, fun a => ?_⟩ <;> (repeat' split) <;> simp [Verdict.keeps, apply_ite State.kept, foldl_kept, foldr_kept, foldl_kept1, foldl_kept2, State.each]
theorem execTtcfg_kept (i : Issue) (s : State) :
    ∃ t, (execTtcfg i s) = .next t ∧ t.kept = s.kept := ⟨_, rfl, State.issue_kept _ _ _ _ (by simp)⟩
@[simp] theorem judgeTtset_keeps (i : Issue) (s : State) :
    (judgeTtset i s).keeps s := by simp [judgeTtset, Judged.keeps, Verdict.keeps]
theorem execTtset_kept (i : Issue) (s : State) :
    ∃ t, (execTtset i s) = .next t ∧ t.kept = s.kept := ⟨_, rfl, State.issue_kept _ _ _ _ (by simp)⟩

/-! ### Lines -/

@[simp] theorem State.sendAir_kept (s : State) (u : Nat) (part : Nat) (pay : Payload) (rows : List PicLine) (anc : List (List Nat)) (marks : List Nat) :
    (State.sendAir s u part pay rows anc marks).kept = s.kept := by simp [State.sendAir]
@[simp] theorem State.airWords_kept (s : State) (pict : Option Pict) (id : Nat) (line : Nat) (regs : List Nat) :
    (State.airWords s pict id line regs).2.kept = s.kept := by simp only [State.airWords, State.each]; (repeat' split) <;> simp [apply_ite State.kept, foldl_kept, foldr_kept, foldl_kept1, foldl_kept2]
@[simp] theorem State.airLine_kept (s : State) (u : Nat) (id : Nat) (line : Nat) :
    (State.airLine s u id line).2.kept = s.kept := by simp [State.airLine]

/-! ### Kerbs -/

@[simp] theorem State.noteAudio_kept (s : State) (k : Nat) (first : Bool) (g : Nat) :
    (State.noteAudio s k first g).kept = s.kept := by unfold State.noteAudio; split <;> simp
@[simp] theorem State.kerbEnter_kept (s : State) (k : Nat) (st : Int) :
    (State.kerbEnter s k st).kept = s.kept := by simp only [State.kerbEnter]; (repeat' split) <;> simp
@[simp] theorem State.seatIn_kept (s : State) (k : Nat) (ws : List Nat) :
    (State.seatIn s k ws).kept = s.kept := by simp [State.seatIn]
@[simp] theorem State.setLines_kept (s : State) (seat : Nat) (str : Nat) (l : List SeatLine) :
    (State.setLines s seat str l).kept = s.kept := by simp [State.setLines]
@[simp] theorem State.offer_kept (s : State) (seat : Nat) (str : Nat) (l : SeatLine) :
    (State.offer s seat str l).kept = s.kept := by simp [State.offer]
@[simp] theorem State.offerConcealed_kept (s : State) (k : Nat) (line : Nat) (time : Nat) (lerr : Bool) :
    (State.offerConcealed s k line time lerr).kept = s.kept := by simp [State.offerConcealed]
@[simp] theorem State.slipMember_kept (s : State) (m : Nat) (line : Nat) (t : Int) :
    (State.slipMember s m line t).kept = s.kept := by simp [State.slipMember]
@[simp] theorem State.concealLine_kept (s : State) (k : Nat) (line : Nat) (t : Int) (lerr : Bool) :
    (State.concealLine s k line t lerr).kept = s.kept := by simp only [State.concealLine, State.each]; (repeat' split) <;> simp [apply_ite State.kept, foldl_kept, foldr_kept, foldl_kept1, foldl_kept2]
@[simp] theorem State.ingest_kept (s : State) (k : Nat) (c : LineCheck) (shape : Bool) (lnOk : Bool) (edhBad : Bool) :
    (State.ingest s k c shape lnOk edhBad).kept = s.kept := by simp [State.ingest, apply_ite State.kept, foldl_kept, foldr_kept, foldl_kept1, foldl_kept2, State.each]
@[simp] theorem State.notePid_kept (s : State) (k : Nat) (c : LineCheck) :
    (State.notePid s k c).kept = s.kept := by simp only [State.notePid]; (repeat' split) <;> simp
@[simp] theorem State.showError_kept (s : State) (k : Nat) (err : Int) (W : Int) :
    (State.showError s k err W).kept = s.kept := by unfold State.showError; split <;> simp
@[simp] theorem State.kerbJudge_kept (s : State) (k : Nat) (ras : Bool) (out : Bool) (ended : Bool) (fRas : Bool) (fOut : Bool) (whole : Bool) :
    (State.kerbJudge s k ras out ended fRas fOut whole).kept = s.kept := by simp only [State.kerbJudge]; (repeat' split) <;> simp
@[simp] theorem State.lineEnded_kept (s : State) (k : Nat) (line : Nat) (raw : List Nat) (edhBad : Bool) :
    (State.lineEnded s k line raw edhBad).kept = s.kept := by simp [State.lineEnded, apply_ite State.kept, foldl_kept, foldr_kept, foldl_kept1, foldl_kept2, State.each]
@[simp] theorem State.lineBegins_kept (s : State) (k : Nat) (line : Nat) :
    (State.lineBegins s k line).kept = s.kept := by simp only [State.lineBegins]; (repeat' split) <;> simp
@[simp] theorem State.lineOneMarker_kept (s : State) (k : Nat) (line : Nat) :
    (State.lineOneMarker s k line).kept = s.kept := by unfold State.lineOneMarker; split <;> simp
@[simp] theorem State.kerbEav_kept (s : State) (k : Nat) (line : Nat) (edhBad : Bool) : (State.kerbEav s k line edhBad).kept = s.kept := by
  unfold State.kerbEav
  extract_lets u fifo plain st drop
  have hd : ∀ n, (drop n).kept = s.kept := fun n => by simp [drop]
  (repeat' split) <;> first | rfl | simp [hd]
theorem execKerbEavArrival_kept (dt k line : Nat) (edhBad : Bool) (s0 : State) :
    ∃ t, execKerbEavArrival dt k line edhBad s0 = .next t ∧ t.kept = s0.kept := by
  refine ⟨_, rfl, ?_⟩
  (repeat' split) <;> simp
theorem execKerbAlign_kept (dt : Nat) (k : Nat) (s0 : State) :
    ∃ t, (execKerbAlign dt k s0) = .next t ∧ t.kept = s0.kept := ⟨_, rfl, by split <;> simp⟩
@[simp] theorem State.kerbLose_kept (s : State) (k : Nat) :
    (State.kerbLose s k).kept = s.kept := by simp [State.kerbLose, apply_ite State.kept, foldl_kept, foldr_kept, foldl_kept1, foldl_kept2, State.each]
theorem execKerbLossTimeout_kept (dt : Nat) (k : Nat) (s0 : State) :
    ∃ t, (execKerbLossTimeout dt k s0) = .next t ∧ t.kept = s0.kept := ⟨_, rfl, by (repeat' split) <;> simp⟩
@[simp] theorem judgeKerbcfg_keeps (i : Issue) (s : State) :
    (judgeKerbcfg i s).keeps s := by simp [judgeKerbcfg, Judged.keeps, Verdict.keeps]
theorem execKerbcfg_kept (i : Issue) (s : State) :
    ∃ t, (execKerbcfg i s) = .next t ∧ t.kept = s.kept := ⟨_, rfl, State.issue_kept _ _ _ _ (by simp)⟩
@[simp] theorem State.commitKerbcfg_kept (s : State) (k : Nat) (vs : List Int) :
    (State.commitKerbcfg s k vs).kept = s.kept := by simp only [State.commitKerbcfg]; (repeat' split) <;> simp

end Sys2Proof.Machine
end

