-- ==== Sys2Proof/Laws/FrameB.lean ====
section
/-!
SUPPORT. What the operations of Lanes, LanePath, Haywain, Emit, Pool, Barn, Mix, Capture, Granary, Plaza, Detect, Power leave alone.
-/
set_option linter.unusedSimpArgs false
namespace Sys2Proof.Machine

/-! ### Lanes -/

@[simp] theorem State.setLane_kept (s : State) (l : Nat) (f : Field) (v : Int) :
    (State.setLane s l f v).kept = s.kept := by simp [State.setLane]
@[simp] theorem State.pllIdle_kept (s : State) (l : Nat) (pll : Nat) :
    (State.pllIdle s l pll).kept = s.kept := by unfold State.pllIdle; split <;> simp
@[simp] theorem State.macLink_kept (s : State) (m : Nat) (up : Bool) :
    (State.macLink s m up).kept = s.kept := by simp [State.macLink, apply_ite State.kept, foldl_kept, foldr_kept, foldl_kept1, foldl_kept2, State.each]
@[simp] theorem State.evalMac_kept (s : State) (l : Nat) :
    (State.evalMac s l).kept = s.kept := by simp only [State.evalMac]; (repeat' split) <;> simp
@[simp] theorem State.seatsLost_kept (s : State) (l : Nat) :
    (State.seatsLost s l).kept = s.kept := by simp only [State.seatsLost, State.each]; (repeat' split) <;> simp [apply_ite State.kept, foldl_kept, foldr_kept, foldl_kept1, foldl_kept2]
@[simp] theorem State.trainOver_kept (s : State) (l : Nat) (ok : Bool) :
    (State.trainOver s l ok).kept = s.kept := by simp [State.trainOver, apply_ite State.kept, foldl_kept, foldr_kept, foldl_kept1, foldl_kept2, State.each]
@[simp] theorem State.startTrain_kept (s : State) (l : Nat) :
    (State.startTrain s l).kept = s.kept := by simp only [State.startTrain]; (repeat' split) <;> simp
@[simp] theorem State.evalLink_kept (s : State) (l : Nat) :
    (State.evalLink s l).kept = s.kept := by simp only [State.evalLink]; (repeat' split) <;> simp
@[simp] theorem State.rxLost_kept (s : State) (l : Nat) (signal : Bool) (cdr : Bool) :
    (State.rxLost s l signal cdr).kept = s.kept := by simp [State.rxLost]
@[simp] theorem State.wakeSide_kept (s : State) (l : Nat) (from_ : Nat) (tx : Bool) :
    (State.wakeSide s l from_ tx).kept = s.kept := by simp only [State.wakeSide]; (repeat' split) <;> simp
@[simp] theorem State.setSide_kept (s : State) (l : Nat) (st : Nat) (tx : Bool) :
    (State.setSide s l st tx).kept = s.kept := by simp only [State.setSide]; (repeat' split) <;> simp
@[simp] theorem judgePllcfg_keeps (i : Issue) (s : State) :
    (judgePllcfg i s).keeps s := by unfold judgePllcfg Judged.keeps; (try dsimp only); refine ⟨?_, fun a => ?_⟩ <;> (repeat' split) <;> simp [Verdict.keeps, apply_ite State.kept, foldl_kept, foldr_kept, foldl_kept1, foldl_kept2, State.each]
theorem execPllcfg_kept (i : Issue) (s : State) :
    ∃ t, (execPllcfg i s) = .next t ∧ t.kept = s.kept := ⟨_, rfl, State.issue_kept _ _ _ _ (by simp)⟩
@[simp] theorem State.laneTake_kept (s : State) (vs : List Int) (l : Nat) :
    (State.laneTake s vs l).kept = s.kept := by simp [State.laneTake, apply_ite State.kept, foldl_kept, foldr_kept, foldl_kept1, foldl_kept2, State.each]
@[simp] theorem State.laneConfigure_kept (s : State) (vs : List Int) (l : Nat) :
    (State.laneConfigure s vs l).kept = s.kept := by simp only [State.laneConfigure, State.each]; (repeat' split) <;> simp [apply_ite State.kept, foldl_kept, foldr_kept, foldl_kept1, foldl_kept2]
@[simp] theorem judgeLanecfg_keeps (i : Issue) (s : State) :
    (judgeLanecfg i s).keeps s := by unfold judgeLanecfg Judged.keeps; (try dsimp only); refine ⟨?_, fun a => ?_⟩ <;> (repeat' split) <;> simp [Verdict.keeps, apply_ite State.kept, foldl_kept, foldr_kept, foldl_kept1, foldl_kept2, State.each]
theorem execLanecfg_kept (i : Issue) (s : State) :
    ∃ t, (execLanecfg i s) = .next t ∧ t.kept = s.kept := ⟨_, rfl, State.issue_kept _ _ _ _ (by simp)⟩
@[simp] theorem judgeLaneeq_keeps (i : Issue) (s : State) :
    (judgeLaneeq i s).keeps s := by unfold judgeLaneeq Judged.keeps; (try dsimp only); refine ⟨?_, fun a => ?_⟩ <;> (repeat' split) <;> simp [Verdict.keeps, apply_ite State.kept, foldl_kept, foldr_kept, foldl_kept1, foldl_kept2, State.each]
theorem execLaneeq_kept (i : Issue) (s : State) :
    ∃ t, (execLaneeq i s) = .next t ∧ t.kept = s.kept := ⟨_, rfl, State.issue_kept _ _ _ _ (by simp)⟩
@[simp] theorem judgeLanetrain_keeps (i : Issue) (s : State) :
    (judgeLanetrain i s).keeps s := by unfold judgeLanetrain Judged.keeps; (try dsimp only); refine ⟨?_, fun a => ?_⟩ <;> (repeat' split) <;> simp [Verdict.keeps, apply_ite State.kept, foldl_kept, foldr_kept, foldl_kept1, foldl_kept2, State.each]
theorem execLanetrain_kept (i : Issue) (s : State) :
    ∃ t, (execLanetrain i s) = .next t ∧ t.kept = s.kept := ⟨_, rfl, State.issue_kept _ _ _ _ (by simp)⟩
@[simp] theorem judgeLanepwr_keeps (i : Issue) (s : State) :
    (judgeLanepwr i s).keeps s := by unfold judgeLanepwr Judged.keeps; (try dsimp only); refine ⟨?_, fun a => ?_⟩ <;> (repeat' split) <;> simp [Verdict.keeps, apply_ite State.kept, foldl_kept, foldr_kept, foldl_kept1, foldl_kept2, State.each]
theorem execLanepwr_kept (i : Issue) (s : State) :
    ∃ t, (execLanepwr i s) = .next t ∧ t.kept = s.kept := ⟨_, rfl, State.issue_kept _ _ _ _ (by simp)⟩
@[simp] theorem State.inject_kept (s : State) (l : Nat) :
    (State.inject s l).kept = s.kept := by unfold State.inject; split <;> simp
@[simp] theorem judgeLanetest_keeps (i : Issue) (s : State) :
    (judgeLanetest i s).keeps s := by unfold judgeLanetest Judged.keeps; (try dsimp only); refine ⟨?_, fun a => ?_⟩ <;> (repeat' split) <;> simp [Verdict.keeps, apply_ite State.kept, foldl_kept, foldr_kept, foldl_kept1, foldl_kept2, State.each]
theorem execLanetest_kept (i : Issue) (s : State) :
    ∃ t, (execLanetest i s) = .next t ∧ t.kept = s.kept := ⟨_, rfl, State.issue_kept _ _ _ _ (by simp)⟩
@[simp] theorem State.rateMoved_kept (fuel t key : Nat) (s : State) : (State.rateMoved fuel t key s).kept = s.kept := by
  induction fuel generalizing t key s with
  | zero => rfl
  | succ n ih =>
    unfold State.rateMoved
    refine foldl_kept _ (fun a d => ?_) _ _
    dsimp only
    rw [foldl_kept _ (fun x r => ih _ _ _)]
    split <;> simp
@[simp] theorem State.tribRate_kept (s : State) (t : Nat) (cls : Nat) (m1001 : Nat) :
    (State.tribRate s t cls m1001).kept = s.kept := by simp [State.tribRate, apply_ite State.kept, foldl_kept, foldr_kept, foldl_kept1, foldl_kept2, State.each]
@[simp] theorem State.sdiDetected_kept (s : State) (l : Nat) (code : Nat) :
    (State.sdiDetected s l code).kept = s.kept := by simp [State.sdiDetected, apply_ite State.kept, foldl_kept, foldr_kept, foldl_kept1, foldl_kept2, State.each]
@[simp] theorem State.laneFault_kept (s : State) (l : Nat) (j : Nat) :
    (State.laneFault s l j).kept = s.kept := by simp [State.laneFault]
@[simp] theorem State.laneRecovery_kept (s : State) (l : Nat) :
    (State.laneRecovery s l).kept = s.kept := by simp [State.laneRecovery]
@[simp] theorem State.trainOnSignal_kept (s : State) (l : Nat) :
    (State.trainOnSignal s l).kept = s.kept := by unfold State.trainOnSignal; split <;> simp
theorem execLaneLos_kept (dt : Nat) (l : Nat) (bps : Option Nat) (s0 : State) :
    ∃ t, (execLaneLos dt l bps s0) = .next t ∧ t.kept = s0.kept := ⟨_, rfl, by (repeat' split) <;> simp⟩
theorem execCdrLoss_kept (dt : Nat) (l : Nat) (lost : Bool) (s0 : State) :
    ∃ t, (execCdrLoss dt l lost s0) = .next t ∧ t.kept = s0.kept := ⟨_, rfl, by (repeat' split) <;> simp⟩
theorem execDegrade_kept (dt : Nat) (l : Nat) (on : Bool) (s0 : State) :
    ∃ t, (execDegrade dt l on s0) = .next t ∧ t.kept = s0.kept := ⟨_, rfl, by (repeat' split) <;> simp⟩
theorem execPllLoss_kept (dt : Nat) (a : Nat) (pll : Nat) (s0 : State) :
    ∃ t, (execPllLoss dt a pll s0) = .next t ∧ t.kept = s0.kept := ⟨_, rfl, by simp [apply_ite State.kept, foldl_kept, foldr_kept, foldl_kept1, foldl_kept2, State.each]⟩
theorem execPllLock_kept (dt : Nat) (a : Nat) (pll : Nat) (s0 : State) :
    ∃ t, (execPllLock dt a pll s0) = .next t ∧ t.kept = s0.kept := ⟨_, rfl, by simp [apply_ite State.kept, foldl_kept, foldr_kept, foldl_kept1, foldl_kept2, State.each]⟩
theorem execTrainingDone_kept (dt : Nat) (l : Nat) (ok : Bool) (ffe : BitVec 31) (ctle : BitVec 6) (snr : BitVec 10) (s0 : State) :
    ∃ t, (execTrainingDone dt l ok ffe ctle snr s0) = .next t ∧ t.kept = s0.kept := ⟨_, rfl, by (repeat' split) <;> simp⟩
theorem execRetrainTimer_kept (dt : Nat) (l : Nat) (s0 : State) :
    ∃ t, (execRetrainTimer dt l s0) = .next t ∧ t.kept = s0.kept := ⟨_, rfl, by split <;> simp⟩
theorem execLaneWakeDone_kept (dt : Nat) (l : Nat) (side : Nat) (s0 : State) :
    ∃ t, (execLaneWakeDone dt l side s0) = .next t ∧ t.kept = s0.kept := ⟨_, rfl, by simp [apply_ite State.kept, foldl_kept, foldr_kept, foldl_kept1, foldl_kept2, State.each]⟩
theorem execErrorInject_kept (dt : Nat) (l : Nat) (s0 : State) :
    ∃ t, (execErrorInject dt l s0) = .next t ∧ t.kept = s0.kept := ⟨_, rfl, by split <;> simp⟩
@[simp] theorem State.tribTake_kept (s : State) (vs : List Int) (t : Nat) :
    (State.tribTake s vs t).kept = s.kept := by simp only [State.tribTake]; (repeat' split) <;> simp
@[simp] theorem judgeTribcfg_keeps (i : Issue) (s : State) :
    (judgeTribcfg i s).keeps s := by unfold judgeTribcfg Judged.keeps; (try dsimp only); refine ⟨?_, fun a => ?_⟩ <;> (repeat' split) <;> simp [Verdict.keeps, apply_ite State.kept, foldl_kept, foldr_kept, foldl_kept1, foldl_kept2, State.each]
theorem execTribcfg_kept (i : Issue) (s : State) :
    ∃ t, (execTribcfg i s) = .next t ∧ t.kept = s.kept := ⟨_, rfl, State.issue_kept _ _ _ _ (by simp)⟩

/-! ### LanePath -/

@[simp] theorem State.toLevels_kept (s : State) (l : Nat) (bits : List Bool) :
    (State.toLevels s l bits).2.kept = s.kept := by simp [State.toLevels]
@[simp] theorem State.fromLevels_kept (s : State) (l : Nat) (levels : List Nat) :
    (State.fromLevels s l levels).2.kept = s.kept := by simp [State.fromLevels]
@[simp] theorem State.genBits_kept (s : State) (l : Nat) (n : Nat) :
    (State.genBits s l n).2.kept = s.kept := by simp [State.genBits]
@[simp] theorem State.laneSend_kept (s : State) (l : Nat) (pcs : List Bool) :
    (State.laneSend s l pcs).1.kept = s.kept := by simp only [State.laneSend]; (repeat' split) <;> simp
@[simp] theorem State.laneReceive_kept (s : State) (l : Nat) (levels : List Nat) :
    (State.laneReceive s l levels).2.kept = s.kept := by simp only [State.laneReceive]; (repeat' split) <;> simp
@[simp] theorem State.prbsCheck_kept (s : State) (l : Nat) (bits : List Bool) :
    (State.prbsCheck s l bits).kept = s.kept := by unfold State.prbsCheck; split <;> simp
theorem laneSend_some (s s1 : State) (l : Nat) (b : List Bool) (o) (h : s.laneSend l b = (s1, o)) : s1.kept = s.kept := by
  have := State.laneSend_kept s l b; rw [h] at this; exact this

theorem execPrbsLock_kept (dt l : Nat) (levels : List Nat) (s0 : State) : ∃ t, execPrbsLock dt l levels s0 = .next t ∧ t.kept = s0.kept := by
  refine ⟨_, rfl, ifUp_via _ _ _ _ (by simp) ?_⟩
  dsimp only
  split
  · simp
  split
  · split
    · simp
    · split <;> rename_i h <;> simp [laneSend_some _ _ _ _ _ h]
  · (repeat' split) <;> simp

/-! ### Haywain -/

@[simp] theorem State.rateWord_kept (s : State) (l : Nat) (slot : Nat) (h : Nat) :
    (State.rateWord s l slot h).kept = s.kept := by simp only [State.rateWord]; (repeat' split) <;> simp
@[simp] theorem State.slotStatus_kept (s : State) (l : Nat) (slot : Nat) (f : Nat) :
    (State.slotStatus s l slot f).kept = s.kept := by unfold State.slotStatus; (try dsimp only); (repeat' split) <;> simp (disch := first | decide | (simp only [nvSentAt, nvAttempts, nvOtp]; omega) | simp_all) [apply_ite State.kept, foldl_kept, State.each]
@[simp] theorem State.backChannel_kept (s : State) (l : Nat) (m : Nat) :
    (State.backChannel s l m).kept = s.kept := by simp only [State.backChannel]; (repeat' split) <;> simp
@[simp] theorem State.slotsLost_kept (s : State) (l : Nat) :
    (State.slotsLost s l).kept = s.kept := by simp [State.slotsLost]
@[simp] theorem State.frameStart_kept (s : State) (l : Nat) :
    (State.frameStart s l).kept = s.kept := by simp [State.frameStart, apply_ite State.kept, foldl_kept, foldr_kept, foldl_kept1, foldl_kept2, State.each]
@[simp] theorem State.frameFirst_kept (s : State) (l : Nat) :
    (State.frameFirst s l).kept = s.kept := by simp [State.frameFirst, apply_ite State.kept, foldl_kept, foldr_kept, foldl_kept1, foldl_kept2, State.each]
@[simp] theorem State.deliver_kept (s : State) (t : Nat) (words : List Nat) :
    (State.deliver s t words).kept = s.kept := by simp only [State.deliver]; (repeat' split) <;> simp
@[simp] theorem State.dealBeats_kept (s : State) (l : Nat) (c : Nat) (bad : Bool) (syms : List Nat) :
    (State.dealBeats s l c bad syms).kept = s.kept := by simp [State.dealBeats, apply_ite State.kept, foldl_kept, foldr_kept, foldl_kept1, foldl_kept2, State.each]
@[simp] theorem State.cwHunt_kept (s : State) (l : Nat) (outcome : Nat) :
    (State.cwHunt s l outcome).kept = s.kept := by simp only [State.cwHunt]; (repeat' split) <;> simp
@[simp] theorem State.frameHunt_kept (s : State) (l : Nat) (h : Nat) (bad : Bool) :
    (State.frameHunt s l h bad).kept = s.kept := by simp only [State.frameHunt]; (repeat' split) <;> simp
@[simp] theorem State.frameHead_kept (s : State) (l : Nat) (h : Nat) :
    (State.frameHead s l h).kept = s.kept := by simp only [State.frameHead]; (repeat' split) <;> simp
@[simp] theorem State.cwHeader_kept (s : State) (l : Nat) (c : Nat) (h : Nat) (bad : Bool) :
    (State.cwHeader s l c h bad).kept = s.kept := by simp only [State.cwHeader]; (repeat' split) <;> simp
@[simp] theorem State.cwLocked_kept (s : State) (l : Nat) (h : Nat) (bad : Bool) (syms : List Nat) :
    (State.cwLocked s l h bad syms).kept = s.kept := by simp only [State.cwLocked]; (repeat' split) <;> simp
@[simp] theorem State.countCodeword_kept (s : State) (l n : Nat) (bad : Bool) :
    (State.countCodeword s l n bad).kept = s.kept := by simp only [State.countCodeword]; split <;> simp
@[simp] theorem State.cwReceive_kept (s : State) (l : Nat) (bits : List Bool) (fixes : List (Nat × Nat)) :
    (State.cwReceive s l bits fixes).kept = s.kept := by simp only [State.cwReceive]; (repeat' split) <;> simp
@[simp] theorem State.ethernetCodeword_kept (s : State) (l : Nat) (cw : CodewordIn) :
    (State.ethernetCodeword s l cw).kept = s.kept := by simp only [State.ethernetCodeword]; (repeat' split) <;> simp
theorem execHaywainCodewordRx_kept (dt : Nat) (l : Nat) (cw : CodewordIn) (s0 : State) :
    ∃ t, (execHaywainCodewordRx dt l cw s0) = .next t ∧ t.kept = s0.kept := ⟨_, rfl, by simp [apply_ite State.kept, foldl_kept, foldr_kept, foldl_kept1, foldl_kept2, State.each]⟩
@[simp] theorem State.txSlot_kept (s : State) (P : Nat) (slot : Option Nat) :
    (State.txSlot s P slot).2.kept = s.kept := by unfold State.txSlot; split <;> simp
@[simp] theorem State.pushTrib_kept (s : State) (t : Nat) (ws : List Nat) (dur : Nat) :
    (State.pushTrib s t ws dur).kept = s.kept := by simp [State.pushTrib]
@[simp] theorem State.sendCodeword_kept (s : State) (l : Nat) (msg : List Nat) : (State.sendCodeword s l msg).kept = s.kept := by
  unfold State.sendCodeword
  dsimp only
  split <;> rename_i h
  · exact laneSend_some _ _ _ _ _ h
  · split <;> simp [laneSend_some _ _ _ _ _ h]
@[simp] theorem State.txHaywain_kept (s : State) (l : Nat) : (State.txHaywain s l).kept = s.kept := by
  have h1 : ∀ (n : Nat) (fs : Nat), ((List.range n).foldl (fun (a : List SlotOut × State) (k : Nat) =>
      ((a.1 ++ [(a.2.txSlot fs (a.2.slotTrib l k)).1], (a.2.txSlot fs (a.2.slotTrib l k)).2) : List SlotOut × State)) ([], s)).2.kept = s.kept :=
    fun n fs => foldl_via2 _ _ (fun a k h => by simp [h]) _ _ rfl
  unfold State.txHaywain
  dsimp only
  refine foldl_via2 _ _ (fun a k h => by simp [h]) _ _ ?_
  simp only [State.setLane_kept]
  split <;> simp [h1]
theorem execHaywainFrameTx_kept (dt l : Nat) (s0 : State) : ∃ t, execHaywainFrameTx dt l s0 = .next t ∧ t.kept = s0.kept := by
  refine ⟨_, rfl, ifUp_via _ _ _ _ (by simp) ?_⟩
  split <;> simp
@[simp] theorem State.sdiWords_kept (s : State) (l : Nat) (bits : List Bool) :
    (State.sdiWords s l bits).kept = s.kept := by simp [State.sdiWords, apply_ite State.kept, foldl_kept, foldr_kept, foldl_kept1, foldl_kept2, State.each]
@[simp] theorem State.sdiAlign_kept (s : State) (l : Nat) :
    (State.sdiAlign s l).kept = s.kept := by simp [State.sdiAlign, apply_ite State.kept, foldl_kept, foldr_kept, foldl_kept1, foldl_kept2, State.each]
@[simp] theorem State.sdiTrs_kept (s : State) (l : Nat) (all : List Bool) (start : Nat) (e : Nat × Nat × Bool) :
    (State.sdiTrs s l all start e).2.kept = s.kept := by simp only [State.sdiTrs, State.each]; (repeat' split) <;> simp [apply_ite State.kept, foldl_kept, foldr_kept, foldl_kept1, foldl_kept2]
@[simp] theorem State.sdiReceive_kept (s : State) (l : Nat) (levels : List Bool) :
    (State.sdiReceive s l levels).kept = s.kept := by simp [State.sdiReceive, apply_ite State.kept, foldl_kept, foldr_kept, foldl_kept1, foldl_kept2, State.each]
theorem execSdiTrsRx_kept (dt : Nat) (l : Nat) (levels : List Nat) (s0 : State) :
    ∃ t, (execSdiTrsRx dt l levels s0) = .next t ∧ t.kept = s0.kept := ⟨_, rfl, by split <;> simp⟩
@[simp] theorem State.sdiSend_kept (s : State) (t : Nat) (l : Nat) (ws : List Nat) : (State.sdiSend s t l ws).kept = s.kept := by
  unfold State.sdiSend
  dsimp only
  split <;> rename_i h <;> have k := laneSend_some _ _ _ _ _ h <;> simp only [State.setBuf_kept] at k
  · exact k
  · split <;> simp [k]
@[simp] theorem State.sendTrib_kept (s : State) (d : Nat) (ws : List Nat) (lerr : Bool) (dur : Nat) : (State.sendTrib s d ws lerr dur).kept = s.kept := by
  unfold State.sendTrib
  dsimp only
  split
  · rfl
  · split <;> simp <;> split <;> simp
theorem execTxSquelch_kept (dt : Nat) (d : Nat) (s0 : State) :
    ∃ t, (execTxSquelch dt d s0) = .next t ∧ t.kept = s0.kept := ⟨_, rfl, by split <;> simp⟩
theorem execRateDeviation_kept (dt t : Nat) (s0 : State) : ∃ r, execRateDeviation dt t s0 = .next r ∧ r.kept = s0.kept := by
  refine ⟨_, rfl, ifUp_via _ _ _ _ (by simp) ?_⟩
  split
  · simp
  · dsimp only
    (repeat' split) <;> simp

/-! ### Emit -/

@[simp] theorem State.seatLine_kept (s : State) (seat : Nat) (str : Nat) (line : Nat) (T : Nat) (time : Nat) :
    (State.seatLine s seat str line T time).2.kept = s.kept := by unfold State.seatLine; split <;> simp
@[simp] theorem State.shownLine_kept (s : State) (d : Nat) (shown : Nat × Nat) (line : Nat) (time : Nat) :
    (State.shownLine s d shown line time).2.kept = s.kept := by simp only [State.shownLine]; (repeat' split) <;> simp
@[simp] theorem State.timedLine_kept (s : State) (d : Nat) (line : Nat) (time : Nat) :
    (State.timedLine s d line time).2.kept = s.kept := by simp only [State.timedLine]; (repeat' split) <;> simp
@[simp] theorem State.followLine_kept (s : State) (d : Nat) (l : LineOut) :
    (State.followLine s d l).2.kept = s.kept := by simp only [State.followLine]; (repeat' split) <;> simp

/-! ### Pool -/

@[simp] theorem State.poolPut_kept (s : State) (a : Nat) (m : Int) (x : Int) :
    (State.poolPut s a m x).kept = s.kept := by simp [State.poolPut]
@[simp] theorem State.poolWrite_kept (s : State) (f : Feed) (m : Int) (vals : List (Option Int)) :
    (State.poolWrite s f m vals).kept = s.kept := by simp only [State.poolWrite, State.each]; (repeat' split) <;> (try simp) <;> (repeat' (first | (apply foldl_kept; intros) | (apply foldr_kept; intros) | split)) <;> simp
@[simp] theorem State.measureRate_kept (s : State) (f : Feed) (tau : Int) :
    (State.measureRate s f tau).kept = s.kept := by simp only [State.measureRate]; (repeat' split) <;> simp
@[simp] theorem State.tapOne_kept (s : State) (f : Feed) (tau : Int) (vals : List (Option Int)) (force : Option Nat) :
    (State.tapOne s f tau vals force).kept = s.kept := by simp only [State.tapOne]; (repeat' split) <;> simp
@[simp] theorem State.asrcFill_kept (s : State) (f : Feed) (tau : Int) :
    (State.asrcFill s f tau).kept = s.kept := by simp [State.asrcFill, apply_ite State.kept, foldl_kept, foldr_kept, foldl_kept1, foldl_kept2, State.each]
@[simp] theorem State.tapSource_kept (s : State) (f : Feed) (tau : Int) (vals : List (Option Int)) :
    (State.tapSource s f tau vals).kept = s.kept := by simp only [State.tapSource]; (repeat' split) <;> simp
@[simp] theorem State.flushSource_kept (s : State) (f : Feed) (v : Option Nat) :
    (State.flushSource s f v).kept = s.kept := by simp only [State.flushSource, State.each]; (repeat' split) <;> simp [apply_ite State.kept, foldl_kept, foldr_kept, foldl_kept1, foldl_kept2]
@[simp] theorem State.sendSlips_kept (s : State) :
    (State.sendSlips s).kept = s.kept := by simp [State.sendSlips, apply_ite State.kept, foldl_kept, foldr_kept, foldl_kept1, foldl_kept2, State.each]
theorem execAudioSampleTap_kept (dt : Nat) (k : Nat) (a : AudioIn) (s0 : State) :
    ∃ t, (execAudioSampleTap dt k a s0) = .next t ∧ t.kept = s0.kept := ⟨_, rfl, by (repeat' split) <;> simp⟩
@[simp] theorem judgeDeembcfg_keeps (i : Issue) (s : State) :
    (judgeDeembcfg i s).keeps s := by simp [judgeDeembcfg, Judged.keeps, Verdict.keeps]
theorem execDeembcfg_kept (i : Issue) (s : State) :
    ∃ t, (execDeembcfg i s) = .next t ∧ t.kept = s.kept := ⟨_, rfl, State.issue_kept _ _ _ _ (by simp)⟩
@[simp] theorem State.commitDeembcfg_kept (s : State) (k : Nat) (vs : List Int) :
    (State.commitDeembcfg s k vs).kept = s.kept := by simp [State.commitDeembcfg]
@[simp] theorem judgeTonecfg_keeps (i : Issue) (s : State) :
    (judgeTonecfg i s).keeps s := by simp [judgeTonecfg, Judged.keeps, Verdict.keeps]
theorem execTonecfg_kept (i : Issue) (s : State) :
    ∃ t, (execTonecfg i s) = .next t ∧ t.kept = s.kept := ⟨_, rfl, State.issue_kept _ _ _ _ (by simp)⟩
@[simp] theorem State.commitTonecfg_kept (s : State) (g : Nat) (vs : List Int) :
    (State.commitTonecfg s g vs).kept = s.kept := by simp [State.commitTonecfg]
@[simp] theorem judgeAfvcfg_keeps (i : Issue) (s : State) :
    (judgeAfvcfg i s).keeps s := by simp [judgeAfvcfg, Judged.keeps, Verdict.keeps]
theorem execAfvcfg_kept (i : Issue) (s : State) :
    ∃ t, (execAfvcfg i s) = .next t ∧ t.kept = s.kept := ⟨_, rfl, State.issue_kept _ _ _ _ (by simp)⟩
@[simp] theorem State.commitAfvcfg_kept (s : State) (k : Nat) (vs : List Int) :
    (State.commitAfvcfg s k vs).kept = s.kept := by simp [State.commitAfvcfg]

/-! ### Barn -/

@[simp] theorem State.chanTouch_kept (s : State) (c : Nat) :
    (State.chanTouch s c).kept = s.kept := by simp [State.chanTouch]
@[simp] theorem State.barnError_kept (s : State) (client : Nat) (cause : Nat) (c : Nat) :
    (State.barnError s client cause c).kept = s.kept := by simp only [State.barnError]; (repeat' split) <;> simp
@[simp] theorem State.faultAccess_kept (s : State) (client : Nat) (cause : Nat) (c : Nat) :
    (State.faultAccess s client cause c).kept = s.kept := by unfold State.faultAccess; split <;> simp
@[simp] theorem State.barnRead_kept (s : State) (master : Nat) (o : Nat) :
    (State.barnRead s master o).2.kept = s.kept := by simp only [State.barnRead]; (repeat' split) <;> simp
@[simp] theorem State.barnStore_rel (k0) (s : State) (o : Nat) (w : Word) (h0 : keptRel k0 s.kept) :
    keptRel k0 (s.barnStore o w).kept := by
  unfold State.barnStore
  dsimp only
  split
  · exact h0
  · exact rel_barn k0 s _ h0 rfl rfl rfl rfl fun h => barnPutWord_wf _ _ _ h
@[simp] theorem State.barnWrite_rel (k0) (s : State) (o : Nat) (w : Word) (h0 : keptRel k0 s.kept) :
    keptRel k0 (State.barnWrite s o w).kept := by unfold State.barnWrite; (try dsimp only); (repeat' split) <;> simp [h0, apply_ite State.kept, apply_ite (keptRel _), foldl_kept, foldr_kept, foldl_kept1, foldl_kept2, foldl_rel, foldl_rel1, foldl_rel2, State.each]
@[simp] theorem State.barnStores_rel (k0) (s : State) (o : Nat) (l : List Word) (h0 : keptRel k0 s.kept) :
    keptRel k0 (s.barnStores o l).kept := by
  induction l generalizing s o with
  | nil => exact h0
  | cons w t ih => exact ih _ _ (State.barnStore_rel k0 s o w h0)
@[simp] theorem State.barnWrites_rel (k0) (s : State) (o : Nat) (l : List Word) (h0 : keptRel k0 s.kept) :
    keptRel k0 (s.barnWrites o l).kept := by
  induction l generalizing s o with
  | nil => exact h0
  | cons w t ih => exact ih _ _ (State.barnWrite_rel k0 s o w h0)
@[simp] theorem State.countRefusal_kept (s : State) (c : Option Nat) :
    (State.countRefusal s c).kept = s.kept := by unfold State.countRefusal; split <;> simp
@[simp] theorem State.setClaims_kept (s : State) (u : Nat) (new : List Claim) :
    (State.setClaims s u new).kept = s.kept := by simp [State.setClaims]

/-! ### Mix -/

@[simp] theorem State.finishSlot_kept (s : State) (f : Front) (zs : List Int) (least : Int) (gs : List (Nat × Int)) (ue : List Nat) :
    (State.finishSlot s f zs least gs ue).kept = s.kept := by
  unfold State.finishSlot
  extract_lets v n d fading keep hist endIx ch dead outs bad old all cut clip s1 s2 s3 s4 done s5 s6 s7 s8 ramping s9
  have h1 : s1.kept = s.kept := by simp only [s1]; simp
  have h2 : s2.kept = s.kept := by simp only [s2]; simp [h1]
  have h3 : s3.kept = s.kept := by simp only [s3]; rw [foldl_kept _ (by intros; simp), h2]
  have h4 : s4.kept = s.kept := by simp only [s4]; simp [h3]
  have h5 : s5.kept = s.kept := by
    simp only [s5]; rw [foldl_kept _ ?_, h4]
    intro a e; (try dsimp only); (repeat' split) <;> simp
  have h6 : s6.kept = s.kept := by
    simp only [s6]; rw [foldl_kept _ ?_, h5]
    intro a e; (repeat' split) <;> simp
  have h7 : s7.kept = s.kept := by simp only [s7]; (repeat' split) <;> simp [h6]
  have h8 : s8.kept = s.kept := by
    simp only [s8]; rw [foldl_kept _ ?_, h7]
    intro a e; (repeat' split) <;> simp
  have h9 : s9.kept = s.kept := by simp only [s9]; simp [h8]
  split
  · exact h9
  · simp [h9]
@[simp] theorem State.mixBlock_kept (s : State) (ue : List (Nat × Nat)) : (s.mixBlock ue).kept = s.kept := by
  unfold State.mixBlock
  extract_lets fronts all s1 load
  have h1 : s1.kept = s.kept := by
    simp only [s1]; exact foldl_kept _ (by intros; simp) _ _
  simp [h1]
@[simp] theorem judgeSheafset_keeps (i : Issue) (s : State) :
    (judgeSheafset i s).keeps s := by simp [judgeSheafset, Judged.keeps, Verdict.keeps]
theorem execSheafset_kept (i : Issue) (s : State) :
    ∃ t, (execSheafset i s) = .next t ∧ t.kept = s.kept := ⟨_, rfl, State.issue_kept _ _ _ _ (by simp)⟩
@[simp] theorem judgeSheafadd_keeps (i : Issue) (s : State) :
    (judgeSheafadd i s).keeps s := by simp [judgeSheafadd, Judged.keeps, Verdict.keeps]
theorem execSheafadd_kept (i : Issue) (s : State) :
    ∃ t, (execSheafadd i s) = .next t ∧ t.kept = s.kept := ⟨_, rfl, State.issue_kept _ _ _ _ (by simp)⟩
@[simp] theorem judgeSheafclr_keeps (i : Issue) (s : State) :
    (judgeSheafclr i s).keeps s := by simp [judgeSheafclr, Judged.keeps, Verdict.keeps]
theorem execSheafclr_kept (i : Issue) (s : State) :
    ∃ t, (execSheafclr i s) = .next t ∧ t.kept = s.kept := ⟨_, rfl, State.issue_kept _ _ _ _ (by simp)⟩
@[simp] theorem State.commitEntry_kept (s : State) (sl : Nat) (e : Nat) (w : Nat) (n : Int) :
    (State.commitEntry s sl e w n).kept = s.kept := by simp [State.commitEntry, apply_ite State.kept, foldl_kept, foldr_kept, foldl_kept1, foldl_kept2, State.each]
@[simp] theorem State.commitSheafclr_kept (s : State) (sl : Nat) (e : Nat) (n : Int) :
    (State.commitSheafclr s sl e n).kept = s.kept := by simp [State.commitSheafclr]
@[simp] theorem judgeSlotcfg_keeps (i : Issue) (s : State) :
    (judgeSlotcfg i s).keeps s := by simp [judgeSlotcfg, Judged.keeps, Verdict.keeps]
theorem execSlotcfg_kept (i : Issue) (s : State) :
    ∃ t, (execSlotcfg i s) = .next t ∧ t.kept = s.kept := ⟨_, rfl, State.issue_kept _ _ _ _ (by simp)⟩
@[simp] theorem State.commitSlotcfg_kept (s : State) (sl : Nat) (vs : List Int) (n : Int) :
    (State.commitSlotcfg s sl vs n).kept = s.kept := by simp [State.commitSlotcfg, apply_ite State.kept, foldl_kept, foldr_kept, foldl_kept1, foldl_kept2, State.each]
@[simp] theorem judgeRampcfg_keeps (i : Issue) (s : State) :
    (judgeRampcfg i s).keeps s := by unfold judgeRampcfg Judged.keeps; dsimp only; refine ⟨?_, fun a => ?_⟩ <;> (repeat' split) <;> simp [Verdict.keeps, apply_ite State.kept, foldl_kept, foldr_kept, foldl_kept1, foldl_kept2, State.each]
theorem execRampcfg_kept (i : Issue) (s : State) :
    ∃ t, (execRampcfg i s) = .next t ∧ t.kept = s.kept := ⟨_, rfl, State.issue_kept _ _ _ _ (by simp)⟩
@[simp] theorem judgeLimcfg_keeps (i : Issue) (s : State) :
    (judgeLimcfg i s).keeps s := by simp [judgeLimcfg, Judged.keeps, Verdict.keeps]
theorem execLimcfg_kept (i : Issue) (s : State) :
    ∃ t, (execLimcfg i s) = .next t ∧ t.kept = s.kept := ⟨_, rfl, State.issue_kept _ _ _ _ (by simp)⟩
@[simp] theorem State.commitLimcfg_kept (s : State) (sl : Nat) (vs : List Int) (n : Int) :
    (State.commitLimcfg s sl vs n).kept = s.kept := by simp [State.commitLimcfg]
@[simp] theorem judgeCompcfg_keeps (i : Issue) (s : State) :
    (judgeCompcfg i s).keeps s := by simp [judgeCompcfg, Judged.keeps, Verdict.keeps]
theorem execCompcfg_kept (i : Issue) (s : State) :
    ∃ t, (execCompcfg i s) = .next t ∧ t.kept = s.kept := ⟨_, rfl, State.issue_kept _ _ _ _ (by simp)⟩
@[simp] theorem State.commitCompcfg_kept (s : State) (c : Nat) (vs : List Int) (n : Int) :
    (State.commitCompcfg s c vs n).kept = s.kept := by simp only [State.commitCompcfg]; (repeat' split) <;> simp
@[simp] theorem judgeDelaycfg_keeps (i : Issue) (s : State) :
    (judgeDelaycfg i s).keeps s := by simp [judgeDelaycfg, Judged.keeps, Verdict.keeps]
theorem execDelaycfg_kept (i : Issue) (s : State) :
    ∃ t, (execDelaycfg i s) = .next t ∧ t.kept = s.kept := ⟨_, rfl, State.issue_kept _ _ _ _ (by simp)⟩
@[simp] theorem State.commitDelaycfg_kept (s : State) (sl : Nat) (vs : List Int) (n : Int) :
    (State.commitDelaycfg s sl vs n).kept = s.kept := by simp only [State.commitDelaycfg]; (repeat' split) <;> simp
@[simp] theorem judgeCscfg_keeps (i : Issue) (s : State) :
    (judgeCscfg i s).keeps s := by simp [judgeCscfg, Judged.keeps, Verdict.keeps]
theorem execCscfg_kept (i : Issue) (s : State) :
    ∃ t, (execCscfg i s) = .next t ∧ t.kept = s.kept := ⟨_, rfl, State.issue_kept _ _ _ _ (by simp)⟩
@[simp] theorem State.commitCscfg_kept (s : State) (sl : Nat) (vs : List Int) (n : Int) :
    (State.commitCscfg s sl vs n).kept = s.kept := by simp [State.commitCscfg]
@[simp] theorem judgeEmbcfg_keeps (i : Issue) (s : State) :
    (judgeEmbcfg i s).keeps s := by simp [judgeEmbcfg, Judged.keeps, Verdict.keeps]
theorem execEmbcfg_kept (i : Issue) (s : State) :
    ∃ t, (execEmbcfg i s) = .next t ∧ t.kept = s.kept := ⟨_, rfl, State.issue_kept _ _ _ _ (by simp)⟩
@[simp] theorem State.commitEmbcfg_kept (s : State) (d : Nat) (vs : List Int) :
    (State.commitEmbcfg s d vs).kept = s.kept := by simp [State.commitEmbcfg]

/-! ### Capture -/

@[simp] theorem State.setCaught_kept (s : State) (u : Nat) (l : List SeatLine) :
    (State.setCaught s u l).kept = s.kept := by simp [State.setCaught]
@[simp] theorem State.freeCodes_kept (s : State) (bits : Nat) (n : Nat) :
    (State.freeCodes s bits n).2.kept = s.kept := by simp [State.freeCodes, apply_ite State.kept, foldl_kept, foldr_kept, foldl_kept1, foldl_kept2, State.each]
@[simp] theorem State.rowsOfLine_kept (s : State) (id : Nat) (pay : Payload) (ws : List Nat) :
    (State.rowsOfLine s id pay ws).2.kept = s.kept := by simp only [State.rowsOfLine, State.each]; (repeat' split) <;> simp [apply_ite State.kept, foldl_kept, foldr_kept, foldl_kept1, foldl_kept2]
@[simp] theorem State.placedRows_kept (s : State) (id : Nat) (pay : Payload) (ls : List SeatLine) :
    (State.placedRows s id pay ls).2.kept = s.kept := by simp [State.placedRows, apply_ite State.kept, foldl_kept, foldr_kept, foldl_kept1, foldl_kept2, State.each]

/-! ### Granary -/

@[simp] theorem judgeGrancfg_keeps (i : Issue) (s : State) :
    (judgeGrancfg i s).keeps s := by simp [judgeGrancfg, Judged.keeps, Verdict.keeps]
theorem execGrancfg_kept (i : Issue) (s : State) :
    ∃ t, (execGrancfg i s) = .next t ∧ t.kept = s.kept := ⟨_, rfl, State.issue_kept _ _ _ _ (by simp)⟩
@[simp] theorem judgeSubcfg_keeps (i : Issue) (s : State) :
    (judgeSubcfg i s).keeps s := by simp [judgeSubcfg, Judged.keeps, Verdict.keeps]
theorem execSubcfg_kept (i : Issue) (s : State) :
    ∃ t, (execSubcfg i s) = .next t ∧ t.kept = s.kept := ⟨_, rfl, State.issue_kept _ _ _ _ (by simp)⟩
@[simp] theorem State.followOutputs_kept (s : State) (sl : Nat) (j : Nat) (out : Int) :
    (State.followOutputs s sl j out).kept = s.kept := by simp [State.followOutputs, apply_ite State.kept, foldl_kept, foldr_kept, foldl_kept1, foldl_kept2, State.each]
@[simp] theorem State.subEnter_kept (s : State) (sl : Nat) (j : Nat) (st : Int) (code : Nat) :
    (State.subEnter s sl j st code).kept = s.kept := by simp only [State.subEnter]; (repeat' split) <;> simp
@[simp] theorem State.dropPicts_kept (s : State) (u : Nat) (keep : Nat → Bool) :
    (State.dropPicts s u keep).kept = s.kept := by simp [State.dropPicts]
@[simp] theorem State.subClear_kept (s : State) (sl : Nat) (j : Nat) :
    (State.subClear s sl j).kept = s.kept := by simp [State.subClear]
@[simp] theorem State.slotReclaim_kept (s : State) (sl : Nat) :
    (State.slotReclaim s sl).kept = s.kept := by simp only [State.slotReclaim]; (repeat' split) <;> simp
@[simp] theorem State.commitGrancfg_kept (s : State) (sl : Nat) (vs : List Int) :
    (State.commitGrancfg s sl vs).2.kept = s.kept := by simp only [State.commitGrancfg, State.each]; (repeat' split) <;> simp [apply_ite State.kept, foldl_kept, foldr_kept, foldl_kept1, foldl_kept2]
@[simp] theorem State.commitSubcfg_kept (s : State) (sl : Nat) (j : Nat) (vs : List Int) :
    (State.commitSubcfg s sl j vs).2.kept = s.kept := by simp only [State.commitSubcfg]; (repeat' split) <;> simp
@[simp] theorem State.sendPict_kept (s : State) (sl : Nat) (j : Nat) (part : Nat) (n : Int) :
    (State.sendPict s sl j part n).kept = s.kept := by simp only [State.sendPict]; (repeat' split) <;> simp
@[simp] theorem State.sendPicts_kept (s : State) (p : Nat) (n : Int) :
    (State.sendPicts s p n).kept = s.kept := by simp [State.sendPicts, apply_ite State.kept, foldl_kept, foldr_kept, foldl_kept1, foldl_kept2, State.each]
@[simp] theorem State.slipFrame_kept (s : State) (sl : Nat) (stamp : Int) :
    (State.slipFrame s sl stamp).kept = s.kept := by simp only [State.slipFrame]; (repeat' split) <;> simp
@[simp] theorem State.cutFrame_kept (s : State) (sl : Nat) (j : Nat) :
    (State.cutFrame s sl j).kept = s.kept := by simp only [State.cutFrame]; (repeat' split) <;> simp
@[simp] theorem State.declareLost_kept (s : State) (sl : Nat) (j : Nat) (rate : Bool) :
    (State.declareLost s sl j rate).kept = s.kept := by simp [State.declareLost, apply_ite State.kept, foldl_kept, foldr_kept, foldl_kept1, foldl_kept2, State.each]
@[simp] theorem State.tryRun_kept (s : State) (sl : Nat) (j : Nat) :
    (State.tryRun s sl j).kept = s.kept := by simp [State.tryRun, apply_ite State.kept, foldl_kept, foldr_kept, foldl_kept1, foldl_kept2, State.each]
@[simp] theorem State.skewCheck_kept (s : State) (sl : Nat) (stamp : Int) :
    (State.skewCheck s sl stamp).kept = s.kept := by simp only [State.skewCheck]; (repeat' split) <;> simp
@[simp] theorem State.gathered_kept (s : State) (sl : Nat) (j : Nat) :
    (State.gathered s sl j).2.kept = s.kept := by simp [State.gathered]
@[simp] theorem State.storePict_kept (s : State) (sl : Nat) (j : Nat) (f : FrameIn) (n : Nat) :
    (State.storePict s sl j f n).kept = s.kept := by simp [State.storePict]
@[simp] theorem State.writeFrame_kept (s : State) (sl : Nat) (j : Nat) (f : FrameIn) :
    (State.writeFrame s sl j f).kept = s.kept := by simp [State.writeFrame, apply_ite State.kept, foldl_kept, foldr_kept, foldl_kept1, foldl_kept2, State.each]
@[simp] theorem State.takeUnit_kept (s : State) (sl : Nat) (j : Nat) :
    (State.takeUnit s sl j).kept = s.kept := by unfold State.takeUnit; split <;> simp
@[simp] theorem State.granLine_kept (s0 : State) (sl : Nat) (j : Nat) (src : Nat) (l : SeatLine) (cut : Bool) :
    (State.granLine s0 sl j src l cut).kept = s0.kept := by simp only [State.granLine]; (repeat' split) <;> simp
theorem execGranaryFrameComplete_kept (dt : Nat) (sl : Nat) (j : Nat) (s0 : State) :
    ∃ t, (execGranaryFrameComplete dt sl j s0) = .next t ∧ t.kept = s0.kept := ⟨_, rfl, by split <;> simp⟩
theorem execGranaryInputLoss_kept (dt : Nat) (sl : Nat) (j : Nat) (s0 : State) :
    ∃ t, (execGranaryInputLoss dt sl j s0) = .next t ∧ t.kept = s0.kept := ⟨_, rfl, by split <;> simp⟩
@[simp] theorem State.subDecide_kept (s : State) (sl : Nat) (j : Nat) (choice : Option Int) :
    (State.subDecide s sl j choice).kept = s.kept := by simp only [State.subDecide]; (repeat' split) <;> simp
theorem execGranaryDecision_kept (dt : Nat) (sl : Nat) (j : Nat) (ue : List Nat) (s0 : State) :
    ∃ t, (execGranaryDecision dt sl j ue s0) = .next t ∧ t.kept = s0.kept := ⟨_, rfl, by simp [apply_ite State.kept, foldl_kept, foldr_kept, foldl_kept1, foldl_kept2, State.each]⟩
@[simp] theorem judgeLutload_keeps (i : Issue) (s : State) :
    (judgeLutload i s).keeps s := by unfold judgeLutload Judged.keeps; dsimp only; refine ⟨?_, fun a => ?_⟩ <;> (repeat' split) <;> simp [Verdict.keeps, apply_ite State.kept, foldl_kept, foldr_kept, foldl_kept1, foldl_kept2, State.each]
theorem execLutload_kept (i : Issue) (s : State) :
    ∃ t, (execLutload i s) = .next t ∧ t.kept = s.kept := ⟨_, rfl, State.issue_kept _ _ _ _ (by simp)⟩
@[simp] theorem State.takeLut_kept (s : State) (u : Nat) (bank : Nat) (table : Option (List Nat)) :
    (State.takeLut s u bank table).2.kept = s.kept := by unfold State.takeLut; split <;> simp
@[simp] theorem State.endBg_kept (s : State) (pid : Nat) :
    (State.endBg s pid).kept = s.kept := by simp [State.endBg]
@[simp] theorem State.lutEnd_kept (s : State) (u : Nat) (bank : Nat) (pid : Nat) (off : Nat) :
    (State.lutEnd s u bank pid off).kept = s.kept := by unfold State.lutEnd; split <;> simp
theorem execLutloadDone_kept (dt : Nat) (sl : Nat) (bank : Nat) (s0 : State) :
    ∃ t, (execLutloadDone dt sl bank s0) = .next t ∧ t.kept = s0.kept := ⟨_, rfl, by split <;> simp⟩

/-! ### Plaza -/

@[simp] theorem State.putDesc_kept (s : State) (h : Nat) (k : Nat) (d : Desc) :
    (State.putDesc s h k d).kept = s.kept := by simp [State.putDesc]
@[simp] theorem judgeHeadset_keeps (i : Issue) (s : State) :
    (judgeHeadset i s).keeps s := by unfold judgeHeadset Judged.keeps; dsimp only; refine ⟨?_, fun a => ?_⟩ <;> (repeat' split) <;> simp [Verdict.keeps, apply_ite State.kept, foldl_kept, foldr_kept, foldl_kept1, foldl_kept2, State.each]
theorem execHeadset_kept (i : Issue) (s : State) :
    ∃ t, (execHeadset i s) = .next t ∧ t.kept = s.kept := ⟨_, rfl, State.issue_kept _ _ _ _ (by simp)⟩
@[simp] theorem judgeLayerset_keeps (i : Issue) (s : State) :
    (judgeLayerset i s).keeps s := by unfold judgeLayerset Judged.keeps; dsimp only; refine ⟨?_, fun a => ?_⟩ <;> (repeat' split) <;> simp [Verdict.keeps, apply_ite State.kept, foldl_kept, foldr_kept, foldl_kept1, foldl_kept2, State.each]
theorem execLayerset_kept (i : Issue) (s : State) :
    ∃ t, (execLayerset i s) = .next t ∧ t.kept = s.kept := ⟨_, rfl, State.issue_kept _ _ _ _ (by simp)⟩
@[simp] theorem State.presetScaler_kept (s : State) (d : Desc) :
    (State.presetScaler s d).kept = s.kept := by simp only [State.presetScaler]; (repeat' split) <;> simp
@[simp] theorem judgeHeadcommit_keeps (i : Issue) (s : State) :
    (judgeHeadcommit i s).keeps s := by simp [judgeHeadcommit, Judged.keeps, Verdict.keeps]
theorem execHeadcommit_kept (i : Issue) (s : State) :
    ∃ t, (execHeadcommit i s) = .next t ∧ t.kept = s.kept := ⟨_, rfl, State.issue_kept _ _ _ _ (by simp)⟩
@[simp] theorem State.refreshScaler_kept (s : State) (w : Nat) :
    (State.refreshScaler s w).kept = s.kept := by simp only [State.refreshScaler]; (repeat' split) <;> simp
@[simp] theorem State.commitLayer_kept (s : State) (h : Nat) (l : Nat) (d : Desc) :
    (State.commitLayer s h l d).kept = s.kept := by simp only [State.commitLayer]; (repeat' split) <;> simp
@[simp] theorem State.commitHeads_kept (s : State) (m : Nat) (n : Int) (vals : List Int) :
    (State.commitHeads s m n vals).kept = s.kept := by simp [State.commitHeads, apply_ite State.kept, foldl_kept, foldr_kept, foldl_kept1, foldl_kept2, State.each]

/-! ### Detect -/

@[simp] theorem State.countGaps_kept (s : State) :
    (State.countGaps s).kept = s.kept := by simp [State.countGaps, apply_ite State.kept, foldl_kept, foldr_kept, foldl_kept1, foldl_kept2, State.each]
@[simp] theorem judgeDetcfg_keeps (i : Issue) (s : State) :
    (judgeDetcfg i s).keeps s := by unfold judgeDetcfg Judged.keeps; dsimp only; refine ⟨?_, fun a => ?_⟩ <;> (repeat' split) <;> simp [Verdict.keeps, apply_ite State.kept, foldl_kept, foldr_kept, foldl_kept1, foldl_kept2, State.each]
theorem execDetcfg_kept (i : Issue) (s : State) :
    ∃ t, (execDetcfg i s) = .next t ∧ t.kept = s.kept := ⟨_, rfl, State.issue_kept _ _ _ _ (by simp)⟩
@[simp] theorem judgeDetassign_keeps (i : Issue) (s : State) :
    (judgeDetassign i s).keeps s := by simp [judgeDetassign, Judged.keeps, Verdict.keeps]
theorem execDetassign_kept (i : Issue) (s : State) :
    ∃ t, (execDetassign i s) = .next t ∧ t.kept = s.kept := ⟨_, rfl, State.issue_kept _ _ _ _ (by simp)⟩
@[simp] theorem State.detEvent_kept (s : State) (space : Nat) (ch : Nat) (kind : Nat) (on : Bool) :
    (State.detEvent s space ch kind on).kept = s.kept := by unfold State.detEvent; split <;> simp
@[simp] theorem State.feedMeters_kept (s : State) (space : Nat) (ch : Nat) (p : Int) :
    (State.feedMeters s space ch p).kept = s.kept := by simp [State.feedMeters, apply_ite State.kept, foldl_kept, foldr_kept, foldl_kept1, foldl_kept2, State.each]
theorem execBlockPeak_kept (dt : Nat) (space : Nat) (ch : Nat) (s0 : State) :
    ∃ t, (execBlockPeak dt space ch s0) = .next t ∧ t.kept = s0.kept := ⟨_, rfl, by simp only [State.each]; (repeat' split) <;> simp [apply_ite State.kept, foldl_kept, foldr_kept, foldl_kept1, foldl_kept2]⟩
theorem execDcSecond_kept (dt : Nat) (space : Nat) (ch : Nat) (s0 : State) :
    ∃ t, (execDcSecond dt space ch s0) = .next t ∧ t.kept = s0.kept := ⟨_, rfl, by simp only [State.each]; (repeat' split) <;> simp [apply_ite State.kept, foldl_kept, foldr_kept, foldl_kept1, foldl_kept2]⟩
theorem execClippedClear_kept (dt : Nat) (space : Nat) (ch : Nat) (s0 : State) :
    ∃ t, (execClippedClear dt space ch s0) = .next t ∧ t.kept = s0.kept := ⟨_, rfl, by split <;> simp⟩
@[simp] theorem State.loudBlock_kept (s : State) (m : Nat) :
    (State.loudBlock s m).kept = s.kept := by simp [State.loudBlock, apply_ite State.kept, foldl_kept, foldr_kept, foldl_kept1, foldl_kept2, State.each]
theorem execLoudnessReport_kept (dt : Nat) (meter : Nat) (s0 : State) :
    ∃ t, (execLoudnessReport dt meter s0) = .next t ∧ t.kept = s0.kept := ⟨_, rfl, by (repeat' split) <;> simp⟩
@[simp] theorem judgeLoudcfg_keeps (i : Issue) (s : State) :
    (judgeLoudcfg i s).keeps s := by unfold judgeLoudcfg Judged.keeps; dsimp only; refine ⟨?_, fun a => ?_⟩ <;> (repeat' split) <;> simp [Verdict.keeps, apply_ite State.kept, foldl_kept, foldr_kept, foldl_kept1, foldl_kept2, State.each]
theorem execLoudcfg_kept (i : Issue) (s : State) :
    ∃ t, (execLoudcfg i s) = .next t ∧ t.kept = s.kept := ⟨_, rfl, State.issue_kept _ _ _ _ (by simp)⟩
@[simp] theorem judgeLoudreset_keeps (i : Issue) (s : State) :
    (judgeLoudreset i s).keeps s := by simp [judgeLoudreset, Judged.keeps, Verdict.keeps]
theorem execLoudreset_kept (i : Issue) (s : State) :
    ∃ t, (execLoudreset i s) = .next t ∧ t.kept = s.kept := ⟨_, rfl, State.issue_kept _ _ _ _ (by simp)⟩
@[simp] theorem State.commitLoudreset_kept (s : State) (m : Nat) (n : Int) :
    (State.commitLoudreset s m n).kept = s.kept := by simp [State.commitLoudreset]
@[simp] theorem State.corrBlock_kept (s : State) (m : Nat) :
    (State.corrBlock s m).kept = s.kept := by simp [State.corrBlock]
theorem execCorrelationReport_kept (dt : Nat) (meter : Nat) (s0 : State) :
    ∃ t, (execCorrelationReport dt meter s0) = .next t ∧ t.kept = s0.kept := ⟨_, rfl, by (repeat' split) <;> simp⟩
@[simp] theorem judgeCorrcfg_keeps (i : Issue) (s : State) :
    (judgeCorrcfg i s).keeps s := by unfold judgeCorrcfg Judged.keeps; dsimp only; refine ⟨?_, fun a => ?_⟩ <;> (repeat' split) <;> simp [Verdict.keeps, apply_ite State.kept, foldl_kept, foldr_kept, foldl_kept1, foldl_kept2, State.each]
theorem execCorrcfg_kept (i : Issue) (s : State) :
    ∃ t, (execCorrcfg i s) = .next t ∧ t.kept = s.kept := ⟨_, rfl, State.issue_kept _ _ _ _ (by simp)⟩
@[simp] theorem State.meterBlock_kept (s : State) :
    (State.meterBlock s).kept = s.kept := by simp [State.meterBlock, apply_ite State.kept, foldl_kept, foldr_kept, foldl_kept1, foldl_kept2, State.each]
@[simp] theorem State.detectorClear_kept (s : State) :
    (State.detectorClear s).kept = s.kept := by simp [State.detectorClear]
@[simp] theorem judgeTapcfg_keeps (i : Issue) (s : State) :
    (judgeTapcfg i s).keeps s := by simp [judgeTapcfg, Judged.keeps, Verdict.keeps]
theorem execTapcfg_kept (i : Issue) (s : State) :
    ∃ t, (execTapcfg i s) = .next t ∧ t.kept = s.kept := ⟨_, rfl, State.issue_kept _ _ _ _ (by simp)⟩
@[simp] theorem State.commitTapcfg_kept (s : State) (n : Nat) (vs : List Int) :
    (State.commitTapcfg s n vs).kept = s.kept := by simp [State.commitTapcfg]
@[simp] theorem State.tapConfig_kept (s : State) (u : Nat) (b : Int) :
    (State.tapConfig s u b).2.kept = s.kept := by simp only [State.tapConfig]; (repeat' split) <;> simp
theorem execTapRecord_rel (dt tap : Nat) (s0 : State) : ∃ t, execTapRecord dt tap s0 = .next t ∧ ∀ k0, keptRel k0 s0.kept → keptRel k0 t.kept := by
  refine ⟨_, rfl, fun k0 h0 => ?_⟩
  have h1 : keptRel k0 (s0.after dt).kept := by simpa using h0
  generalize s0.after dt = s at h1
  dsimp only
  split
  · exact h1
  · split
    · simpa using h1
    · simp only [State.count_kept, State.wrs_kept]
      unfold State.tapStore
      dsimp only
      refine State.barnStores_rel _ _ _ _ (State.barnStores_rel _ _ _ _ ?_)
      rw [foldl_kept _ (by intros; simp)]
      simpa using h1

/-! ### Power -/

@[simp] theorem State.powerOff_kept (s : State) (u : Nat) :
    (State.powerOff s u).kept = s.kept := by simp only [State.powerOff]; (repeat' split) <;> simp
theorem execUnitWakeDone_kept (dt : Nat) (unit : Nat) (s0 : State) :
    ∃ t, (execUnitWakeDone dt unit s0) = .next t ∧ t.kept = s0.kept := ⟨_, rfl, by split <;> simp⟩
theorem execUnitIdleOff_kept (dt : Nat) (unit : Nat) (s0 : State) :
    ∃ t, (execUnitIdleOff dt unit s0) = .next t ∧ t.kept = s0.kept := ⟨_, rfl, by split <;> simp⟩
theorem execUnitFault_kept (dt : Nat) (unit : Nat) (cause : Nat) (s0 : State) :
    ∃ t, (execUnitFault dt unit cause s0) = .next t ∧ t.kept = s0.kept := ⟨_, rfl, by split <;> simp⟩
@[simp] theorem judgeUnitcfg_keeps (i : Issue) (s : State) :
    (judgeUnitcfg i s).keeps s := by unfold judgeUnitcfg Judged.keeps; (try dsimp only); refine ⟨?_, fun a => ?_⟩ <;> (repeat' split) <;> simp [Verdict.keeps, apply_ite State.kept, foldl_kept, foldr_kept, foldl_kept1, foldl_kept2, State.each]
theorem execUnitcfg_kept (i : Issue) (s : State) :
    ∃ t, (execUnitcfg i s) = .next t ∧ t.kept = s.kept := ⟨_, rfl, State.issue_kept _ _ _ _ (by simp)⟩
@[simp] theorem State.setTelemetry_kept (s : State) (first : Nat) (width : Nat) (signed : Bool) (l : List Int) :
    (State.setTelemetry s first width signed l).kept = s.kept := by simp [State.setTelemetry, apply_ite State.kept, foldl_kept, foldr_kept, foldl_kept1, foldl_kept2, State.each]
theorem execTelemetrySample_kept (dt : Nat) (mv : List Nat) (ma : List Nat) (tj : List Int) (s0 : State) :
    ∃ t, (execTelemetrySample dt mv ma tj s0) = .next t ∧ t.kept = s0.kept := ⟨_, rfl, by simp []⟩
theorem execSelfRefreshEntry_kept (dt : Nat) (chan : Nat) (s0 : State) :
    ∃ t, (execSelfRefreshEntry dt chan s0) = .next t ∧ t.kept = s0.kept := ⟨_, rfl, by split <;> simp⟩
theorem execBarnScrub_kept (dt : Nat) (chan : Nat) (offset : Nat) (result : Nat) (last : Bool) (s0 : State) :
    ∃ t, (execBarnScrub dt chan offset result last s0) = .next t ∧ t.kept = s0.kept := ⟨_, rfl, by (repeat' split) <;> simp⟩
theorem execBarnChannelFault_kept (dt : Nat) (chan : Nat) (cause : Nat) (s0 : State) :
    ∃ t, (execBarnChannelFault dt chan cause s0) = .next t ∧ t.kept = s0.kept := ⟨_, rfl, by simp [apply_ite State.kept, foldl_kept, foldr_kept, foldl_kept1, foldl_kept2, State.each]⟩

end Sys2Proof.Machine
end

