-- ==== Sys2Proof/Laws/FrameC.lean ====
section
/-!
SUPPORT. What the operations of Bulk, StookPorts, Postbox, Regmap, Harvest, TwinState, Classify, Receive, Release, Embed, Transmit, Forward, Heads, OutStage leave alone.
-/
set_option linter.unusedSimpArgs false
namespace Sys2Proof.Machine

/-! ### Bulk -/

@[simp] theorem State.finishBg_kept (s : State) (b : BgOp) (code : Nat) :
    (State.finishBg s b code).kept = s.kept := by simp [State.finishBg]
@[simp] theorem State.ldputs_kept (s : State) (i : Nat) (l : List Word) : (s.ldputs i l).kept = s.kept := by
  induction l generalizing s i with
  | nil => rfl
  | cons w t ih => simp only [State.ldputs, ih]; simp
@[simp] theorem judgeLdload_keeps (i : Issue) (s : State) :
    (judgeLdload i s).keeps s := by simp [judgeLdload, Judged.keeps, Verdict.keeps]
theorem execLdload_kept (i : Issue) (s : State) :
    ∃ t, (execLdload i s) = .next t ∧ t.kept = s.kept := ⟨_, rfl, State.issue_kept _ _ _ _ (by simp)⟩
theorem execLdloadDone_kept (dt th : Nat) (s0 : State) : ∃ t, execLdloadDone dt th s0 = .next t ∧ t.kept = s0.kept := by
  refine ⟨_, rfl, ?_⟩
  rw [State.onThreads_kept _ _ _ fun a => ?_]
  · simp
  · split <;> simp
@[simp] theorem judgeBarnwr_keeps (i : Issue) (s : State) :
    (judgeBarnwr i s).keeps s := by simp [judgeBarnwr, Judged.keeps, Verdict.keeps]
theorem execBarnwr_kept (i : Issue) (s : State) :
    ∃ t, (execBarnwr i s) = .next t ∧ t.kept = s.kept := ⟨_, rfl, State.issue_kept _ _ _ _ (by simp)⟩
theorem execBarnwrDone_rel (dt th : Nat) (s0 : State) : ∃ t, execBarnwrDone dt th s0 = .next t ∧ ∀ k0, keptRel k0 s0.kept → keptRel k0 t.kept := by
  refine ⟨_, rfl, fun k0 h0 => State.onThreads_rel _ _ _ _ (fun a => ?_) (by simpa using h0)⟩
  split <;> simp
@[simp] theorem judgeWatchcfg_keeps (i : Issue) (s : State) :
    (judgeWatchcfg i s).keeps s := by simp [judgeWatchcfg, Judged.keeps, Verdict.keeps]
theorem execWatchcfg_kept (i : Issue) (s : State) :
    ∃ t, (execWatchcfg i s) = .next t ∧ t.kept = s.kept := ⟨_, rfl, State.issue_kept _ _ _ _ (by simp)⟩
@[simp] theorem State.commitWatchcfg_kept (s : State) (p : Nat) (vs : List Int) (pid : Nat) (th : Nat) :
    (State.commitWatchcfg s p vs pid th).kept = s.kept := by simp [State.commitWatchcfg, apply_ite State.kept, foldl_kept, foldr_kept, foldl_kept1, foldl_kept2, State.each]
theorem execWatchSecond_kept (dt : Nat) (probe : Nat) (s0 : State) :
    ∃ t, (execWatchSecond dt probe s0) = .next t ∧ t.kept = s0.kept := ⟨_, rfl, by split <;> simp⟩
theorem execCaptureDone_kept (dt : Nat) (probe : Nat) (s0 : State) :
    ∃ t, (execCaptureDone dt probe s0) = .next t ∧ t.kept = s0.kept := ⟨_, rfl, by (repeat' split) <;> simp⟩

/-! ### StookPorts -/

@[simp] theorem judgeAsrccfg_keeps (i : Issue) (s : State) :
    (judgeAsrccfg i s).keeps s := by simp [judgeAsrccfg, Judged.keeps, Verdict.keeps]
theorem execAsrccfg_kept (i : Issue) (s : State) :
    ∃ t, (execAsrccfg i s) = .next t ∧ t.kept = s.kept := ⟨_, rfl, State.issue_kept _ _ _ _ (by simp)⟩
@[simp] theorem State.commitAsrccfg_kept (s : State) (k : Nat) (kind : Nat) (vs : List Int) :
    (State.commitAsrccfg s k kind vs).kept = s.kept := by simp only [State.commitAsrccfg]; (repeat' split) <;> simp
theorem execAsrcLock_kept (dt : Nat) (unit : Nat) (lock : Bool) (range : Bool) (s0 : State) :
    ∃ t, (execAsrcLock dt unit lock range s0) = .next t ∧ t.kept = s0.kept := ⟨_, rfl, by (repeat' split) <;> simp⟩
@[simp] theorem judgeStookcfg_keeps (i : Issue) (s : State) :
    (judgeStookcfg i s).keeps s := by simp [judgeStookcfg, Judged.keeps, Verdict.keeps]
theorem execStookcfg_kept (i : Issue) (s : State) :
    ∃ t, (execStookcfg i s) = .next t ∧ t.kept = s.kept := ⟨_, rfl, State.issue_kept _ _ _ _ (by simp)⟩
@[simp] theorem State.startSide_kept (s : State) (u : Nat) :
    (State.startSide s u).kept = s.kept := by simp [State.startSide]
@[simp] theorem State.commitStookcfg_kept (s : State) (port : Nat) (side : Nat) (vs : List Int) :
    (State.commitStookcfg s port side vs).kept = s.kept := by simp only [State.commitStookcfg]; (repeat' split) <;> simp
theorem execStookStart_kept (dt : Nat) (port : Nat) (side : Nat) (s0 : State) :
    ∃ t, (execStookStart dt port side s0) = .next t ∧ t.kept = s0.kept := ⟨_, rfl, by split <;> simp⟩
theorem execStookStop_kept (dt : Nat) (port : Nat) (side : Nat) (s0 : State) :
    ∃ t, (execStookStop dt port side s0) = .next t ∧ t.kept = s0.kept := ⟨_, rfl, by (repeat' split) <;> simp⟩
theorem execStookClockLoss_kept (dt : Nat) (port : Nat) (side : Nat) (s0 : State) :
    ∃ t, (execStookClockLoss dt port side s0) = .next t ∧ t.kept = s0.kept := ⟨_, rfl, by split <;> simp⟩
theorem execAes3Lock_kept (dt : Nat) (port : Nat) (preambles : Bool) (parity : Bool) (s0 : State) :
    ∃ t, (execAes3Lock dt port preambles parity s0) = .next t ∧ t.kept = s0.kept := ⟨_, rfl, by simp [apply_ite State.kept, foldl_kept, foldr_kept, foldl_kept1, foldl_kept2, State.each]⟩
@[simp] theorem State.captureC_kept (s : State) (u : Nat) (place : Nat) (f : Field) (z : Bool) (c : Bool) :
    (State.captureC s u place f z c).kept = s.kept := by simp only [State.captureC]; (repeat' split) <;> simp
@[simp] theorem State.keepVU_kept (s : State) (a : Nat) (m : Int) (v : Bool) (u : Bool) :
    (State.keepVU s a m v u).kept = s.kept := by simp [State.keepVU]
@[simp] theorem State.aesStatus_kept (s : State) (u : Nat) (f : StookIn) : (s.aesStatus u f).kept = s.kept := by
  unfold State.aesStatus
  extract_lets s2 s3
  have h2 : s2.kept = s.kept := by
    refine foldl_via _ _ (fun a q h => ?_) _ _ rfl
    dsimp only
    (repeat' split) <;> simp [h]
  simp [s3, h2]
@[simp] theorem State.sideRated_kept (old s : State) (u : Nat) : (State.sideRated old s u).kept = s.kept := by
  unfold State.sideRated
  split
  · simp
  · split <;> simp
theorem execStookRxFrame_kept (dt port : Nat) (f : StookIn) (s0 : State) : ∃ t, execStookRxFrame dt port f s0 = .next t ∧ t.kept = s0.kept := by
  unfold execStookRxFrame
  extract_lets s u st s1 tau w
  have hs : s.kept = s0.kept := by simp [s]
  have h1 : s1.kept = s0.kept := by simp only [s1, State.wr_kept]; split <;> simp [hs]
  clear_value s1 tau
  refine ⟨_, rfl, ?_⟩
  split
  · exact hs
  · split
    · exact hs
    · split
      · split
        · simp [h1]
        · simp [h1]
      · split
        · exact h1
        · rw [State.sideRated_kept]
          exact foldl_via _ _ (fun a q h => by simp [h]) _ _ (by simp [h1])
@[simp] theorem State.txSlip_kept (s : State) (u : Nat) (slip : Nat) :
    (State.txSlip s u slip).kept = s.kept := by simp only [State.txSlip]; (repeat' split) <;> simp
@[simp] theorem State.txSamples_kept (s : State) (first count rate : Nat) (m : Int) : (s.txSamples first count rate m).2.kept = s.kept := by
  unfold State.txSamples
  refine (foldl_kept2 _ (fun a q => ?_) _ _).trans rfl
  dsimp only
  split <;> simp
@[simp] theorem State.txClock_kept (s : State) (fd : Feed) (slave : Bool) (e : Int) :
    (State.txClock s fd slave e).kept = s.kept := by simp only [State.txClock]; (repeat' split) <;> simp
@[simp] theorem State.txNote_kept (s : State) (u : Nat) (slave : Bool) (e : Int) (m : Int) (phi : Int) (slip : Nat) :
    (State.txNote s u slave e m phi slip).kept = s.kept := by simp only [State.txNote]; (repeat' split) <;> simp
@[simp] theorem State.freeSamples_kept (s : State) (n : Nat) :
    (State.freeSamples s n).2.kept = s.kept := by simp [State.freeSamples, apply_ite State.kept, foldl_kept, foldr_kept, foldl_kept1, foldl_kept2, State.each]
@[simp] theorem State.stookFrame_kept (s : State) (port : Nat) (mode : Nat) (width : Nat) (first : Nat) (rate : Nat) (m : Int) (whole : Bool) (xs : List Int) :
    (State.stookFrame s port mode width first rate m whole xs).kept = s.kept := by simp [State.stookFrame, apply_ite State.kept, foldl_kept, foldr_kept, foldl_kept1, foldl_kept2, State.each]
@[simp] theorem State.stookOut_kept (s : State) (u : Nat) (vs : List Int) : (s.stookOut u vs).2.kept = s.kept := by
  unfold State.stookOut
  dsimp only
  split <;> simp
theorem execStookTxFrame_kept (dt : Nat) (port : Nat) (s0 : State) :
    ∃ t, (execStookTxFrame dt port s0) = .next t ∧ t.kept = s0.kept := ⟨_, rfl, by (repeat' split) <;> simp⟩

/-! ### Postbox -/

@[simp] theorem State.ringPut_kept (s : State) (q : Nat) (ws : List Word) :
    (State.ringPut s q ws).kept = s.kept := by simp [State.ringPut]
@[simp] theorem State.ringReply_kept (s : State) (q : Nat) (ws : List Word) :
    (State.ringReply s q ws).kept = s.kept := by simp [State.ringReply]
@[simp] theorem State.postReply_kept (s : State) (q : Nat) (source : Nat) (ws : List Word) :
    (State.postReply s q source ws).kept = s.kept := by simp only [State.postReply]; (repeat' split) <;> simp
@[simp] theorem State.refuseErrand_kept (s : State) (q : Nat) (source : Nat) (ws : List Word) (c : Code) :
    (State.refuseErrand s q source ws c).kept = s.kept := by simp [State.refuseErrand]
@[simp] theorem State.forwardErrand_kept (s : State) (q : Nat) (ws : List Word) :
    (State.forwardErrand s q ws).kept = s.kept := by unfold State.forwardErrand; split <;> simp
@[simp] theorem State.dropFinished_kept (s : State) :
    (State.dropFinished s).kept = s.kept := by simp [State.dropFinished]
@[simp] theorem State.receiveErrand_kept (s0 : State) (q : Nat) (source : Nat) (ws : List Word) (whole : Bool) :
    (State.receiveErrand s0 q source ws whole).kept = s0.kept := by simp only [State.receiveErrand]; (repeat' split) <;> simp
theorem execFinalReply_kept (dt queue : Nat) (s0 : State) : ∃ t, execFinalReply dt queue s0 = .next t ∧ t.kept = s0.kept := by
  refine ⟨_, rfl, ?_⟩
  rw [State.onThreads_kept _ _ _ fun a => ?_]
  · simp
  · dsimp only
    split
    · rfl
    · split
      · rfl
      · simp [foldl_kept]
theorem execReplyRepost_kept (dt : Nat) (queue : Nat) (s0 : State) :
    ∃ t, (execReplyRepost dt queue s0) = .next t ∧ t.kept = s0.kept := ⟨_, rfl, by simp only [State.each]; (repeat' split) <;> simp [apply_ite State.kept, foldl_kept, foldr_kept, foldl_kept1, foldl_kept2]⟩
theorem execErrandExecutionStart_kept (dt queue : Nat) (s0 : State) : ∃ t, execErrandExecutionStart dt queue s0 = .next t ∧ t.kept = s0.kept := by
  refine ⟨_, rfl, ?_⟩
  rw [State.onThreads_kept _ _ _ fun a => ?_]
  · simp
  · dsimp only
    (repeat' split) <;> simp

/-! ### Regmap -/

@[simp] theorem State.view_kept (s : State) (c : Nat) :
    (State.view s c).kept = s.kept := by simp only [State.view]; (repeat' split) <;> simp
@[simp] theorem State.arcadeUse_kept (s : State) (master : Nat) (a : Nat) (n : Nat) :
    (State.arcadeUse s master a n).kept = s.kept := by unfold State.arcadeUse; split <;> simp
@[simp] theorem State.arcadeRead_kept (s : State) (master : Nat) (a : Nat) :
    (State.arcadeRead s master a).2.kept = s.kept := by unfold State.arcadeRead; split <;> simp
@[simp] theorem State.arcadeReads_kept (s : State) (master a n : Nat) : (s.arcadeReads master a n).2.kept = s.kept := by
  induction n generalizing s a with
  | zero => rfl
  | succ n ih => simp only [State.arcadeReads, ih]; simp
@[simp] theorem judgeRd_keeps (i : Issue) (s : State) : (judgeRd i s).keeps s := by
  unfold judgeRd Judged.keeps Verdict.keeps
  dsimp only
  refine ⟨?_, fun a => rfl⟩
  split <;> simp
theorem execRd_kept (i : Issue) (s : State) :
    ∃ t, (execRd i s) = .next t ∧ t.kept = s.kept := ⟨_, rfl, State.issue_kept _ _ _ _ (by simp)⟩
@[simp] theorem judgeRdind_keeps (i : Issue) (s : State) :
    (judgeRdind i s).keeps s := by unfold judgeRdind Judged.keeps; (try dsimp only); refine ⟨?_, fun a => ?_⟩ <;> (repeat' split) <;> simp [Verdict.keeps, apply_ite State.kept, foldl_kept, foldr_kept, foldl_kept1, foldl_kept2, State.each]
theorem execRdind_kept (i : Issue) (s : State) :
    ∃ t, (execRdind i s) = .next t ∧ t.kept = s.kept := ⟨_, rfl, State.issue_kept _ _ _ _ (by simp)⟩
@[simp] theorem judgeRdtime_keeps (i : Issue) (s : State) :
    (judgeRdtime i s).keeps s := by simp [judgeRdtime, Judged.keeps, Verdict.keeps]
theorem execRdtime_kept (i : Issue) (s : State) :
    ∃ t, (execRdtime i s) = .next t ∧ t.kept = s.kept := ⟨_, rfl, State.issue_kept _ _ _ _ (by simp)⟩

/-! ### Harvest -/

@[simp] theorem State.setTarget_kept (s : State) (t : Nat) :
    (State.setTarget s t).kept = s.kept := by simp only [State.setTarget]; (repeat' split) <;> simp
@[simp] theorem State.supersedeHarvest_kept (s : State) :
    (State.supersedeHarvest s).kept = s.kept := by unfold State.supersedeHarvest; split <;> simp
@[simp] theorem State.armHarvest_kept (s : State) (t : Nat) (trigger : Nat) (at_ : Nat) :
    (State.armHarvest s t trigger at_).kept = s.kept := by simp only [State.armHarvest]; (repeat' split) <;> simp
@[simp] theorem judgeHarvest_keeps (i : Issue) (s : State) :
    (judgeHarvest i s).keeps s := by simp [judgeHarvest, Judged.keeps, Verdict.keeps]
theorem execHarvest_kept (i : Issue) (s : State) :
    ∃ t, (execHarvest i s) = .next t ∧ t.kept = s.kept := ⟨_, rfl, State.issue_kept _ _ _ _ (by simp)⟩
theorem execTakeInEdge_kept (dt : Nat) (s0 : State) :
    ∃ t, (execTakeInEdge dt s0) = .next t ∧ t.kept = s0.kept := ⟨_, rfl, by split <;> simp⟩
@[simp] theorem State.freezeSnap_kept (s : State) (bank : Nat) (w1 : Word) (w2 : Word) :
    (State.freezeSnap s bank w1 w2).kept = s.kept := by simp [State.freezeSnap]
theorem execHarvestCapture_kept (dt : Nat) (s0 : State) : ∃ t, execHarvestCapture dt s0 = .next t ∧ t.kept = s0.kept := by
  refine ⟨_, rfl, ?_⟩
  rw [← State.after_kept s0 dt]
  generalize s0.after dt = s
  refine ifUp_via _ _ _ _ rfl ?_
  split
  · rw [State.wrs_kept, State.freezeSnap_kept]
  · rfl
theorem execHarvestDone_kept (dt : Nat) (s0 : State) :
    ∃ t, (execHarvestDone dt s0) = .next t ∧ t.kept = s0.kept := ⟨_, rfl, by split <;> simp⟩

/-! ### TwinState -/

@[simp] theorem State.twSet_kept (s : State) (f : Field) (v : Int) :
    (State.twSet s f v).kept = s.kept := by simp [State.twSet]
@[simp] theorem State.showOk_kept (s : State) :
    (State.showOk s).kept = s.kept := by simp only [State.showOk]; (repeat' split) <;> simp
@[simp] theorem State.setRole_kept (s : State) (r : Int) :
    (State.setRole s r).kept = s.kept := by simp only [State.setRole]; (repeat' split) <;> simp
@[simp] theorem State.setPair_rel (k0) (s : State) (p : Int) (h0 : keptRel k0 s.kept) : keptRel k0 (s.setPair p).kept := by
  unfold State.setPair
  split
  · exact h0
  · have h1 : keptRel k0 (State.kept { s with shadow := none }) := rel_noCopy k0 s { s with shadow := none } h0 rfl rfl rfl rfl rfl
    simp only [State.showOk_kept, State.setBuf_kept, State.wrs_kept]
    exact h1
@[simp] theorem State.replicate_rel (k0) (s : State) (h0 : keptRel k0 s.kept) : keptRel k0 (s.replicate).kept := by
  unfold State.replicate
  extract_lets s1
  have h1 : keptRel k0 s1.kept := by simp only [s1, State.wrs_kept]; exact State.setPair_rel k0 s _ h0
  exact rel_noCopy k0 s1 { s1 with shadow := none } h1 rfl rfl rfl rfl rfl
@[simp] theorem State.commitTwinswitch_kept (s : State) :
    (State.commitTwinswitch s).kept = s.kept := by simp only [State.commitTwinswitch]; (repeat' split) <;> simp
@[simp] theorem State.autoYield_kept (s : State) :
    (State.autoYield s).kept = s.kept := by simp only [State.autoYield]; (repeat' split) <;> simp
@[simp] theorem State.markSuspect_kept (s : State) (partner : Bool) (set : Bool) :
    (State.markSuspect s partner set).kept = s.kept := by simp only [State.markSuspect]; (repeat' split) <;> simp
@[simp] theorem State.conclude_kept (s : State) (head : Nat) (key : Nat) (selfMask : Nat) (partnerMask : Nat) (crcs : Nat) :
    (State.conclude s head key selfMask partnerMask crcs).kept = s.kept := by simp [State.conclude, apply_ite State.kept, foldl_kept, foldr_kept, foldl_kept1, foldl_kept2, State.each]
@[simp] theorem State.compareRecs_kept (s : State) (own : CmpRec) (other : CmpRec) :
    (State.compareRecs s own other).kept = s.kept := by simp only [State.compareRecs]; (repeat' split) <;> simp
@[simp] theorem State.compareAdd_kept (s : State) (mine : Bool) (r : CmpRec) :
    (State.compareAdd s mine r).kept = s.kept := by simp only [State.compareAdd]; (repeat' split) <;> simp
@[simp] theorem State.compareOwn_kept (s : State) (kind : Nat) (item : Nat) (key : Nat) (line : Nat) (crc : Nat) :
    (State.compareOwn s kind item key line crc).kept = s.kept := by unfold State.compareOwn; split <;> simp
@[simp] theorem State.armCell_kept (s : State) (d : Nat) :
    (State.armCell s d).kept = s.kept := by simp only [State.armCell]; (repeat' split) <;> simp
@[simp] theorem State.armSlot_kept (s : State) (sl : Nat) (blockAt : Nat) :
    (State.armSlot s sl blockAt).kept = s.kept := by simp only [State.armSlot]; (repeat' split) <;> simp
@[simp] theorem State.sendManifest_kept (after : State) (before : State) (p : Nat) (n : Int) :
    (State.sendManifest after before p n).kept = after.kept := by unfold State.sendManifest; split <;> simp
@[simp] theorem State.applyManifest_kept (s : State) (p : Nat) (n : Int) (rows : List (Nat × Nat × Nat × Nat)) (seq : Nat) :
    (State.applyManifest s p n rows seq).kept = s.kept := by simp only [State.applyManifest]; (repeat' split) <;> simp
@[simp] theorem State.sendCopy_kept (s : State) :
    (State.sendCopy s).kept = s.kept := by simp [State.sendCopy, apply_ite State.kept, foldl_kept, foldr_kept, foldl_kept1, foldl_kept2, State.each]
theorem State.wake_shadow (s : State) (u : Nat) : (s.wake u).shadow = s.shadow := by
  unfold State.wake; split <;> rfl

theorem Shadow.load_wf (h : Shadow) (sec unit pos : Nat) (c : List Word) (w : Memory.wf h.barn = true) : Memory.wf (h.load sec unit pos c).barn = true := by
  unfold Shadow.load
  dsimp only
  split <;> (try exact w)
  exact foldl_wf _ (fun a b h => barnPut_wf _ _ _ h) _ _ w

@[simp] theorem State.loadItems_rel (k0) (s : State) (n : Nat) (l : List Word) (h0 : keptRel k0 s.kept) : keptRel k0 (s.loadItems n l).kept := by
  induction n generalizing s l with
  | zero => exact h0
  | succ n ih =>
    match l with
    | [] => exact h0
    | [_] => exact h0
    | a :: p :: t =>
      rw [State.loadItems]
      refine ih _ _ ?_
      split
      · exact rel_copy k0 s _ h0 rfl rfl rfl rfl fun w b hb => by
          cases hb; exact w.1
      · split
        · simpa using h0
        · split
          · simpa [State.twSet] using h0
          · refine rel_copy k0 s _ h0 rfl rfl rfl rfl fun w b hb => ?_
            cases hs : s.shadow with
            | none => simp [hs] at hb
            | some h =>
              simp only [hs, Option.map_some, Option.some.injEq] at hb
              rw [← hb]
              exact Shadow.load_wf _ _ _ _ _ (w.2.2 h.barn (by simp [State.kept, hs]))
@[simp] theorem State.setGains_kept (s : State) (n : Nat) (l : List Int) : (s.setGains n l).kept = s.kept := by
  induction n generalizing s l with
  | zero => rfl
  | succ n ih =>
    match l with
    | [] => rfl
    | [_] => rfl
    | u :: v :: l => simp only [State.setGains]; rw [ih]; split <;> simp

/-! ### Classify -/

@[simp] theorem State.noteGroups_kept (s : State) (old : State) :
    (State.noteGroups s old).kept = s.kept := by simp [State.noteGroups, apply_ite State.kept, foldl_kept, foldr_kept, foldl_kept1, foldl_kept2, State.each]
@[simp] theorem State.macTake_kept (s : State) (vs : List Int) (m : Nat) :
    (State.macTake s vs m).kept = s.kept := by simp only [State.macTake]; (repeat' split) <;> simp
@[simp] theorem judgeMaccfg_keeps (i : Issue) (s : State) :
    (judgeMaccfg i s).keeps s := by unfold judgeMaccfg Judged.keeps; (try dsimp only); refine ⟨?_, fun a => ?_⟩ <;> (repeat' split) <;> simp [Verdict.keeps, apply_ite State.kept, foldl_kept, foldr_kept, foldl_kept1, foldl_kept2, State.each]
theorem execMaccfg_kept (i : Issue) (s : State) :
    ∃ t, (execMaccfg i s) = .next t ∧ t.kept = s.kept := ⟨_, rfl, State.issue_kept _ _ _ _ (by simp)⟩
@[simp] theorem judgeClsadd_keeps (i : Issue) (s : State) :
    (judgeClsadd i s).keeps s := by simp [judgeClsadd, Judged.keeps, Verdict.keeps]
theorem execClsadd_kept (i : Issue) (s : State) :
    ∃ t, (execClsadd i s) = .next t ∧ t.kept = s.kept := ⟨_, rfl, State.issue_kept _ _ _ _ (by simp)⟩
@[simp] theorem judgeClsdel_keeps (i : Issue) (s : State) :
    (judgeClsdel i s).keeps s := by simp [judgeClsdel, Judged.keeps, Verdict.keeps]
theorem execClsdel_kept (i : Issue) (s : State) :
    ∃ t, (execClsdel i s) = .next t ∧ t.kept = s.kept := ⟨_, rfl, State.issue_kept _ _ _ _ (by simp)⟩
@[simp] theorem judgeClswild_keeps (i : Issue) (s : State) :
    (judgeClswild i s).keeps s := by simp [judgeClswild, Judged.keeps, Verdict.keeps]
theorem execClswild_kept (i : Issue) (s : State) :
    ∃ t, (execClswild i s) = .next t ∧ t.kept = s.kept := ⟨_, rfl, State.issue_kept _ _ _ _ (by simp)⟩

/-! ### Receive -/

@[simp] theorem State.setRows_kept (s : State) (u : Nat) (p : Nat) (l : List (List Int)) :
    (State.setRows s u p l).kept = s.kept := by simp [State.setRows]
@[simp] theorem judgeRxflow_keeps (i : Issue) (s : State) :
    (judgeRxflow i s).keeps s := by simp [judgeRxflow, Judged.keeps, Verdict.keeps]
theorem execRxflow_kept (i : Issue) (s : State) :
    ∃ t, (execRxflow i s) = .next t ∧ t.kept = s.kept := ⟨_, rfl, State.issue_kept _ _ _ _ (by simp)⟩
@[simp] theorem State.rxEnter_kept (s : State) (c : Nat) (st : Int) :
    (State.rxEnter s c st).kept = s.kept := by simp only [State.rxEnter]; (repeat' split) <;> simp
@[simp] theorem State.rxClear_kept (s : State) (c : Nat) :
    (State.rxClear s c).kept = s.kept := by simp [State.rxClear]
@[simp] theorem State.seatRateMoved_kept (k : Nat) (old s : State) : (State.seatRateMoved k old s).kept = s.kept := by
  unfold State.seatRateMoved
  dsimp only
  split <;> simp
@[simp] theorem State.commitRxflow_kept (s : State) (c : Nat) (vs : List Int) : (State.commitRxflow s c vs).kept = s.kept := by
  unfold State.commitRxflow
  extract_lets ps u fresh ssrc match_ s1 s2 s3 v
  have h1 : s1.kept = s.kept := by simp only [s1]; split <;> simp
  have h2 : s2.kept = s.kept := by simp [s2, h1]
  have h3 : s3.kept = s.kept := by simp only [s3]; split <;> simp [h2]
  split <;> simp [h3]
@[simp] theorem State.legSeen_kept (s : State) (c : Nat) (leg : Nat) :
    (State.legSeen s c leg).kept = s.kept := by simp only [State.legSeen]; (repeat' split) <;> simp
@[simp] theorem State.ssrcLatch_kept (s : State) (c : Nat) (leg : Nat) (ssrc : Nat) :
    (State.ssrcLatch s c leg ssrc).kept = s.kept := by simp only [State.ssrcLatch]; (repeat' split) <;> simp
@[simp] theorem State.setWindow_kept (s : State) (c : Nat) (l : List Win) :
    (State.setWindow s c l).kept = s.kept := by simp [State.setWindow]
@[simp] theorem State.winSettle_kept (s : State) (c : Nat) : (s.winSettle c).kept = s.kept := by
  unfold State.winSettle
  extract_lets u l n r
  have h : r.1.kept = s.kept := by
    simp only [r]
    refine (foldl_kept1 _ (fun a w => ?_) _ _).trans rfl
    (repeat' split) <;> simp
  simp [h]
@[simp] theorem State.rxDropped_kept (s : State) (c : Nat) (leg : Nat) (q : Nat) (rel : Int) :
    (State.rxDropped s c leg q rel).kept = s.kept := by simp only [State.rxDropped]; (repeat' split) <;> simp
@[simp] theorem State.rxLate_kept (s : State) (c : Nat) (leg : Nat) (q : Nat) (rel : Int) :
    (State.rxLate s c leg q rel).kept = s.kept := by simp [State.rxLate]
@[simp] theorem State.rxEarly_kept (s : State) (c : Nat) (leg : Nat) (q : Nat) (rel : Int) :
    (State.rxEarly s c leg q rel).kept = s.kept := by simp [State.rxEarly]
@[simp] theorem State.leadStat_kept (s : State) (c : Nat) (lead : Int) :
    (State.leadStat s c lead).kept = s.kept := by simp only [State.leadStat]; (repeat' split) <;> simp
@[simp] theorem State.rxTaken_kept (s : State) (c : Nat) (leg : Nat) (ssrc : Nat) :
    (State.rxTaken s c leg ssrc).kept = s.kept := by simp [State.rxTaken]
@[simp] theorem State.rxAccept_kept (s : State) (c : Nat) (leg : Nat) (ssrc : Nat) (q : Nat) (k : Int) (rel : Int) (lead : Int) (l1 : Int) (l2 : Int) :
    (State.rxAccept s c leg ssrc q k rel lead l1 l2).kept = s.kept := by simp only [State.rxAccept]; (repeat' split) <;> simp
@[simp] theorem State.rxFormatError_kept (s : State) (c : Nat) (leg : Nat) (q : Nat) (k : Int) :
    (State.rxFormatError s c leg q k).kept = s.kept := by simp only [State.rxFormatError]; (repeat' split) <;> simp
@[simp] theorem State.rxCleanFrame_kept (s : State) (c : Nat) (k : Int) :
    (State.rxCleanFrame s c k).kept = s.kept := by simp only [State.rxCleanFrame]; (repeat' split) <;> simp
@[simp] theorem State.rxVideo_kept (s : State) (c : Nat) (leg : Nat) (q : Nat) (r : Rtp) :
    (State.rxVideo s c leg q r).kept = s.kept := by simp only [State.rxVideo]; (repeat' split) <;> simp
@[simp] theorem State.rxChannelStatus_kept (s : State) (u : Nat) (q : Nat) (flags : Nat) :
    (State.rxChannelStatus s u q flags).kept = s.kept := by simp only [State.rxChannelStatus]; (repeat' split) <;> simp
@[simp] theorem State.rxAudio_kept (s : State) (c : Nat) (leg : Nat) (q : Nat) (r : Rtp) :
    (State.rxAudio s c leg q r).kept = s.kept := by simp only [State.rxAudio]; (repeat' split) <;> simp
@[simp] theorem State.ancStore_kept (s : State) (c : Nat) (v : Nat) (k : Int) (field2 : Bool) (a : Anc) :
    (State.ancStore s c v k field2 a).kept = s.kept := by simp only [State.ancStore]; (repeat' split) <;> simp
@[simp] theorem State.rxAnc_kept (s : State) (c : Nat) (leg : Nat) (q : Nat) (r : Rtp) :
    (State.rxAnc s c leg q r).kept = s.kept := by simp only [State.rxAnc, State.each]; (repeat' split) <;> simp [apply_ite State.kept, foldl_kept, foldr_kept, foldl_kept1, foldl_kept2]
@[simp] theorem State.rxDatagram_kept (s : State) (c : Nat) (leg : Nat) (q : Nat) (r : Rtp) :
    (State.rxDatagram s c leg q r).kept = s.kept := by simp only [State.rxDatagram]; (repeat' split) <;> simp
@[simp] theorem State.seqReset_kept (s : State) (c : Nat) :
    (State.seqReset s c).kept = s.kept := by simp only [State.seqReset]; (repeat' split) <;> simp
theorem rxDuplicate_some {s t : State} {c leg ssrc q : Nat} (h : s.rxDuplicate c leg ssrc q = some t) : t.kept = s.kept := by
  unfold State.rxDuplicate at h
  dsimp only at h
  split at h
  · split at h
    · cases h
    · injection h with h; subst h; (repeat' split) <;> simp
  · cases h

@[simp] theorem State.flowPacket_kept (s : State) (c leg : Nat) (l : List Nat) : (State.flowPacket s c leg l).kept = s.kept := by
  unfold State.flowPacket
  extract_lets u r ty s1 s2 q s3
  have h1 : s1.kept = s.kept := by simp [s1]
  have h2 : s2.kept = s.kept := by simp [s2, h1]
  have h3 : s3.kept = s.kept := by simp only [s3]; split <;> simp [h2]
  split
  · rfl
  split
  · simp [h1]
  split
  · simp [h1]
  split
  · simp [h1]
  split <;> rename_i h
  · exact (rxDuplicate_some h).trans h3
  · clear_value ty; split <;> simp [h3]

/-! ### Release -/

@[simp] theorem State.dropAudio_kept (s : State) (m : Nat) (a : Int) (b : Int) :
    (State.dropAudio s m a b).kept = s.kept := by simp [State.dropAudio]
@[simp] theorem State.slipInterval_kept (s : State) (c : Nat) (k : Int) (line : Int) :
    (State.slipInterval s c k line).kept = s.kept := by simp [State.slipInterval, apply_ite State.kept, foldl_kept, foldr_kept, foldl_kept1, foldl_kept2, State.each]
@[simp] theorem State.releaseAnc_kept (s : State) (m : Nat) (k : Int) (line : Int) :
    (State.releaseAnc s m k line).2.kept = s.kept := by simp only [State.releaseAnc]; (repeat' split) <;> simp
@[simp] theorem State.releaseInterval_kept (s : State) (c : Nat) (k : Int) (line : Int) (short : Bool) :
    (State.releaseInterval s c k line short).2.2.kept = s.kept := by
  unfold State.releaseInterval
  extract_lets group s1 coupled s2 r
  have h1 : s1.kept = s.kept := by simp only [s1]; exact foldl_kept _ (fun a m => State.winSettle_kept a m) _ _
  have h2 : s2.kept = s.kept := by simp only [s2]; split <;> simp [h1]
  simp only [r]
  refine foldl_via2 _ _ (fun a m h => ?_) _ _ h2
  split
  · simp [h]
  · exact h
@[simp] theorem State.rxActive_kept (s : State) (c : Nat) (rows : List (List Int)) :
    (State.rxActive s c rows).2.kept = s.kept := by simp only [State.rxActive, State.each]; (repeat' split) <;> simp [apply_ite State.kept, foldl_kept, foldr_kept, foldl_kept1, foldl_kept2]
@[simp] theorem State.rxLine_kept (s : State) (c : Nat) (line : Nat) (rows : List (List Int)) (anc : List AncOut) :
    (State.rxLine s c line rows anc).2.kept = s.kept := by simp only [State.rxLine]; (repeat' split) <;> simp
theorem releaseInterval_eq {s t : State} {c : Nat} {k line : Int} {short a : Bool} {b : List AncOut}
    (h : s.releaseInterval c k line short = (a, b, t)) : t.kept = s.kept := by
  have := State.releaseInterval_kept s c k line short; rw [h] at this; exact this

theorem rxLine_eq {s t : State} {c line : Nat} {rows : List (List Int)} {anc : List AncOut} {ws : List Nat}
    (h : s.rxLine c line rows anc = (ws, t)) : t.kept = s.kept := by
  have := State.rxLine_kept s c line rows anc; rw [h] at this; exact this

@[simp] theorem State.releaseLine_kept (s : State) (c : Nat) (k line : Int) : (s.releaseLine c k line).kept = s.kept := by
  unfold State.releaseLine
  extract_lets u seat id ras active rows short s1
  have h1 : s1.kept = s.kept := by simp only [s1]; split <;> simp
  split
  rename_i co anc s2 hi
  split
  rename_i ws s3 hl
  have h3 : s3.kept = s.kept := ((rxLine_eq hl).trans (releaseInterval_eq hi)).trans h1
  extract_lets s4 s5
  have h4 : s4.kept = s.kept := by simp only [s4, State.kerbEav_kept, State.seatIn_kept, h3]
  have h5 : s5.kept = s.kept := by simp [s5, h4]
  split <;> simp [h5]
theorem execLineRelease_kept (dt c : Nat) (s0 : State) : ∃ t, execLineRelease dt c s0 = .next t ∧ t.kept = s0.kept := by
  unfold execLineRelease
  extract_lets s u st k line
  refine ⟨_, rfl, ifUp_via _ _ _ _ (by simp [s]) ?_⟩
  split <;> simp [s]
@[simp] theorem State.dgPiece_kept (s : State) (c : Nat) (k : Int) (fill : Bool) (p : Nat × Nat × List Nat) :
    (State.dgPiece s c k fill p).kept = s.kept := by simp only [State.dgPiece, State.each]; repeat' (first | rfl | assumption | (refine ifUp_via _ _ _ _ ?_ ?_) | split | (refine foldl_via _ _ (fun _ _ _ => ?_) _ _ ?_) | (refine foldl_via1 _ _ (fun _ _ _ => ?_) _ _ ?_) | (refine foldl_via2 _ _ (fun _ _ _ => ?_) _ _ ?_) | (refine foldr_via _ _ (fun _ _ _ => ?_) _ _ ?_)) <;> simp_all [apply_ite State.kept]
@[simp] theorem State.dgFeed_kept (s : State) (c : Nat) (k : Int) (idx : Nat) (payload : Option (List Nat)) :
    (State.dgFeed s c k idx payload).kept = s.kept := by simp only [State.dgFeed, State.each]; (repeat' split) <;> simp [apply_ite State.kept, foldl_kept, foldr_kept, foldl_kept1, foldl_kept2]
@[simp] theorem State.releaseDatagram_kept (s : State) (c : Nat) (r : List Int) :
    (State.releaseDatagram s c r).kept = s.kept := by simp only [State.releaseDatagram, State.each]; (repeat' split) <;> simp [apply_ite State.kept, foldl_kept, foldr_kept, foldl_kept1, foldl_kept2]
theorem execDatagramRelease_kept (dt : Nat) (c : Nat) (s0 : State) :
    ∃ t, (execDatagramRelease dt c s0) = .next t ∧ t.kept = s0.kept := ⟨_, rfl, by (repeat' split) <;> simp⟩
theorem execAudioFlowRelease_kept (dt : Nat) (c : Nat) (s0 : State) :
    ∃ t, (execAudioFlowRelease dt c s0) = .next t ∧ t.kept = s0.kept := ⟨_, rfl, by simp only [State.each]; (repeat' split) <;> simp [apply_ite State.kept, foldl_kept, foldr_kept, foldl_kept1, foldl_kept2]⟩
theorem execFlowLost_kept (dt : Nat) (c : Nat) (s0 : State) :
    ∃ t, (execFlowLost dt c s0) = .next t ∧ t.kept = s0.kept := ⟨_, rfl, by (repeat' split) <;> simp⟩
theorem execLegDown_kept (dt : Nat) (c : Nat) (leg : Nat) (s0 : State) :
    ∃ t, (execLegDown dt c leg s0) = .next t ∧ t.kept = s0.kept := ⟨_, rfl, by split <;> simp⟩
theorem execSsrcRelatch_kept (dt : Nat) (c : Nat) (s0 : State) :
    ∃ t, (execSsrcRelatch dt c s0) = .next t ∧ t.kept = s0.kept := ⟨_, rfl, by split <;> simp⟩
@[simp] theorem State.flowSecond_kept (s : State) (u : Nat) : (State.flowSecond s u).kept = s.kept := by simp [State.flowSecond]
theorem execPreviousSecondUpdate_kept (dt : Nat) (s0 : State) :
    ∃ t, (execPreviousSecondUpdate dt s0) = .next t ∧ t.kept = s0.kept := ⟨_, rfl, by simp [apply_ite State.kept, foldl_kept, foldr_kept, foldl_kept1, foldl_kept2, State.each]⟩

/-! ### Embed -/

@[simp] theorem State.freeSample_kept (s : State) :
    (State.freeSample s).2.kept = s.kept := by simp [State.freeSample]
@[simp] theorem State.achSample_kept (s : State) (a : Nat) (rate : Nat) (m : Int) :
    (State.achSample s a rate m).2.kept = s.kept := by unfold State.achSample; split <;> simp
@[simp] theorem State.slotSample_kept (s : State) (sl : Nat) (rate : Nat) (u : Int) :
    (State.slotSample s sl rate u).2.kept = s.kept := by unfold State.slotSample; split <;> simp
theorem collect_kept (s : State) (n : Nat) (f : State → Nat → Int × State) (hf : ∀ a q, (f a q).2.kept = a.kept) : (collect s n f).2.kept = s.kept := by
  unfold collect
  exact foldl_kept2 _ (by intros; simp [hf]) _ _
@[simp] theorem State.embSample_kept (s : State) (fuel d q : Nat) (u : Int) : (s.embSample fuel d q u).2.kept = s.kept := by
  induction fuel generalizing s d q u with
  | zero => rfl
  | succ n ih =>
    unfold State.embSample
    extract_lets e rate ms ch afv pos
    have ha : ∀ a seat pos, (afv a seat pos).2.kept = a.kept := by
      intro a seat pos
      simp only [afv]
      (repeat' split) <;> simp [ih]
    clear_value ch
    split
    · split
      · simp [ha]
      · rw [foldl_kept2]
        · simp [ha]
        · intro a x; simp [ha]
    · simp
    · rfl

/-! ### Transmit -/

@[simp] theorem State.putPacket_kept (s : State) (l : Leg) (p : RtpOut) (extra : List Int) :
    (State.putPacket s l p extra).kept = s.kept := by simp only [State.putPacket]; (repeat' split) <;> simp
@[simp] theorem State.txSend_kept (s : State) (c : Nat) (p : RtpOut) :
    (State.txSend s c p).kept = s.kept := by simp [State.txSend, apply_ite State.kept, foldl_kept, foldr_kept, foldl_kept1, foldl_kept2, State.each]
@[simp] theorem judgeTxflow_keeps (i : Issue) (s : State) :
    (judgeTxflow i s).keeps s := by simp [judgeTxflow, Judged.keeps, Verdict.keeps]
theorem execTxflow_kept (i : Issue) (s : State) :
    ∃ t, (execTxflow i s) = .next t ∧ t.kept = s.kept := ⟨_, rfl, State.issue_kept _ _ _ _ (by simp)⟩
@[simp] theorem State.commitTxflow_kept (s : State) (c : Nat) (vs : List Int) :
    (State.commitTxflow s c vs).kept = s.kept := by simp only [State.commitTxflow]; (repeat' split) <;> simp
@[simp] theorem State.freeOctets_kept (s : State) (n : Nat) :
    (State.freeOctets s n).2.kept = s.kept := by simp [State.freeOctets, apply_ite State.kept, foldl_kept, foldr_kept, foldl_kept1, foldl_kept2, State.each]
@[simp] theorem State.txBad_kept (s : State) (c : Nat) :
    (State.txBad s c).kept = s.kept := by simp only [State.txBad]; (repeat' split) <;> simp
@[simp] theorem State.txFrameEnd_kept (s : State) (c : Nat) :
    (State.txFrameEnd s c).kept = s.kept := by simp only [State.txFrameEnd]; (repeat' split) <;> simp
@[simp] theorem State.txFrame_kept (s9 : State) (c : Nat) (d : Nat) (now : Int) :
    (State.txFrame s9 c d now).kept = s9.kept := by simp [State.txFrame, apply_ite State.kept, foldl_kept, foldr_kept, foldl_kept1, foldl_kept2, State.each]
@[simp] theorem State.txVideoLine_kept (s : State) (c : Nat) (line : Nat) (ws : List Nat) :
    (State.txVideoLine s c line ws).kept = s.kept := by simp only [State.txVideoLine]; (repeat' split) <;> simp
@[simp] theorem State.txAncLine_kept (s : State) (c : Nat) (id : Nat) (line : Nat) (ws : List Nat) :
    (State.txAncLine s c id line ws).kept = s.kept := by simp [State.txAncLine]
@[simp] theorem State.txLine_kept (s : State) (d : Nat) (line : Nat) (start : Int) (ws : List Nat) :
    (State.txLine s d line start ws).kept = s.kept := by simp only [State.txLine, State.each]; (repeat' (first | split | (rw [foldl_kept]; intros) | (rw [foldr_kept]; intros))) <;> simp_all [apply_ite State.kept]
theorem execPacketDeparture_kept (dt : Nat) (c : Nat) (s0 : State) :
    ∃ t, (execPacketDeparture dt c s0) = .next t ∧ t.kept = s0.kept := ⟨_, rfl, by simp only [State.each]; (repeat' split) <;> simp [apply_ite State.kept, foldl_kept, foldr_kept, foldl_kept1, foldl_kept2]⟩
@[simp] theorem State.txSample_kept (s : State) (c q : Nat) (idx : Int) : (s.txSample c q idx).2.kept = s.kept := by
  unfold State.txSample
  dsimp only
  split
  · simp
  · split
    · rfl
    · dsimp only
      split <;> simp
@[simp] theorem State.audioOctets_kept (s : State) (c : Nat) (idx : Int) : (s.audioOctets c idx).2.kept = s.kept := by
  unfold State.audioOctets
  refine foldl_via2 _ _ (fun a i ha => ?_) _ _ rfl
  refine foldl_via2 _ _ (fun b q hb => ?_) _ _ ha
  simp [hb]
theorem execAudioPacketDeparture_kept (dt c : Nat) (s0 : State) : ∃ t, execAudioPacketDeparture dt c s0 = .next t ∧ t.kept = s0.kept := by
  unfold execAudioPacketDeparture
  extract_lets s u ty n idx r ts
  have hs : s.kept = s0.kept := by simp [s]
  clear_value ts
  refine ⟨_, rfl, ifUp_via _ _ _ _ hs ?_⟩
  split
  · exact hs
  · simp [r, hs]
theorem execAncPacketDeparture_kept (dt : Nat) (c : Nat) (s0 : State) :
    ∃ t, (execAncPacketDeparture dt c s0) = .next t ∧ t.kept = s0.kept := ⟨_, rfl, by (repeat' split) <;> simp⟩
theorem execDatagramDeparture_kept (dt : Nat) (c : Nat) (s0 : State) :
    ∃ t, (execDatagramDeparture dt c s0) = .next t ∧ t.kept = s0.kept := ⟨_, rfl, by simp only [State.each]; (repeat' split) <;> simp [apply_ite State.kept, foldl_kept, foldr_kept, foldl_kept1, foldl_kept2]⟩
theorem execTxIdle_kept (dt : Nat) (d : Nat) (s0 : State) :
    ∃ t, (execTxIdle dt d s0) = .next t ∧ t.kept = s0.kept := ⟨_, rfl, by simp only [State.each]; (repeat' split) <;> simp [apply_ite State.kept, foldl_kept, foldr_kept, foldl_kept1, foldl_kept2]⟩
@[simp] theorem State.applyTs_kept (s : State) (c : Nat) (v : Option Nat) :
    (State.applyTs s c v).kept = s.kept := by simp only [State.applyTs]; (repeat' split) <;> simp

/-! ### Forward -/

@[simp] theorem judgeFwdcfg_keeps (i : Issue) (s : State) :
    (judgeFwdcfg i s).keeps s := by simp [judgeFwdcfg, Judged.keeps, Verdict.keeps]
theorem execFwdcfg_kept (i : Issue) (s : State) :
    ∃ t, (execFwdcfg i s) = .next t ∧ t.kept = s.kept := ⟨_, rfl, State.issue_kept _ _ _ _ (by simp)⟩
@[simp] theorem State.commitFwdcfg_kept (s : State) (o : Nat) (vs : List Int) :
    (State.commitFwdcfg s o vs).kept = s.kept := by simp only [State.commitFwdcfg]; (repeat' split) <;> simp
@[simp] theorem State.fwdSend_kept (s : State) (o : Nat) (p : FwdIn) : (s.fwdSend o p).kept = s.kept := by
  unfold State.fwdSend
  extract_lets u a b q pt ssrc tooLong h0 h1 one
  have ho : ∀ x on l k, (one x on l k).1.kept = x.1.kept := by
    intro x on l k
    simp only [one]
    (repeat' split) <;> simp
  clear_value one
  dsimp only
  split <;> simp [ho]
@[simp] theorem State.fwdOutput_kept (s : State) (x o : Nat) (p : FwdIn) : (s.fwdOutput x o p).kept = s.kept := by
  unfold State.fwdOutput
  dsimp only
  (repeat' split) <;> simp
@[simp] theorem State.fwdPacket_kept (s : State) (x : Nat) (udp : Bool) (p : FwdIn) : (s.fwdPacket x udp p).kept = s.kept := by
  unfold State.fwdPacket
  dsimp only
  split
  · exact foldl_kept _ (by intros; simp) _ _
  · rw [foldl_kept _ (by intros; simp), State.wrs_kept]
    exact foldl_kept _ (by intros; simp) _ _
theorem execFwdForcedCut_kept (dt : Nat) (o : Nat) (s0 : State) :
    ∃ t, (execFwdForcedCut dt o s0) = .next t ∧ t.kept = s0.kept := ⟨_, rfl, by (repeat' split) <;> simp⟩
theorem execFwdInputLoss_kept (dt : Nat) (o : Nat) (s0 : State) :
    ∃ t, (execFwdInputLoss dt o s0) = .next t ∧ t.kept = s0.kept := ⟨_, rfl, by split <;> simp⟩
@[simp] theorem State.toSteward_kept (s : State) (m : Nat) :
    (State.toSteward s m).kept = s.kept := by simp only [State.toSteward]; (repeat' split) <;> simp
@[simp] theorem State.routed_kept (s : State) (m : Nat) (e : Eth) (ip : Ip) (port : Nat) (found : Option (Nat × Nat)) :
    (State.routed s m e ip port found).kept = s.kept := by
  unfold State.routed
  extract_lets udp rtp
  split
  · simp
  · rename_i n r
    extract_lets s1
    have h1 : s1.kept = s.kept := by simp [s1]
    clear_value rtp udp s1
    generalize resAction r = ra
    split
    · simp [h1]
    · split <;> simp [h1]
    · simp [h1]
    · exact h1
@[simp] theorem State.ipPacket_kept (s : State) (m : Nat) (e : Eth) (ip : Ip) : (State.ipPacket s m e ip).kept = s.kept := by
  unfold State.ipPacket
  extract_lets udp port
  split
  · simp
  split
  · rfl
  · simp
@[simp] theorem State.ethFrame_kept (s : State) (m : Nat) (e : Option Eth) : (s.ethFrame m e).kept = s.kept := by
  unfold State.ethFrame
  cases e with
  | none => simp
  | some e =>
    dsimp only
    (repeat' split) <;> simp
theorem execMacFrameRx_kept (dt m : Nat) (fcsOk : Bool) (frame : List Byte) (taken : Nat) (s0 : State) :
    ∃ t, execMacFrameRx dt m fcsOk frame taken s0 = .next t ∧ t.kept = s0.kept := by
  unfold execMacFrameRx
  extract_lets s u l size s1 dst own
  have hs : s.kept = s0.kept := by simp [s]
  have h1 : s1.kept = s0.kept := by simp [s1, hs]
  clear_value s1
  refine ⟨_, rfl, ?_⟩
  (repeat' split) <;> simp [hs, h1]
@[simp] theorem State.sendReports_kept (s : State) (m : Nat) (v6 : Bool) (rs : List (Bool × Group)) :
    (State.sendReports s m v6 rs).kept = s.kept := by simp [State.sendReports, apply_ite State.kept, foldl_kept, foldr_kept, foldl_kept1, foldl_kept2, State.each]
theorem execMcastQueryRx_kept (dt : Nat) (m : Nat) (q : QueryIn) (s0 : State) :
    ∃ t, (execMcastQueryRx dt m q s0) = .next t ∧ t.kept = s0.kept := ⟨_, rfl, by simp only [State.each]; repeat' (first | rfl | assumption | (refine ifUp_via _ _ _ _ ?_ ?_) | split | (refine foldl_via _ _ (fun _ _ _ => ?_) _ _ ?_) | (refine foldl_via1 _ _ (fun _ _ _ => ?_) _ _ ?_) | (refine foldl_via2 _ _ (fun _ _ _ => ?_) _ _ ?_) | (refine foldr_via _ _ (fun _ _ _ => ?_) _ _ ?_)) <;> simp_all [apply_ite State.kept]⟩
theorem execMcastReport_kept (dt : Nat) (m : Nat) (s0 : State) :
    ∃ t, (execMcastReport dt m s0) = .next t ∧ t.kept = s0.kept := ⟨_, rfl, by split <;> simp⟩
theorem execMcastCompatExpiry_kept (dt : Nat) (m : Nat) (v6 : Bool) (s0 : State) :
    ∃ t, (execMcastCompatExpiry dt m v6 s0) = .next t ∧ t.kept = s0.kept := ⟨_, rfl, by split <;> simp⟩

/-! ### Heads -/

@[simp] theorem State.takeTile_kept (s : State) (w : Nat) (t : TileIn) :
    (State.takeTile s w t).kept = s.kept := by simp only [State.takeTile]; (repeat' split) <;> simp
@[simp] theorem State.makeTile_kept (s : State) (w : Nat) :
    (State.makeTile s w).kept = s.kept := by unfold State.makeTile; split <;> simp
@[simp] theorem State.endInput_kept (s : State) (w : Nat) :
    (State.endInput s w).kept = s.kept := by simp only [State.endInput]; (repeat' split) <;> simp
@[simp] theorem State.winnowLine_kept (s : State) (w : Nat) (src : Nat) (l : SeatLine) (cut : Bool) :
    (State.winnowLine s w src l cut).kept = s.kept := by simp only [State.winnowLine]; (repeat' split) <;> simp
theorem execTileComplete_kept (dt : Nat) (w : Nat) (s0 : State) :
    ∃ t, (execTileComplete dt w s0) = .next t ∧ t.kept = s0.kept := ⟨_, rfl, by simp [apply_ite State.kept, foldl_kept, foldr_kept, foldl_kept1, foldl_kept2, State.each]⟩
@[simp] theorem State.leaveFallback_kept (s : State) (h : Nat) (l : Nat) :
    (State.leaveFallback s h l).kept = s.kept := by simp only [State.leaveFallback]; (repeat' split) <;> simp
@[simp] theorem State.showFallback_kept (s : State) (h : Nat) (l : Nat) :
    (State.showFallback s h l).kept = s.kept := by simp only [State.showFallback]; (repeat' split) <;> simp
@[simp] theorem State.drawTile_kept (s : State) (h : Nat) (l : Nat) (t : Tile) (st : Int) :
    (State.drawTile s h l t st).kept = s.kept := by simp [State.drawTile]
@[simp] theorem State.layerDecide_kept (s : State) (h : Nat) (l : Nat) (td : Nat) (choice : Option Nat) :
    (State.layerDecide s h l td choice).kept = s.kept := by simp only [State.layerDecide]; (repeat' split) <;> simp
@[simp] theorem State.headHeader_rel (k0) (s : State) (h : Nat) (at_ : Nat) (seq : Nat) (o : Int) (tick : Int) (h0 : keptRel k0 s.kept) :
    keptRel k0 (State.headHeader s h at_ seq o tick).kept := by simp [State.headHeader, h0]
@[simp] theorem State.eccLines_kept (s : State) (h : Nat) (ue : List (Nat × Nat)) :
    (State.eccLines s h ue).kept = s.kept := by simp [State.eccLines, apply_ite State.kept, foldl_kept, foldr_kept, foldl_kept1, foldl_kept2, State.each]
@[simp] theorem State.meterStep_kept (s : State) (h : Nat) (l : Nat) :
    (State.meterStep s h l).kept = s.kept := by simp only [State.meterStep]; (repeat' split) <;> simp
@[simp] theorem State.sendHead_kept (s : State) (h : Nat) (rows : List PicLine) :
    (State.sendHead s h rows).kept = s.kept := by simp [State.sendHead]
@[simp] theorem State.headPicture_rel (k0) (s : State) (h : Nat) (at_ : Nat) (rows : List PicLine) (h0 : keptRel k0 s.kept) :
    keptRel k0 (State.headPicture s h at_ rows).kept := by unfold State.headPicture; (try dsimp only); (repeat' split) <;> simp_all [apply_ite State.kept, apply_ite (keptRel _), foldl_kept, foldr_kept, foldl_kept1, foldl_kept2, foldl_rel, foldl_rel1, foldl_rel2, State.each]
@[simp] theorem State.composeHead_rel (k0) (s : State) (h : Nat) (h0 : keptRel k0 s.kept) :
    keptRel k0 (State.composeHead s h).kept := by unfold State.composeHead; (try dsimp only); (repeat' split) <;> simp [h0, apply_ite State.kept, apply_ite (keptRel _), foldl_kept, foldr_kept, foldl_kept1, foldl_kept2, foldl_rel, foldl_rel1, foldl_rel2, State.each]
@[simp] theorem State.layerTurn_kept (s : State) (h : Nat) (l : Nat) :
    (State.layerTurn s h l).kept = s.kept := by simp [State.layerTurn, apply_ite State.kept, foldl_kept, foldr_kept, foldl_kept1, foldl_kept2, State.each]
theorem execHeadDecision_rel (dt : Nat) (h : Nat) (ue : List (Nat × Nat)) (s0 : State) :
    ∃ t, (execHeadDecision dt h ue s0) = .next t ∧ ∀ k0, keptRel k0 s0.kept → keptRel k0 t.kept := ⟨_, rfl, fun k0 h0 => by (repeat' split) <;> simp [h0, apply_ite State.kept, apply_ite (keptRel _), foldl_kept, foldr_kept, foldl_kept1, foldl_kept2, foldl_rel, foldl_rel1, foldl_rel2, State.each]⟩

/-! ### OutStage -/

@[simp] theorem State.probeFrameEnd_kept (s : State) (p : Nat) :
    (State.probeFrameEnd s p).kept = s.kept := by simp only [State.probeFrameEnd]; (repeat' split) <;> simp
@[simp] theorem State.captureBytes_rel (k0) (s : State) (p at_ : Nat) (bs : List Nat) (h0 : keptRel k0 s.kept) :
    keptRel k0 (s.captureBytes p at_ bs).kept := by
  unfold State.captureBytes
  extract_lets u cs s1 m
  have h1 : keptRel k0 s1.kept := by
    have : s1.kept = s.kept := by simp only [s1]; exact foldl_kept _ (fun a c => by simp) _ _
    rw [this]; exact h0
  split
  · simpa using h1
  · simp only [State.wr_kept]
    refine rel_barn k0 s1 { s1 with barn := m } h1 rfl rfl rfl rfl fun w => ?_
    exact foldl_barn _ (fun a b h => barnPut_wf _ _ _ h) _ _ w
@[simp] theorem State.probeLine_rel (k0) (s : State) (p line : Nat) (start : Int) (ws : List Nat) (crc : Nat) (h : keptRel k0 s.kept) :
    keptRel k0 (s.probeLine p line start ws crc).kept := by
  have fin : ∀ (c : Prop) [Decidable c] (a : State), keptRel k0 a.kept → keptRel k0 (if c then a.probeFrameEnd p else a).kept := by
    intro c _ a ha; split <;> simp [ha]
  unfold State.probeLine
  extract_lets u d begins s0 n live s1 x pl r T step t e off has run x' y s2
  have h0 : keptRel k0 s0.kept := by simp only [s0]; split <;> simp [h]
  have h1 : keptRel k0 s1.kept := by simp only [s1]; split <;> simp [h0]
  have h2 : keptRel k0 s2.kept := by
    simp only [s2]
    clear_value s1
    split
    · simp only [x]; split <;> simp [h1]
    · simp [h1]
    · simp [h1]
    · simp only [y, x']
      (repeat' split) <;> simp [h1, State.captureBytes_rel]
  clear_value s2
  exact fin _ _ h2
@[simp] theorem State.noteRow_kept (s : State) (d : Nat) (p : Nat) (frames : Nat) (line : Nat) (crc : Nat) :
    (State.noteRow s d p frames line crc).kept = s.kept := by simp [State.noteRow]
@[simp] theorem State.realign_kept (s : State) (d : Nat) (frames : Nat) :
    (State.realign s d frames).kept = s.kept := by simp only [State.realign]; (repeat' split) <;> simp
@[simp] theorem State.compareLine_kept (s : State) (d : Nat) (line : Nat) (crc : Nat) (t : Int) :
    (State.compareLine s d line crc t).kept = s.kept := by simp [State.compareLine, apply_ite State.kept, foldl_kept, foldr_kept, foldl_kept1, foldl_kept2, State.each]
@[simp] theorem State.embedStream_kept (s : State) (hd : Bool) (ws : List Nat) : (s.embedStream hd ws).2.kept = s.kept := by
  unfold State.embedStream
  refine (foldl_kept2 _ (fun a e => ?_) _ _).trans rfl
  split <;> simp
@[simp] theorem State.presentSamples_kept (s : State) (d : Nat) (start : Int) (dur : Nat) (hd : Bool) :
    (s.presentSamples d start dur hd).kept = s.kept := by
  unfold State.presentSamples
  refine foldl_kept _ (fun a u => ?_) _ _
  simp only [State.emit_kept]
  exact collect_kept _ _ _ fun x q => State.embSample_kept _ _ _ _ _
@[simp] theorem State.embedStage_kept (s : State) (d : Nat) (l : SeatLine) (ss : List (List Nat)) (start : Int) (dur : Nat) :
    (s.embedStage d l ss start dur).2.kept = s.kept := by
  unfold State.embedStage
  extract_lets e r lost
  have hr : r.2.kept = s.kept := foldl_via2 _ _ (fun a w h => by simp [h]) _ _ rfl
  clear_value r
  split
  · simp only [State.presentSamples_kept]; split <;> simp [hr]
  · rfl
@[simp] theorem State.outputStage_kept (s : State) (d : Nat) (l : SeatLine) (start : Int) (dur : Nat) :
    (s.outputStage d l start dur).kept = s.kept := by
  unfold State.outputStage
  extract_lets u ss r ln mark regs out ws s1
  have hr : r.2.kept = s.kept := by simp [r]
  have h1 : s1.kept = s.kept := by simp [s1, hr]
  clear_value s1
  split
  · rfl
  · split <;> simp [h1]
@[simp] theorem State.emitLine_rel (k0) (s : State) (d : Nat) (l : SeatLine) (start : Int) (dur : Nat) (h : keptRel k0 s.kept) :
    keptRel k0 (s.emitLine d l start dur).kept := by
  unfold State.emitLine
  extract_lets u crc shows s1 s2 s3 s4 s5
  have h1 : s1.kept = s.kept := by simp only [s1]; split <;> simp
  have h3 : s3.kept = s.kept := by simp [s3, s2, h1]
  have h4 : s4.kept = s.kept := foldl_via _ _ (fun a r h => by simp [h]) _ _ h3
  have h5 : keptRel k0 s5.kept := by
    simp only [s5]; split
    · exact State.probeLine_rel k0 _ _ _ _ _ _ (by rw [h4]; exact h)
    · rw [h4]; exact h
  clear_value s5
  split
  · simp [h5]
  · exact h5
@[simp] theorem State.feedInput_kept (s : State) (d : Nat) (l : LineOut) (y : SeatLine) :
    (State.feedInput s d l y).kept = s.kept := by simp only [State.feedInput]; (repeat' split) <;> simp
@[simp] theorem State.timedOut_rel (k0) (s : State) (d line : Nat) (h : keptRel k0 s.kept) : keptRel k0 (s.timedOut d line).kept := by
  unfold State.timedOut
  extract_lets p dur r
  have hr : keptRel k0 r.2.kept := by simp [r, h]
  clear_value r
  split
  · exact h
  · exact State.emitLine_rel k0 _ _ _ _ _ hr
@[simp] theorem State.followOut_rel (k0) (s : State) (d : Nat) (l : LineOut) (h : keptRel k0 s.kept) : keptRel k0 (s.followOut d l).kept := by
  unfold State.followOut
  extract_lets u r
  have hr : keptRel k0 r.2.kept := by simp [r, h]
  clear_value r
  split
  · exact h
  · split
    · exact h
    · extract_lets s1
      have h1 : keptRel k0 s1.kept := by simp [s1, hr]
      clear_value s1
      simp only [State.feedInput_kept]
      split
      · exact State.emitLine_rel k0 _ _ _ _ _ h1
      · simp [h1]
theorem execCellLineOut_rel (dt seat : Nat) (l : LineOut) (s0 : State) :
    ∃ t, execCellLineOut dt seat l s0 = .next t ∧ ∀ k0, keptRel k0 s0.kept → keptRel k0 t.kept := by
  refine ⟨_, rfl, fun k0 h0 => ?_⟩
  have h1 : keptRel k0 (s0.after dt).kept := by simpa using h0
  generalize s0.after dt = s at h1
  split
  · exact h1
  · refine State.ifUp_rel k0 _ _ _ h1 ?_
    split <;> simp [h1]

end Sys2Proof.Machine
end

