-- ==== Sys2Proof/Laws/FrameD.lean ====
section
/-!
SUPPORT. What the operations of Commit, HostPort, Twin, Flash, Threads, Boot, Footpath leave alone.
-/
set_option linter.unusedSimpArgs false
namespace Sys2Proof.Machine

/-! ### Commit -/

@[simp] theorem State.worsen_kept (s : State) (pid : Nat) (c : Nat) :
    (State.worsen s pid c).kept = s.kept := by simp [State.worsen]
@[simp] theorem State.commitCfg_kept (s : State) (n : Int) (op : Nat) (k : Nat) (sub : Nat) (vs : List Int) :
    (State.commitCfg s n op k sub vs).2.kept = s.kept := by unfold State.commitCfg; split <;> simp
@[simp] theorem State.commitOne_kept (s : State) (n : Int) (e : Staged) :
    (State.commitOne s n e).kept = s.kept := by simp only [State.commitOne, State.each]; (repeat' split) <;> simp [apply_ite State.kept, foldl_kept, foldr_kept, foldl_kept1, foldl_kept2]
@[simp] theorem State.resolveNew_kept (s : State) (p : Nat) (n : Int) :
    (State.resolveNew s p n).kept = s.kept := by simp [State.resolveNew, apply_ite State.kept, foldl_kept, foldr_kept, foldl_kept1, foldl_kept2, State.each]
@[simp] theorem State.sendSigns_kept (s : State) (p : Nat) (n : Int) :
    (State.sendSigns s p n).kept = s.kept := by simp [State.sendSigns, apply_ite State.kept, foldl_kept, foldr_kept, foldl_kept1, foldl_kept2, State.each]
@[simp] theorem State.tickNow_kept (s : State) (p : Nat) (n : Int) :
    (State.tickNow s p n).kept = s.kept := by simp [State.tickNow, apply_ite State.kept, foldl_kept, foldr_kept, foldl_kept1, foldl_kept2, State.each]
@[simp] theorem State.tickFault_kept (s : State) (p : Nat) (n : Int) :
    (State.tickFault s p n).kept = s.kept := by simp [State.tickFault, apply_ite State.kept, foldl_kept, foldr_kept, foldl_kept1, foldl_kept2, State.each]
theorem execTick_kept (dt : Nat) (p : Nat) (s0 : State) :
    ∃ t, (execTick dt p s0) = .next t ∧ t.kept = s0.kept := ⟨_, rfl, by (repeat' split) <;> simp⟩
theorem execCurfewResolution_kept (dt : Nat) (p : Nat) (s0 : State) :
    ∃ t, (execCurfewResolution dt p s0) = .next t ∧ t.kept = s0.kept := ⟨_, rfl, by (repeat' split) <;> simp⟩
@[simp] theorem State.resumeWait_kept (s : State) (t : Nat) (kinds : List Nat) (f : State → Bool) (g : State → State) (hg : ∀ a, (g a).kept = a.kept) :
    (State.resumeWait s t kinds f g).kept = s.kept := by simp only [State.resumeWait, State.each]; (repeat' split) <;> simp_all [apply_ite State.kept, foldl_kept, foldr_kept, foldl_kept1, foldl_kept2]
theorem execTickWaitResume_kept (dt : Nat) (th : Nat) (s0 : State) :
    ∃ t, (execTickWaitResume dt th s0) = .next t ∧ t.kept = s0.kept := ⟨_, rfl, by simp []⟩
theorem execTimeWaitResume_kept (dt : Nat) (th : Nat) (s0 : State) :
    ∃ t, (execTimeWaitResume dt th s0) = .next t ∧ t.kept = s0.kept := ⟨_, rfl, by simp []⟩
theorem execCaptWaitResume_kept (dt : Nat) (th : Nat) (s0 : State) :
    ∃ t, (execCaptWaitResume dt th s0) = .next t ∧ t.kept = s0.kept := ⟨_, rfl, by simp []⟩
theorem execTargetHoldRelease_kept (dt : Nat) (th : Nat) (s0 : State) :
    ∃ t, (execTargetHoldRelease dt th s0) = .next t ∧ t.kept = s0.kept := ⟨_, rfl, by simp []⟩
theorem execSyncResume_kept (dt th : Nat) (s0 : State) : ∃ t, execSyncResume dt th s0 = .next t ∧ t.kept = s0.kept := by
  refine ⟨_, rfl, ?_⟩
  rw [← State.after_kept s0 dt]
  refine State.resumeWait_kept _ _ _ _ _ fun a => ?_
  split <;> simp
@[simp] theorem State.compareBlocks_kept (s : State) :
    (State.compareBlocks s).kept = s.kept := by simp [State.compareBlocks, apply_ite State.kept, foldl_kept, foldr_kept, foldl_kept1, foldl_kept2, State.each]
theorem execMixBlock_kept (dt : Nat) (ue : List (Nat × Nat)) (s0 : State) :
    ∃ t, (execMixBlock dt ue s0) = .next t ∧ t.kept = s0.kept := ⟨_, rfl, by (repeat' split) <;> simp⟩
@[simp] theorem judgeUnlistedOpcode_keeps  (s : State) :
    (judgeUnlistedOpcode  s).keeps s := by simp [judgeUnlistedOpcode, Judged.keeps, Verdict.keeps]
theorem execUnlistedOpcode_kept (i : Issue) (s : State) :
    ∃ t, (execUnlistedOpcode i s) = .next t ∧ t.kept = s.kept := ⟨_, rfl, State.issue_kept _ _ _ _ (by simp)⟩

/-! ### HostPort -/

@[simp] theorem State.hostBad_kept (s : State) (ctr : Nat) (code : Nat) :
    (State.hostBad s ctr code).kept = s.kept := by simp [State.hostBad]
@[simp] theorem State.parityError_kept (s : State) :
    (State.parityError s).kept = s.kept := by simp [State.parityError]
@[simp] theorem State.errandTransfer_kept (s0 : State) (q : Nat) (bytes : List Byte) (bad : Option Nat) :
    (State.errandTransfer s0 q bytes bad).kept = s0.kept := by simp only [State.errandTransfer]; (repeat' split) <;> simp
theorem execErrand_kept (dt : Nat) (queue : Nat) (bytes : List Byte) (bad : Option Nat) (s0 : State) :
    ∃ t, (execErrand dt queue bytes bad s0) = .next t ∧ t.kept = s0.kept := ⟨_, rfl, by split <;> simp⟩
theorem execErrandPartner_kept (dt : Nat) (bytes : List Byte) (bad : Option Nat) (s0 : State) :
    ∃ t, (execErrandPartner dt bytes bad s0) = .next t ∧ t.kept = s0.kept := ⟨_, rfl, by (repeat' split) <;> simp⟩
@[simp] theorem State.badCommand_kept (s : State) :
    (State.badCommand s).kept = s.kept := by simp [State.badCommand]
theorem execSetaddr_kept (dt : Nat) (bytes : List Byte) (bad : Option Nat) (s0 : State) :
    ∃ t, (execSetaddr dt bytes bad s0) = .next t ∧ t.kept = s0.kept := ⟨_, rfl, by (repeat' split) <;> simp⟩
@[simp] theorem State.hostWord_kept (s : State) (start : Nat) (a : Nat) :
    (State.hostWord s start a).2.1.kept = s.kept := by unfold State.hostWord; split <;> simp
@[simp] theorem State.hostWords_kept (s : State) (start a n : Nat) : (s.hostWords start a n).2.1.kept = s.kept := by
  induction n generalizing s a with
  | zero => rfl
  | succ n ih => simp only [State.hostWords, ih]; simp
theorem execRead_kept (dt n : Nat) (hdr : Bool) (s0 : State) : ∃ t, execRead dt n hdr s0 = .next t ∧ t.kept = s0.kept := by
  rw [← State.after_kept s0 dt]
  unfold execRead
  generalize s0.after dt = s
  dsimp only
  generalize hr : State.hostWords _ _ _ _ = r
  have hk : r.2.1.kept = s.kept := by rw [← hr]; simp
  refine ⟨_, rfl, ?_⟩
  split
  · rfl
  · simp only [State.emit_kept]
    (repeat' split) <;> simp [hk]
@[simp] theorem State.writeReadPtr_kept (s : State) (v : Nat) :
    (State.writeReadPtr s v).kept = s.kept := by simp only [State.writeReadPtr]; (repeat' split) <;> simp
@[simp] theorem State.writeReplyPtr_kept (s : State) (q : Nat) (v : Nat) :
    (State.writeReplyPtr s q v).kept = s.kept := by simp only [State.writeReplyPtr]; (repeat' split) <;> simp
@[simp] theorem State.writeField_kept (s : State) (u : Nat) (f : Field) (v : Nat) :
    (State.writeField s u f v).kept = s.kept := by simp only [State.writeField]; (repeat' split) <;> simp
@[simp] theorem State.writeBlock_kept (s : State) (u : Nat) (k : Nat) (w : Word) :
    (State.writeBlock s u k w).kept = s.kept := by simp only [State.writeBlock, State.each]; (repeat' split) <;> simp [apply_ite State.kept, foldl_kept, foldr_kept, foldl_kept1, foldl_kept2]
@[simp] theorem State.writeWord_kept (s : State) (a : Nat) (w : Word) :
    (State.writeWord s a w).kept = s.kept := by simp only [State.writeWord]; (repeat' split) <;> simp
@[simp] theorem State.writeWords_kept (s : State) (a : Nat) (l : List Word) : (s.writeWords a l).kept = s.kept := by
  induction l generalizing s a with
  | nil => rfl
  | cons w t ih => simp only [State.writeWords, ih]; split <;> simp
theorem execRegwr_kept (dt : Nat) (bytes : List Byte) (bad : Option Nat) (s0 : State) : ∃ t, execRegwr dt bytes bad s0 = .next t ∧ t.kept = s0.kept := by
  refine ⟨_, rfl, ?_⟩
  rw [← State.after_kept s0 dt]
  generalize s0.after dt = s
  (repeat' split) <;> simp
@[simp] theorem State.writeAt_kept (s0 : State) (u : Nat) (f : Field) (w : Word) :
    (State.writeAt s0 u f w).kept = s0.kept := by unfold State.writeAt; split <;> simp
theorem execReadPtr_kept (dt : Nat) (w : Word) (s0 : State) :
    ∃ t, (execReadPtr dt w s0) = .next t ∧ t.kept = s0.kept := ⟨_, rfl, by simp []⟩
theorem execReplyRdPtr_kept (dt : Nat) (queue : Nat) (w : Word) (s0 : State) :
    ∃ t, (execReplyRdPtr dt queue w s0) = .next t ∧ t.kept = s0.kept := ⟨_, rfl, by split <;> simp⟩
theorem execIbiMask_kept (dt : Nat) (w : Word) (s0 : State) :
    ∃ t, (execIbiMask dt w s0) = .next t ∧ t.kept = s0.kept := ⟨_, rfl, by simp []⟩
theorem execIoSlew_kept (dt : Nat) (w : Word) (s0 : State) :
    ∃ t, (execIoSlew dt w s0) = .next t ∧ t.kept = s0.kept := ⟨_, rfl, by simp []⟩
theorem State.ccc_kept (s0 : State) (dt : Nat) (f : State → State) (hf : ∀ a, (f a).kept = a.kept) :
    ∃ t, (State.ccc s0 dt f) = .next t ∧ t.kept = s0.kept := ⟨_, rfl, by (repeat' split) <;> simp_all⟩
@[simp] theorem State.answer_kept (s : State) (n : Nat) (v : Nat) :
    (State.answer s n v).kept = s.kept := by simp [State.answer]
theorem execEnec_kept (dt : Nat) (events : Byte) (s : State) :
    ∃ t, (execEnec dt events s) = .next t ∧ t.kept = s.kept := ⟨_, rfl, by (repeat' split) <;> simp⟩
theorem execDisec_kept (dt : Nat) (events : Byte) (s : State) :
    ∃ t, (execDisec dt events s) = .next t ∧ t.kept = s.kept := ⟨_, rfl, by (repeat' split) <;> simp⟩
theorem execRstdaa_kept (dt : Nat) (s : State) :
    ∃ t, (execRstdaa dt s) = .next t ∧ t.kept = s.kept := ⟨_, rfl, by split <;> simp⟩
theorem execEntdaa_kept (dt : Nat) (addr : Nat) (s : State) :
    ∃ t, (execEntdaa dt addr s) = .next t ∧ t.kept = s.kept := ⟨_, rfl, by simp only [State.each]; (repeat' split) <;> simp [apply_ite State.kept, foldl_kept, foldr_kept, foldl_kept1, foldl_kept2]⟩
theorem execSetmwl_kept (dt : Nat) (v : Nat) (s : State) :
    ∃ t, (execSetmwl dt v s) = .next t ∧ t.kept = s.kept := ⟨_, rfl, by split <;> simp⟩
theorem execSetmrl_kept (dt : Nat) (v : Nat) (s : State) :
    ∃ t, (execSetmrl dt v s) = .next t ∧ t.kept = s.kept := ⟨_, rfl, by (repeat' split) <;> simp⟩
theorem execEnthdr0_kept (dt : Nat) (s : State) :
    ∃ t, (execEnthdr0 dt s) = .next t ∧ t.kept = s.kept := ⟨_, rfl, by split <;> simp⟩
theorem execRstact_kept (dt : Nat) (action : Nat) (get : Bool) (s : State) :
    ∃ t, (execRstact dt action get s) = .next t ∧ t.kept = s.kept := ⟨_, rfl, by (repeat' split) <;> simp⟩
theorem execSetdasa_kept (dt : Nat) (addr : Nat) (s : State) :
    ∃ t, (execSetdasa dt addr s) = .next t ∧ t.kept = s.kept := ⟨_, rfl, by simp only [State.each]; (repeat' split) <;> simp [apply_ite State.kept, foldl_kept, foldr_kept, foldl_kept1, foldl_kept2]⟩
theorem execSetnewda_kept (dt : Nat) (addr : Nat) (s : State) :
    ∃ t, (execSetnewda dt addr s) = .next t ∧ t.kept = s.kept := ⟨_, rfl, by simp only [State.each]; (repeat' split) <;> simp [apply_ite State.kept, foldl_kept, foldr_kept, foldl_kept1, foldl_kept2]⟩
theorem execGetmwl_kept (dt : Nat) (s : State) :
    ∃ t, (execGetmwl dt s) = .next t ∧ t.kept = s.kept := ⟨_, rfl, by split <;> simp⟩
theorem execGetmrl_kept (dt : Nat) (s : State) :
    ∃ t, (execGetmrl dt s) = .next t ∧ t.kept = s.kept := ⟨_, rfl, by split <;> simp⟩
theorem execGetpid_kept (dt : Nat) (s : State) :
    ∃ t, (execGetpid dt s) = .next t ∧ t.kept = s.kept := ⟨_, rfl, by split <;> simp⟩
theorem execGetbcr_kept (dt : Nat) (s : State) :
    ∃ t, (execGetbcr dt s) = .next t ∧ t.kept = s.kept := ⟨_, rfl, by split <;> simp⟩
theorem execGetdcr_kept (dt : Nat) (s : State) :
    ∃ t, (execGetdcr dt s) = .next t ∧ t.kept = s.kept := ⟨_, rfl, by split <;> simp⟩
theorem execGetstatus_kept (dt : Nat) (s : State) :
    ∃ t, (execGetstatus dt s) = .next t ∧ t.kept = s.kept := ⟨_, rfl, by split <;> simp⟩
theorem execGetmxds_kept (dt : Nat) (s : State) :
    ∃ t, (execGetmxds dt s) = .next t ∧ t.kept = s.kept := ⟨_, rfl, by split <;> simp⟩
theorem execGetcaps_kept (dt : Nat) (s : State) :
    ∃ t, (execGetcaps dt s) = .next t ∧ t.kept = s.kept := ⟨_, rfl, by split <;> simp⟩
theorem execCccUnsupported_kept (dt : Nat) (code : Nat) (directed : Bool) (s : State) :
    ∃ t, (execCccUnsupported dt code directed s) = .next t ∧ t.kept = s.kept := ⟨_, rfl, by (repeat' split) <;> simp⟩
theorem execHdrExitPattern_kept (dt : Nat) (s0 : State) :
    ∃ t, (execHdrExitPattern dt s0) = .next t ∧ t.kept = s0.kept := ⟨_, rfl, by simp []⟩
theorem execUnknownCommand_kept (dt : Nat) (s0 : State) :
    ∃ t, (execUnknownCommand dt s0) = .next t ∧ t.kept = s0.kept := ⟨_, rfl, by split <;> simp⟩
@[simp] theorem State.drain_kept (s : State) (master : Nat) (beats : Nat) :
    (State.drain s master beats).kept = s.kept := by unfold State.drain; split <;> simp
theorem execTargetResetPattern_kept (dt : Nat) (beats : Nat) (s0 : State) :
    ∃ t, (execTargetResetPattern dt beats s0) = .next t ∧ t.kept = s0.kept := ⟨_, rfl, by split <;> simp⟩
theorem execIbiRequest_kept (dt : Nat) (ack : Bool) (s0 : State) :
    ∃ t, (execIbiRequest dt ack s0) = .next t ∧ t.kept = s0.kept := ⟨_, rfl, by (repeat' split) <;> simp⟩
theorem execCrierRepeatInterrupt_kept (dt : Nat) (s0 : State) :
    ∃ t, (execCrierRepeatInterrupt dt s0) = .next t ∧ t.kept = s0.kept := ⟨_, rfl, by split <;> simp⟩

/-! ### Twin -/

theorem judgeTwincfg_soft (i : Issue) (s : State) : (judgeTwincfg i s).soft s := by
  refine ⟨?_, fun a => rfl⟩
  show keptRel s.kept _
  simp only [State.showOk_kept]
  split
  · simp
  · split
    · exact State.setPair_rel _ _ _ (by simp)
    · simp only [State.wrs_kept]; exact State.setPair_rel _ _ _ (by simp)
theorem execTwincfg_rel (i : Issue) (s : State) : ∃ t, execTwincfg i s = .next t ∧ ∀ k0, keptRel k0 s.kept → keptRel k0 t.kept :=
  ⟨_, rfl, fun k0 h => State.issue_soft k0 _ _ _ _ (fun a => judgeTwincfg_soft _ a) h⟩
@[simp] theorem judgeTwinswitch_keeps (i : Issue) (s : State) :
    (judgeTwinswitch i s).keeps s := by simp [judgeTwinswitch, Judged.keeps, Verdict.keeps]
theorem execTwinswitch_kept (i : Issue) (s : State) :
    ∃ t, (execTwinswitch i s) = .next t ∧ t.kept = s.kept := ⟨_, rfl, State.issue_kept _ _ _ _ (by simp)⟩
@[simp] theorem judgeTwinmark_keeps (i : Issue) (s : State) :
    (judgeTwinmark i s).keeps s := by unfold judgeTwinmark Judged.keeps; (try dsimp only); refine ⟨?_, fun a => ?_⟩ <;> (repeat' split) <;> simp [Verdict.keeps, apply_ite State.kept, foldl_kept, foldr_kept, foldl_kept1, foldl_kept2, State.each]
theorem execTwinmark_kept (i : Issue) (s : State) :
    ∃ t, (execTwinmark i s) = .next t ∧ t.kept = s.kept := ⟨_, rfl, State.issue_kept _ _ _ _ (by simp)⟩
theorem execClearUnreplicated_kept (i : Issue) (s : State) :
    ∃ t, (execClearUnreplicated i s) = .next t ∧ t.kept = s.kept := ⟨_, rfl, State.issue_kept _ _ _ _ (by simp)⟩
@[simp] theorem State.alleyTake_kept (s : State) (m : LinkMsg) (f : State → State) (hf : ∀ a, (f a).kept = a.kept) :
    (State.alleyTake s m f).kept = s.kept := by simp only [State.alleyTake]; (repeat' split) <;> simp_all

@[simp] theorem State.alleyTake_rel (k0) (s : State) (m : LinkMsg) (f : State → State) (hf : ∀ a, keptRel k0 a.kept → keptRel k0 (f a).kept)
    (h0 : keptRel k0 s.kept) : keptRel k0 (s.alleyTake m f).kept := by
  unfold State.alleyTake
  dsimp only
  (repeat' split) <;> simp_all
@[simp] theorem State.release_kept (s : State) (link : Nat) (q : Nat) :
    (State.release s link q).kept = s.kept := by simp only [State.release]; (repeat' split) <;> simp
@[simp] theorem State.resend_kept (s : State) (link : Nat) (m : LinkMsg) :
    (State.resend s link m).kept = s.kept := by simp [State.resend]
theorem execAlleyAck_kept (dt : Nat) (m : LinkMsg) (s0 : State) :
    ∃ t, (execAlleyAck dt m s0) = .next t ∧ t.kept = s0.kept := ⟨_, rfl, by split <;> simp⟩
theorem execAlleyNak_kept (dt : Nat) (m : LinkMsg) (s0 : State) :
    ∃ t, (execAlleyNak dt m s0) = .next t ∧ t.kept = s0.kept := ⟨_, rfl, by (repeat' split) <;> simp⟩
theorem execRetransmitTimeout_rel (dt : Nat) (link : Nat) (s0 : State) :
    ∃ t, (execRetransmitTimeout dt link s0) = .next t ∧ ∀ k0, keptRel k0 s0.kept → keptRel k0 t.kept := ⟨_, rfl, fun k0 h0 => by (repeat' split) <;> simp [h0, apply_ite State.kept, apply_ite (keptRel _), foldl_kept, foldr_kept, foldl_kept1, foldl_kept2, foldl_rel, foldl_rel1, foldl_rel2, State.each]⟩
theorem execAlleyDown_kept (dt : Nat) (s0 : State) :
    ∃ t, (execAlleyDown dt s0) = .next t ∧ t.kept = s0.kept := ⟨_, rfl, by split <;> simp⟩
@[simp] theorem State.concludeKnown_kept (s : State) :
    (State.concludeKnown s).kept = s.kept := by simp only [State.concludeKnown, State.each]; (repeat' split) <;> (try simp) <;> (repeat' (first | (apply foldl_kept; intros) | (apply foldr_kept; intros) | split)) <;> simp
@[simp] theorem State.sendEvidence_kept (s : State) :
    (State.sendEvidence s).kept = s.kept := by simp [State.sendEvidence, apply_ite State.kept, foldl_kept, foldr_kept, foldl_kept1, foldl_kept2, State.each]
@[simp] theorem State.pruneEvidence_kept (s : State) :
    (State.pruneEvidence s).kept = s.kept := by simp [State.pruneEvidence]
theorem execSuspect_kept (dt : Nat) (m : LinkMsg) (s0 : State) :
    ∃ t, (execSuspect dt m s0) = .next t ∧ t.kept = s0.kept := ⟨_, rfl, by simp [apply_ite State.kept, foldl_kept, foldr_kept, foldl_kept1, foldl_kept2, State.each]⟩
theorem execCompareRx_kept (dt : Nat) (m : LinkMsg) (s0 : State) :
    ∃ t, (execCompareRx dt m s0) = .next t ∧ t.kept = s0.kept := ⟨_, rfl, by simp only [State.each]; (repeat' split) <;> simp [apply_ite State.kept, foldl_kept, foldr_kept, foldl_kept1, foldl_kept2]⟩
theorem execUncompared_kept (dt : Nat) (s0 : State) :
    ∃ t, (execUncompared dt s0) = .next t ∧ t.kept = s0.kept := ⟨_, rfl, by simp []⟩
@[simp] theorem State.yieldRole_rel (k0) (s : State) (h0 : keptRel k0 s.kept) :
    keptRel k0 (State.yieldRole s).kept := by simp [State.yieldRole, h0]
@[simp] theorem State.noteDual_kept (s : State) :
    (State.noteDual s).kept = s.kept := by unfold State.noteDual; split <;> simp
@[simp] theorem State.twinLost_rel (k0) (s : State) (h0 : keptRel k0 s.kept) :
    keptRel k0 (State.twinLost s).kept := by unfold State.twinLost; (try dsimp only); (repeat' split) <;> simp [h0, apply_ite State.kept, apply_ite (keptRel _), foldl_kept, foldr_kept, foldl_kept1, foldl_kept2, foldl_rel, foldl_rel1, foldl_rel2, State.each]
@[simp] theorem State.sampleRoleIn_rel (k0) (s : State) (roleIn : Bool) (h0 : keptRel k0 s.kept) :
    keptRel k0 (State.sampleRoleIn s roleIn).kept := by unfold State.sampleRoleIn; (try dsimp only); (repeat' split) <;> simp [h0, apply_ite State.kept, apply_ite (keptRel _), foldl_kept, foldr_kept, foldl_kept1, foldl_kept2, foldl_rel, foldl_rel1, foldl_rel2, State.each]
theorem execHeartbeat_rel (dt : Nat) (roleIn : Bool) (s0 : State) :
    ∃ t, (execHeartbeat dt roleIn s0) = .next t ∧ ∀ k0, keptRel k0 s0.kept → keptRel k0 t.kept := ⟨_, rfl, fun k0 h0 => by (repeat' split) <;> simp [h0, apply_ite State.kept, apply_ite (keptRel _), foldl_kept, foldr_kept, foldl_kept1, foldl_kept2, foldl_rel, foldl_rel1, foldl_rel2, State.each]⟩
@[simp] theorem State.checkHeartbeat_kept (s : State) (skewed : Bool) (roleIn : Bool) (role : Nat) :
    (State.checkHeartbeat s skewed roleIn role).kept = s.kept := by simp only [State.checkHeartbeat]; (repeat' split) <;> simp
@[simp] theorem State.pairHeartbeat_rel (k0) (s : State) (role : Nat) (pair : Nat) (h0 : keptRel k0 s.kept) :
    keptRel k0 (State.pairHeartbeat s role pair).kept := by unfold State.pairHeartbeat; (try dsimp only); (repeat' split) <;> simp [h0, apply_ite State.kept, apply_ite (keptRel _), foldl_kept, foldr_kept, foldl_kept1, foldl_kept2, foldl_rel, foldl_rel1, foldl_rel2, State.each]
theorem execHeartbeatRx_rel (dt : Nat) (m : LinkMsg) (late : Nat) (roleIn : Bool) (s0 : State) :
    ∃ t, (execHeartbeatRx dt m late roleIn s0) = .next t ∧ ∀ k0, keptRel k0 s0.kept → keptRel k0 t.kept := ⟨_, rfl, fun k0 h0 => by (repeat' split) <;> simp [h0, apply_ite State.kept, apply_ite (keptRel _), foldl_kept, foldr_kept, foldl_kept1, foldl_kept2, foldl_rel, foldl_rel1, foldl_rel2, State.each]⟩
theorem execHeartbeatMissing_rel (dt : Nat) (roleIn : Bool) (s0 : State) :
    ∃ t, (execHeartbeatMissing dt roleIn s0) = .next t ∧ ∀ k0, keptRel k0 s0.kept → keptRel k0 t.kept := ⟨_, rfl, fun k0 h0 => by (repeat' split) <;> simp [h0, apply_ite State.kept, apply_ite (keptRel _), foldl_kept, foldr_kept, foldl_kept1, foldl_kept2, foldl_rel, foldl_rel1, foldl_rel2, State.each]⟩
theorem execTakeover_rel (dt : Nat) (roleIn : Bool) (s0 : State) :
    ∃ t, execTakeover dt roleIn s0 = .next t ∧ ∀ k0, keptRel k0 s0.kept → keptRel k0 t.kept := by
  refine ⟨_, rfl, fun k0 h0 => ?_⟩
  have h1 : keptRel k0 (s0.after dt).kept := by simpa using h0
  generalize s0.after dt = s at h1
  refine State.ifUp_rel k0 _ _ _ h1 ?_
  split
  · exact h1
  · extract_lets part hold s1 s2 s3 s4 s5
    have k1 : keptRel k0 s1.kept := rel_noCopy k0 s s1 h1 rfl rfl rfl rfl rfl
    clear_value s1
    have k2 : keptRel k0 s2.kept := by simp only [s2]; simp [k1]
    have k3 : keptRel k0 s3.kept := by simp only [s3]; split <;> simp [k2]
    have k4 : keptRel k0 s4.kept := by simp only [s4]; simp [k3]
    have k5 : keptRel k0 s5.kept := by simp only [s5]; split <;> simp [k4, State.twSet]
    simp [k5]
theorem execTakeoverHoldEnd_kept (dt : Nat) (s0 : State) :
    ∃ t, (execTakeoverHoldEnd dt s0) = .next t ∧ t.kept = s0.kept := ⟨_, rfl, by split <;> simp⟩
theorem execPairSeekTimeout_rel (dt : Nat) (roleIn : Bool) (s0 : State) :
    ∃ t, (execPairSeekTimeout dt roleIn s0) = .next t ∧ ∀ k0, keptRel k0 s0.kept → keptRel k0 t.kept := ⟨_, rfl, fun k0 h0 => by (repeat' split) <;> simp [h0, apply_ite State.kept, apply_ite (keptRel _), foldl_kept, foldr_kept, foldl_kept1, foldl_kept2, foldl_rel, foldl_rel1, foldl_rel2, State.each]⟩
theorem execReplica_rel (dt : Nat) (m : LinkMsg) (s0 : State) : ∃ t, execReplica dt m s0 = .next t ∧ ∀ k0, keptRel k0 s0.kept → keptRel k0 t.kept := by
  refine ⟨_, rfl, fun k0 h0 => State.alleyTake_rel k0 _ _ _ (fun a ha => ?_) (by simp [h0])⟩
  split
  · exact ha
  · have h1 := State.loadItems_rel k0 a (m.body.length + 1) m.body ha
    dsimp only
    split <;> simp [h1]
@[simp] theorem State.setManifests_kept (s : State) (p : Nat) (l : List LinkMsg) :
    (State.setManifests s p l).kept = s.kept := by simp [State.setManifests]
@[simp] theorem State.replayManifests_rel (k0) (s : State) (n p : Nat) (h0 : keptRel k0 s.kept) : keptRel k0 (s.replayManifests n p).kept := by
  induction n generalizing s with
  | zero => exact h0
  | succ n ih =>
    unfold State.replayManifests
    split
    · exact h0
    · rename_i m rest _
      have h1 : keptRel k0 (((s.setManifests p rest).onThreads false fun c =>
          (c.applyManifest p (manTickOf m) (manifestRows (m.body.drop 2)) m.seq).tickNow p (manTickOf m)).replayManifests n p).kept := by
        refine ih _ ?_
        rw [State.onThreads_kept _ _ _ fun a => by simp]
        simp [h0]
      dsimp only
      (repeat' split) <;> first | exact h1 | exact h0
@[simp] theorem State.replayAll_rel (k0) (s : State) (h0 : keptRel k0 s.kept) : keptRel k0 (s.replayAll).kept := by
  unfold State.replayAll
  exact foldl_rel _ k0 (fun a p h => State.replayManifests_rel k0 a _ _ h) _ _ h0
theorem execReplicationCaughtUp_rel (dt : Nat) (s0 : State) :
    ∃ t, (execReplicationCaughtUp dt s0) = .next t ∧ ∀ k0, keptRel k0 s0.kept → keptRel k0 t.kept := ⟨_, rfl, fun k0 h0 => by (repeat' split) <;> simp [h0, apply_ite State.kept, apply_ite (keptRel _), foldl_kept, foldr_kept, foldl_kept1, foldl_kept2, foldl_rel, foldl_rel1, foldl_rel2, State.each]⟩
theorem execStep_kept (dt : Nat) (m : LinkMsg) (s0 : State) :
    ∃ t, (execStep dt m s0) = .next t ∧ t.kept = s0.kept := ⟨_, rfl, by simp [apply_ite State.kept, foldl_kept, foldr_kept, foldl_kept1, foldl_kept2, State.each]⟩
@[simp] theorem State.makeCurrent_rel (k0) (s : State) (h0 : keptRel k0 s.kept) : keptRel k0 (s.makeCurrent).kept := by
  unfold State.makeCurrent
  split
  · exact h0
  · rename_i h hs
    simp only [State.setGains_kept]
    refine keptRel_trans h0 ⟨rfl, rfl, fun w => ⟨w.2.2 h.barn (by simp [State.kept, hs]), w.2.1, w.2.2⟩⟩
theorem execStepCommit_rel (dt : Nat) (s0 : State) : ∃ t, execStepCommit dt s0 = .next t ∧ ∀ k0, keptRel k0 s0.kept → keptRel k0 t.kept := by
  refine ⟨_, rfl, fun k0 h0 => ?_⟩
  have h1 : keptRel k0 (s0.after dt).kept := by simpa using h0
  generalize s0.after dt = s at h1
  refine State.ifUp_rel k0 _ _ _ h1 ?_
  split
  · exact h1
  · extract_lets s1 s3
    have k1 : keptRel k0 s1.kept := by simp only [s1]; split <;> simp [h1]
    have k3 : keptRel k0 s3.kept := by simp only [s3]; exact State.setPair_rel _ _ _ (by simp only [State.setBuf_kept]; exact k1)
    simp [k3]
theorem execReplicationTimeout_rel (dt : Nat) (s0 : State) :
    ∃ t, (execReplicationTimeout dt s0) = .next t ∧ ∀ k0, keptRel k0 s0.kept → keptRel k0 t.kept := ⟨_, rfl, fun k0 h0 => by (repeat' split) <;> simp [h0, apply_ite State.kept, apply_ite (keptRel _), foldl_kept, foldr_kept, foldl_kept1, foldl_kept2, foldl_rel, foldl_rel1, foldl_rel2, State.each]⟩
theorem execManifestRx_rel (dt : Nat) (m : LinkMsg) (s0 : State) :
    ∃ t, execManifestRx dt m s0 = .next t ∧ ∀ k0, keptRel k0 s0.kept → keptRel k0 t.kept := by
  refine ⟨_, rfl, fun k0 h0 => State.alleyTake_rel k0 _ _ _ (fun a ha => ?_) (by simp [h0])⟩
  dsimp only
  (repeat' split) <;> simp [ha]
theorem execManifestOwn_kept (dt : Nat) (p : Nat) (s0 : State) :
    ∃ t, (execManifestOwn dt p s0) = .next t ∧ t.kept = s0.kept := ⟨_, rfl, by split <;> simp⟩
theorem execManifestLate_rel (dt : Nat) (p : Nat) (s0 : State) :
    ∃ t, (execManifestLate dt p s0) = .next t ∧ ∀ k0, keptRel k0 s0.kept → keptRel k0 t.kept := ⟨_, rfl, fun k0 h0 => by (repeat' split) <;> simp [h0, apply_ite State.kept, apply_ite (keptRel _), foldl_kept, foldr_kept, foldl_kept1, foldl_kept2, foldl_rel, foldl_rel1, foldl_rel2, State.each]⟩
@[simp] theorem State.txSlave_kept (s : State) (u : Nat) (v : Option Nat) :
    (State.txSlave s u v).kept = s.kept := by unfold State.txSlave; split <;> simp
@[simp] theorem State.applyDecision_rel (k0) (s : State) (kind : Nat) (u : Nat) (v : Option Nat) (h0 : keptRel k0 s.kept) :
    keptRel k0 (State.applyDecision s kind u v).kept := by unfold State.applyDecision; (try dsimp only); (repeat' split) <;> simp [h0, apply_ite State.kept, apply_ite (keptRel _), foldl_kept, foldr_kept, foldl_kept1, foldl_kept2, foldl_rel, foldl_rel1, foldl_rel2, State.each]
theorem execDecision_rel (dt : Nat) (m : LinkMsg) (s0 : State) :
    ∃ t, (execDecision dt m s0) = .next t ∧ ∀ k0, keptRel k0 s0.kept → keptRel k0 t.kept := ⟨_, rfl, fun k0 h0 => by (repeat' split) <;> simp [h0, apply_ite State.kept, apply_ite (keptRel _), foldl_kept, foldr_kept, foldl_kept1, foldl_kept2, foldl_rel, foldl_rel1, foldl_rel2, State.each]⟩
theorem execTwinDecisionTimeout_rel (dt : Nat) (kind : Nat) (unit : Nat) (s0 : State) :
    ∃ t, (execTwinDecisionTimeout dt kind unit s0) = .next t ∧ ∀ k0, keptRel k0 s0.kept → keptRel k0 t.kept := ⟨_, rfl, fun k0 h0 => by (repeat' split) <;> simp [h0, apply_ite State.kept, apply_ite (keptRel _), foldl_kept, foldr_kept, foldl_kept1, foldl_kept2, foldl_rel, foldl_rel1, foldl_rel2, State.each]⟩
@[simp] theorem State.arrivedAt_kept (s : State) (before : Nat) (at_ : Nat) :
    (State.arrivedAt s before at_).kept = s.kept := by simp [State.arrivedAt]
theorem execAlleyErrand_kept (dt : Nat) (m : LinkMsg) (s0 : State) :
    ∃ t, (execAlleyErrand dt m s0) = .next t ∧ t.kept = s0.kept := ⟨_, rfl, by simp [apply_ite State.kept, foldl_kept, foldr_kept, foldl_kept1, foldl_kept2, State.each]⟩
theorem execAlleyReply_kept (dt : Nat) (m : LinkMsg) (s0 : State) :
    ∃ t, (execAlleyReply dt m s0) = .next t ∧ t.kept = s0.kept := ⟨_, rfl, by (repeat' split) <;> simp⟩
theorem execAlleyBulk_kept (dt : Nat) (m : LinkMsg) (s0 : State) :
    ∃ t, (execAlleyBulk dt m s0) = .next t ∧ t.kept = s0.kept := ⟨_, rfl, by simp [apply_ite State.kept, foldl_kept, foldr_kept, foldl_kept1, foldl_kept2, State.each]⟩

/-! ### Flash -/

@[simp] theorem State.flashPut_rel (k0) (s : State) (a : Nat) (b : Byte) (h0 : keptRel k0 s.kept) : keptRel k0 (s.flashPut a b).kept :=
  rel_flash k0 s (s.flashPut a b) h0 rfl rfl rfl rfl fun w => barnPut_wf _ _ _ w
@[simp] theorem State.flashPutWord_rel (k0) (s : State) (a w : Nat) (h0 : keptRel k0 s.kept) : keptRel k0 (s.flashPutWord a w).kept := by
  unfold State.flashPutWord
  exact foldl_rel _ k0 (fun a i h => State.flashPut_rel k0 a _ _ h) _ _ h0
@[simp] theorem State.flashPutWords_rel (k0) (s : State) (a : Nat) (l : List Nat) (h0 : keptRel k0 s.kept) : keptRel k0 (s.flashPutWords a l).kept := by
  unfold State.flashPutWords
  exact foldl_rel _ k0 (fun a i h => State.flashPutWord_rel k0 a _ _ h) _ _ h0
@[simp] theorem State.flashErase_rel (k0) (s : State) (a n : Nat) (h0 : keptRel k0 s.kept) : keptRel k0 (s.flashErase a n).kept :=
  rel_flash k0 s (s.flashErase a n) h0 rfl rfl rfl rfl fun w => filter_wf _ _ w
@[simp] theorem State.bootSet_kept (s : State) (l : List (Field × Int)) :
    (State.bootSet s l).kept = s.kept := by simp [State.bootSet]
@[simp] theorem State.writeRecord_rel (k0) (s : State) (a b c : Nat) (h0 : keptRel k0 s.kept) : keptRel k0 (s.writeRecord a b c).kept := by
  unfold State.writeRecord
  simp [h0]
@[simp] theorem State.showSlot_kept (s : State) (slot : Nat) (code : Nat) :
    (State.showSlot s slot code).kept = s.kept := by simp [State.showSlot]
@[simp] theorem State.postInvalid_kept (s : State) (slot : Nat) (old : Nat) :
    (State.postInvalid s slot old).kept = s.kept := by unfold State.postInvalid; split <;> simp
@[simp] theorem State.writeCopy_rel (k0) (s : State) (r fmt seq ver from_ : Nat) (recs : List (Nat × Nat × List Nat)) (h0 : keptRel k0 s.kept) :
    keptRel k0 (s.writeCopy r fmt seq ver from_ recs).kept := by
  unfold State.writeCopy
  simp [h0]
@[simp] theorem State.useRecords_kept (s : State) (recs : List (Nat × Nat × List Nat)) :
    (State.useRecords s recs).kept = s.kept := by simp [State.useRecords]
@[simp] theorem State.useCopy_kept (s : State) (r : Nat) :
    (State.useCopy s r).kept = s.kept := by simp [State.useCopy]
@[simp] theorem State.migrate_rel (k0) (s : State) (r fmt ver : Nat) (h0 : keptRel k0 s.kept) : keptRel k0 (s.migrate r fmt ver).kept := by
  unfold State.migrate
  simp [h0]

/-! ### Threads -/

@[simp] theorem State.configureThread_kept (s : State) (t : Nat) (vs : List Int) (st : Int) :
    (State.configureThread s t vs st).kept = s.kept := by simp [State.configureThread]
@[simp] theorem thrcfg_keeps (i : Issue) (action : Nat) (s : State) : (thrcfg i action s).keeps s := by
  refine ⟨?_, fun a => rfl⟩
  exact foldl_kept _ (fun a t => by simp) _ _

theorem execConfigure_kept (i : Issue) (s : State) : ∃ t, execConfigure i s = .next t ∧ t.kept = s.kept :=
  ⟨_, rfl, State.issue_kept _ _ _ _ (by simp)⟩
theorem execStart_kept (i : Issue) (s : State) : ∃ t, execStart i s = .next t ∧ t.kept = s.kept :=
  ⟨_, rfl, State.issue_kept _ _ _ _ (by simp)⟩
@[simp] theorem State.stopThread_kept (s : State) (t : Nat) :
    (State.stopThread s t).kept = s.kept := by simp only [State.stopThread]; (repeat' split) <;> simp
@[simp] theorem judgeThrstop_keeps (i : Issue) (s : State) :
    (judgeThrstop i s).keeps s := by unfold judgeThrstop Judged.keeps; (try dsimp only); refine ⟨?_, fun a => ?_⟩ <;> (repeat' split) <;> simp [Verdict.keeps, apply_ite State.kept, foldl_kept, foldr_kept, foldl_kept1, foldl_kept2, State.each]
theorem execThrstop_kept (i : Issue) (s : State) :
    ∃ t, (execThrstop i s) = .next t ∧ t.kept = s.kept := ⟨_, rfl, State.issue_kept _ _ _ _ (by simp)⟩
theorem execThreadFault_kept (dt : Nat) (th : Nat) (s0 : State) :
    ∃ t, (execThreadFault dt th s0) = .next t ∧ t.kept = s0.kept := ⟨_, rfl, by split <;> simp⟩

/-! ### Boot -/

@[simp] theorem State.bringUp_kept (s : State) (first : Nat) (n : Nat) (rate : Nat) :
    (State.bringUp s first n rate).kept = s.kept := by simp [State.bringUp, apply_ite State.kept, foldl_kept, foldr_kept, foldl_kept1, foldl_kept2, State.each]
@[simp] theorem State.trainBarn_kept (s : State) (mb : List Nat) :
    (State.trainBarn s mb).kept = s.kept := by simp [State.trainBarn, apply_ite State.kept, foldl_kept, foldr_kept, foldl_kept1, foldl_kept2, State.each]
@[simp] theorem State.startImage_kept (s : State) (slot : Nat) :
    (State.startImage s slot).kept = s.kept := by simp [State.startImage]
@[simp] theorem State.running_kept (s : State) (env : BootEnv) :
    (State.running s env).kept = s.kept := by
  unfold State.running
  simp only [State.postInvalid_kept, State.post_kept, State.bootSet_kept, State.bringUp_kept, State.trainBarn_kept]
@[simp] theorem State.recover_kept (s : State) (cause : Nat) :
    (State.recover s cause).kept = s.kept := by unfold State.recover; split <;> simp
@[simp] theorem State.trySlots_kept (s : State) (ok : Bool) (l : List Nat) : (s.trySlots ok l).1.kept = s.kept := by
  induction l generalizing s with
  | nil => rfl
  | cons w t ih => simp only [State.trySlots]; split <;> simp [ih]
theorem State.restoreFrom_rel (s t : State) (o1 o2 : Option Nat) (b : Bool) (x y : Nat) (m : Bool) (k0) (h : s.restoreFrom o1 o2 b x y m = some t)
    (h0 : keptRel k0 s.kept) : keptRel k0 t.kept := by
  cases o1 with
  | some r => rw [← Option.some.inj h]; simp [h0]
  | none =>
    cases o2 with
    | some r =>
      cases m
      · simp [State.restoreFrom] at h
      · rw [← Option.some.inj h]; simp [h0]
    | none =>
      cases b
      · rw [← Option.some.inj h, State.useCopy_kept]; exact State.writeCopy_rel _ _ _ _ _ _ _ _ h0
      · simp [State.restoreFrom] at h

theorem State.restore_rel (s t : State) (a b c : Nat) (m : Bool) (k0) (h : s.restore a b c m = some t) (h0 : keptRel k0 s.kept) : keptRel k0 t.kept :=
  State.restoreFrom_rel _ _ _ _ _ _ _ _ _ h h0

@[simp] theorem State.bootOrder_rel (k0) (s : State) (b : Bool) (h0 : keptRel k0 s.kept) : keptRel k0 (s.bootOrder b).2.kept := by
  unfold State.bootOrder
  generalize (if b = true then s.bootRecord else (0, 0, 0)) = r
  dsimp only
  split <;> simp [h0]
theorem State.bootRestored_rel (k0) (s : State) (env : BootEnv) (again : Option (State → State)) (slot : Nat) (o : Option State)
    (h0 : keptRel k0 s.kept) (ho : ∀ t, o = some t → keptRel k0 t.kept) (ha : ∀ f, again = some f → ∀ a, keptRel k0 a.kept → keptRel k0 (f a).kept) :
    keptRel k0 (s.bootRestored env again slot o).kept := by
  cases o with
  | some t => simp only [State.bootRestored, State.running_kept]; exact ho t rfl
  | none =>
    cases again with
    | none => simp [State.bootRestored, h0]
    | some f => exact ha f rfl _ (by simp [h0])
theorem State.bootImage_rel (k0) (env : BootEnv) (again : Option (State → State)) (r : State × Option Nat)
    (h0 : keptRel k0 r.1.kept) (ha : ∀ f, again = some f → ∀ a, keptRel k0 a.kept → keptRel k0 (f a).kept) :
    keptRel k0 (State.bootImage env again r).kept := by
  obtain ⟨s, o⟩ := r
  cases o with
  | none => simpa [State.bootImage] using h0
  | some slot =>
    have h1 : keptRel k0 (s.startImage slot).kept := by simpa using h0
    exact State.bootRestored_rel k0 _ env again slot _ h1 (fun t ht => State.restore_rel _ _ _ _ _ _ _ ht h1) ha

@[simp] theorem State.bootFrom4_rel (k0) (env : BootEnv) (n : Nat) (s : State) (h0 : keptRel k0 s.kept) : keptRel k0 (State.bootFrom4 env n s).kept := by
  induction n generalizing s with
  | zero => exact State.bootImage_rel k0 env none _ (by simp [h0]) (fun f h => by simp at h)
  | succ n ih => exact State.bootImage_rel k0 env _ _ (by simp [h0]) (fun f h a ha => by rw [← Option.some.inj h]; exact ih a ha)
@[simp] theorem State.afterReset_rel (k0) (s : State) (h0 : keptRel k0 s.kept) : keptRel k0 (s.afterReset).kept := by
  refine keptRel_trans h0 ⟨rfl, ?_, fun w => ⟨rfl, w.2.1, fun b hb => by cases hb⟩⟩
  exact get_filter_unit _ _ _ _
@[simp] theorem State.enterReset_rel (k0) (s : State) (h0 : keptRel k0 s.kept) : keptRel k0 (s.enterReset).kept := by
  have h := State.afterReset_rel k0 s h0
  unfold State.enterReset
  simpa using h
/-- The same commands wait, and canonical form is kept. -/
def keptLoose (k0 k : List Instr × List Host.Cell × List Host.Cell × Nat × Option (List Host.Cell)) : Prop :=
  k.1 = k0.1 ∧ (keptWf k0 → keptWf k)

theorem keptLoose_of {k0 k1 k2} (h : keptLoose k0 k1) (g : keptRel k1 k2) : keptLoose k0 k2 := ⟨g.1.trans h.1, fun w => g.2.2 (h.2 w)⟩

theorem State.setNv_loose (s : State) (a b d v : Nat) : keptLoose s.kept (s.setNv a b d v).kept := ⟨rfl, id⟩

theorem State.releaseReset_loose (s : State) (r : ResetIn) : keptLoose s.kept (s.releaseReset r).kept := by
  unfold State.releaseReset
  extract_lets s0 s1 s2 s3
  have h0 : keptRel s.kept s0.kept := foldl_rel _ _ (fun a c h => State.flashPut_rel _ a _ _ h) _ _ (State.afterReset_rel _ _ (keptRel_refl _))
  have h1 : keptLoose s.kept s1.kept := by
    have h0' : keptLoose s.kept s0.kept := ⟨h0.1, h0.2.2⟩
    simp only [s1]
    split
    · exact ⟨h0'.1, h0'.2⟩
    · exact h0'
  have h3 : keptRel s1.kept s3.kept := by simp [s3, s2]
  refine keptLoose_of h1 ?_
  clear_value s3
  (repeat' split) <;> first | exact State.bootFrom4_rel _ _ _ _ h3 | simp [h3]
theorem execResetRelease_loose (dt : Nat) (r : ResetIn) (s0 : State) : ∃ t, execResetRelease dt r s0 = .next t ∧ keptLoose s0.kept t.kept := by
  refine ⟨_, rfl, ?_⟩
  split
  · exact ⟨congrArg (·.1) (State.after_kept s0 dt), fun w => by rw [State.after_kept]; exact w⟩
  · exact State.releaseReset_loose s0 r
theorem execPwrgoodFall_rel (dt lowNs : Nat) (s0 : State) : ∃ t, execPwrgoodFall dt lowNs s0 = .next t ∧ ∀ k0, keptRel k0 s0.kept → keptRel k0 t.kept := by
  refine ⟨_, rfl, fun k0 h0 => ?_⟩
  split <;> simp [h0]
theorem execResetAssert_rel (dt lowNs : Nat) (s0 : State) : ∃ t, execResetAssert dt lowNs s0 = .next t ∧ ∀ k0, keptRel k0 s0.kept → keptRel k0 t.kept := by
  refine ⟨_, rfl, fun k0 h0 => ?_⟩
  split <;> simp [h0]
@[simp] theorem State.beginSegment_rel (k0) (s : State) (dist : Nat) (offset : Nat) (ring : Bool) (h0 : keptRel k0 s.kept) :
    keptRel k0 (State.beginSegment s dist offset ring).kept := by unfold State.beginSegment; (try dsimp only); (repeat' split) <;> simp [h0, apply_ite State.kept, apply_ite (keptRel _), foldl_kept, foldr_kept, foldl_kept1, foldl_kept2, foldl_rel, foldl_rel1, foldl_rel2, State.each]
@[simp] theorem State.sendSegment_kept (s : State) (dist : Nat) (sub : Nat) (ps : List Word) :
    (State.sendSegment s dist sub ps).kept = s.kept := by unfold State.sendSegment; split <;> simp
theorem judgeImgload_soft (i : Issue) (s : State) : (judgeImgload i s).soft s := by
  refine ⟨?_, fun a => rfl⟩
  show Verdict.soft (if _ then _ else _) s
  split
  · refine State.beginSegment_rel _ _ _ _ _ ?_
    split <;> simp
  · exact keptRel_refl _
theorem execImgload_rel (i : Issue) (s : State) : ∃ t, execImgload i s = .next t ∧ ∀ k0, keptRel k0 s.kept → keptRel k0 t.kept :=
  ⟨_, rfl, fun k0 h => State.issue_soft k0 _ _ _ _ (fun a => judgeImgload_soft _ a) h⟩
@[simp] theorem judgeImgloadSettings_keeps (i : Issue) (s : State) :
    (judgeImgloadSettings i s).keeps s := by unfold judgeImgloadSettings Judged.keeps; (try dsimp only); refine ⟨?_, fun a => ?_⟩ <;> (repeat' split) <;> simp [Verdict.keeps, apply_ite State.kept, foldl_kept, foldr_kept, foldl_kept1, foldl_kept2, State.each]
theorem execImgloadSettings_kept (i : Issue) (s : State) :
    ∃ t, (execImgloadSettings i s) = .next t ∧ t.kept = s.kept := ⟨_, rfl, State.issue_kept _ _ _ _ (by simp)⟩
@[simp] theorem State.finishImage_kept (s : State) (flashOk : Bool) :
    (State.finishImage s flashOk).2.2.kept = s.kept := by unfold State.finishImage; split <;> simp
@[simp] theorem State.sendReport_kept (s : State) (origin : Nat) (dist : Nat) (code : Nat) (check : Nat) :
    (State.sendReport s origin dist code check).kept = s.kept := by simp [State.sendReport]
theorem execImgloadDone_rel (dt : Nat) (th : Nat) (flashOk : Bool) (s0 : State) :
    ∃ t, (execImgloadDone dt th flashOk s0) = .next t ∧ ∀ k0, keptRel k0 s0.kept → keptRel k0 t.kept := ⟨_, rfl, fun k0 h0 => by (repeat' split) <;> simp [h0, apply_ite State.kept, apply_ite (keptRel _), foldl_kept, foldr_kept, foldl_kept1, foldl_kept2, foldl_rel, foldl_rel1, foldl_rel2, State.each]⟩
@[simp] theorem State.restartFromRecovery_rel (k0) (s : State) (env : BootEnv) (h0 : keptRel k0 s.kept) :
    keptRel k0 (s.restartFromRecovery env).kept := by
  unfold State.restartFromRecovery
  exact State.bootFrom4_rel _ _ _ _ (by simp [h0])
theorem judgeImgactivate_soft (i : Issue) (r : Bool) (a b : Nat) (env : BootEnv) (s : State) : (judgeImgactivate i r a b env s).soft s := by
  refine ⟨?_, fun a => rfl⟩
  show Verdict.soft (if _ then _ else _) s
  split
  · exact keptRel_refl _
  · split
    · exact State.restartFromRecovery_rel _ _ _ (keptRel_refl _)
    · show keptRel s.kept _
      simp
theorem execImgactivate_rel (i : Issue) (r : Bool) (a b : Nat) (env : BootEnv) (s : State) :
    ∃ t, execImgactivate i r a b env s = .next t ∧ ∀ k0, keptRel k0 s.kept → keptRel k0 t.kept :=
  ⟨_, rfl, fun k0 h => State.issue_soft k0 _ _ _ _ (fun x => judgeImgactivate_soft _ _ _ _ _ x) h⟩
@[simp] theorem State.endActivation_kept (s : State) (b : BgOp) (code : Nat) :
    (State.endActivation s b code).kept = s.kept := by simp [State.endActivation]
theorem execActivationLoaded_kept (dt : Nat) (ok : Bool) (s0 : State) :
    ∃ t, (execActivationLoaded dt ok s0) = .next t ∧ t.kept = s0.kept := ⟨_, rfl, by (repeat' split) <;> simp⟩
@[simp] theorem State.prepare_rel (k0) (s : State) (b : BgOp) (h0 : keptRel k0 s.kept) :
    keptRel k0 (State.prepare s b).kept := by unfold State.prepare; (try dsimp only); (repeat' split) <;> simp [h0, apply_ite State.kept, apply_ite (keptRel _), foldl_kept, foldr_kept, foldl_kept1, foldl_kept2, foldl_rel, foldl_rel1, foldl_rel2, State.each]
theorem execActivationPrepared_rel (dt : Nat) (ok : Bool) (s0 : State) :
    ∃ t, (execActivationPrepared dt ok s0) = .next t ∧ ∀ k0, keptRel k0 s0.kept → keptRel k0 t.kept := ⟨_, rfl, fun k0 h0 => by (try dsimp only); (repeat' split) <;> simp [h0, apply_ite State.kept, apply_ite (keptRel _), foldl_kept, foldr_kept, foldl_kept1, foldl_kept2, foldl_rel, foldl_rel1, foldl_rel2, State.each]⟩
theorem execActivationHandover_kept (dt : Nat) (s0 : State) :
    ∃ t, (execActivationHandover dt s0) = .next t ∧ t.kept = s0.kept := ⟨_, rfl, by (repeat' split) <;> simp⟩
theorem execActivationResumed_rel (dt : Nat) (s0 : State) :
    ∃ t, (execActivationResumed dt s0) = .next t ∧ ∀ k0, keptRel k0 s0.kept → keptRel k0 t.kept := ⟨_, rfl, fun k0 h0 => by (try dsimp only); (repeat' split) <;> simp [h0, apply_ite State.kept, apply_ite (keptRel _), foldl_kept, foldr_kept, foldl_kept1, foldl_kept2, foldl_rel, foldl_rel1, foldl_rel2, State.each]⟩
theorem execActivationAbort_kept (dt : Nat) (s0 : State) :
    ∃ t, (execActivationAbort dt s0) = .next t ∧ t.kept = s0.kept := ⟨_, rfl, by simp only [State.each]; (repeat' split) <;> simp [apply_ite State.kept, foldl_kept, foldr_kept, foldl_kept1, foldl_kept2]⟩
@[simp] theorem State.confirm_rel (k0) (s : State) (h0 : keptRel k0 s.kept) :
    keptRel k0 (State.confirm s).kept := by unfold State.confirm; (try dsimp only); (repeat' split) <;> simp [h0, apply_ite State.kept, apply_ite (keptRel _), foldl_kept, foldr_kept, foldl_kept1, foldl_kept2, foldl_rel, foldl_rel1, foldl_rel2, State.each]
theorem judgeConfirm_soft (i : Issue) (s : State) : (judgeConfirm i s).soft s := by
  refine ⟨?_, fun a => rfl⟩
  show keptRel s.kept _
  split <;> simp
theorem execConfirm_rel (i : Issue) (s : State) : ∃ t, execConfirm i s = .next t ∧ ∀ k0, keptRel k0 s.kept → keptRel k0 t.kept :=
  ⟨_, rfl, fun k0 h => State.issue_soft k0 _ _ _ _ (fun a => judgeConfirm_soft _ a) h⟩
theorem judgeAdvance_soft (i : Issue) (s : State) : (judgeAdvance i s).soft s := by
  refine ⟨?_, fun a => rfl⟩
  show Verdict.soft (if _ then _ else _) s
  have h1 : keptRel s.kept (if bitAt i.sub 3 then s.confirm else s).kept := by split <;> simp
  split
  · exact keptRel_refl _
  · split
    · exact h1
    · exact h1
theorem execAdvance_rel (i : Issue) (s : State) : ∃ t, execAdvance i s = .next t ∧ ∀ k0, keptRel k0 s.kept → keptRel k0 t.kept :=
  ⟨_, rfl, fun k0 h => State.issue_soft k0 _ _ _ _ (fun a => judgeAdvance_soft _ a) h⟩
theorem execFuseBlown_loose (dt : Nat) (ok : Bool) (s0 : State) : ∃ t, execFuseBlown dt ok s0 = .next t ∧ keptLoose s0.kept t.kept := by
  refine ⟨_, rfl, ?_⟩
  rw [← State.after_kept s0 dt]
  generalize s0.after dt = s
  have h0 : keptLoose s.kept s.kept := ⟨rfl, id⟩
  split
  · exact h0
  · split
    · rw [foldl_kept _ fun a b => by simp]; exact h0
    · dsimp only
      split
      · simp only [State.bootSet_kept]; exact State.setNv_loose s _ _ _ _
      · rw [foldl_kept _ fun a b => by simp]
        simp only [State.bootSet_kept, State.post_kept]; exact State.setNv_loose s _ _ _ _
theorem execWatchdogExpiry_kept (dt : Nat) (s0 : State) :
    ∃ t, (execWatchdogExpiry dt s0) = .next t ∧ t.kept = s0.kept := ⟨_, rfl, by split <;> simp⟩
@[simp] theorem State.jtagWords_kept (s : State) (a n : Nat) : (s.jtagWords a n).2.kept = s.kept := by
  induction n generalizing s a with
  | zero => rfl
  | succ n ih => simp only [State.jtagWords, ih]; simp
theorem execJtagAccess_rel (dt addr n : Nat) (w : Option Word) (s0 : State) :
    ∃ t, execJtagAccess dt addr n w s0 = .next t ∧ ∀ k0, keptRel k0 s0.kept → keptRel k0 t.kept := by
  refine ⟨_, rfl, fun k0 h0 => ?_⟩
  have h1 : keptRel k0 (s0.after dt).kept := by simpa using h0
  generalize s0.after dt = s at h1
  (repeat' split) <;> simp [h1]

/-! ### Footpath -/

@[simp] theorem State.fpCount_kept (s : State) (link : Nat) (c : Nat) :
    (State.fpCount s link c).kept = s.kept := by simp [State.fpCount]
theorem execHello_kept (dt : Nat) (s0 : State) :
    ∃ t, (execHello dt s0) = .next t ∧ t.kept = s0.kept := ⟨_, rfl, by split <;> simp⟩
@[simp] theorem State.fpBad_kept (s : State) (link : Nat) (m : LinkMsg) (acked : Bool) :
    (State.fpBad s link m acked).kept = s.kept := by simp only [State.fpBad]; (repeat' split) <;> simp
@[simp] theorem State.resendKept_kept (s : State) (link : Nat) :
    (State.resendKept s link).kept = s.kept := by simp [State.resendKept, apply_ite State.kept, foldl_kept, foldr_kept, foldl_kept1, foldl_kept2, State.each]
theorem execHelloRx_kept (dt : Nat) (link : Nat) (m : LinkMsg) (s0 : State) :
    ∃ t, (execHelloRx dt link m s0) = .next t ∧ t.kept = s0.kept := ⟨_, rfl, by (repeat' split) <;> simp⟩
theorem execFpLinkDown_kept (dt : Nat) (link : Nat) (s0 : State) :
    ∃ t, (execFpLinkDown dt link s0) = .next t ∧ t.kept = s0.kept := ⟨_, rfl, by split <;> simp⟩
theorem execFpHoldDiscard_kept (dt : Nat) (link : Nat) (s0 : State) :
    ∃ t, (execFpHoldDiscard dt link s0) = .next t ∧ t.kept = s0.kept := ⟨_, rfl, by simp [apply_ite State.kept, foldl_kept, foldr_kept, foldl_kept1, foldl_kept2, State.each]⟩
@[simp] theorem State.ringRoute_kept (s : State) (m : LinkMsg) (back : Bool) (f : State → State) (hf : ∀ a, (f a).kept = a.kept) :
    (State.ringRoute s m back f).kept = s.kept := by simp only [State.ringRoute]; (repeat' split) <;> simp_all

theorem State.ringRoute_rel (k0) (s : State) (m : LinkMsg) (back : Bool) (f : State → State)
    (hf : ∀ a, keptRel k0 a.kept → keptRel k0 (f a).kept) (h0 : keptRel k0 s.kept) : keptRel k0 (s.ringRoute m back f).kept := by
  unfold State.ringRoute
  extract_lets w node mine named s1
  have h1 : keptRel k0 s1.kept := by simp only [s1]; (repeat' split) <;> simp [h0]
  (repeat' split) <;> first | exact h0 | exact h1 | simp [hf _ h0, hf _ h1]
@[simp] theorem State.ringTake_kept (s : State) (m : LinkMsg) (typ least : Nat) (busy : Bool) (f : State → State) (hf : ∀ a, (f a).kept = a.kept) :
    (State.ringTake s m typ least busy f).kept = s.kept := by simp only [State.ringTake]; (repeat' split) <;> simp_all

theorem State.ringTake_rel (k0) (s : State) (m : LinkMsg) (typ least : Nat) (busy : Bool) (f : State → State)
    (hf : ∀ a, keptRel k0 a.kept → keptRel k0 (f a).kept) (h0 : keptRel k0 s.kept) : keptRel k0 (s.ringTake m typ least busy f).kept := by
  unfold State.ringTake
  dsimp only
  (repeat' split) <;> first | exact hf _ (by simp [h0]) | simp [h0]
theorem execFpErrand_kept (dt : Nat) (m : LinkMsg) (s0 : State) :
    ∃ t, (execFpErrand dt m s0) = .next t ∧ t.kept = s0.kept := ⟨_, rfl, by simp []⟩
theorem execFpReply_kept (dt : Nat) (m : LinkMsg) (s0 : State) :
    ∃ t, (execFpReply dt m s0) = .next t ∧ t.kept = s0.kept := ⟨_, rfl, by simp []⟩
theorem execFpBulk_kept (dt : Nat) (m : LinkMsg) (s0 : State) :
    ∃ t, (execFpBulk dt m s0) = .next t ∧ t.kept = s0.kept := ⟨_, rfl, by simp [apply_ite State.kept, foldl_kept, foldr_kept, foldl_kept1, foldl_kept2, State.each]⟩
@[simp] theorem State.takeSegment_rel (k0) (s : State) (m : LinkMsg) (h0 : keptRel k0 s.kept) :
    keptRel k0 (State.takeSegment s m).kept := by unfold State.takeSegment; (try dsimp only); (repeat' split) <;> simp [h0, apply_ite State.kept, apply_ite (keptRel _), foldl_kept, foldr_kept, foldl_kept1, foldl_kept2, foldl_rel, foldl_rel1, foldl_rel2, State.each]
theorem execSegment_rel (dt : Nat) (m : LinkMsg) (s0 : State) : ∃ t, execSegment dt m s0 = .next t ∧ ∀ k0, keptRel k0 s0.kept → keptRel k0 t.kept :=
  ⟨_, rfl, fun k0 h0 => State.ringTake_rel k0 _ _ _ _ _ _ (fun a ha => State.ringRoute_rel k0 _ _ _ _ (fun b hb => State.takeSegment_rel k0 b m hb) ha)
    (by simp [h0])⟩
@[simp] theorem State.takeReport_kept (s : State) (m : LinkMsg) :
    (State.takeReport s m).kept = s.kept := by simp only [State.takeReport]; (repeat' split) <;> simp
theorem execReport_kept (dt : Nat) (m : LinkMsg) (s0 : State) :
    ∃ t, (execReport dt m s0) = .next t ∧ t.kept = s0.kept := ⟨_, rfl, by simp []⟩
theorem execFpAck_kept (dt : Nat) (link : Nat) (m : LinkMsg) (s0 : State) :
    ∃ t, (execFpAck dt link m s0) = .next t ∧ t.kept = s0.kept := ⟨_, rfl, by split <;> simp⟩
theorem execFpNak_kept (dt : Nat) (link : Nat) (m : LinkMsg) (s0 : State) :
    ∃ t, (execFpNak dt link m s0) = .next t ∧ t.kept = s0.kept := ⟨_, rfl, by (repeat' split) <;> simp⟩

end Sys2Proof.Machine
end

