-- ==== Sys2Proof/Laws/Issue.lean ====
section
/-!
SUPPORT. What issuing an instruction does, once: what the reports of an instruction leave alone, and what a passed one has done.
-/
namespace Sys2Proof.Machine

theorem State.onThreads_own (s : State) (own : Bool) (f : State → State) (h : s.shadow = none ∨ s.onCopy = false ∨ own = true) :
    s.onThreads own f = f s := by
  unfold State.onThreads
  split
  · rfl
  · rename_i g hg
    rcases h with h | h | h
    · rw [h] at hg; cases hg
    · simp [h]
    · simp [h]

theorem State.advancePc_nextId (s : State) (t n : Nat) : (s.advancePc t n).nextId = s.nextId := by
  unfold State.advancePc; split <;> rfl

/-- What is left of a passed instruction once its verdict is known. -/
def State.finish (s : State) (i : Issue) (use : Use) (j : Judged) : State :=
  (((((s.facing i use).hold (s.after i.dt).nextId j.claims).enact i.th (s.after i.dt).nextId j.verdict).appendData i.th
    ((s.after i.dt).thn i.th Lamp.PC) j.data).settle i.th)

/-- A passed instruction whose verdict is no hold: its claims are held, the verdict enacted, its data returned. -/
theorem State.issue_passes (s : State) (i : Issue) (use : Use) (f : State → Judged) (h : s.passes i use f)
    (hh : ∀ g, (f (s.facing i use)).verdict ≠ .hold g) :
    s.issue i use f = s.finish i use (f (s.facing i use)) := by
  obtain ⟨-, h1, h2, h3, h4⟩ := h
  have e : s.issue i use f = (s.after i.dt).issueOn i use f := State.onThreads_own _ _ _ h1
  rw [e]
  unfold State.issueOn State.finish
  have h2' : ¬ (s.after i.dt).th i.th Lamp.STATE ≠ thRunning := fun g => g h2
  simp only [if_neg h2']
  have hf : ((s.after i.dt).advancePc i.th (1 + i.params.length)).openPart i.th (1 + i.params.length) 1 ((s.after i.dt).thn i.th Lamp.PC)
      (ticketWords i use) = ((s.after i.dt).nextId, s.facing i use) := by
    rw [← State.advancePc_nextId (s.after i.dt) i.th (1 + i.params.length)]; rfl
  rw [hf]
  simp only [h4]
  cases hv : (f (s.facing i use)).verdict <;> first | (exact absurd hv (hh _)) | skip
  all_goals first | (rw [h3 _ hv]) | rfl

/-! ### What reports leave alone -/

theorem State.sameUnits_refl (th : Nat) (s : State) : State.sameUnits th s s := by simp [State.sameUnits]
theorem State.sameUnits_trans {th : Nat} {a b c : State} (h : State.sameUnits th a b) (g : State.sameUnits th b c) : State.sameUnits th a c := by
  obtain ⟨h1, h2, h3⟩ := h
  obtain ⟨g1, g2, g3⟩ := g
  refine ⟨fun u f a b c => (h1 u f a b c).trans (g1 u f a b c), fun u j a b => (h2 u j a b).trans (g2 u j a b), ?_⟩
  simp only [h3, g3]; trivial

theorem State.wr_same (s : State) (th : Nat) (u : Nat) (f : Field) (v : Int) (hu : u = U.thread th ∨ u = U.crier ∨ u = U.host) :
    State.sameUnits th (s.wr u f v) s := by
  refine ⟨fun w g a b c => State.rd_wr_ne _ _ _ _ _ _ (.inl ?_), fun w j a b => rfl, ?_⟩
  · rcases hu with rfl | rfl | rfl <;> assumption
  · simp
theorem State.wrs_same (s : State) (th : Nat) (u : Nat) (l : List (Field × Int)) (hu : u = U.thread th ∨ u = U.crier ∨ u = U.host) :
    State.sameUnits th (s.wrs u l) s := by
  induction l generalizing s with
  | nil => exact State.sameUnits_refl th s
  | cons x t ih => exact State.sameUnits_trans (ih _) (State.wr_same _ _ _ _ _ hu)
/-- A final code, or an event, counted. -/
theorem State.count_same (s : State) (th u j : Nat) (hu : (U.thread 0 ≤ u ∧ j < 5) ∨ u = U.crier) : State.sameUnits th (s.count u j) s := by
  refine ⟨fun w g a b c => rfl, fun w k a b => State.ctr_count_ne _ _ _ _ _ ?_, ?_⟩
  · rcases hu with ⟨h1, h2⟩ | rfl
    · by_cases e : w = u
      · right; subst e; rintro rfl; rcases a with a | a <;> omega
      · exact .inl e
    · exact .inl b
  · simp
theorem State.raiseIbi_same (s : State) (th src : Nat) : State.sameUnits th (s.raiseIbi src) s := by
  unfold State.raiseIbi
  split
  · exact State.wr_same _ _ _ _ _ (.inr (.inr rfl))
  · exact State.sameUnits_refl _ _
theorem State.emit_same (s : State) (th : Nat) (o : Out) : State.sameUnits th (s.emit o) s := by
  refine ⟨fun _ _ _ _ _ => rfl, fun _ _ _ _ => rfl, ?_⟩; simp
theorem State.ring_same (s : State) (th : Nat) (r : Tbl Word) : State.sameUnits th { s with crierRing := r } s :=
  ⟨fun _ _ _ _ _ => rfl, fun _ _ _ _ => rfl, by simp⟩
theorem State.crierWrite_same (s : State) (th unit code det : Nat) : State.sameUnits th (s.crierWrite unit code det) s := by
  simp only [State.crierWrite]
  split
  · refine State.sameUnits_trans (State.emit_same _ _ _) (State.sameUnits_trans (State.raiseIbi_same _ _ _)
      (State.sameUnits_trans (State.wrs_same _ _ _ _ (.inr (.inl rfl))) ?_))
    exact State.sameUnits_trans (State.count_same _ _ _ _ (.inr rfl)) (State.sameUnits_trans (State.wrs_same _ _ _ _ (.inr (.inl rfl)))
      (State.ring_same _ _ _))
  · exact State.sameUnits_trans (State.count_same _ _ _ _ (.inr rfl)) (State.sameUnits_trans (State.wrs_same _ _ _ _ (.inr (.inl rfl)))
      (State.ring_same _ _ _))
theorem State.post_same (s : State) (th unit code det : Nat) : State.sameUnits th (s.post unit code det) s := by
  unfold State.post
  split
  · exact State.sameUnits_trans (State.count_same _ _ _ _ (.inr rfl)) (State.wr_same _ _ _ _ _ (.inr (.inl rfl)))
  · unfold State.crierFull
    split
    · exact State.sameUnits_trans (State.wrs_same _ _ _ _ (.inr (.inl rfl)))
        (State.sameUnits_trans (State.crierWrite_same _ _ _ _ _) (State.crierWrite_same _ _ _ _ _))
    · exact State.crierWrite_same _ _ _ _ _
theorem State.setTh_same (s : State) (th : Nat) (f : Field) (v : Int) : State.sameUnits th (s.setTh th f v) s :=
  State.wr_same _ _ _ _ _ (.inl rfl)
theorem State.calls_then {th : Nat} {a b : State} (c : Tbl (List (Nat × Bool))) (h : State.sameUnits th a b) :
    State.sameUnits th { a with calls := c } b := h
theorem State.outcome_same (s : State) (th c : Nat) (b : Bool) : State.sameUnits th (s.outcome th c b) s :=
  State.sameUnits_trans ⟨fun _ _ _ _ _ => rfl, fun _ _ _ _ => rfl, by simp [State.outcome, State.pset]⟩ (State.setTh_same s th Lamp.LAST_CODE c)
theorem finalCtr_lt (c : Nat) : finalCtr c < 5 := by unfold finalCtr; (repeat' split) <;> decide
theorem State.finalLedger_same (s : State) (th : Nat) (p : Part) : State.sameUnits th (s.finalLedger p) s := by
  simp only [State.finalLedger]
  have h : State.sameUnits th (s.count (U.thread p.th) (finalCtr p.code)) s :=
    State.count_same _ _ _ _ (.inl ⟨by simp [U.thread], finalCtr_lt _⟩)
  split
  · exact State.sameUnits_trans (State.post_same _ _ _ _ _) h
  · exact h
theorem State.closePart_same (s : State) (th pid code : Nat) : State.sameUnits th (s.closePart pid code) s := by
  simp only [State.closePart]
  split
  · exact State.sameUnits_refl _ _
  · split
    · exact State.sameUnits_trans (State.finalLedger_same _ _ _) ⟨fun _ _ _ _ _ => rfl, fun _ _ _ _ => rfl, by simp⟩
    · exact ⟨fun _ _ _ _ _ => rfl, fun _ _ _ _ => rfl, by simp⟩
theorem State.closeParts_same (s : State) (th code : Nat) (l : List Nat) :
    State.sameUnits th (l.foldl (fun a p => a.closePart p code) s) s := by
  induction l generalizing s with
  | nil => exact State.sameUnits_refl _ _
  | cons x t ih => exact State.sameUnits_trans (ih _) (State.closePart_same _ _ _ _)
theorem State.endPart_same (s : State) (th pid code : Nat) : State.sameUnits th (s.endPart pid code) s :=
  State.sameUnits_trans (State.closePart_same _ _ _ _) ⟨fun _ _ _ _ _ => rfl, fun _ _ _ _ => rfl, by simp [State.owe]⟩
theorem State.endParts_same (s : State) (th code : Nat) (l : List Nat) :
    State.sameUnits th (l.foldl (fun a p => a.endPart p code) s) s := by
  induction l generalizing s with
  | nil => exact State.sameUnits_refl _ _
  | cons x t ih => exact State.sameUnits_trans (ih _) (State.endPart_same _ _ _ _)
theorem State.discardSalvo_same (s : State) (th code : Nat) : State.sameUnits th (s.discardSalvo th code) s := by
  simp only [State.discardSalvo]
  split
  · exact State.sameUnits_refl _ _
  · exact State.sameUnits_trans (State.endParts_same _ _ _ _) (State.sameUnits_trans (State.setTh_same _ _ _ _)
      ⟨fun _ _ _ _ _ => rfl, fun _ _ _ _ => rfl, by simp⟩)
theorem State.halt_same (s : State) (th : Nat) : State.sameUnits th (s.halt th) s :=
  State.sameUnits_trans (State.setTh_same _ _ _ _) (State.discardSalvo_same _ _ _)
theorem State.appendData_same (s : State) (th pc : Nat) (d : List Word) : State.sameUnits th (s.appendData th pc d) s := by
  unfold State.appendData
  split
  · exact State.sameUnits_refl _ _
  · split
    · exact State.sameUnits_refl _ _
    · exact ⟨fun _ _ _ _ _ => rfl, fun _ _ _ _ => rfl, by simp [State.setErrand]⟩
theorem State.endErrand_same (s : State) (th : Nat) : State.sameUnits th (s.endErrand th) s := by
  simp only [State.endErrand]
  split
  · exact State.sameUnits_refl _ _
  · rename_i e _
    have h : State.sameUnits th ((s.discardSalvo th Code.format.num).setErrand { e with phase := 2 }) s :=
      State.sameUnits_trans (b := s.discardSalvo th Code.format.num) ⟨fun _ _ _ _ _ => rfl, fun _ _ _ _ => rfl, by simp [State.setErrand]⟩
        (State.discardSalvo_same _ _ _)
    have h1 := State.sameUnits_trans (State.wrs_same _ th (U.thread th)
      [(Lamp.errand, 0), (Lamp.IN_ERRAND, 0), (Lamp.TARGET, 0), (Lamp.tMode, 0), (Lamp.callIdx, 0), (Lamp.PC, 0)] (.inl rfl)) h
    split
    · exact State.sameUnits_trans (State.setTh_same _ _ _ _) (State.sameUnits_trans (State.setTh_same _ _ _ _) (State.calls_then _ h1))
    · exact State.sameUnits_trans (State.setTh_same _ _ _ _) (State.calls_then _ h1)
theorem State.popCall_same (s : State) (th : Nat) : State.sameUnits th (s.popCall th) s := by
  simp only [State.popCall]
  split
  · exact State.sameUnits_refl _ _
  · have h : ∀ c : Tbl (List (Nat × Bool)), State.sameUnits th { s with calls := c } s :=
      fun c => ⟨fun _ _ _ _ _ => rfl, fun _ _ _ _ => rfl, by simp⟩
    split
    · exact State.sameUnits_trans (State.setTh_same _ _ _ _) (State.sameUnits_trans (State.wrs_same _ _ _ _ (.inl rfl)) (h _))
    · exact State.sameUnits_trans (State.wrs_same _ _ _ _ (.inl rfl)) (h _)
theorem State.settle_same (s : State) (th : Nat) : State.sameUnits th (s.settle th) s := by
  unfold State.settle
  split
  · exact State.sameUnits_refl _ _
  · split
    · split
      · refine State.sameUnits_trans (State.popCall_same _ _) ?_
        exact State.sameUnits_trans (b := s.discardSalvo th Code.format.num) ⟨fun _ _ _ _ _ => rfl, fun _ _ _ _ => rfl, by simp [State.failCall]⟩
          (State.discardSalvo_same _ _ _)
      · exact State.sameUnits_trans (State.setTh_same _ _ _ _) (State.sameUnits_trans (State.halt_same _ _) (State.setTh_same _ _ _ _))
    · split
      · split
        · split
          · exact State.endErrand_same _ _
          · exact State.sameUnits_refl _ _
        · exact State.sameUnits_refl _ _
      · exact State.sameUnits_refl _ _
theorem State.hold_same (s : State) (th pid : Nat) (cs : List Claim) : State.sameUnits th (s.hold pid cs) s := by
  unfold State.hold
  split
  · exact State.sameUnits_refl _ _
  · exact ⟨fun _ _ _ _ _ => rfl, fun _ _ _ _ => rfl, by simp⟩

/-! ### Predicates -/

theorem State.post_preds (s : State) (u c d : Nat) : (s.post u c d).preds = s.preds := by
  have h1 : ∀ (s : State) u c d, (s.crierWrite u c d).preds = s.preds := by
    intro s u c d
    have h2 : ∀ (s : State) l, (s.wrs U.crier l).preds = s.preds := by
      intro s l; induction l generalizing s with
      | nil => rfl
      | cons x t ih => exact ih _
    simp only [State.crierWrite]
    split
    · simp only [State.emit_preds]
      have h3 : ∀ (s : State) n, (s.raiseIbi n).preds = s.preds := by intro s n; unfold State.raiseIbi; split <;> rfl
      simp only [h3, h2, State.count_preds]
    · simp only [h2, State.count_preds]
  have h2 : ∀ (s : State) l, (s.wrs U.crier l).preds = s.preds := by
    intro s l; induction l generalizing s with
    | nil => rfl
    | cons x t ih => exact ih _
  unfold State.post
  split
  · rfl
  · unfold State.crierFull
    split
    · rw [h2, h1, h1]
    · exact h1 _ _ _ _
theorem State.wrs_preds (s : State) (u : Nat) (l : List (Field × Int)) : (s.wrs u l).preds = s.preds := by
  induction l generalizing s with
  | nil => rfl
  | cons x t ih => exact ih _
theorem State.finalLedger_preds (s : State) (p : Part) : (s.finalLedger p).preds = s.preds := by
  simp only [State.finalLedger]
  split
  · rw [State.post_preds, State.count_preds]
  · rfl
theorem State.closePart_preds (s : State) (pid code : Nat) : (s.closePart pid code).preds = s.preds := by
  simp only [State.closePart]
  split
  · rfl
  · split
    · exact State.finalLedger_preds _ _
    · rfl
theorem State.discardSalvo_preds (s : State) (th code : Nat) : (s.discardSalvo th code).preds = s.preds := by
  have h : ∀ (l : List Nat) (s : State), (l.foldl (fun a p => a.endPart p code) s).preds = s.preds := by
    intro l
    induction l with
    | nil => intro s; rfl
    | cons x t ih => intro s; exact (ih _).trans (State.closePart_preds _ _ _)
  simp only [State.discardSalvo]
  split
  · rfl
  · rw [h]; rfl
theorem State.appendData_preds (s : State) (th pc : Nat) (d : List Word) : (s.appendData th pc d).preds = s.preds := by
  unfold State.appendData
  split
  · rfl
  · split <;> rfl
theorem State.setTh_preds (s : State) (th : Nat) (f : Field) (v : Int) : (s.setTh th f v).preds = s.preds := rfl
theorem State.popCall_preds (s : State) (th : Nat) : (s.popCall th).preds = s.preds := by
  simp only [State.popCall]
  split
  · rfl
  · split
    · rw [State.setTh_preds, State.wrs_preds]
    · rw [State.wrs_preds]
theorem State.endErrand_preds (s : State) (th : Nat) : (s.endErrand th).preds = s.preds := by
  simp only [State.endErrand]
  split
  · rfl
  · split
    · rw [State.setTh_preds, State.setTh_preds]; exact (State.wrs_preds _ _ _).trans (State.discardSalvo_preds _ _ _)
    · rw [State.setTh_preds]; exact (State.wrs_preds _ _ _).trans (State.discardSalvo_preds _ _ _)
theorem State.settle_preds (s : State) (th : Nat) : (s.settle th).preds = s.preds := by
  unfold State.settle
  split
  · rfl
  · split
    · split
      · exact (State.popCall_preds _ _).trans (State.discardSalvo_preds _ _ _)
      · exact State.discardSalvo_preds (s.setTh th Lamp.LAST_CODE Code.format.num) th Code.format.num
    · split
      · split
        · split
          · exact State.endErrand_preds _ _
          · rfl
        · rfl
      · rfl

theorem State.pget_outcome (s : State) (th c : Nat) (b : Bool) : (s.outcome th c b).pget th 0 = b :=
  Tbl.get_set_same _ _ _ _
theorem State.pget_outcome_ne (s : State) (th c : Nat) (b : Bool) (n p : Nat) (h : (n, p) ≠ (th, 0)) :
    (s.outcome th c b).pget n p = s.pget n p := by
  refine Tbl.get_set_ne _ _ _ _ _ ?_ _
  intro e
  have e1 : n = th := congrArg Key.unit e
  have e2 : p = 0 := congrArg Key.pos e
  exact h (by rw [e1, e2])

/-! ### What a passed instruction leaves -/

theorem State.facing_same (s : State) (i : Issue) (use : Use) : State.sameUnits i.th (s.facing i use) (s.after i.dt) := by
  have h : State.sameUnits i.th ((s.after i.dt).advancePc i.th (1 + i.params.length)) (s.after i.dt) := by
    unfold State.advancePc
    split
    · exact State.setTh_same _ _ _ _
    · exact State.sameUnits_trans (State.setTh_same _ _ _ _) (State.setTh_same _ _ _ _)
  exact h

/-- An instruction that acts at once: p0 is set, and the units are those of its effect. -/
theorem State.issue_act (s : State) (i : Issue) (use : Use) (f : State → Judged) (e : State) (h : s.passes i use f)
    (hv : (f (s.facing i use)).verdict = .act e) :
    (s.issue i use f).pget i.th 0 = true ∧ (∀ th p, (th, p) ≠ (i.th, 0) → (s.issue i use f).pget th p = e.pget th p) ∧
      State.sameUnits i.th (s.issue i use f) e := by
  rw [State.issue_passes s i use f h (by rw [hv]; intro g c; cases c)]
  unfold State.finish
  rw [hv]
  have hp : ∀ x : State, ((((x.appendData i.th ((s.after i.dt).thn i.th Lamp.PC) (f (s.facing i use)).data)).settle i.th)).preds = x.preds := by
    intro x; rw [State.settle_preds, State.appendData_preds]
  refine ⟨?_, ?_, ?_⟩
  · unfold State.pget
    rw [hp]
    simp only [State.enact, State.closePart_preds]
    exact State.pget_outcome _ _ _ _
  · intro th p hne
    unfold State.pget
    rw [hp]
    simp only [State.enact, State.closePart_preds]
    exact State.pget_outcome_ne _ _ _ _ _ _ hne
  · refine State.sameUnits_trans (State.settle_same _ _) (State.sameUnits_trans (State.appendData_same _ _ _ _) ?_)
    exact State.sameUnits_trans (State.closePart_same _ _ _ _) (State.outcome_same _ _ _ _)

theorem State.settle_bg (s : State) (th : Nat) : (s.settle th).bg = s.bg := by
  have hw : ∀ (s : State) u l, (s.wrs u l).bg = s.bg := by
    intro s u l; induction l generalizing s with
    | nil => rfl
    | cons x t ih => exact ih _
  have hr : ∀ (s : State) n, (s.raiseIbi n).bg = s.bg := by intro s n; unfold State.raiseIbi; split <;> rfl
  have h1 : ∀ (s : State) u c d, (s.crierWrite u c d).bg = s.bg := by
    intro s u c d
    simp only [State.crierWrite]
    split
    · simp only [State.emit_bg, hr, hw, State.count_bg]
    · simp only [hw, State.count_bg]
  have h2 : ∀ (s : State) u c d, (s.post u c d).bg = s.bg := by
    intro s u c d
    unfold State.post
    split
    · rfl
    · unfold State.crierFull
      split
      · rw [hw, h1, h1]
      · exact h1 _ _ _ _
  have h3 : ∀ (s : State) p, (s.finalLedger p).bg = s.bg := by
    intro s p
    simp only [State.finalLedger]
    split
    · rw [h2, State.count_bg]
    · rfl
  have h4 : ∀ (s : State) a b, (s.closePart a b).bg = s.bg := by
    intro s a b
    simp only [State.closePart]
    split
    · rfl
    · split
      · exact h3 _ _
      · rfl
  have h5 : ∀ (l : List Nat) (s : State) c, (l.foldl (fun a p => a.endPart p c) s).bg = s.bg := by
    intro l
    induction l with
    | nil => intro s c; rfl
    | cons x t ih => intro s c; exact (ih _ _).trans (h4 _ _ _)
  have h6 : ∀ (s : State) a b, (s.discardSalvo a b).bg = s.bg := by
    intro s a b
    simp only [State.discardSalvo]
    split
    · rfl
    · rw [h5]; rfl
  have h7 : ∀ (s : State) a, (s.popCall a).bg = s.bg := by
    intro s a
    simp only [State.popCall]
    split
    · rfl
    · split
      · simp only [State.setTh, State.wr_bg, hw]
      · simp only [hw]
  have h8 : ∀ (s : State) a, (s.endErrand a).bg = s.bg := by
    intro s a
    simp only [State.endErrand]
    split
    · rfl
    · split
      · simp only [State.setTh, State.wr_bg, hw]; exact h6 _ _ _
      · simp only [State.setTh, State.wr_bg, hw]; exact h6 _ _ _
  unfold State.settle
  split
  · rfl
  · split
    · split
      · exact (h7 _ _).trans (h6 _ _ _)
      · exact h6 (s.setTh th Lamp.LAST_CODE Code.format.num) th Code.format.num
    · split
      · split
        · split
          · exact h8 _ _
          · rfl
        · rfl
      · rfl
theorem State.appendData_bg (s : State) (th pc : Nat) (d : List Word) : (s.appendData th pc d).bg = s.bg := by
  unfold State.appendData
  split
  · rfl
  · split <;> rfl

/-- An instruction that starts a BACKGROUND operation: p0 is set, the units are those of its first effect, the operation is under way. -/
theorem State.issue_start (s : State) (i : Issue) (use : Use) (f : State → Judged) (e : State) (op ix sub : Nat) (vals : List Int) (due : Nat)
    (h : s.passes i use f) (hv : (f (s.facing i use)).verdict = .start e op ix sub vals due) :
    (s.issue i use f).pget i.th 0 = true ∧ State.sameUnits i.th (s.issue i use f) e ∧
      (⟨(s.after i.dt).nextId, i.th, op, ix, sub, vals, due⟩ : BgOp) ∈ (s.issue i use f).bg := by
  rw [State.issue_passes s i use f h (by rw [hv]; intro g c; cases c)]
  unfold State.finish
  rw [hv]
  refine ⟨?_, ?_, ?_⟩
  · unfold State.pget
    rw [State.settle_preds, State.appendData_preds]
    simp only [State.enact]
    exact State.pget_outcome _ _ _ _
  · refine State.sameUnits_trans (State.settle_same _ _) (State.sameUnits_trans (State.appendData_same _ _ _ _) ?_)
    exact State.sameUnits_trans (State.outcome_same _ _ _ _) ⟨fun _ _ _ _ _ => rfl, fun _ _ _ _ => rfl, by simp⟩
  · rw [State.settle_bg, State.appendData_bg]
    simp only [State.enact, State.outcome, State.setTh, State.pset, State.wr_bg]
    simp

/-- An instruction that writes a predicate: after p0 has been set (R451). -/
theorem State.issue_pred (s : State) (i : Issue) (use : Use) (f : State → Judged) (p : Nat) (b : Bool) (h : s.passes i use f)
    (hv : (f (s.facing i use)).verdict = .pred p b) :
    (s.issue i use f).pget i.th p = b ∧ (p ≠ 0 → (s.issue i use f).pget i.th 0 = true) ∧
      (∀ n q, (n, q) ≠ (i.th, 0) → (n, q) ≠ (i.th, p) → (s.issue i use f).pget n q = s.pget n q) ∧
      State.sameUnits i.th (s.issue i use f) (s.after i.dt) := by
  rw [State.issue_passes s i use f h (by rw [hv]; intro g c; cases c)]
  unfold State.finish
  rw [hv]
  have hp : ∀ x : State, ((((x.appendData i.th ((s.after i.dt).thn i.th Lamp.PC) (f (s.facing i use)).data)).settle i.th)).preds = x.preds := by
    intro x; rw [State.settle_preds, State.appendData_preds]
  have hh : ∀ (x : State) pid cs, (x.hold pid cs).preds = x.preds := by intro x pid cs; unfold State.hold; split <;> rfl
  refine ⟨?_, ?_, ?_, ?_⟩
  · unfold State.pget
    rw [hp]
    simp only [State.enact, State.closePart_preds]
    exact Tbl.get_set_same _ _ _ _
  · intro hne
    unfold State.pget
    rw [hp]
    simp only [State.enact, State.closePart_preds]
    refine (Tbl.get_set_ne _ _ _ _ _ ?_ _).trans (State.pget_outcome _ _ _ _)
    intro e; exact hne (congrArg Key.pos e).symm
  · intro n q h0 h1
    unfold State.pget
    rw [hp]
    simp only [State.enact, State.closePart_preds]
    refine (Tbl.get_set_ne _ _ _ _ _ ?_ _).trans ((State.pget_outcome_ne _ _ _ _ _ _ h0).trans ?_)
    · intro e
      exact h1 (by rw [show n = i.th from congrArg Key.unit e, show q = p from congrArg Key.pos e])
    · unfold State.pget
      rw [hh]
      have : (s.facing i use).preds = s.preds := by
        unfold State.facing State.openPart State.advancePc
        split <;> rfl
      rw [this]
  · refine State.sameUnits_trans (State.settle_same _ _) (State.sameUnits_trans (State.appendData_same _ _ _ _)
      (State.sameUnits_trans (State.closePart_same _ _ _ _) ?_))
    exact State.sameUnits_trans (b := (((s.facing i use).hold _ _).outcome i.th 0 true)) ⟨fun _ _ _ _ _ => rfl, fun _ _ _ _ => rfl, by simp [State.pset]⟩
      (State.sameUnits_trans (State.outcome_same _ _ _ _) (State.sameUnits_trans (State.hold_same _ _ _ _) (State.facing_same _ _ _)))

/-! ### Staging -/

theorem State.wake_regs (s : State) (u w : Nat) (f : Field) (h : f.pos ≠ 200) (h' : f.pos ≠ 202) : (s.wake u).rd w f = s.rd w f := by
  unfold State.wake
  split
  · exact (State.rd_wr_ne _ _ _ _ _ _ (.inr h')).trans (State.rd_wr_ne _ _ _ _ _ _ (.inr h))
  · rfl
theorem State.wake_staged (s : State) (u : Nat) : (s.wake u).staged = s.staged := by
  unfold State.wake; split <;> rfl
theorem State.wakes_regs (l : List Nat) (s : State) (w : Nat) (f : Field) (h : f.pos ≠ 200) (h' : f.pos ≠ 202) :
    (l.foldl State.wake s).rd w f = s.rd w f := by
  induction l generalizing s with
  | nil => rfl
  | cons x t ih => exact (ih _).trans (State.wake_regs _ _ _ _ h h')
theorem State.wakes_staged (l : List Nat) (s : State) : (l.foldl State.wake s).staged = s.staged := by
  induction l generalizing s with
  | nil => rfl
  | cons x t ih => exact (ih _).trans (State.wake_staged _ _)
theorem State.logStaged_rd (s : State) (a b c d e w : Nat) (f : Field) : (s.logStaged a b c d e).rd w f = s.rd w f := by
  unfold State.logStaged
  split
  · rfl
  · split
    · split <;> rfl
    · rfl
theorem State.logStaged_staged (s : State) (a b c d e : Nat) : (s.logStaged a b c d e).staged = s.staged := by
  unfold State.logStaged
  split
  · rfl
  · split
    · split <;> rfl
    · rfl
theorem State.closeConflicts_same (s : State) (th : Nat) (l : List Staged) :
    State.sameUnits th (l.foldl (fun a x => a.closePart x.pid Code.conflict.num) s) s := by
  induction l generalizing s with
  | nil => exact State.sameUnits_refl _ _
  | cons x t ih => exact State.sameUnits_trans (ih _) (State.closePart_same _ _ _ _)

/-- What staging one member leaves of the thread's registers: all of them. -/
theorem State.stageOne_thread (s : State) (th pid : Nat) (sv : Option Nat) (st : Bool) (at_ : Int) (m : Member) (f : Field) (ht : th < 64)
    (h : f.pos ≠ 200) (h' : f.pos ≠ 202) : (s.stageOne th pid sv st at_ m).rd (U.thread th) f = s.rd (U.thread th) f := by
  simp only [State.stageOne]
  rw [State.wakes_regs _ _ _ _ h h']
  have hc : ∀ (l : List Staged) (x : State), (l.foldl (fun a x => a.closePart x.pid Code.conflict.num) x).rd (U.thread th) f = x.rd (U.thread th) f := by
    intro l x
    refine (State.closeConflicts_same x (th + 1) l).1 _ _ ?_ ?_ ?_
    · simp [U.thread]
    · simp only [U.thread, U.crier]; omega
    · simp only [U.thread, U.host]; omega
  have hm : ∀ x : State, (if wakesDetector m.eff then x.wake U.detector else x).rd (U.thread th) f = x.rd (U.thread th) f := by
    intro x
    split
    · exact State.wake_regs _ _ _ _ h h'
    · rfl
  rw [hm]
  split
  · exact hc _ _
  · rw [State.logStaged_rd]; exact hc _ _

/-- The effect is staged, and every earlier one stays unless STROBE replaces it. -/
theorem State.stageOne_stagedIn (s : State) (th pid : Nat) (sv : Option Nat) (st : Bool) (at_ : Int) (m : Member) :
    State.stagedIn (s.stageOne th pid sv st at_ m) th pid sv st (s.thn th Lamp.tMode == 2) m ∧
      ((s.thn th Lamp.tMode == 2) = false → ∀ e ∈ s.staged, e ∈ (s.stageOne th pid sv st at_ m).staged) := by
  have hs : ∃ g : List Staged, ((s.thn th Lamp.tMode == 2) = false → g = []) ∧ ∃ a b c : Nat, ∃ l : Bool, (s.stageOne th pid sv st at_ m).staged =
      s.staged.filter (fun x => !g.contains x) ++ [⟨a, pid, th, sv, st, m.plan, s.thn th Lamp.tPlan, b, c, l, s.thn th Lamp.tMode == 2, false, m.kind, m.elems, m.uses, m.eff⟩] := by
    simp only [State.stageOne]
    rw [State.wakes_staged]
    have hm : ∀ x : State, (if wakesDetector m.eff then x.wake U.detector else x).staged = x.staged := by
      intro x; split
      · exact State.wake_staged _ _
      · rfl
    rw [hm]
    have hc : ∀ (l : List Staged) (x : State), (l.foldl (fun a x => a.closePart x.pid Code.conflict.num) x).staged = x.staged := by
      intro l x
      exact (State.closeConflicts_same x th l).2.2.2.2.2.2.2.1
    refine ⟨(if s.thn th Lamp.tMode == 2 then s.staged.filter fun x => x.armed && x.th == th && x.kind == m.kind && meets x.elems m.elems else []),
      fun h => by simp [h], s.nextId, (s.intendedTick th m.plan at_).toNat, (max (s.intendedTick th m.plan at_) (s.firstMeeting m.plan at_)).toNat,
      decide (max (s.intendedTick th m.plan at_) (s.firstMeeting m.plan at_) ≠ s.intendedTick th m.plan at_), ?_⟩
    split
    · exact hc _ _
    · rw [State.logStaged_staged]; exact hc _ _
  obtain ⟨g, hg, a, b, c, l, e⟩ := hs
  constructor
  · refine ⟨⟨a, pid, th, sv, st, m.plan, s.thn th Lamp.tPlan, b, c, l, s.thn th Lamp.tMode == 2, false, m.kind, m.elems, m.uses, m.eff⟩, ?_, ?_⟩
    · rw [e]; exact List.mem_append_right _ (List.mem_singleton.mpr rfl)
    · simp
  · intro h x hx
    rw [e, hg h]
    refine List.mem_append_left _ (List.mem_filter.mpr ⟨hx, ?_⟩)
    rfl

theorem State.stagedAs_of {t : State} {th pid : Nat} {sv : Option Nat} {st a : Bool} {m : Member} (h : t.stagedIn th pid sv st a m) :
    t.stagedAs th a m := by
  obtain ⟨e, he, -, r⟩ := h
  exact ⟨e, he, r⟩
theorem State.stageOne_staged (s : State) (th pid : Nat) (sv : Option Nat) (st : Bool) (at_ : Int) (m : Member) :
    State.stagedAs (s.stageOne th pid sv st at_ m) th (s.thn th Lamp.tMode == 2) m ∧
      ((s.thn th Lamp.tMode == 2) = false → ∀ e ∈ s.staged, e ∈ (s.stageOne th pid sv st at_ m).staged) :=
  ⟨State.stagedAs_of (State.stageOne_stagedIn s th pid sv st at_ m).1, (State.stageOne_stagedIn s th pid sv st at_ m).2⟩

theorem stagedIn_mono (a b : State) (th pid : Nat) (sv : Option Nat) (st r : Bool) (m : Member) (h : ∀ e ∈ a.staged, e ∈ b.staged)
    (ha : State.stagedIn a th pid sv st r m) : State.stagedIn b th pid sv st r m := by
  obtain ⟨e, he, r⟩ := ha
  exact ⟨e, h e he, r⟩
theorem stagedAs_mono (a b : State) (th : Nat) (r : Bool) (m : Member) (h : ∀ e ∈ a.staged, e ∈ b.staged) (ha : State.stagedAs a th r m) :
    State.stagedAs b th r m := by
  obtain ⟨e, he, r⟩ := ha
  exact ⟨e, h e he, r⟩

theorem State.stageAll_stagedIn (s : State) (th pid : Nat) (sv : Option Nat) (st : Bool) (at_ : Int) (ms : List Member) (ht : th < 64)
    (h : s.thn th Lamp.tMode ≠ 2) :
    (∀ m ∈ ms, State.stagedIn (s.stageAll th pid sv st at_ ms) th pid sv st false m) ∧ ∀ e ∈ s.staged, e ∈ (s.stageAll th pid sv st at_ ms).staged := by
  induction ms generalizing s with
  | nil => exact ⟨fun m hm => (by cases hm), fun e he => he⟩
  | cons x t ih =>
    have hb : (s.thn th Lamp.tMode == 2) = false := by simpa using h
    have h1 := State.stageOne_stagedIn s th pid sv st at_ x
    rw [hb] at h1
    have h2 : (s.stageOne th pid sv st at_ x).thn th Lamp.tMode ≠ 2 := by
      unfold State.thn State.rn
      rw [State.stageOne_thread s th pid sv st at_ x Lamp.tMode ht (by decide) (by decide)]
      exact h
    obtain ⟨i1, i2⟩ := ih (s.stageOne th pid sv st at_ x) h2
    refine ⟨?_, fun e he => i2 e (h1.2 rfl e he)⟩
    intro m hm
    rcases List.mem_cons.mp hm with rfl | hm
    · exact stagedIn_mono _ _ _ _ _ _ _ _ i2 h1.1
    · exact i1 m hm
theorem State.stageAll_free (s : State) (th pid : Nat) (sv : Option Nat) (st : Bool) (at_ : Int) (ms : List Member) (ht : th < 64)
    (h : s.thn th Lamp.tMode ≠ 2) :
    (∀ m ∈ ms, State.stagedAs (s.stageAll th pid sv st at_ ms) th false m) ∧ ∀ e ∈ s.staged, e ∈ (s.stageAll th pid sv st at_ ms).staged :=
  ⟨fun m hm => State.stagedAs_of ((State.stageAll_stagedIn s th pid sv st at_ ms ht h).1 m hm), (State.stageAll_stagedIn s th pid sv st at_ ms ht h).2⟩
theorem State.stageAll_armed (s : State) (th pid : Nat) (sv : Option Nat) (st : Bool) (at_ : Int) (ms : List Member) (m : Member) (ht : th < 64)
    (h : s.thn th Lamp.tMode = 2) (hm : ms.getLast? = some m) : State.stagedAs (s.stageAll th pid sv st at_ ms) th true m := by
  induction ms generalizing s with
  | nil => cases hm
  | cons x t ih =>
    have h2 : (s.stageOne th pid sv st at_ x).thn th Lamp.tMode = 2 := by
      unfold State.thn State.rn
      rw [State.stageOne_thread s th pid sv st at_ x Lamp.tMode ht (by decide) (by decide)]
      exact h
    cases t with
    | nil =>
      have hx : x = m := by simpa using hm
      have h1 := (State.stageOne_staged s th pid sv st at_ x).1
      rw [hx] at h1
      have hb : (s.thn th Lamp.tMode == 2) = true := by simpa using h
      rw [hb] at h1
      rw [hx]
      exact h1
    | cons y t =>
      refine ih (s.stageOne th pid sv st at_ x) h2 ?_
      simpa [List.getLast?_cons_cons] using hm

theorem State.hold_upd (s : State) (pid : Nat) (cs : List Claim) : (s.hold pid cs).salvos = s.salvos ∧ (s.hold pid cs).staged = s.staged ∧
    (∀ u f, (s.hold pid cs).rd u f = s.rd u f) ∧ (s.hold pid cs).preds = s.preds ∧ (s.hold pid cs).errands = s.errands := by
  unfold State.hold
  split
  · exact ⟨rfl, rfl, fun _ _ => rfl, rfl, rfl⟩
  · exact ⟨rfl, rfl, fun _ _ => rfl, rfl, rfl⟩
theorem State.settle_id (x : State) (th : Nat) (h : x.goesOn th) : x.settle th = x := by
  unfold State.settle
  rcases h with h1 | ⟨h1, h2⟩ | ⟨h1, e, h2, h3⟩
  · rw [if_pos h1]
  · rw [h1, h2]; simp
  · rw [h1, h2]
    simp only [Bool.not_true, Bool.and_false, Bool.false_eq_true, if_false, if_true]
    split
    · rfl
    · rw [if_neg (by omega)]
theorem State.appendData_upd (s : State) (th pc : Nat) (d : List Word) : (s.appendData th pc d).salvos = s.salvos ∧
    ∀ u f, (s.appendData th pc d).rd u f = s.rd u f := by
  unfold State.appendData
  split
  · exact ⟨rfl, fun _ _ => rfl⟩
  · split
    · exact ⟨rfl, fun _ _ => rfl⟩
    · exact ⟨rfl, fun _ _ => rfl⟩

theorem State.appendData_errandOf (s : State) (th pc : Nat) (d : List Word) (e0 : Errand) (h0 : s.errandOf th = some e0) :
    ∃ e, (s.appendData th pc d).errandOf th = some e ∧ e.head = e0.head ∧ e.words = e0.words := by
  unfold State.appendData
  split
  · exact ⟨e0, h0, rfl, rfl⟩
  · rw [h0]
    refine ⟨{ e0 with data := e0.data ++ [(pc, d)] }, ?_, rfl, rfl⟩
    unfold State.errandOf at h0 ⊢
    have hm : (s.setErrand { e0 with data := e0.data ++ [(pc, d)] }).errands =
        s.errands.map fun x => if x.id = e0.id then { e0 with data := e0.data ++ [(pc, d)] } else x := rfl
    have ht : (s.setErrand { e0 with data := e0.data ++ [(pc, d)] }).thn th Lamp.errand = s.thn th Lamp.errand := rfl
    have hf : ((fun e => e.id + 1 == s.thn th Lamp.errand) ∘ fun x : Errand => if x.id = e0.id then { e0 with data := e0.data ++ [(pc, d)] } else x) =
        fun e => e.id + 1 == s.thn th Lamp.errand := by
      funext x
      simp only [Function.comp]
      split
      · rename_i hx; rw [hx]
      · rfl
    simp only [hm, ht, List.find?_map]
    rw [hf, h0]
    simp
/-- Reports of an errand do not end it. -/
theorem State.goesOn_appendData (s : State) (th pc : Nat) (d : List Word) (h : s.goesOn th) : (s.appendData th pc d).goesOn th := by
  have hr := (State.appendData_upd s th pc d).2
  rcases h with h | ⟨h1, h2⟩ | ⟨h1, e0, h0, h3⟩
  · refine .inl ?_
    unfold State.th at h ⊢
    rw [hr]; exact h
  · refine .inr (.inl ?_)
    unfold State.rb at h1 h2 ⊢
    rw [hr, hr]; exact ⟨h1, h2⟩
  · obtain ⟨e, he, hh, hw⟩ := State.appendData_errandOf s th pc d e0 h0
    refine .inr (.inr ⟨?_, e, he, ?_⟩)
    · unfold State.rb at h1 ⊢
      rw [hr]; exact h1
    · rw [hh, hw]
      unfold State.thn State.rn at h3 ⊢
      rw [hr]; exact h3
/-- A state with the same errands and the same place of the thread. -/
theorem State.goesOn_of (a b : State) (th : Nat) (he : a.errands = b.errands)
    (hr : ∀ f : Field, f.pos ≠ Lamp.LAST_CODE.pos → a.rd (U.thread th) f = b.rd (U.thread th) f) (h : b.goesOn th) : a.goesOn th := by
  have e1 := hr Lamp.past (by decide)
  have e2 := hr Lamp.IN_ERRAND (by decide)
  have e3 := hr Lamp.errand (by decide)
  have e4 := hr Lamp.PC (by decide)
  have e5 := hr Lamp.STATE (by decide)
  unfold State.goesOn State.errandOf State.th State.thn State.rn State.rb at *
  rw [e1, e2, e3, e4, e5, he]
  exact h

/-- A TICKED instruction: p0 is set and its members are taken up. -/
theorem State.issue_stage (s : State) (i : Issue) (use : Use) (f : State → Judged) (ms : List Member)
    (h : s.passes i use f) (hv : (f (s.facing i use)).verdict = .stage ms) :
    (s.issue i use f).pget i.th 0 = true ∧ State.takesUp (s.facing i use) i.th ms (s.issue i use f) := by
  have ht : i.th < 64 := h.1
  rw [State.issue_passes s i use f h (by rw [hv]; intro g c; cases c)]
  unfold State.finish
  rw [hv]
  generalize hw : (s.facing i use).hold (s.after i.dt).nextId (f (s.facing i use)).claims = w
  have hu := State.hold_upd (s.facing i use) (s.after i.dt).nextId (f (s.facing i use)).claims
  rw [hw] at hu
  obtain ⟨hs, hg, hr, -, he⟩ := hu
  unfold State.takesUp
  rw [← hs]
  generalize (s.after i.dt).nextId = pid
  generalize (s.after i.dt).thn i.th Lamp.PC = pc
  generalize (f (s.facing i use)).data = d
  have hst : ∀ x : State, ((x.appendData i.th pc d).settle i.th).staged = x.staged := by
    intro x
    exact (State.sameUnits_trans (State.settle_same _ _) (State.appendData_same x i.th pc d)).2.2.2.2.2.2.2.1
  constructor
  · unfold State.pget
    rw [State.settle_preds, State.appendData_preds]
    simp only [State.enact]
    split
    · exact State.pget_outcome _ _ _ _
    · exact State.pget_outcome _ _ _ _
  · simp only [State.enact]
    cases ho : w.salvos.find? (·.th == i.th) with
    | some o =>
      simp only
      refine ⟨?_, ?_⟩
      · rw [hst, ← hg]; rfl
      · intro hp
        refine ⟨{ o with members := o.members ++ [(pid, ms)] }, ?_, ?_, rfl, by simp⟩
        · rw [State.settle_id, (State.appendData_upd _ _ _ _).1]
          · simp only [State.outcome, State.setTh, State.pset, State.wr_salvos, State.owe]
            refine List.mem_map.mpr ⟨o, List.mem_of_find?_eq_some ho, ?_⟩
            have : o.th = i.th := by simpa using List.find?_some ho
            simp [this]
          · refine State.goesOn_appendData _ _ _ _ (State.goesOn_of _ (s.facing i use) i.th ?_ ?_ hp)
            · rw [← he]; rfl
            · intro f hf
              rw [← hr]
              have eo : ∀ x : State, ∀ c b, (x.outcome i.th c b).rd (U.thread i.th) f = x.rd (U.thread i.th) f := by
                intro x c b
                exact State.rd_wr_ne _ _ _ _ _ _ (.inr hf)
              exact eo _ _ _
        · exact (by simpa using List.find?_some ho : o.th = i.th)
    | none =>
      simp only
      have hmode : (s.facing i use).thn i.th Lamp.tMode = (w.owe pid ms.length).thn i.th Lamp.tMode := by
        unfold State.thn State.rn
        rw [← hr]; rfl
      rw [hmode]
      have hsame : ∀ (x : State) c b, ((((x.outcome i.th c b).appendData i.th pc d).settle i.th)).staged = x.staged := by
        intro x c b; rw [hst]; rfl
      split
      · rename_i hm
        intro m hl
        obtain ⟨e, he, r⟩ := State.stageAll_armed (w.owe pid ms.length) i.th pid none false w.now ms m ht hm hl
        exact ⟨e, by rw [hsame]; exact he, r⟩
      · rename_i hm
        intro m hl
        obtain ⟨e, he, r⟩ := (State.stageAll_free (w.owe pid ms.length) i.th pid none false w.now ms ht hm).1 m hl
        exact ⟨e, by rw [hsame]; exact he, r⟩

/-! ### When a control or register instruction passes -/

theorem firstFail_none (l : Checks) : firstFail l = none ↔ ∀ x ∈ l, x.2 = false := by
  induction l with
  | nil => simp [firstFail]
  | cons x t ih =>
    obtain ⟨c, b⟩ := x
    cases b
    · simp [firstFail, ih]
    · simp only [firstFail, if_true]
      constructor
      · intro h
        split at h
        · cases h
        · split at h <;> cases h
      · intro h
        exact absurd (h (c, true) (List.mem_cons_self ..)) (by simp)

theorem State.facing_rd (s : State) (i : Issue) (use : Use) (u : Nat) (f : Field) (h : u ≠ U.thread i.th ∨ (f.pos ≠ Lamp.PC.pos ∧ f.pos ≠ Lamp.past.pos)) :
    (s.facing i use).rd u f = s.rd u f := by
  have hp : ((s.after i.dt).advancePc i.th (1 + i.params.length)).rd u f = s.rd u f := by
    unfold State.advancePc
    have h1 : ∀ (x : State) v, (x.setTh i.th Lamp.PC v).rd u f = x.rd u f := by
      intro x v
      exact State.rd_wr_ne _ _ _ _ _ _ (h.imp id fun g => g.1)
    have h2 : ∀ (x : State) v, (x.setTh i.th Lamp.past v).rd u f = x.rd u f := by
      intro x v
      exact State.rd_wr_ne _ _ _ _ _ _ (h.imp id fun g => g.2)
    split
    · rw [h1]; rfl
    · rw [h2, h1]; rfl
  exact hp
theorem State.facing_errands (s : State) (i : Issue) (use : Use) : (s.facing i use).errands = s.errands := by
  unfold State.facing State.openPart State.advancePc
  split <;> rfl
theorem State.facing_gregs (s : State) (i : Issue) (use : Use) : (s.facing i use).gregs = s.gregs := by
  unfold State.facing State.openPart State.advancePc
  split <;> rfl
theorem State.facing_preds (s : State) (i : Issue) (use : Use) : (s.facing i use).preds = s.preds := by
  unfold State.facing State.openPart State.advancePc
  split <;> rfl
theorem State.facing_errandOf (s : State) (i : Issue) (use : Use) (t : Nat) : (s.facing i use).errandOf t = s.errandOf t := by
  unfold State.errandOf State.thn State.rn
  rw [State.facing_errands, State.facing_rd s i use (U.thread t) Lamp.errand (.inr (by decide))]
theorem State.facing_roleBar (s : State) (i : Issue) (use : Use) (t p : Nat) : (s.facing i use).roleBar t p = s.roleBar t p := by
  have h : (s.facing i use).isStandby = s.isStandby := by
    unfold State.isStandby State.rn
    rw [State.facing_rd s i use U.twin Twin.ROLE (.inr (by decide))]
  unfold State.roleBar
  rw [State.facing_errandOf, h]

/-- A register, predicate or branch instruction passes where the thread may issue and no check of its own fails. -/
theorem State.passes_register (s : State) (i : Issue) (f : State → Judged) (h : s.mayIssue i (f (s.facing i .register)).permit)
    (hv : ∀ ms, (f (s.facing i .register)).verdict ≠ .stage ms) (hc : ∀ x ∈ (f (s.facing i .register)).checks, x.2 = false) :
    s.passes i .register f := by
  refine ⟨h.1, h.2.1, h.2.2.1, fun ms e => absurd e (hv ms), ?_⟩
  rw [firstFail_none]
  intro x hx
  rcases List.mem_append.mp hx with hx | hx
  · exact hc x hx
  · obtain ⟨-, -, -, h3, h4⟩ := h
    unfold commonChecks at hx
    rw [State.facing_roleBar, h3] at hx
    have hst : (s.facing i .register).rn U.boot Boot.STAGE ≠ 4 := by
      unfold State.rn
      rw [State.facing_rd s i .register U.boot Boot.STAGE (.inr (by decide))]
      exact h4
    have hsal : salvoChecks (s.facing i .register) i.th .register (f (s.facing i .register)).verdict = [] := by
      unfold salvoChecks
      split <;> rfl
    rw [hsal] at hx
    cases hvv : (f (s.facing i .register)).verdict <;> rw [hvv] at hx <;> first | (exact absurd hvv (hv _)) | skip
    all_goals
      simp only [List.nil_append, List.append_nil, List.mem_singleton] at hx
      rw [hx]
      simp [hst]

/-! ### An instruction that fails -/

/-- A thread's own registers, of thread numbers below 64, but those that a report writes. -/
theorem State.closePart_thread (s : State) (th pid code : Nat) (f : Field) (ht : th < 64) :
    (s.closePart pid code).rd (U.thread th) f = s.rd (U.thread th) f := by
  refine (State.closePart_same s (th + 1) pid code).1 _ _ ?_ ?_ ?_
  · simp [U.thread]
  · simp only [U.thread, U.crier]; omega
  · simp only [U.thread, U.host]; omega
theorem State.failWith_same (s : State) (th pid : Nat) (c : Code) : State.sameUnits th (s.failWith th pid c) s := by
  simp only [State.failWith]
  split
  · exact State.sameUnits_trans (State.closePart_same _ _ _ _) (State.outcome_same _ _ _ _)
  · split
    · exact State.outcome_same s th c.num false
    · exact State.sameUnits_trans (State.closePart_same _ _ _ _) (State.outcome_same _ _ _ _)
theorem State.failWith_preds (s : State) (th pid : Nat) (c : Code) : (s.failWith th pid c).preds = (s.outcome th c.num false).preds := by
  simp only [State.failWith]
  split
  · rw [State.closePart_preds]
  · split
    · rfl
    · rw [State.closePart_preds]
theorem State.failWith_last (s : State) (th pid : Nat) (c : Code) (ht : th < 64) : (s.failWith th pid c).th th Lamp.LAST_CODE = c.num ∧
    (s.failWith th pid c).rd (U.thread th) Lamp.past = s.rd (U.thread th) Lamp.past := by
  have h1 : (s.outcome th c.num false).rd (U.thread th) Lamp.LAST_CODE = c.num := by
    refine (State.rd_wr_same _ _ _ _).trans ?_
    cases c <;> decide
  have h2 : (s.outcome th c.num false).rd (U.thread th) Lamp.past = s.rd (U.thread th) Lamp.past :=
    State.rd_wr_ne _ _ _ _ _ _ (.inr (by decide))
  simp only [State.failWith, State.th]
  split
  · rw [State.closePart_thread _ _ _ _ _ ht, State.closePart_thread _ _ _ _ _ ht]; exact ⟨h1, h2⟩
  · split
    · exact ⟨h1, h2⟩
    · rw [State.closePart_thread _ _ _ _ _ ht, State.closePart_thread _ _ _ _ _ ht]; exact ⟨h1, h2⟩
theorem State.wrs_ne (s : State) (u w : Nat) (l : List (Field × Int)) (f : Field) (h : ∀ e ∈ l, f.pos ≠ e.1.pos) : (s.wrs u l).rd w f = s.rd w f := by
  induction l generalizing s with
  | nil => rfl
  | cons x t ih =>
    exact (ih _ fun e he => h e (List.mem_cons_of_mem _ he)).trans (State.rd_wr_ne _ _ _ _ _ _ (.inr (h x (List.mem_cons_self ..))))
theorem State.discardSalvo_rd (s : State) (th code n : Nat) (f : Field) (hn : n < 64) (hf : f.pos ≠ Lamp.SALVO.pos) :
    (s.discardSalvo th code).rd (U.thread n) f = s.rd (U.thread n) f := by
  have h : ∀ (l : List Nat) (x : State), (l.foldl (fun a p => a.endPart p code) x).rd (U.thread n) f = x.rd (U.thread n) f := by
    intro l
    induction l with
    | nil => intro x; rfl
    | cons y t ih => intro x; exact (ih _).trans (State.closePart_thread _ _ _ _ _ hn)
  simp only [State.discardSalvo]
  split
  · rfl
  · rw [h]; exact State.rd_wr_ne _ _ _ _ _ _ (.inr hf)
theorem State.endErrand_last (s : State) (th : Nat) (ht : th < 64) :
    (s.endErrand th).rd (U.thread th) Lamp.LAST_CODE = s.rd (U.thread th) Lamp.LAST_CODE := by
  simp only [State.endErrand]
  split
  · rfl
  · rename_i e _
    have h : (((s.discardSalvo th Code.format.num).setErrand { e with phase := 2 }).wrs (U.thread th)
      [(Lamp.errand, 0), (Lamp.IN_ERRAND, 0), (Lamp.TARGET, 0), (Lamp.tMode, 0), (Lamp.callIdx, 0), (Lamp.PC, 0)]).rd (U.thread th) Lamp.LAST_CODE =
        s.rd (U.thread th) Lamp.LAST_CODE := (State.wrs_ne _ _ _ _ _ (by decide)).trans (State.discardSalvo_rd _ _ _ _ _ ht (by decide))
    have hs : ∀ (x : State) f v, f.pos ≠ Lamp.LAST_CODE.pos → (x.setTh th f v).rd (U.thread th) Lamp.LAST_CODE = x.rd (U.thread th) Lamp.LAST_CODE :=
      fun x f v g => State.rd_wr_ne _ _ _ _ _ _ (.inr (Ne.symm g))
    split
    · rw [hs _ _ _ (by decide), hs _ _ _ (by decide)]; exact h
    · rw [hs _ _ _ (by decide)]; exact h
theorem State.settle_last (s : State) (th : Nat) (ht : th < 64) (h : s.rb (U.thread th) Lamp.past = false) :
    (s.settle th).rd (U.thread th) Lamp.LAST_CODE = s.rd (U.thread th) Lamp.LAST_CODE := by
  unfold State.settle
  rw [h]
  simp only [Bool.false_and]
  split
  · rfl
  · split
    · contradiction
    · split
      · split
        · split
          · exact State.endErrand_last _ _ ht
          · rfl
        · rfl
      · rfl
theorem State.faultThread_same (s : State) (th : Nat) : State.sameUnits th (s.faultThread th) s := by
  have hp : ∀ x : State, State.sameUnits th (x.openPart th 1 1 0 []).2 x :=
    fun x => ⟨fun _ _ _ _ _ => rfl, fun _ _ _ _ => rfl, by simp [State.openPart]⟩
  have hu : ∀ (x : State) (n : Nat) (p : List Part), State.sameUnits th { x with nextId := n, parts := p } x :=
    fun x n p => ⟨fun _ _ _ _ _ => rfl, fun _ _ _ _ => rfl, by simp⟩
  unfold State.faultThread
  split
  · exact State.sameUnits_refl _ _
  · have hd := State.discardSalvo_same s th Code.fault.num
    refine State.sameUnits_trans (State.post_same _ _ _ _ _) (State.sameUnits_trans (State.wrs_same _ _ _ _ (.inl rfl)) ?_)
    dsimp only
    split
    · exact hd
    · refine State.sameUnits_trans (State.endErrand_same _ _) (State.sameUnits_trans (State.setTh_same _ _ _ _)
        (State.sameUnits_trans (hu _ _ _) ?_))
      split
      · exact State.sameUnits_trans (State.closePart_same _ _ _ _) (State.sameUnits_trans (hp _) hd)
      · exact hd
theorem State.faultThread_preds (s : State) (th : Nat) : (s.faultThread th).preds = s.preds := by
  unfold State.faultThread
  split
  · rfl
  · rw [State.post_preds, State.wrs_preds]
    dsimp only
    split
    · exact State.discardSalvo_preds _ _ _
    · rw [State.endErrand_preds, State.setTh_preds]
      dsimp only
      split
      · rw [State.closePart_preds]
        exact State.discardSalvo_preds _ _ _
      · exact State.discardSalvo_preds _ _ _

theorem State.nameMember_same (s : State) (th : Nat) (m : Option Nat) : State.sameUnits th (s.nameMember th m) s := by
  unfold State.nameMember
  split
  · exact State.sameUnits_refl _ _
  · exact State.setTh_same _ _ _ _
theorem State.nameMember_rd (s : State) (th : Nat) (m : Option Nat) (u : Nat) (f : Field) (hf : f.pos ≠ Lamp.failMember.pos) :
    (s.nameMember th m).rd u f = s.rd u f := by
  unfold State.nameMember
  split
  · rfl
  · exact State.rd_wr_ne _ _ _ _ _ _ (.inr hf)
theorem State.issue_fails (s : State) (i : Issue) (use : Use) (f : State → Judged) (k : Code) (ht : i.th < 64) (h1 : s.servesOwn i)
    (h2 : s.th i.th Lamp.STATE = thRunning)
    (h4 : firstFail ((f (s.facing i use)).checks ++ commonChecks (s.facing i use) i.th use (f (s.facing i use))) = some k) :
    (s.issue i use f).pget i.th 0 = false ∧
      (k ≠ .bandwidth → State.sameUnits i.th (s.issue i use f) (s.after i.dt) ∧
        (classFault (s.facing i use) (f (s.facing i use)).verdict = false → (s.facing i use).rb (U.thread i.th) Lamp.past = false →
          (s.issue i use f).th i.th Lamp.LAST_CODE = k.num)) := by
  have e : s.issue i use f = (s.after i.dt).issueOn i use f := State.onThreads_own _ _ _ h1
  rw [e]
  unfold State.issueOn
  have h2' : ¬ (s.after i.dt).th i.th Lamp.STATE ≠ thRunning := fun g => g h2
  simp only [if_neg h2']
  have hf : ((s.after i.dt).advancePc i.th (1 + i.params.length)).openPart i.th (1 + i.params.length) 1 ((s.after i.dt).thn i.th Lamp.PC)
      (ticketWords i use) = ((s.after i.dt).nextId, s.facing i use) := by
    rw [← State.advancePc_nextId (s.after i.dt) i.th (1 + i.params.length)]; rfl
  rw [hf]
  simp only [h4]
  have hfs := State.facing_same s i use
  generalize s.facing i use = v at *
  generalize (s.after i.dt).nextId = pid
  generalize (s.after i.dt).thn i.th Lamp.PC = pc
  generalize (f v).data = d
  refine ⟨?_, ?_⟩
  · unfold State.pget
    split
    · rw [State.faultThread_preds, State.appendData_preds, State.failWith_preds]
      exact State.pget_outcome _ _ _ _
    · rw [State.settle_preds, State.appendData_preds, State.failWith_preds]
      exact State.pget_outcome _ _ _ _
  · intro hk
    rw [if_neg hk]
    have hs : State.sameUnits i.th (((v.nameMember i.th ((f v).failing k)).failWith i.th pid k).appendData i.th pc (d.map fun _ => 0)) (s.after i.dt) :=
      State.sameUnits_trans (State.appendData_same _ _ _ _) (State.sameUnits_trans (State.failWith_same _ _ _ _)
        (State.sameUnits_trans (State.nameMember_same _ _ _) hfs))
    refine ⟨?_, ?_⟩
    · split
      · exact State.sameUnits_trans (State.faultThread_same _ _) hs
      · exact State.sameUnits_trans (State.settle_same _ _) hs
    · intro hcf hp
      rw [if_neg (by rw [hcf]; simp)]
      obtain ⟨l1, l2⟩ := State.failWith_last (v.nameMember i.th ((f v).failing k)) i.th pid k ht
      rw [State.nameMember_rd _ _ _ _ _ (by decide)] at l2
      unfold State.th
      rw [State.settle_last _ _ ht]
      · rw [(State.appendData_upd _ _ _ _).2]; exact l1
      · unfold State.rb
        rw [(State.appendData_upd _ _ _ _).2, l2]; exact hp

/-! ### The thread's own registers after an instruction that acts at once -/

theorem State.finalLedger_upd (s : State) (p : Part) : (s.finalLedger p).calls = s.calls ∧ (s.finalLedger p).salvos = s.salvos ∧
    (s.finalLedger p).errands = s.errands := by
  have hw : ∀ (s : State) u l, (s.wrs u l).calls = s.calls ∧ (s.wrs u l).salvos = s.salvos ∧ (s.wrs u l).errands = s.errands := by
    intro s u l; induction l generalizing s with
    | nil => exact ⟨rfl, rfl, rfl⟩
    | cons x t ih => exact ih _
  have hr : ∀ (s : State) n, (s.raiseIbi n).calls = s.calls ∧ (s.raiseIbi n).salvos = s.salvos ∧ (s.raiseIbi n).errands = s.errands := by
    intro s n; unfold State.raiseIbi; split <;> exact ⟨rfl, rfl, rfl⟩
  have h1 : ∀ (s : State) u c d, (s.crierWrite u c d).calls = s.calls ∧ (s.crierWrite u c d).salvos = s.salvos ∧
      (s.crierWrite u c d).errands = s.errands := by
    intro s u c d
    simp only [State.crierWrite]
    split
    · simp only [State.emit_calls, State.emit_salvos, State.emit_errands, hr, hw, State.count_calls, State.count_salvos, State.count_errands]
      trivial
    · simp only [hw, State.count_calls, State.count_salvos, State.count_errands]
      trivial
  have h2 : ∀ (s : State) u c d, (s.post u c d).calls = s.calls ∧ (s.post u c d).salvos = s.salvos ∧ (s.post u c d).errands = s.errands := by
    intro s u c d
    unfold State.post
    split
    · exact ⟨rfl, rfl, rfl⟩
    · unfold State.crierFull
      split
      · simp only [hw, h1]; trivial
      · exact h1 _ _ _ _
  simp only [State.finalLedger]
  split
  · exact h2 _ _ _ _
  · exact ⟨rfl, rfl, rfl⟩
theorem State.closePart_upd (s : State) (pid code : Nat) : (s.closePart pid code).calls = s.calls ∧ (s.closePart pid code).salvos = s.salvos ∧
    (s.closePart pid code).errands = s.errands := by
  simp only [State.closePart]
  split
  · exact ⟨rfl, rfl, rfl⟩
  · split
    · exact State.finalLedger_upd _ _
    · exact ⟨rfl, rfl, rfl⟩
theorem State.appendData_nil (s : State) (th pc : Nat) : s.appendData th pc [] = s := rfl
theorem State.outcome_thread (s : State) (th c : Nat) (b : Bool) (f : Field) (h : f.pos ≠ Lamp.LAST_CODE.pos) (u : Nat) :
    (s.outcome th c b).rd u f = s.rd u f := State.rd_wr_ne _ _ _ _ _ _ (.inr h)

/-- The thread as an instruction that acts at once leaves it, where execution goes on. -/
theorem State.issue_act_thread (s : State) (i : Issue) (use : Use) (f : State → Judged) (e : State) (h : s.passes i use f)
    (hv : (f (s.facing i use)).verdict = .act e) (hd : (f (s.facing i use)).data = []) (hg : e.goesOn i.th) :
    (∀ g : Field, g.pos ≠ Lamp.LAST_CODE.pos → (s.issue i use f).rd (U.thread i.th) g = e.rd (U.thread i.th) g) ∧
      (s.issue i use f).calls = e.calls ∧ (s.issue i use f).salvos = e.salvos ∧ (s.issue i use f).th i.th Lamp.LAST_CODE = 0 := by
  have ht : i.th < 64 := h.1
  rw [State.issue_passes s i use f h (by rw [hv]; intro g c; cases c)]
  unfold State.finish
  rw [hv, hd, State.appendData_nil]
  simp only [State.enact]
  generalize (s.after i.dt).nextId = pid
  have hr : ∀ g : Field, g.pos ≠ Lamp.LAST_CODE.pos → ((e.outcome i.th 0 true).closePart pid 0).rd (U.thread i.th) g = e.rd (U.thread i.th) g := by
    intro g hg
    rw [State.closePart_thread _ _ _ _ _ ht, State.outcome_thread _ _ _ _ _ hg]
  have hu := State.closePart_upd (e.outcome i.th 0 true) pid 0
  have hset : ((e.outcome i.th 0 true).closePart pid 0).goesOn i.th := by
    have r1 := hr Lamp.STATE (by decide)
    have r2 := hr Lamp.past (by decide)
    have r3 := hr Lamp.IN_ERRAND (by decide)
    have r4 := hr Lamp.PC (by decide)
    have r5 := hr Lamp.errand (by decide)
    unfold State.goesOn State.errandOf State.th State.thn State.rb State.rn at *
    rw [r1, r2, r3, r4, r5, hu.2.2]
    exact hg
  rw [State.settle_id _ _ hset]
  refine ⟨hr, hu.1, hu.2.1, ?_⟩
  unfold State.th
  rw [State.closePart_thread _ _ _ _ _ ht]
  exact (State.rd_wr_same _ _ Lamp.LAST_CODE 0).trans rfl
/-- The same of one that ends with a code of its own. -/
theorem State.issue_actCode (s : State) (i : Issue) (use : Use) (f : State → Judged) (e : State) (k : Code) (h : s.passes i use f)
    (hv : (f (s.facing i use)).verdict = .actCode e k) (hd : (f (s.facing i use)).data = []) (hg : e.goesOn i.th) :
    (∀ g : Field, g.pos ≠ Lamp.LAST_CODE.pos → (s.issue i use f).rd (U.thread i.th) g = e.rd (U.thread i.th) g) ∧
      (s.issue i use f).th i.th Lamp.LAST_CODE = k.num ∧ (s.issue i use f).pget i.th 0 = false ∧
      State.sameUnits i.th (s.issue i use f) e := by
  have ht : i.th < 64 := h.1
  rw [State.issue_passes s i use f h (by rw [hv]; intro g c; cases c)]
  unfold State.finish
  rw [hv, hd, State.appendData_nil]
  simp only [State.enact]
  generalize (s.after i.dt).nextId = pid
  have hr : ∀ g : Field, g.pos ≠ Lamp.LAST_CODE.pos → ((e.outcome i.th k.num false).closePart pid k.num).rd (U.thread i.th) g = e.rd (U.thread i.th) g := by
    intro g hg
    rw [State.closePart_thread _ _ _ _ _ ht, State.outcome_thread _ _ _ _ _ hg]
  have hu := State.closePart_upd (e.outcome i.th k.num false) pid k.num
  have hset : ((e.outcome i.th k.num false).closePart pid k.num).goesOn i.th := by
    have r1 := hr Lamp.STATE (by decide)
    have r2 := hr Lamp.past (by decide)
    have r3 := hr Lamp.IN_ERRAND (by decide)
    have r4 := hr Lamp.PC (by decide)
    have r5 := hr Lamp.errand (by decide)
    unfold State.goesOn State.errandOf State.th State.thn State.rb State.rn at *
    rw [r1, r2, r3, r4, r5, hu.2.2]
    exact hg
  rw [State.settle_id _ _ hset]
  refine ⟨hr, ?_, ?_, ?_⟩
  · unfold State.th
    rw [State.closePart_thread _ _ _ _ _ ht]
    exact (State.rd_wr_same _ _ _ _).trans (by cases k <;> decide)
  · unfold State.pget
    rw [State.closePart_preds]
    exact State.pget_outcome _ _ _ _
  · exact State.sameUnits_trans (State.closePart_same _ _ _ _) (State.outcome_same _ _ _ _)

/-- An instruction passes where its thread may issue and neither a check of its own nor a salvo's rule fails. -/
theorem State.passes_of (s : State) (i : Issue) (use : Use) (f : State → Judged) (h : s.mayIssue i (f (s.facing i use)).permit)
    (hv : ∀ ms, (f (s.facing i use)).verdict ≠ .stage ms) (hc : ∀ x ∈ (f (s.facing i use)).checks, x.2 = false)
    (hsal : ∀ x ∈ salvoChecks (s.facing i use) i.th use (f (s.facing i use)).verdict, x.2 = false) :
    s.passes i use f := by
  refine ⟨h.1, h.2.1, h.2.2.1, fun ms e => absurd e (hv ms), ?_⟩
  rw [firstFail_none]
  intro x hx
  rcases List.mem_append.mp hx with hx | hx
  · exact hc x hx
  · obtain ⟨-, -, -, h3, h4⟩ := h
    unfold commonChecks at hx
    rw [State.facing_roleBar, h3] at hx
    have hst : (s.facing i use).rn U.boot Boot.STAGE ≠ 4 := by
      unfold State.rn
      rw [State.facing_rd s i use U.boot Boot.STAGE (.inr (by decide))]
      exact h4
    rcases List.mem_append.mp hx with hx | hx
    · rcases List.mem_append.mp hx with hx | hx
      · simp only [List.nil_append, List.mem_singleton] at hx
        rw [hx]
        simp [hst]
      · exact hsal x hx
    · cases hvv : (f (s.facing i use)).verdict <;> rw [hvv] at hx <;> first | (exact absurd hvv (hv _)) | (cases hx)
theorem State.facing_salvos (s : State) (i : Issue) (use : Use) : (s.facing i use).salvos = s.salvos := by
  unfold State.facing State.openPart State.advancePc
  split <;> rfl
theorem State.facing_calls (s : State) (i : Issue) (use : Use) : (s.facing i use).calls = s.calls := by
  unfold State.facing State.openPart State.advancePc
  split <;> rfl
theorem salvoChecks_none (s : State) (t : Nat) (use : Use) (v : Verdict) (h : s.noSalvo t) : salvoChecks s t use v = [] := by
  unfold salvoChecks; rw [h]; rfl
theorem pc_norm (n : Nat) (h : n < 65536) : Lamp.PC.norm (n : Int) = n := by
  show (n : Int) % 2 ^ 16 = n
  norm_num
  omega
/-- In a Ledger program the program counter has moved on by one word and its parameters, and not past the Ledger. -/
theorem State.facing_pc (s : State) (i : Issue) (use : Use) (h : s.inProgram i.th) (hl : s.thn i.th Lamp.PC + i.params.length < 65535) :
    (s.facing i use).rd (U.thread i.th) Lamp.PC = (s.thn i.th Lamp.PC + (1 + i.params.length) : Nat) ∧
      (s.facing i use).rb (U.thread i.th) Lamp.past = false := by
  obtain ⟨h1, -, -, -⟩ := h
  have h1' : (s.after i.dt).rb (U.thread i.th) Lamp.IN_ERRAND = false := h1
  have hp : (s.facing i use).rd (U.thread i.th) Lamp.PC =
      ((s.after i.dt).advancePc i.th (1 + i.params.length)).rd (U.thread i.th) Lamp.PC := rfl
  have hq : (s.facing i use).rb (U.thread i.th) Lamp.past =
      ((s.after i.dt).advancePc i.th (1 + i.params.length)).rb (U.thread i.th) Lamp.past := rfl
  rw [hp, hq]
  unfold State.advancePc
  rw [h1']
  have hn : (s.after i.dt).thn i.th Lamp.PC = s.thn i.th Lamp.PC := rfl
  simp only [Bool.false_eq_true, if_false]
  rw [hn]
  refine ⟨?_, ?_⟩
  · refine (State.rd_wr_ne _ _ _ _ _ _ (.inr (by decide))).trans ((State.rd_wr_same _ _ _ _).trans ?_)
    exact pc_norm _ (by omega)
  · rw [if_neg (by omega : ¬ 65536 ≤ s.thn i.th Lamp.PC + (1 + i.params.length))]
    unfold State.rb
    have := State.rd_wr_same ((s.after i.dt).setTh i.th Lamp.PC ((s.thn i.th Lamp.PC + (1 + i.params.length) : Nat) : Int)) (U.thread i.th) Lamp.past 0
    rw [show Lamp.past.norm 0 = 0 by decide] at this
    exact bne_eq_false_iff_eq.mpr this

end Sys2Proof.Machine
end

