-- ==== Sys2Proof/Laws/Exec.lean ====
section
/-!
SUPPORT. What every command keeps: the commands that wait, and the canonical form of the byte stores.
-/
namespace Sys2Proof.Laws
open Sys2Proof Sys2Proof.Machine

/-- What every command but FUSE_BLOWN and RESET_RELEASE keeps of the queue, the stores and the fuses. -/
theorem exec_rel (c : Instr) (s : State) (h1 : ∀ dt ok, c ≠ .fuseBlown dt ok) (h2 : ∀ dt e, c ≠ .resetRelease dt e) :
    ∃ t, exec c s = .next t ∧ keptRel s.kept t.kept := by
  have K : ∀ {x : Res}, (∃ t, x = .next t ∧ t.kept = s.kept) → ∃ t, x = .next t ∧ keptRel s.kept t.kept :=
    fun ⟨t, e, k⟩ => ⟨t, e, by rw [k]; exact keptRel_refl _⟩
  have L : ∀ {x : Res}, (∃ t, x = .next t ∧ ∀ k0, keptRel k0 s.kept → keptRel k0 t.kept) → ∃ t, x = .next t ∧ keptRel s.kept t.kept :=
    fun ⟨t, e, k⟩ => ⟨t, e, k _ (keptRel_refl _)⟩
  cases c with
  | nop it => exact K (execNop_kept it s)
  | halt it => exact K (execHalt_kept it s)
  | br it => exact K (execBr_kept it s)
  | bp it => exact K (execBp_kept it s)
  | call it => exact K (execCall_kept it s)
  | ret it => exact K (execRet_kept it s)
  | salvo it => exact K (execSalvo_kept it s)
  | endsalvo it => exact K (execEndsalvo_kept it s)
  | waittick it => exact K (execWaittick_kept it s)
  | waittime it => exact K (execWaittime_kept it s)
  | waitcapt it => exact K (execWaitcapt_kept it s)
  | target it => exact K (execTarget_kept it s)
  | sync it => exact K (execSync_kept it s)
  | li it => exact K (execLi_kept it s)
  | mov it => exact K (execMov_kept it s)
  | add it => exact K (execAdd_kept it s)
  | sub it => exact K (execSub_kept it s)
  | andOp it => exact K (execAnd_kept it s)
  | orOp it => exact K (execOr_kept it s)
  | xorOp it => exact K (execXor_kept it s)
  | shl it => exact K (execShl_kept it s)
  | shr it => exact K (execShr_kept it s)
  | cmp it => exact K (execCmp_kept it s)
  | bit it => exact K (execBit_kept it s)
  | pset it => exact K (execPset_kept it s)
  | take it => exact K (execTake_kept it s)
  | taker it => exact K (execTaker_kept it s)
  | btake it => exact K (execBtake_kept it s)
  | lock it => exact K (execLock_kept it s)
  | protect it => exact K (execProtect_kept it s)
  | unlock it => exact K (execUnlock_kept it s)
  | sheafset it => exact K (execSheafset_kept it s)
  | sheafadd it => exact K (execSheafadd_kept it s)
  | sheafclr it => exact K (execSheafclr_kept it s)
  | loudreset it => exact K (execLoudreset_kept it s)
  | headset it => exact K (execHeadset_kept it s)
  | layerset it => exact K (execLayerset_kept it s)
  | headcommit it => exact K (execHeadcommit_kept it s)
  | grancfg it => exact K (execGrancfg_kept it s)
  | subcfg it => exact K (execSubcfg_kept it s)
  | plancfg it => exact K (execPlancfg_kept it s)
  | cellcfg it => exact K (execCellcfg_kept it s)
  | kerbcfg it => exact K (execKerbcfg_kept it s)
  | bundlecfg it => exact K (execBundlecfg_kept it s)
  | signcfg it => exact K (execSigncfg_kept it s)
  | watchcfg it => exact K (execWatchcfg_kept it s)
  | retcfg it => exact K (execRetcfg_kept it s)
  | tribcfg it => exact K (execTribcfg_kept it s)
  | pllcfg it => exact K (execPllcfg_kept it s)
  | lanecfg it => exact K (execLanecfg_kept it s)
  | laneeq it => exact K (execLaneeq_kept it s)
  | lanetrain it => exact K (execLanetrain_kept it s)
  | lanepwr it => exact K (execLanepwr_kept it s)
  | lanetest it => exact K (execLanetest_kept it s)
  | maccfg it => exact K (execMaccfg_kept it s)
  | slotcfg it => exact K (execSlotcfg_kept it s)
  | rampcfg it => exact K (execRampcfg_kept it s)
  | deembcfg it => exact K (execDeembcfg_kept it s)
  | tonecfg it => exact K (execTonecfg_kept it s)
  | afvcfg it => exact K (execAfvcfg_kept it s)
  | embcfg it => exact K (execEmbcfg_kept it s)
  | limcfg it => exact K (execLimcfg_kept it s)
  | compcfg it => exact K (execCompcfg_kept it s)
  | delaycfg it => exact K (execDelaycfg_kept it s)
  | cscfg it => exact K (execCscfg_kept it s)
  | detcfg it => exact K (execDetcfg_kept it s)
  | detassign it => exact K (execDetassign_kept it s)
  | loudcfg it => exact K (execLoudcfg_kept it s)
  | corrcfg it => exact K (execCorrcfg_kept it s)
  | stookcfg it => exact K (execStookcfg_kept it s)
  | asrccfg it => exact K (execAsrccfg_kept it s)
  | tapcfg it => exact K (execTapcfg_kept it s)
  | towercand it => exact K (execTowercand_kept it s)
  | towertable it => exact K (execTowertable_kept it s)
  | towercfg it => exact K (execTowercfg_kept it s)
  | freqTrim it => exact K (execFreqTrim_kept it s)
  | phaseStep it => exact K (execPhaseStep_kept it s)
  | seconds it => exact K (execSeconds_kept it s)
  | clkoutcfg it => exact K (execClkoutcfg_kept it s)
  | ptpport it => exact K (execPtpport_kept it s)
  | ptpcfg it => exact K (execPtpcfg_kept it s)
  | tccfg it => exact K (execTccfg_kept it s)
  | captcfg it => exact K (execCaptcfg_kept it s)
  | ttcfg it => exact K (execTtcfg_kept it s)
  | twincfg it => exact L (execTwincfg_rel it s)
  | ttset it => exact K (execTtset_kept it s)
  | rxflow it => exact K (execRxflow_kept it s)
  | txflow it => exact K (execTxflow_kept it s)
  | fwdcfg it => exact K (execFwdcfg_kept it s)
  | clsadd it => exact K (execClsadd_kept it s)
  | clsdel it => exact K (execClsdel_kept it s)
  | clswild it => exact K (execClswild_kept it s)
  | ldload it => exact K (execLdload_kept it s)
  | barnwr it => exact K (execBarnwr_kept it s)
  | lutload it => exact K (execLutload_kept it s)
  | rd it => exact K (execRd_kept it s)
  | rdind it => exact K (execRdind_kept it s)
  | rdtime it => exact K (execRdtime_kept it s)
  | harvest it => exact K (execHarvest_kept it s)
  | twinswitch it => exact K (execTwinswitch_kept it s)
  | twinmark it => exact K (execTwinmark_kept it s)
  | clearUnreplicated it => exact K (execClearUnreplicated_kept it s)
  | imgload it => exact L (execImgload_rel it s)
  | imgloadSettings it => exact K (execImgloadSettings_kept it s)
  | imgactivate it recoveryN pMin pMax env => exact L (execImgactivate_rel it recoveryN pMin pMax env s)
  | confirm it => exact L (execConfirm_rel it s)
  | advance it => exact L (execAdvance_rel it s)
  | configure it => exact K (execConfigure_kept it s)
  | start it => exact K (execStart_kept it s)
  | thrstop it => exact K (execThrstop_kept it s)
  | unitcfg it => exact K (execUnitcfg_kept it s)
  | errand dt queue bytes bad => exact K (execErrand_kept dt queue bytes bad s)
  | errandPartner dt bytes bad => exact K (execErrandPartner_kept dt bytes bad s)
  | setaddr dt bytes bad => exact K (execSetaddr_kept dt bytes bad s)
  | regwr dt bytes bad => exact K (execRegwr_kept dt bytes bad s)
  | read dt n hdr => exact K (execRead_kept dt n hdr s)
  | readPtr dt w => exact K (execReadPtr_kept dt w s)
  | replyRdPtr dt queue w => exact K (execReplyRdPtr_kept dt queue w s)
  | ibiMask dt w => exact K (execIbiMask_kept dt w s)
  | ioSlew dt w => exact K (execIoSlew_kept dt w s)
  | enec dt events => exact K (execEnec_kept dt events s)
  | disec dt events => exact K (execDisec_kept dt events s)
  | rstdaa dt => exact K (execRstdaa_kept dt s)
  | entdaa dt addr => exact K (execEntdaa_kept dt addr s)
  | setmwl dt v => exact K (execSetmwl_kept dt v s)
  | setmrl dt v => exact K (execSetmrl_kept dt v s)
  | enthdr0 dt => exact K (execEnthdr0_kept dt s)
  | rstact dt action get => exact K (execRstact_kept dt action get s)
  | setdasa dt addr => exact K (execSetdasa_kept dt addr s)
  | setnewda dt addr => exact K (execSetnewda_kept dt addr s)
  | getmwl dt => exact K (execGetmwl_kept dt s)
  | getmrl dt => exact K (execGetmrl_kept dt s)
  | getpid dt => exact K (execGetpid_kept dt s)
  | getbcr dt => exact K (execGetbcr_kept dt s)
  | getdcr dt => exact K (execGetdcr_kept dt s)
  | getstatus dt => exact K (execGetstatus_kept dt s)
  | getmxds dt => exact K (execGetmxds_kept dt s)
  | getcaps dt => exact K (execGetcaps_kept dt s)
  | cccUnsupported dt code directed => exact K (execCccUnsupported_kept dt code directed s)
  | hdrExitPattern dt => exact K (execHdrExitPattern_kept dt s)
  | targetResetPattern dt beats => exact K (execTargetResetPattern_kept dt beats s)
  | ibiRequest dt ack => exact K (execIbiRequest_kept dt ack s)
  | crierRepeatInterrupt dt => exact K (execCrierRepeatInterrupt_kept dt s)
  | replyRepost dt queue => exact K (execReplyRepost_kept dt queue s)
  | errandExecutionStart dt queue => exact K (execErrandExecutionStart_kept dt queue s)
  | finalReply dt queue => exact K (execFinalReply_kept dt queue s)
  | threadFault dt th => exact K (execThreadFault_kept dt th s)
  | unitFault dt unit cause => exact K (execUnitFault_kept dt unit cause s)
  | curfewResolution dt plan => exact K (execCurfewResolution_kept dt plan s)
  | tick dt plan => exact K (execTick_kept dt plan s)
  | tickWaitResume dt th => exact K (execTickWaitResume_kept dt th s)
  | timeWaitResume dt th => exact K (execTimeWaitResume_kept dt th s)
  | captWaitResume dt th => exact K (execCaptWaitResume_kept dt th s)
  | syncResume dt th => exact K (execSyncResume_kept dt th s)
  | targetHoldRelease dt th => exact K (execTargetHoldRelease_kept dt th s)
  | planSlewComplete dt plan => exact K (execPlanSlewComplete_kept dt plan s)
  | followCommit dt seat stream => exact K (execFollowCommit_kept dt seat stream s)
  | followTimeout dt seat stream => exact K (execFollowTimeout_kept dt seat stream s)
  | kerbEavArrival dt kerb line edhBad => exact K (execKerbEavArrival_kept dt kerb line edhBad s)
  | kerbAlign dt kerb => exact K (execKerbAlign_kept dt kerb s)
  | kerbLossTimeout dt kerb => exact K (execKerbLossTimeout_kept dt kerb s)
  | cellLossEntry dt seat => exact K (execCellLossEntry_kept dt seat s)
  | cellLossReturn dt seat => exact K (execCellLossReturn_kept dt seat s)
  | cellLineOut dt seat l => exact L (execCellLineOut_rel dt seat l s)
  | txSquelch dt seat => exact K (execTxSquelch_kept dt seat s)
  | haywainCodewordRx dt lane c => exact K (execHaywainCodewordRx_kept dt lane c s)
  | haywainFrameTx dt lane => exact K (execHaywainFrameTx_kept dt lane s)
  | sdiTrsRx dt lane levels => exact K (execSdiTrsRx_kept dt lane levels s)
  | rateDeviation dt trib => exact K (execRateDeviation_kept dt trib s)
  | laneLos dt lane bps => exact K (execLaneLos_kept dt lane bps s)
  | cdrLoss dt lane lost => exact K (execCdrLoss_kept dt lane lost s)
  | degrade dt lane on => exact K (execDegrade_kept dt lane on s)
  | pllLoss dt avenue pll => exact K (execPllLoss_kept dt avenue pll s)
  | pllLock dt avenue pll => exact K (execPllLock_kept dt avenue pll s)
  | trainingDone dt lane ok ffe ctle snr => exact K (execTrainingDone_kept dt lane ok ffe ctle snr s)
  | retrainTimer dt lane => exact K (execRetrainTimer_kept dt lane s)
  | laneWakeDone dt lane side => exact K (execLaneWakeDone_kept dt lane side s)
  | prbsLock dt lane levels => exact K (execPrbsLock_kept dt lane levels s)
  | errorInject dt lane => exact K (execErrorInject_kept dt lane s)
  | macFrameRx dt mac fcsOk frame taken => exact K (execMacFrameRx_kept dt mac fcsOk frame taken s)
  | fwdForcedCut dt out => exact K (execFwdForcedCut_kept dt out s)
  | fwdInputLoss dt out => exact K (execFwdInputLoss_kept dt out s)
  | lineRelease dt ctx => exact K (execLineRelease_kept dt ctx s)
  | datagramRelease dt ctx => exact K (execDatagramRelease_kept dt ctx s)
  | audioFlowRelease dt ctx => exact K (execAudioFlowRelease_kept dt ctx s)
  | flowLost dt ctx => exact K (execFlowLost_kept dt ctx s)
  | legDown dt ctx leg => exact K (execLegDown_kept dt ctx leg s)
  | ssrcRelatch dt ctx => exact K (execSsrcRelatch_kept dt ctx s)
  | packetDeparture dt ctx => exact K (execPacketDeparture_kept dt ctx s)
  | audioPacketDeparture dt ctx => exact K (execAudioPacketDeparture_kept dt ctx s)
  | ancPacketDeparture dt ctx => exact K (execAncPacketDeparture_kept dt ctx s)
  | datagramDeparture dt ctx => exact K (execDatagramDeparture_kept dt ctx s)
  | txIdle dt seat => exact K (execTxIdle_kept dt seat s)
  | mcastQueryRx dt mac q => exact K (execMcastQueryRx_kept dt mac q s)
  | mcastReport dt mac => exact K (execMcastReport_kept dt mac s)
  | mcastCompatExpiry dt mac v6 => exact K (execMcastCompatExpiry_kept dt mac v6 s)
  | ptpSyncRx dt mac p => exact K (execPtpSyncRx_kept dt mac p s)
  | ptpFollowUpRx dt mac p => exact K (execPtpFollowUpRx_kept dt mac p s)
  | ptpDelayRespRx dt mac p => exact K (execPtpDelayRespRx_kept dt mac p s)
  | ptpAnnounceRx dt mac p => exact K (execPtpAnnounceRx_kept dt mac p s)
  | pdelayReqRx dt mac p => exact K (execPdelayReqRx_kept dt mac p s)
  | pdelayRespRx dt mac p => exact K (execPdelayRespRx_kept dt mac p s)
  | delayReqSend dt kind n => exact K (execDelayReqSend_kept dt kind n s)
  | announceTimeout dt inst => exact K (execAnnounceTimeout_kept dt inst s)
  | refMarker dt cand => exact K (execRefMarker_kept dt cand s)
  | freqWindow dt => exact K (execFreqWindow_kept dt s)
  | candQualified dt cand => exact K (execCandQualified_kept dt cand s)
  | candMissing dt cand => exact K (execCandMissing_kept dt cand s)
  | wtrExpiry dt => exact K (execWtrExpiry_kept dt s)
  | towerInLock dt => exact K (execTowerInLock_kept dt s)
  | towerReacquire dt => exact K (execTowerReacquire_kept dt s)
  | loscFailure dt synth => exact K (execLoscFailure_kept dt synth s)
  | clockStopped dt domain => exact K (execClockStopped_kept dt domain s)
  | captEdge dt pin falling => exact K (execCaptEdge_kept dt pin falling s)
  | takeInEdge dt => exact K (execTakeInEdge_kept dt s)
  | ttEdge dt out => exact K (execTtEdge_kept dt out s)
  | ttLevelChange dt out => exact K (execTtLevelChange_kept dt out s)
  | harvestCapture dt => exact K (execHarvestCapture_kept dt s)
  | harvestDone dt => exact K (execHarvestDone_kept dt s)
  | granaryFrameComplete dt slot sub => exact K (execGranaryFrameComplete_kept dt slot sub s)
  | granaryDecision dt slot sub ue => exact K (execGranaryDecision_kept dt slot sub ue s)
  | granaryInputLoss dt slot sub => exact K (execGranaryInputLoss_kept dt slot sub s)
  | tileComplete dt scaler => exact K (execTileComplete_kept dt scaler s)
  | headDecision dt head ue => exact L (execHeadDecision_rel dt head ue s)
  | twinDecisionTimeout dt kind unit => exact L (execTwinDecisionTimeout_rel dt kind unit s)
  | decision dt m => exact L (execDecision_rel dt m s)
  | mixBlock dt ue => exact K (execMixBlock_kept dt ue s)
  | audioSampleTap dt seat a => exact K (execAudioSampleTap_kept dt seat a s)
  | blockPeak dt space ch => exact K (execBlockPeak_kept dt space ch s)
  | dcSecond dt space ch => exact K (execDcSecond_kept dt space ch s)
  | clippedClear dt space ch => exact K (execClippedClear_kept dt space ch s)
  | loudnessReport dt meter => exact K (execLoudnessReport_kept dt meter s)
  | correlationReport dt meter => exact K (execCorrelationReport_kept dt meter s)
  | tapRecord dt tap => exact L (execTapRecord_rel dt tap s)
  | stookRxFrame dt port f => exact K (execStookRxFrame_kept dt port f s)
  | stookTxFrame dt port => exact K (execStookTxFrame_kept dt port s)
  | stookStart dt port side => exact K (execStookStart_kept dt port side s)
  | stookStop dt port side => exact K (execStookStop_kept dt port side s)
  | stookClockLoss dt port side => exact K (execStookClockLoss_kept dt port side s)
  | aes3Lock dt port preambles parity => exact K (execAes3Lock_kept dt port preambles parity s)
  | asrcLock dt unit lock range => exact K (execAsrcLock_kept dt unit lock range s)
  | watchSecond dt probe => exact K (execWatchSecond_kept dt probe s)
  | captureDone dt probe => exact K (execCaptureDone_kept dt probe s)
  | ldloadDone dt th => exact K (execLdloadDone_kept dt th s)
  | barnwrDone dt th => exact L (execBarnwrDone_rel dt th s)
  | lutloadDone dt slot bank => exact K (execLutloadDone_kept dt slot bank s)
  | imgloadDone dt th flashOk => exact L (execImgloadDone_rel dt th flashOk s)
  | fuseBlown dt ok => exact absurd rfl (h1 dt ok)
  | activationLoaded dt ok => exact K (execActivationLoaded_kept dt ok s)
  | activationPrepared dt ok => exact L (execActivationPrepared_rel dt ok s)
  | activationHandover dt => exact K (execActivationHandover_kept dt s)
  | activationResumed dt => exact L (execActivationResumed_rel dt s)
  | activationAbort dt => exact K (execActivationAbort_kept dt s)
  | watchdogExpiry dt => exact K (execWatchdogExpiry_kept dt s)
  | unitWakeDone dt unit => exact K (execUnitWakeDone_kept dt unit s)
  | unitIdleOff dt unit => exact K (execUnitIdleOff_kept dt unit s)
  | selfRefreshEntry dt chan => exact K (execSelfRefreshEntry_kept dt chan s)
  | barnScrub dt chan offset result last => exact K (execBarnScrub_kept dt chan offset result last s)
  | barnChannelFault dt chan cause => exact K (execBarnChannelFault_kept dt chan cause s)
  | heartbeat dt roleIn => exact L (execHeartbeat_rel dt roleIn s)
  | heartbeatRx dt m late roleIn => exact L (execHeartbeatRx_rel dt m late roleIn s)
  | heartbeatMissing dt roleIn => exact L (execHeartbeatMissing_rel dt roleIn s)
  | takeover dt roleIn => exact L (execTakeover_rel dt roleIn s)
  | takeoverHoldEnd dt => exact K (execTakeoverHoldEnd_kept dt s)
  | manifestRx dt m => exact L (execManifestRx_rel dt m s)
  | manifestOwn dt plan => exact K (execManifestOwn_kept dt plan s)
  | manifestLate dt plan => exact L (execManifestLate_rel dt plan s)
  | compareRx dt m => exact K (execCompareRx_kept dt m s)
  | uncompared dt => exact K (execUncompared_kept dt s)
  | suspect dt m => exact K (execSuspect_kept dt m s)
  | pairSeekTimeout dt roleIn => exact L (execPairSeekTimeout_rel dt roleIn s)
  | replica dt m => exact L (execReplica_rel dt m s)
  | replicationCaughtUp dt => exact L (execReplicationCaughtUp_rel dt s)
  | stepMsg dt m => exact K (execStep_kept dt m s)
  | stepCommit dt => exact L (execStepCommit_rel dt s)
  | replicationTimeout dt => exact L (execReplicationTimeout_rel dt s)
  | alleyErrand dt m => exact K (execAlleyErrand_kept dt m s)
  | alleyReply dt m => exact K (execAlleyReply_kept dt m s)
  | alleyBulk dt m => exact K (execAlleyBulk_kept dt m s)
  | alleyAck dt m => exact K (execAlleyAck_kept dt m s)
  | alleyNak dt m => exact K (execAlleyNak_kept dt m s)
  | alleyDown dt => exact K (execAlleyDown_kept dt s)
  | hello dt => exact K (execHello_kept dt s)
  | helloRx dt link m => exact K (execHelloRx_kept dt link m s)
  | fpLinkDown dt link => exact K (execFpLinkDown_kept dt link s)
  | fpHoldDiscard dt link => exact K (execFpHoldDiscard_kept dt link s)
  | fpErrand dt m => exact K (execFpErrand_kept dt m s)
  | fpReply dt m => exact K (execFpReply_kept dt m s)
  | fpBulk dt m => exact K (execFpBulk_kept dt m s)
  | segment dt m => exact L (execSegment_rel dt m s)
  | reportMsg dt m => exact K (execReport_kept dt m s)
  | fpAck dt link m => exact K (execFpAck_kept dt link m s)
  | fpNak dt link m => exact K (execFpNak_kept dt link m s)
  | resetRelease dt r => exact absurd rfl (h2 dt r)
  | pwrgoodFall dt lowNs => exact L (execPwrgoodFall_rel dt lowNs s)
  | resetAssert dt lowNs => exact L (execResetAssert_rel dt lowNs s)
  | retransmitTimeout dt link => exact L (execRetransmitTimeout_rel dt link s)
  | telemetrySample dt mv ma tj => exact K (execTelemetrySample_kept dt mv ma tj s)
  | previousSecondUpdate dt => exact K (execPreviousSecondUpdate_kept dt s)
  | unknownCommand dt => exact K (execUnknownCommand_kept dt s)
  | unlistedOpcode it => exact K (execUnlistedOpcode_kept it s)
  | jtagAccess dt addr n write => exact L (execJtagAccess_rel dt addr n write s)

/-- Every command answers a next state that keeps the queue. -/
theorem exec_loose (c : Instr) (s : State) : ∃ t, exec c s = .next t ∧ keptLoose s.kept t.kept := by
  by_cases h1 : ∀ dt ok, c ≠ .fuseBlown dt ok
  · by_cases h2 : ∀ dt e, c ≠ .resetRelease dt e
    · obtain ⟨t, e, h⟩ := exec_rel c s h1 h2
      exact ⟨t, e, h.1, h.2.2⟩
    · push Not at h2
      obtain ⟨dt, e, rfl⟩ := h2
      exact execResetRelease_loose dt e s
  · push Not at h1
    obtain ⟨dt, e, rfl⟩ := h1
    exact execFuseBlown_loose dt e s

theorem storesOk_iff (s : State) : s.storesOk ↔ keptWf s.kept := by
  unfold State.storesOk keptWf State.kept
  simp only [Option.map_eq_some_iff]
  constructor
  · rintro ⟨a, b, c⟩; exact ⟨a, b, fun x ⟨y, h1, h2⟩ => h2 ▸ c y h1⟩
  · rintro ⟨a, b, c⟩; exact ⟨a, b, fun x h => c _ ⟨x, h, rfl⟩⟩

end Sys2Proof.Laws
end

