-- ==== Sys2Proof/Laws/Judge.lean ====
section
/-!
SUPPORT. An instruction command is the issue of its judgement; what register and predicate instructions then do.
-/
namespace Sys2Proof.Laws
open Sys2Proof Sys2Proof.Machine

/-- An instruction command is the issue of its judgement. -/
theorem exec_judged (c : Instr) (i : Issue) (use : Use) (f : State → Judged) (s : State) (h : judged c = some (i, use, f)) :
    exec c s = .next (s.issue i use f) := by
  cases c <;> simp only [judged, Option.some.injEq, Prod.mk.injEq, reduceCtorEq] at h <;> obtain ⟨rfl, rfl, rfl⟩ := h <;> rfl

theorem over_ne {k : Key} {l a : Tbl Int} (h : ∀ e ∈ l, e.1 ≠ k) (d : Int) : Tbl.get k d (Tbl.over a l) = Tbl.get k d a := by
  unfold Tbl.over
  induction l generalizing a with
  | nil => rfl
  | cons x t ih =>
    simp only [List.foldl_cons]
    rw [ih fun e he => h e (List.mem_cons_of_mem _ he)]
    exact Tbl.get_put_ne _ _ _ _ (Ne.symm (h x (List.mem_cons_self ..))) _

theorem alu_passes (i : Issue) (s : State) (op : Word → Word → Word) (h : s.mayIssue i 2) (hp : i.params = []) (hr : i.xRes = 0) (hf : i.force = false) (hg : i.group = false)
    (ho : i.opt = false) (hc : i.xCond = 0) (hb : if i.regImm then i.xB = 0 else i.imm = 0) : s.passes i .register (judgeAlu i op) := by
  refine State.passes_register s i _ h (fun ms e => by cases e) ?_
  intro x hx
  have : x = fmtX i true false true true (!i.regImm) false i.regImm := by simpa [judgeAlu] using hx
  rw [this]
  cases hri : i.regImm <;> simp [hri] at hb <;> simp [fmtX, Issue.badFlags, resX, hp, hr, hf, hg, ho, hc, hb, hri]

theorem facing_gget (s : State) (i : Issue) (t r : Nat) : (s.facing i .register).gget t r = s.gget t r := by
  unfold State.gget; rw [State.facing_gregs]

theorem gset_same (s e : State) (th t r : Nat) (w : Word) (h : State.sameUnits th s e) : State.sameUnits th (s.gset t r w) (e.gset t r w) := by
  obtain ⟨h1, h2, h3, h4, h5, h6⟩ := h
  exact ⟨h1, h2, h3, h4, by simp [State.gset, h5], h6⟩

theorem wrote_of (c : Instr) (i : Issue) (s : State) (f : State → Judged) (w : Word) (hc : judged c = some (i, .register, f))
    (h : s.passes i .register f) (hv : (f (s.facing i .register)).verdict = .act ((s.facing i .register).gset i.th i.xD w)) :
    ∃ t, exec c s = .next t ∧ t.gget i.th i.xD = w ∧
      (∀ n r, (n, r % 16) ≠ (i.th, i.xD % 16) → t.gget n r = s.gget n r) ∧ t.pget i.th 0 = true ∧
      (∀ n p, (n, p) ≠ (i.th, 0) → t.pget n p = s.pget n p) ∧
      State.sameUnits i.th t ((s.after i.dt).gset i.th i.xD w) := by
  obtain ⟨h1, h2, h3⟩ := State.issue_act s i .register f _ h hv
  have h4 : State.sameUnits i.th (s.issue i .register f) ((s.after i.dt).gset i.th i.xD w) :=
    State.sameUnits_trans h3 (gset_same _ _ _ _ _ _ (State.facing_same s i .register))
  have hg : (s.issue i .register f).gregs = ((s.after i.dt).gset i.th i.xD w).gregs := h4.2.2.2.2.1
  refine ⟨_, exec_judged c i .register f s hc, ?_, ?_, h1, ?_, h4⟩
  · unfold State.gget
    rw [hg]; exact Tbl.get_set_same _ _ _ _
  · intro n r hne
    unfold State.gget
    rw [hg]
    refine Tbl.get_set_ne _ _ _ _ _ ?_ _
    intro e
    exact hne (by rw [show n = i.th from congrArg Key.unit e, show r % 16 = i.xD % 16 from congrArg Key.pos e])
  · intro n p hne
    rw [h2 n p hne]
    show Tbl.get _ _ (s.facing i .register).preds = _
    rw [State.facing_preds]; rfl

theorem bitAt_getLsbD (x : Word) (n : Nat) : bitAt x.toNat n = x.getLsbD n := by
  unfold bitAt
  rw [BitVec.getLsbD, Nat.testBit_eq_decide_div_mod_eq]
  rfl

theorem pwrote_of (c : Instr) (i : Issue) (s : State) (f : State → Judged) (v : Bool) (hc : judged c = some (i, .register, f))
    (h : s.passes i .register f) (hv : (f (s.facing i .register)).verdict = .pred i.xD v) :
    ∃ t, exec c s = .next t ∧ t.pget i.th i.xD = v ∧ (i.xD ≠ 0 → t.pget i.th 0 = true) ∧
      (∀ n p, (n, p) ≠ (i.th, 0) → (n, p) ≠ (i.th, i.xD) → t.pget n p = s.pget n p) ∧ State.sameUnits i.th t (s.after i.dt) :=
  ⟨_, exec_judged c i .register f s hc, State.issue_pred s i .register f i.xD v h hv⟩

theorem ranged_of (c : Instr) (i : Issue) (s : State) (f : State → Judged) (hc : judged c = some (i, .register, f)) (h : s.mayIssue i 2)
    (hv : ∃ p v, (f (s.facing i .register)).verdict = .pred p v) (h2 : (f (s.facing i .register)).permit = 2)
    (b : Bool) (hb : b = true) (hch : (f (s.facing i .register)).checks = [(.format, false), (.range, b)]) :
    ∃ t, exec c s = .next t ∧ t.pget i.th 0 = false ∧ State.sameUnits i.th t (s.after i.dt) ∧
      ((s.facing i .register).rb (U.thread i.th) Lamp.past = false → t.th i.th Lamp.LAST_CODE = Code.range.num) := by
  obtain ⟨p, v, hv⟩ := hv
  have hff : firstFail ((f (s.facing i .register)).checks ++ commonChecks (s.facing i .register) i.th .register (f (s.facing i .register))) = some .range := by
    obtain ⟨-, -, -, h3, h4⟩ := h
    have hst : (s.facing i .register).rn U.boot Boot.STAGE ≠ 4 := by
      unfold State.rn
      rw [State.facing_rd s i .register U.boot Boot.STAGE (.inr (by decide))]
      exact h4
    have hsal : salvoChecks (s.facing i .register) i.th .register (.pred p v) = [] := by
      unfold salvoChecks
      split <;> rfl
    unfold commonChecks
    rw [h2, State.facing_roleBar, h3, hv, hsal, hch, hb]
    have : ((s.facing i .register).rn U.boot Boot.STAGE == 4) = false := by simpa using hst
    simp [firstFail, this]
  obtain ⟨a, b⟩ := State.issue_fails s i .register f .range h.1 h.2.1 h.2.2.1 hff
  obtain ⟨b1, b2⟩ := b (by decide)
  exact ⟨_, exec_judged c i .register f s hc, a, b1, b2 (by rw [hv]; rfl)⟩

end Sys2Proof.Laws
end

