-- ==== Sys2Proof/Laws/Thread.lean ====
section
/-!
SUPPORT. How control flow, waits and salvos move a thread.
-/
namespace Sys2Proof.Laws
open Sys2Proof Sys2Proof.Machine

theorem goes_of (c : Instr) (i : Issue) (use : Use) (s e : State) (f : State → Judged) (pc : Nat) (st : Int) (calls : List (Nat × Bool))
    (hc : judged c = some (i, use, f)) (h : s.passes i use f) (hv : (f (s.facing i use)).verdict = .act e) (hd : (f (s.facing i use)).data = [])
    (hg : e.goesOn i.th) (hs : State.sameUnits i.th e (s.facing i use)) (h1 : e.thn i.th Lamp.PC = pc) (h2 : e.th i.th Lamp.STATE = st)
    (h3 : Tbl.get ⟨i.th, 0⟩ [] e.calls = calls) :
    ∃ t, exec c s = .next t ∧ t.pget i.th 0 = true ∧
      t.thn i.th Lamp.PC = pc ∧ t.th i.th Lamp.STATE = st ∧ Tbl.get ⟨i.th, 0⟩ [] t.calls = calls ∧ State.sameUnits i.th t (s.after i.dt) := by
  obtain ⟨a1, -, a3⟩ := State.issue_act s i use f e h hv
  obtain ⟨b1, b2, -, -⟩ := State.issue_act_thread s i use f e h hv hd hg
  refine ⟨_, exec_judged c i use f s hc, a1, ?_, ?_, ?_, State.sameUnits_trans a3 (State.sameUnits_trans hs (State.facing_same s i use))⟩
  · rw [← h1]; unfold State.thn State.rn; rw [b1 _ (by decide)]
  · rw [← h2]; exact b1 _ (by decide)
  · rw [b2, h3]

theorem facing_running (s : State) (i : Issue) (use : Use) (h : s.mayIssue i 2) : (s.facing i use).th i.th Lamp.STATE = thRunning :=
  (State.facing_rd s i use _ _ (.inr (by decide))).trans h.2.2.1

theorem facing_not_in_errand (s : State) (i : Issue) (use : Use) (h : s.inProgram i.th) : (s.facing i use).rb (U.thread i.th) Lamp.IN_ERRAND = false := by
  unfold State.rb
  rw [State.facing_rd s i use _ _ (.inr (by decide))]
  exact h.1

theorem facing_no_errand (s : State) (i : Issue) (use : Use) (h : s.inProgram i.th) : (s.facing i use).inErrand i.th = false := by
  unfold State.inErrand State.rb
  rw [State.facing_rd s i use _ _ (.inr (by decide))]
  exact h.2.1

theorem errandOf_none (s : State) (t : Nat) (h : s.rb (U.thread t) Lamp.errand = false) : s.errandOf t = none := by
  unfold State.errandOf
  have : s.thn t Lamp.errand = 0 := by
    unfold State.thn State.rn
    have : s.rd (U.thread t) Lamp.errand = 0 := by simpa [State.rb] using h
    rw [this]; rfl
  rw [this]
  simp

theorem facing_noSalvo (s : State) (i : Issue) (use : Use) (t : Nat) (h : s.noSalvo t) : (s.facing i use).noSalvo t := by
  unfold State.noSalvo; rw [State.facing_salvos]; exact h

theorem pc_next (s : State) (i : Issue) (use : Use) (hp : s.inProgram i.th) (hl : i.params = []) :
    (s.facing i use).thn i.th Lamp.PC = s.thn i.th Lamp.PC + 1 ∧ (s.facing i use).rb (U.thread i.th) Lamp.past = false := by
  obtain ⟨h1, h2⟩ := State.facing_pc s i use hp (by rw [hl]; simpa using hp.2.2.2)
  refine ⟨?_, h2⟩
  unfold State.thn State.rn
  rw [h1, hl]
  simp only [List.length_nil, Int.toNat_natCast]
  rfl

theorem jump_upd (x : State) (th pc : Nat) (h : pc < 65536) : (x.jump th pc).thn th Lamp.PC = pc ∧ (x.jump th pc).th th Lamp.STATE = x.th th Lamp.STATE ∧
    (x.jump th pc).calls = x.calls ∧ (x.jump th pc).rb (U.thread th) Lamp.past = false ∧
    (x.jump th pc).rb (U.thread th) Lamp.IN_ERRAND = x.rb (U.thread th) Lamp.IN_ERRAND ∧ State.sameUnits th (x.jump th pc) x := by
  refine ⟨?_, ?_, rfl, ?_, ?_, State.wrs_same _ _ _ _ (.inl rfl)⟩
  · unfold State.thn State.rn State.jump
    have : (x.wrs (U.thread th) [(Lamp.PC, (pc : Int)), (Lamp.past, 0)]).rd (U.thread th) Lamp.PC = pc :=
      (State.rd_wr_ne _ _ _ _ _ _ (.inr (by decide))).trans ((State.rd_wr_same _ _ _ _).trans (pc_norm _ h))
    rw [this]; rfl
  · exact State.wrs_ne _ _ _ _ _ (by simp [Lamp.STATE, Lamp.PC, Lamp.past, Lamp.IN_ERRAND])
  · unfold State.rb State.jump
    have : (x.wrs (U.thread th) [(Lamp.PC, (pc : Int)), (Lamp.past, 0)]).rd (U.thread th) Lamp.past = 0 :=
      (State.rd_wr_same _ _ _ _).trans (by decide)
    rw [this]; rfl
  · unfold State.rb State.jump
    rw [State.wrs_ne _ _ _ _ _ (by simp [Lamp.STATE, Lamp.PC, Lamp.past, Lamp.IN_ERRAND])]

theorem disc_all (x : State) (th c : Nat) (ht : th < 64) : (∀ g : Field, g.pos ≠ Lamp.SALVO.pos → (x.discardSalvo th c).rd (U.thread th) g = x.rd (U.thread th) g) ∧
    (x.discardSalvo th c).calls = x.calls ∧ (x.discardSalvo th c).noSalvo th := by
  refine ⟨fun g hg => State.discardSalvo_rd x th c th g ht hg, ?_⟩
  have hf : ∀ (l : List Nat) (y : State), (l.foldl (fun a p => a.endPart p c) y).calls = y.calls ∧
      (l.foldl (fun a p => a.endPart p c) y).salvos = y.salvos := by
    intro l
    induction l with
    | nil => intro y; exact ⟨rfl, rfl⟩
    | cons p t ih =>
      intro y
      obtain ⟨b, d⟩ := ih (y.endPart p c)
      have hu := State.closePart_upd (y.owe p 1) p c
      exact ⟨b.trans hu.1, d.trans hu.2.1⟩
  simp only [State.discardSalvo]
  split
  · rename_i hn
    refine ⟨rfl, ?_⟩
    unfold State.noSalvo
    rw [List.any_eq_false]
    intro o ho
    exact List.find?_eq_none.mp hn o ho
  · rename_i o _
    obtain ⟨b, d⟩ := hf (o.pid :: o.members.map (·.1)) (State.setTh { x with salvos := x.salvos.filter (·.th != th) } th Lamp.SALVO 0)
    refine ⟨b, ?_⟩
    unfold State.noSalvo
    rw [d]
    show (x.salvos.filter (·.th != th)).any _ = false
    rw [List.any_eq_false]
    intro o ho
    have := (List.mem_filter.mp ho).2
    simpa using this

theorem halt_upd (x : State) (th : Nat) (ht : th < 64) : (x.halt th).th th Lamp.STATE = thHalted ∧ (x.halt th).thn th Lamp.PC = x.thn th Lamp.PC ∧
    (x.halt th).calls = x.calls ∧ (x.halt th).noSalvo th := by
  obtain ⟨d1, d2, d3⟩ := disc_all x th Code.format.num ht
  refine ⟨(State.rd_wr_same _ _ _ _).trans (by decide), ?_, d2, d3⟩
  unfold State.thn State.rn State.halt
  have : ((x.discardSalvo th Code.format.num).setTh th Lamp.STATE thHalted).rd (U.thread th) Lamp.PC = x.rd (U.thread th) Lamp.PC :=
    (State.rd_wr_ne _ _ _ _ _ _ (.inr (by decide))).trans (d1 _ (by decide))
  rw [this]

theorem discardSalvo_upd (x : State) (th c : Nat) (ht : th < 64) : (∀ g : Field, g.pos ≠ Lamp.SALVO.pos → (x.discardSalvo th c).rd (U.thread th) g = x.rd (U.thread th) g) ∧
    (x.discardSalvo th c).noSalvo th := ⟨(disc_all x th c ht).1, (disc_all x th c ht).2.2⟩

theorem wrs_upd (x : State) (u : Nat) (l : List (Field × Int)) : (x.wrs u l).salvos = x.salvos ∧ (x.wrs u l).calls = x.calls := by
  induction l generalizing x with
  | nil => exact ⟨rfl, rfl⟩
  | cons y t ih => exact ih _

theorem wrs_at (x : State) (u : Nat) (l : List (Field × Int)) (f : Field) (v : Int) (hm : (f, v) ∈ l) (hn : (l.map fun e => e.1.pos).Nodup) :
    (x.wrs u l).rd u f = f.norm v := by
  induction l generalizing x with
  | nil => cases hm
  | cons y t ih =>
    obtain ⟨h1, h2⟩ := List.nodup_cons.mp hn
    rcases List.mem_cons.mp hm with rfl | hm
    · refine (State.wrs_ne _ _ _ t _ ?_).trans (State.rd_wr_same _ _ _ _)
      intro e he hp
      exact h1 (List.mem_map.mpr ⟨e, he, hp.symm⟩)
    · exact ih _ hm h2

theorem wait_upd (x : State) (th : Nat) (st : Int) (k : Nat) (v : Int) (ht : th < 64) (hst : Lamp.STATE.norm st = st) :
    (x.beginWait th st k v).rd (U.thread th) Lamp.STATE = st ∧ (x.beginWait th st k v).rd (U.thread th) Lamp.waitVal = v ∧
    (x.beginWait th st k v).noSalvo th ∧ State.sameUnits th (x.beginWait th st k v) x ∧
    ∀ g : Field, g.pos ≠ Lamp.SALVO.pos → g.pos ≠ Lamp.STATE.pos → g.pos ≠ Lamp.waitKind.pos → g.pos ≠ Lamp.waitVal.pos →
      (x.beginWait th st k v).rd (U.thread th) g = x.rd (U.thread th) g := by
  obtain ⟨d1, d2⟩ := discardSalvo_upd x th Code.format.num ht
  refine ⟨?_, ?_, ?_, ?_, ?_⟩
  · exact (wrs_at _ _ _ Lamp.STATE st (by simp) (by simp [Lamp.STATE, Lamp.waitKind, Lamp.waitVal])).trans hst
  · exact (wrs_at _ _ _ Lamp.waitVal v (by simp) (by simp [Lamp.STATE, Lamp.waitKind, Lamp.waitVal])).trans rfl
  · unfold State.noSalvo State.beginWait at *
    rw [(wrs_upd _ _ _).1]; exact d2
  · exact State.sameUnits_trans (State.wrs_same _ _ _ _ (.inl rfl)) (State.discardSalvo_same _ _ _)
  · intro g g1 g2 g3 g4
    exact (State.wrs_ne _ _ _ _ _ (by simp [g2, g3, g4])).trans (d1 g g1)

theorem waits_of (c : Instr) (i : Issue) (use : Use) (s e : State) (f : State → Judged) (st : Int)
    (hc : judged c = some (i, use, f)) (h : s.passes i use f) (hp : s.inProgram i.th) (hpar : i.params = [])
    (hv : (f (s.facing i use)).verdict = .act e) (hd : (f (s.facing i use)).data = [])
    (h1 : ∀ g : Field, g.pos = Lamp.PC.pos ∨ g.pos = Lamp.past.pos ∨ g.pos = Lamp.IN_ERRAND.pos → e.rd (U.thread i.th) g = (s.facing i use).rd (U.thread i.th) g)
    (h2 : e.th i.th Lamp.STATE = st) (h3 : e.noSalvo i.th) (hs : State.sameUnits i.th e (s.facing i use)) :
    (∃ t, exec c s = .next t ∧ t.pget i.th 0 = true ∧ t.noSalvo i.th ∧
      t.thn i.th Lamp.PC = s.thn i.th Lamp.PC + 1 ∧ t.rd (U.thread i.th) Lamp.STATE = st ∧ State.sameUnits i.th t (s.after i.dt)) ∧
    ∀ (g : Field) (v : Int), g.pos ≠ Lamp.LAST_CODE.pos → e.rd (U.thread i.th) g = v → ∀ t, exec c s = .next t → t.rd (U.thread i.th) g = v := by
  have hpc := pc_next s i use hp hpar
  have hie := facing_not_in_errand s i use hp
  have hg : e.goesOn i.th := by
    refine .inr (.inl ⟨?_, ?_⟩)
    · have := hpc.2
      unfold State.rb at *
      rw [h1 _ (.inr (.inl rfl))]; exact this
    · unfold State.rb at *
      rw [h1 _ (.inr (.inr rfl))]; exact hie
  obtain ⟨a1, -, a3⟩ := State.issue_act s i use f e h hv
  obtain ⟨b1, -, b3, -⟩ := State.issue_act_thread s i use f e h hv hd hg
  refine ⟨⟨_, exec_judged c i use f s hc, a1, ?_, ?_, ?_, State.sameUnits_trans a3 (State.sameUnits_trans hs (State.facing_same s i use))⟩, ?_⟩
  · unfold State.noSalvo at *
    rw [b3]; exact h3
  · have := hpc.1
    unfold State.thn State.rn at *
    rw [b1 _ (by decide), h1 _ (.inl rfl)]; exact this
  · exact (b1 _ (by decide)).trans h2
  · intro g v hgp hgv t ht
    rw [exec_judged c i use f s hc] at ht
    injection ht with ht
    rw [← ht, b1 g hgp]; exact hgv

theorem salvoChecks_outside (s : State) (i : Issue) (v : Verdict) (hp : s.inProgram i.th) : ∀ x ∈ salvoChecks (s.facing i .ends) i.th .ends v, x.2 = false := by
  intro x hx
  unfold salvoChecks at hx
  split at hx
  · simp only [List.mem_singleton] at hx
    rw [hx]; exact facing_no_errand s i .ends hp
  · cases hx

theorem facing_gget_any (s : State) (i : Issue) (use : Use) (t r : Nat) : (s.facing i use).gget t r = s.gget t r := by
  unfold State.gget; rw [State.facing_gregs]

theorem now_facing (s : State) (i : Issue) (use : Use) : (s.facing i use).now = (s.after i.dt).now := by
  have h := (State.facing_same s i use)
  unfold State.now
  rw [h.2.2.1, h.2.2.2.1]

theorem issue_start_thread (s : State) (i : Issue) (use : Use) (f : State → Judged) (e : State) (op ix sub : Nat) (vals : List Int) (due : Nat)
    (h : s.passes i use f) (hv : (f (s.facing i use)).verdict = .start e op ix sub vals due) (hd : (f (s.facing i use)).data = [])
    (hg : e.goesOn i.th) :
    (∀ g : Field, g.pos ≠ Lamp.LAST_CODE.pos → (s.issue i use f).rd (U.thread i.th) g = e.rd (U.thread i.th) g) ∧ (s.issue i use f).salvos = e.salvos := by
  rw [State.issue_passes s i use f h (by rw [hv]; intro g c; cases c)]
  unfold State.finish
  rw [hv, hd, State.appendData_nil]
  simp only [State.enact]
  generalize (⟨(s.after i.dt).nextId, i.th, op, ix, sub, vals, due⟩ : BgOp) = b
  have hr : ∀ g : Field, g.pos ≠ Lamp.LAST_CODE.pos → (State.outcome { e with bg := e.bg ++ [b] } i.th 0 true).rd (U.thread i.th) g = e.rd (U.thread i.th) g := by
    intro g hg
    rw [State.outcome_thread _ _ _ _ _ hg]; rfl
  have hset : (State.outcome { e with bg := e.bg ++ [b] } i.th 0 true).goesOn i.th := by
    have r1 := hr Lamp.STATE (by decide)
    have r2 := hr Lamp.past (by decide)
    have r3 := hr Lamp.IN_ERRAND (by decide)
    have r4 := hr Lamp.PC (by decide)
    have r5 := hr Lamp.errand (by decide)
    unfold State.goesOn State.errandOf State.th State.thn State.rb State.rn at *
    rw [r1, r2, r3, r4, r5]
    exact hg
  rw [State.settle_id _ _ hset]
  exact ⟨hr, rfl⟩

theorem stageAll_thread (ms : List Member) (s : State) (th pid : Nat) (sv : Option Nat) (st : Bool) (at_ : Int) (f : Field) (ht : th < 64)
    (h : f.pos ≠ 200) (h' : f.pos ≠ 202) : (s.stageAll th pid sv st at_ ms).rd (U.thread th) f = s.rd (U.thread th) f := by
  unfold State.stageAll
  induction ms generalizing s with
  | nil => rfl
  | cons m t ih => exact (ih _).trans (State.stageOne_thread s th pid sv st at_ m _ ht h h')

theorem members_fold (th : Nat) (sv : Option Nat) (st : Bool) (at_ : Int) (ht : th < 64) (l : List (Nat × List Member)) (s : State) (h : s.thn th Lamp.tMode ≠ 2) :
    let r := l.foldl (fun a m => if m.2.isEmpty then a else a.stageAll th m.1 sv st at_ m.2) s
    (∀ p ∈ l, ∀ m ∈ p.2, State.stagedIn r th p.1 sv st false m) ∧ (∀ e ∈ s.staged, e ∈ r.staged) ∧ r.thn th Lamp.tMode ≠ 2 := by
  have hall : ∀ (ms : List Member) (pid : Nat) (s : State), (s.stageAll th pid sv st at_ ms).rd (U.thread th) Lamp.tMode = s.rd (U.thread th) Lamp.tMode := by
    intro ms pid
    induction ms with
    | nil => intro s; rfl
    | cons m t ih => intro s; exact (ih _).trans (State.stageOne_thread s th pid sv st at_ m _ ht (by decide) (by decide))
  induction l generalizing s with
  | nil => exact ⟨fun p hp => (by cases hp), fun e he => he, h⟩
  | cons x t ih =>
    simp only [List.foldl_cons]
    by_cases hx : x.2.isEmpty
    · rw [if_pos hx]
      obtain ⟨a, b, c⟩ := ih s h
      refine ⟨?_, b, c⟩
      intro p hp m hm
      rcases List.mem_cons.mp hp with rfl | hp
      · rw [List.isEmpty_iff] at hx
        rw [hx] at hm; cases hm
      · exact a p hp m hm
    · rw [if_neg hx]
      obtain ⟨f1, f2⟩ := State.stageAll_stagedIn s th x.1 sv st at_ x.2 ht h
      have h' : (s.stageAll th x.1 sv st at_ x.2).thn th Lamp.tMode ≠ 2 := by
        unfold State.thn State.rn
        rw [hall]; exact h
      obtain ⟨a, b, c⟩ := ih _ h'
      refine ⟨?_, fun e he => b e (f2 e he), c⟩
      intro p hp m hm
      rcases List.mem_cons.mp hp with rfl | hp
      · exact stagedIn_mono _ _ _ _ _ _ _ _ b (f1 m hm)
      · exact a p hp m hm

theorem stageAll_last (s : State) (th pid : Nat) (sv : Option Nat) (st : Bool) (at_ : Int) (ms : List Member) (m : Member) (ht : th < 64)
    (h : s.thn th Lamp.tMode = 2) (hm : ms.getLast? = some m) : State.stagedIn (s.stageAll th pid sv st at_ ms) th pid sv st true m := by
  obtain ⟨l, rfl⟩ : ∃ l, ms = l ++ [m] := by
    obtain ⟨l, hl⟩ := List.getLast?_eq_some_iff.mp hm
    exact ⟨l, hl⟩
  unfold State.stageAll
  rw [List.foldl_append]
  have hb : ((l.foldl (fun a m => a.stageOne th pid sv st at_ m) s).thn th Lamp.tMode == 2) = true := by
    have := stageAll_thread l s th pid sv st at_ Lamp.tMode ht (by decide) (by decide)
    unfold State.stageAll at this
    unfold State.thn State.rn at *
    rw [this]; simpa using h
  have := (State.stageOne_stagedIn (l.foldl (fun a m => a.stageOne th pid sv st at_ m) s) th pid sv st at_ m).1
  rw [hb] at this
  exact this

theorem bracket_keeps (s : State) (th pid plan : Nat) (sv : Option Nat) (st : Bool) (at_ : Int) (p : Nat) (m : Member)
    (h : s.stagedIn th p sv st true m) : (s.stageOne th pid sv st at_ (bracket plan)).stagedIn th p sv st true m := by
  obtain ⟨e, he, q⟩ := h
  refine ⟨e, ?_, q⟩
  simp only [State.stageOne]
  rw [State.wakes_staged]
  have hm : ∀ x : State, (if wakesDetector (bracket plan).eff then x.wake U.detector else x).staged = x.staged := fun x => rfl
  rw [hm]
  have hc : ∀ (l : List Staged) (x : State), (l.foldl (fun a x => a.closePart x.pid Code.conflict.num) x).staged = x.staged := by
    intro l x
    exact (State.closeConflicts_same x th l).2.2.2.2.2.2.2.1
  have hno : ∀ x : Staged, meets x.elems (bracket plan).elems = false := by
    intro x
    unfold meets
    rw [List.any_eq_false]
    intro k _
    simp [bracket]
  split
  · rw [hc]; exact List.mem_append_left _ (List.mem_filter.mpr ⟨he, by simp [hno]⟩)
  · rw [State.logStaged_staged, hc]; exact List.mem_append_left _ (List.mem_filter.mpr ⟨he, rfl⟩)

theorem stageOne_salvos (s : State) (th pid : Nat) (sv : Option Nat) (st : Bool) (at_ : Int) (m : Member) : (s.stageOne th pid sv st at_ m).salvos = s.salvos := by
  have h1 : ∀ (x : State) u, (x.wake u).salvos = x.salvos := by intro x u; unfold State.wake; split <;> rfl
  have h2 : ∀ (l : List Nat) (x : State), (l.foldl State.wake x).salvos = x.salvos := by
    intro l; induction l with
    | nil => intro x; rfl
    | cons y t ih => intro x; exact (ih _).trans (h1 _ _)
  have h3 : ∀ (x : State) a b c d e, (x.logStaged a b c d e).salvos = x.salvos := by
    intro x a b c d e
    unfold State.logStaged
    split
    · rfl
    · split
      · split <;> rfl
      · rfl
  have h4 : ∀ (l : List Staged) (x : State), (l.foldl (fun a y => a.closePart y.pid Code.conflict.num) x).salvos = x.salvos := by
    intro l; induction l with
    | nil => intro x; rfl
    | cons y t ih => intro x; exact (ih _).trans (State.closePart_upd _ _ _).2.1
  simp only [State.stageOne]
  rw [h2]
  have hm : ∀ x : State, (if wakesDetector m.eff then x.wake U.detector else x).salvos = x.salvos := by
    intro x; split
    · exact h1 _ _
    · rfl
  rw [hm]
  split
  · exact h4 _ _
  · rw [h3]; exact h4 _ _

theorem stageAll_salvos (ms : List Member) (s : State) (th pid : Nat) (sv : Option Nat) (st : Bool) (at_ : Int) : (s.stageAll th pid sv st at_ ms).salvos = s.salvos := by
  unfold State.stageAll
  induction ms generalizing s with
  | nil => rfl
  | cons m t ih => exact (ih _).trans (stageOne_salvos _ _ _ _ _ _ _)

theorem members_salvos (th : Nat) (sv : Option Nat) (st : Bool) (at_ : Int) (l : List (Nat × List Member)) (s : State) :
    (l.foldl (fun a m => if m.2.isEmpty then a else a.stageAll th m.1 sv st at_ m.2) s).salvos = s.salvos := by
  induction l generalizing s with
  | nil => rfl
  | cons x t ih =>
    simp only [List.foldl_cons]
    rw [ih]
    split
    · rfl
    · exact stageAll_salvos _ _ _ _ _ _ _

theorem filter_noSalvo (l : List OpenSalvo) (th : Nat) : (l.filter (·.th != th)).any (·.th == th) = false := by
  rw [List.any_eq_false]
  intro o ho
  have := (List.mem_filter.mp ho).2
  simpa using this

theorem endErrand_noSalvo (x : State) (th : Nat) (h : x.noSalvo th) (ht : th < 64) : (x.endErrand th).noSalvo th := by
  simp only [State.endErrand]
  split
  · exact h
  · rename_i e _
    have h1 : ((x.discardSalvo th Code.format.num).setErrand { e with phase := 2 }).noSalvo th := (discardSalvo_upd x th Code.format.num ht).2
    have h2 : ∀ (y z : State), y.salvos = z.salvos → z.noSalvo th → y.noSalvo th := fun y z e g => by unfold State.noSalvo at *; rw [e]; exact g
    have h3 := h2 (((x.discardSalvo th Code.format.num).setErrand { e with phase := 2 }).wrs (U.thread th)
      [(Lamp.errand, 0), (Lamp.IN_ERRAND, 0), (Lamp.TARGET, 0), (Lamp.tMode, 0), (Lamp.callIdx, 0), (Lamp.PC, 0)]) _ (wrs_upd _ _ _).1 h1
    generalize ((x.discardSalvo th Code.format.num).setErrand { e with phase := 2 }).wrs (U.thread th)
      [(Lamp.errand, 0), (Lamp.IN_ERRAND, 0), (Lamp.TARGET, 0), (Lamp.tMode, 0), (Lamp.callIdx, 0), (Lamp.PC, 0)] = z at *
    split
    · exact h3
    · exact h3

theorem settle_noSalvo (x : State) (th : Nat) (h : x.noSalvo th) (ht : th < 64) : (x.settle th).noSalvo th := by
  have hpop : ∀ (y : State), (y.popCall th).salvos = y.salvos := by
    intro y
    unfold State.popCall
    cases Tbl.get ⟨th, 0⟩ [] y.calls with
    | nil => rfl
    | cons p rest =>
      dsimp only
      generalize (if (!p.2 && decide (65536 ≤ p.1)) = true then (1 : Int) else 0) = q
      have hst : ∀ (z : State) f v, (z.setTh th f v).salvos = z.salvos := fun _ _ _ => rfl
      split
      · rw [hst, (wrs_upd _ _ _).1]
      · rw [(wrs_upd _ _ _).1]
  unfold State.settle
  split
  · exact h
  · split
    · split
      · unfold State.noSalvo
        rw [hpop]
        have h4 := (discardSalvo_upd x th Code.format.num ht).2
        unfold State.noSalvo at h4
        exact h4
      · exact (discardSalvo_upd (x.setTh th Lamp.LAST_CODE Code.format.num) th Code.format.num ht).2
    · split
      · split
        · split
          · exact endErrand_noSalvo x th h ht
          · exact h
        · exact h
      · exact h

theorem ends_upd (l : List Nat) (c : Nat) (x : State) : (l.foldl (fun a p => a.endPart p c) x).salvos = x.salvos ∧ (l.foldl (fun a p => a.endPart p c) x).staged = x.staged ∧
    ∀ th < 64, ∀ f, (l.foldl (fun a p => a.endPart p c) x).rd (U.thread th) f = x.rd (U.thread th) f := by
  induction l generalizing x with
  | nil => exact ⟨rfl, rfl, fun _ _ _ => rfl⟩
  | cons p t ih =>
    refine ⟨(ih _).1.trans (State.closePart_upd _ _ _).2.1, (ih _).2.1.trans ?_, fun th ht f => ((ih _).2.2 th ht f).trans (State.closePart_thread _ _ _ _ _ ht)⟩
    exact (State.closePart_same (x.owe p 1) 0 p c).2.2.2.2.2.2.2.1

theorem dropSalvo_upd (pids : List Nat) (s : State) (a b c : Nat) : (s.dropSalvo pids a b c).salvos = s.salvos ∧ (s.dropSalvo pids a b c).staged = s.staged ∧
    ∀ th < 64, ∀ f, (s.dropSalvo pids a b c).rd (U.thread th) f = s.rd (U.thread th) f := by
  simp only [State.dropSalvo]
  split <;> exact ends_upd _ _ _

theorem endsalvo_of (i : Issue) (s : State) (h : s.passes i .bracket (judgeEndsalvo i)) (code : Nat) (y : State) (P : State → Prop)
    (hc : (s.facing i .bracket).closeSalvo i.th (s.after i.dt).nextId = (code, y)) (hn : y.noSalvo i.th)
    (hp : y.rd (U.thread i.th) Lamp.past = ((s.facing i .bracket).shutSalvo i.th).rd (U.thread i.th) Lamp.past)
    (hlt : code < 16) (hP : ∀ t : State, t.staged = y.staged → P t) :
    ∃ t, exec (.endsalvo i) s = .next t ∧ t.pget i.th 0 = (code == 0 || code == 2) ∧
      (((s.facing i .bracket).shutSalvo i.th).rb (U.thread i.th) Lamp.past = false → t.th i.th Lamp.LAST_CODE = code) ∧ t.noSalvo i.th ∧ P t := by
  have ht : i.th < 64 := h.1
  have hv : (judgeEndsalvo i (s.facing i .bracket)).verdict = .close := rfl
  refine ⟨_, exec_judged (.endsalvo i) i .bracket _ s rfl, ?_⟩
  rw [State.issue_passes s i .bracket (judgeEndsalvo i) h (by intro g c; cases c)]
  unfold State.finish
  rw [hv, show (judgeEndsalvo i (s.facing i .bracket)).data = [] from rfl, show (judgeEndsalvo i (s.facing i .bracket)).claims = [] from rfl, State.appendData_nil]
  generalize (s.after i.dt).nextId = pid at *
  have hh : (s.facing i .bracket).hold pid [] = s.facing i .bracket := rfl
  rw [hh]
  simp only [State.enact]
  rw [hc]
  dsimp only
  have hpast : (y.outcome i.th code (code == 0 || code == 2)).rd (U.thread i.th) Lamp.past = y.rd (U.thread i.th) Lamp.past :=
    State.outcome_thread _ _ _ _ _ (by decide) _
  refine ⟨?_, fun hpa => ?_, settle_noSalvo _ _ hn ht, hP _ ?_⟩
  · unfold State.pget
    rw [State.settle_preds]
    exact State.pget_outcome _ _ _ _
  · unfold State.th
    rw [State.settle_last _ _ ht (by unfold State.rb at *; rw [hpast, hp]; exact hpa)]
    refine (State.rd_wr_same _ _ _ _).trans ?_
    show (code : Int) % 2 ^ 8 = _
    omega
  · exact (State.sameUnits_trans (State.settle_same _ _) (State.outcome_same y i.th code _)).2.2.2.2.2.2.2.1

theorem shut_rd (v : State) (th n : Nat) (f : Field) (hf : f.pos ≠ Lamp.SALVO.pos) : (v.shutSalvo th).rd (U.thread n) f = v.rd (U.thread n) f :=
  State.rd_wr_ne _ _ _ _ _ _ (.inr hf)

theorem members_thread (th : Nat) (sv : Option Nat) (st : Bool) (at_ : Int) (l : List (Nat × List Member)) (s : State) (f : Field) (ht : th < 64)
    (h : f.pos ≠ 200) (h' : f.pos ≠ 202) :
    (l.foldl (fun a m => if m.2.isEmpty then a else a.stageAll th m.1 sv st at_ m.2) s).rd (U.thread th) f = s.rd (U.thread th) f := by
  induction l generalizing s with
  | nil => rfl
  | cons x t ih =>
    simp only [List.foldl_cons]
    refine (ih _).trans ?_
    split
    · rfl
    · exact stageAll_thread _ _ _ _ _ _ _ _ ht h h'

end Sys2Proof.Laws
end

