-- ==== Sys2Proof/Laws/Units.lean ====
section
/-!
SUPPORT. What the class of a unit ID says about the ID, and which numbers the targets of an instruction can be.
-/
open Sys2Proof
namespace Sys2Proof.Machine

theorem U.classOf_mem (u c : Nat) (h : U.classOf u = c) (hc : c ≠ 0) : ∃ r ∈ U.classRows, r.1 ≤ u ∧ u < r.1 + r.2.1 ∧ r.2.2 = c := by
  unfold U.classOf at h
  split at h
  · rename_i r hr
    have h1 := List.find?_some hr
    simp only [Bool.and_eq_true, decide_eq_true_eq] at h1
    exact ⟨r, List.mem_of_find?_eq_some hr, h1.1, h1.2, h⟩
  · exact absurd h.symm hc

theorem U.class_head (u : Nat) (h : U.classOf u = 0x16) : 27137 ≤ u ∧ u < 27153 := by
  obtain ⟨r, hr, h1, h2, h3⟩ := U.classOf_mem u _ h (by decide)
  have : ∀ r ∈ U.classRows, r.2.2 = 0x16 → r = (27137, 16, 0x16) := by decide
  rw [this r hr h3] at h1 h2; exact ⟨h1, h2⟩
theorem U.class_mac (u : Nat) (h : U.classOf u = 0x0A) : 6912 ≤ u ∧ u < 7056 := by
  obtain ⟨r, hr, h1, h2, h3⟩ := U.classOf_mem u _ h (by decide)
  have : ∀ r ∈ U.classRows, r.2.2 = 0x0A → r = (6912, 144, 0x0A) := by decide
  rw [this r hr h3] at h1 h2; exact ⟨h1, h2⟩
theorem U.class_clkout (u : Nat) (h : U.classOf u = 0x46) : 35369 ≤ u ∧ u < 35371 := by
  obtain ⟨r, hr, h1, h2, h3⟩ := U.classOf_mem u _ h (by decide)
  have : ∀ r ∈ U.classRows, r.2.2 = 0x46 → r = (35369, 2, 0x46) := by decide
  rw [this r hr h3] at h1 h2; exact ⟨h1, h2⟩
theorem U.class_capt (u : Nat) (h : U.classOf u = 0x44) : 35361 ≤ u ∧ u < 35365 := by
  obtain ⟨r, hr, h1, h2, h3⟩ := U.classOf_mem u _ h (by decide)
  have : ∀ r ∈ U.classRows, r.2.2 = 0x44 → r = (35361, 4, 0x44) := by decide
  rw [this r hr h3] at h1 h2; exact ⟨h1, h2⟩
theorem U.class_thread (u : Nat) (h : U.classOf u = 0x30) : 33792 ≤ u ∧ u < 33856 := by
  obtain ⟨r, hr, h1, h2, h3⟩ := U.classOf_mem u _ h (by decide)
  have : ∀ r ∈ U.classRows, r.2.2 = 0x30 → r = (33792, 64, 0x30) := by decide
  rw [this r hr h3] at h1 h2; exact ⟨h1, h2⟩

/-- Every target of an instruction is one of the units of its class. -/
theorem targets_lt (i : Issue) (cls base n : Nat) (ts : List Nat) (hr : ∀ u, U.classOf u = cls → base ≤ u ∧ u < base + n)
    (h : targets i cls base n = some ts) : ∀ x ∈ ts, x < n := by
  simp only [targets] at h
  split at h
  · split at h
    · rename_i hc
      cases h
      intro x hx
      have := hr _ hc
      simp only [List.mem_singleton] at hx
      omega
    · split at h
      · rename_i hm
        simp only [Option.some.injEq] at h
        subst h
        intro x hx
        obtain ⟨u, hu, rfl⟩ := List.mem_map.mp hx
        simp only [Bool.and_eq_true] at hm
        have := List.all_eq_true.mp hm.2 u hu
        have := hr u (by simpa using this)
        omega
      · cases h
  · split at h
    · cases h
      intro x hx
      simp only [List.mem_singleton] at hx
      omega
    · cases h

end Sys2Proof.Machine
end

