-- ==== Sys2Proof/Laws/Fields.lean ====
section
/-!
SUPPORT. Reading fields, lists and general registers after the writes that instructions make.
-/
namespace Sys2Proof.Laws
open Sys2Proof Sys2Proof.Machine

/-- An instruction that passes and stages leaves its members staged. -/
theorem stages_of (c : Instr) (i : Issue) (use : Use) (s : State) (f : State → Judged) (ms : List Member)
    (hc : judged c = some (i, use, f)) (h : s.passes i use f) (hv : (f (s.facing i use)).verdict = .stage ms) : s.stages c i use ms := by
  obtain ⟨a, b⟩ := State.issue_stage s i use f ms h hv
  exact ⟨_, exec_judged c i use f s hc, a, b⟩

theorem filter_below (ds : List Nat) (h : ∀ d ∈ ds, d < 2688) : ds.filter (· < 2688) = ds := by
  rw [List.filter_eq_self]; intro d hd; simpa using h d hd

theorem checks_hold {i : Issue} {use : Use} {s : State} {f : State → Judged} (h : s.passes i use f) : ∀ x ∈ (f (s.facing i use)).checks, x.2 = false := by
  intro x hx
  exact (firstFail_none _).mp h.2.2.2.2 x (List.mem_append_left _ hx)

theorem targets_element (i : Issue) (n : Nat) (_v : State) (fc : Code × Bool) (g : Nat → Checks) (hc : ∀ x ∈ fc :: eachTarget (elements i n) g, x.2 = false) :
    elements i n = some [i.index] := by
  cases h : elements i n with
  | none => rw [h] at hc; have := hc (.range, true) (by simp [eachTarget]); simp at this
  | some l => unfold elements at h; split at h <;> simp_all

theorem targets_element_append (i : Issue) (n : Nat) (fs : Checks) (g : Nat → Checks) (hc : ∀ x ∈ fs ++ eachTarget (elements i n) g, x.2 = false) :
    elements i n = some [i.index] := by
  cases h : elements i n with
  | none => rw [h] at hc; have := hc (.range, true) (by simp [eachTarget]); simp at this
  | some l => unfold elements at h; split at h <;> simp_all

theorem find_first_in_range (p : Nat → Bool) (n e : Nat) (h : e < n) (hp : p e = true) (hk : ∀ k < e, p k = false) : (List.range n).find? p = some e := by
  rw [List.find?_range_eq_some]
  exact ⟨hp, List.mem_range.mpr h, fun j hj => by simp [hk j hj]⟩

theorem elements_of_checks {i : Issue} {n : Nat} {l : Checks} (hc : ∀ x ∈ l, x.2 = false) (hm : (Code.range, (elements i n).isNone) ∈ l) :
    elements i n = some [i.index] := by
  have := hc _ hm
  unfold elements at *
  split <;> simp_all

/-- An instruction that passes and acts at once leaves its effect on every unit. -/
theorem does_act (c : Instr) (i : Issue) (use : Use) (s e : State) (f : State → Judged) (P : State → Prop) (hc : judged c = some (i, use, f))
    (h : s.passes i use f) (hv : (f (s.facing i use)).verdict = .act e) (hP : ∀ t, State.sameUnits i.th t e → P t) : s.does c i P := by
  obtain ⟨a1, -, a3⟩ := State.issue_act s i use f e h hv
  exact ⟨_, exec_judged c i use f s hc, a1, hP _ a3⟩

theorem wrs_unit (s : State) (w u : Nat) (f : Field) (l : List (Field × Int)) (h : u ≠ w) : (s.wrs w l).rd u f = s.rd u f := by
  induction l generalizing s with
  | nil => rfl
  | cons x t ih => exact (ih _).trans (State.rd_wr_ne _ _ _ _ _ _ (.inl h))

theorem wrParams_shows (s : State) (u : Nat) (ps : List Param) (vs : List Int) (hd : (ps.map (·.fld.pos)).Nodup) : (s.wrParams u ps vs).shows u ps vs := by
  unfold State.shows State.wrParams
  induction ps generalizing s vs with
  | nil => intro e he; simp at he
  | cons p t ih =>
    cases vs with
    | nil => intro e he; simp at he
    | cons v vs =>
      intro e he
      simp only [List.zip_cons_cons, List.mem_cons] at he
      simp only [List.map_cons, List.nodup_cons] at hd
      simp only [List.zip_cons_cons, List.map_cons, State.wrs]
      rcases he with rfl | he
      · rw [State.wrs_ne]
        · exact State.rd_wr_same _ _ _ _
        · intro x hx
          obtain ⟨q, hq, rfl⟩ := List.mem_map.mp hx
          intro e
          exact hd.1 (List.mem_map.mpr ⟨q.1, (List.of_mem_zip hq).1, e.symm ▸ rfl⟩)
      · exact ih _ _ hd.2 e he

theorem wrParams_ne (s : State) (u : Nat) (f : Field) (ps : List Param) (vs : List Int) (h : ∀ p ∈ ps, p.fld.pos ≠ f.pos) :
    (s.wrParams u ps vs).rd u f = s.rd u f := by
  refine State.wrs_ne _ _ _ _ _ ?_
  intro x hx
  obtain ⟨q, hq, rfl⟩ := List.mem_map.mp hx
  exact fun e => h q.1 (List.of_mem_zip hq).1 e.symm

theorem keep_shows (a : State) (u w : Nat) (ps : List Param) (vs : List Int) (hd : (ps.map (·.fld.pos)).Nodup) (h : a.shows u ps vs) :
    (a.wrParams w ps vs).shows u ps vs := by
  by_cases e : w = u
  · subst e; exact wrParams_shows _ _ _ _ hd
  · intro x hx
    exact (wrs_unit _ _ _ _ _ (Ne.symm e)).trans (h x hx)

theorem foldkeep_shows (base : Nat → Nat) (ps : List Param) (vs : List Int) (hd : (ps.map (·.fld.pos)).Nodup) (ts : List Nat) (s : State) (u : Nat)
    (h : s.shows u ps vs) : (ts.foldl (fun a m => a.wrParams (base m) ps vs) s).shows u ps vs := by
  induction ts generalizing s with
  | nil => exact h
  | cons x t ih => exact ih _ (keep_shows _ _ _ _ _ hd h)

theorem fold_shows (base : Nat → Nat) (ps : List Param) (vs : List Int) (hd : (ps.map (·.fld.pos)).Nodup) (ts : List Nat) (s : State) (n : Nat) (hn : n ∈ ts) :
    (ts.foldl (fun a m => a.wrParams (base m) ps vs) s).shows (base n) ps vs := by
  induction ts generalizing s with
  | nil => simp at hn
  | cons x t ih =>
    simp only [List.mem_cons] at hn
    rcases hn with rfl | hn
    · exact foldkeep_shows base _ _ hd t _ (base n) (wrParams_shows s (base n) _ _ hd)
    · exact ih _ hn

theorem fold_ne (base : Nat → Nat) (ps : List Param) (vs : List Int) (ts : List Nat) (s : State) (u : Nat) (f : Field)
    (h : (∀ n ∈ ts, u ≠ base n) ∨ (∀ p ∈ ps, p.fld.pos ≠ f.pos)) :
    (ts.foldl (fun a m => a.wrParams (base m) ps vs) s).rd u f = s.rd u f := by
  induction ts generalizing s with
  | nil => rfl
  | cons x t ih =>
    refine (ih _ (h.imp (fun h n hn => h n (List.mem_cons_of_mem _ hn)) id)).trans ?_
    rcases h with h | h
    · exact wrs_unit _ _ _ _ _ (h x (List.mem_cons_self ..))
    · by_cases e : u = base x
      · subst e; exact wrParams_ne _ _ _ _ _ h
      · exact wrs_unit _ _ _ _ _ e

theorem same_rd {th : Nat} {t e : State} (h : State.sameUnits th t e) (u : Nat) (f : Field) (h1 : u ≠ U.thread th) (h2 : u ≠ U.crier) (h3 : u ≠ U.host) :
    t.rd u f = e.rd u f := h.1 u f h1 h2 h3

theorem facing_unit (s : State) (i : Issue) (use : Use) (u : Nat) (f : Field) (h1 : u ≠ U.thread i.th) (h2 : u ≠ U.crier) (h3 : u ≠ U.host) :
    (s.facing i use).rd u f = (s.after i.dt).rd u f := (State.facing_same s i use).1 u f h1 h2 h3

theorem unit_ne_thread (u : Nat) (h : 35600 ≤ u ∨ u < 33792) (th : Nat) (ht : th < 64) : u ≠ U.thread th ∧ u ≠ U.crier ∧ u ≠ U.host := by
  simp only [U.thread, U.crier, U.host]; omega

theorem writes_of (c : Instr) (i : Issue) (s : State) (f : State → Judged) (base : Nat → Nat) (ps : List Param) (vs : List Int) (ts : List Nat)
    (hd : (ps.map (·.fld.pos)).Nodup) (hc : judged c = some (i, .other, f)) (h : s.passes i .other f)
    (hb : ∀ n ∈ ts, base n ≠ U.thread i.th ∧ base n ≠ U.crier ∧ base n ≠ U.host)
    (hv : (f (s.facing i .other)).verdict = .act (ts.foldl (fun a n => a.wrParams (base n) ps vs) (s.facing i .other))) :
    s.does c i fun t => (∀ n ∈ ts, t.shows (base n) ps vs) ∧
      (∀ u f, u ≠ U.thread i.th → u ≠ U.crier → u ≠ U.host → (∀ n ∈ ts, u ≠ base n) ∨ (∀ p ∈ ps, p.fld.pos ≠ f.pos) →
        t.rd u f = (s.after i.dt).rd u f) := by
  refine does_act c i _ s _ f _ hc h hv fun t ht => ⟨fun n hn e he => ?_, fun u f h1 h2 h3 h4 => ?_⟩
  · obtain ⟨h1, h2, h3⟩ := hb n hn
    exact (ht.1 _ _ h1 h2 h3).trans (fold_shows base ps vs hd ts _ n hn e he)
  · exact (ht.1 _ _ h1 h2 h3).trans ((fold_ne base ps vs ts _ u f h4).trans (facing_unit s i _ u f h1 h2 h3))

theorem getD_param (i : Issue) (k : Nat) (hk : k < 4) : ((i.params.drop k).headD 0) = i.params.getD k 0 := by
  rw [List.headD_eq_head?_getD, List.head?_drop, List.getD_eq_getElem?_getD]

theorem putDesc_same (s : State) (h k : Nat) (d : Desc) (j : Nat) (hj : j < 4) :
    Tbl.get ⟨h, k + j⟩ 0 (s.putDesc h k d).layers = BitVec.ofNat 64 ([d.w0, d.w1, d.w2, d.w3].getD j 0) := by
  have ne : ∀ a b : Nat, a ≠ b → (⟨h, k + a⟩ : Key) ≠ ⟨h, k + b⟩ := by intro a b e c; injection c; omega
  unfold State.putDesc
  match j, hj with
  | 0, _ => 
    rw [Tbl.get_set_ne _ _ _ _ _ (ne 0 3 (by decide)), Tbl.get_set_ne _ _ _ _ _ (ne 0 2 (by decide)), Tbl.get_set_ne _ _ _ _ _ (ne 0 1 (by decide)), Tbl.get_set_same]; rfl
  | 1, _ => rw [Tbl.get_set_ne _ _ _ _ _ (ne 1 3 (by decide)), Tbl.get_set_ne _ _ _ _ _ (ne 1 2 (by decide)), Tbl.get_set_same]; rfl
  | 2, _ => rw [Tbl.get_set_ne _ _ _ _ _ (ne 2 3 (by decide)), Tbl.get_set_same]; rfl
  | 3, _ => rw [Tbl.get_set_same]; rfl

theorem putDesc_other (s : State) (h k : Nat) (d : Desc) (h' j : Nat) (hn : h' ≠ h) :
    Tbl.get ⟨h', j⟩ 0 (s.putDesc h k d).layers = Tbl.get ⟨h', j⟩ 0 s.layers := by
  have ne : ∀ a : Nat, (⟨h', j⟩ : Key) ≠ ⟨h, k + a⟩ := by intro a c; injection c with c1 c2; exact hn c1
  unfold State.putDesc
  rw [Tbl.get_set_ne _ _ _ _ _ (ne 3), Tbl.get_set_ne _ _ _ _ _ (ne 2), Tbl.get_set_ne _ _ _ _ _ (ne 1), Tbl.get_set_ne _ _ _ _ _ (ne 0)]

theorem putDescs (k : Nat) (d : Desc) (ts : List Nat) (s : State) (h j : Nat) (hj : j < 4) (hh : h ∈ ts) :
    Tbl.get ⟨h, k + j⟩ 0 (ts.foldl (fun a x => a.putDesc x k d) s).layers = BitVec.ofNat 64 ([d.w0, d.w1, d.w2, d.w3].getD j 0) := by
  have keep : ∀ (t : List Nat) (s : State), Tbl.get ⟨h, k + j⟩ 0 s.layers = BitVec.ofNat 64 ([d.w0, d.w1, d.w2, d.w3].getD j 0) →
      Tbl.get ⟨h, k + j⟩ 0 (t.foldl (fun a x => a.putDesc x k d) s).layers = BitVec.ofNat 64 ([d.w0, d.w1, d.w2, d.w3].getD j 0) := by
    intro t
    induction t with
    | nil => intro s h; exact h
    | cons x t ih =>
      intro s hs
      refine ih _ ?_
      by_cases e : h = x
      · subst e; exact putDesc_same _ _ _ _ _ hj
      · rw [putDesc_other _ _ _ _ _ _ e, hs]
  induction ts generalizing s with
  | nil => simp at hh
  | cons x t ih =>
    simp only [List.mem_cons] at hh
    rcases hh with rfl | hh
    · exact keep t _ (putDesc_same _ _ _ _ _ hj)
    · exact ih _ hh

theorem wrs2_get (s : State) (u : Nat) (f g : Field) (a b : Int) (h : f.pos ≠ g.pos) :
    (s.wrs u [(f, a), (g, b)]).rd u f = f.norm a ∧ (s.wrs u [(f, a), (g, b)]).rd u g = g.norm b :=
  ⟨(State.rd_wr_ne _ _ _ _ _ _ (.inr h)).trans (State.rd_wr_same _ _ _ _), State.rd_wr_same _ _ _ _⟩

theorem fold_keep {α : Type} (P : State → Prop) (g : State → α → State) (ts : List α) (s : State) (hs : P s) (hg : ∀ a x, P a → P (g a x)) : P (ts.foldl g s) := by
  induction ts generalizing s with
  | nil => exact hs
  | cons x t ih => exact ih _ (hg _ _ hs)

theorem fold_mem {α : Type} [DecidableEq α] (P : State → Prop) (g : State → α → State) (ts : List α) (s : State) (x : α) (hx : x ∈ ts) (h1 : ∀ a, P (g a x))
    (hg : ∀ a y, P a → P (g a y)) : P (ts.foldl g s) := by
  induction ts generalizing s with
  | nil => simp at hx
  | cons y t ih =>
    simp only [List.mem_cons] at hx
    rcases hx with rfl | hx
    · exact fold_keep P g t _ (h1 _) hg
    · exact ih _ hx

theorem facing_buf (s : State) (i : Issue) (use : Use) : (s.facing i use).bufs = (s.after i.dt).bufs := by
  have := State.facing_same s i use
  unfold State.sameUnits at this
  simp only [this]

theorem bufs_of {th : Nat} {t e : State} (h : State.sameUnits th t e) : t.bufs = e.bufs := by unfold State.sameUnits at h; simp only [h]

theorem rangesOf_flat (l : List (Nat × Nat × Nat)) : rangesOf (l.flatMap fun r => [(r.1 : Int), (r.2.1 : Int), (r.2.2 : Int)]) = l := by
  induction l with
  | nil => rfl
  | cons x t ih => simp [rangesOf, ih]

theorem frame_regs {th : Nat} {t e : State} (ht : State.sameUnits th t e) (r : Tbl Int) (v b : State) (he : e = { v with regs := r })
    (hv : State.sameUnits th v b) : State.sameUnits th t { b with regs := t.regs } := by
  subst he
  obtain ⟨h1, h2, h3⟩ := ht
  obtain ⟨g1, g2, g3⟩ := hv
  refine ⟨fun u f _ _ _ => rfl, fun u j a b => (h2 u j a b).trans (g2 u j a b), ?_⟩
  simp only at h3 ⊢
  simp only [h3, g3, and_self]

theorem frame_layers {th : Nat} {t e : State} (ht : State.sameUnits th t e) (r : Tbl Word) (v b : State) (he : e = { v with layers := r })
    (hv : State.sameUnits th v b) : State.sameUnits th t { b with layers := t.layers } := by
  subst he
  obtain ⟨h1, h2, h3⟩ := ht
  obtain ⟨g1, g2, g3⟩ := hv
  refine ⟨fun u f a b c => (h1 u f a b c).trans (g1 u f a b c), fun u j a b => (h2 u j a b).trans (g2 u j a b), ?_⟩
  simp only at h3 ⊢
  simp only [h3, g3, and_self]

theorem frame_bufs {th : Nat} {t e : State} (ht : State.sameUnits th t e) (r : Tbl (List Int)) (v b : State) (he : e = { v with bufs := r })
    (hv : State.sameUnits th v b) : State.sameUnits th t { b with bufs := t.bufs } := by
  subst he
  obtain ⟨h1, h2, h3⟩ := ht
  obtain ⟨g1, g2, g3⟩ := hv
  refine ⟨fun u f a b c => (h1 u f a b c).trans (g1 u f a b c), fun u j a b => (h2 u j a b).trans (g2 u j a b), ?_⟩
  simp only at h3 ⊢
  simp only [h3, g3, and_self]

theorem wrs_only (s : State) (u : Nat) (l : List (Field × Int)) : ∃ r, s.wrs u l = { s with regs := r } := by
  induction l generalizing s with
  | nil => exact ⟨s.regs, rfl⟩
  | cons x t ih =>
    obtain ⟨r, h⟩ := ih (s.wr u x.1 x.2)
    exact ⟨r, h⟩

theorem fold_only {α : Type} (g : State → α → State) (hg : ∀ a x, ∃ r, g a x = { a with regs := r }) (ts : List α) (s : State) :
    ∃ r, ts.foldl g s = { s with regs := r } := by
  induction ts generalizing s with
  | nil => exact ⟨s.regs, rfl⟩
  | cons x t ih =>
    obtain ⟨r, h⟩ := ih (g s x)
    obtain ⟨r', h'⟩ := hg s x
    refine ⟨r, h.trans ?_⟩
    rw [h']

theorem writes2_of (c : Instr) (i : Issue) (s : State) (f : State → Judged) (base : Nat → Nat) (ps : List Param) (vs : List Int) (ts : List Nat)
    (hd : (ps.map (·.fld.pos)).Nodup) (hc : judged c = some (i, .other, f)) (h : s.passes i .other f)
    (hb : ∀ n ∈ ts, base n ≠ U.thread i.th ∧ base n ≠ U.crier ∧ base n ≠ U.host)
    (hv : (f (s.facing i .other)).verdict = .act (ts.foldl (fun a n => a.wrParams (base n) ps vs) (s.facing i .other))) :
    s.does c i fun t => (∀ n ∈ ts, t.shows (base n) ps vs) ∧ State.sameUnits i.th t { s.after i.dt with regs := t.regs } ∧
      ∀ u f, u ≠ U.thread i.th → u ≠ U.crier → u ≠ U.host → ¬ ((∃ n ∈ ts, u = base n) ∧ ∃ p ∈ ps, p.fld.pos = f.pos) →
        t.rd u f = (s.after i.dt).rd u f := by
  refine does_act c i _ s _ f _ hc h hv fun t ht => ⟨fun n hn e he => ?_, ?_, fun u f h1 h2 h3 h4 => ?_⟩
  · obtain ⟨h1, h2, h3⟩ := hb n hn
    exact (ht.1 _ _ h1 h2 h3).trans (fold_shows base ps vs hd ts _ n hn e he)
  · obtain ⟨r, hr⟩ := fold_only (fun a n => a.wrParams (base n) ps vs) (fun a n => wrs_only a _ _) ts (s.facing i .other)
    exact frame_regs ht r _ _ hr (State.facing_same s i .other)
  · refine (ht.1 _ _ h1 h2 h3).trans ((fold_ne base ps vs ts _ u f ?_).trans (facing_unit s i _ u f h1 h2 h3))
    by_cases hp : ∃ p ∈ ps, p.fld.pos = f.pos
    · exact .inl fun n hn e => h4 ⟨⟨n, hn, e⟩, hp⟩
    · exact .inr fun p hp' e => hp ⟨p, hp', e⟩

theorem putDesc_frame (s : State) (h k : Nat) (d : Desc) (h' j : Nat) (hn : ¬ (h' = h ∧ k ≤ j ∧ j < k + 4)) :
    Tbl.get ⟨h', j⟩ 0 (s.putDesc h k d).layers = Tbl.get ⟨h', j⟩ 0 s.layers := by
  have ne : ∀ a : Nat, a < 4 → (⟨h', j⟩ : Key) ≠ ⟨h, k + a⟩ := by intro a ha c; injection c with c1 c2; exact hn ⟨c1, by omega, by omega⟩
  unfold State.putDesc
  rw [Tbl.get_set_ne _ _ _ _ _ (ne 3 (by decide)), Tbl.get_set_ne _ _ _ _ _ (ne 2 (by decide)), Tbl.get_set_ne _ _ _ _ _ (ne 1 (by decide)),
    Tbl.get_set_ne _ _ _ _ _ (ne 0 (by decide))]

theorem putDescs_frame (k : Nat) (d : Desc) (ts : List Nat) (s : State) (h j : Nat) (hn : ¬ (h ∈ ts ∧ k ≤ j ∧ j < k + 4)) :
    Tbl.get ⟨h, j⟩ 0 (ts.foldl (fun a x => a.putDesc x k d) s).layers = Tbl.get ⟨h, j⟩ 0 s.layers := by
  induction ts generalizing s with
  | nil => rfl
  | cons x t ih =>
    refine (ih _ fun c => hn ⟨List.mem_cons_of_mem _ c.1, c.2⟩).trans (putDesc_frame _ _ _ _ _ _ fun c => hn ⟨?_, c.2⟩)
    rw [c.1]; exact List.mem_cons_self ..

theorem putDescs_only (k : Nat) (d : Desc) (ts : List Nat) (s : State) : ∃ l, ts.foldl (fun a x => a.putDesc x k d) s = { s with layers := l } := by
  induction ts generalizing s with
  | nil => exact ⟨s.layers, rfl⟩
  | cons x t ih =>
    obtain ⟨l, h⟩ := ih (s.putDesc x k d)
    exact ⟨l, h⟩

theorem wrs_at6 (x : State) (u : Nat) (l : List (Field × Int)) (f : Field) (v : Int) (hm : (f, v) ∈ l) (hn : (l.map fun e => e.1.pos).Nodup) :
    (x.wrs u l).rd u f = f.norm v := by
  induction l generalizing x with
  | nil => cases hm
  | cons y t ih =>
    obtain ⟨h1, h2⟩ := List.nodup_cons.mp hn
    rcases List.mem_cons.mp hm with rfl | hm
    · refine (State.wrs_ne _ _ _ t _ ?_).trans (State.rd_wr_same _ _ _ _)
      intro e he hp
      exact h1 (List.mem_map.mpr ⟨e, he, hp.symm⟩)
    · exact ih _ hm h2

theorem wrs_bufs (s : State) (u : Nat) (l : List (Field × Int)) : (s.wrs u l).bufs = s.bufs := by
  induction l generalizing s with
  | nil => rfl
  | cons x t ih => exact ih _

theorem buf_setBuf (s : State) (u j w k : Nat) (l : List Int) : (s.setBuf u j l).buf w k = if w = u ∧ k = j then l else s.buf w k := by
  unfold State.buf State.setBuf
  split
  · rename_i h; obtain ⟨rfl, rfl⟩ := h; exact Tbl.get_set_same _ _ _ _
  · rename_i h; refine Tbl.get_set_ne _ _ _ _ _ ?_ _; intro e; injection e with e1 e2; exact h ⟨e1, e2⟩

theorem buf_wrs (s : State) (u w k : Nat) (l : List (Field × Int)) : (s.wrs u l).buf w k = s.buf w k := by unfold State.buf; rw [wrs_bufs]

theorem keep_nil (b : State) (u w j k : Nat) (h : b.buf w k = []) : (b.setBuf u j []).buf w k = [] := by
  rw [buf_setBuf]; split
  · rfl
  · exact h

theorem loud_keep (a : State) (u w k : Nat) (h : a.buf w k = []) (l : List Nat) :
    (l.foldl (fun (b : State) q => (b.setBuf u (10 + q) []).setBuf u (20 + q) []) a).buf w k = [] :=
  fold_keep (fun b => b.buf w k = []) _ _ _ h fun a x ha => keep_nil _ _ _ _ _ (keep_nil _ _ _ _ _ ha)

theorem loud_bufs (a : State) (u : Nat) (l : List Nat) : (l.foldl (fun (b : State) q => (b.setBuf u (10 + q) []).setBuf u (20 + q) []) ((a.setBuf u 0 []).setBuf u 1 [])).buf u 0 = [] ∧
    (l.foldl (fun (b : State) q => (b.setBuf u (10 + q) []).setBuf u (20 + q) []) ((a.setBuf u 0 []).setBuf u 1 [])).buf u 1 = [] ∧
    ∀ q ∈ l, (l.foldl (fun (b : State) q => (b.setBuf u (10 + q) []).setBuf u (20 + q) []) ((a.setBuf u 0 []).setBuf u 1 [])).buf u (10 + q) = [] ∧
      (l.foldl (fun (b : State) q => (b.setBuf u (10 + q) []).setBuf u (20 + q) []) ((a.setBuf u 0 []).setBuf u 1 [])).buf u (20 + q) = [] := by
  refine ⟨loud_keep _ _ _ _ ?_ _, loud_keep _ _ _ _ ?_ _, fun q hq => ⟨?_, ?_⟩⟩
  · exact keep_nil _ _ _ _ _ (by rw [buf_setBuf, if_pos ⟨rfl, rfl⟩])
  · rw [buf_setBuf, if_pos ⟨rfl, rfl⟩]
  · refine fold_mem (fun b => b.buf u (10 + q) = []) _ l _ q hq ?_ ?_
    · intro a; exact keep_nil _ _ _ _ _ (by rw [buf_setBuf, if_pos ⟨rfl, rfl⟩])
    · intro a y ha; exact keep_nil _ _ _ _ _ (keep_nil _ _ _ _ _ ha)
  · refine fold_mem (fun b => b.buf u (20 + q) = []) _ l _ q hq ?_ ?_
    · intro a; rw [buf_setBuf, if_pos ⟨rfl, rfl⟩]
    · intro a y ha; exact keep_nil _ _ _ _ _ (keep_nil _ _ _ _ _ ha)

theorem loud_regs (a : State) (u : Nat) (w : Nat) (f : Field) (l : List Nat) :
    (l.foldl (fun (b : State) q => (b.setBuf u (10 + q) []).setBuf u (20 + q) []) ((a.setBuf u 0 []).setBuf u 1 [])).rd w f = a.rd w f :=
  fold_keep (fun b => b.rd w f = a.rd w f) _ _ _ rfl fun a x ha => ha

theorem wrs_rd_ne (s : State) (u w : Nat) (f : Field) (l : List (Field × Int)) (h : (l.map (·.1.pos)).contains f.pos = false) : (s.wrs u l).rd w f = s.rd w f := by
  refine State.wrs_ne _ _ _ _ _ fun e he c => ?_
  have hm : f.pos ∈ l.map (·.1.pos) := List.mem_map.mpr ⟨e, he, c.symm⟩
  rw [List.contains_iff_mem.mpr hm] at h
  cases h

theorem shows_wrs (s : State) (u : Nat) (ps : List Param) (vs : List Int) (l : List (Field × Int)) (h : s.shows u ps vs)
    (hd : ∀ p ∈ ps, (l.map (·.1.pos)).contains p.fld.pos = false) : (s.wrs u l).shows u ps vs := by
  intro e he
  rw [wrs_rd_ne _ _ _ _ _ (hd e.1 (List.of_mem_zip he).1)]
  exact h e he

theorem shows_of {t e : State} {u : Nat} {ps : List Param} {vs : List Int} (h : e.shows u ps vs) (ht : ∀ f, t.rd u f = e.rd u f) : t.shows u ps vs :=
  fun x hx => (ht _).trans (h x hx)

theorem frame_both {th : Nat} {t e : State} (ht : State.sameUnits th t e) (r : Tbl Int) (b : Tbl (List Int)) (v : State) (he : e = { v with regs := r, bufs := b }) :
    State.sameUnits th t { v with regs := t.regs, bufs := t.bufs } := by
  subst he
  obtain ⟨h1, h2, h3⟩ := ht
  refine ⟨fun u f _ _ _ => rfl, fun u j a b => h2 u j a b, ?_⟩
  simp only at h3 ⊢
  simp only [h3, and_self]

def unitOnly (u : Nat) (a e : State) : Prop :=
  (∃ r b, e = { a with regs := r, bufs := b }) ∧ (∀ w f, w ≠ u → e.rd w f = a.rd w f) ∧ ∀ w k, w ≠ u → e.buf w k = a.buf w k

theorem unitOnly_trans {u : Nat} {a b c : State} (h : unitOnly u a b) (g : unitOnly u b c) : unitOnly u a c := by
  obtain ⟨⟨r, x, rfl⟩, h2, h3⟩ := h
  obtain ⟨⟨r', x', rfl⟩, g2, g3⟩ := g
  exact ⟨⟨r', x', rfl⟩, fun w f e => (g2 w f e).trans (h2 w f e), fun w k e => (g3 w k e).trans (h3 w k e)⟩

theorem unitOnly_wrs (u : Nat) (a : State) (l : List (Field × Int)) : unitOnly u a (a.wrs u l) := by
  obtain ⟨r, h⟩ := wrs_only a u l
  exact ⟨⟨r, a.bufs, h⟩, fun w f e => wrs_unit _ _ _ _ _ e, fun w k _ => buf_wrs _ _ _ _ _⟩

theorem unitOnly_setBuf (u : Nat) (a : State) (j : Nat) (l : List Int) : unitOnly u a (a.setBuf u j l) :=
  ⟨⟨a.regs, _, rfl⟩, fun _ _ _ => rfl, fun w k e => by rw [buf_setBuf]; exact if_neg fun c => e c.1⟩

theorem unitOnly_loud (u : Nat) (l : List Nat) (a : State) : unitOnly u a (l.foldl (fun (b : State) q => (b.setBuf u (10 + q) []).setBuf u (20 + q) []) a) := by
  induction l generalizing a with
  | nil => exact ⟨⟨a.regs, a.bufs, rfl⟩, fun _ _ _ => rfl, fun _ _ _ => rfl⟩
  | cons x t ih => exact unitOnly_trans (unitOnly_trans (unitOnly_setBuf _ _ _ _) (unitOnly_setBuf _ _ _ _)) (ih _)

theorem loud_eff (a : State) (u : Nat) (vs : List Int) (h : a.shows u Loud.loudcfgParams vs) (e : State)
    (he : e = ((List.range 8).foldl (fun (b : State) q => (b.setBuf u (10 + q) []).setBuf u (20 + q) []) ((a.setBuf u 0 []).setBuf u 1 [])).wrs u
      [(Loud.acc, 0), (Loud.tpNow, 0), (Loud.tpAll, 0), (Loud.since, -1), (Loud.resetAt, 0)]) :
    e.shows u Loud.loudcfgParams vs ∧ (e.rd u Loud.since = -1 ∧ e.rd u Loud.acc = 0 ∧ e.rd u Loud.tpNow = 0 ∧ e.rd u Loud.tpAll = 0 ∧ e.buf u 0 = [] ∧ e.buf u 1 = [] ∧
      ∀ q < 8, e.buf u (10 + q) = [] ∧ e.buf u (20 + q) = []) ∧ unitOnly u a e := by
  obtain ⟨b1, b2, b3⟩ := loud_bufs a u (List.range 8)
  have r := fun f => loud_regs a u u f (List.range 8)
  have hu : unitOnly u a e := by
    rw [he]
    exact unitOnly_trans (unitOnly_trans (unitOnly_setBuf _ _ _ _) (unitOnly_setBuf _ _ _ _)) (unitOnly_trans (unitOnly_loud _ _ _) (unitOnly_wrs _ _ _))
  generalize (List.range 8).foldl (fun (b : State) q => (b.setBuf u (10 + q) []).setBuf u (20 + q) []) ((a.setBuf u 0 []).setBuf u 1 []) = c at *
  subst he
  have ww : ∀ (f : Field) v, (f, v) ∈ [(Loud.acc, (0 : Int)), (Loud.tpNow, 0), (Loud.tpAll, 0), (Loud.since, -1), (Loud.resetAt, 0)] → f.norm v = v →
      (c.wrs u [(Loud.acc, 0), (Loud.tpNow, 0), (Loud.tpAll, 0), (Loud.since, -1), (Loud.resetAt, 0)]).rd u f = v :=
    fun f v hm hn => (wrs_at6 _ _ _ f v hm (by decide)).trans hn
  refine ⟨shows_wrs _ _ _ _ _ (shows_of h r) (by decide), ⟨ww _ _ (by simp) (by decide), ww _ _ (by simp) (by decide), ww _ _ (by simp) (by decide), ww _ _ (by simp) (by decide), ?_, ?_, fun q hq => ⟨?_, ?_⟩⟩, hu⟩
  · rw [buf_wrs, b1]
  · rw [buf_wrs, b2]
  · rw [buf_wrs, (b3 q (List.mem_range.mpr hq)).1]
  · rw [buf_wrs, (b3 q (List.mem_range.mpr hq)).2]

theorem rd_setBuf (b : State) (u j : Nat) (l : List Int) (w : Nat) (f : Field) : (b.setBuf u j l).rd w f = b.rd w f := rfl

theorem corr_eff (a : State) (u : Nat) (vs : List Int) (h : a.shows u Corr.corrcfgParams vs) (e : State)
    (he : e = ((((a.setBuf u 0 []).setBuf u 1 []).setBuf u 2 []).setBuf u 3 []).wrs u [(Corr.set, 1), (Corr.xy, 0), (Corr.xx, 0), (Corr.yy, 0), (Corr.n, 0)]) :
    e.shows u Corr.corrcfgParams vs ∧ (e.rd u Corr.set = 1 ∧ e.rd u Corr.n = 0 ∧ e.rd u Corr.xy = 0 ∧ e.rd u Corr.xx = 0 ∧ e.rd u Corr.yy = 0 ∧ ∀ k < 4, e.buf u k = []) ∧
      unitOnly u a e := by
  have hu : unitOnly u a e := by
    rw [he]
    exact unitOnly_trans (unitOnly_trans (unitOnly_setBuf _ _ _ _) (unitOnly_trans (unitOnly_setBuf _ _ _ _) (unitOnly_trans (unitOnly_setBuf _ _ _ _) (unitOnly_setBuf _ _ _ _)))) (unitOnly_wrs _ _ _)
  subst he
  have ww : ∀ (f : Field) v, (f, v) ∈ [(Corr.set, (1 : Int)), (Corr.xy, 0), (Corr.xx, 0), (Corr.yy, 0), (Corr.n, 0)] → f.norm v = v →
      (((((a.setBuf u 0 []).setBuf u 1 []).setBuf u 2 []).setBuf u 3 []).wrs u [(Corr.set, 1), (Corr.xy, 0), (Corr.xx, 0), (Corr.yy, 0), (Corr.n, 0)]).rd u f = v :=
    fun f v hm hn => (wrs_at6 _ _ _ f v hm (by decide)).trans hn
  refine ⟨shows_wrs _ _ _ _ _ (shows_of (e := a) h fun f => by rw [rd_setBuf, rd_setBuf, rd_setBuf, rd_setBuf]) (by decide),
    ⟨ww _ _ (by simp) (by decide), ww _ _ (by simp) (by decide), ww _ _ (by simp) (by decide), ww _ _ (by simp) (by decide), ww _ _ (by simp) (by decide), fun k hk => ?_⟩, hu⟩
  rw [buf_wrs]
  interval_cases k <;> simp [buf_setBuf]

/-- An instruction that passes and begins a BACKGROUND operation leaves its effect and the operation. -/
theorem does_start (c : Instr) (i : Issue) (use : Use) (s e : State) (f : State → Judged) (op ix sub : Nat) (vals : List Int) (due : Nat) (hc : judged c = some (i, use, f))
    (h : s.passes i use f) (hv : (f (s.facing i use)).verdict = .start e op ix sub vals due) :
    s.does c i fun t => State.sameUnits i.th t e ∧ ∃ b ∈ t.bg, b.th = i.th ∧ b.op = op ∧ b.index = ix ∧ b.sub = sub ∧ b.vals = vals := by
  obtain ⟨a1, a2, a3⟩ := State.issue_start s i use f e op ix sub vals due h hv
  exact ⟨_, exec_judged c i use f s hc, a1, a2, _, a3, rfl, rfl, rfl, rfl, rfl⟩

theorem fold_only2 {α : Type} (g : State → α → State) (hg : ∀ a x, ∃ r c, g a x = { a with regs := r, ctrs := c }) (ts : List α) (s : State) :
    ∃ r c, ts.foldl g s = { s with regs := r, ctrs := c } := by
  induction ts generalizing s with
  | nil => exact ⟨s.regs, s.ctrs, rfl⟩
  | cons x t ih =>
    obtain ⟨r, c, h⟩ := ih (g s x)
    obtain ⟨r', c', h'⟩ := hg s x
    refine ⟨r, c, h.trans ?_⟩
    rw [h']

theorem frame_rc {th : Nat} {t e : State} (ht : State.sameUnits th t e) (r : Tbl Int) (c : Tbl Nat) (v b : State) (he : e = { v with regs := r, ctrs := c })
    (hv : State.sameUnits th v b) : State.sameUnits th t { b with regs := t.regs, ctrs := t.ctrs } := by
  subst he
  obtain ⟨h1, h2, h3⟩ := ht
  obtain ⟨g1, g2, g3⟩ := hv
  refine ⟨fun u f _ _ _ => rfl, fun u j _ _ => rfl, ?_⟩
  simp only at h3 ⊢
  simp only [h3, g3, and_self]

theorem lane_unit_ne (ls : List Nat) (v : State) (i : Issue) (h : laneTargets i = some ls) (hth : i.th < 64) :
    ∀ l ∈ (ls.flatMap v.portLanes).eraseDups, U.lane l ≠ U.thread i.th ∧ U.lane l ≠ U.crier ∧ U.lane l ≠ U.host := by
  intro l hl
  rw [List.mem_eraseDups] at hl
  obtain ⟨k, hk, hl⟩ := List.mem_flatMap.mp hl
  have hc : ∀ u, U.classOf u = 0x08 → U.lane 0 ≤ u ∧ u < U.lane 0 + 294 := by
    intro u h
    obtain ⟨r, hr, h1, h2, h3⟩ := U.classOf_mem u _ h (by decide)
    have : ∀ r ∈ U.classRows, r.2.2 = 0x08 → r = (6400, 294, 0x08) := by decide
    rw [this r hr h3] at h1 h2; simp only [U.lane]; exact ⟨h1, h2⟩
  have hlt := targets_lt i _ _ _ _ hc h k hk
  have : l < 300 := by
    unfold State.portLanes at hl
    split at hl
    · obtain ⟨m, hm, rfl⟩ := List.mem_map.mp hl
      have hm := List.mem_range.mp hm
      have hw : portWidth (v.laneN k Lane.PORT) ≤ 4 := by unfold portWidth; split <;> [decide; (split <;> decide)]
      omega
    · simp only [List.mem_singleton] at hl; omega
  simp only [U.lane, U.thread, U.crier, U.host]; omega

theorem fold_visit (I Q : State → Prop) (one : State → Nat → State) (ls : List Nat) (l : Nat) (hl : l ∈ ls) (s : State) (hs : I s)
    (h1 : ∀ a, I a ∨ Q a → Q (one a l)) (h2 : ∀ a y, y ≠ l → I a → I (one a y)) (h3 : ∀ a y, y ≠ l → Q a → Q (one a y)) : Q (ls.foldl one s) := by
  have keep : ∀ (m : List Nat) (a : State), Q a → Q (m.foldl one a) := by
    intro m
    induction m with
    | nil => intro a h; exact h
    | cons y m ih =>
      intro a h
      refine ih _ ?_
      by_cases e : y = l
      · subst e; exact h1 a (.inr h)
      · exact h3 a y e h
  induction ls generalizing s with
  | nil => simp at hl
  | cons y m ih =>
    by_cases e : y = l
    · subst e; exact keep m _ (h1 s (.inl hs))
    · rcases List.mem_cons.mp hl with c | c
      · exact absurd c.symm e
      · exact ih c _ (h2 s y e hs)

theorem headD_drop_one (h : List Int) : (h.drop 1).headD 0 = h.getD 1 0 := by cases h with | nil => rfl | cons a t => cases t <;> rfl

theorem getD_drop_two (h : List Int) : (h.drop 2).headD 0 = h.getD 2 0 := by
  cases h with | nil => rfl | cons a t => cases t with | nil => rfl | cons b t => cases t <;> rfl

theorem wr_zip (s : State) (u : Nat) (fs : List Field) (vs : List Int) (hd : (fs.map (·.pos)).Nodup) : ∀ e ∈ fs.zip vs, (s.wrs u (fs.zip vs)).rd u e.1 = e.1.norm e.2 := by
  induction fs generalizing s vs with
  | nil => intro e he; simp at he
  | cons p t ih =>
    cases vs with
    | nil => intro e he; simp at he
    | cons v vs =>
      intro e he
      simp only [List.zip_cons_cons, List.mem_cons] at he
      simp only [List.map_cons, List.nodup_cons] at hd
      simp only [List.zip_cons_cons, State.wrs]
      rcases he with rfl | he
      · rw [State.wrs_ne]
        · exact State.rd_wr_same _ _ _ _
        · intro x hx e
          exact hd.1 (List.mem_map.mpr ⟨x.1, (List.of_mem_zip hx).1, e.symm⟩)
      · exact ih _ _ hd.2 e he

theorem shows_wr1 (s : State) (u : Nat) (ps : List Param) (vs : List Int) (f : Field) (v : Int) (h : s.shows u ps vs)
    (hd : ∀ p ∈ ps, p.fld.pos ≠ f.pos) : (s.wr u f v).shows u ps vs :=
  fun e he => (State.rd_wr_ne _ _ _ _ _ _ (.inr (hd e.1 (List.of_mem_zip he).1))).trans (h e he)

theorem tower_unit_ne (th : Nat) (h : th < 64) : U.tower ≠ U.thread th ∧ U.tower ≠ U.crier ∧ U.tower ≠ U.host := by
  simp only [U.tower, U.thread, U.crier, U.host]; omega

theorem at_of_getD {th : Nat} {t e : State} (h : State.sameUnits th t e) : t.setAt = e.setAt ∧ t.setBy = e.setBy := by
  unfold State.sameUnits at h; simp only [h, and_self]

theorem classOf_one (i : Issue) (cls base n c : Nat) (hr : ∀ u, U.classOf u = cls → base ≤ u ∧ u < base + n) (h : targets i cls base n = some [c]) : c < n :=
  targets_lt i cls base n [c] hr h c (List.mem_singleton.mpr rfl)

theorem classOf_cand (u : Nat) (h : U.classOf u = 0x41) : U.cand 0 ≤ u ∧ u < U.cand 0 + 12 := by
  obtain ⟨r, hr, h1, h2, h3⟩ := U.classOf_mem u _ h (by decide)
  have : ∀ r ∈ U.classRows, r.2.2 = 0x41 → r = (0x8A01, 12, 0x41) := by decide
  rw [this r hr h3] at h1 h2; simp only [U.cand]; exact ⟨h1, h2⟩

theorem classOf_tt (u : Nat) (h : U.classOf u = 0x45) : U.tt 0 ≤ u ∧ u < U.tt 0 + 4 := by
  obtain ⟨r, hr, h1, h2, h3⟩ := U.classOf_mem u _ h (by decide)
  have : ∀ r ∈ U.classRows, r.2.2 = 0x45 → r = (0x8A25, 4, 0x45) := by decide
  rw [this r hr h3] at h1 h2; simp only [U.tt]; exact ⟨h1, h2⟩

theorem prios_written (s : State) (u : Nat) (f : Field) (h : ∀ c < 12, u ≠ U.cand c) : s.showPriorities.rd u f = s.rd u f := by
  unfold State.showPriorities
  have : ∀ l : List Nat, (∀ c ∈ l, c < 12) → ∀ x : State, (l.foldl (fun a c => a.wr (U.cand c) Cand.PRIORITY (a.candPrio c)) x).rd u f = x.rd u f := by
    intro l
    induction l with
    | nil => intro _ x; rfl
    | cons c l ih => intro hl x; exact (ih (fun d hd => hl d (List.mem_cons_of_mem _ hd)) _).trans (State.rd_wr_ne _ _ _ _ _ _ (.inl (h c (hl c (List.mem_cons_self ..)))))
  exact this _ (fun c hc => List.mem_range.mp hc) s

theorem wrs_act (v : State) (n : Nat) (vs : List Int) : (v.wrParams (U.tt n) Tt.ttcfgParams vs).rd (U.tt n) Tt.active = v.rd (U.tt n) Tt.active := by
  refine State.wrs_ne _ _ _ _ _ ?_
  intro x hx
  obtain ⟨q, hq, rfl⟩ := List.mem_map.mp hx
  have : ∀ p ∈ Tt.ttcfgParams, Tt.active.pos ≠ p.fld.pos := by decide
  exact this _ (List.of_mem_zip hq).1

theorem tt_eff (v w : State) (n : Nat) (vs : List Int) (ar : Int) (st : Nat) (x : Bool) (hsb : w.shows (U.tt n) Tt.ttcfgParams vs) (har : Tt.armed.norm ar = ar)
    (hw : w.rd (U.tt n) Tt.active = v.rd (U.tt n) Tt.active) (e : State)
    (he : e = if pn Tt.ttcfgParams vs Tt.MODE = 1 then (w.wrs (U.tt n) [(Tt.phase, 0), (Tt.armed, ar), (Tt.stamp, (st : Int))]).setTtPending n []
      else if v.rb (U.tt n) Tt.active || x then ((w.wrs (U.tt n) [(Tt.phase, 0), (Tt.armed, ar), (Tt.stamp, (st : Int))]).setTtPending n []).ttDrive n false
      else (w.wrs (U.tt n) [(Tt.phase, 0), (Tt.armed, ar), (Tt.stamp, (st : Int))]).setTtPending n []) :
    e.shows (U.tt n) Tt.ttcfgParams vs ∧ e.rd (U.tt n) Tt.phase = 0 ∧ (pn Tt.ttcfgParams vs Tt.MODE ≠ 1 → e.rb (U.tt n) Tt.active = false) ∧
      e.rd (U.tt n) Tt.armed = ar := by
  have b1 : (w.wrs (U.tt n) [(Tt.phase, 0), (Tt.armed, ar), (Tt.stamp, (st : Int))]).shows (U.tt n) Tt.ttcfgParams vs :=
    shows_wr1 _ _ _ _ _ _ (shows_wr1 _ _ _ _ _ _ (shows_wr1 _ _ _ _ _ _ hsb (by decide)) (by decide)) (by decide)
  have b2 : (w.wrs (U.tt n) [(Tt.phase, 0), (Tt.armed, ar), (Tt.stamp, (st : Int))]).rd (U.tt n) Tt.phase = 0 :=
    (State.wrs_ne _ _ _ [(Tt.armed, ar), (Tt.stamp, (st : Int))] Tt.phase (by simp [Tt.phase, Tt.armed, Tt.stamp])).trans ((State.rd_wr_same _ _ _ _).trans (by decide))
  have b3 : (w.wrs (U.tt n) [(Tt.phase, 0), (Tt.armed, ar), (Tt.stamp, (st : Int))]).rd (U.tt n) Tt.armed = ar :=
    (State.rd_wr_ne _ _ _ _ _ _ (.inr (by decide))).trans ((State.rd_wr_same _ _ _ _).trans har)
  have b4 : (w.wrs (U.tt n) [(Tt.phase, 0), (Tt.armed, ar), (Tt.stamp, (st : Int))]).rd (U.tt n) Tt.active = v.rd (U.tt n) Tt.active :=
    (State.wrs_ne _ _ _ _ Tt.active (by simp [Tt.phase, Tt.armed, Tt.stamp, Tt.active])).trans hw
  generalize w.wrs (U.tt n) [(Tt.phase, 0), (Tt.armed, ar), (Tt.stamp, (st : Int))] = b at *
  have c : ∀ u f, (b.setTtPending n []).rd u f = b.rd u f := fun u f => rfl
  have d : ∀ f, f.pos ≠ Tt.active.pos → ((b.setTtPending n []).ttDrive n false).rd (U.tt n) f = b.rd (U.tt n) f := fun f hf => State.rd_wr_ne b (U.tt n) (U.tt n) Tt.active f 0 (.inr hf)
  have d' : ((b.setTtPending n []).ttDrive n false).rd (U.tt n) Tt.active = 0 := (State.rd_wr_same b (U.tt n) Tt.active 0).trans (by decide)
  generalize b.setTtPending n [] = k at *
  subst he
  split
  · rename_i hm
    exact ⟨shows_of b1 (c _), (c _ _).trans b2, fun h => absurd hm h, (c _ _).trans b3⟩
  · split
    · refine ⟨fun e he => (d _ ?_).trans (b1 e he), (d _ (by decide)).trans b2, fun _ => ?_, (d _ (by decide)).trans b3⟩
      · have : ∀ p ∈ Tt.ttcfgParams, p.fld.pos ≠ Tt.active.pos := by decide
        exact this _ (List.of_mem_zip he).1
      · unfold State.rb; rw [d']; rfl
    · rename_i hm
      refine ⟨shows_of b1 (c _), (c _ _).trans b2, fun _ => ?_, (c _ _).trans b3⟩
      have : v.rb (U.tt n) Tt.active = false := by simp at hm; exact hm.1
      unfold State.rb at this ⊢
      rw [c, b4]; exact this

theorem showOk_rd (x : State) (u : Nat) (f : Field) (h : u ≠ U.twin ∨ f.pos ≠ Twin.okOut.pos) : x.showOk.rd u f = x.rd u f := by
  simp only [State.showOk]
  generalize (if x.twinOk then (1 : Int) else 0) = z
  split
  · rfl
  · exact State.rd_wr_ne _ _ _ _ _ _ h

theorem yield_keeps (x : State) (u : Nat) (f : Field) : x.autoYield.rd u f = x.rd u f := by
  simp only [State.autoYield]; split <;> rfl

theorem mark_rd (x : State) (a b : Bool) (u : Nat) (f : Field) (h : u ≠ U.twin ∨ f.pos ≠ Twin.okOut.pos) :
    (x.markSuspect a b).rd u f = (x.wr U.twin (if a then Twin.SUSPECT_PARTNER else Twin.SUSPECT_SELF) (if b then 1 else 0)).rd u f := by
  simp only [State.markSuspect]
  rw [showOk_rd _ _ _ h]
  have e : ∀ (p : Bool) (y : State), (if p then y.autoYield else y).rd u f = y.rd u f := by
    intro p y; cases p
    · rfl
    · exact yield_keeps _ _ _
  exact e _ _

theorem gregs_of_same {th : Nat} {t e : State} (h : State.sameUnits th t e) : t.gregs = e.gregs := by unfold State.sameUnits at h; simp only [h]

theorem gget_gset_same (x : State) (t r : Nat) (w : Word) : (x.gset t r w).gget t r = w := Tbl.get_set_same _ _ _ _

theorem gset_ne (x : State) (t r n q : Nat) (w : Word) (h : n ≠ t ∨ q % 16 ≠ r % 16) : (x.gset t r w).gget n q = x.gget n q := by
  refine Tbl.get_set_ne _ _ _ _ _ ?_ _
  intro e; injection e with e1 e2; rcases h with h | h
  · exact h e1
  · exact h e2

theorem arcadeUse_gregs (x : State) (m a n : Nat) : (x.arcadeUse m a n).gregs = x.gregs := by unfold State.arcadeUse; split <;> rfl

theorem mark_gregs (x : State) (a b : Bool) : (x.markSuspect a b).gregs = x.gregs := by
  simp only [State.markSuspect]
  have e : ∀ (p : Bool) (y : State), (if p then y.autoYield else y).gregs = y.gregs := by
    intro p y; cases p
    · rfl
    · show y.autoYield.gregs = _
      simp only [State.autoYield]; split <;> rfl
  have sh : ∀ y : State, y.showOk.gregs = y.gregs := by
    intro y; simp only [State.showOk]
    generalize (if y.twinOk then (1 : Int) else 0) = z
    split <;> rfl
  rw [sh]; exact e _ _

theorem post_gregs (x : State) (u c d : Nat) : (x.post u c d).gregs = x.gregs := gregs_of_same (State.post_same x 0 u c d)

theorem wrs_gregs (x : State) (u : Nat) (l : List (Field × Int)) : (x.wrs u l).gregs = x.gregs := by
  induction l generalizing x with
  | nil => rfl
  | cons a t ih => exact ih _

theorem evidence_gregs (x : State) (a b : Nat) : (x.evidence a b).gregs = x.gregs := rfl

theorem barnError_gregs (x : State) (m k c : Nat) : (x.barnError m k c).gregs = x.gregs := by
  simp only [State.barnError]
  split
  · rfl
  · rw [post_gregs]; rfl

theorem barn_gregs (x : State) (m o : Nat) : (x.barnRead m o).2.gregs = x.gregs := by
  simp only [State.barnRead]
  split
  · unfold State.faultAccess
    split
    · rw [barnError_gregs]; exact wrs_gregs _ _ _
    · exact wrs_gregs _ _ _
  · split
    · rw [barnError_gregs]; exact wrs_gregs _ _ _
    · exact wrs_gregs _ _ _

theorem read_gregs (x : State) (m a : Nat) : (x.arcadeRead m a).2.gregs = x.gregs := by
  unfold State.arcadeRead; split
  · rfl
  · rfl
  · rfl
  · exact barn_gregs _ _ _
  · rfl

theorem reads_gregs (x : State) (m a n : Nat) : (x.arcadeReads m a n).2.gregs = x.gregs := by
  induction n generalizing x a with
  | zero => rfl
  | succ n ih => exact (ih _ _).trans (read_gregs _ _ _)

theorem classOf_thread (u : Nat) (h : U.classOf u = 0x30) : U.thread 0 ≤ u ∧ u < U.thread 0 + 64 := U.class_thread u h

theorem discardSalvo_rd (x : State) (n : Nat) (f : Field) (hn : n < 64) (hf : f.pos ≠ Lamp.SALVO.pos) (m : Nat) : (x.discardSalvo m Code.format.num).rd (U.thread n) f = x.rd (U.thread n) f :=
  State.discardSalvo_rd x m Code.format.num n f hn hf

theorem configure_rd (x : State) (n : Nat) (vs : List Int) (st : Int) (f : Field) : (x.configureThread n vs st).rd (U.thread n) f =
    ((x.discardSalvo n Code.format.num).wrs (U.thread n)
        [(Lamp.STATE, st), (Lamp.PRIORITY, pv Lamp.thrcfgParams vs Lamp.PRIORITY), (Lamp.PLAN, pv Lamp.thrcfgParams vs Lamp.PLAN), (Lamp.QUEUE, pv Lamp.thrcfgParams vs Lamp.QUEUE),
      (Lamp.ENTRY, pv Lamp.thrcfgParams vs Lamp.ENTRY), (Lamp.REPORT, pv Lamp.thrcfgParams vs Lamp.REPORT), (Lamp.PC, pv Lamp.thrcfgParams vs Lamp.ENTRY), (Lamp.IN_ERRAND, 0), (Lamp.TARGET, 0),
      (Lamp.tMode, 0), (Lamp.callIdx, 0), (Lamp.past, 0), (Lamp.stopAtEnd, 0), (Lamp.waitKind, 0)]).rd (U.thread n) f := by
  simp only [State.configureThread]
  generalize State.wrs _ _ _ = y
  rfl

theorem firstFail_mem (l : Checks) (d : Code) (h : firstFail l = some d) : (d, true) ∈ l := by
  induction l generalizing d with
  | nil => cases h
  | cons x t ih =>
    obtain ⟨c, b⟩ := x
    simp only [firstFail] at h
    split at h
    · rename_i hb
      subst hb
      split at h
      · cases h; exact List.mem_cons_self ..
      · rename_i e he
        split at h
        · cases h; exact List.mem_cons_of_mem _ (ih _ he)
        · cases h; exact List.mem_cons_self ..
    · exact List.mem_cons_of_mem _ (ih _ h)

theorem commonChecks_integrity (v : State) (t : Nat) : (Code.integrity, true) ∉ commonChecks v t .other { checks := [(Code.format, true)], verdict := Verdict.act v, permit := 2, recovery := true } := by
  intro h
  simp only [commonChecks, List.mem_append, List.append_nil] at h
  rcases h with (h | h) | h
  · unfold State.roleBar at h
    cases he : v.errandOf t with
    | none => simp [he] at h
    | some e =>
      rw [he] at h
      dsimp only at h
      by_cases h1 : e.queue = 8 <;> by_cases h2 : (decide (e.source = 0) && v.isStandby && decide (2 ≠ 1)) = true <;> simp_all
      rw [if_neg (by rintro ⟨a, b⟩; rw [h2 a] at b; cases b)] at h
      simp at h
  · simp at h
  · unfold salvoChecks at h
    split at h <;> simp at h

end Sys2Proof.Laws
end

