-- ==== Sys2Proof/Laws/Events.lean ====
section
/-!
SUPPORT. What the shared operations of the events do: commits, packets sent, Barn stores, ring and Alley messages.
-/
namespace Sys2Proof.Laws
open Sys2Proof Sys2Proof.Machine

theorem ccc_on (dt : Nat) (s : State) (f : State → State) (h : (s.after dt).portHears = true) : s.ccc dt f = .next (f (s.after dt)) := by
  unfold State.ccc; simp only [h, if_true]

theorem ccc_off (dt : Nat) (s : State) (f : State → State) (h : (s.after dt).portHears = false) : s.ccc dt f = .next (s.after dt) := by
  unfold State.ccc; simp only [h]; rfl

theorem closePart_rd (x : State) (pid c u : Nat) (f : Field) (h1 : u < U.thread 0 ∨ U.thread 0 + 64 ≤ u) (h2 : u ≠ U.crier) (h3 : u ≠ U.host) : (x.closePart pid c).rd u f = x.rd u f :=
  (State.closePart_same x 0 pid c).1 u f (by simp only [U.thread] at *; omega) h2 h3

theorem noteCommit_rd (x : State) (pid : Nat) (n : Int) (u : Nat) (f : Field) : (x.noteTick pid n).rd u f = x.rd u f := by
  unfold State.noteTick; split <;> rfl

theorem commitOne_rd (s : State) (n : Int) (e : Staged) (op k sub : Nat) (vs : List Int) (he : e.eff = .cfg op k sub vs) (h55 : op ≠ 0x55) (hb : s.effectFault e = false) (u : Nat) (f : Field)
    (h1 : u < U.thread 0 ∨ U.thread 0 + 64 ≤ u) (h2 : u ≠ U.crier) (h3 : u ≠ U.host) :
    (s.commitOne n e).rd u f = (({ s with staged := s.staged.filter (·.id != e.id) } : State).commitCfg n op k sub vs).2.rd u f := by
  unfold State.commitOne
  simp only [he, hb, Bool.false_eq_true, if_false]
  rw [closePart_rd _ _ _ _ _ h1 h2 h3]
  split
  · exact noteCommit_rd _ _ _ _ _
  · rfl

theorem fold_frame {α : Type} (u : Nat) (f : Field) (g : State → α → State) (l : List α) (s : State) (h : ∀ a ∈ l, ∀ y, (g y a).rd u f = y.rd u f) : (l.foldl g s).rd u f = s.rd u f := by
  induction l generalizing s with
  | nil => rfl
  | cons a l ih => exact (ih _ fun b hb => h b (List.mem_cons_of_mem _ hb)).trans (h a (List.mem_cons_self ..) s)

theorem holding_lt (s : State) (base n : Nat) (f : Field) (v : Int) : ∀ d ∈ s.holding base n f v, d < n := by
  intro d hd
  unfold State.holding at hd
  obtain ⟨e, -, he⟩ := List.mem_filterMap.mp hd
  split at he
  · rename_i hc
    simp only [Bool.and_eq_true, decide_eq_true_eq] at hc
    cases he
    omega
  · cases he

theorem audioSwitch_rd (s : State) (d u : Nat) (f : Field) (h : u < U.emb 0 ∨ U.emb 0 + 2304 ≤ u) : (s.audioSwitch d).rd u f = s.rd u f := by
  unfold State.audioSwitch
  dsimp only
  split
  · rfl
  · rename_i hd
    have hne : u ≠ U.emb d := by rw [not_or] at hd; simp only [U.emb] at h ⊢; omega
    have key : ∀ (x : State) l b a i c j, (if b = true then ((((x.setBuf (U.emb d) 10 l).wrs (U.emb d) a).countBy (U.emb d) i c).countBy (U.emb d) i j) else ((x.setBuf (U.emb d) 10 l).wrs (U.emb d) a)).rd u f = x.rd u f := by
      intro x l b a i c j
      split <;> exact wrs_unit _ _ _ _ _ hne
    split <;> exact wrs_unit _ _ _ _ _ hne

theorem followStop_rd (u : Nat) (f : Field) (h : (u < U.emb 0 ∨ U.emb 0 + 2304 ≤ u) ∧ 2688 ≤ u) : ∀ (fuel seat : Nat) (str : Option Nat) (s : State), (State.followStop fuel seat str s).rd u f = s.rd u f := by
  intro fuel
  induction fuel with
  | zero => intro _ _ _; rfl
  | succ n ih =>
    intro seat str s
    unfold State.followStop
    refine fold_frame _ _ _ _ _ fun d hd y => ?_
    have hd' := holding_lt _ _ _ _ _ d hd
    dsimp only
    split
    · rfl
    · refine (fold_frame _ _ _ _ _ fun r _ z => ih _ _ _).trans ((audioSwitch_rd _ _ _ _ h.1).trans (State.rd_wr_ne _ _ _ _ _ _ (.inl ?_)))
      simp only [U.cell]; omega

theorem rateMoved_rd (u : Nat) (f : Field) : ∀ (fuel t key : Nat) (s : State), (State.rateMoved fuel t key s).rd u f = s.rd u f := by
  intro fuel
  induction fuel with
  | zero => intro _ _ _; rfl
  | succ n ih =>
    intro t key s
    unfold State.rateMoved
    refine fold_frame _ _ _ _ _ fun d hd y => ?_
    dsimp only
    refine (fold_frame _ _ _ _ _ fun r _ z => ih _ _ _).trans ?_
    split <;> rfl

theorem seatRateMoved_rd (u : Nat) (f : Field) (k : Nat) (o s : State) : (State.seatRateMoved k o s).rd u f = s.rd u f := by
  unfold State.seatRateMoved
  dsimp only
  split
  · exact rateMoved_rd _ _ _ _ _ _
  · rfl

theorem kerbEnter_rd (s : State) (k : Nat) (f : Field) (hk : k < 2304) (hf : f.pos ≠ Kerb.STATE.pos) : (s.kerbEnter k kEmpty).rd (U.kerb k) f = s.rd (U.kerb k) f := by
  unfold State.kerbEnter
  dsimp only
  split
  · rfl
  · rw [if_pos rfl]
    refine (followStop_rd _ _ ?_ _ _ _ _).trans (State.rd_wr_ne _ _ _ _ _ _ (.inr hf))
    simp only [U.emb, U.kerb]; omega

theorem wrs_bg (s : State) (u : Nat) (l : List (Field × Int)) : (s.wrs u l).bg = s.bg := by
  induction l generalizing s with
  | nil => rfl
  | cons x t ih => exact ih _

theorem wrs_rb_ne (s : State) (u w : Nat) (f : Field) (l : List (Field × Int)) (h : (l.map (·.1.pos)).contains f.pos = false) : (s.wrs u l).rb w f = s.rb w f :=
  congrArg (· != 0) (wrs_rd_ne s u w f l h)

theorem rb_count (s : State) (u j w : Nat) (f : Field) : (s.count u j).rb w f = s.rb w f := rfl

theorem foldl_filter_none (s t : State) (p : BgOp → Bool) (g : State → BgOp → State) (h : s.bg.any p = false) : (s.bg.filter p).foldl g t = t := by
  rw [List.filter_eq_nil_iff.mpr]
  · rfl
  · intro b hb hc
    rw [List.any_eq_false] at h
    exact h b hb hc

theorem ifUp_ok (w : State) (u : Nat) (t : State) (h : w.unitBad u = false) : w.ifUp [u] t = t := by
  simp only [State.ifUp, List.any_cons, List.any_nil, Bool.or_false, h, Bool.false_eq_true, if_false]

theorem foldl_best_none {α : Type} (f : α → Int) (g : Option α → α → Option α) (g1 : ∀ r, g none r = some r) (g2 : ∀ b r, g (some b) r = if f r < f b then some r else some b)
    (l : List α) (a : Option α) : l.foldl g a = none → l = [] ∧ a = none := by
  induction l generalizing a with
  | nil => intro h; exact ⟨rfl, h⟩
  | cons x t ih =>
    intro h
    have := (ih _ h).2
    cases a with
    | none => rw [g1] at this; cases this
    | some b => rw [g2] at this; split at this <;> cases this

theorem foldl_best {α : Type} (f : α → Int) (g : Option α → α → Option α) (g1 : ∀ r, g none r = some r) (g2 : ∀ b r, g (some b) r = if f r < f b then some r else some b)
    (l : List α) (a : Option α) (b : α) (h : l.foldl g a = some b) :
    (b ∈ l ∨ a = some b) ∧ (∀ x ∈ l, f b ≤ f x) ∧ (∀ x, a = some x → f b ≤ f x) := by
  induction l generalizing a with
  | nil => subst h; exact ⟨.inr rfl, by simp, fun x hx => by cases hx; exact le_refl _⟩
  | cons x t ih =>
    obtain ⟨h1, h2, h3⟩ := ih _ h
    cases a with
    | none =>
      rw [g1] at h1 h3
      refine ⟨.inl ?_, ?_, by simp⟩
      · rcases h1 with h1 | h1
        · exact List.mem_cons_of_mem _ h1
        · cases h1; exact List.mem_cons_self
      · intro y hy
        rcases List.mem_cons.mp hy with rfl | hy
        · exact h3 _ rfl
        · exact h2 y hy
    | some c =>
      rw [g2] at h1 h3
      by_cases hc : f x < f c
      · rw [if_pos hc] at h1 h3
        refine ⟨.inl ?_, ?_, ?_⟩
        · rcases h1 with h1 | h1
          · exact List.mem_cons_of_mem _ h1
          · cases h1; exact List.mem_cons_self
        · intro y hy
          rcases List.mem_cons.mp hy with rfl | hy
          · exact h3 _ rfl
          · exact h2 y hy
        · intro y hy; cases hy; have := h3 _ rfl; omega
      · rw [if_neg hc] at h1 h3
        refine ⟨?_, ?_, ?_⟩
        · rcases h1 with h1 | h1
          · exact .inl (List.mem_cons_of_mem _ h1)
          · exact .inr h1
        · intro y hy
          rcases List.mem_cons.mp hy with rfl | hy
          · have := h3 _ rfl; omega
          · exact h2 y hy
        · intro y hy; exact h3 _ hy

theorem flowSecond_ne (a : State) (x v : Nat) (h : v ≠ x) (f : Field) : (State.flowSecond a x).rd v f = a.rd v f := by
  unfold State.flowSecond; exact wrs_unit _ _ _ _ _ h

theorem flowSecond_other (l : List Nat) (a : State) (v : Nat) (h : v ∉ l) (f : Field) : (l.foldl State.flowSecond a).rd v f = a.rd v f := by
  induction l generalizing a with
  | nil => rfl
  | cons x t ih => 
    simp only [List.mem_cons, not_or] at h
    rw [List.foldl_cons, ih _ h.2, flowSecond_ne _ _ _ h.1]

theorem wrs_hit (pre post : List (Field × Int)) (u : Nat) (f : Field) (z : Int) (h : ∀ e ∈ post, f.pos ≠ e.1.pos) :
    ∀ (y : State), (y.wrs u (pre ++ (f, z) :: post)).rd u f = f.norm z := by
  induction pre with
  | nil =>
    intro y
    show ((y.wr u f z).wrs u post).rd u f = _
    rw [State.wrs_ne _ _ _ _ _ h]
    exact State.rd_wr_same _ _ _ _
  | cons e pre ih => intro y; exact ih _

theorem flowSecond_hit (a : State) (x : Nat) : (State.flowSecond a x).rd x Rx.SKEW_MAX = Rx.SKEW_MAX.norm (a.rd x Rx.skewNow) ∧
    (State.flowSecond a x).rd x Rx.LEAD_MAX = Rx.LEAD_MAX.norm (if a.rb x Rx.haveLead then a.rd x Rx.maxNow else 0) ∧ (State.flowSecond a x).rd x Rx.skewNow = 0 := by
  unfold State.flowSecond
  refine ⟨wrs_hit [_, _] _ _ _ _ ?_ _, wrs_hit [_] _ _ _ _ ?_ _, (wrs_hit [_, _, _, _, _, _] _ _ _ _ ?_ _).trans (by decide)⟩
  · simp [Rx.SKEW_MAX, Rx.haveLead, Rx.minNow, Rx.maxNow, Rx.skewNow]
  · simp [Rx.LEAD_MAX, Rx.SKEW_MAX, Rx.haveLead, Rx.minNow, Rx.maxNow, Rx.skewNow]
  · simp

theorem flowSecond_once (l : List Nat) (a : State) (v : Nat) (h : l.count v = 1) : (l.foldl State.flowSecond a).rd v Rx.SKEW_MAX = Rx.SKEW_MAX.norm (a.rd v Rx.skewNow) ∧ 
   (l.foldl State.flowSecond a).rd v Rx.LEAD_MAX = Rx.LEAD_MAX.norm (if a.rb v Rx.haveLead then a.rd v Rx.maxNow else 0) ∧ (l.foldl State.flowSecond a).rd v Rx.skewNow = 0 := by
  induction l generalizing a with
  | nil => simp at h
  | cons x t ih =>
    by_cases hx : x = v
    · subst hx
      have h0 : x ∉ t := by rw [List.count_cons_self] at h; exact List.count_eq_zero.mp (by omega)
      obtain ⟨s1, s2, s3⟩ := flowSecond_hit a x
      rw [List.foldl_cons]
      generalize State.flowSecond a x = y at *
      exact ⟨(flowSecond_other _ _ _ h0 _).trans s1, (flowSecond_other _ _ _ h0 _).trans s2, (flowSecond_other _ _ _ h0 _).trans s3⟩
    · have hc : t.count v = 1 := by rw [List.count_cons_of_ne hx] at h; exact h
      have e : ∀ f, (State.flowSecond a x).rd v f = a.rd v f := fun f => flowSecond_ne _ _ _ (Ne.symm hx) f
      obtain ⟨a1, a2, a3⟩ := ih (State.flowSecond a x) hc
      rw [List.foldl_cons]
      unfold State.rb at a2 ⊢
      generalize List.foldl State.flowSecond (State.flowSecond a x) t = z at *
      rw [e] at a1
      rw [e, e] at a2
      exact ⟨a1, a2, a3⟩

theorem count_units (l : List (Key × Int)) (pos u lo hi : Nat) (h1 : lo ≤ u) (h2 : u < hi) :
    (l.filterMap fun e => if e.1.pos = pos && decide (lo ≤ e.1.unit) && decide (e.1.unit < hi) then some e.1.unit else none).count u =
      (l.filter fun e => e.1.unit == u && e.1.pos == pos).length := by
  induction l with
  | nil => rfl
  | cons e t ih =>
    rw [List.filterMap_cons, List.filter_cons]
    by_cases e1 : e.1.unit = u
    · by_cases e2 : e.1.pos = pos
      · have c : (decide (e.1.pos = pos) && decide (lo ≤ e.1.unit) && decide (e.1.unit < hi)) = true := by simp [e1, e2, h1, h2]
        have d : (e.1.unit == u && e.1.pos == pos) = true := by simp [e1, e2]
        rw [if_pos c, if_pos d, List.length_cons, ← ih, e1, List.count_cons_self]
      · have c : (decide (e.1.pos = pos) && decide (lo ≤ e.1.unit) && decide (e.1.unit < hi)) = false := by simp [e2]
        have d : (e.1.unit == u && e.1.pos == pos) = false := by simp [e2]
        rw [c, d, if_neg (by decide), if_neg (by decide)]
        exact ih
    · have d : (e.1.unit == u && e.1.pos == pos) = false := by simp [e1]
      rw [d, if_neg (by decide : ¬ false = true)]
      split
      · rename_i hq; split at hq
        · cases hq
        · exact ih
      · rename_i y hq; split at hq
        · injection hq with hq; subst hq; rw [List.count_cons_of_ne e1]; exact ih
        · cases hq

theorem units_out (l : List (Key × Int)) (pos u lo hi : Nat) (h : ¬ (lo ≤ u ∧ u < hi)) :
    u ∉ l.filterMap fun e => if e.1.pos = pos && decide (lo ≤ e.1.unit) && decide (e.1.unit < hi) then some e.1.unit else none := by
  intro hm
  obtain ⟨e, he, hq⟩ := List.mem_filterMap.mp hm
  split at hq
  · rename_i hc
    injection hq with hq
    subst hq
    simp only [Bool.and_eq_true, decide_eq_true_eq] at hc
    exact h ⟨hc.1.2, hc.2⟩
  · cases hq

theorem post_rd (s : State) (u c d : Nat) (v : Nat) (f : Field) (h : v ≠ U.crier ∧ v ≠ U.host ∧ v ≠ U.thread 0) : (s.post u c d).rd v f = s.rd v f :=
  (State.post_same s 0 u c d).1 v f h.2.2 h.1 h.2.1

theorem tx_unit_ne (c : Nat) (hc : c < 8192) : U.tx c ≠ U.crier ∧ U.tx c ≠ U.host ∧ U.tx c ≠ U.thread 0 := by
  simp only [U.tx, U.crier, U.host, U.thread]; omega

def txRest (x : State) (k : Nat) (st : Int) (linked any : Bool) (c : Nat) : State :=
  if linked then (if k = 1 ∨ k = 4 then x.wr (U.tx c) Tx.STATE txRunning else x)
  else if any && k != 4 then (x.wr (U.tx c) Tx.STATE txNoLink).postEntry (U.tx c) 4 k 0 0 else x

theorem txRest_rd (x : State) (k st l a c) (hc : c < 8192) (f : Field) (hf : f.pos ≠ Tx.STATE.pos) : (txRest x k st l a c).rd (U.tx c) f = x.rd (U.tx c) f := by
  unfold txRest
  split
  · split
    · exact State.rd_wr_ne _ _ _ _ _ _ (.inr hf)
    · rfl
  · split
    · exact (post_rd _ _ _ _ _ _ (tx_unit_ne c hc)).trans (State.rd_wr_ne _ _ _ _ _ _ (.inr hf))
    · rfl

/-- What sending a packet leaves in its context. -/
theorem txSend_facts (s : State) (c : Nat) (p : RtpOut) (hc : c < 8192) :
    (s.txSend c p).rd (U.tx c) Tx.EXT_SEQ = Tx.EXT_SEQ.norm p.seq ∧ (s.txSend c p).rd (U.tx c) Tx.LAST_TS = Tx.LAST_TS.norm p.ts ∧
    ∀ f : Field, f.pos ≠ Tx.STATE.pos → f.pos ≠ Tx.EXT_SEQ.pos → f.pos ≠ Tx.LAST_TS.pos → f.pos ≠ Tx.LEGS_SENT.pos → f.pos ≠ Tx.sentAny.pos →
      (s.txSend c p).rd (U.tx c) f = s.rd (U.tx c) f := by
  have key : ∀ (x : State) (b : Int) (k : Nat) (l a : Bool), 
    (txRest (x.wrs (U.tx c) [(Tx.LEGS_SENT, b), (Tx.EXT_SEQ, p.seq), (Tx.LAST_TS, p.ts), (Tx.sentAny, 1)]) k 0 l a c).rd (U.tx c) Tx.EXT_SEQ = Tx.EXT_SEQ.norm p.seq ∧
    (txRest (x.wrs (U.tx c) [(Tx.LEGS_SENT, b), (Tx.EXT_SEQ, p.seq), (Tx.LAST_TS, p.ts), (Tx.sentAny, 1)]) k 0 l a c).rd (U.tx c) Tx.LAST_TS = Tx.LAST_TS.norm p.ts ∧
    ∀ f : Field, f.pos ≠ Tx.STATE.pos → f.pos ≠ Tx.EXT_SEQ.pos → f.pos ≠ Tx.LAST_TS.pos → f.pos ≠ Tx.LEGS_SENT.pos → f.pos ≠ Tx.sentAny.pos →
     (txRest (x.wrs (U.tx c) [(Tx.LEGS_SENT, b), (Tx.EXT_SEQ, p.seq), (Tx.LAST_TS, p.ts), (Tx.sentAny, 1)]) k 0 l a c).rd (U.tx c) f = x.rd (U.tx c) f := by
    intro x b k l a
    refine ⟨?_, ?_, ?_⟩
    · rw [txRest_rd _ _ _ _ _ _ hc _ (by decide)]
      exact (State.rd_wr_ne _ _ _ _ _ _ (.inr (by decide))).trans ((State.rd_wr_ne _ _ _ _ _ _ (.inr (by decide))).trans (State.rd_wr_same _ _ _ _))
    · rw [txRest_rd _ _ _ _ _ _ hc _ (by decide)]
      exact (State.rd_wr_ne _ _ _ _ _ _ (.inr (by decide))).trans (State.rd_wr_same _ _ _ _)
    · intro f f1 f2 f3 f4 f5
      rw [txRest_rd _ _ _ _ _ _ hc _ f1]
      exact (State.rd_wr_ne _ _ _ _ _ _ (.inr f5)).trans ((State.rd_wr_ne _ _ _ _ _ _ (.inr f3)).trans ((State.rd_wr_ne _ _ _ _ _ _ (.inr f2)).trans (State.rd_wr_ne _ _ _ _ _ _ (.inr f4))))
  have hone : ∀ (x : State) (on : Bool) (l : Leg) (k : Nat) (f : Field), (if !on then x
    else if s.rb (U.mac l.mac) Mac.LINK then ((x.putPacket l p []).count (U.tx c) (Ctr.Tx.PACKETS_A + k)).countBy (U.tx c) Ctr.Tx.BYTES (frameOctets l p.body.length)
    else x.count (U.tx c) Ctr.Tx.TX_LINK_DROPS).rd (U.tx c) f = x.rd (U.tx c) f := by
    intro x on l k f
    have pp : (x.putPacket l p []).rd (U.tx c) f = x.rd (U.tx c) f := by
      unfold State.putPacket
      dsimp only
      split <;> rfl
    generalize x.putPacket l p [] = y at *
    split
    · rfl
    · split
      · exact pp
      · rfl
  obtain ⟨k1, k2, k3⟩ := key _ _ _ _ _
  refine ⟨k1, k2, ?_⟩
  intro f f1 f2 f3 f4 f5
  refine (k3 f f1 f2 f3 f4 f5).trans ((hone _ _ _ _ _).trans (hone _ _ _ _ _))

theorem idle_fold (c : Nat) (hc : c < 8192) (l : List Nat) (g : State → Nat → State) (hg : ∀ (a : State) v, g a v =
      (if a.rn (U.tx v) Tx.TYPE = 2 ∨ a.rn (U.tx v) Tx.TYPE = 3 then a.wr (U.tx v) Tx.silent 1
      else if a.rn (U.tx v) Tx.STATE = 0 ∨ a.rn (U.tx v) Tx.STATE = 3 then a
      else [0, 1, 2].foldl (fun (z : State) p => z.setBuf (U.tx v) p []) (((a.wrs (U.tx v) [(Tx.STATE, txIdle), (Tx.live, 0), (Tx.n, 0)]).count (U.tx v) Ctr.Tx.TX_IDLE_ENTRIES).postEntry (U.tx v) 3 (a.rn (U.tx v) Tx.STATE) 0 0)))
    (a : State) (ha : c ∈ l) :
    (a.rn (U.tx c) Tx.TYPE = 2 ∨ a.rn (U.tx c) Tx.TYPE = 3 → (l.foldl g a).rd (U.tx c) Tx.silent = 1) ∧
    (a.rn (U.tx c) Tx.TYPE ≠ 2 → a.rn (U.tx c) Tx.TYPE ≠ 3 → a.rn (U.tx c) Tx.STATE ≠ 0 → (l.foldl g a).rd (U.tx c) Tx.STATE = txIdle) := by
  have idl : ∀ (x : State) v k f, ([0, 1, 2].foldl (fun (z : State) p => z.setBuf (U.tx v) p []) (((x.wrs (U.tx v) [(Tx.STATE, txIdle), (Tx.live, 0), (Tx.n, 0)]).count (U.tx v)
      Ctr.Tx.TX_IDLE_ENTRIES).postEntry (U.tx v) 3 k 0 0)).rd (U.tx c) f = (x.wrs (U.tx v) [(Tx.STATE, txIdle), (Tx.live, 0), (Tx.n, 0)]).rd (U.tx c) f := by
    intro x v k f
    generalize State.wrs _ _ _ = y
    have : ((y.count (U.tx v) Ctr.Tx.TX_IDLE_ENTRIES).postEntry (U.tx v) 3 k 0 0).rd (U.tx c) f = y.rd (U.tx c) f := by
      unfold State.postEntry
      exact post_rd _ _ _ _ _ _ (tx_unit_ne c hc)
    generalize State.postEntry _ _ _ _ _ _ = z at *
    exact this
  have keepT : ∀ (x : State) v, (g x v).rd (U.tx c) Tx.TYPE = x.rd (U.tx c) Tx.TYPE := by
    intro x v
    rw [hg]
    split
    · exact State.rd_wr_ne _ _ _ _ _ _ (.inr (by decide))
    · split
      · rfl
      · rw [idl]; exact State.wrs_ne _ _ _ _ _ (by simp [Tx.STATE, Tx.live, Tx.n, Tx.TYPE])
  have setI : ∀ (x : State), x.rn (U.tx c) Tx.TYPE ≠ 2 → x.rn (U.tx c) Tx.TYPE ≠ 3 → x.rn (U.tx c) Tx.STATE ≠ 0 → (g x c).rd (U.tx c) Tx.STATE = txIdle := by
    intro x h1 h2 h3
    rw [hg, if_neg (by simp [h1, h2])]
    split
    · rename_i h4
      have := h4.resolve_left h3
      unfold State.rn at this
      have e : (3 : Int) = txIdle := rfl
      rw [← e]; omega
    · rw [idl]; exact (wrs_hit [] _ _ _ _ (by simp [Tx.STATE, Tx.live, Tx.n]) _).trans (by decide)
  have keepI : ∀ (x : State) v, v ≠ c → (g x v).rd (U.tx c) Tx.STATE = x.rd (U.tx c) Tx.STATE ∧ (g x v).rd (U.tx c) Tx.silent = x.rd (U.tx c) Tx.silent := by
    intro x v hv
    have hu : U.tx c ≠ U.tx v := by simp only [U.tx]; omega
    have all : ∀ f, (g x v).rd (U.tx c) f = x.rd (U.tx c) f := by
      intro f
      rw [hg]
      split
      · exact State.rd_wr_ne _ _ _ _ _ _ (.inl hu)
      · split
        · rfl
        · rw [idl]; exact wrs_unit _ _ _ _ _ hu
    exact ⟨all _, all _⟩
  have setS : ∀ (x : State), x.rn (U.tx c) Tx.TYPE = 2 ∨ x.rn (U.tx c) Tx.TYPE = 3 → (g x c).rd (U.tx c) Tx.silent = 1 := by
    intro x h
    rw [hg, if_pos h]
    exact (State.rd_wr_same _ _ _ _).trans (by decide)
  have tail : ∀ (l : List Nat) (x : State), (x.rn (U.tx c) Tx.TYPE = 2 ∨ x.rn (U.tx c) Tx.TYPE = 3 → x.rd (U.tx c) Tx.silent = 1 → (l.foldl g x).rd (U.tx c) Tx.silent = 1) ∧
      (x.rn (U.tx c) Tx.TYPE ≠ 2 → x.rn (U.tx c) Tx.TYPE ≠ 3 → x.rd (U.tx c) Tx.STATE = txIdle → (l.foldl g x).rd (U.tx c) Tx.STATE = txIdle) := by
    intro l
    induction l with
    | nil => intro x; exact ⟨fun _ h => h, fun _ _ h => h⟩
    | cons v t ih =>
      intro x
      have kt : (g x v).rn (U.tx c) Tx.TYPE = x.rn (U.tx c) Tx.TYPE := congrArg Int.toNat (keepT x v)
      obtain ⟨i1, i2⟩ := ih (g x v)
      rw [kt] at i1 i2
      refine ⟨fun h e => i1 h ?_, fun h1 h2 e => i2 h1 h2 ?_⟩
      · by_cases hv : v = c
        · subst hv; exact setS _ h
        · exact (keepI x v hv).2.trans e
      · by_cases hv : v = c
        · subst hv; refine setI _ h1 h2 ?_; unfold State.rn; rw [e]; decide
        · exact (keepI x v hv).1.trans e
  induction l generalizing a with
  | nil => cases ha
  | cons v t ih =>
    have kt : (g a v).rn (U.tx c) Tx.TYPE = a.rn (U.tx c) Tx.TYPE := congrArg Int.toNat (keepT a v)
    by_cases hv : v = c
    · subst hv
      obtain ⟨i1, i2⟩ := tail t (g a v)
      rw [kt] at i1 i2
      exact ⟨fun h => i1 h (setS _ h), fun h1 h2 h3 => i2 h1 h2 (setI _ h1 h2 h3)⟩
    · obtain ⟨i1, i2⟩ := ih (g a v) (by simpa [Ne.symm hv] using ha)
      rw [kt] at i1 i2
      refine ⟨i1, fun h1 h2 h3 => i2 h1 h2 ?_⟩
      unfold State.rn at h3 ⊢
      rw [(keepI a v hv).1]; exact h3

theorem barnGet_putWord (m : List Host.Cell) (o a : Nat) (v : Word) (h : a < o ∨ o + 8 ≤ a) : barnGet (barnPutWord m o v) a = barnGet m a := by
  unfold barnPutWord
  have key : ∀ (l : List Nat) (m : List Host.Cell), (∀ i ∈ l, i < 8) → barnGet (l.foldl (fun a i => barnPut a (o + i) (BitVec.ofNat 8 (v.toNat / 2 ^ (8 * i)))) m) a = barnGet m a := by
    intro l
    induction l with
    | nil => intro m _; rfl
    | cons x t ih =>
      intro m hl
      rw [List.foldl_cons, ih _ (fun i hi => hl i (List.mem_cons_of_mem _ hi))]
      have := hl x (List.mem_cons_self ..)
      exact barnGet_put_ne _ _ _ _ (by omega)
  exact key _ _ (by simp)

theorem barnGet_store (s : State) (o a : Nat) (v : Word) (h : a < o ∨ o + 8 ≤ a) : barnGet (s.barnStore o v).barn a = barnGet s.barn a := by
  unfold State.barnStore
  dsimp only
  split
  · rfl
  · exact barnGet_putWord _ _ _ _ h

theorem barnGet_write (s : State) (o a : Nat) (v : Word) (h : a < o ∨ o + 8 ≤ a) : barnGet (s.barnWrite o v).barn a = barnGet s.barn a := by
  unfold State.barnWrite
  split
  · rfl
  · exact barnGet_store _ _ _ _ h

/-- Words stored in the Barn leave every other byte as it was. -/
theorem barnGet_stores (s : State) (o a : Nat) (l : List Word) (h : a < o ∨ o + 8 * l.length ≤ a) : barnGet (s.barnStores o l).barn a = barnGet s.barn a := by
  induction l generalizing s o with
  | nil => rfl
  | cons x t ih =>
    simp only [List.length_cons] at h
    exact (ih _ _ (by omega)).trans (barnGet_store _ _ _ _ (by omega))

/-- Words written to the Barn leave every other byte as it was. -/
theorem barnGet_writes (s : State) (o a : Nat) (l : List Word) (h : a < o ∨ o + 8 * l.length ≤ a) : barnGet (s.barnWrites o l).barn a = barnGet s.barn a := by
  induction l generalizing s o with
  | nil => rfl
  | cons x t ih =>
    simp only [List.length_cons] at h
    exact (ih _ _ (by omega)).trans (barnGet_write _ _ _ _ (by omega))

theorem pictureWords_len (n v : Nat) : (pictureWords n v).length = n := by
  induction n generalizing v with
  | zero => rfl
  | succ n ih => simp [pictureWords, ih]

theorem kept_barn {s t : State} (h : t.kept = s.kept) : t.barn = s.barn := congrArg (fun k => k.2.1) h

theorem closePart_barn (s : State) (pid code : Nat) : (s.closePart pid code).barn = s.barn := kept_barn (State.closePart_kept s pid code)

theorem packBytes_len : ∀ n l, (packBytes n l).length = n := by
  intro n
  induction n with
  | zero => intro l; rfl
  | succ n ih => intro l; simp [packBytes, ih]

theorem tapConfig_barn (s : State) (u : Nat) (b : Int) : (s.tapConfig u b).2.barn = s.barn := by
  unfold State.tapConfig
  dsimp only
  split
  · split
    · rfl
    · dsimp only; split <;> rfl
  · rfl

theorem fold_barn {α : Type} (f : State → α → State) (l : List α) (s : State) (h : ∀ a x, (f a x).barn = a.barn) : (l.foldl f s).barn = s.barn := by
  induction l generalizing s with
  | nil => rfl
  | cons x t ih => exact (ih _).trans (h _ _)

theorem faultAccess_barn (s : State) (u c n : Nat) : (s.faultAccess u c n).barn = s.barn := kept_barn (State.faultAccess_kept s u c n)

theorem two_stores (y : State) (o size a : Nat) (body hdr : List Word) (hb : body.length = (size - 32) / 8) (hh : hdr.length = 4)
    (h : a < o ∨ o + max 32 size ≤ a) : barnGet ((y.barnStores (o + 32) body).barnStores o hdr).barn a = barnGet y.barn a := by
  rw [barnGet_stores _ _ _ _ (by rw [hh]; omega), barnGet_stores _ _ _ _ (by rw [hb]; omega)]

theorem tapStore_get (s x : State) (u : Nat) (vs : List Int) (b : Int) (a : Nat)
    (h : a < pn Tap.tapcfgParams vs Tap.BASE * 4096 + x.rn u Tap.NEXT * s.tapSize vs ∨
      pn Tap.tapcfgParams vs Tap.BASE * 4096 + x.rn u Tap.NEXT * s.tapSize vs + max 32 (s.tapSize vs) ≤ a) :
    barnGet (s.tapStore x u vs b).barn a = barnGet x.barn a :=
  (two_stores _ _ _ a _ _ (packBytes_len _ _) rfl h).trans (congrArg (fun m => barnGet m a) (fold_barn _ _ _ fun _ _ => faultAccess_barn _ _ _ _))

theorem barnPut_fold (bs : List Nat) (m : List Host.Cell) (o a : Nat) (h : a < o ∨ o + bs.length ≤ a) :
    barnGet (bs.foldl (fun (x : List Host.Cell × Nat) b => (barnPut x.1 x.2 (BitVec.ofNat 8 b), x.2 + 1)) (m, o)).1 a = barnGet m a := by
  induction bs generalizing m o with
  | nil => rfl
  | cons b t ih =>
    simp only [List.length_cons] at h
    rw [List.foldl_cons, ih _ _ (by omega)]
    exact barnGet_put_ne _ _ _ _ (by omega)

theorem jtagWords_barn (n : Nat) : ∀ (s : State) (a : Nat), (s.jtagWords a n).2.barn = s.barn := by
  induction n with
  | zero => intro s a; rfl
  | succ n ih =>
    intro s a
    unfold State.jtagWords
    dsimp only
    rw [ih]
    exact kept_barn (State.arcadeRead_kept s _ a)

theorem picture_get (bits : Nat) (rows : List PicLine) (s : State) (o a : Nat) (h : a < o ∨ o + (rows.map fun l => 8 * (2 * l.b.length * bits / 32)).sum ≤ a) :
    barnGet (rows.foldl (fun (x : State × Nat) l => (x.1.barnStores x.2 (pictureWords (2 * l.b.length * bits / 32) (packLine bits l)), x.2 + 8 * (2 * l.b.length * bits / 32))) (s, o)).1.barn a =
      barnGet s.barn a := by
  induction rows generalizing s o with
  | nil => rfl
  | cons r t ih =>
    simp only [List.map_cons, List.sum_cons] at h
    rw [List.foldl_cons, ih _ _ (by omega)]
    exact barnGet_stores _ _ _ _ (by rw [pictureWords_len]; omega)

theorem ringTake_bad (w : State) (m : LinkMsg) (typ least : Nat) (busy : Bool) (f : State → State) (h1 : w.fpRuns = true) (h2 : w.fpUp 1 = true)
   (h : (!goodCrc m || m.typ != typ || decide (m.body.length < least) || bitsAt (m.body.headD 0).toNat 47 38 != 0) = true) : (Host.Outcome.next (w.ringTake m typ least busy f) : Res) = .next (w.fpBad 1 m true) := by
  unfold State.ringTake
  simp only [h1, h2, h, Bool.not_true, Bool.or_self, Bool.false_eq_true, if_false, if_true]

/-- A valid ring message that is new is acknowledged, remembered and acted on. -/
theorem ringTake_new (w : State) (m : LinkMsg) (typ least : Nat) (busy : Bool) (f : State → State) (h1 : w.fpRuns = true) (h2 : w.fpUp 1 = true)
   (h3 : goodCrc m = true) (h4 : m.typ = typ) (h5 : least ≤ m.body.length) (h6 : bitsAt (m.body.headD 0).toNat 47 38 = 0) (hb : busy = false)
   (h7 : ((w.footSend 1 0x7E [BitVec.ofNat 64 m.seq]).buf U.boot 53).contains (m.seq : Int) = false) : 
   w.ringTake m typ least busy f = f (let x := w.footSend 1 0x7E [BitVec.ofNat 64 m.seq]
     x.setBuf U.boot 53 ((x.buf U.boot 53).drop ((x.buf U.boot 53).length - 255) ++ [(m.seq : Int)])) := by
  unfold State.ringTake
  have e : (!goodCrc m || m.typ != typ || decide (m.body.length < least) || bitsAt (m.body.headD 0).toNat 47 38 != 0) = false := by
    rw [h3, h4, h6]; simp; omega
  simp only [h1, h2, e, hb, h7, Bool.not_true, Bool.or_self, Bool.false_eq_true, if_false, if_true]

theorem ringRoute_own (s : State) (m : LinkMsg) (f : State → State) (h : ringOrigin (m.body.headD 0).toNat = s.bootN Boot.NODE) : s.ringRoute m true f = (f s).fpCount 1 Ctr.FpLink.FP_DELIVERED := by
  unfold State.ringRoute
  dsimp only
  rw [if_pos h]; rfl

theorem ringRoute_pass (s : State) (m : LinkMsg) (f : State → State) (h : ¬ ringOrigin (m.body.headD 0).toNat = s.bootN Boot.NODE) (h2 : ringHops (m.body.headD 0).toNat ≠ 0) : 
   s.ringRoute m true f = (s.footSend 2 m.typ (ringWord (ringOrigin (m.body.headD 0).toNat) (ringDest (m.body.headD 0).toNat) (ringHops (m.body.headD 0).toNat - 1) (ringDist (m.body.headD 0).toNat) :: m.body.drop 1)).fpCount 1 Ctr.FpLink.FP_FORWARDED := by
  unfold State.ringRoute
  dsimp only
  rw [if_neg h]
  simp only [Bool.not_true, Bool.false_and, Bool.or_self, Bool.false_eq_true, if_false, if_pos h2]

theorem ringRoute_mine (s : State) (m : LinkMsg) (f : State → State) (h : ¬ ringOrigin (m.body.headD 0).toNat = s.bootN Boot.NODE) (h2 : ringDest (m.body.headD 0).toNat = s.bootN Boot.NODE) : 
   s.ringRoute m false f = (f s).fpCount 1 Ctr.FpLink.FP_DELIVERED := by
  unfold State.ringRoute
  dsimp only
  rw [if_neg h, h2]
  simp

/-- A valid Alley message that is new is acknowledged, remembered and acted on. -/
theorem alleyTake_new (w : State) (m : LinkMsg) (f : State → State) (h0 : w.unitBad U.twin = false) (h1 : goodCrc m = true) (h2 : w.seenMsg m.seq = false) : w.alleyTake m f = f ((w.alleySend 0x7E [BitVec.ofNat 64 m.seq]).setBuf U.twin 53 (((w.alleySend 0x7E [BitVec.ofNat 64 m.seq]).buf U.twin 53).drop (((w.alleySend 0x7E [BitVec.ofNat 64 m.seq]).buf U.twin 53).length - 255) ++ [(m.seq : Int)])) := by
  unfold State.alleyTake
  simp [h0, h1, h2]

theorem alley_bad (w : State) (m : LinkMsg) (f : State → State) (h0 : w.unitBad U.twin = false) (h1 : goodCrc m = false) :
   w.alleyTake m f = (w.countLimited U.twin Ctr.Twin.ALLEY_RETRANSMITS 0 0).alleySend 0x7F [BitVec.ofNat 64 m.seq] := by
  unfold State.alleyTake
  simp [h0, h1]

theorem alley_again (w : State) (m : LinkMsg) (f : State → State) (h0 : w.unitBad U.twin = false) (h1 : goodCrc m = true) (h2 : w.seenMsg m.seq = true) :
   w.alleyTake m f = w.alleySend 0x7E [BitVec.ofNat 64 m.seq] := by
  unfold State.alleyTake
  simp [h0, h1, h2]

theorem onThreads_none (s : State) (f : State → State) (h : s.shadow = none) : s.onThreads false f = f s := by
  unfold State.onThreads
  rw [h]

end Sys2Proof.Laws
end

