-- ==== Sys2Proof/Laws/PerInstr.lean ====
section
/-!
SUPPORT. Per-command laws. `issues`: what a well-formed command issues names a thread that exists (R77), and carries no more parameter
words than NPW counts (Table 16.1). An event issues nothing.
-/
namespace Sys2Proof.Laws.issues
open Sys2Proof Sys2Proof.Machine

/-- What a well-formed command issues, it issues on one of the 64 threads, with fewer than 4,096 parameter words. -/
def Statement (c : Instr) : Prop :=
  c.wf = true → ∀ i use f, judged c = some (i, use, f) → i.th < 64 ∧ i.params.length < 4096

theorem of_issue {it i : Issue} {u use : Use} {g f : State → Judged} (h : issueOk it = true) (hj : some (it, u, g) = some (i, use, f)) :
    i.th < 64 ∧ i.params.length < 4096 := by
  simp only [Option.some.injEq, Prod.mk.injEq] at hj
  obtain ⟨rfl, -⟩ := hj
  simpa [issueOk, threadOk] using h

theorem of_event {α : Type} {x : α} {p : Prop} (h : none = some x) : p := nomatch h

theorem nop (i : Issue) : Statement (.nop i) := fun h _ _ _ hj => of_issue h hj
theorem halt (i : Issue) : Statement (.halt i) := fun h _ _ _ hj => of_issue h hj
theorem br (i : Issue) : Statement (.br i) := fun h _ _ _ hj => of_issue h hj
theorem bp (i : Issue) : Statement (.bp i) := fun h _ _ _ hj => of_issue h hj
theorem call (i : Issue) : Statement (.call i) := fun h _ _ _ hj => of_issue h hj
theorem ret (i : Issue) : Statement (.ret i) := fun h _ _ _ hj => of_issue h hj
theorem salvo (i : Issue) : Statement (.salvo i) := fun h _ _ _ hj => of_issue h hj
theorem endsalvo (i : Issue) : Statement (.endsalvo i) := fun h _ _ _ hj => of_issue h hj
theorem waittick (i : Issue) : Statement (.waittick i) := fun h _ _ _ hj => of_issue h hj
theorem waittime (i : Issue) : Statement (.waittime i) := fun h _ _ _ hj => of_issue h hj
theorem waitcapt (i : Issue) : Statement (.waitcapt i) := fun h _ _ _ hj => of_issue h hj
theorem target (i : Issue) : Statement (.target i) := fun h _ _ _ hj => of_issue h hj
theorem sync (i : Issue) : Statement (.sync i) := fun h _ _ _ hj => of_issue h hj
theorem li (i : Issue) : Statement (.li i) := fun h _ _ _ hj => of_issue h hj
theorem mov (i : Issue) : Statement (.mov i) := fun h _ _ _ hj => of_issue h hj
theorem add (i : Issue) : Statement (.add i) := fun h _ _ _ hj => of_issue h hj
theorem sub (i : Issue) : Statement (.sub i) := fun h _ _ _ hj => of_issue h hj
theorem andOp (i : Issue) : Statement (.andOp i) := fun h _ _ _ hj => of_issue h hj
theorem orOp (i : Issue) : Statement (.orOp i) := fun h _ _ _ hj => of_issue h hj
theorem xorOp (i : Issue) : Statement (.xorOp i) := fun h _ _ _ hj => of_issue h hj
theorem shl (i : Issue) : Statement (.shl i) := fun h _ _ _ hj => of_issue h hj
theorem shr (i : Issue) : Statement (.shr i) := fun h _ _ _ hj => of_issue h hj
theorem cmp (i : Issue) : Statement (.cmp i) := fun h _ _ _ hj => of_issue h hj
theorem bit (i : Issue) : Statement (.bit i) := fun h _ _ _ hj => of_issue h hj
theorem pset (i : Issue) : Statement (.pset i) := fun h _ _ _ hj => of_issue h hj
theorem take (i : Issue) : Statement (.take i) := fun h _ _ _ hj => of_issue h hj
theorem taker (i : Issue) : Statement (.taker i) := fun h _ _ _ hj => of_issue h hj
theorem btake (i : Issue) : Statement (.btake i) := fun h _ _ _ hj => of_issue h hj
theorem lock (i : Issue) : Statement (.lock i) := fun h _ _ _ hj => of_issue h hj
theorem protect (i : Issue) : Statement (.protect i) := fun h _ _ _ hj => of_issue h hj
theorem unlock (i : Issue) : Statement (.unlock i) := fun h _ _ _ hj => of_issue h hj
theorem sheafset (i : Issue) : Statement (.sheafset i) := fun h _ _ _ hj => of_issue h hj
theorem sheafadd (i : Issue) : Statement (.sheafadd i) := fun h _ _ _ hj => of_issue h hj
theorem sheafclr (i : Issue) : Statement (.sheafclr i) := fun h _ _ _ hj => of_issue h hj
theorem loudreset (i : Issue) : Statement (.loudreset i) := fun h _ _ _ hj => of_issue h hj
theorem headset (i : Issue) : Statement (.headset i) := fun h _ _ _ hj => of_issue h hj
theorem layerset (i : Issue) : Statement (.layerset i) := fun h _ _ _ hj => of_issue h hj
theorem headcommit (i : Issue) : Statement (.headcommit i) := fun h _ _ _ hj => of_issue h hj
theorem grancfg (i : Issue) : Statement (.grancfg i) := fun h _ _ _ hj => of_issue h hj
theorem subcfg (i : Issue) : Statement (.subcfg i) := fun h _ _ _ hj => of_issue h hj
theorem plancfg (i : Issue) : Statement (.plancfg i) := fun h _ _ _ hj => of_issue h hj
theorem cellcfg (i : Issue) : Statement (.cellcfg i) := fun h _ _ _ hj => of_issue h hj
theorem kerbcfg (i : Issue) : Statement (.kerbcfg i) := fun h _ _ _ hj => of_issue h hj
theorem bundlecfg (i : Issue) : Statement (.bundlecfg i) := fun h _ _ _ hj => of_issue h hj
theorem signcfg (i : Issue) : Statement (.signcfg i) := fun h _ _ _ hj => of_issue h hj
theorem watchcfg (i : Issue) : Statement (.watchcfg i) := fun h _ _ _ hj => of_issue h hj
theorem retcfg (i : Issue) : Statement (.retcfg i) := fun h _ _ _ hj => of_issue h hj
theorem tribcfg (i : Issue) : Statement (.tribcfg i) := fun h _ _ _ hj => of_issue h hj
theorem pllcfg (i : Issue) : Statement (.pllcfg i) := fun h _ _ _ hj => of_issue h hj
theorem lanecfg (i : Issue) : Statement (.lanecfg i) := fun h _ _ _ hj => of_issue h hj
theorem laneeq (i : Issue) : Statement (.laneeq i) := fun h _ _ _ hj => of_issue h hj
theorem lanetrain (i : Issue) : Statement (.lanetrain i) := fun h _ _ _ hj => of_issue h hj
theorem lanepwr (i : Issue) : Statement (.lanepwr i) := fun h _ _ _ hj => of_issue h hj
theorem lanetest (i : Issue) : Statement (.lanetest i) := fun h _ _ _ hj => of_issue h hj
theorem maccfg (i : Issue) : Statement (.maccfg i) := fun h _ _ _ hj => of_issue h hj
theorem slotcfg (i : Issue) : Statement (.slotcfg i) := fun h _ _ _ hj => of_issue h hj
theorem rampcfg (i : Issue) : Statement (.rampcfg i) := fun h _ _ _ hj => of_issue h hj
theorem deembcfg (i : Issue) : Statement (.deembcfg i) := fun h _ _ _ hj => of_issue h hj
theorem tonecfg (i : Issue) : Statement (.tonecfg i) := fun h _ _ _ hj => of_issue h hj
theorem afvcfg (i : Issue) : Statement (.afvcfg i) := fun h _ _ _ hj => of_issue h hj
theorem embcfg (i : Issue) : Statement (.embcfg i) := fun h _ _ _ hj => of_issue h hj
theorem limcfg (i : Issue) : Statement (.limcfg i) := fun h _ _ _ hj => of_issue h hj
theorem compcfg (i : Issue) : Statement (.compcfg i) := fun h _ _ _ hj => of_issue h hj
theorem delaycfg (i : Issue) : Statement (.delaycfg i) := fun h _ _ _ hj => of_issue h hj
theorem cscfg (i : Issue) : Statement (.cscfg i) := fun h _ _ _ hj => of_issue h hj
theorem detcfg (i : Issue) : Statement (.detcfg i) := fun h _ _ _ hj => of_issue h hj
theorem detassign (i : Issue) : Statement (.detassign i) := fun h _ _ _ hj => of_issue h hj
theorem loudcfg (i : Issue) : Statement (.loudcfg i) := fun h _ _ _ hj => of_issue h hj
theorem corrcfg (i : Issue) : Statement (.corrcfg i) := fun h _ _ _ hj => of_issue h hj
theorem stookcfg (i : Issue) : Statement (.stookcfg i) := fun h _ _ _ hj => of_issue h hj
theorem asrccfg (i : Issue) : Statement (.asrccfg i) := fun h _ _ _ hj => of_issue h hj
theorem tapcfg (i : Issue) : Statement (.tapcfg i) := fun h _ _ _ hj => of_issue h hj
theorem towercand (i : Issue) : Statement (.towercand i) := fun h _ _ _ hj => of_issue h hj
theorem towertable (i : Issue) : Statement (.towertable i) := fun h _ _ _ hj => of_issue h hj
theorem towercfg (i : Issue) : Statement (.towercfg i) := fun h _ _ _ hj => of_issue h hj
theorem freqTrim (i : Issue) : Statement (.freqTrim i) := fun h _ _ _ hj => of_issue h hj
theorem phaseStep (i : Issue) : Statement (.phaseStep i) := fun h _ _ _ hj => of_issue h hj
theorem seconds (i : Issue) : Statement (.seconds i) := fun h _ _ _ hj => of_issue h hj
theorem clkoutcfg (i : Issue) : Statement (.clkoutcfg i) := fun h _ _ _ hj => of_issue h hj
theorem ptpport (i : Issue) : Statement (.ptpport i) := fun h _ _ _ hj => of_issue h hj
theorem ptpcfg (i : Issue) : Statement (.ptpcfg i) := fun h _ _ _ hj => of_issue h hj
theorem tccfg (i : Issue) : Statement (.tccfg i) := fun h _ _ _ hj => of_issue h hj
theorem captcfg (i : Issue) : Statement (.captcfg i) := fun h _ _ _ hj => of_issue h hj
theorem ttcfg (i : Issue) : Statement (.ttcfg i) := fun h _ _ _ hj => of_issue h hj
theorem twincfg (i : Issue) : Statement (.twincfg i) := fun h _ _ _ hj => of_issue h hj
theorem ttset (i : Issue) : Statement (.ttset i) := fun h _ _ _ hj => of_issue h hj
theorem rxflow (i : Issue) : Statement (.rxflow i) := fun h _ _ _ hj => of_issue h hj
theorem txflow (i : Issue) : Statement (.txflow i) := fun h _ _ _ hj => of_issue h hj
theorem fwdcfg (i : Issue) : Statement (.fwdcfg i) := fun h _ _ _ hj => of_issue h hj
theorem clsadd (i : Issue) : Statement (.clsadd i) := fun h _ _ _ hj => of_issue h hj
theorem clsdel (i : Issue) : Statement (.clsdel i) := fun h _ _ _ hj => of_issue h hj
theorem clswild (i : Issue) : Statement (.clswild i) := fun h _ _ _ hj => of_issue h hj
theorem ldload (i : Issue) : Statement (.ldload i) := fun h _ _ _ hj => of_issue h hj
theorem barnwr (i : Issue) : Statement (.barnwr i) := fun h _ _ _ hj => of_issue h hj
theorem lutload (i : Issue) : Statement (.lutload i) := fun h _ _ _ hj => of_issue h hj
theorem rd (i : Issue) : Statement (.rd i) := fun h _ _ _ hj => of_issue h hj
theorem rdind (i : Issue) : Statement (.rdind i) := fun h _ _ _ hj => of_issue h hj
theorem rdtime (i : Issue) : Statement (.rdtime i) := fun h _ _ _ hj => of_issue h hj
theorem harvest (i : Issue) : Statement (.harvest i) := fun h _ _ _ hj => of_issue h hj
theorem twinswitch (i : Issue) : Statement (.twinswitch i) := fun h _ _ _ hj => of_issue h hj
theorem twinmark (i : Issue) : Statement (.twinmark i) := fun h _ _ _ hj => of_issue h hj
theorem clearUnreplicated (i : Issue) : Statement (.clearUnreplicated i) := fun h _ _ _ hj => of_issue h hj
theorem imgload (i : Issue) : Statement (.imgload i) := fun h _ _ _ hj => of_issue h hj
theorem imgloadSettings (i : Issue) : Statement (.imgloadSettings i) := fun h _ _ _ hj => of_issue h hj
theorem imgactivate (i : Issue) (recoveryN : Bool) (pMin pMax : Nat) (env : BootEnv) : Statement (.imgactivate i recoveryN pMin pMax env) := fun h _ _ _ hj => of_issue h hj
theorem confirm (i : Issue) : Statement (.confirm i) := fun h _ _ _ hj => of_issue h hj
theorem advance (i : Issue) : Statement (.advance i) := fun h _ _ _ hj => of_issue h hj
theorem configure (i : Issue) : Statement (.configure i) := fun h _ _ _ hj => of_issue h hj
theorem start (i : Issue) : Statement (.start i) := fun h _ _ _ hj => of_issue h hj
theorem thrstop (i : Issue) : Statement (.thrstop i) := fun h _ _ _ hj => of_issue h hj
theorem unitcfg (i : Issue) : Statement (.unitcfg i) := fun h _ _ _ hj => of_issue h hj
theorem errand (dt queue : Nat) (bytes : List Byte) (bad : Option Nat) : Statement (.errand dt queue bytes bad) := fun _ _ _ _ hj => of_event hj
theorem errandPartner (dt : Nat) (bytes : List Byte) (bad : Option Nat) : Statement (.errandPartner dt bytes bad) := fun _ _ _ _ hj => of_event hj
theorem setaddr (dt : Nat) (bytes : List Byte) (bad : Option Nat) : Statement (.setaddr dt bytes bad) := fun _ _ _ _ hj => of_event hj
theorem regwr (dt : Nat) (bytes : List Byte) (bad : Option Nat) : Statement (.regwr dt bytes bad) := fun _ _ _ _ hj => of_event hj
theorem read (dt n : Nat) (hdr : Bool) : Statement (.read dt n hdr) := fun _ _ _ _ hj => of_event hj
theorem readPtr (dt : Nat) (w : Word) : Statement (.readPtr dt w) := fun _ _ _ _ hj => of_event hj
theorem replyRdPtr (dt queue : Nat) (w : Word) : Statement (.replyRdPtr dt queue w) := fun _ _ _ _ hj => of_event hj
theorem ibiMask (dt : Nat) (w : Word) : Statement (.ibiMask dt w) := fun _ _ _ _ hj => of_event hj
theorem ioSlew (dt : Nat) (w : Word) : Statement (.ioSlew dt w) := fun _ _ _ _ hj => of_event hj
theorem enec (dt : Nat) (events : Byte) : Statement (.enec dt events) := fun _ _ _ _ hj => of_event hj
theorem disec (dt : Nat) (events : Byte) : Statement (.disec dt events) := fun _ _ _ _ hj => of_event hj
theorem rstdaa (dt : Nat) : Statement (.rstdaa dt) := fun _ _ _ _ hj => of_event hj
theorem entdaa (dt addr : Nat) : Statement (.entdaa dt addr) := fun _ _ _ _ hj => of_event hj
theorem setmwl (dt v : Nat) : Statement (.setmwl dt v) := fun _ _ _ _ hj => of_event hj
theorem setmrl (dt v : Nat) : Statement (.setmrl dt v) := fun _ _ _ _ hj => of_event hj
theorem enthdr0 (dt : Nat) : Statement (.enthdr0 dt) := fun _ _ _ _ hj => of_event hj
theorem rstact (dt action : Nat) (get : Bool) : Statement (.rstact dt action get) := fun _ _ _ _ hj => of_event hj
theorem setdasa (dt addr : Nat) : Statement (.setdasa dt addr) := fun _ _ _ _ hj => of_event hj
theorem setnewda (dt addr : Nat) : Statement (.setnewda dt addr) := fun _ _ _ _ hj => of_event hj
theorem getmwl (dt : Nat) : Statement (.getmwl dt) := fun _ _ _ _ hj => of_event hj
theorem getmrl (dt : Nat) : Statement (.getmrl dt) := fun _ _ _ _ hj => of_event hj
theorem getpid (dt : Nat) : Statement (.getpid dt) := fun _ _ _ _ hj => of_event hj
theorem getbcr (dt : Nat) : Statement (.getbcr dt) := fun _ _ _ _ hj => of_event hj
theorem getdcr (dt : Nat) : Statement (.getdcr dt) := fun _ _ _ _ hj => of_event hj
theorem getstatus (dt : Nat) : Statement (.getstatus dt) := fun _ _ _ _ hj => of_event hj
theorem getmxds (dt : Nat) : Statement (.getmxds dt) := fun _ _ _ _ hj => of_event hj
theorem getcaps (dt : Nat) : Statement (.getcaps dt) := fun _ _ _ _ hj => of_event hj
theorem cccUnsupported (dt code : Nat) (directed : Bool) : Statement (.cccUnsupported dt code directed) := fun _ _ _ _ hj => of_event hj
theorem hdrExitPattern (dt : Nat) : Statement (.hdrExitPattern dt) := fun _ _ _ _ hj => of_event hj
theorem targetResetPattern (dt beats : Nat) : Statement (.targetResetPattern dt beats) := fun _ _ _ _ hj => of_event hj
theorem ibiRequest (dt : Nat) (ack : Bool) : Statement (.ibiRequest dt ack) := fun _ _ _ _ hj => of_event hj
theorem crierRepeatInterrupt (dt : Nat) : Statement (.crierRepeatInterrupt dt) := fun _ _ _ _ hj => of_event hj
theorem replyRepost (dt queue : Nat) : Statement (.replyRepost dt queue) := fun _ _ _ _ hj => of_event hj
theorem errandExecutionStart (dt queue : Nat) : Statement (.errandExecutionStart dt queue) := fun _ _ _ _ hj => of_event hj
theorem finalReply (dt queue : Nat) : Statement (.finalReply dt queue) := fun _ _ _ _ hj => of_event hj
theorem threadFault (dt th : Nat) : Statement (.threadFault dt th) := fun _ _ _ _ hj => of_event hj
theorem unitFault (dt unit cause : Nat) : Statement (.unitFault dt unit cause) := fun _ _ _ _ hj => of_event hj
theorem curfewResolution (dt plan : Nat) : Statement (.curfewResolution dt plan) := fun _ _ _ _ hj => of_event hj
theorem tick (dt plan : Nat) : Statement (.tick dt plan) := fun _ _ _ _ hj => of_event hj
theorem tickWaitResume (dt th : Nat) : Statement (.tickWaitResume dt th) := fun _ _ _ _ hj => of_event hj
theorem timeWaitResume (dt th : Nat) : Statement (.timeWaitResume dt th) := fun _ _ _ _ hj => of_event hj
theorem captWaitResume (dt th : Nat) : Statement (.captWaitResume dt th) := fun _ _ _ _ hj => of_event hj
theorem syncResume (dt th : Nat) : Statement (.syncResume dt th) := fun _ _ _ _ hj => of_event hj
theorem targetHoldRelease (dt th : Nat) : Statement (.targetHoldRelease dt th) := fun _ _ _ _ hj => of_event hj
theorem planSlewComplete (dt plan : Nat) : Statement (.planSlewComplete dt plan) := fun _ _ _ _ hj => of_event hj
theorem followCommit (dt seat stream : Nat) : Statement (.followCommit dt seat stream) := fun _ _ _ _ hj => of_event hj
theorem followTimeout (dt seat stream : Nat) : Statement (.followTimeout dt seat stream) := fun _ _ _ _ hj => of_event hj
theorem kerbEavArrival (dt kerb line : Nat) (edhBad : Bool) : Statement (.kerbEavArrival dt kerb line edhBad) := fun _ _ _ _ hj => of_event hj
theorem kerbAlign (dt kerb : Nat) : Statement (.kerbAlign dt kerb) := fun _ _ _ _ hj => of_event hj
theorem kerbLossTimeout (dt kerb : Nat) : Statement (.kerbLossTimeout dt kerb) := fun _ _ _ _ hj => of_event hj
theorem cellLossEntry (dt seat : Nat) : Statement (.cellLossEntry dt seat) := fun _ _ _ _ hj => of_event hj
theorem cellLossReturn (dt seat : Nat) : Statement (.cellLossReturn dt seat) := fun _ _ _ _ hj => of_event hj
theorem cellLineOut (dt seat : Nat) (l : LineOut) : Statement (.cellLineOut dt seat l) := fun _ _ _ _ hj => of_event hj
theorem txSquelch (dt seat : Nat) : Statement (.txSquelch dt seat) := fun _ _ _ _ hj => of_event hj
theorem haywainCodewordRx (dt lane : Nat) (c : CodewordIn) : Statement (.haywainCodewordRx dt lane c) := fun _ _ _ _ hj => of_event hj
theorem haywainFrameTx (dt lane : Nat) : Statement (.haywainFrameTx dt lane) := fun _ _ _ _ hj => of_event hj
theorem sdiTrsRx (dt lane : Nat) (levels : List Nat) : Statement (.sdiTrsRx dt lane levels) := fun _ _ _ _ hj => of_event hj
theorem rateDeviation (dt trib : Nat) : Statement (.rateDeviation dt trib) := fun _ _ _ _ hj => of_event hj
theorem laneLos (dt lane : Nat) (bps : Option Nat) : Statement (.laneLos dt lane bps) := fun _ _ _ _ hj => of_event hj
theorem cdrLoss (dt lane : Nat) (lost : Bool) : Statement (.cdrLoss dt lane lost) := fun _ _ _ _ hj => of_event hj
theorem degrade (dt lane : Nat) (on : Bool) : Statement (.degrade dt lane on) := fun _ _ _ _ hj => of_event hj
theorem pllLoss (dt avenue pll : Nat) : Statement (.pllLoss dt avenue pll) := fun _ _ _ _ hj => of_event hj
theorem pllLock (dt avenue pll : Nat) : Statement (.pllLock dt avenue pll) := fun _ _ _ _ hj => of_event hj
theorem trainingDone (dt lane : Nat) (ok : Bool) (ffe : BitVec 31) (ctle : BitVec 6) (snr : BitVec 10) : Statement (.trainingDone dt lane ok ffe ctle snr) := fun _ _ _ _ hj => of_event hj
theorem retrainTimer (dt lane : Nat) : Statement (.retrainTimer dt lane) := fun _ _ _ _ hj => of_event hj
theorem laneWakeDone (dt lane side : Nat) : Statement (.laneWakeDone dt lane side) := fun _ _ _ _ hj => of_event hj
theorem prbsLock (dt lane : Nat) (levels : List Nat) : Statement (.prbsLock dt lane levels) := fun _ _ _ _ hj => of_event hj
theorem errorInject (dt lane : Nat) : Statement (.errorInject dt lane) := fun _ _ _ _ hj => of_event hj
theorem macFrameRx (dt mac : Nat) (fcsOk : Bool) (frame : List Byte) (taken : Nat) : Statement (.macFrameRx dt mac fcsOk frame taken) := fun _ _ _ _ hj => of_event hj
theorem fwdForcedCut (dt out : Nat) : Statement (.fwdForcedCut dt out) := fun _ _ _ _ hj => of_event hj
theorem fwdInputLoss (dt out : Nat) : Statement (.fwdInputLoss dt out) := fun _ _ _ _ hj => of_event hj
theorem lineRelease (dt ctx : Nat) : Statement (.lineRelease dt ctx) := fun _ _ _ _ hj => of_event hj
theorem datagramRelease (dt ctx : Nat) : Statement (.datagramRelease dt ctx) := fun _ _ _ _ hj => of_event hj
theorem audioFlowRelease (dt ctx : Nat) : Statement (.audioFlowRelease dt ctx) := fun _ _ _ _ hj => of_event hj
theorem flowLost (dt ctx : Nat) : Statement (.flowLost dt ctx) := fun _ _ _ _ hj => of_event hj
theorem legDown (dt ctx leg : Nat) : Statement (.legDown dt ctx leg) := fun _ _ _ _ hj => of_event hj
theorem ssrcRelatch (dt ctx : Nat) : Statement (.ssrcRelatch dt ctx) := fun _ _ _ _ hj => of_event hj
theorem packetDeparture (dt ctx : Nat) : Statement (.packetDeparture dt ctx) := fun _ _ _ _ hj => of_event hj
theorem audioPacketDeparture (dt ctx : Nat) : Statement (.audioPacketDeparture dt ctx) := fun _ _ _ _ hj => of_event hj
theorem ancPacketDeparture (dt ctx : Nat) : Statement (.ancPacketDeparture dt ctx) := fun _ _ _ _ hj => of_event hj
theorem datagramDeparture (dt ctx : Nat) : Statement (.datagramDeparture dt ctx) := fun _ _ _ _ hj => of_event hj
theorem txIdle (dt seat : Nat) : Statement (.txIdle dt seat) := fun _ _ _ _ hj => of_event hj
theorem mcastQueryRx (dt mac : Nat) (q : QueryIn) : Statement (.mcastQueryRx dt mac q) := fun _ _ _ _ hj => of_event hj
theorem mcastReport (dt mac : Nat) : Statement (.mcastReport dt mac) := fun _ _ _ _ hj => of_event hj
theorem mcastCompatExpiry (dt mac : Nat) (v6 : Bool) : Statement (.mcastCompatExpiry dt mac v6) := fun _ _ _ _ hj => of_event hj
theorem ptpSyncRx (dt mac : Nat) (p : PtpIn) : Statement (.ptpSyncRx dt mac p) := fun _ _ _ _ hj => of_event hj
theorem ptpFollowUpRx (dt mac : Nat) (p : PtpIn) : Statement (.ptpFollowUpRx dt mac p) := fun _ _ _ _ hj => of_event hj
theorem ptpDelayRespRx (dt mac : Nat) (p : PtpIn) : Statement (.ptpDelayRespRx dt mac p) := fun _ _ _ _ hj => of_event hj
theorem ptpAnnounceRx (dt mac : Nat) (p : PtpIn) : Statement (.ptpAnnounceRx dt mac p) := fun _ _ _ _ hj => of_event hj
theorem pdelayReqRx (dt mac : Nat) (p : PtpIn) : Statement (.pdelayReqRx dt mac p) := fun _ _ _ _ hj => of_event hj
theorem pdelayRespRx (dt mac : Nat) (p : PtpIn) : Statement (.pdelayRespRx dt mac p) := fun _ _ _ _ hj => of_event hj
theorem delayReqSend (dt kind n : Nat) : Statement (.delayReqSend dt kind n) := fun _ _ _ _ hj => of_event hj
theorem announceTimeout (dt inst : Nat) : Statement (.announceTimeout dt inst) := fun _ _ _ _ hj => of_event hj
theorem refMarker (dt cand : Nat) : Statement (.refMarker dt cand) := fun _ _ _ _ hj => of_event hj
theorem freqWindow (dt : Nat) : Statement (.freqWindow dt) := fun _ _ _ _ hj => of_event hj
theorem candQualified (dt cand : Nat) : Statement (.candQualified dt cand) := fun _ _ _ _ hj => of_event hj
theorem candMissing (dt cand : Nat) : Statement (.candMissing dt cand) := fun _ _ _ _ hj => of_event hj
theorem wtrExpiry (dt : Nat) : Statement (.wtrExpiry dt) := fun _ _ _ _ hj => of_event hj
theorem towerInLock (dt : Nat) : Statement (.towerInLock dt) := fun _ _ _ _ hj => of_event hj
theorem towerReacquire (dt : Nat) : Statement (.towerReacquire dt) := fun _ _ _ _ hj => of_event hj
theorem loscFailure (dt : Nat) (synth : Bool) : Statement (.loscFailure dt synth) := fun _ _ _ _ hj => of_event hj
theorem clockStopped (dt domain : Nat) : Statement (.clockStopped dt domain) := fun _ _ _ _ hj => of_event hj
theorem captEdge (dt pin : Nat) (falling : Bool) : Statement (.captEdge dt pin falling) := fun _ _ _ _ hj => of_event hj
theorem takeInEdge (dt : Nat) : Statement (.takeInEdge dt) := fun _ _ _ _ hj => of_event hj
theorem ttEdge (dt out : Nat) : Statement (.ttEdge dt out) := fun _ _ _ _ hj => of_event hj
theorem ttLevelChange (dt out : Nat) : Statement (.ttLevelChange dt out) := fun _ _ _ _ hj => of_event hj
theorem harvestCapture (dt : Nat) : Statement (.harvestCapture dt) := fun _ _ _ _ hj => of_event hj
theorem harvestDone (dt : Nat) : Statement (.harvestDone dt) := fun _ _ _ _ hj => of_event hj
theorem granaryFrameComplete (dt slot sub : Nat) : Statement (.granaryFrameComplete dt slot sub) := fun _ _ _ _ hj => of_event hj
theorem granaryDecision (dt slot sub : Nat) (ue : List Nat) : Statement (.granaryDecision dt slot sub ue) := fun _ _ _ _ hj => of_event hj
theorem granaryInputLoss (dt slot sub : Nat) : Statement (.granaryInputLoss dt slot sub) := fun _ _ _ _ hj => of_event hj
theorem tileComplete (dt scaler : Nat) : Statement (.tileComplete dt scaler) := fun _ _ _ _ hj => of_event hj
theorem headDecision (dt head : Nat) (ue : List (Nat × Nat)) : Statement (.headDecision dt head ue) := fun _ _ _ _ hj => of_event hj
theorem twinDecisionTimeout (dt kind unit : Nat) : Statement (.twinDecisionTimeout dt kind unit) := fun _ _ _ _ hj => of_event hj
theorem decision (dt : Nat) (m : LinkMsg) : Statement (.decision dt m) := fun _ _ _ _ hj => of_event hj
theorem mixBlock (dt : Nat) (ue : List (Nat × Nat)) : Statement (.mixBlock dt ue) := fun _ _ _ _ hj => of_event hj
theorem audioSampleTap (dt seat : Nat) (a : AudioIn) : Statement (.audioSampleTap dt seat a) := fun _ _ _ _ hj => of_event hj
theorem blockPeak (dt space ch : Nat) : Statement (.blockPeak dt space ch) := fun _ _ _ _ hj => of_event hj
theorem dcSecond (dt space ch : Nat) : Statement (.dcSecond dt space ch) := fun _ _ _ _ hj => of_event hj
theorem clippedClear (dt space ch : Nat) : Statement (.clippedClear dt space ch) := fun _ _ _ _ hj => of_event hj
theorem loudnessReport (dt meter : Nat) : Statement (.loudnessReport dt meter) := fun _ _ _ _ hj => of_event hj
theorem correlationReport (dt meter : Nat) : Statement (.correlationReport dt meter) := fun _ _ _ _ hj => of_event hj
theorem tapRecord (dt tap : Nat) : Statement (.tapRecord dt tap) := fun _ _ _ _ hj => of_event hj
theorem stookRxFrame (dt port : Nat) (f : StookIn) : Statement (.stookRxFrame dt port f) := fun _ _ _ _ hj => of_event hj
theorem stookTxFrame (dt port : Nat) : Statement (.stookTxFrame dt port) := fun _ _ _ _ hj => of_event hj
theorem stookStart (dt port side : Nat) : Statement (.stookStart dt port side) := fun _ _ _ _ hj => of_event hj
theorem stookStop (dt port side : Nat) : Statement (.stookStop dt port side) := fun _ _ _ _ hj => of_event hj
theorem stookClockLoss (dt port side : Nat) : Statement (.stookClockLoss dt port side) := fun _ _ _ _ hj => of_event hj
theorem aes3Lock (dt port : Nat) (preambles parity : Bool) : Statement (.aes3Lock dt port preambles parity) := fun _ _ _ _ hj => of_event hj
theorem asrcLock (dt unit : Nat) (lock range : Bool) : Statement (.asrcLock dt unit lock range) := fun _ _ _ _ hj => of_event hj
theorem watchSecond (dt probe : Nat) : Statement (.watchSecond dt probe) := fun _ _ _ _ hj => of_event hj
theorem captureDone (dt probe : Nat) : Statement (.captureDone dt probe) := fun _ _ _ _ hj => of_event hj
theorem ldloadDone (dt th : Nat) : Statement (.ldloadDone dt th) := fun _ _ _ _ hj => of_event hj
theorem barnwrDone (dt th : Nat) : Statement (.barnwrDone dt th) := fun _ _ _ _ hj => of_event hj
theorem lutloadDone (dt slot bank : Nat) : Statement (.lutloadDone dt slot bank) := fun _ _ _ _ hj => of_event hj
theorem imgloadDone (dt th : Nat) (flashOk : Bool) : Statement (.imgloadDone dt th flashOk) := fun _ _ _ _ hj => of_event hj
theorem fuseBlown (dt : Nat) (ok : Bool) : Statement (.fuseBlown dt ok) := fun _ _ _ _ hj => of_event hj
theorem activationLoaded (dt : Nat) (ok : Bool) : Statement (.activationLoaded dt ok) := fun _ _ _ _ hj => of_event hj
theorem activationPrepared (dt : Nat) (ok : Bool) : Statement (.activationPrepared dt ok) := fun _ _ _ _ hj => of_event hj
theorem activationHandover (dt : Nat) : Statement (.activationHandover dt) := fun _ _ _ _ hj => of_event hj
theorem activationResumed (dt : Nat) : Statement (.activationResumed dt) := fun _ _ _ _ hj => of_event hj
theorem activationAbort (dt : Nat) : Statement (.activationAbort dt) := fun _ _ _ _ hj => of_event hj
theorem watchdogExpiry (dt : Nat) : Statement (.watchdogExpiry dt) := fun _ _ _ _ hj => of_event hj
theorem unitWakeDone (dt unit : Nat) : Statement (.unitWakeDone dt unit) := fun _ _ _ _ hj => of_event hj
theorem unitIdleOff (dt unit : Nat) : Statement (.unitIdleOff dt unit) := fun _ _ _ _ hj => of_event hj
theorem selfRefreshEntry (dt chan : Nat) : Statement (.selfRefreshEntry dt chan) := fun _ _ _ _ hj => of_event hj
theorem barnScrub (dt chan offset result : Nat) (last : Bool) : Statement (.barnScrub dt chan offset result last) := fun _ _ _ _ hj => of_event hj
theorem barnChannelFault (dt chan cause : Nat) : Statement (.barnChannelFault dt chan cause) := fun _ _ _ _ hj => of_event hj
theorem heartbeat (dt : Nat) (roleIn : Bool) : Statement (.heartbeat dt roleIn) := fun _ _ _ _ hj => of_event hj
theorem heartbeatRx (dt : Nat) (m : LinkMsg) (late : Nat) (roleIn : Bool) : Statement (.heartbeatRx dt m late roleIn) := fun _ _ _ _ hj => of_event hj
theorem heartbeatMissing (dt : Nat) (roleIn : Bool) : Statement (.heartbeatMissing dt roleIn) := fun _ _ _ _ hj => of_event hj
theorem takeover (dt : Nat) (roleIn : Bool) : Statement (.takeover dt roleIn) := fun _ _ _ _ hj => of_event hj
theorem takeoverHoldEnd (dt : Nat) : Statement (.takeoverHoldEnd dt) := fun _ _ _ _ hj => of_event hj
theorem manifestRx (dt : Nat) (m : LinkMsg) : Statement (.manifestRx dt m) := fun _ _ _ _ hj => of_event hj
theorem manifestOwn (dt plan : Nat) : Statement (.manifestOwn dt plan) := fun _ _ _ _ hj => of_event hj
theorem manifestLate (dt plan : Nat) : Statement (.manifestLate dt plan) := fun _ _ _ _ hj => of_event hj
theorem compareRx (dt : Nat) (m : LinkMsg) : Statement (.compareRx dt m) := fun _ _ _ _ hj => of_event hj
theorem uncompared (dt : Nat) : Statement (.uncompared dt) := fun _ _ _ _ hj => of_event hj
theorem suspect (dt : Nat) (m : LinkMsg) : Statement (.suspect dt m) := fun _ _ _ _ hj => of_event hj
theorem pairSeekTimeout (dt : Nat) (roleIn : Bool) : Statement (.pairSeekTimeout dt roleIn) := fun _ _ _ _ hj => of_event hj
theorem replica (dt : Nat) (m : LinkMsg) : Statement (.replica dt m) := fun _ _ _ _ hj => of_event hj
theorem replicationCaughtUp (dt : Nat) : Statement (.replicationCaughtUp dt) := fun _ _ _ _ hj => of_event hj
theorem stepMsg (dt : Nat) (m : LinkMsg) : Statement (.stepMsg dt m) := fun _ _ _ _ hj => of_event hj
theorem stepCommit (dt : Nat) : Statement (.stepCommit dt) := fun _ _ _ _ hj => of_event hj
theorem replicationTimeout (dt : Nat) : Statement (.replicationTimeout dt) := fun _ _ _ _ hj => of_event hj
theorem alleyErrand (dt : Nat) (m : LinkMsg) : Statement (.alleyErrand dt m) := fun _ _ _ _ hj => of_event hj
theorem alleyReply (dt : Nat) (m : LinkMsg) : Statement (.alleyReply dt m) := fun _ _ _ _ hj => of_event hj
theorem alleyBulk (dt : Nat) (m : LinkMsg) : Statement (.alleyBulk dt m) := fun _ _ _ _ hj => of_event hj
theorem alleyAck (dt : Nat) (m : LinkMsg) : Statement (.alleyAck dt m) := fun _ _ _ _ hj => of_event hj
theorem alleyNak (dt : Nat) (m : LinkMsg) : Statement (.alleyNak dt m) := fun _ _ _ _ hj => of_event hj
theorem alleyDown (dt : Nat) : Statement (.alleyDown dt) := fun _ _ _ _ hj => of_event hj
theorem hello (dt : Nat) : Statement (.hello dt) := fun _ _ _ _ hj => of_event hj
theorem helloRx (dt link : Nat) (m : LinkMsg) : Statement (.helloRx dt link m) := fun _ _ _ _ hj => of_event hj
theorem fpLinkDown (dt link : Nat) : Statement (.fpLinkDown dt link) := fun _ _ _ _ hj => of_event hj
theorem fpHoldDiscard (dt link : Nat) : Statement (.fpHoldDiscard dt link) := fun _ _ _ _ hj => of_event hj
theorem fpErrand (dt : Nat) (m : LinkMsg) : Statement (.fpErrand dt m) := fun _ _ _ _ hj => of_event hj
theorem fpReply (dt : Nat) (m : LinkMsg) : Statement (.fpReply dt m) := fun _ _ _ _ hj => of_event hj
theorem fpBulk (dt : Nat) (m : LinkMsg) : Statement (.fpBulk dt m) := fun _ _ _ _ hj => of_event hj
theorem segment (dt : Nat) (m : LinkMsg) : Statement (.segment dt m) := fun _ _ _ _ hj => of_event hj
theorem reportMsg (dt : Nat) (m : LinkMsg) : Statement (.reportMsg dt m) := fun _ _ _ _ hj => of_event hj
theorem fpAck (dt link : Nat) (m : LinkMsg) : Statement (.fpAck dt link m) := fun _ _ _ _ hj => of_event hj
theorem fpNak (dt link : Nat) (m : LinkMsg) : Statement (.fpNak dt link m) := fun _ _ _ _ hj => of_event hj
theorem resetRelease (dt : Nat) (r : ResetIn) : Statement (.resetRelease dt r) := fun _ _ _ _ hj => of_event hj
theorem pwrgoodFall (dt lowNs : Nat) : Statement (.pwrgoodFall dt lowNs) := fun _ _ _ _ hj => of_event hj
theorem resetAssert (dt lowNs : Nat) : Statement (.resetAssert dt lowNs) := fun _ _ _ _ hj => of_event hj
theorem retransmitTimeout (dt link : Nat) : Statement (.retransmitTimeout dt link) := fun _ _ _ _ hj => of_event hj
theorem telemetrySample (dt : Nat) (mv ma : List Nat) (tj : List Int) : Statement (.telemetrySample dt mv ma tj) := fun _ _ _ _ hj => of_event hj
theorem previousSecondUpdate (dt : Nat) : Statement (.previousSecondUpdate dt) := fun _ _ _ _ hj => of_event hj
theorem unknownCommand (dt : Nat) : Statement (.unknownCommand dt) := fun _ _ _ _ hj => of_event hj
theorem unlistedOpcode (i : Issue) : Statement (.unlistedOpcode i) := fun h _ _ _ hj => of_issue h hj
theorem jtagAccess (dt addr n : Nat) (write : Option Word) : Statement (.jtagAccess dt addr n write) := fun _ _ _ _ hj => of_event hj

end Sys2Proof.Laws.issues
end

