-- ==== Sys2Proof/Tests/Slice0.lean ====
section
/-!
SUPPORT. Tests of this model: ill-formed commands that the checks refuse; instruction words of the spec's worked examples; one step of
a few instructions on small states; and for each statement with hypotheses a state and operands that meet them together (`witness_`).
-/
namespace Sys2Proof.Tests
open Sys2Proof Sys2Proof.Machine
set_option Elab.async false

/-! ### Small states and operands -/

/-- Reset with some register fields written. -/
def from_ (l : List (Nat × Field × Int)) : State := l.foldl (fun s e => s.wr e.1 e.2.1 e.2.2) State.reset

/-- Thread L0 runs a Ledger program; plan TP0 is on. -/
def readyF : List (Nat × Field × Int) := [(U.thread 0, Lamp.STATE, thRunning), (U.plan 0, Plan.STATE, planAligned)]
def ready : State := from_ readyF
/-- The same with further fields written. -/
def ready_ (l : List (Nat × Field × Int)) : State := from_ (readyF ++ l)

/-- The outcome is a next state of which `p` holds. -/
def answers (o : Host.Outcome State Fault Refusal) (p : State → Bool) : Bool :=
  match o with
  | .next t => p t
  | _ => false

/-- An issue of thread L0 from FLAGS, operand bits and parameter words. -/
def mk (flags ops : Nat) (ps : List Word) : Issue := ⟨0, 0, BitVec.ofNat 4 flags, BitVec.ofNat 52 ops, ps⟩
/-- The issue that an instruction word and its parameter words stand for (Table 16.1: FLAGS in [55:52], operands in [51:0]). -/
def ofWord (w : Nat) (ps : List Word) : Issue := mk (bitsAt w 55 52) w ps
def opX (d a b c imm : Nat) : Nat := d * 2 ^ 48 + a * 2 ^ 44 + b * 2 ^ 40 + c * 2 ^ 36 + imm
def opK (index npw sub : Nat) : Nat := index * 2 ^ 36 + npw * 2 ^ 24 + sub
/-- A K-format instruction with packed parameters. -/
def kp (index sub : Nat) (hasSub : Bool) (ps : List Param) (vs : List Int) : Issue :=
  let ws := pack (ps.map (·.fld)) vs
  if !hasSub && decide (totalBits (ps.map (·.fld)) ≤ 24) then mk 0 (opK index 0 (ws.headD 0).toNat) [] else mk 0 (opK index ws.length sub) ws
/-- Parameter values at their resets, or at the least value allowed. -/
def dft (ps : List Param) : List Int := ps.map fun p => if p.fld.reset < p.lo then p.lo else p.fld.reset
/-- The same with the value of one named field. -/
def dftBut (ps : List Param) (f : Field) (x : Int) : List Int := (ps.zip (dft ps)).map fun e => if e.1.fld.pos == f.pos then x else e.2

/-- `State.passes` as a computation. -/
def passesB (s : State) (i : Issue) (use : Use) (f : State → Judged) : Bool :=
  decide (i.th < 64) && (s.shadow.isNone || !s.onCopy || (s.errandOf i.th).any (fun e => e.source != 1)) && s.th i.th Lamp.STATE == thRunning &&
  (match (f (s.facing i use)).verdict with | .stage _ => !(s.after i.dt).mustHold i.th | _ => true) &&
  (firstFail ((f (s.facing i use)).checks ++ commonChecks (s.facing i use) i.th use (f (s.facing i use)))).isNone

theorem passes_of {s : State} {i : Issue} {use : Use} {f : State → Judged} (h : passesB s i use f = true) : s.passes i use f := by
  unfold passesB at h
  simp only [Bool.and_eq_true, decide_eq_true_eq, Bool.or_eq_true, Option.isNone_iff_eq_none, Bool.not_eq_true', beq_iff_eq] at h
  obtain ⟨⟨⟨⟨h1, h2⟩, h3⟩, h4⟩, h5⟩ := h
  refine ⟨h1, ?_, h3, ?_, h5⟩
  · rcases h2 with (h2 | h2) | h2
    · exact .inl h2
    · exact .inr (.inl h2)
    · exact .inr (.inr h2)
  · intro ms hm; rw [hm] at h4; simpa using h4

theorem issue_of {s : State} {i : Issue} {k : Nat} (h : (decide (i.th < 64) && s.shadow.isNone && s.th i.th Lamp.STATE == thRunning &&
    (s.roleBar i.th k).isNone && s.rn U.boot Boot.STAGE != 4) = true) : s.mayIssue i k := by
  simp only [Bool.and_eq_true, decide_eq_true_eq, Option.isNone_iff_eq_none, beq_iff_eq, bne_iff_ne] at h
  exact ⟨h.1.1.1.1, .inl h.1.1.1.2, h.1.1.2, h.1.2, h.2⟩

/-! ### Well-formedness refuses each number out of its range, and takes the largest within -/

def msg (typ : Nat) (body : List Word) : LinkMsg := sealMsg typ 1 body

theorem test_wf_refuses : ([.nop ⟨0, 64, 0, 0, []⟩, .tick 0 16, .kerbAlign 0 2304, .cellLossEntry 0 2688, .followCommit 0 0 8, .haywainFrameTx 0 294,
    .pllLock 0 36 0, .pllLock 0 0 2, .granaryDecision 0 128 0 [], .headDecision 0 16 [], .tileComplete 0 192, .blockPeak 0 0 131072, .blockPeak 0 2 0, .tapRecord 0 64,
    .stookStart 0 16 0, .unitWakeDone 0 65536, .refMarker 0 12, .mcastReport 0 144, .flowLost 0 8192, .ttEdge 0 4, .selfRefreshEntry 0 24,
    .clockStopped 0 5, .rateDeviation 0 1152, .errand 0 8 [] none, .replyRdPtr 0 9 0, .finalReply 0 10, .loudnessReport 0 1024,
    .correlationReport 0 4096, .fwdForcedCut 0 1024, .retransmitTimeout 0 3, .helloRx 0 0 (msg 1 []), .helloRx 0 3 (msg 1 []), .entdaa 0 128,
    .unitFault 0 0 256, .alleyBulk 0 (msg 256 []), .alleyBulk 0 ⟨0, 2 ^ 32, [], 0⟩, .jtagAccess 0 (2 ^ 40) 1 none] : List Instr).all (fun c => !c.wf) = true := by decide

theorem test_wf_takes : ([.nop ⟨0, 63, 0, 0, []⟩, .tick 0 15, .kerbAlign 0 2303, .cellLossEntry 0 2687, .followCommit 0 0 7, .haywainFrameTx 0 293,
    .pllLock 0 35 1, .granaryDecision 0 127 7 [], .headDecision 0 15 [], .tileComplete 0 191, .blockPeak 0 1 131071, .tapRecord 0 63,
    .stookStart 0 15 1, .unitWakeDone 0 65535, .refMarker 0 11, .mcastReport 0 143, .flowLost 0 8191, .ttEdge 0 3, .selfRefreshEntry 0 23,
    .clockStopped 0 4, .rateDeviation 0 1151, .errand 0 7 [] none, .replyRdPtr 0 8 0, .finalReply 0 9, .loudnessReport 0 1023,
    .correlationReport 0 4095, .fwdForcedCut 0 1023, .retransmitTimeout 0 2, .helloRx 0 2 (msg 1 []), .entdaa 0 127,
    .unitFault 0 0 255, .alleyBulk 0 ⟨255, 2 ^ 32 - 1, [], 0⟩, .jtagAccess 0 (2 ^ 40 - 1) 1 none] : List Instr).all (fun c => c.wf) = true := by decide

/-! ### Words of the worked examples (Tables 16.8 and 16.9) -/

theorem test_word_take : (ofWord 0x20002402BC000000 []).dest = 576 ∧ (ofWord 0x20002402BC000000 []).source = 700 := by decide
theorem test_word_salvo_strict : (ofWord 0x0610000000000000 []).opt = true ∧ (ofWord 0x0600000000000000 []).opt = false := by decide
theorem test_word_sheafset : let i := ofWord 0x3000BB8001000001 [0x00002BC134BC2240]
    i.index = 3000 ∧ i.npw = 1 ∧ i.sub = 1 ∧ entWord i = 0x00002BC134BC2240 := by decide
theorem test_word_waitcapt : (ofWord 0x0A02000000000002 []).xD = 2 ∧ (ofWord 0x0A02000000000002 []).imm = 2 := by decide
theorem test_word_bit : let i := ofWord 0x1A01200000000020 []; i.xD = 1 ∧ i.xA = 2 ∧ i.imm = 32 := by decide
theorem test_word_bp : let i := ofWord 0x0301000000001200 []; i.xD = 1 ∧ i.opt = false ∧ i.imm = 0x1200 := by decide
theorem test_word_ldload : let i := ofWord 0xC001200008000000 []; i.index = 0x1200 ∧ i.npw = 8 := by decide
/-- START at ENTRY 0x1200, priority 6, plan 0, no queue, REPORT set. -/
theorem test_word_thrcfg : let i := ofWord 0xF600014001000001 [0x08900786]
    i.index = 20 ∧ i.sub = 1 ∧ (getParams Lamp.thrcfgParams true i).map (fun vs => [Lamp.PRIORITY, Lamp.PLAN, Lamp.QUEUE, Lamp.ENTRY, Lamp.REPORT].map (pv Lamp.thrcfgParams vs)) =
      some [6, 0, 15, 0x1200, 1] := by decide
/-- Word 0 of the example's FINAL reply: SEQ 0x0140, queue 2, five codes. -/
theorem test_word_final_reply : (replyHead 0x0140 2 2 0 5 0 0x13CA65121E).take 1 = [0x0000000500220140] := by decide

/-! ### Reset, counting and refusal -/

theorem witness_CountersWrap : (State.reset.countBy 5 1 (2 ^ 64 - 1)).ctr 5 1 = 2 ^ 64 - 1 ∧ ((5 : Nat) ≠ 6 ∨ (1 : Nat) ≠ 1) ∧ State.reset.ctr 5 1 < 2 ^ 64 := by decide +kernel
theorem witness_IdleStep : State.reset.pending = [] := by decide
/-- A command waits, the state is safe, and the step answers a next state. -/
theorem witness_StepKeepsSafe : (State.queueOk { State.reset with pending := [.wtrExpiry 0] }) ∧ Memory.wf State.reset.barn = true ∧
    answers (step { State.reset with pending := [.hello 0] }) (fun t => t.pending.isEmpty) = true := by
  refine ⟨?_, ?_, ?_⟩
  · intro c hc; simp at hc; subst hc; rfl
  · decide
  · decide +kernel
theorem witness_FusesKept : answers (exec (.fuseBlown 0 true) { State.reset with bg := [⟨0, 0, 0xF5, 0, 8, [], 0⟩] }) (fun t => t.fuses == 1) = true := by
  decide +kernel
theorem witness_OtherCommandsStoreNothing : mayStore (.take (mk 0 0 [])) = false ∧ mayStore (.barnwrDone 0 0) = true ∧
    answers (exec (.take (mk 0 0 [])) State.reset) (fun _ => true) = true := by decide +kernel
theorem witness_OnlyRunningThreadsIssue : State.reset.th 0 Lamp.STATE ≠ thRunning ∧ State.reset.servesOwn (mk 0 0 []) ∧
    judged (.nop (mk 0 0 [])) = some (mk 0 0 [], .other, judgeNop (mk 0 0 [])) := ⟨by decide, .inl rfl, rfl⟩
/-- `halt` with an operand returns FORMAT; a `lanecfg` of a lane that is not there, RANGE. -/
theorem witness_FailedInstructionsActOnNothing :
    (let i := mk 0 1 []; firstFail ((judgeHalt i (ready.facing i .ends)).checks ++ commonChecks (ready.facing i .ends) 0 .ends (judgeHalt i (ready.facing i .ends))) = some .format) ∧
    (let i := kp 294 0 false Lane.lanecfgParams (dft Lane.lanecfgParams);
      firstFail ((judgeLanecfg i (ready.facing i .other)).checks ++ commonChecks (ready.facing i .other) 0 .other (judgeLanecfg i (ready.facing i .other))) = some .range) ∧
    ready.th 0 Lamp.STATE = thRunning ∧ ready.shadow = none ∧ Code.format ≠ .bandwidth ∧ (ready.facing (mk 0 1 []) .ends).rb (U.thread 0) Lamp.past = false ∧
    classFault (ready.facing (mk 0 1 []) .ends) (judgeHalt (mk 0 1 []) (ready.facing (mk 0 1 []) .ends)).verdict = false := by decide +kernel

/-- A STANDBY device that replicates, whose thread L0 executes a forwarded errand. -/
def copying : State := { from_ [(U.twin, Twin.ROLE, roleStandby), (U.twin, Twin.PAIR, prReplicating), (U.twin, Twin.loaded, 1), (U.thread 0, Lamp.STATE, thRunning)] with
  shadow := some ⟨[], [], [], [], [], [], [], [], [], [], [], [], [], [], [], [], []⟩ }
theorem witness_CopyChangesAlone : copying.shadow.isSome = true ∧ copying.onCopy = true ∧ (copying.errandOf 0).any (fun e => e.source != 1) = false ∧
    judged (.nop (mk 0 0 [])) = some (mk 0 0 [], .other, judgeNop (mk 0 0 [])) := ⟨by decide +kernel, by decide +kernel, by decide +kernel, rfl⟩

/-! ### Registers, control flow, waits, salvos -/

theorem witness_registers : (let i := mk 0 (opX 2 3 4 0 0) []; ready.mayIssue i 2 ∧ i.regImm = false ∧ i.opt = false ∧ i.xCond = 0 ∧ i.imm = 0) ∧
    (let i := mk 4 (opX 15 3 0 0 0xFFFFFFFF) []; ready.mayIssue i 2 ∧ i.regImm = true ∧ i.opt = false ∧ i.xB = 0 ∧ i.xRes = 0) ∧
    (let i := mk 1 (opX 0 0 0 0 7) []; ready.mayIssue i 2 ∧ i.regImm = false ∧ i.opt = true ∧ i.xA = 0) :=
  ⟨⟨issue_of (by decide +kernel), by decide⟩, ⟨issue_of (by decide +kernel), by decide⟩, issue_of (by decide +kernel), by decide⟩
theorem witness_predicates : (let i := mk 0 (opX 7 3 4 5 0) []; ready.mayIssue i 2 ∧ i.xD ≤ 7 ∧ i.imm = 0 ∧ i.xCond = 5 ∧ i.opt = false) ∧
    (let i := mk 0 (opX 7 3 0 0 63) []; ready.mayIssue i 2 ∧ i.xD ≤ 7 ∧ i.imm ≤ 63 ∧ i.xB = 0 ∧ i.xCond = 0) ∧
    (let i := mk 0 (opX 7 0 0 0 1) []; ready.mayIssue i 2 ∧ i.xD ≤ 7 ∧ i.imm ≤ 1 ∧ i.xA = 0) ∧
    (let i := mk 0 (opX 8 3 0 6 0) []; ready.mayIssue i 2 ∧ 7 < i.xD ∧ 5 < i.xCond) ∧
    (let i := mk 0 (opX 7 3 0 0 64) []; ready.mayIssue i 2 ∧ 63 < i.imm) :=
  ⟨⟨issue_of (by decide +kernel), by decide⟩, ⟨issue_of (by decide +kernel), by decide⟩, ⟨issue_of (by decide +kernel), by decide⟩,
    ⟨issue_of (by decide +kernel), by decide⟩, issue_of (by decide +kernel), by decide⟩

theorem program_of {s : State} {t : Nat} (h : (!s.rb (U.thread t) Lamp.IN_ERRAND && !s.rb (U.thread t) Lamp.errand && !s.rb (U.thread t) Lamp.past &&
    decide (s.thn t Lamp.PC < 65535)) = true) : s.inProgram t := by
  simp only [Bool.and_eq_true, Bool.not_eq_true', decide_eq_true_eq] at h
  exact ⟨h.1.1.1, h.1.1.2, h.1.2, h.2⟩
/-- A program with a call under way, at its last index but one. -/
def called : State := { ready_ [(U.thread 0, Lamp.PC, 65534)] with calls := [(⟨0, 0⟩, [(65535, false)])] }
theorem witness_ControlFlowInPrograms : called.mayIssue (mk 0 65535 []) 2 ∧ called.inProgram 0 ∧ called.noSalvo 0 ∧ (mk 0 65535 []).imm ≤ 65535 ∧
    called.thn 0 Lamp.PC + 1 ≤ (mk 0 65535 []).imm ∧ Tbl.get ⟨0, 0⟩ [] called.calls = [(65535, false)] ∧
    (let i := mk 0 (opX 7 0 0 0 65535) []; i.xD ≤ 7 ∧ called.pget 0 7 = i.opt) ∧ (let i := mk 1 (opX 7 0 0 0 65535) []; i.xD ≤ 7 ∧ called.pget 0 7 ≠ i.opt) :=
  ⟨issue_of (by decide +kernel), program_of (by decide +kernel), by unfold State.noSalvo; decide +kernel, by decide +kernel⟩

/-- An errand whose second word, a branch, runs on thread L0. -/
def branching : State := { ready_ [(U.thread 0, Lamp.IN_ERRAND, 1), (U.thread 0, Lamp.errand, 1), (U.thread 0, Lamp.PC, 1), (U.thread 0, Lamp.QUEUE, 0)] with
  errands := [{ id := 0, queue := 0, seq := 1, crc := 0, source := 0, arrival := 0, mode := 0, plan := 0, target := 0, length := 3, words := [0x0200000000000001],
                phase := 1, acceptTick := 0, repeats := 0, data := [], drops := [], lastTick := none, final := [] }] }
theorem witness_ReturnsAndBranchesAtTheEdge : (ready.mayIssue (mk 0 0 []) 2 ∧ ready.inProgram 0 ∧ ready.noSalvo 0 ∧ Tbl.get ⟨0, 0⟩ [] ready.calls = []) ∧
    (let i := mk 0 1 []; branching.mayIssue i 2 ∧ ∃ e, branching.errandOf 0 = some e ∧ branching.rb (U.thread 0) Lamp.IN_ERRAND = true ∧
      branching.rb (U.thread 0) Lamp.stopAtEnd = false ∧ 1 ≤ i.imm ∧ branching.thn 0 Lamp.PC + i.imm = e.head + e.words.length ∧ branching.thn 0 Lamp.PC + i.imm < 65536 ∧
      startsAt e.words 0 (branching.thn 0 Lamp.PC + i.imm - e.head) = true) :=
  ⟨⟨issue_of (by decide +kernel), program_of (by decide +kernel), by unfold State.noSalvo; decide +kernel, by decide +kernel⟩,
    issue_of (by decide +kernel), _, rfl, by decide +kernel⟩

theorem witness_WaitsInPrograms : ready.mayIssue (mk 0 3 []) 2 ∧ ready.inProgram 0 ∧ ready.noSalvo 0 ∧ State.reset.planOn 0 = false ∧
    (let s := { ready with gregs := [(⟨0, 1⟩, 5)] }; let i := mk 0 (opX 0 1 2 0 0) [];
      (s.gget 0 i.xB).toNat < 1000000000 ∧ (s.after i.dt).now < ((s.gget 0 i.xA).toNat % 2 ^ 48) * Config.second + (s.gget 0 i.xB).toNat * Config.ns) ∧
    ((ready.gget 0 1).toNat % 2 ^ 48) * Config.second + (ready.gget 0 2).toNat * Config.ns ≤ (ready.after 0).now ∧ (mk 0 3 []).imm ≤ 3 :=
  ⟨issue_of (by decide +kernel), program_of (by decide +kernel), by unfold State.noSalvo; decide +kernel, by decide +kernel⟩
theorem witness_waittick_absolute : (from_ [(U.thread 0, Lamp.STATE, thRunning)]).mayIssue (mk 1 (opX 0 1 0 0 0) []) 2 ∧
    (from_ [(U.thread 0, Lamp.STATE, thRunning)]).planOn 0 = false := ⟨issue_of (by decide +kernel), by decide +kernel⟩

/-- A salvo open on L0 with one configuration in it, strict with a failed member or not, from a state with some register fields written. -/
def bracketed (l : List (Nat × Field × Int)) (strict : Bool) (failed : Option (Nat × Nat)) : State :=
  { from_ (l ++ [(U.thread 0, Lamp.STATE, thRunning), (U.thread 0, Lamp.SALVO, if strict then 2 else 1)]) with
    salvos := [⟨0, 7, strict, [(8, [⟨0, 1, [⟨U.cell 5, 0⟩], [], .cfg 0x51 5 0 [0, 0, 0, 4095]⟩])], failed⟩] }
/-- `endsalvo` passes on the state that lets it; with the plan, and lateness, of the salvo. -/
def closes (s : State) (on late : Bool) : Bool :=
  let i := mk 0 0 []; let v := (s.facing i .bracket).shutSalvo 0
  passesB s i .bracket (judgeEndsalvo i) && v.planOn (v.salvoPlan 0) == on && v.wouldBeLate 0 v.now (bracket (v.salvoPlan 0)) == late && !v.rb (U.thread 0) Lamp.past
theorem witness_salvo : ready.mayIssue (mk 1 0 []) 2 ∧ ready.inProgram 0 ∧ ready.noSalvo 0 :=
  ⟨issue_of (by decide +kernel), program_of (by decide +kernel), by unfold State.noSalvo; decide +kernel⟩
/-- Open salvos: not strict, strict, under STROBE, strict with a failed member, late ones, and ones whose plan is OFF. -/
theorem witness_endsalvo : let late := fun (strict : Bool) f => (bracketed (readyF ++ [(U.thread 0, Lamp.tMode, 1)]) strict f).after Config.second
    closes (bracketed readyF false none) true false = true ∧ closes (bracketed readyF true none) true false = true ∧
    closes (bracketed (readyF ++ [(U.thread 0, Lamp.tMode, 2)]) false none) true false = true ∧ closes (bracketed readyF true (some (8, 3))) true false = true ∧
    closes (late false none) true true = true ∧ closes (late true none) true true = true ∧ closes (late true (some (8, 3))) true true = true ∧
    closes (bracketed [] false none) false false = true ∧ closes (bracketed [] true none) false false = true ∧ Code.range.num = 3 ∧
    (bracketed readyF true none).salvos.find? (·.th == 0) = (bracketed readyF true none).salvos.head? := by decide +kernel

/-! ### Staged configurations -/

/-- A configuration at default values passes on `ready`, and reads back as those values. -/
def fitsK (use : Use) (ix : Nat) (ps : List Param) (j : Issue → State → Judged) : Bool :=
  let i := kp ix 0 false ps (dft ps)
  passesB ready i use (j i) && decide (getParams ps false i = some (dft ps))
/-- The same, and its target is unit `ix` of its class. -/
def fitsT (use : Use) (cls base n ix : Nat) (ps : List Param) (j : Issue → State → Judged) : Bool :=
  fitsK use ix ps j && decide (targets (kp ix 0 false ps (dft ps)) cls base n = some [ix])

def bundled : State := ready_ [(U.dbundle 3, Bundle.COUNT, 1), (U.dbundle 3, Bundle.M0, 10), (U.sbundle 511, Bundle.COUNT, 1), (U.sbundle 511, Bundle.M0, 20)]
theorem witness_RoutesAreStaged :
    (let i := mk 0 (576 * 2 ^ 36 + 700 * 2 ^ 24) []; ready.passes i (.ticked 0x20) (judgeTake i) ∧
      (takeDests i (takeOps (ready.facing i (.ticked 0x20)) i).dest).1 = some [576] ∧ ∀ d ∈ [576], d < 2688) ∧
    (let i := mk 0 (2686 * 2 ^ 36 + 5 * 2 ^ 24 + 2) []; ready.passes i (.ticked 0x21) (judgeTaker i)) ∧
    (let i := mk 0 (3 * 2 ^ 42 + 511 * 2 ^ 32) []; bundled.passes i (.ticked 0x22) (judgeBtake i) ∧ i.regImm = false ∧
      (bundled.facing i (.ticked 0x22)).bundleMembers (U.dbundle (opBits i 51 42)) = [10] ∧
      (bundled.facing i (.ticked 0x22)).bundleMembers (U.sbundle (opBits i 41 32)) = [20]) :=
  ⟨⟨passes_of (by decide +kernel), by decide +kernel⟩, passes_of (by decide +kernel), passes_of (by decide +kernel), by decide +kernel⟩

theorem witness_cellcfg : let i := kp 2687 0 false Cell.cellcfgParams (dft Cell.cellcfgParams); ready.passes i (.ticked 0x51) (judgeCellcfg i) ∧
    (if i.group then cellsOf i.index else some [i.index]) = some [2687] ∧ getParams Cell.cellcfgParams false i = some (dft Cell.cellcfgParams) :=
  ⟨passes_of (by decide +kernel), by decide +kernel⟩
theorem witness_bundlecfg : (let vs := dft Bundle.bundlecfgParams; let i := kp 511 0 true Bundle.bundlecfgParams vs;
      ready.passes i (.ticked 0x53) (judgeBundlecfg i) ∧ getParams Bundle.bundlecfgParams true i = some vs ∧ targets i 0x35 (U.sbundle 0) 512 = some [511]) ∧
    (let vs := (Bundle.bundlecfgParams.map (·.fld.pos)).zip [(2 : Int), 10, 11, 4095, 4095] |>.map (·.2); let i := kp 4 1 true Bundle.bundlecfgParams vs;
      ready.passes i (.ticked 0x53) (judgeBundlecfg i) ∧ getParams Bundle.bundlecfgParams true i = some vs ∧ i.sub = 1 ∧ targets i 0x36 (U.dbundle 0) 512 = some [4]) :=
  ⟨⟨passes_of (by decide +kernel), by decide +kernel⟩, passes_of (by decide +kernel), by decide +kernel⟩
theorem witness_retcfg : let i := mk 0 (opK 191 0 2687) []; ready.passes i (.ticked 0x56) (judgeRetcfg i) ∧ targets i 0x34 (U.ret 0) 192 = some [191] ∧ i.sub < 4096 :=
  ⟨passes_of (by decide +kernel), by decide +kernel⟩
theorem witness_signcfg : let vs := dft Sign.signcfgParams; let i := kp 47 0 false Sign.signcfgParams vs
    ready.passes i (.ticked 0x54) (judgeSigncfg i) ∧ targets i 0x33 (U.sign 0) 48 = some [47] ∧ getParams Sign.signcfgParams false i = some vs :=
  ⟨passes_of (by decide +kernel), by decide +kernel⟩
theorem witness_watchcfg : let vs := dft Probe.watchcfgParams; let i := kp 63 0 false Probe.watchcfgParams vs
    ready.passes i (.ticked 0x55) (judgeWatchcfg i) ∧ elements i 64 = some [63] ∧ getParams Probe.watchcfgParams false i = some vs :=
  ⟨passes_of (by decide +kernel), by decide +kernel⟩
theorem witness_kerbcfg : let vs := dft Kerb.kerbcfgParams; let i := kp 2303 0 false Kerb.kerbcfgParams vs
    ready.passes i (.ticked 0x52) (judgeKerbcfg i) ∧ targets i 0x05 (U.kerb 0) 2304 = some [2303] ∧ getParams Kerb.kerbcfgParams false i = some vs :=
  ⟨passes_of (by decide +kernel), by decide +kernel⟩
/-- A plan that is on; one that is OFF beside a thread's plan that is on; both OFF. -/
theorem witness_plancfg : let vs := dftBut Plan.plancfgParams Plan.ENABLE 1; let off := from_ [(U.thread 0, Lamp.STATE, thRunning)]
    (let i := kp 0 0 false Plan.plancfgParams vs; ready.passes i (.ticked 0x50) (judgePlancfg i) ∧ targets i 0x32 (U.plan 0) 16 = some [0] ∧
      getParams Plan.plancfgParams false i = some vs ∧ (ready.facing i (.ticked 0x50)).planOn 0 = true ∧ off.passes i (.ticked 0x50) (judgePlancfg i) ∧
      (off.facing i (.ticked 0x50)).planOn 0 = false) ∧
    (let i := kp 15 0 false Plan.plancfgParams vs; ready.passes i (.ticked 0x50) (judgePlancfg i) ∧ (ready.facing i (.ticked 0x50)).planOn 15 = false ∧
      (ready.facing i (.ticked 0x50)).planOn ((ready.facing i (.ticked 0x50)).thn 0 Lamp.PLAN) = true) :=
  ⟨⟨passes_of (by decide +kernel), by decide +kernel, by decide +kernel, by decide +kernel, passes_of (by decide +kernel), by decide +kernel⟩,
    passes_of (by decide +kernel), by decide +kernel⟩

def stored : State := ready_ [(U.gran 5, Gran.MODE, 1)]
theorem witness_PictureConfigurationsAreStaged :
    (let i := mk 0 (opK 0x8001 0 0) []; ready.passes i (.ticked 0x42) (judgeHeadcommit i) ∧ headMask i = some [0, 15]) ∧
    (let vs := dftBut Gran.grancfgParams Gran.MODE 1; let i := kp 127 0 false Gran.grancfgParams vs;
      ready.passes i (.ticked 0x43) (judgeGrancfg i) ∧ targets i 0x11 (U.gran 0) 128 = some [127] ∧ getParams Gran.grancfgParams false i = some vs) ∧
    (let vs := dft Sub.subcfgParams; let i := kp 5 0 true Sub.subcfgParams vs;
      stored.passes i (.ticked 0x44) (judgeSubcfg i) ∧ targets i 0x11 (U.gran 0) 128 = some [5] ∧ i.sub < 8 ∧ getParams Sub.subcfgParams true i = some vs) :=
  ⟨⟨passes_of (by decide +kernel), by decide +kernel⟩, ⟨passes_of (by decide +kernel), by decide +kernel⟩, passes_of (by decide +kernel), by decide +kernel⟩

/-- The entry of Table 16.8. -/
def entry : List Word := [0x00002BC134BC2240]
theorem witness_sheaf : (let i := mk 0 (opK 3000 1 31) entry; ready.passes i (.ticked 0x30) (judgeSheafset i) ∧ i.sub < 32) ∧
    (let i := mk 0 (opK 65535 1 0) entry; ready.passes i (.ticked 0x31) (judgeSheafadd i) ∧ (0 < 32 ∧ entActive ((ready.facing i (.ticked 0x31)).entryFor 0 65535 0) = false)) ∧
    (let i := mk 0 (opK 65535 0 31) []; ready.passes i (.ticked 0x32) (judgeSheafclr i) ∧ i.sub < 32) ∧
    (let i := mk 0 (opK 1023 0 0) []; ready.passes i (.ticked 0x33) (judgeLoudreset i) ∧ i.index < 1024) :=
  ⟨⟨passes_of (by decide +kernel), by decide +kernel⟩, ⟨passes_of (by decide +kernel), by decide +kernel⟩, ⟨passes_of (by decide +kernel), by decide +kernel⟩,
    passes_of (by decide +kernel), by decide +kernel⟩
theorem witness_slots : fitsK (.ticked 0x60) 65535 Slot.slotcfgParams judgeSlotcfg = true ∧ fitsK (.ticked 0x66) 65535 Slot.limcfgParams judgeLimcfg = true ∧ fitsK (.ticked 0x68) 65535 Slot.delaycfgParams judgeDelaycfg = true ∧
    (let i := mk 0 (opK 65534 0 0) []; passesB ready i (.ticked 0x69) (judgeCscfg i) = true) := by decide +kernel
/-- A compressor without a slot, and one that takes slot 7. -/
theorem witness_compcfg : (let vs := dft Comp.compcfgParams; let i := kp 8191 0 false Comp.compcfgParams vs; passesB ready i (.ticked 0x67) (judgeCompcfg i) = true ∧
      pn Comp.compcfgParams vs Comp.SLOT = 0x1FFFF ∧ getParams Comp.compcfgParams false i = some vs) ∧
    (let vs := dftBut Comp.compcfgParams Comp.SLOT 7; let i := kp 0 0 false Comp.compcfgParams vs; passesB ready i (.ticked 0x67) (judgeCompcfg i) = true ∧
      getParams Comp.compcfgParams false i = some vs) := by decide +kernel

theorem witness_AudioConfigurationsAreStaged : fitsT (.ticked 0x62) 0x23 (U.deemb 0) 2304 2303 Deemb.deembcfgParams judgeDeembcfg = true ∧ fitsT (.ticked 0x63) 0x33 (U.sign 0) 48 47 Tone.tonecfgParams judgeTonecfg = true ∧
    fitsT (.ticked 0x65) 0x24 (U.emb 0) 2304 2303 Emb.embcfgParams judgeEmbcfg = true ∧ fitsT (.ticked 0x70) 0x27 (U.tap 0) 64 63 Tap.tapcfgParams judgeTapcfg = true ∧
    (let i := kp 2687 0 false Afv.afvcfgParams (dft Afv.afvcfgParams); passesB ready i (.ticked 0x64) (judgeAfvcfg i) = true ∧ i.index < 2688 ∧
      getParams Afv.afvcfgParams false i = some (dft Afv.afvcfgParams)) ∧
    (let i := kp 15 1 true Stook.stookcfgParams (dft Stook.stookcfgParams); passesB ready i (.ticked 0x6E) (judgeStookcfg i) = true ∧ i.sub < 2 ∧
      targets i 0x25 (U.stookPort 0) 16 = some [15] ∧ getParams Stook.stookcfgParams true i = some (dft Stook.stookcfgParams)) ∧
    (let i := mk 0 (opK 2303 0 0) []; passesB ready i (.ticked 0x6F) (judgeAsrccfg i) = true ∧ targets i 0x23 (U.deemb 0) 2304 = some [2303]) ∧
    (let i := mk 0 (opK 8191 0 1) []; passesB ready i (.ticked 0x6F) (judgeAsrccfg i) = true ∧ targets i 0x0B (U.rx 0) 8192 = some [8191]) ∧
    (let i := mk 0 (opK 15 0 2) []; passesB ready i (.ticked 0x6F) (judgeAsrccfg i) = true ∧ targets i 0x25 (U.stookPort 0) 16 = some [15]) := by decide +kernel

def levelled : State := ready_ [(U.tt 3, Tt.MODE, 1)]
def paired : State := ready_ [(U.twin, Twin.PAIR, prInStep), (U.twin, Twin.ROLE, roleActive)]
theorem witness_FlowAndTimeConfigurationsAreStaged : fitsT (.ticked 0xA0) 0x0B (U.rx 0) 8192 8191 Rx.rxflowParams judgeRxflow = true ∧ fitsT (.ticked 0xA1) 0x0C (U.tx 0) 8192 8191 Tx.txflowParams judgeTxflow = true ∧
    fitsT (.ticked 0xA2) 0x0D (U.fwd 0) 1024 1023 Fwd.fwdcfgParams judgeFwdcfg = true ∧
    (let i := mk 0 (opK 3 0 1) []; passesB levelled i (.ticked 0x90) (judgeTtset i) = true ∧ targets i 0x45 (U.tt 0) 4 = some [3]) ∧
    (let i := mk 0 0 []; passesB paired i (.ticked 0xF1) (judgeTwinswitch i) = true) := by decide +kernel

/-! ### Settings taken at once -/

theorem witness_LocksTaken : (let i := mk 0 (2687 * 2 ^ 36) []; passesB ready i .other (judgeLock i 2) = true ∧ passesB ready i .other (judgeLock i 1) = true ∧
      passesB ready i .other (judgeLock i 0) = true ∧ (if i.group then cellsOf i.dest else some [i.dest]) = some [2687]) ∧
    (let s := ready_ [(U.thread 0, Lamp.PRIORITY, 7), (U.cell 4, Cell.LOCK, 2), (U.cell 4, Cell.OWNER, 9)]; let i := mk 8 (4 * 2 ^ 36) [];
      passesB s i .other (judgeLock i 0) = true ∧ (i.force && s.thn 0 Lamp.PRIORITY == 7) = true) := by decide +kernel
theorem witness_SettingsTakenAtOnce : fitsT .other 0x16 (U.head 0) 16 15 Head.headsetParams judgeHeadset = true ∧ fitsT .other 0x46 (U.clkout 0) 2 1 ClkOut.clkoutcfgParams judgeClkoutcfg = true ∧
    fitsT .other 0x0A (U.mac 0) 144 143 Mac.ptpportParams judgePtpport = true ∧
    (let i := kp 31 0 false Ramp.rampcfgParams (dft Ramp.rampcfgParams); passesB ready i .other (judgeRampcfg i) = true ∧ elements i 32 = some [31]) ∧
    (let i := kp 15 0 false DetProf.detcfgParams (dft DetProf.detcfgParams); passesB ready i .other (judgeDetcfg i) = true ∧ elements i 16 = some [15]) ∧
    (let i := mk 0 (opK 14 0 1) []; passesB ready i .other (judgeTccfg i) = true ∧ i.index < 15) ∧
    (let i := mk 0 (opK 3 0 7) []; passesB ready i .other (judgeCaptcfg i) = true ∧ targets i 0x44 (U.capt 0) 4 = some [3]) ∧
    (let i := mk 0 (opK 15 4 63) [0, 0, 0, 0]; passesB ready i .other (judgeLayerset i) = true ∧ targets i 0x16 (U.head 0) 16 = some [15]) ∧
    (let vs := dft Assign.params; let i := kp 0 0 false Assign.params vs; passesB ready i .other (judgeDetassign i) = true ∧ getParams Assign.params false i = some vs) := by decide +kernel
theorem witness_MetersConfigured : (let vs := dft Loud.loudcfgParams; let i := kp 1023 0 false Loud.loudcfgParams vs; passesB ready i .other (judgeLoudcfg i) = true ∧
      getParams Loud.loudcfgParams false i = some vs) ∧
    (let vs := dft Corr.corrcfgParams; let i := kp 4095 0 false Corr.corrcfgParams vs; passesB ready i .other (judgeCorrcfg i) = true ∧ getParams Corr.corrcfgParams false i = some vs) := by decide +kernel

/-- A key of 102 bits that names MAC 0, and the same key stored. -/
def key : List Word := [5, 0, 0]
theorem witness_ClassifierChanged : (let i := mk 0 (opK 0 3 0) key; passesB ready i .other (judgeClsadd i) = true ∧ (clsInsert (ready.facing i .other).classifier (wordsNat key) 0).isSome = true) ∧
    (let s : State := { ready with classifier := (clsInsert [] (wordsNat key) 0).getD [] }; let i := mk 0 (opK 0 3 0) key;
      passesB s i .other (judgeClsdel i) = true ∧ (clsFind (s.facing i .other).classifier (wordsNat key)).isSome = true) ∧
    (let i := mk 0 (opK 255 10 0) (List.replicate 10 0); passesB ready i .other (judgeClswild i) = true) ∧
    (let i := mk 0 (opK 255 10 0) (List.replicate 9 0 ++ [1]); passesB ready i .other (judgeClswild i) = true ∧ wordsNat (i.params.drop 5) ≠ 0) := by decide +kernel

theorem witness_LanesAndPortsConfigured : fitsT .other 0x06 (U.trib 0) 1152 1151 Trib.tribcfgParams judgeTribcfg = true ∧
    fitsT .other 0x08 (U.lane 0) 294 287 Lane.lanecfgParams judgeLanecfg = true ∧ fitsT .other 0x0A (U.mac 0) 144 143 Mac.maccfgParams judgeMaccfg = true ∧
    fitsT .other 0x08 (U.lane 0) 294 287 Lane.lanetestParams judgeLanetest = true ∧
    (let i := mk 0 (opK 293 0 3) []; passesB ready i .other (judgeLanepwr i) = true ∧ laneTargets i = some [293]) ∧
    (let i := mk 0 (opK 287 0 0xB) []; passesB ready i .other (judgeLanepwr i) = true) ∧
    (let i := mk 0 (opK 287 0 0) []; passesB ready i .other (judgeLanetrain i) = true ∧ laneTargets i = some [287]) ∧
    (let i := mk 0 (opK 35 0 1) []; passesB ready i .other (judgePllcfg i) = true ∧ targets i 0x07 (U.avenue 0) 36 = some [35]) ∧
    (let i := mk 0 (opK 35 0 11) []; passesB ready i .other (judgePllcfg i) = true ∧ bitsAt i.sub 3 1 = 5) ∧
    (let i := mk 0 (opK 5 7 2) (List.replicate 7 0); passesB ready i .other (judgeLaneeq i) = true ∧ laneTargets i = some [5] ∧ (laneeqParse i).isSome = true) ∧
    (let i := mk 0 (opK 5 7 2) (pack eqHead [0, 2, 48] ++ List.replicate 6 0); passesB ready i .other (judgeLaneeq i) = true ∧ laneeqParse i = some ([0, 2, 48], unpack eqDfe (List.replicate 6 0))) := by
  decide +kernel

theorem witness_TowerSteered : (let i := kp 0 7 true Steer.params (dft Steer.params); let s := from_ [(U.thread 0, Lamp.STATE, thRunning)];
      passesB s i .other (judgeSteer i) = true ∧ bitAt i.sub 0 = true ∧ bitAt i.sub 1 = true ∧ bitAt i.sub 2 = true ∧ (getParams Steer.params true i).isSome = true) ∧
    (let i := kp 0 0 true Steer.params (dft Steer.params); passesB ready i .other (judgeSteer i) = true ∧ bitAt i.sub 0 = false ∧ bitAt i.sub 1 = false ∧ bitAt i.sub 2 = false) := by
  decide +kernel
def enabledCand (f : Field) (v : Int) : List Int := (Cand.towercandParams.zip (dftBut Cand.towercandParams Cand.ENABLE 1)).map fun e => if e.1.fld.pos == f.pos then v else e.2
/-- A reference enabled, disabled, and one whose format changes; a table that is not active, one that is; the loop with the same table, another. -/
theorem witness_TowerConfigured : (let ps := Cand.towercandParams; let vs := dftBut ps Cand.ENABLE 1; let i := kp 0 0 false ps vs;
      passesB ready i .other (judgeTowercand i) = true ∧ targets i 0x41 (U.cand 0) 12 = some [0] ∧ getParams ps false i = some vs ∧ ready.candState 0 = cdDisabled) ∧
    fitsT .other 0x41 (U.cand 0) 12 11 Cand.towercandParams judgeTowercand = true ∧
    (let s := ready_ [(U.cand 0, Cand.ENABLE, 1), (U.cand 0, Cand.STATE, cdQualified)]; let ps := Cand.towercandParams; let vs := enabledCand Cand.FORMAT 2; let i := kp 0 0 false ps vs;
      passesB s i .other (judgeTowercand i) = true ∧ pv ps vs Cand.FORMAT ≠ s.rd (U.cand 0) Cand.FORMAT ∧ s.candState 0 ≠ cdDisabled) ∧
    fitsK .other 3 TTab.towertableParams judgeTowertable = true ∧ (3 : Nat) ≠ ready.towerN Tower.ACTIVE_TABLE_CFG ∧
    fitsK .other 0 TTab.towertableParams judgeTowertable = true ∧ (0 : Nat) = ready.towerN Tower.ACTIVE_TABLE_CFG ∧
    fitsK .other 0 Tower.towercfgParams judgeTowercfg = true ∧ pv Tower.towercfgParams (dft Tower.towercfgParams) Tower.ACTIVE_TABLE_CFG = ready.tower Tower.ACTIVE_TABLE_CFG ∧
    (let vs := dftBut Tower.towercfgParams Tower.ACTIVE_TABLE_CFG 3; let i := kp 0 0 false Tower.towercfgParams vs; passesB ready i .other (judgeTowercfg i) = true ∧
      getParams Tower.towercfgParams false i = some vs ∧ pv Tower.towercfgParams vs Tower.ACTIVE_TABLE_CFG ≠ ready.tower Tower.ACTIVE_TABLE_CFG) := by decide +kernel
theorem witness_ClientsOutputsAndPairConfigured : (let s := ready_ [(U.mac 0, Mac.LANE, 4), (U.mac 0, Mac.ADDR, 0x020000000001), (U.mac 0, Mac.IPV4, 0x0A000001)];
      let ps := Ptp.ptpcfgParams; let i := kp 1 0 false ps (dft ps);
      passesB s i .other (judgePtpcfg i) = true ∧ targets i 0x42 (U.ptp 0) 2 = some [1] ∧ getParams ps false i = some (dft ps)) ∧
    fitsT .other 0x45 (U.tt 0) 4 3 Tt.ttcfgParams judgeTtcfg = true ∧ fitsK .other 0 Twin.twincfgParams judgeTwincfg = true ∧
    (let vs := dftBut Twin.twincfgParams Twin.MODE 1; let i := kp 0 0 false Twin.twincfgParams vs; passesB ready i .other (judgeTwincfg i) = true) := by decide +kernel
theorem witness_MarksAndHarvestArmed : (let i := mk 0 (opK 0 0 7) []; passesB ready i .other (judgeTwinmark i) = true ∧ bitAt i.sub 0 = true ∧ bitAt i.sub 1 = true ∧ bitAt i.sub 2 = true) ∧
    (let i := mk 0 (opK 0 2 1) [5, 0]; passesB ready i .other (judgeHarvest i) = true) ∧ (let i := mk 0 (opK 0 0 2) []; passesB ready i .other (judgeHarvest i) = true) := by decide +kernel

/-- A settings copy whose FORMAT an image in the load slot accepts; the recovery image in use, the load slot valid; an image whose security number is not yet blown. -/
def settled : State := (ready_ [(U.boot, Boot.SLOTB_STATE, 3)]).writeCopy 0 (ready.hdrFormat 1) 1 0 0 []
def recovering : State := ready_ [(U.boot, Boot.STAGE, 4), (U.boot, Boot.SLOTA_STATE, 3), (U.boot, Boot.SLOTB_STATE, 3)]
def env0 : BootEnv := ⟨true, [], []⟩
theorem witness_LoadsBegin : (let i := mk 0 (opK 65535 1 0) [7]; passesB ready i .other (judgeLdload i) = true) ∧
    (let i := mk 0 (opK 0 2 0) [8, 7]; passesB ready i .other (judgeBarnwr i) = true) ∧
    (let i := mk 0 (opK 5 1 1) [64]; passesB stored i .other (judgeLutload i) = true ∧ targets i 0x11 (U.gran 0) 128 = some [5]) ∧
    (let i := mk 0 (opK 0 2 0) [0, 7]; passesB ready i .other (judgeImgload i) = true ∧ (ready.facing i .other).named519 0 i.sub = true) ∧
    (let i := mk 0 (opK 0 2 2) [0, 7]; passesB ready i .other (judgeImgload i) = true ∧ (ready.facing i .other).named519 0 i.sub = false) ∧
    (let i := mk 0 (opK 0 0 8) []; passesB ready i .other (judgeConfirm i) = true) ∧
    (let i := mk 0 (opK 0 0 16) []; passesB ready i .other (judgeAdvance i) = true ∧ (ready.facing i .other).bootN Boot.runSvn ≤ (ready.facing i .other).fuses ∧
      passesB (ready_ [(U.boot, Boot.runSvn, 2)]) i .other (judgeAdvance i) = true) ∧
    (let i := mk 0 (opK 0 1 0) [0]; passesB recovering i .other (judgeImgactivate i true 0 15 env0) = true ∧ recovering.bootN Boot.STAGE = 4) ∧
    (let i := mk 0 (opK 0 1 2) [0]; passesB ready i .other (judgeImgactivate i false 0 15 env0) = true) ∧
    (let i := mk 0 (opK 0 1 0) [0]; passesB settled i .other (judgeImgactivate i false 0 15 env0) = true ∧ settled.bootN Boot.STAGE ≠ 4) := by decide +kernel
/-- Settings of one record: kind 1, two bytes. -/
theorem witness_imgloadSettings : ∃ ws : List Word, let i := mk 0 (opK 0 (ws.length + 1) 9) (0 :: ws)
    passesB ready i .other (judgeImgloadSettings i) = true := by
  exact ⟨[0x00020001, 5], by decide +kernel⟩

theorem witness_QueriesRead : (let i := mk 0 (2 * 2 ^ 48 + 1 * 2 ^ 40 + 0x20000008) []; passesB ready i .other (judgeRd i) = true ∧ i.qN ≠ 0 ∧ Sys2Proof.Machine.addrOk i.addr i.qN = true ∧ windowOf i.addr = some 0) ∧
    (let i := mk 0 (15 * 2 ^ 48 + 1 * 2 ^ 40 + 0x40000000) []; passesB ready i .other (judgeRd i) = true ∧ Sys2Proof.Machine.addrOk i.addr i.qN = true ∧ windowOf i.addr = some 1) ∧
    (let i := mk 0 (1 * 2 ^ 40 + 0x80000008) []; Sys2Proof.Machine.addrOk i.addr i.qN = true ∧ windowOf i.addr = some 2) ∧
    (let s : State := { ready with gregs := [(⟨0, 1⟩, 0x20000008)] }; let i := mk 0 (opX 2 1 0 0 0) []; passesB s i .other (judgeRdind i) = true) ∧
    (let i := mk 0 (opX 14 0 0 0 0) []; passesB ready i .other (judgeRdtime i) = true ∧ i.xD < 15) := by decide +kernel
theorem witness_ThreadsConfigured : (let ps := Lamp.thrcfgParams; let vs := dft ps; let i := kp 63 0 true ps vs; let s := ready_ [(U.thread 63, Lamp.STATE, thHalted)];
      passesB s i .other (thrcfg i 0) = true ∧ targets i 0x30 (U.thread 0) 64 = some [63] ∧ getParams ps true i = some vs) ∧
    (let ps := Lamp.thrcfgParams; let i := kp 1 1 true ps (dft ps); passesB ready i .other (thrcfg i 1) = true) ∧
    (let i := mk 0 (opK 63 0 0) []; passesB ready i .other (judgeThrstop i) = true ∧ targets i 0x30 (U.thread 0) 64 = some [63] ∧
      ready.th 63 Lamp.STATE ≠ thIdle ∧ ready.th 63 Lamp.STATE ≠ thFault ∧ (ready.facing i .other).inErrand 63 = false) ∧
    (let s : State := { branching with regs := (ready_ [(U.thread 60, Lamp.IN_ERRAND, 1), (U.thread 60, Lamp.errand, 1), (U.thread 60, Lamp.STATE, thRunning)]).regs }; let i := mk 0 (opK 60 0 0) [];
      passesB s i .other (judgeThrstop i) = true ∧ (s.facing i .other).inErrand 60 = true) ∧
    (let i := mk 0 (opK 1 0 0) []; passesB ready i .other (judgeThrstop i) = true ∧ ready.th 1 Lamp.STATE = thIdle) := by decide +kernel
theorem witness_UnitsEnabledAndOpcodesRefused : (let i := mk 0 (opK (U.kerb 3) 0 1) []; passesB ready i .other (judgeUnitcfg i) = true ∧ unitcfgTargets i.index = some [U.kerb 3]) ∧
    (let i := mk 0 (opK (U.gran 3) 0 0) []; passesB ready i .other (judgeUnitcfg i) = true ∧ unitcfgTargets i.index = some [U.gran 3]) ∧
    ready.shadow = none ∧ ready.th 0 Lamp.STATE = thRunning ∧ ((ready.facing (mk 0 0 []) .other).rb (U.thread 0) Lamp.past) = false := by decide +kernel

/-! ### Events: the host port, commits, ticks, errands -/

theorem witness_BusCodesAct : (State.reset.after 0).portHears = true ∧ (State.reset.after 0).rb U.host Hostp.DYN_ADDR = false ∧
    ((from_ [(U.host, Hostp.DYN_ADDR, 9)]).after 0).rb U.host Hostp.DYN_ADDR = true ∧ ((0x20 : Nat) < 0x21 ∨ 0x27 < (0x20 : Nat)) ∧
    ((from_ [(U.host, Hostp.ignoring, 1)]).after 0).portHears = false := by decide +kernel

/-- An errand in a ring that is full, or nearly. -/
def err (id queue phase target : Nat) : Errand := { id := id, queue := queue, seq := 1, crc := 0, source := 0, arrival := 0, mode := 0, plan := 0, target := target, length := 2, words := [], phase := phase, acceptTick := 0, repeats := 0, data := [], drops := [], lastTick := none, final := [] }
def bytes8 : List Byte := [8, 0, 0, 0, 0, 0, 0, 0]
theorem witness_HostTransfersAct : (let s := from_ [(U.boot, Boot.STAGE, 3)]; let w := s.after 0; let c := w.count U.host Ctr.HostP.WRITES;
      c.serves 7 = true ∧ 2 ≤ bytes8.length ∧ c.wordsQueued 7 + hLength ((bytesToWords bytes8).headD 0) ≤ ringWords ∧ 3 ≤ c.replyRoom 7 ∧ w.portHears = true) ∧
    (let s : State := { from_ [(U.boot, Boot.STAGE, 3)] with errands := [{ err 0 7 0 0 with length := 131072 }] }; let c := (s.after 0).count U.host Ctr.HostP.WRITES;
      c.serves 7 = true ∧ ringWords < c.wordsQueued 7 + hLength ((bytesToWords bytes8).headD 0)) ∧
    (bytes8.length = 8 ∧ ((bytesToWords bytes8).headD 0).toNat / 2 ^ 40 = 0) ∧
    (let b : List Byte := [0, 0, 0, 0x40, 0, 0, 0, 0] ++ bytes8;
      hostAddr b = some 0x40000000 ∧ (b.drop 8).length % 8 = 0 ∧ b.drop 8 ≠ [] ∧ (b.drop 8).length ≤ 4096 ∧ 0x40000000 % 8 = 0 ∧ windowOf 0x40000000 = some 1) ∧
    (let w := (from_ [(U.host, Hostp.addr, 0x20000000)]).after 0; let a := w.rn U.host Hostp.addr;
      (windowOf a = some 0 ∨ windowOf a = some 3) ∧ w.clk < w.rn U.host Hostp.addrAt + 2 * Config.us) ∧
    (State.reset.after 0).rn U.host Hostp.addr = 0 ∧ (State.reset.after 0).rn U.host Hostp.action = 1 ∧
    (let w := (from_ [(U.host, Hostp.IBI_PENDING, 1), (U.host, Hostp.ENINT, 1), (U.host, Hostp.DYN_ADDR, 9)]).after 0;
      (List.range 10).find? (bitAt (w.rn U.host Hostp.IBI_PENDING)) = some 0 ∧ w.rb U.host Hostp.ENINT = true ∧ w.rb U.host Hostp.DYN_ADDR = true ∧ w.rb U.host Hostp.nackAt = false) ∧
    (let w := (from_ [(U.crier, Crier.UNREAD, 1)]).after (10 * Config.ms);
      w.rb U.crier Crier.UNREAD = true ∧ w.rd U.crier Crier.READ_PTR = w.rd U.crier Crier.ptrAtIbi ∧ w.rn U.crier Crier.lastIbi + 10 * Config.ms ≤ w.clk) := by decide +kernel
/-- An errand for the partner with a good CRC: QUEUE 8, no instruction. -/
theorem witness_errandPartner : ∃ ws : List Word, let w := (from_ [(U.twin, Twin.ROLE, 1), (U.boot, Boot.STAGE, 3), (U.lane 288, Lane.LINK, 1), (U.lane 291, Lane.LINK, 1)]).after 0; let c := w.count U.host Ctr.HostP.WRITES
    integrityBad ws true = false ∧ hQueue (ws.headD 0) = 8 ∧ c.alleyUp = true ∧ w.portHears = true ∧ c.rn U.twin Twin.ROLE ≠ 0 ∧ c.serves 8 = true := by
  exact ⟨(let h : List Word := [0x0001000000080002]; h ++ [BitVec.ofNat 64 (crc32 (h.map (·.toNat)))]), by decide +kernel⟩

def cfgd (op k sub : Nat) (vs : List Int) (uses : List Nat) : Staged := ⟨1, 0, 0, none, false, 0, 0, 0, 0, false, false, true, 0, [], uses, .cfg op k sub vs⟩
theorem witness_CommittedSettingsStand : ready.effectFault (cfgd 0x52 2303 0 [] [U.kerb 2303]) = false ∧
    (ready_ [(U.kerb 5, unitEnableF, 0)]).effectFault (cfgd 0x52 5 0 [] [U.kerb 5]) = true ∧ (cfgd 0x52 5 0 [] []).eff = .cfg 0x52 5 0 [] := by decide +kernel

theorem witness_TicksAndWaitsPass : (let w := ready.after Config.second; let n := w.tickAt 0 w.now;
      w.planOn 0 = true ∧ w.rd (U.plan 0) Plan.TICK < n ∧ w.issuable 0 n ≤ n ∧ w.shadow = none ∧ w.unitState (U.plan 0) ≠ stFault ∧
      (let n := w.tickAt 0 ((w.now : Int) + curfewLead);
        w.rd (U.plan 0) Plan.resolved ≤ n ∧ w.rd (U.plan 0) Plan.TICK < n ∧ w.followsDecisions = false ∧ w.sendsDecisions = false)) ∧
    (let w := (from_ [(U.plan 15, Plan.STATE, planSlewing), (U.plan 15, Plan.slewing, 1), (U.plan 15, unitEnableF, 1)]).after 0; w.unitBad (U.plan 15) = false ∧ w.rb (U.plan 15) Plan.slewing = true ∧ w.phaseAt 15 w.now = w.rd (U.plan 15) Plan.PHASE_TARGET * Config.ns) ∧
    (let w := (ready_ [(U.thread 63, Lamp.STATE, thTickWait), (U.thread 63, Lamp.waitKind, 1)]).after 0; w.th 63 Lamp.STATE = thTickWait ∧ w.thn 63 Lamp.waitKind = 1 ∧ w.th 63 Lamp.waitVal = 0) ∧
    (let w := (ready_ [(U.thread 63, Lamp.STATE, thTickWait), (U.thread 63, Lamp.waitKind, 5)]).after 0; w.planOn 0 = true ∧ w.th 63 Lamp.waitVal ≤ w.rd (U.plan (w.thn 63 Lamp.PLAN)) Plan.TICK) ∧
    (let w := (ready_ [(U.thread 63, Lamp.STATE, thTickWait), (U.thread 63, Lamp.waitKind, 3), (U.thread 63, Lamp.waitVal, 5)]).after 5; w.thn 63 Lamp.waitKind = 3 ∧ w.th 63 Lamp.waitVal ≤ (w.now : Int)) ∧
    (let w := (ready_ [(U.thread 63, Lamp.STATE, thEventWait), (U.thread 63, Lamp.waitKind, 4), (U.capt 0, Capt.WRITE_SEQ, 1)]).after 0;
      w.thn 63 Lamp.waitKind = 4 ∧ w.rn (U.capt (w.thn 63 Lamp.waitVal)) Capt.WRITE_SEQ ≠ w.thn 63 Lamp.waitSeq) ∧
    (let w := (ready_ [(U.thread 63, Lamp.STATE, thEventWait), (U.thread 63, Lamp.waitKind, 6)]).after 0; w.thn 63 Lamp.waitKind = 6 ∧ w.bgOf 63 = [] ∧ w.bgFirst 0x0C 63 = none) ∧
    (let s : State := { ready_ [(U.thread 63, Lamp.STATE, thEventWait), (U.thread 63, Lamp.waitKind, 6)] with bg := [⟨1, 63, 0x0C, 0, 0, [], 0⟩] }; let w := s.after 0;
      w.bgOf 63 = [] ∧ (w.bgFirst 0x0C 63).isSome = true) ∧
    (let w := (ready_ [(U.thread 63, Lamp.STATE, thTickWait), (U.thread 63, Lamp.waitKind, 2)]).after 0; w.thn 63 Lamp.waitKind = 2 ∧
      w.th 63 Lamp.waitVal ≤ w.rd (U.plan (w.thn 63 Lamp.PLAN)) Plan.TICK) := by decide +kernel

theorem witness_ErrandsServed : (let s : State := { State.reset with errands := [err 0 9 0 0] }; let w := s.after 0;
      (w.headErrand 9).isSome = true ∧ (w.servingThread 9).isSome = true ∧ w.releases (err 0 9 0 0) = true ∧ w.finalsDue 9 + maxFinal [] ≤ w.replyRoom 9 ∧ s.shadow = none) ∧
    (let s : State := { State.reset with errands := [err 0 7 2 0] }; let w := s.after 0;
      w.errands.find? (fun e => e.queue == 7 && w.finalReady e) = some (err 0 7 2 0) ∧ (1 + 0) * ((w.finalWords (err 0 7 2 0)).length + 1) ≤ w.replyRoom 7) ∧
    (let s : State := { State.reset with errands := [err 1 7 3 0, err 2 7 4 1] }; let w := s.after 0;
      w.headErrand 7 = some (err 2 7 4 1) ∧ w.errands.find? (fun e => e.id == 1) = some (err 1 7 3 0) ∧ 3 + (err 1 7 3 0).final.length + 1 ≤ w.replyRoom 7) ∧
    (let s : State := { State.reset with errands := [err 1 7 1 0, err 2 7 4 1] }; let w := s.after 0;
      w.errands.find? (fun e => e.id == 1) = some (err 1 7 1 0) ∧ 3 + maxFinal [] ≤ w.replyRoom 7) := by decide +kernel

/-! ### Events: cells, lines, lanes, frames -/

theorem witness_CellsFollowAndLose : (let w := (ready_ [(U.cell 5, Cell.pending 0, 1), (U.cell 5, Cell.msSource 0, 7), (U.kerb 7, Kerb.STATE, 2), (U.cell 5, Cell.MODE, 0)]).after 0;
      w.unitBad (U.cell 5) = false ∧ w.cellTimed 5 = false ∧ w.rb (U.cell 5) (Cell.pending 0) = true ∧ w.rn (U.cell 5) (Cell.msSource 0) ≠ noSeat ∧
      w.srcCarries (w.rn (U.cell 5) (Cell.msSource 0)) (w.rn (U.cell 5) (Cell.msStream 0)) = true) ∧
    (let w := (ready_ [(U.cell 5, Cell.pending 7, 1), (U.cell 5, Cell.MODE, 0)]).after (256 * Config.us); w.unitBad (U.cell 5) = false ∧ w.cellTimed 5 = false ∧
      w.rb (U.cell 5) (Cell.pending 7) = true ∧ w.rn (U.cell 5) (Cell.pendAt 7) + 256 * Config.us ≤ w.clk) ∧
    (let w := (ready_ [(U.cell 5, Cell.MODE, 1), (U.cell 5, Cell.SOURCE, 7)]).after 0;
      w.unitBad (U.cell 5) = false ∧ w.cellTimed 5 = true ∧ (w.lossGroup 5).all (fun c => !w.rb (U.cell c) Cell.inLoss) = true ∧
      (w.lossGroup 5).any (fun c => w.srcLost c && w.cellN c Cell.SOURCE != noSeat) = true) ∧
    (let w := (ready_ [(U.cell 5, Cell.MODE, 1), (U.cell 5, Cell.SOURCE, 7), (U.cell 6, Cell.MODE, 1), (U.cell 6, Cell.SOURCE, 8), (U.kerb 8, Kerb.STATE, 2), (U.dbundle 3, Bundle.COUNT, 2),
        (U.dbundle 3, Bundle.M0, 5), (U.dbundle 3, Bundle.M1, 6), (U.cell 5, Cell.DBUNDLE, 3), (U.cell 6, Cell.DBUNDLE, 3)]).after 0;
      w.lossGroup 6 = [5, 6] ∧ w.srcLost 5 = true ∧ w.srcLost 6 = false ∧ (w.lossGroup 6).all (fun c => !w.rb (U.cell c) Cell.inLoss) = true) ∧
    (let w := (ready_ [(U.cell 5, Cell.MODE, 1), (U.cell 5, Cell.SOURCE, 7), (U.cell 5, Cell.inLoss, 1), (U.kerb 7, Kerb.STATE, 2)]).after 0;
      w.cellTimed 5 = true ∧ w.rb (U.cell 5) Cell.inLoss = true ∧ (w.lossGroup 5).all (fun c => !w.srcLost c) = true) := by decide +kernel

/-- A tributary seat fed by a direct SDI lane. -/
def fedF (k : Nat) : List (Nat × Field × Int) := [(U.trib k, Trib.LANE, 3), (U.trib k, Trib.RX_STATE, 1), (U.lane 3, Lane.MODE, 3), (U.lane 3, Lane.RX_STATE, 0), (U.lane 3, Lane.CDR_LOCK, 1), (U.lane 3, Lane.aligned, 1)]
theorem witness_LinesReachKerbsAndOutputs : (let k := 1151; let w := ((ready_ (fedF k ++ [(U.kerb k, Kerb.begun, 1), (U.kerb k, Kerb.STATE, kAcquiring)])).setBuf (U.kerb k) kerbFifo [0, 0, 0, 0, 9, 1023, 0, 0, 0x274]).after 0;
      w.seatBuilt k = false ∧ w.unitBad (U.kerb k) = false ∧ w.kerbFed k = true ∧ w.rb (U.kerb k) Kerb.begun = true ∧ w.rd (U.kerb k) Kerb.STATE ≠ kEmpty ∧ w.rd (U.kerb k) Kerb.STATE ≠ kLost ∧
      (let fifo := (w.buf (U.kerb k) kerbFifo).map (·.toNat); findEav fifo.length 4 ((fifo.map (· % 1024)).drop 4) = some 5)) ∧
    (let w := (ready_ [(U.rx 0, Rx.SEAT, 0), (U.rx 0, Rx.TYPE, 1)]).after 0; w.rxOfSeat 1152 = some 0 ∧ w.rn (U.rx 0) Rx.TYPE = 1) ∧
    (let k := 1151; let w := (ready_ (fedF k ++ [(U.kerb k, Kerb.MODE, 1), (U.kerb k, Kerb.ready, 1), (U.kerb k, Kerb.STATE, kOutside)])).after 0;
      w.rb (U.kerb k) Kerb.MODE = true ∧ w.rb (U.kerb k) Kerb.ready = true ∧ w.rd (U.kerb k) Kerb.STATE = kOutside ∧ w.nearOrigin (w.rn (U.kerb k) Kerb.PLAN) = true ∧ w.kerbFed k = true ∧ w.unitBad (U.kerb k) = false) ∧
    (let w := (ready_ [(U.rx 0, Rx.SEAT, 1151), (U.rx 0, Rx.TYPE, 5), (U.rx 0, Rx.STATE, rxRunning)]).after 0; w.rxOfSeat 2303 = some 0 ∧ w.kerbFed 2303 = true ∧ w.seatBuilt 2303 = false) ∧
    (let w := (ready_ [(U.kerb 5, Kerb.MODE, 1), (U.kerb 5, Kerb.STATE, kAligned)]).after Config.ms;
      w.rb (U.kerb 5) Kerb.MODE = true ∧ w.rd (U.kerb 5) Kerb.STATE = kAligned ∧ w.unitBad (U.kerb 5) = false ∧ w.conceals 5 = true ∧
      w.rn (U.kerb 5) Kerb.lastEav + 2 * (w.planRas (w.rn (U.kerb 5) Kerb.PLAN)).line ≤ w.clk) ∧
    (let w := (ready_ [(U.cell 2687, Cell.MODE, 1)]).after (ready.planRas 0).line; w.unitBad (U.cell 2687) = false ∧ w.cellTimed 2687 = true ∧ w.planLineEnds (w.cellN 2687 Cell.PLAN) 1 = true ∧ w.cellN 2687 Cell.outAt ≠ w.clk + 1) ∧
    (let w := (ready_ [(U.cell 5, Cell.MODE, 0), (U.cell 5, Cell.OUTPUT, 1), (U.cell 5, Cell.SOURCE, 2448), (U.cell 5, Cell.msSource 0, 2448), (U.sign 0, Sign.ENABLE, 1)]).after (ready.planRas 0).line;
      w.cellTimed 5 = false ∧ w.rd (U.cell 5) Cell.OUTPUT ≠ 0 ∧ (w.followLine 5 ⟨1, 0, 0, 0⟩).1.isSome = true) ∧
    (let w := (ready_ [(U.trib 1151, Trib.LANE, 3), (U.trib 1151, Trib.RATE_OFFSET, -120001)]).after 0; w.rn (U.trib 1151) Trib.LANE ≠ 511 ∧ w.unitBad (U.trib 1151) = false ∧ w.rb (U.trib 1151) Trib.rateDev = false ∧
      120000 < (w.rd (U.trib 1151) Trib.RATE_OFFSET).natAbs) ∧
    (let w := (ready_ [(U.trib 0, Trib.LANE, 0), (U.trib 0, Trib.rateDev, 1), (U.trib 0, Trib.RATE_OFFSET, 120000)]).after 0; w.rn (U.trib 0) Trib.LANE ≠ 511 ∧ w.rb (U.trib 0) Trib.rateDev = true ∧
      (w.rd (U.trib 0) Trib.RATE_OFFSET).natAbs ≤ 120000) := by decide +kernel

theorem witness_LanesCarryLines : (let w := (ready_ [(U.lane 287, Lane.MODE, 1), (U.lane 287, Lane.RX_STATE, 0), (U.lane 287, Lane.TX_STATE, 0), (U.lane 287, Lane.CDR_LOCK, 1)]).after 0;
      w.unitBad (U.lane 287) = false ∧ w.laneN 287 Lane.MODE = 1 ∧ w.laneN 287 Lane.RX_STATE = 0 ∧ w.rb (U.lane 287) Lane.CDR_LOCK = true ∧ w.nearLoop 287 = false ∧ w.laneN 287 Lane.TX_STATE = 0 ∧
      w.pam4 287 = true ∧ (w.laneReceive 287 (List.replicate 2720 3)).1.length = 5440) ∧
    (let w := (ready_ [(U.lane 5, Lane.MODE, 3), (U.lane 5, Lane.RX_STATE, 0), (U.lane 5, Lane.CDR_LOCK, 1)]).after 0;
      w.unitBad (U.lane 5) = false ∧ w.laneN 5 Lane.MODE = 3 ∧ w.laneN 5 Lane.RX_STATE = 0 ∧ w.rb (U.lane 5) Lane.CDR_LOCK = true ∧ w.nearLoop 5 = false) ∧
    (let w := (ready_ [(U.trib 1151, Trib.LANE, 287), (U.trib 1151, Trib.TX_STATE, 1), (U.trib 1151, Trib.lineDur, 50), (U.lane 287, Lane.MODE, 3)]).after 100;
      w.unitBad (U.trib 1151) = false ∧ w.rn (U.trib 1151) Trib.LANE < 288 ∧ w.laneN (w.rn (U.trib 1151) Trib.LANE) Lane.MODE = 3 ∧ w.rn (U.trib 1151) Trib.TX_STATE = 1 ∧
      w.rn (U.trib 1151) Trib.lineAt + 2 * w.rn (U.trib 1151) Trib.lineDur ≤ w.clk) := by
  decide +kernel

theorem witness_LanesRiseAndFall : (let w := (ready_ [(U.lane 293, Lane.RX_STATE, 0), (U.lane 293, Lane.SIGNAL, 1), (U.lane 293, Lane.CDR_LOCK, 1)]).after 0;
      w.unitBad (U.lane 293) = false ∧ w.laneN 293 Lane.RX_STATE = 0 ∧ w.rb (U.lane 293) Lane.SIGNAL = true ∧ w.nearLoop 293 = false ∧ w.rb (U.lane 293) Lane.CDR_LOCK = true ∧ w.rb (U.lane 293) Lane.DEGRADED = false) ∧
    (let w := (ready_ [(U.lane 0, Lane.SIGNAL, 1), (U.lane 0, Lane.RX_STATE, 0), (U.lane 0, Lane.DEGRADED, 1), (U.avenue 0, pllLockF 0, 1)]).after 0;
      w.rb (U.lane 0) Lane.CDR_LOCK = false ∧ w.rb (U.lane 0) Lane.SIGNAL = true ∧ w.laneN 0 Lane.RX_STATE = 0 ∧ w.nearLoop 0 = false ∧ w.pllReady 0 = true ∧ w.rb (U.lane 0) Lane.DEGRADED = true) ∧
    (let w := (ready_ [(U.lane 287, Lane.RX_STATE, 0), (U.lane 287, Lane.MODE, 1), (U.avenue 35, pllLockF 0, 1)]).after 0;
      w.laneN 287 Lane.RX_STATE = 0 ∧ w.rb (U.lane 287) Lane.SIGNAL = false ∧ w.nearLoop 287 = false ∧ w.laneN 287 Lane.MODE ≠ 3 ∧ w.pllReady 287 = true) ∧
    ((ready_ [(U.avenue 35, pllLockF 1, 1)]).after 0).rb (U.avenue 35) (pllLockF 1) = true ∧ ready.unitBad (U.avenue 35) = false ∧
    (let w := (ready_ [(U.avenue 35, pllFamilyF 1, 2)]).after 0; w.unitBad (U.avenue 35) = false ∧ w.rb (U.avenue 35) (pllLockF 1) = false ∧ w.rn (U.avenue 35) (pllFamilyF 1) ≠ 0) ∧
    (let w := (ready_ [(U.lane 5, Lane.training, 1), (U.lane 5, Lane.TRAIN_STATE, 1)]).after 0; w.rb (U.lane 5) Lane.training = true ∧ w.laneN 5 Lane.TRAIN_STATE = 1) ∧
    (let w := (ready_ [(U.lane 5, Lane.training, 1), (U.lane 5, Lane.TRAIN_STATE, 2), (U.lane 5, Lane.EQ_MODE, 0)]).after (4 * Config.second); w.rb (U.lane 5) Lane.training = true ∧ w.laneN 5 Lane.TRAIN_STATE = 2 ∧
      w.laneN 5 Lane.EQ_MODE = 0 ∧ w.laneN 5 Lane.trainAt + w.trainLimit 5 ≤ w.clk) ∧
    (let w := (ready_ [(U.lane 5, Lane.training, 1), (U.lane 5, Lane.TRAIN_STATE, 2), (U.lane 5, Lane.EQ_MODE, 2)]).after 0; w.laneN 5 Lane.TRAIN_STATE = 2 ∧ w.laneN 5 Lane.EQ_MODE ≠ 0) ∧
    (let w := (ready_ [(U.lane 5, Lane.RETRAIN, 0), (U.lane 5, Lane.TRAIN_STATE, 4), (U.lane 5, Lane.RX_STATE, 0)]).after 0;
      w.laneN 5 Lane.RETRAIN = 0 ∧ w.laneN 5 Lane.TRAIN_STATE = 4 ∧ w.laneN 5 Lane.retrainAt ≤ w.clk ∧ w.laneN 5 Lane.RX_STATE = 0) ∧
    (let w := (ready_ [(U.lane 288, Lane.wakeTx, 1), (U.lane 288, Lane.wakeRx, 1), (U.lane 288, Lane.mustTrain, 0)]).after 0; w.rb (U.lane 288) Lane.mustTrain = false ∧ w.pllReady 288 = true ∧
      w.rb (U.lane 288) Lane.wakeTx = true ∧ w.rb (U.lane 288) Lane.wakeRx = true) ∧
    (let w := (ready_ [(U.lane 287, Lane.wakeTx, 1), (U.avenue 35, pllLockF 0, 1), (U.lane 287, Lane.mustTrain, 0)]).after 0; w.rb (U.lane 287) Lane.mustTrain = false ∧ w.pllReady 287 = true) ∧
    (let w := (ready_ [(U.lane 5, Lane.CHK_EN, 1), (U.lane 5, Lane.RX_STATE, 0), (U.lane 5, Lane.CDR_LOCK, 1)]).after 0; w.unitBad (U.lane 5) = false ∧ w.rb (U.lane 5) Lane.CHK_EN = true ∧ w.laneN 5 Lane.RX_STATE = 0 ∧
      w.nearLoop 5 = false ∧ w.rb (U.lane 5) Lane.CDR_LOCK = true) ∧
    (let w := (ready_ [(U.lane 290, Lane.INJ, 2), (U.lane 290, Lane.TX_STATE, 0)]).after 0; w.laneN 290 Lane.INJ = 2 ∧ w.laneSends 290 = true) := by decide +kernel

def linked (l : List (Field × Int)) : State := ((from_ [(U.mac 143, Mac.LANE, 5), (U.mac 143, Mac.LINK, 1), (U.mac 143, unitEnableF, 1)]).wrs (U.mac 143) l).after 0
def query (v6 ok : Bool) (version src : Nat) : QueryIn := ⟨v6, ok, version, src, 0, 2, 125, 100⟩
theorem witness_FramesAndMembership : (let w := linked []; w.rn (U.mac 143) Mac.LANE ≠ 511 ∧ w.rb (U.mac 143) Mac.LINK = true ∧ w.unitBad (U.mac 143) = false ∧
      59 + 4 < 64 ∧ 64 ≤ 60 + 4 ∧ 60 + 4 ≤ w.rn (U.mac 143) Mac.MTU ∧ w.rn (U.mac 143) Mac.MTU < (w.rn (U.mac 143) Mac.MTU - 3) + 4 ∧
      w.rb (U.mac 143) Mac.ADDR = false ∧ bitAt (be (List.replicate 60 0) 0 6) 40 = false ∧ bitAt (be (1 :: List.replicate 59 0) 0 6) 40 = true) ∧
    (let w := (from_ [(U.fwd 1023, Fwd.PENDING, 1), (U.fwd 1023, Fwd.INPUT_CFG, 5)]).after (100 * Config.ms); w.rb (U.fwd 1023) Fwd.PENDING = true ∧ w.rb (U.fwd 1023) Fwd.forced = false ∧
      w.rn (U.fwd 1023) Fwd.cutAt - 1 + 100 * Config.ms ≤ w.clk ∧ w.rn (U.fwd 1023) Fwd.INPUT_CFG ≠ 2047) ∧
    (from_ [(U.fwd 3, Fwd.PENDING, 1), (U.fwd 3, Fwd.INPUT_CFG, 2047)]).rn (U.fwd 3) Fwd.INPUT_CFG = 2047 ∧
    (let w := (from_ [(U.fwd 1023, Fwd.INPUT, 5)]).after (10 * Config.ms); w.rn (U.fwd 1023) Fwd.INPUT ≠ 2047 ∧ w.rb (U.fwd 1023) Fwd.lossSeen = false ∧
      w.rn (U.fwd (w.rn (U.fwd 1023) Fwd.INPUT)) Fwd.inLast - 1 + 10 * Config.ms ≤ w.clk) ∧
    (let w := linked []; (query false false 3 9).ok = false ∧ w.unitBad (U.fwd 1023) = false ∧ (query true true 2 9).ok = true ∧ (if (query true true 2 9).v6 then 2 else 3) ≤ (query true true 2 9).version) ∧
    (let w := linked []; let q := query false true 3 9; q.ok = true ∧ w.rn (U.mac 143) (Mac.querier q.v6) = 0 ∧ (if q.v6 then 2 else 3) ≤ q.version ∧ q.robust ≠ 0) ∧
    (let w := linked [(Mac.querier false, 5)]; let q := query false true 2 9;
      w.rn (U.mac 143) (Mac.querier q.v6) ≠ 0 ∧ w.rn (U.mac 143) (Mac.querier q.v6) - 1 < q.src ∧ w.clk < w.rn (U.mac 143) (Mac.querierAt q.v6) + (2 * 125 * 1000 + q.resp / 2) * Config.ms ∧
      q.version < (if q.v6 then 2 else 3)) ∧
    (let w := linked [(Mac.compatEnd true, 1)]; w.rb (U.mac 143) (Mac.compatEnd true) = true ∧ w.rn (U.mac 143) (Mac.compatEnd true) - 1 ≤ w.clk) := by decide +kernel
/-- A report due now, to be sent twice more. -/
theorem witness_mcastReport : ∃ rs : List Report, let w := ((linked []).setBuf (U.mac 143) 20 (unreports rs)).after 0; w.stewardBusy = false ∧ w.unitBad (U.mac 143) = false ∧ w.rn (U.mac 143) Mac.LANE ≠ 511 ∧ (w.reports 143).any (fun r => decide (r.due ≤ w.clk)) = true :=
  ⟨[⟨⟨false, 0xE0000105, 0⟩, true, 3, 0⟩], by decide +kernel⟩

/-! ### Events: flows, packets, PTP, edges, the Tower -/

def flow (c : Nat) (l : List (Field × Int)) (dt : Nat) : State := (State.reset.wrs (U.rx c) l).after dt
theorem witness_FlowsReleased : (let w := flow 8191 [(Rx.STATE, rxRunning), (Rx.TYPE, 1), (Rx.any, 1)] Config.second; let u := U.rx 8191;
      w.unitBad u = false ∧ w.rb u Rx.any = true ∧ w.rd u Rx.STATE = rxRunning ∧ w.rn u Rx.TYPE = 1 ∧ w.rxRelease 8191 (if w.rn u Rx.relL = 0 then w.rd u Rx.firstK + 1 else w.rd u Rx.relK)
        (if w.rn u Rx.relL = 0 then 1 else w.rd u Rx.relL) ≤ w.now) ∧
    (let w := (flow 5 [(Rx.STATE, rxSync), (Rx.TYPE, 5)] 9).setRows (U.rx 5) 0 [[1, 5, 0, 0], [0, 6, 0, 0]];
      w.unitBad (U.rx 5) = false ∧ w.rd (U.rx 5) Rx.STATE = rxSync ∧ w.rn (U.rx 5) Rx.TYPE = 5 ∧ (w.rows (U.rx 5) 0 4).filter (fun r => decide (at_ r 1 ≤ w.now)) ≠ []) ∧
    (let w := flow 5 [(Rx.STATE, rxRunning), (Rx.TYPE, 2), (Rx.CHANNELS, 1), (Rx.relIdx, 1)] Config.ms; let u := U.rx 5;
      (w.rn u Rx.TYPE = 2 ∨ w.rn u Rx.TYPE = 3) ∧ w.rd u Rx.relIdx ≠ 0 ∧ (feedOf 0xA0 5 0 (w.valsOf u Rx.rxflowParams)).isSome = true ∧ sampleAt (w.rd u Rx.relIdx - 1) + w.rxOffset 5 ≤ w.now ∧
      (w.rows u 0 (1 + 2 * w.rn u Rx.CHANNELS)).find? (fun r => at_ r 0 == w.rd u Rx.relIdx - 1) = none) ∧
    (let w := (flow 5 [(Rx.STATE, rxRunning), (Rx.TYPE, 3), (Rx.CHANNELS, 1), (Rx.relIdx, 1)] Config.ms).setRows (U.rx 5) 0 [[0, 7, 0]]; let u := U.rx 5;
      w.rn u Rx.TYPE = 3 ∧ (feedOf 0xA0 5 0 (w.valsOf u Rx.rxflowParams)).isSome = true ∧
      ((w.rows u 0 (1 + 2 * w.rn u Rx.CHANNELS)).find? (fun r => at_ r 0 == w.rd u Rx.relIdx - 1)).isSome = true ∧
      (w.groupVideo 5).any (fun v => w.rd (U.rx v) Rx.STATE != rxRunning) = false) ∧
    (let w := flow 5 [(Rx.STATE, rxRunning), (Rx.TYPE, 1), (Rx.noData, 2)] 0; w.rn (U.rx 5) Rx.TYPE = 1 ∧ 2 ≤ w.rn (U.rx 5) Rx.noData) ∧
    (let w := flow 5 [(Rx.STATE, rxRunning), (Rx.TYPE, 3)] Config.second; w.rn (U.rx 5) Rx.lastAt - 1 + 2 * packetSamples (w.rn (U.rx 5) Rx.PTIME) * Config.second / 48000 ≤ w.clk ∧
      w.rn (U.rx 5) Rx.lastAt - 1 + 2 * Config.ms ≤ w.clk ∧ w.rn (U.rx 5) Rx.lastAt - 1 + 2 * (raster (w.rn (U.rx 5) Rx.RASTER)).line ≤ w.clk) ∧
    (flow 5 [(Rx.TYPE, 4)] 0).rn (U.rx 5) Rx.TYPE = 4 ∧
    (let w := flow 5 [(Rx.MERGE, 1), (Rx.LEGS, 3), (Rx.legAt 0, (2 * Config.ms : Nat))] (2 * Config.ms); let u := U.rx 5;
      w.rb u Rx.MERGE = true ∧ bitAt (w.rn u Rx.LEGS) 1 = true ∧ w.rn u (Rx.legAt 1) - 1 + Config.ms ≤ w.clk ∧ bitAt (w.rn u Rx.LEGS) (1 - 1) = true ∧
      w.clk < w.rn u (Rx.legAt (1 - 1)) - 1 + Config.ms) ∧
    (let w := flow 5 [(Rx.SSRC_MODE, 1)] (10 * Config.ms); w.rn (U.rx 5) Rx.SSRC_MODE = 1 ∧ w.rn (U.rx 5) (Rx.accAt 0) - 1 + 10 * Config.ms ≤ w.clk ∧ w.rn (U.rx 5) (Rx.accAt 1) - 1 + 10 * Config.ms ≤ w.clk) ∧
    (let w := flow 5 [(Rx.TYPE, 1)] 0; w.rn U.mix Mix.secondAt ≠ w.nowS + 1 ∧ (w.regs.filter fun e => e.1.unit == U.rx 5 && e.1.pos == Rx.TYPE.pos).length = 1) := by decide +kernel

def sender (c : Nat) (l : List (Field × Int)) (dt : Nat) : State := (State.reset.wrs (U.tx c) l).after dt
theorem witness_PacketsLeave : (let u := U.tx 8191; let r : List Int := [0, 9, 4, 0, 1, 0, 0, 0]; let w := ((sender 8191 [(Tx.STATE, 2), (Tx.TYPE, 1)] Config.second).setRows u 1 [r]).setBuf u 0 (List.replicate 2000 0);
      w.unitBad u = false ∧ w.rd u Tx.STATE ≠ txOff ∧ w.rd u Tx.STATE ≠ txIdle ∧ w.rn u Tx.TYPE = 1 ∧ w.rows u 1 8 = [r] ∧
      at_ r 0 + trOffset (w.rn u Tx.RASTER) (w.rn u Tx.TR_OFFSET) + (trsGrains (w.rn u Tx.RASTER) (w.rn u Tx.SENDER) (w.rn u Tx.n) (at_ r 4).toNat : Nat) ≤ w.now ∧ w.rb u Tx.tsDue = false ∧
      ((srdsOf (w.rn u Tx.RASTER) (w.rn u Tx.SAMPLING) (w.rn u Tx.DEPTH) (at_ r 6).toNat (at_ r 7).toNat (w.rn u Tx.n) (at_ r 3).toNat).map fun x => x.2.2).foldl (· + ·) 0 ≤ (w.buf u 0).length) ∧
    (let w := sender 5 [(Tx.STATE, 2), (Tx.TYPE, 2), (Tx.idx, 1)] Config.second; let u := U.tx 5; w.unitBad u = false ∧ w.rd u Tx.STATE ≠ txOff ∧
      (w.rn u Tx.TYPE = 2 ∨ w.rn u Tx.TYPE = 3) ∧ w.rd u Tx.idx ≠ 0 ∧ sampleAt (w.rd u Tx.idx - 1 + packetSamples (w.rn u Tx.PTIME)) + 10 * Config.us ≤ w.now) ∧
    (let w := (sender 5 [(Tx.STATE, 2), (Tx.TYPE, 4)] 0).setRows (U.tx 5) 2 [[9, 0, 0, 0, 0, 0]]; let u := U.tx 5;
      w.rd u Tx.STATE ≠ txIdle ∧ w.rn u Tx.TYPE = 4 ∧ w.rb u Tx.tsDue = false ∧ w.rows u 2 6 = [[9, 0, 0, 0, 0, 0]]) ∧
    (let w := ((sender 5 [(Tx.STATE, 2), (Tx.TYPE, 5)] 0).setRows (U.tx 5) 1 [[0, 1, 11009]]).setBuf (U.tx 5) 0 [7]; let u := U.tx 5;
      w.rd u Tx.STATE ≠ txIdle ∧ w.rn u Tx.TYPE = 5 ∧ w.rb u Tx.tsDue = false ∧ w.rows u 1 3 = [[0, 1, 11009]] ∧ min 11008 (11009 - 1 * 11008) ≤ (w.buf u 0).length ∧ w.followsDecisions = false) ∧
    (let w := sender 5 [(Tx.STATE, 2), (Tx.TYPE, 2), (Tx.SEAT, 1151)] Config.second; w.unitBad (U.cell 2303) = false ∧ w.cellTimed 2303 = false ∧ w.txOf (2303 - 1152) = [5] ∧
      w.rn (U.cell 2303) Cell.outAt - 1 + 2 * (w.planRas (w.cellN 2303 Cell.PLAN)).line ≤ w.clk) ∧
    (let w := sender 5 [(Tx.STATE, 2), (Tx.TYPE, 1), (Tx.SEAT, 0)] Config.second; w.txOf (1152 - 1152) = [5] ∧ w.rn (U.cell 1152) Cell.outAt - 1 + 2 * (raster (w.rn (U.tx 5) Tx.RASTER)).line ≤ w.clk) := by decide +kernel

def ptp0 : PtpIn := ⟨true, true, true, 1, 0, 127, 6, 0, true, 0, 1, 0, 0, 0, true, 0, 0, 0, 1, 37, 0, true⟩
def client (l : List (Nat × Field × Int)) (dt : Nat) : State := (from_ ([(U.ptp 0, Ptp.ENABLE, 1), (U.ptp 0, Ptp.MAC, 143), (U.mac 143, Mac.LANE, 5), (U.mac 143, Mac.LINK, 1)] ++ l)).after dt
theorem witness_PtpMessagesAct : (let a := client [(U.ptp 0, Ptp.STATE, ptUncal)] 0; a.ptpReject 0 ptp0 = none ∧ a.fromParent 0 ptp0 = true ∧ a.rb (U.ptp 0) Ptp.syncSeq = false ∧ a.unitBad (U.mac 143) = false ∧ a.stewardBusy = false ∧
      a.rb (U.ptp 0) Ptp.DELAY_MECH = false) ∧
    (let a := client [(U.ptp 0, Ptp.STATE, ptUncal), (U.ptp 0, Ptp.PARENT_PORT, 7)] 0; a.ptpReject 0 ptp0 = none ∧ a.fromParent 0 ptp0 = false) ∧
    (let a := client [(U.ptp 0, Ptp.STATE, ptUncal), (U.ptp 0, Ptp.syncSeq, 7), (U.ptp 0, Ptp.reqSeq, 7), (U.ptp 0, Ptp.hasMs, 1)] 0; a.fromParent 0 ptp0 = true ∧ a.rn (U.ptp 0) Ptp.syncSeq = ptp0.seq + 1 ∧
      (a.now : Int) - a.rd (U.ptp 0) Ptp.syncT2 ≤ logInterval (a.rd (U.ptp 0) Ptp.LOG_SYNC) ∧ a.rn (U.ptp 0) Ptp.reqSeq = ptp0.seq + 1 ∧ a.rb (U.ptp 0) Ptp.hasMs = true) ∧
    (let a := client [(U.ptp 0, Ptp.STATE, ptListening)] 0; a.ptpState 0 = ptListening ∧ ptp0.selected = true ∧ a.rn (U.ptp 0) Ptp.ACCEPT_GM = 0 ∧ ptp0.steps < 255 ∧ ptp0.domain = a.rn (U.ptp 0) Ptp.DOMAIN ∧
      a.stewardBusy = false ∧ (client [] 0).ptpReject 0 { ptp0 with versionOk := false } ≠ none) ∧
    (let a := client [(U.ptp 0, Ptp.STATE, ptUncal), (U.ptp 0, Ptp.reqSeq, 7), (U.ptp 0, Ptp.hasMs, 1)] 0; let p := { ptp0 with cf := 10 ^ 15 }; a.ptpReject 0 p = none ∧ a.fromParent 0 p = true ∧
      ((a.wr (U.ptp 0) Ptp.reqSeq 0).rd (U.ptp 0) Ptp.ms + (ptpTime p - (a.wr (U.ptp 0) Ptp.reqSeq 0).rd (U.ptp 0) Ptp.t3 - p.cf * subGrains + (a.wr (U.ptp 0) Ptp.reqSeq 0).macPs 143 Mac.ASYM_PS)) / 2 < 0) ∧
    (let w := client [(U.mac 143, Mac.TC_GROUP, 3)] 0; let x := (w.tcForward 143 2 ptp0).count (U.mac 143) Ctr.Mac.PDELAY_RX;
      w.rn (U.mac 143) Mac.TC_GROUP ≠ 15 ∧ x.rn (U.mac 143) Mac.pdSec ≠ x.nowS + 1) ∧
    (let w := client [(U.mac 143, Mac.TC_GROUP, 3), (U.mac 143, Mac.pdSec, 1), (U.mac 143, Mac.pdCount, 64)] 0; let x := (w.tcForward 143 2 ptp0).count (U.mac 143) Ctr.Mac.PDELAY_RX;
      x.rn (U.mac 143) Mac.pdSec = x.nowS + 1 ∧ 64 ≤ x.rn (U.mac 143) Mac.pdCount) ∧
    ((client [(U.mac 143, Mac.pdSeq, 7)] 0).rn (U.mac 143) Mac.pdSeq = ptp0.seq + 1 ∧ 0 ≤ ((client [] 0).ingressTs 143 - (client [] 0).rd (U.mac 143) Mac.pdT1 - ptp0.cf * subGrains) / 2 ∧ (client [] 0).rn (U.mac 143) Mac.pdSeq ≠ ptp0.seq + 1 ∧ ptp0.ours = true) ∧
    (let w := client [(U.ptp 0, Ptp.STATE, ptReceiver)] 0; w.unitBad (U.ptp 0) = false ∧ w.stewardBusy = false ∧ w.rb (U.ptp 0) Ptp.DELAY_MECH = false ∧ w.ptpState 0 = ptReceiver ∧ w.rb (U.mac (w.ptpMac 0)) Mac.LINK = true) ∧
    (let w := client [(U.ptp 0, Ptp.DELAY_MECH, 1), (U.mac 143, Mac.TC_GROUP, 3), (U.tcGroup 3, TcGroup.MODE, 2)] 0; w.measuresDelay 143 = true ∧ w.rb (U.mac 143) Mac.LINK = true) ∧
    (let w := client [(U.mac 143, Mac.LINK, 0)] 0; w.rb (U.ptp 0) Ptp.ENABLE = true ∧ w.rb (U.mac (w.ptpMac 0)) Mac.LINK = false ∧ w.ptpState 0 ≠ ptFaulty) ∧
    (let w := client [(U.ptp 0, Ptp.STATE, ptReceiver), (U.ptp 0, Ptp.annAt, 1)] (100 * Config.second); w.rb (U.ptp 0) Ptp.annAt = true ∧ w.rb (U.mac (w.ptpMac 0)) Mac.LINK = true ∧ w.rn (U.ptp 0) Ptp.annAt - 1 + w.rn (U.ptp 0) Ptp.ANNOUNCE_TIMEOUT * logInterval (w.rd (U.ptp 0) Ptp.annLog) ≤ w.clk) ∧
    (let w := client [(U.ptp 0, Ptp.STATE, ptReceiver), (U.ptp 0, Ptp.annLog, 5), (U.ptp 0, Ptp.annAt, 1)] (10 * Config.second);
      w.rb (U.ptp 0) Ptp.annAt = true ∧ w.clk < w.rn (U.ptp 0) Ptp.annAt - 1 + w.rn (U.ptp 0) Ptp.ANNOUNCE_TIMEOUT * logInterval (w.rd (U.ptp 0) Ptp.annLog) ∧ w.ptpState 0 = ptReceiver ∧
      w.rn (U.ptp 0) Ptp.syncAt + 3 * logInterval (w.rd (U.ptp 0) Ptp.LOG_SYNC) ≤ w.clk) := by decide +kernel

theorem witness_EdgesAndCaptures : State.reset.unitBad (U.capt 3) = false ∧ State.reset.unitBad (U.tt 3) = false ∧ State.reset.unitBad U.harvest = false ∧
    (let w := (from_ [(U.capt 3, Capt.EDGES, 3)]).after 0; bitAt (w.rn (U.capt 3) Capt.EDGES) 1 = true ∧ w.rb (U.capt 3) Capt.last = false) ∧
    (let w := (from_ [(U.capt 3, Capt.EDGES, 1), (U.capt 3, Capt.last, 1)]).after (39 * Config.ns); w.rb (U.capt 3) Capt.last = true ∧ w.clk + 1 < w.rn (U.capt 3) Capt.last + 40 * Config.ns ∧
      bitAt (w.rn (U.capt 3) Capt.EDGES) 0 = true) ∧
    (let w := (from_ [(U.tt 3, Tt.MODE, 1), (U.tt 3, Tt.armed, 1)]).after 0; w.rn (U.tt 3) Tt.MODE = 1 ∧ w.rb (U.tt 3) Tt.armed = true ∧ w.ttStart 3 ≤ w.now) ∧
    (let w := (from_ [(U.tt 3, Tt.MODE, 2)]).after 0; w.rn (U.tt 3) Tt.phase = 0 ∧ w.ttStart 3 ≤ w.now) ∧
    (let w := (from_ [(U.tt 3, Tt.MODE, 2), (U.tt 3, Tt.phase, 1)]).after Config.second; w.rn (U.tt 3) Tt.phase = 1 ∧ w.ttStart 3 + (w.rn (U.tt 3) Tt.WIDTH * Config.ns : Nat) ≤ w.now) ∧
    (let w := (from_ [(U.tt 3, Tt.MODE, 3)]).after 0; w.rb (U.tt 3) Tt.active = false ∧ ((w.now : Int) - w.ttStart 3) % (w.rn (U.tt 3) Tt.PERIOD * Config.ns : Nat) < (w.rn (U.tt 3) Tt.WIDTH * Config.ns : Nat)) ∧
    (let w := (from_ [(U.tt 3, Tt.MODE, 3), (U.tt 3, Tt.active, 1)]).after (500 * Config.ms); w.rb (U.tt 3) Tt.active = true ∧
      (w.rn (U.tt 3) Tt.WIDTH * Config.ns : Nat) ≤ ((w.now : Int) - w.ttStart 3) % (w.rn (U.tt 3) Tt.PERIOD * Config.ns : Nat)) ∧
    (let w := (from_ [(U.tt 3, Tt.MODE, 4), (U.tt 3, Tt.active, 1)]).after 0; let x := (w.now : Int) - w.rd (U.tt 3) Tt.TICK_OFFSET * Config.ns;
      (w.planOn (w.rn (U.tt 3) Tt.PLAN) && decide (x - w.tickTime (w.rn (U.tt 3) Tt.PLAN) (w.tickAt (w.rn (U.tt 3) Tt.PLAN) x) x < (w.rn (U.tt 3) Tt.WIDTH * Config.ns : Nat))) ≠ w.rb (U.tt 3) Tt.active) ∧
    (let w := (State.reset.setTtPending 3 [(0, 0, 1)]).after 0; (w.ttPending 3).filter (fun x => decide (x.1 ≤ (w.now : Int))) = [(0, 0, 1)]) ∧
    (let w := (from_ [(U.harvest, Harv.ARMED, 1), (U.harvest, Harv.target, 1)]).after 0; w.rb U.harvest Harv.ARMED = true ∧ 0 < w.rn U.harvest Harv.target ∧
      w.rn U.harvest Harv.target ≤ w.now + 2 * Config.ns ∧ w.rb U.harvest Harv.copying = false) ∧
    ((from_ [(U.harvest, Harv.copying, 1)]).after 0).rb U.harvest Harv.copying = true := by decide +kernel

theorem witness_TowerFollowsReferences : candClass 11 ≠ 0 ∧ candClass 8 ≠ 0 ∧ State.reset.unitBad U.tower = false ∧
    (let w := (from_ [(U.cand 8, Cand.SEAT, 5), (U.trib 5, Trib.RX_RATE, 1), (U.cand 8, Cand.RASTER, 0x0A)]).after 0; w.seatShows (w.rn (U.cand 8) Cand.SEAT) (w.rn (U.cand 8) Cand.RASTER) = false) ∧ State.reset.tower Tower.STATE ≠ twFault ∧ ((State.reset.after 0).now % Config.second = 0) ∧
    (let y := ((((List.range 12).foldl State.windowCand (State.reset.after 0)).historySecond.loopSecond)).settlePending; 12 ≤ y.towerN Tower.SELECTED) ∧
    (let y := ((((List.range 12).foldl State.windowCand ((from_ [(U.tower, Tower.SELECTED, 4), (U.cand 4, Cand.STATE, cdQualified), (U.cand 4, Cand.ENABLE, 1)]).after 0)).historySecond.loopSecond)).settlePending;
      y.towerN Tower.SELECTED < 12 ∧ candClass (y.towerN Tower.SELECTED) = 2) ∧
    (let w := (from_ [(U.cand 11, Cand.STATE, cdQualifying)]).after 0; w.candState 11 = cdQualifying ∧ w.rn (U.cand 11) Cand.QUAL_LEFT = 0) ∧
    (let w := (from_ [(U.ptp 0, Ptp.lost, 1)]).after 0; candClass 6 = 0 ∧ w.rb (U.ptp (6 - 6)) Ptp.lost = true) ∧
    (let w := (from_ [(U.cand 8, Cand.SEAT, 5), (U.kerb 5, Kerb.STATE, 4)]).after 0; w.rd (U.kerb (w.rn (U.cand 8) Cand.SEAT)) Kerb.STATE = 4) ∧
    ((State.reset.after 0).rd (U.kerb ((State.reset.after 0).rn (U.cand 11) Cand.SEAT)) Kerb.STATE ≠ 4 ∧ (State.reset.after 0).rd (U.kerb ((State.reset.after 0).rn (U.cand 11) Cand.SEAT)) Kerb.STATE ≠ 5) ∧
    (let w := (from_ [(U.cand 0, Cand.last, 1)]).after (20 * Config.second); w.rd (U.cand 0) Cand.last ≠ 0 ∧ 13 * (w.candP 0 : Int) ≤ 4 * ((w.now : Int) - (w.rd (U.cand 0) Cand.last - 1))) ∧
    (let w := (from_ [(U.tower, Tower.STATE, twAcquire), (U.tower, Tower.okSince, 1)]).after (1000 * Config.second); w.tower Tower.STATE = twAcquire ∧ w.towerN Tower.okSince ≠ 0 ∧
      w.towerN Tower.okSince - 1 + w.lockTime (w.towerN Tower.SELECTED) ≤ w.clk) ∧
    (let w := (from_ [(U.tower, Tower.STATE, twLocked), (U.tower, Tower.badSince, 1)]).after Config.second; w.tower Tower.STATE = twLocked ∧ w.towerN Tower.badSince ≠ 0 ∧
      w.towerN Tower.badSince - 1 + Config.second ≤ w.clk) := by decide +kernel

/-! ### Events: pictures, samples, Stooks, the Barn, boot, the twin -/

/-- Sub-slot 7 of slot 127 runs; the last line of its frame, with no words, is all that came. -/
def subOn (l : List (Nat × Field × Int)) : State := ready_ ([(U.sub 127 7, Sub.STATE, subRunning), (U.gran 127, Gran.MODE, 3), (U.gran 127, Gran.BAD_LINES_MAX, 0)] ++ l)
def ended : State := (subOn []).setCaught (U.sub 127 7) [⟨(subOn []).unitLast 127, [], false, false, false, 0⟩]
/-- Two lines before the end of a frame of plan 0. -/
def deciding : Nat := (raster 0).frame - 2 * (raster 0).line
theorem witness_FramesStoredAndComposed : (let w := (subOn []).after 0; w.rd (U.sub 127 7) Sub.STATE ≠ subOff ∧ w.unitBad (U.gran 127) = false ∧ w.unitEnded 127 7 = false) ∧
    (let w := ended.after 0; w.rd (U.sub 127 7) Sub.STATE ≠ subOff ∧ w.unitBad (U.gran 127) = false ∧ w.unitEnded 127 7 = true ∧
      (((w.gathered 127 7).2.setCaught (U.sub 127 7) []).wr (U.sub 127 7) Sub.PAYLOAD_ID 0).rn (U.gran 127) Gran.BAD_LINES_MAX < (w.gathered 127 7).1.broken.length) ∧
    (let w := (subOn [(U.sub 127 7, Sub.inAt, 1)]).after (2 * (raster 0).line); w.rb (U.sub 127 7) Sub.inAt = true ∧
      w.rn (U.sub 127 7) Sub.inAt - 1 + 2 * (w.planRas (w.rn (U.gran 127) Gran.PLAN)).line ≤ w.clk) ∧
    (let w := (subOn []).after deciding; w.decisionNow (w.rn (U.gran 127) Gran.PLAN) = true ∧ w.rn (U.sub 127 7) Sub.decidedAt ≠ w.clk + 1 ∧ w.followsDecisions = false) ∧
    (let w := (subOn [(U.twin, Twin.ROLE, roleStandby), (U.twin, Twin.PAIR, prInStep)]).after deciding; w.followsDecisions = true ∧ w.rd (U.sub 127 7) Sub.STATE = subRunning) ∧
    (let s : State := { State.reset with bg := [⟨1, 0, 0xC2, 127, 1, [64], 0⟩] }; ((s.after 0).bg.find? fun b => b.op == 0xC2 && b.index == 127 && b.sub == 1).isSome = true) ∧
    ((ready_ [(U.scaler 191, Scaler.HEADS, 1), (U.scaler 191, unitStateF (U.scaler 191), stReady)]).after 0).scalerOn 191 = true ∧
    (let w := (ready_ [(U.head 15, Head.OUTPUT, 1), (U.head 15, unitStateF (U.head 15), stReady)]).after deciding; w.headLive 15 = true ∧ w.decisionNow (w.rn (U.head 15) Head.PLAN) = true ∧
      w.rn (U.head 15) Head.decidedAt ≠ w.clk + 1) := by decide +kernel

def heard (l : List (Nat × Field × Int)) : State := (from_ ([(U.detector, unitEnableF, 1), (U.detector, unitStateF U.detector, stReady), (U.mix, Mix.lastMs, 1)] ++ l)).after (100 * Config.ms)
theorem witness_SamplesMixedAndMeasured : (let w := State.reset.after 0; w.unitBad U.mix = false ∧ w.rn U.mix Mix.lastMs ≠ w.now / Config.ms + 1 ∧ (from_ [(U.mix, Mix.lastMs, 1)]).rn U.mix Mix.lastMs = w.now / Config.ms + 1) ∧
    (let w := (from_ [(U.deemb 2303, Deemb.ENABLE, 1), (U.kerb 2303, Kerb.STATE, kAligned)]).after 0; (feedOf 0x62 2303 0 (w.valsOf (U.deemb 2303) Deemb.deembcfgParams)).isSome = true ∧ w.unitBad (U.deemb 2303) = false ∧ w.seatSounds 2303 = true) ∧
    (let w := heard []; let u := chanUnit 0 131071; w.unitBad U.detector = false ∧ w.detectorOn = true ∧ 131071 < spaceSize 0 ∧ w.spaceOdd 0 131071 = false ∧ w.rd u Det.block ≠ w.lastBlock + 1 ∧
      w.rb u Det.SILENT = false ∧ w.rn u Det.quiet + 1 < w.profN 0 131071 DetProf.SIL_TIME * 100 ∧
      (clipRuns (levelOf (w.profN 0 131071 DetProf.CLIP_LEVEL)) (w.profN 0 131071 DetProf.CLIP_RUN) (w.rn u Det.run) 0 (w.blockSamples 0 131071 w.lastBlock)).2 = 0) ∧
    (let w := heard [(chanUnit 1 65535, Det.SILENT, 1)]; 65535 < spaceSize 1 ∧ w.rb (chanUnit 1 65535) Det.SILENT = true ∧ w.rd (chanUnit 1 65535) Det.block ≠ w.lastBlock + 1 ∧ w.spaceOdd 1 65535 = false) ∧
    (let w := (from_ [(U.detector, unitStateF U.detector, stReady), (chanUnit 0 5, Det.count, 48000), (chanUnit 0 5, Det.DC, 1)]).after Config.second; w.detectorOn = true ∧ w.rd (chanUnit 0 5) Det.count ≠ 0 ∧
      w.rd (chanUnit 0 5) Det.second ≠ (w.now / Config.second : Nat) ∧ w.now % Config.second < Config.ms) ∧
    (let w := (from_ [(chanUnit 1 7, Det.CLIPPED, 1)]).after Config.second; w.rb (chanUnit 1 7) Det.CLIPPED = true ∧ w.rd (chanUnit 1 7) Det.clipAt + Config.second ≤ w.clk) ∧
    (let w := heard []; w.now % (100 * Config.ms) = 0 ∧ w.unitBad U.detector = false ∧ w.loudChans 1023 = [] ∧ w.rb (U.corr 4095) Corr.set = false ∧ w.rd (U.loud 1023) Loud.reportAt ≠ (w.now / Config.ms : Nat) ∧
      w.rd (U.corr 4095) Corr.reportAt ≠ (w.now / Config.ms : Nat)) ∧
    (let w := heard [(U.loud 1023, Loud.roleF 0, 1), (U.corr 4095, Corr.set, 1)]; w.detectorOn = true ∧ w.loudChans 1023 ≠ [] ∧ w.rb (U.corr 4095) Corr.set = true) ∧
    (let w := (from_ [(U.tap 63, Tap.ENABLE, 1)]).after 0; w.now % Config.ms = 0 ∧ w.unitBad (U.tap 63) = false ∧ w.rd (U.tap 63) Tap.block ≠ w.lastBlock + 1 ∧
      pv Tap.tapcfgParams (w.tapConfig (U.tap 63) w.lastBlock).1 Tap.ENABLE ≠ 0) ∧
    (let w := State.reset.after Config.ms; w.rd (U.tap 63) Tap.block ≠ w.lastBlock + 1 ∧ pv Tap.tapcfgParams (w.tapConfig (U.tap 63) w.lastBlock).1 Tap.ENABLE = 0) := by decide +kernel

def stook (n side : Nat) (l : List (Field × Int)) (dt : Nat) : State := ((from_ [(U.stookPort n, unitEnableF, 1), (U.stookSide n side, unitEnableF, 1)]).wrs (U.stookSide n side) l).after dt
theorem witness_StooksRun : (let w := stook 15 0 [(Src.asrc, 1)] 0; w.unitBad (U.stookSide 15 0) = false ∧ w.rb (U.stookSide 15 0) Src.asrc = true ∧ w.rb (U.stookSide 15 0) Src.asrcLock ≠ true) ∧
    (let w := stook 0 0 [(Src.asrc, 1), (Src.asrcLock, 1)] 0; w.rb (U.stookSide 0 0) Src.asrcLock ≠ false) ∧
    (let w := stook 15 1 [(Stook.STATE, stStarting)] (2 * Config.ms); w.unitBad (U.stookPort 15) = false ∧ w.rd (U.stookSide 15 1) Stook.STATE = stStarting ∧ w.rn (U.stookSide 15 1) Stook.since + 2 * Config.ms ≤ w.clk) ∧
    (let w := stook 15 1 [(Stook.STATE, stStopping), (Stook.again, 1)] (3 * Config.ms); w.rd (U.stookSide 15 1) Stook.STATE = stStopping ∧ w.rn (U.stookSide 15 1) Stook.since + 3 * Config.ms ≤ w.clk) ∧
    (let u := U.stookSide 15 0; let w := stook 15 0 [(Stook.STATE, stRunS), (Stook.MODE, 1), (Stook.CLOCK, 1)] Config.ms;
      w.stookSlave u 0 = true ∧ w.rn u Stook.MODE = 1 ∧ w.rd u Stook.STATE ≠ stOffS ∧ w.rd u Stook.STATE ≠ stLost ∧ w.rd u Stook.STATE ≠ stStopping ∧
      2 * Config.second ≤ (w.clk - w.rn u Stook.edgeAt) * rateHz (w.rn u Stook.RATE) ∧
      (feedOf 0x6E 15 0 (w.valsOf u Stook.stookcfgParams)).isSome = true ∧ w.unitBad u = false) ∧
    (let w := stook 15 1 [(Stook.STATE, stRunS), (Stook.MODE, 2), (Stook.CLOCK, 1)] 0; w.stookSlave (U.stookSide 15 1) 1 = true) ∧
    (let w := stook 15 0 [(Stook.STATE, stLost), (Stook.MODE, 2), (Stook.aesGood, 7)] 0; let r := U.stookSide 15 0; w.rn r Stook.MODE = 2 ∧ w.rd r Stook.STATE ≠ stOffS ∧ w.rd r Stook.STATE ≠ stStopping ∧
      w.rb r Stook.aesLock = false ∧ ¬ w.rn r Stook.aesGood + 1 < 8) ∧
    (let w := stook 0 0 [(Stook.STATE, stRunS), (Stook.MODE, 2), (Stook.aesLock, 1), (Stook.aesBad, 1)] 0; let r := U.stookSide 0 0; w.rn r Stook.MODE ≠ 1 ∧ w.rb r Stook.aesLock = true ∧ ¬ w.rn r Stook.aesBad + 1 < 2 ∧
      (feedOf 0x6E 0 0 (w.valsOf r Stook.stookcfgParams)).isSome = true ∧ w.rd r Stook.STATE ≠ stOffS ∧ w.rd r Stook.STATE ≠ stStopping ∧ w.unitBad r = false) ∧
    (let w := stook 15 1 [(Stook.STATE, stRunS), (Stook.MODE, 1), (Stook.CLOCK, 1)] 0; let t := U.stookSide 15 1; w.rd t Stook.STATE ≠ stOffS ∧ w.rd t Stook.STATE ≠ stStopping ∧ w.unitBad t = false ∧
      pn Stook.stookcfgParams (w.valsOf t Stook.stookcfgParams) Stook.CLOCK = 1) ∧
    (let w := stook 15 1 [(Stook.STATE, stRunS), (Stook.MODE, 1), (Stook.CLOCK, 0)] (250 * Config.us); let t := U.stookSide 15 1;
      w.masterEdge t (pn Stook.stookcfgParams (w.valsOf t Stook.stookcfgParams) Stook.RATE) w.now = true) := by decide +kernel

def bgd (op th ix sub : Nat) (vs : List Int) : State := { State.reset with bg := [⟨1, th, op, ix, sub, vs, 0⟩] }
theorem witness_BulkEndsAndUnitsChange : ((bgd 0xC0 63 65535 0 [7]).shadow = none ∧ ((bgd 0xC0 63 65535 0 [7]).bgFirst 0xC0 63).isSome = true ∧ ((bgd 0xC1 63 0 0 [8, 7]).bgFirst 0xC1 63).isSome = true) ∧
    (let w := (from_ [(U.probe 63, Probe.FUNCTION, 1), (U.probe 63, Probe.hasNow, 1)]).after Config.second; w.now % Config.second = 0 ∧ w.rn (U.probe 63) Probe.FUNCTION = 1 ∧ w.unitBad (U.cell 2687) = false ∧ w.rb (U.probe 63) Probe.hasNow = true) ∧
    (let w := ((bgd 0x55 0 63 0 []).wr (U.probe 63) Probe.cap 3).after 0; (w.bg.find? fun b => b.op == 0x55 && b.index == 63).isSome = true ∧ 3 ≤ w.rn (U.probe 63) Probe.cap) ∧
    (let w := (from_ [(U.gran 127, unitStateF (U.gran 127), stWaking)]).after 0; U.gated (U.gran 127) = true ∧ w.unitState (U.gran 127) = stWaking) ∧
    (let w := (from_ [(U.gran 127, unitStateF (U.gran 127), stReady)]).after Config.second; let n := U.gran 127; U.gated n = true ∧ U.classOf n ≠ 0x08 ∧ U.classOf n ≠ 0x19 ∧ w.unitState n = stReady ∧
      w.carries n = false ∧ w.named n = false ∧ w.rn n unitReadyF + Config.second ≤ w.clk ∧ w.rn n unitWorkF + Config.second ≤ w.clk) ∧
    (let w := State.reset.after 0; U.classOf (U.kerb 5) ≠ 0 ∧ w.unitState (U.kerb 5) ≠ stFault ∧ w.chanFault 23 = false) ∧
    (let w := (from_ [(U.chan 23, unitStateF (U.chan 23), stReady)]).after Config.second; w.unitState (U.chan 23) = stReady ∧ w.carries (U.chan 23) = false ∧ w.rn (U.chan 23) unitWorkF + Config.second ≤ w.clk) ∧
    (let w := (State.reset.setBuf (U.chan 23) Chan.bursts (List.replicate 65 0)).after (Config.second - 1); w.chanFault 23 = false ∧ 64 < (w.burstsOfSecond 23).length) := by decide +kernel
theorem witness_BarnStoresLandWhereComputed : answers (exec (.barnwrDone 0 63) (bgd 0xC1 63 0 0 [8, 7])) (fun t => barnGet t.barn 8 == 7 && barnGet t.barn 7 == 0) = true ∧
    State.reset.shadow = none ∧ State.reset.bgFirst 0xC1 63 = none ∧ answers (exec (.barnwrDone 0 63) State.reset) (fun _ => true) = true ∧
    answers (exec (.jtagAccess 0 0x100000008 1 (some 7)) (from_ [(U.boot, Boot.STAGE, 5)])) (fun t => barnGet t.barn 8 == 7) = true := by decide +kernel

def reset0 : ResetIn := ⟨true, true, 0, 0, false, [], none, env0, 0⟩
theorem witness_BootProceeds : reset0.pwrgood = true ∧ State.reset.rb U.boot Boot.released = false ∧
    (let w := (bgd 0xF3 5 0 8 [0, -1, 7]).after 0; (w.bgFirst 0xF3 5).isSome = true ∧ bitAt 8 0 = false ∧ bitAt 8 3 = true ∧ ([0, -1, 7] : List Int).getD 1 (-1) < 0) ∧
    (let w := (bgd 0xF3 1000 0 8 [0, 3, 7]).after 0; (w.bgFirst 0xF3 1000).isSome = true ∧ 0 ≤ ([0, 3, 7] : List Int).getD 1 (-1)) ∧
    (let w := (bgd 0xF3 5 0 9 [0, -1]).after 0; (w.bgFirst 0xF3 5).isSome = true ∧ bitAt 9 0 = true) ∧
    (let w := ((bgd 0xF4 5 0 0 [0, 0]).wr U.boot Boot.ACT_STATE 1).after 0; w.activation.isSome = true ∧ w.bootN Boot.ACT_STATE = 1 ∧ (false = false ∨ w.payloadOk w.loadSlot = false)) ∧
    (let w := ((bgd 0xF4 5 0 0 [0, 0]).wr U.boot Boot.ACT_STATE 2).after 0; w.bootN Boot.ACT_STATE = 2) ∧
    (let w := ((bgd 0xF4 5 0 0 [0, 0]).wr U.boot Boot.ACT_STATE 3).after 0; w.bootN Boot.ACT_STATE = 3 ∧ w.bootN Boot.ACT_TICK ≤ w.rd (U.plan (bitsAt 0 6 3)) Plan.TICK) ∧
    (let w := ((bgd 0xF4 5 0 0 [0, 0]).wr U.boot Boot.ACT_STATE 4).after (20 * Config.ms); w.bootN Boot.ACT_STATE = 4 ∧ w.clk ≤ w.bootN Boot.handAt + 20 * Config.ms ∧ w.bootN Boot.handAt + 20 * Config.ms ≤ w.clk ∧
      (w.bootSet [(Boot.BANK, (1 - w.bootN Boot.BANK : Nat)), (Boot.RUN_VERSION, w.bootN Boot.oldVersion)]).pickCopy (fun f => f == w.bootN Boot.setFormat) = none) ∧
    ((bgd 0xF5 5 0 0 []).after 0).bg.filter (·.op == 0xF5) ≠ [] ∧ ((from_ [(U.boot, Boot.STAGE, 3)]).after 0).bootN Boot.STAGE = 3 ∧
    (windowOf 0x20000008 = some 0 ∧ windowOf 0x40000000 = some 1 ∧ windowOf (0x20000008 + 8 * (3 - 1)) = some 0 ∧ (0x20000008 : Nat) % 8 = 0) ∧
    ((from_ [(U.boot, Boot.STAGE, 5)]).after 0).bootN Boot.STAGE = 5 := by decide +kernel
/-- A settings copy of the format that the image names is there. -/
theorem witness_activationResumed : (settled.after 0).pickCopy (fun f => f == ready.hdrFormat 1) = some 0 := by decide +kernel

def kept (link : Nat) (m : LinkMsg) (l : List (Nat × Field × Int)) : State := { from_ ([(U.boot, Boot.STAGE, 3)] ++ l) with links := [(⟨link, 0⟩, [m])] }
def alleyOn : List (Nat × Field × Int) := [(U.lane 288, Lane.LINK, 1), (U.lane 289, Lane.LINK, 1)]
def hdr (origin dest hops : Nat) : Word := ringWord origin dest hops 0
theorem witness_LinkMessagesAct : (let w := (from_ [(U.boot, Boot.STAGE, 3), (U.boot, Boot.NODE, 9)]).after 0; w.fpRuns = true ∧ bitsAt (5 : Word).toNat 63 51 = 0 ∧ bitsAt (5 : Word).toNat 15 0 ≠ w.bootN Boot.NODE) ∧
    (let w := (from_ [(U.boot, Boot.STAGE, 3), (U.boot, Fp.up 1, 1), (U.boot, Fp.helloAt 1, 1)]).after (3 * Config.ms); w.fpUp 1 = true ∧ w.bootN (Fp.helloAt 1) + 3 * Config.ms ≤ w.clk + 1) ∧
    ((from_ [(U.boot, Boot.STAGE, 3)]).after 0).fpUp 2 = false ∧
    (let w := (kept 1 (msg 5 [0, 0]) [(U.boot, Fp.up 1, 1)]).after 0; w.fpUp 1 = true ∧ (w.keptMsg 1 (ackSeq (msg 0x7F [1]))).isSome = true ∧ (w.oldestKept 1).isSome = true ∧ w.rb U.boot (Fp.up 1) = true) ∧
    (let w := (from_ [(U.boot, Boot.STAGE, 3), (U.boot, Fp.up 1, 1), (U.boot, Boot.NODE, 9)]).after 0; let own := hdr 9 9 63; let mine := hdr 4 9 5; let pass := hdr 4 7 5;
      w.fpRuns = true ∧ w.fpUp 1 = true ∧ bitsAt own.toNat 47 38 = 0 ∧ ringOrigin own.toNat = w.bootN Boot.NODE ∧ ringOrigin mine.toNat ≠ w.bootN Boot.NODE ∧ ringDest mine.toNat = w.bootN Boot.NODE ∧
      ringHops pass.toNat ≠ 0 ∧ ringDest pass.toNat ≠ w.bootN Boot.NODE ∧ ((w.footSend 1 0x7E [1]).buf U.boot 53).contains (1 : Int) = false ∧
      bitsAt (0 : Word).toNat 31 28 = 0 ∧ w.wordsQueued 9 + 2 ≤ ringWords ∧ w.bootN Boot.STAGE ≠ 4 ∧ w.unitBad U.twin = false ∧ goodCrc (msg 0x7E [1]) = true ∧ goodCrc ⟨0x7E, 1, [1], 0⟩ = false) ∧
    (let w := (from_ alleyOn).after 0; w.alleyUp = true ∧ w.seenMsg 1 = false ∧ ((msg 4 [8, 0, 0, 0]).body.getD 0 0 = 8)) ∧
    ((((from_ alleyOn).setBuf U.twin 53 [1]).after 0).seenMsg 1 = true) ∧
    (let w := (from_ [(U.twin, Twin.ROLE, roleStandby), (U.twin, Twin.PAIR, prInStep)]).after 0; w.tw Twin.ROLE = roleStandby ∧ w.tw Twin.PAIR ≠ prReplicating ∧ w.shadow = none) ∧
    (let w := (kept 0 (msg 4 [8]) alleyOn).after 0; (w.keptMsg 0 (ackSeq (msg 0x7F [1]))).isSome = true ∧ (w.oldestKept 0).isSome = true ∧ w.alleyUp = true ∧ (msg 4 [8]).typ ≠ 0x30) ∧
    (let w := (kept 0 (msg 0x30 [8]) alleyOn).after 0; w.cellNv (nvAttempts 0) (msg 0x30 [8]).seq 0 < 8 ∧ w.oldestKept 0 = some (msg 0x30 [8])) ∧
    (let w := State.reset.after 0; w.alleyUp = false ∧ w.rb U.twin Twin.wasDown = false) := by decide +kernel

def twin (l : List (Field × Int)) (dt : Nat) : State := (ready.wrs U.twin l).after dt
theorem witness_heartbeats : (let w := twin [(Twin.MODE, 1)] 0; w.tw Twin.MODE ≠ 0 ∧ w.twN Twin.hbSlot ≠ w.now / slotLen + 1) ∧
    (let w := twin [(Twin.MODE, 1)] 0; let w1 : Nat := 2 ^ 26; bitsAt w1 63 40 = 0 ∧ w.rb U.twin Twin.hbAny = false ∧ bitsAt w1 26 26 ≠ w.twN Twin.SIDE ∧
      w.rn U.boot Boot.twMin ≤ bitsAt w1 3 0 ∧ bitsAt w1 3 0 ≤ w.rn U.boot Boot.twMax) ∧
    (let w := twin [(Twin.MODE, 1), (Twin.ROLE, roleActive)] (slotLen * 3 + 2 * Config.us); w.tw Twin.MODE ≠ 0 ∧ 2 * Config.us ≤ w.now % slotLen ∧ w.twN Twin.missSlot ≠ w.now / slotLen + 1 ∧
      w.twN Twin.hbAt + Config.us < (w.clk - w.now % slotLen) + 1 ∧ w.twN Twin.missRun = 0) ∧
    (let w := twin [(Twin.MODE, 1), (Twin.ROLE, roleActive), (Twin.missRun, 2)] (slotLen * 3 + 2 * Config.us); 2 ≤ w.twN Twin.missRun ∧ w.tw Twin.ROLE = roleActive) ∧
    (let w := twin [(Twin.MODE, 1), (Twin.ROLE, roleStandby), (Twin.missRun, 3), (Twin.PAIR, prInStep)] (40 * Config.us); w.tw Twin.MODE = 1 ∧ w.tw Twin.ROLE = roleStandby ∧ 3 ≤ w.twN Twin.missRun ∧
      w.twN Twin.hbAt + 40 * Config.us ≤ w.clk + 1 ∧ w.tw Twin.PAIR ≠ prAlleyDown) ∧
    (let s : State := { State.reset with held := some ⟨0, 0, [], [], []⟩ }; s.held.isSome = true ∧ (s.after 0).twN Twin.holdEnd ≤ (s.after 0).clk + 1) ∧
    (let w := twin [(Twin.PAIR, prSeeking)] Config.ms; w.tw Twin.PAIR = prSeeking ∧ w.twN Twin.seekAt + Config.ms ≤ w.clk ∧ w.rb U.twin Twin.hbAny = false) ∧
    (let w := twin [(Twin.PAIR, prSeeking), (Twin.hbAny, 1), (Twin.PARTNER_ROLE, 1)] Config.ms; w.rb U.twin Twin.hbAny = true ∧ w.twN Twin.missRun < 3 ∧ w.rb U.twin Twin.refused = false ∧ w.twN Twin.PARTNER_ROLE = 1) ∧
    (twin [(Twin.PAIR, prSeeking), (Twin.hbAny, 1), (Twin.PARTNER_ROLE, 0)] Config.ms).twN Twin.PARTNER_ROLE = 0 := by decide +kernel
/-- Messages of the Alley between twins. -/
theorem witness_TwinDecidesAndFollows : recHead (msg 0x20 []) = none ∧ recHead (msg 0x20 [4096, 0, 0]) = some (0, 1, 0, 0) ∧ (twin [] 0).unitBad U.twin = false ∧ (twin [] 0).seenMsg 1 = false ∧ goodCrc (msg 0x22 [0]) = true ∧
    (twin [(Twin.PAIR, prInStep)] 0).tw Twin.PAIR = prInStep ∧
    (let w := twin [(Twin.ROLE, roleStandby), (Twin.PAIR, prReplicating)] 0; w.tw Twin.ROLE = roleStandby ∧ w.tw Twin.PAIR = prReplicating ∧ (w.loadItems 1 []).shadow = none) ∧
    (let w := twin [(Twin.ROLE, roleActive), (Twin.PAIR, prReplicating), (Twin.repl, 2)] 0; w.tw Twin.ROLE = roleActive ∧ w.tw Twin.PAIR = prReplicating ∧ w.twN Twin.repl = 2 ∧ w.planOn (w.twN Twin.TWIN_PLAN) = true) ∧
    (twin [(Twin.ROLE, roleStandby), (Twin.PAIR, prReplicating), (Twin.loaded, 1)] 0).rb U.twin Twin.loaded = true ∧
    (let w := twin [(Twin.ROLE, roleStandby), (Twin.PAIR, prInStep)] Config.second; w.followsDecisions = true ∧ manPlan (msg 3 [0, 0]) < 16 ∧ w.planOn 0 = true ∧
      (let k := w.tickAt 0 ((w.now : Int) + curfewLead - 10 * Config.us); w.rd (U.plan 0) Plan.manTick ≤ k ∧ w.rd (U.plan 0) Plan.TICK < k ∧ (w.manifests 0).any (manTickOf · == k) = false) ∧
      w.rd (U.plan 0) Plan.manTick ≤ manTickOf (msg 3 [0, 0]) ∧ w.manifestMet 0 (manifestRows []) = true ∧ decisionUnit 4 (U.tx 8191) = true ∧ decisionUnit 0 (U.sub 0 0) = true ∧
      w.rn (U.tx 8191) Tx.tsDue ≤ w.clk + 1 ∧ w.rn (U.sub 0 0) Sub.choiceDue ≤ w.clk + 1) ∧
    (let w := (twin [(Twin.ROLE, roleStandby), (Twin.PAIR, prInStep)] Config.second).setManifests 15 [msg 3 [0, 0, 0x100]]; (w.manifests 15).head? = some (msg 3 [0, 0, 0x100]) ∧
      w.manifestMet 15 (manifestRows [0x100]) = true ∧ w.manifestMet 15 (manifestRows [0x100, 0]) = false ∧ w.tickTime 15 0 w.now - curfewLead + 40 * Config.us ≤ w.now) ∧
    decisionUnit 1 (U.layer 0 0) = true ∧ decisionUnit 3 (U.rx 8191) = true ∧ (twin [] 0).rn (U.layer 0 0) Layer.choiceDue ≤ 1 ∧ (twin [] 0).rd (U.rx 8191) Src.due ≤ 0 ∧
    copying.onCopy = true ∧ copying.unitBad U.twin = false ∧
    (let w := twin [(Twin.ROLE, roleStandby), (Twin.PAIR, prReplicating), (Twin.stepDue, 1)] (2 * Config.second); w.twN Twin.replAt - 1 + 2 * Config.second ≤ w.clk ∧ w.tw Twin.stepDue ≠ 0 ∧
      w.planOn (w.twN Twin.TWIN_PLAN) = true ∧ w.tw Twin.stepDue - 1 ≤ w.tickAt (w.twN Twin.TWIN_PLAN) w.now) := by decide +kernel

/-! ### Worked examples and small steps. Each expected value is the spec's, or worked by hand from its words. -/

/-- Chapter 2, two plans at once: at 1,700,000,000 s + 123,456,789 ns TP0 (raster 0x1A) has had tick 85,000,000,006 and TP1 (raster 0x06) tick 50,949,050,952. -/
theorem test_ticks_of_two_plans : let s := from_ [(U.plan 0, Plan.STATE, planAligned), (U.plan 0, Plan.RASTER, 0x1A), (U.plan 1, Plan.STATE, planAligned), (U.plan 1, Plan.RASTER, 6)];
    let t := 1700000000 * Config.second + 123456789 * Config.ns;
    s.tickAt 0 t = 85000000006 ∧ s.tickAt 1 t = 50949050952 ∧ s.tickAt 0 (t + 16649 * Config.us) = 85000000006 ∧ s.tickAt 0 (t + 16650 * Config.us) = 85000000007 := by decide +kernel
/-- Chapter 16: `cellcfg` of seat 576 packs into SUB as 0x03_FFC1. -/
theorem test_cellcfg_packs : (kp 576 0 false Cell.cellcfgParams [1, 0, 0, 4095]).ops = BitVec.ofNat 52 0x0024000003FFC1 := by decide +kernel
/-- Table 21.8: the block of Cell 576. -/
theorem test_cell_block : let s := from_ [(576, Cell.MODE, 1), (576, Cell.PLAN, 0), (576, Cell.LOSS_POLICY, 0), (576, Cell.FALLBACK_SEAT, 4095), (576, Cell.SOURCE, 700), (576, Cell.OUTPUT, 1),
      (576, Cell.DBUNDLE, 0x3FF), (576, Cell.LAST_TICK, 85000000030)];
    s.unitSpace 0x90020 = 0x007FE0040AF3FFC1 ∧ s.unitSpace 0x90028 = 0x00000013CA65121E ∧ s.unitSpace 0x90010 = 0 := by decide +kernel
/-- Table 17.4: an edge at 300,012,345.6 ns takes T 300,100,000 ns. -/
theorem test_harvest_target : gridFrom (3000123456 * Config.ns / 10 + 20 * Config.us) = 300100000 * Config.ns := by decide +kernel
/-- FIPS 180-4 and the CRC of IEEE 802.3: digests of no byte, and of eight zero bytes. -/
theorem test_digests : Sha.sha384 [] = 0x38b060a751ac96384cd9327eb1b1e36a21fdb71114be07434c0cc7bf63f6e1da274edebfe76f65fbd51ad2f14898b95b ∧ crc32 [0] = 0x6522DF69 := by decide +kernel
/-- SHA-384 of no byte, as six words of a slot's header. -/
def emptyDigest : List Nat := [0x3896ac51a760b038, 0x6ae3b1b17e32d94c, 0x4307be1411b7fd21, 0xdae1f663bfc70c4c, 0xfb656fe7bfde4e27, 0x5bb99848f1d21ad5]
/-- An activation whose image has no payload, and its digest in the header. -/
def imaged : State := (((bgd 0xF4 5 0 0 [0, 0]).wr U.boot Boot.ACT_STATE 1).flashPutWords (slotBase 1 + 8) [0]).flashPutWords (slotBase 1 + 32) emptyDigest
theorem witness_payloadOk : (imaged.after 0).activation.isSome = true ∧ (imaged.after 0).bootN Boot.ACT_STATE = 1 ∧ (imaged.after 0).payloadOk (imaged.after 0).loadSlot = true := by decide +kernel

def withRegs (l : List (Nat × Word)) : State := { ready with gregs := l.map fun e => (⟨0, e.1⟩, e.2) }
theorem test_add_wraps : answers (exec (.add (mk 0 (opX 3 1 2 0 0) [])) (withRegs [(1, 0xFFFFFFFFFFFFFFFF), (2, 2)])) (fun t => t.gget 0 3 == 1 && t.pget 0 0) = true := by decide +kernel
theorem test_shr_takes_six_bits : answers (exec (.shr (mk 0 (opX 3 1 2 0 0) [])) (withRegs [(1, 6), (2, 65)])) (fun t => t.gget 0 3 == 3) = true := by decide +kernel
theorem test_cmp_signed : answers (exec (.cmp (mk 0 (opX 1 1 2 2 0) [])) (withRegs [(1, 0xFFFFFFFFFFFFFFFF)])) (fun t => t.pget 0 1) = true := by decide +kernel
theorem test_cmp_unsigned : answers (exec (.cmp (mk 0 (opX 1 1 2 4 0) [])) (withRegs [(1, 0xFFFFFFFFFFFFFFFF)])) (fun t => !t.pget 0 1) = true := by decide +kernel
theorem test_li_high : answers (exec (.li (mk 1 (opX 3 0 0 0 7) [])) (withRegs [(3, 5)])) (fun t => t.gget 0 3 == 0x0000000700000005) = true := by decide +kernel
theorem test_br : answers (exec (.br (ofWord 0x0200000000001200 [])) ready) (fun t => t.thn 0 Lamp.PC == 0x1200) = true := by decide +kernel
theorem test_call_then_return_index : answers (exec (.call (mk 0 9 [])) ready) (fun t => t.thn 0 Lamp.PC == 9 && Tbl.get ⟨0, 0⟩ [] t.calls == [(1, false)]) = true := by decide +kernel
theorem test_take_staged : answers (exec (.take (ofWord 0x20002402BC000000 [])) ready)
    (fun t => t.staged.map (·.eff) == [.takes [⟨576, 0, 700, 0⟩]] && t.cellN 576 Cell.SOURCE == noSeat) = true := by decide +kernel
/-- Scope, chapter 0: seat 2,700 does not exist, whatever its lock: RANGE. -/
theorem test_take_range : answers (exec (.take (mk 0 (2700 * 2 ^ 36) [])) ready) (fun t => t.th 0 Lamp.LAST_CODE == 3 && !t.pget 0 0 && t.staged.isEmpty) = true := by decide +kernel
theorem test_lock : answers (exec (.lock (mk 0 (40 * 2 ^ 36) [])) ready) (fun t => t.cellN 40 Cell.LOCK == 2 && t.cellN 40 Cell.OWNER == 0) = true := by decide +kernel
theorem test_getpid_ignored : answers (exec (.getpid 0) (from_ [(U.host, Hostp.ignoring, 1)])) (fun t => t.outs.isEmpty) = true := by decide +kernel
theorem test_setmrl_short : answers (exec (.setmrl 0 7) State.reset) (fun t => t.outs == [.nack]) = true := by decide +kernel
theorem test_counter_wraps : (({ State.reset with ctrs := [(⟨5, 1⟩, 2 ^ 64 - 1)] } : State).count 5 1).ctr 5 1 = 0 := by decide +kernel
theorem test_windows : windowOf 0x1FFFFFFF = none ∧ windowOf 0x20000000 = some 0 ∧ windowOf 0x40000000 = some 1 := by decide +kernel
theorem test_capture_too_soon : answers (exec (.captEdge (39 * Config.ns) 2 false) (from_ [(U.capt 2, Capt.EDGES, 3), (U.capt 2, Capt.last, 1)]))
    (fun t => t.rn (U.capt 2) Capt.WRITE_SEQ == 0 && t.ctr (U.capt 2) Ctr.Capt.CAPT_MISSED == 1) = true := by decide +kernel
/-- Chapter 18, a take across the ring boundary: the ACCEPT reply of the example's 24 bytes. -/
theorem test_errand_across_ring : answers (exec (.errand 0 3 [3, 0, 3, 0, 0x21, 0, 1, 0, 0, 0, 0, 0x44, 0x16, 0x24, 0, 0x20, 0xEB, 0x1E, 0x6F, 9, 0, 0, 0, 0] none)
      (from_ [(U.boot, Boot.STAGE, 3), (U.queue 3, Queue.REPLY_WR_PTR, 131070), (U.queue 3, Queue.REPLY_RD_PTR, 131070)]))
    (fun t => [131070, 131071, 0].map (fun k => Tbl.get ⟨3, k⟩ 0 t.replies) == [2, 0x0000000100130021, 0xFFFFFFFFFFFFFFFF] && t.rn (U.queue 3) Queue.REPLY_WR_PTR == 1 &&
      t.errands.map (·.words) == [[0x2000241644000000]]) = true := by decide +kernel
end Sys2Proof.Tests
end

section
/-!
The state after reset (R79): which register fields the reset table lists, what every other field reads as, and the threads of Lamplighter.
-/
namespace Sys2Proof.Machine

/-- A key under which the table lists nothing reads as the default. -/
theorem Tbl.get_of_forall_ne {α : Type} {k : Key} {t : Tbl α} (h : ∀ e ∈ t, e.1 ≠ k) (d : α) : Tbl.get k d t = d := by
  induction t with
  | nil => rfl
  | cons e t ih =>
    obtain ⟨he, ht⟩ := List.forall_mem_cons.mp h
    rw [Tbl.get, if_neg he.symm, ih ht]

/-- Reset lists STATE and QUEUE of the ten bound threads, and nothing else. -/
theorem State.mem_resetRegs (e : Key × Int) : e ∈ State.resetRegs ↔
    ∃ i < 10, e = (⟨U.thread (54 + i), Lamp.STATE.pos⟩, thQueueWait) ∨ e = (⟨U.thread (54 + i), Lamp.QUEUE.pos⟩, (i : Int)) := by
  simp [State.resetRegs]

/-- After reset a field reads as its own reset value unless it is STATE or QUEUE of one of L54 to L63. -/
theorem State.reset_rd_of_unlisted (u : Nat) (f : Field)
    (h : ∀ i < 10, u = U.thread (54 + i) → f.pos ≠ Lamp.STATE.pos ∧ f.pos ≠ Lamp.QUEUE.pos) : State.reset.rd u f = f.reset := by
  refine Tbl.get_of_forall_ne (fun e he hk => ?_) f.reset
  obtain ⟨i, hi, rfl | rfl⟩ := (State.mem_resetRegs e).mp he <;> obtain ⟨hu, hf⟩ := Key.mk.inj hk
  · exact (h i hi hu.symm).1 hf.symm
  · exact (h i hi hu.symm).2 hf.symm

/-- L0 to L53 hold the reset value of every field. -/
theorem State.reset_th_of_unbound {n : Nat} (hn : n < 54) (f : Field) : State.reset.th n f = f.reset := by
  refine State.reset_rd_of_unlisted _ f fun i _ hu => ?_
  simp only [U.thread] at hu
  omega

/-- A field other than STATE and QUEUE holds its reset value in every thread. -/
theorem State.reset_th_of_pos_ne (n : Nat) {f : Field} (hs : f.pos ≠ Lamp.STATE.pos) (hq : f.pos ≠ Lamp.QUEUE.pos) :
    State.reset.th n f = f.reset :=
  State.reset_rd_of_unlisted _ f fun _ _ _ => ⟨hs, hq⟩

/-- Thread L(54 + n) waits on queue n: the ten entries of the reset table, read back. -/
theorem State.reset_th_bound : ∀ n < 10, State.reset.th (54 + n) Lamp.QUEUE = n ∧ State.reset.th (54 + n) Lamp.STATE = thQueueWait := by
  decide

/-- Settles O3: the bound threads read the entries of the reset table; every other field of a thread is unlisted and reads as
its reset value. -/
theorem resetThreads : Obligations.ResetThreads := by
  refine ⟨State.reset_th_bound, fun n hn => ⟨?_, ?_⟩, fun n _ => ⟨?_, ?_⟩⟩
  · exact State.reset_th_of_unbound hn Lamp.STATE
  · exact State.reset_th_of_unbound hn Lamp.QUEUE
  · exact State.reset_th_of_pos_ne n (f := Lamp.PRIORITY) (by decide) (by decide)
  · exact State.reset_th_of_pos_ne n (f := Lamp.PLAN) (by decide) (by decide)

end Sys2Proof.Machine
end

section
/-!
The register and predicate instructions of Table 16.3 (R451): which words of format X they accept, and what each writes.
-/
namespace Sys2Proof.Laws
open Sys2Proof Sys2Proof.Machine

/-- A word of format X that sets nothing outside the fields of Table 16.1: no parameter words, the reserved field clear, and neither
FORCE nor GROUP. -/
structure PlainX (i : Issue) : Prop where
  params : i.params = []
  res : i.xRes = 0
  force : i.force = false
  group : i.group = false

/-- Command `c` writes `w` to gD at once, sets p0, and changes nothing else but its thread's own registers and reports. -/
def WritesReg (i : Issue) (s : State) (c : Instr) (w : Word) : Prop :=
  ∃ t, exec c s = .next t ∧ t.gget i.th i.xD = w ∧ (∀ n r, (n, r % 16) ≠ (i.th, i.xD % 16) → t.gget n r = s.gget n r) ∧
    t.pget i.th 0 = true ∧ (∀ n p, (n, p) ≠ (i.th, 0) → t.pget n p = s.pget n p) ∧
    State.sameUnits i.th t ((s.after i.dt).gset i.th i.xD w)

/-- Command `c` sets p0, then writes `v` to predicate pD, and changes nothing else but its thread's own registers and reports. -/
def WritesPred (i : Issue) (s : State) (c : Instr) (v : Bool) : Prop :=
  ∃ t, exec c s = .next t ∧ t.pget i.th i.xD = v ∧ (i.xD ≠ 0 → t.pget i.th 0 = true) ∧
    (∀ n p, (n, p) ≠ (i.th, 0) → (n, p) ≠ (i.th, i.xD) → t.pget n p = s.pget n p) ∧ State.sameUnits i.th t (s.after i.dt)

/-- Command `c` returns RANGE: p0 is cleared, and nothing else changes but its thread's own registers and reports. -/
def ReturnsRange (i : Issue) (s : State) (c : Instr) : Prop :=
  ∃ t, exec c s = .next t ∧ t.pget i.th 0 = false ∧ State.sameUnits i.th t (s.after i.dt) ∧
    ((s.facing i .register).rb (U.thread i.th) Lamp.past = false → t.th i.th Lamp.LAST_CODE = Code.range.num)

section
variable {i : Issue} {s : State} {c : Instr}

/-! ### Checks -/

theorem unused_field_passes {n : Nat} {used : Bool} (h : used = false → n = 0) : (n != 0 && !used) = false := by
  cases used <;> simp_all

theorem unused_flag_passes {flag allowed : Bool} (h : allowed = false → flag = false) : (flag && !allowed) = false := by
  cases allowed <;> simp_all

/-- FORMAT does not fail where every flag and field that the opcode leaves unused is 0 (R17, R445). -/
theorem fmtX_of_unused_zero {imm opt d a b cond useImm : Bool} (hx : PlainX i) (hri : imm = false → i.regImm = false)
    (ho : opt = false → i.opt = false) (hd : d = false → i.xD = 0) (ha : a = false → i.xA = 0) (hb : b = false → i.xB = 0)
    (hc : cond = false → i.xCond = 0) (hi : useImm = false → i.imm = 0) :
    fmtX i imm opt d a b cond useImm = (.format, false) := by
  have hflags : i.badFlags false imm false opt = false := by
    simp only [Issue.badFlags, hx.force, hx.group, unused_flag_passes hri, unused_flag_passes ho, Bool.false_and, Bool.or_self]
  have hfields : resX i d a b cond useImm = false := by
    simp only [resX, hx.params, hx.res, unused_field_passes hd, unused_field_passes ha, unused_field_passes hb, unused_field_passes hc,
      unused_field_passes hi, bne_self_eq_false, List.isEmpty_nil, Bool.not_true, Bool.or_self]
  simp [fmtX, hflags, hfields]

/-- With IMM as operand B the field B is unused, and with gB the field IMM. -/
theorem unused_operand_zero (hb : if i.regImm then i.xB = 0 else i.imm = 0) :
    ((!i.regImm) = false → i.xB = 0) ∧ (i.regImm = false → i.imm = 0) := by
  cases hri : i.regImm <;> simp_all

theorem judgeCmp_checks (hx : PlainX i) (ho : i.opt = false) (hb : if i.regImm then i.xB = 0 else i.imm = 0) (v : State) :
    (judgeCmp i v).checks = [(.format, false), (.range, decide (7 < i.xD) || decide (5 < i.xCond))] := by
  obtain ⟨hB, hImm⟩ := unused_operand_zero hb
  exact congrArg (· :: _) (fmtX_of_unused_zero hx nofun (fun _ => ho) nofun nofun hB nofun hImm)

theorem judgeBit_checks (hx : PlainX i) (ho : i.opt = false) (hri : i.regImm = false) (hB : i.xB = 0) (hc : i.xCond = 0) (v : State) :
    (judgeBit i v).checks = [(.format, false), (.range, decide (7 < i.xD) || decide (63 < i.imm))] :=
  congrArg (· :: _) (fmtX_of_unused_zero hx (fun _ => hri) (fun _ => ho) nofun nofun (fun _ => hB) (fun _ => hc) nofun)

theorem judgePset_checks (hx : PlainX i) (ho : i.opt = false) (hri : i.regImm = false) (hA : i.xA = 0) (hB : i.xB = 0)
    (hc : i.xCond = 0) (v : State) :
    (judgePset i v).checks = [(.format, false), (.range, decide (7 < i.xD) || decide (1 < i.imm))] :=
  congrArg (· :: _) (fmtX_of_unused_zero hx (fun _ => hri) (fun _ => ho) nofun (fun _ => hA) (fun _ => hB) (fun _ => hc) nofun)

/-! ### Register instructions -/

theorem alu_writesReg {op : Word → Word → Word} (hj : judged c = some (i, .register, judgeAlu i op)) (h : s.mayIssue i 2)
    (hx : PlainX i) (ho : i.opt = false) (hc : i.xCond = 0) (hb : if i.regImm then i.xB = 0 else i.imm = 0) :
    WritesReg i s c (op (s.gget i.th i.xA) (opnd i s)) := by
  refine wrote_of c i s _ _ hj (alu_passes i s op h hx.params hx.res hx.force hx.group ho hc hb) ?_
  simp only [judgeAlu, opnd, facing_gget]

theorem mov_writesReg (h : s.mayIssue i 2) (hx : PlainX i) (ho : i.opt = false) (hri : i.regImm = false) (hB : i.xB = 0)
    (hc : i.xCond = 0) (hImm : i.imm = 0) : WritesReg i s (.mov i) (s.gget i.th i.xA) := by
  refine wrote_of _ i s _ _ rfl (State.passes_register s i _ h nofun ?_) ?_
  · simp [judgeMov, fmtX_of_unused_zero hx, hri, ho, hB, hc, hImm]
  · simp only [judgeMov, facing_gget]

/-- `li` loads the sign-extended IMM, or under HIGH puts IMM above the low half of gD. -/
theorem li_writesReg (h : s.mayIssue i 2) (hx : PlainX i) (hri : i.regImm = false) (hA : i.xA = 0) (hB : i.xB = 0) (hc : i.xCond = 0) :
    WritesReg i s (.li i) (if i.opt then BitVec.ofNat 64 (i.imm * 2 ^ 32 + (s.gget i.th i.xD).toNat % 2 ^ 32) else i.immS) := by
  refine wrote_of _ i s _ _ rfl (State.passes_register s i _ h nofun ?_) ?_
  · simp [judgeLi, fmtX_of_unused_zero hx, hri, hA, hB, hc]
  · simp only [judgeLi, facing_gget]

/-! ### Predicate instructions -/

/-- A predicate instruction whose RANGE check does not fail writes its predicate. -/
theorem writesPred_of_in_range {f : State → Judged} {v out : Bool} (hj : judged c = some (i, .register, f))
    (h : s.mayIssue i (f (s.facing i .register)).permit) (hv : (f (s.facing i .register)).verdict = .pred i.xD v)
    (hch : (f (s.facing i .register)).checks = [(.format, false), (.range, out)]) (hout : out = false) : WritesPred i s c v := by
  refine pwrote_of c i s f v hj (State.passes_register s i f h ?_ ?_) hv
  · simp [hv]
  · simp [hch, hout]

theorem cmp_writesPred {k : Nat} (hk : i.xCond = k) (hk5 : k ≤ 5) (h : s.mayIssue i 2) (hx : PlainX i) (ho : i.opt = false) (hD : i.xD ≤ 7)
    (hb : if i.regImm then i.xB = 0 else i.imm = 0) :
    WritesPred i s (.cmp i) (condHolds k (s.gget i.th i.xA) (opnd i s)) := by
  refine writesPred_of_in_range rfl h ?_ (judgeCmp_checks hx ho hb _) ?_
  · simp only [judgeCmp, opnd, facing_gget, hk]
  · simp [hk, hk5, hD]

theorem bit_writesPred (h : s.mayIssue i 2) (hx : PlainX i) (ho : i.opt = false) (hD : i.xD ≤ 7) (hri : i.regImm = false)
    (hB : i.xB = 0) (hc : i.xCond = 0) (hImm : i.imm ≤ 63) : WritesPred i s (.bit i) ((s.gget i.th i.xA).getLsbD i.imm) := by
  refine writesPred_of_in_range rfl h ?_ (judgeBit_checks hx ho hri hB hc _) ?_
  · simp only [judgeBit, facing_gget, bitAt_getLsbD]
  · simp [hD, hImm]

theorem pset_writesPred (h : s.mayIssue i 2) (hx : PlainX i) (ho : i.opt = false) (hD : i.xD ≤ 7) (hri : i.regImm = false)
    (hA : i.xA = 0) (hB : i.xB = 0) (hc : i.xCond = 0) (hImm : i.imm ≤ 1) : WritesPred i s (.pset i) (i.imm == 1) :=
  writesPred_of_in_range rfl h rfl (judgePset_checks hx ho hri hA hB hc _) (by simp [hD, hImm])

theorem cmp_returnsRange (h : s.mayIssue i 2) (hx : PlainX i) (ho : i.opt = false) (hb : if i.regImm then i.xB = 0 else i.imm = 0)
    (hout : 7 < i.xD ∨ 5 < i.xCond) : ReturnsRange i s (.cmp i) :=
  ranged_of _ i s _ rfl h ⟨_, _, rfl⟩ rfl _ (by simpa using hout) (judgeCmp_checks hx ho hb _)

theorem bit_returnsRange (h : s.mayIssue i 2) (hx : PlainX i) (ho : i.opt = false) (hri : i.regImm = false) (hB : i.xB = 0)
    (hc : i.xCond = 0) (hout : 7 < i.xD ∨ 63 < i.imm) : ReturnsRange i s (.bit i) :=
  ranged_of _ i s _ rfl h ⟨_, _, rfl⟩ rfl _ (by simpa using hout) (judgeBit_checks hx ho hri hB hc _)

theorem pset_returnsRange (h : s.mayIssue i 2) (hx : PlainX i) (ho : i.opt = false) (hri : i.regImm = false) (hA : i.xA = 0)
    (hB : i.xB = 0) (hc : i.xCond = 0) (hout : 7 < i.xD ∨ 1 < i.imm) : ReturnsRange i s (.pset i) :=
  ranged_of _ i s _ rfl h ⟨_, _, rfl⟩ rfl _ (by simpa using hout) (judgePset_checks hx ho hri hA hB hc _)

end

/-- Settles O14: the nine register instructions write gD by the rule of their judgement; the three predicate instructions write pD
where their operands are in range, and return RANGE where they are not. -/
theorem registerAndPredicateInstructions : Obligations.RegisterAndPredicateInstructions := by
  refine ⟨fun i s h hp hr hf hg => ?_, fun i s h hp hr hf hg ho => ?_⟩ <;> have hx : PlainX i := ⟨hp, hr, hf, hg⟩
  · refine ⟨fun ho hc hb => ?_, mov_writesReg h hx, li_writesReg h hx⟩
    have alu : ∀ {c} op, judged c = some (i, .register, judgeAlu i op) → WritesReg i s c (op (s.gget i.th i.xA) (opnd i s)) :=
      fun _ hj => alu_writesReg hj h hx ho hc hb
    exact ⟨alu (· + ·) rfl, alu (· - ·) rfl, alu (· &&& ·) rfl, alu (· ||| ·) rfl, alu (· ^^^ ·) rfl,
      alu (fun a b => a <<< (b.toNat % 64)) rfl, alu (fun a b => a >>> (b.toNat % 64)) rfl⟩
  · refine ⟨fun hD => ⟨fun hb => ?_, bit_writesPred h hx ho hD, pset_writesPred h hx ho hD⟩,
      cmp_returnsRange h hx ho, bit_returnsRange h hx ho, pset_returnsRange h hx ho⟩
    have cmp : ∀ k ≤ 5, i.xCond = k → WritesPred i s (.cmp i) (condHolds k (s.gget i.th i.xA) (opnd i s)) :=
      fun k hk5 hk => cmp_writesPred hk hk5 h hx ho hD hb
    exact ⟨cmp 0 (by decide), cmp 1 (by decide), cmp 2 (by decide), cmp 3 (by decide), cmp 4 (by decide), cmp 5 (by decide)⟩

end Sys2Proof.Laws
end

section
/-!
Gleaner counters are modulo 2^64 (R464): the wrap, and the difference of two readings.
-/
namespace Sys2Proof.Machine

/-- One occurrence after 2^64 − 1 wraps to 0: the counter does not saturate. -/
theorem State.ctr_count_of_max {s : State} {u j : Nat} (h : s.ctr u j = 2 ^ 64 - 1) : (s.count u j).ctr u j = 0 := by
  rw [State.ctr_count_same, h, Nat.sub_add_cancel Nat.one_le_two_pow, Nat.mod_self]

/-- Host software's delta (R464), the later reading less the earlier modulo 2^64, is the count between them modulo 2^64. -/
theorem State.ctr_countBy_delta {s : State} {u j : Nat} (k : Nat) (h : s.ctr u j < 2 ^ 64) :
    ((s.countBy u j k).ctr u j + 2 ^ 64 - s.ctr u j) % 2 ^ 64 = k % 2 ^ 64 := by
  rw [State.ctr_countBy_same]
  omega

/-- Settles O5: the counted key holds the sum modulo 2^64, from which the wrap and the delta follow; every other key is left alone. -/
theorem countersWrap : Obligations.CountersWrap := fun s u j k =>
  ⟨State.ctr_countBy_same s u j k, State.ctr_count_of_max, State.ctr_countBy_delta k, State.ctr_countBy_ne s u j k⟩

end Sys2Proof.Machine
end

section
/-!
What every command keeps of the queue, the byte stores and the fuses.
-/
namespace Sys2Proof.Laws
open Sys2Proof Sys2Proof.Machine

/-! ### The step -/

theorem step_of_pending_nil {s : State} (h : s.pending = []) : step s = .next s := by
  unfold step
  rw [h]

theorem step_of_pending_cons {s : State} {c : Instr} {rest : List Instr} (h : s.pending = c :: rest) :
    step s = exec c { s with pending := rest } := by
  unfold step
  rw [h]

/-- Settles O1. -/
theorem stepRunsFront : Obligations.StepRunsFront := fun c s => step_of_pending_cons (s := { s with pending := c :: s.pending }) rfl

/-- Settles O2. -/
theorem idleStep : Obligations.IdleStep := fun _ h => step_of_pending_nil h

/-! ### Reset -/

/-- Settles O4: the register table of reset lists threads L54 to L63 alone, and every other piece of the state is empty. -/
theorem resetElsewhere : Obligations.ResetElsewhere := by
  refine ⟨fun u f hu => State.reset_rd_of_unlisted u f fun i hi hui => ?_, fun _ _ => rfl, fun _ _ => rfl, fun _ _ => rfl, fun _ => rfl,
    fun _ => rfl, rfl, rfl, rfl, rfl, rfl, rfl, rfl, rfl, rfl, rfl, rfl, rfl, rfl, rfl, rfl, rfl⟩
  simp only [U.thread] at hu hui
  omega

/-- Settles O6: at reset no command waits, and the stores are empty. -/
theorem resetSafe : Obligations.ResetSafe := ⟨nofun, rfl, rfl, nofun⟩

/-! ### The queue and the stores -/

/-- Settles O8: every command answers a next state, in which the queue is the one before. -/
theorem everyCommandRuns : Obligations.EveryCommandRuns := fun c s =>
  let ⟨t, ht, hq, _⟩ := exec_loose c s
  ⟨t, ht, hq⟩

/-- A command keeps the byte stores canonical. -/
theorem exec_keeps_storesOk {c : Instr} {s t : State} (h : exec c s = .next t) (hs : s.storesOk) : t.pending = s.pending ∧ t.storesOk := by
  obtain ⟨t', ht', hq, hwf⟩ := exec_loose c s
  obtain rfl : t' = t := Host.Outcome.next.inj (ht'.symm.trans h)
  exact ⟨hq, (storesOk_iff t').mpr (hwf ((storesOk_iff s).mp hs))⟩

/-- Settles O7: an idle step changes nothing; any other takes one command off the queue, and that command keeps the rest of the queue and
the canonical form of the stores. -/
theorem stepKeepsSafe : Obligations.StepKeepsSafe := by
  intro s t hq hs hst
  cases hp : s.pending with
  | nil =>
    rw [step_of_pending_nil hp] at hst
    obtain rfl := Host.Outcome.next.inj hst
    exact ⟨hq, hs⟩
  | cons c rest =>
    rw [step_of_pending_cons hp] at hst
    obtain ⟨hrest, hstores⟩ := exec_keeps_storesOk (s := { s with pending := rest }) hst hs
    refine ⟨fun d hd => hq d ?_, hstores⟩
    have hd : d ∈ rest := Eq.mp (congrArg (d ∈ ·) hrest) hd
    exact hp ▸ List.mem_cons_of_mem c hd

/-! ### The fuses -/

theorem fuses_eq_kept (s : State) : s.fuses = s.kept.2.2.2.1 := rfl

theorem fuses_of_kept {s t : State} (h : t.kept = s.kept) : t.fuses = s.fuses := congrArg (·.2.2.2.1) h

/-- FUSE_BLOWN adds one fuse at most. -/
theorem execFuseBlown_fuses (dt : Nat) (ok : Bool) (s : State) :
    ∃ t, exec (.fuseBlown dt ok) s = .next t ∧ s.fuses ≤ t.fuses ∧ t.fuses ≤ s.fuses + 1 := by
  have closes : ∀ (l : List BgOp) (code : Nat) (a : State), (l.foldl (fun b x => b.finishBg x code) a).fuses = a.fuses :=
    fun l code a => fuses_of_kept (foldl_kept _ (fun b x => by simp) l a)
  have blown : ∀ (a : State) n, (a.setNv nvOtp 1 0 n).fuses = n := fun a n => Tbl.get_set_same _ _ _ _
  have shown : ∀ (a : State) l, (a.bootSet l).fuses = a.fuses := fun a l => fuses_of_kept (by simp)
  have posted : ∀ (a : State) u c d, (a.post u c d).fuses = a.fuses := fun a u c d => fuses_of_kept (by simp)
  have before : (s.after dt).fuses = s.fuses := rfl
  refine ⟨_, rfl, ?_⟩
  dsimp only
  split
  · omega
  · split
    · rw [closes]; omega
    · split
      · rw [shown, blown]; omega
      · rw [closes, posted, shown, blown]; omega

/-- Settles O9: every command but FUSE_BLOWN and RESET_RELEASE keeps the fuses. -/
theorem fusesKept : Obligations.FusesKept := by
  intro c s t h hreset
  by_cases hfuse : ∀ dt ok, c ≠ .fuseBlown dt ok
  · obtain ⟨t', ht', -, hf, -⟩ := exec_rel c s hfuse hreset
    obtain rfl : t' = t := Host.Outcome.next.inj (ht'.symm.trans h)
    have hf : t'.fuses = s.fuses := hf
    exact ⟨hf.ge, hf.le.trans (Nat.le_succ _), fun _ => hf⟩
  · push Not at hfuse
    obtain ⟨dt, ok, rfl⟩ := hfuse
    obtain ⟨t', ht', hle, hge⟩ := execFuseBlown_fuses dt ok s
    obtain rfl : t' = t := Host.Outcome.next.inj (ht'.symm.trans h)
    exact ⟨hle, hge, fun hne => absurd rfl (hne dt ok)⟩

/-! ### Commands that store nothing -/

/-- A command that `mayStore` does not name keeps the queue, the byte stores and the fuses. -/
theorem exec_kept_of_not_mayStore : ∀ (c : Instr) (s : State), mayStore c = false → ∃ t, exec c s = .next t ∧ t.kept = s.kept
  | .nop it, s, _ => execNop_kept it s
  | .halt it, s, _ => execHalt_kept it s
  | .br it, s, _ => execBr_kept it s
  | .bp it, s, _ => execBp_kept it s
  | .call it, s, _ => execCall_kept it s
  | .ret it, s, _ => execRet_kept it s
  | .salvo it, s, _ => execSalvo_kept it s
  | .endsalvo it, s, _ => execEndsalvo_kept it s
  | .waittick it, s, _ => execWaittick_kept it s
  | .waittime it, s, _ => execWaittime_kept it s
  | .waitcapt it, s, _ => execWaitcapt_kept it s
  | .target it, s, _ => execTarget_kept it s
  | .sync it, s, _ => execSync_kept it s
  | .li it, s, _ => execLi_kept it s
  | .mov it, s, _ => execMov_kept it s
  | .add it, s, _ => execAdd_kept it s
  | .sub it, s, _ => execSub_kept it s
  | .andOp it, s, _ => execAnd_kept it s
  | .orOp it, s, _ => execOr_kept it s
  | .xorOp it, s, _ => execXor_kept it s
  | .shl it, s, _ => execShl_kept it s
  | .shr it, s, _ => execShr_kept it s
  | .cmp it, s, _ => execCmp_kept it s
  | .bit it, s, _ => execBit_kept it s
  | .pset it, s, _ => execPset_kept it s
  | .take it, s, _ => execTake_kept it s
  | .taker it, s, _ => execTaker_kept it s
  | .btake it, s, _ => execBtake_kept it s
  | .lock it, s, _ => execLock_kept it s
  | .protect it, s, _ => execProtect_kept it s
  | .unlock it, s, _ => execUnlock_kept it s
  | .sheafset it, s, _ => execSheafset_kept it s
  | .sheafadd it, s, _ => execSheafadd_kept it s
  | .sheafclr it, s, _ => execSheafclr_kept it s
  | .loudreset it, s, _ => execLoudreset_kept it s
  | .headset it, s, _ => execHeadset_kept it s
  | .layerset it, s, _ => execLayerset_kept it s
  | .headcommit it, s, _ => execHeadcommit_kept it s
  | .grancfg it, s, _ => execGrancfg_kept it s
  | .subcfg it, s, _ => execSubcfg_kept it s
  | .plancfg it, s, _ => execPlancfg_kept it s
  | .cellcfg it, s, _ => execCellcfg_kept it s
  | .kerbcfg it, s, _ => execKerbcfg_kept it s
  | .bundlecfg it, s, _ => execBundlecfg_kept it s
  | .signcfg it, s, _ => execSigncfg_kept it s
  | .watchcfg it, s, _ => execWatchcfg_kept it s
  | .retcfg it, s, _ => execRetcfg_kept it s
  | .tribcfg it, s, _ => execTribcfg_kept it s
  | .pllcfg it, s, _ => execPllcfg_kept it s
  | .lanecfg it, s, _ => execLanecfg_kept it s
  | .laneeq it, s, _ => execLaneeq_kept it s
  | .lanetrain it, s, _ => execLanetrain_kept it s
  | .lanepwr it, s, _ => execLanepwr_kept it s
  | .lanetest it, s, _ => execLanetest_kept it s
  | .maccfg it, s, _ => execMaccfg_kept it s
  | .slotcfg it, s, _ => execSlotcfg_kept it s
  | .rampcfg it, s, _ => execRampcfg_kept it s
  | .deembcfg it, s, _ => execDeembcfg_kept it s
  | .tonecfg it, s, _ => execTonecfg_kept it s
  | .afvcfg it, s, _ => execAfvcfg_kept it s
  | .embcfg it, s, _ => execEmbcfg_kept it s
  | .limcfg it, s, _ => execLimcfg_kept it s
  | .compcfg it, s, _ => execCompcfg_kept it s
  | .delaycfg it, s, _ => execDelaycfg_kept it s
  | .cscfg it, s, _ => execCscfg_kept it s
  | .detcfg it, s, _ => execDetcfg_kept it s
  | .detassign it, s, _ => execDetassign_kept it s
  | .loudcfg it, s, _ => execLoudcfg_kept it s
  | .corrcfg it, s, _ => execCorrcfg_kept it s
  | .stookcfg it, s, _ => execStookcfg_kept it s
  | .asrccfg it, s, _ => execAsrccfg_kept it s
  | .tapcfg it, s, _ => execTapcfg_kept it s
  | .towercand it, s, _ => execTowercand_kept it s
  | .towertable it, s, _ => execTowertable_kept it s
  | .towercfg it, s, _ => execTowercfg_kept it s
  | .freqTrim it, s, _ => execFreqTrim_kept it s
  | .phaseStep it, s, _ => execPhaseStep_kept it s
  | .seconds it, s, _ => execSeconds_kept it s
  | .clkoutcfg it, s, _ => execClkoutcfg_kept it s
  | .ptpport it, s, _ => execPtpport_kept it s
  | .ptpcfg it, s, _ => execPtpcfg_kept it s
  | .tccfg it, s, _ => execTccfg_kept it s
  | .captcfg it, s, _ => execCaptcfg_kept it s
  | .ttcfg it, s, _ => execTtcfg_kept it s
  | .twincfg _, _, h => nomatch h
  | .ttset it, s, _ => execTtset_kept it s
  | .rxflow it, s, _ => execRxflow_kept it s
  | .txflow it, s, _ => execTxflow_kept it s
  | .fwdcfg it, s, _ => execFwdcfg_kept it s
  | .clsadd it, s, _ => execClsadd_kept it s
  | .clsdel it, s, _ => execClsdel_kept it s
  | .clswild it, s, _ => execClswild_kept it s
  | .ldload it, s, _ => execLdload_kept it s
  | .barnwr it, s, _ => execBarnwr_kept it s
  | .lutload it, s, _ => execLutload_kept it s
  | .rd it, s, _ => execRd_kept it s
  | .rdind it, s, _ => execRdind_kept it s
  | .rdtime it, s, _ => execRdtime_kept it s
  | .harvest it, s, _ => execHarvest_kept it s
  | .twinswitch it, s, _ => execTwinswitch_kept it s
  | .twinmark it, s, _ => execTwinmark_kept it s
  | .clearUnreplicated it, s, _ => execClearUnreplicated_kept it s
  | .imgload _, _, h => nomatch h
  | .imgloadSettings it, s, _ => execImgloadSettings_kept it s
  | .imgactivate _ _ _ _ _, _, h => nomatch h
  | .confirm _, _, h => nomatch h
  | .advance _, _, h => nomatch h
  | .configure it, s, _ => execConfigure_kept it s
  | .start it, s, _ => execStart_kept it s
  | .thrstop it, s, _ => execThrstop_kept it s
  | .unitcfg it, s, _ => execUnitcfg_kept it s
  | .errand dt queue bytes bad, s, _ => execErrand_kept dt queue bytes bad s
  | .errandPartner dt bytes bad, s, _ => execErrandPartner_kept dt bytes bad s
  | .setaddr dt bytes bad, s, _ => execSetaddr_kept dt bytes bad s
  | .regwr dt bytes bad, s, _ => execRegwr_kept dt bytes bad s
  | .read dt n hdr, s, _ => execRead_kept dt n hdr s
  | .readPtr dt w, s, _ => execReadPtr_kept dt w s
  | .replyRdPtr dt queue w, s, _ => execReplyRdPtr_kept dt queue w s
  | .ibiMask dt w, s, _ => execIbiMask_kept dt w s
  | .ioSlew dt w, s, _ => execIoSlew_kept dt w s
  | .enec dt events, s, _ => execEnec_kept dt events s
  | .disec dt events, s, _ => execDisec_kept dt events s
  | .rstdaa dt, s, _ => execRstdaa_kept dt s
  | .entdaa dt addr, s, _ => execEntdaa_kept dt addr s
  | .setmwl dt v, s, _ => execSetmwl_kept dt v s
  | .setmrl dt v, s, _ => execSetmrl_kept dt v s
  | .enthdr0 dt, s, _ => execEnthdr0_kept dt s
  | .rstact dt action get, s, _ => execRstact_kept dt action get s
  | .setdasa dt addr, s, _ => execSetdasa_kept dt addr s
  | .setnewda dt addr, s, _ => execSetnewda_kept dt addr s
  | .getmwl dt, s, _ => execGetmwl_kept dt s
  | .getmrl dt, s, _ => execGetmrl_kept dt s
  | .getpid dt, s, _ => execGetpid_kept dt s
  | .getbcr dt, s, _ => execGetbcr_kept dt s
  | .getdcr dt, s, _ => execGetdcr_kept dt s
  | .getstatus dt, s, _ => execGetstatus_kept dt s
  | .getmxds dt, s, _ => execGetmxds_kept dt s
  | .getcaps dt, s, _ => execGetcaps_kept dt s
  | .cccUnsupported dt code directed, s, _ => execCccUnsupported_kept dt code directed s
  | .hdrExitPattern dt, s, _ => execHdrExitPattern_kept dt s
  | .targetResetPattern dt beats, s, _ => execTargetResetPattern_kept dt beats s
  | .ibiRequest dt ack, s, _ => execIbiRequest_kept dt ack s
  | .crierRepeatInterrupt dt, s, _ => execCrierRepeatInterrupt_kept dt s
  | .replyRepost dt queue, s, _ => execReplyRepost_kept dt queue s
  | .errandExecutionStart dt queue, s, _ => execErrandExecutionStart_kept dt queue s
  | .finalReply dt queue, s, _ => execFinalReply_kept dt queue s
  | .threadFault dt th, s, _ => execThreadFault_kept dt th s
  | .unitFault dt unit cause, s, _ => execUnitFault_kept dt unit cause s
  | .curfewResolution dt plan, s, _ => execCurfewResolution_kept dt plan s
  | .tick dt plan, s, _ => execTick_kept dt plan s
  | .tickWaitResume dt th, s, _ => execTickWaitResume_kept dt th s
  | .timeWaitResume dt th, s, _ => execTimeWaitResume_kept dt th s
  | .captWaitResume dt th, s, _ => execCaptWaitResume_kept dt th s
  | .syncResume dt th, s, _ => execSyncResume_kept dt th s
  | .targetHoldRelease dt th, s, _ => execTargetHoldRelease_kept dt th s
  | .planSlewComplete dt plan, s, _ => execPlanSlewComplete_kept dt plan s
  | .followCommit dt seat stream, s, _ => execFollowCommit_kept dt seat stream s
  | .followTimeout dt seat stream, s, _ => execFollowTimeout_kept dt seat stream s
  | .kerbEavArrival dt kerb line edhBad, s, _ => execKerbEavArrival_kept dt kerb line edhBad s
  | .kerbAlign dt kerb, s, _ => execKerbAlign_kept dt kerb s
  | .kerbLossTimeout dt kerb, s, _ => execKerbLossTimeout_kept dt kerb s
  | .cellLossEntry dt seat, s, _ => execCellLossEntry_kept dt seat s
  | .cellLossReturn dt seat, s, _ => execCellLossReturn_kept dt seat s
  | .cellLineOut _ _ _, _, h => nomatch h
  | .txSquelch dt seat, s, _ => execTxSquelch_kept dt seat s
  | .haywainCodewordRx dt lane c, s, _ => execHaywainCodewordRx_kept dt lane c s
  | .haywainFrameTx dt lane, s, _ => execHaywainFrameTx_kept dt lane s
  | .sdiTrsRx dt lane levels, s, _ => execSdiTrsRx_kept dt lane levels s
  | .rateDeviation dt trib, s, _ => execRateDeviation_kept dt trib s
  | .laneLos dt lane bps, s, _ => execLaneLos_kept dt lane bps s
  | .cdrLoss dt lane lost, s, _ => execCdrLoss_kept dt lane lost s
  | .degrade dt lane on, s, _ => execDegrade_kept dt lane on s
  | .pllLoss dt avenue pll, s, _ => execPllLoss_kept dt avenue pll s
  | .pllLock dt avenue pll, s, _ => execPllLock_kept dt avenue pll s
  | .trainingDone dt lane ok ffe ctle snr, s, _ => execTrainingDone_kept dt lane ok ffe ctle snr s
  | .retrainTimer dt lane, s, _ => execRetrainTimer_kept dt lane s
  | .laneWakeDone dt lane side, s, _ => execLaneWakeDone_kept dt lane side s
  | .prbsLock dt lane levels, s, _ => execPrbsLock_kept dt lane levels s
  | .errorInject dt lane, s, _ => execErrorInject_kept dt lane s
  | .macFrameRx dt mac fcsOk frame taken, s, _ => execMacFrameRx_kept dt mac fcsOk frame taken s
  | .fwdForcedCut dt out, s, _ => execFwdForcedCut_kept dt out s
  | .fwdInputLoss dt out, s, _ => execFwdInputLoss_kept dt out s
  | .lineRelease dt ctx, s, _ => execLineRelease_kept dt ctx s
  | .datagramRelease dt ctx, s, _ => execDatagramRelease_kept dt ctx s
  | .audioFlowRelease dt ctx, s, _ => execAudioFlowRelease_kept dt ctx s
  | .flowLost dt ctx, s, _ => execFlowLost_kept dt ctx s
  | .legDown dt ctx leg, s, _ => execLegDown_kept dt ctx leg s
  | .ssrcRelatch dt ctx, s, _ => execSsrcRelatch_kept dt ctx s
  | .packetDeparture dt ctx, s, _ => execPacketDeparture_kept dt ctx s
  | .audioPacketDeparture dt ctx, s, _ => execAudioPacketDeparture_kept dt ctx s
  | .ancPacketDeparture dt ctx, s, _ => execAncPacketDeparture_kept dt ctx s
  | .datagramDeparture dt ctx, s, _ => execDatagramDeparture_kept dt ctx s
  | .txIdle dt seat, s, _ => execTxIdle_kept dt seat s
  | .mcastQueryRx dt mac q, s, _ => execMcastQueryRx_kept dt mac q s
  | .mcastReport dt mac, s, _ => execMcastReport_kept dt mac s
  | .mcastCompatExpiry dt mac v6, s, _ => execMcastCompatExpiry_kept dt mac v6 s
  | .ptpSyncRx dt mac p, s, _ => execPtpSyncRx_kept dt mac p s
  | .ptpFollowUpRx dt mac p, s, _ => execPtpFollowUpRx_kept dt mac p s
  | .ptpDelayRespRx dt mac p, s, _ => execPtpDelayRespRx_kept dt mac p s
  | .ptpAnnounceRx dt mac p, s, _ => execPtpAnnounceRx_kept dt mac p s
  | .pdelayReqRx dt mac p, s, _ => execPdelayReqRx_kept dt mac p s
  | .pdelayRespRx dt mac p, s, _ => execPdelayRespRx_kept dt mac p s
  | .delayReqSend dt kind n, s, _ => execDelayReqSend_kept dt kind n s
  | .announceTimeout dt inst, s, _ => execAnnounceTimeout_kept dt inst s
  | .refMarker dt cand, s, _ => execRefMarker_kept dt cand s
  | .freqWindow dt, s, _ => execFreqWindow_kept dt s
  | .candQualified dt cand, s, _ => execCandQualified_kept dt cand s
  | .candMissing dt cand, s, _ => execCandMissing_kept dt cand s
  | .wtrExpiry dt, s, _ => execWtrExpiry_kept dt s
  | .towerInLock dt, s, _ => execTowerInLock_kept dt s
  | .towerReacquire dt, s, _ => execTowerReacquire_kept dt s
  | .loscFailure dt synth, s, _ => execLoscFailure_kept dt synth s
  | .clockStopped dt domain, s, _ => execClockStopped_kept dt domain s
  | .captEdge dt pin falling, s, _ => execCaptEdge_kept dt pin falling s
  | .takeInEdge dt, s, _ => execTakeInEdge_kept dt s
  | .ttEdge dt out, s, _ => execTtEdge_kept dt out s
  | .ttLevelChange dt out, s, _ => execTtLevelChange_kept dt out s
  | .harvestCapture dt, s, _ => execHarvestCapture_kept dt s
  | .harvestDone dt, s, _ => execHarvestDone_kept dt s
  | .granaryFrameComplete dt slot sub, s, _ => execGranaryFrameComplete_kept dt slot sub s
  | .granaryDecision dt slot sub ue, s, _ => execGranaryDecision_kept dt slot sub ue s
  | .granaryInputLoss dt slot sub, s, _ => execGranaryInputLoss_kept dt slot sub s
  | .tileComplete dt scaler, s, _ => execTileComplete_kept dt scaler s
  | .headDecision _ _ _, _, h => nomatch h
  | .twinDecisionTimeout _ _ _, _, h => nomatch h
  | .decision _ _, _, h => nomatch h
  | .mixBlock dt ue, s, _ => execMixBlock_kept dt ue s
  | .audioSampleTap dt seat a, s, _ => execAudioSampleTap_kept dt seat a s
  | .blockPeak dt space ch, s, _ => execBlockPeak_kept dt space ch s
  | .dcSecond dt space ch, s, _ => execDcSecond_kept dt space ch s
  | .clippedClear dt space ch, s, _ => execClippedClear_kept dt space ch s
  | .loudnessReport dt meter, s, _ => execLoudnessReport_kept dt meter s
  | .correlationReport dt meter, s, _ => execCorrelationReport_kept dt meter s
  | .tapRecord _ _, _, h => nomatch h
  | .stookRxFrame dt port f, s, _ => execStookRxFrame_kept dt port f s
  | .stookTxFrame dt port, s, _ => execStookTxFrame_kept dt port s
  | .stookStart dt port side, s, _ => execStookStart_kept dt port side s
  | .stookStop dt port side, s, _ => execStookStop_kept dt port side s
  | .stookClockLoss dt port side, s, _ => execStookClockLoss_kept dt port side s
  | .aes3Lock dt port preambles parity, s, _ => execAes3Lock_kept dt port preambles parity s
  | .asrcLock dt unit lock range, s, _ => execAsrcLock_kept dt unit lock range s
  | .watchSecond dt probe, s, _ => execWatchSecond_kept dt probe s
  | .captureDone dt probe, s, _ => execCaptureDone_kept dt probe s
  | .ldloadDone dt th, s, _ => execLdloadDone_kept dt th s
  | .barnwrDone _ _, _, h => nomatch h
  | .lutloadDone dt slot bank, s, _ => execLutloadDone_kept dt slot bank s
  | .imgloadDone _ _ _, _, h => nomatch h
  | .fuseBlown _ _, _, h => nomatch h
  | .activationLoaded dt ok, s, _ => execActivationLoaded_kept dt ok s
  | .activationPrepared _ _, _, h => nomatch h
  | .activationHandover dt, s, _ => execActivationHandover_kept dt s
  | .activationResumed _, _, h => nomatch h
  | .activationAbort dt, s, _ => execActivationAbort_kept dt s
  | .watchdogExpiry dt, s, _ => execWatchdogExpiry_kept dt s
  | .unitWakeDone dt unit, s, _ => execUnitWakeDone_kept dt unit s
  | .unitIdleOff dt unit, s, _ => execUnitIdleOff_kept dt unit s
  | .selfRefreshEntry dt chan, s, _ => execSelfRefreshEntry_kept dt chan s
  | .barnScrub dt chan offset result last, s, _ => execBarnScrub_kept dt chan offset result last s
  | .barnChannelFault dt chan cause, s, _ => execBarnChannelFault_kept dt chan cause s
  | .heartbeat _ _, _, h => nomatch h
  | .heartbeatRx _ _ _ _, _, h => nomatch h
  | .heartbeatMissing _ _, _, h => nomatch h
  | .takeover _ _, _, h => nomatch h
  | .takeoverHoldEnd dt, s, _ => execTakeoverHoldEnd_kept dt s
  | .manifestRx _ _, _, h => nomatch h
  | .manifestOwn dt plan, s, _ => execManifestOwn_kept dt plan s
  | .manifestLate _ _, _, h => nomatch h
  | .compareRx dt m, s, _ => execCompareRx_kept dt m s
  | .uncompared dt, s, _ => execUncompared_kept dt s
  | .suspect dt m, s, _ => execSuspect_kept dt m s
  | .pairSeekTimeout _ _, _, h => nomatch h
  | .replica _ _, _, h => nomatch h
  | .replicationCaughtUp _, _, h => nomatch h
  | .stepMsg dt m, s, _ => execStep_kept dt m s
  | .stepCommit _, _, h => nomatch h
  | .replicationTimeout _, _, h => nomatch h
  | .alleyErrand dt m, s, _ => execAlleyErrand_kept dt m s
  | .alleyReply dt m, s, _ => execAlleyReply_kept dt m s
  | .alleyBulk dt m, s, _ => execAlleyBulk_kept dt m s
  | .alleyAck dt m, s, _ => execAlleyAck_kept dt m s
  | .alleyNak dt m, s, _ => execAlleyNak_kept dt m s
  | .alleyDown dt, s, _ => execAlleyDown_kept dt s
  | .hello dt, s, _ => execHello_kept dt s
  | .helloRx dt link m, s, _ => execHelloRx_kept dt link m s
  | .fpLinkDown dt link, s, _ => execFpLinkDown_kept dt link s
  | .fpHoldDiscard dt link, s, _ => execFpHoldDiscard_kept dt link s
  | .fpErrand dt m, s, _ => execFpErrand_kept dt m s
  | .fpReply dt m, s, _ => execFpReply_kept dt m s
  | .fpBulk dt m, s, _ => execFpBulk_kept dt m s
  | .segment _ _, _, h => nomatch h
  | .reportMsg dt m, s, _ => execReport_kept dt m s
  | .fpAck dt link m, s, _ => execFpAck_kept dt link m s
  | .fpNak dt link m, s, _ => execFpNak_kept dt link m s
  | .resetRelease _ _, _, h => nomatch h
  | .pwrgoodFall _ _, _, h => nomatch h
  | .resetAssert _ _, _, h => nomatch h
  | .retransmitTimeout _ _, _, h => nomatch h
  | .telemetrySample dt mv ma tj, s, _ => execTelemetrySample_kept dt mv ma tj s
  | .previousSecondUpdate dt, s, _ => execPreviousSecondUpdate_kept dt s
  | .unknownCommand dt, s, _ => execUnknownCommand_kept dt s
  | .unlistedOpcode it, s, _ => execUnlistedOpcode_kept it s
  | .jtagAccess _ _ _ _, _, h => nomatch h

/-- Settles O10. -/
theorem otherCommandsStoreNothing : Obligations.OtherCommandsStoreNothing := by
  intro c s t hc h
  obtain ⟨t', ht', hk⟩ := exec_kept_of_not_mayStore c s hc
  obtain rfl : t' = t := Host.Outcome.next.inj (ht'.symm.trans h)
  have hfuses := fuses_of_kept hk
  simp only [State.kept, Prod.mk.injEq] at hk
  obtain ⟨-, hbarn, hflash, -, hcopy⟩ := hk
  exact ⟨hbarn, hflash, hfuses, hcopy⟩

end Sys2Proof.Laws
end

section
/-!
Threads that issue nothing, instructions that fail, and threads that run on the copy of the partner's state.
-/
namespace Sys2Proof.Laws
open Sys2Proof Sys2Proof.Machine

theorem issueOn_of_not_running {s : State} {i : Issue} (h : s.th i.th Lamp.STATE ≠ thRunning) (use : Use) (f : State → Judged) :
    s.issueOn i use f = s := by
  unfold State.issueOn
  exact if_pos h

/-- Settles O11. -/
theorem onlyRunningThreadsIssue : Obligations.OnlyRunningThreadsIssue := by
  intro c i use f s hc hown hst
  have hrun : (s.after i.dt).th i.th Lamp.STATE ≠ thRunning := hst
  have hissue : s.issue i use f = (s.after i.dt).issueOn i use f := State.onThreads_own _ _ _ hown
  rw [exec_judged c i use f s hc, hissue, issueOn_of_not_running hrun]

/-- Settles O12: the first failing check decides the outcome, of which `issue_fails` says what it changes. -/
theorem failedInstructionsActOnNothing : Obligations.FailedInstructionsActOnNothing := by
  intro c i use f s k hc hth hown hst hk
  obtain ⟨hp0, hrest⟩ := State.issue_fails s i use f k hth hown hst hk
  exact ⟨_, exec_judged c i use f s hc, hp0, hrest⟩

/-- While the threads run on the copy, the state after is the one before with another copy, with the waking of units that the copy comes
to use laid over the registers. -/
theorem onThreads_copy {s : State} {own : Bool} (f : State → State) (hs : s.shadow.isSome = true) (hc : s.onCopy = true) (ho : own = false) :
    ∃ copy wakes n k, (∀ e ∈ wakes, e.1.pos = 200 ∨ e.1.pos = 202) ∧
      s.onThreads own f = { s with shadow := some copy, regs := Tbl.over s.regs wakes, nextId := n, freeIx := k } := by
  obtain ⟨h, hh⟩ := Option.isSome_iff_exists.mp hs
  let t := f ((s.withShadow h).wr U.twin Twin.replaying 1)
  refine ⟨t.extract, t.regs.filter fun e => e.1.pos == 200 || e.1.pos == 202, t.nextId, t.freeIx, fun e he => ?_, ?_⟩
  · simpa using (List.mem_filter.mp he).2
  · unfold State.onThreads
    simp only [hh, ho, hc, Bool.not_true, Bool.or_self, Bool.false_eq_true, if_false]
    rfl

/-- Settles O13: beside the copy only the registers that wake a unit are written. -/
theorem copyChangesAlone : Obligations.CopyChangesAlone := by
  intro c i use f s hc hs hcopy hown
  obtain ⟨copy, wakes, n, k, hwakes, heq⟩ := onThreads_copy (s := s.after i.dt) (fun a => a.issueOn i use f) hs hcopy hown
  refine ⟨_, (exec_judged c i use f s hc).trans (congrArg Host.Outcome.next heq), fun u g h200 h202 => ?_,
    rfl, rfl, rfl, rfl, rfl, rfl, rfl, rfl, rfl, rfl, rfl, rfl, rfl, rfl, rfl, rfl, rfl⟩
  refine over_ne (fun e he hk => ?_) _
  rcases hwakes e he with hp | hp
  · exact h200 ((congrArg Key.pos hk).symm.trans hp)
  · exact h202 ((congrArg Key.pos hk).symm.trans hp)

end Sys2Proof.Laws
end

section
/-!
Control flow (Table 16.4, R84, R450): where `nop`, `halt`, branches, `call` and `ret` leave their thread.
-/
namespace Sys2Proof.Laws
open Sys2Proof Sys2Proof.Machine

/-- A word of control flow: no IMM operand, and neither gA, gB nor a condition. -/
structure ControlX (i : Issue) : Prop extends PlainX i where
  regImm : i.regImm = false
  xA : i.xA = 0
  xB : i.xB = 0
  xCond : i.xCond = 0

/-- FORMAT does not fail on a word of control flow whose flag OPT, field D and IMM are 0 where the opcode leaves them unused. -/
theorem fmtX_of_control {i : Issue} {opt d useImm : Bool} (hx : ControlX i) (ho : opt = false → i.opt = false) (hd : d = false → i.xD = 0)
    (hi : useImm = false → i.imm = 0) : fmtX i false opt d false false false useImm = (.format, false) :=
  fmtX_of_unused_zero hx.toPlainX (fun _ => hx.regImm) ho hd (fun _ => hx.xA) (fun _ => hx.xB) (fun _ => hx.xCond) hi

/-- Command `c` passes, leaves the program counter, the state and the call stack of its thread as given, and changes nothing else but
its thread's own registers and reports. -/
def GoesTo (i : Issue) (s : State) (c : Instr) (pc : Nat) (st : Int) (calls : List (Nat × Bool)) : Prop :=
  ∃ t, exec c s = .next t ∧ t.pget i.th 0 = true ∧ t.thn i.th Lamp.PC = pc ∧ t.th i.th Lamp.STATE = st ∧
    Tbl.get ⟨i.th, 0⟩ [] t.calls = calls ∧ State.sameUnits i.th t (s.after i.dt)

section
variable {i : Issue} {s : State} {c : Instr} {use : Use} {f : State → Judged} {e : State} {pc : Nat} {st : Int} {calls : List (Nat × Bool)}

/-- A control instruction that passes its own checks and the rules of a salvo goes where its act leaves the thread. -/
theorem goesTo_of_act (h : s.mayIssue i 2) (hc : judged c = some (i, use, f)) (hv : (f (s.facing i use)).verdict = .act e)
    (hd : (f (s.facing i use)).data = []) (hperm : (f (s.facing i use)).permit = 2) (hck : ∀ x ∈ (f (s.facing i use)).checks, x.2 = false)
    (hsal : ∀ x ∈ salvoChecks (s.facing i use) i.th use (.act e), x.2 = false) (hg : e.goesOn i.th)
    (hs : State.sameUnits i.th e (s.facing i use)) (h1 : e.thn i.th Lamp.PC = pc) (h2 : e.th i.th Lamp.STATE = st)
    (h3 : Tbl.get ⟨i.th, 0⟩ [] e.calls = calls) : GoesTo i s c pc st calls :=
  goes_of c i use s e f pc st calls hc
    (State.passes_of s i use f (hperm.symm ▸ h) (by simp [hv]) hck (by rw [hv]; exact hsal)) hv hd hg hs h1 h2 h3

theorem goesOn_in_ledger {x : State} {t : Nat} (hpast : x.rb (U.thread t) Lamp.past = false) (hin : x.rb (U.thread t) Lamp.IN_ERRAND = false) :
    x.goesOn t := .inr (.inl ⟨hpast, hin⟩)

theorem goesOn_not_running {x : State} {t : Nat} (h : x.th t Lamp.STATE = thHalted) : x.goesOn t := .inl (by rw [h]; decide)

theorem no_salvoChecks {use : Use} {v : Verdict} (hsalvo : s.noSalvo i.th) : ∀ x ∈ salvoChecks (s.facing i use) i.th use v, x.2 = false := by
  rw [salvoChecks_none _ _ _ _ (facing_noSalvo s i use i.th hsalvo)]
  exact List.forall_mem_nil _

/-- A branch executes normally inside a salvo (R107). -/
theorem salvoChecks_register_act (v e : State) (t : Nat) : salvoChecks v t .register (.act e) = [] := by
  unfold salvoChecks
  split <;> rfl

/-! ### `nop`, `halt`, `ret` -/

theorem nop_goesTo (h : s.mayIssue i 2) (hp : s.inProgram i.th) (hx : ControlX i) (ho : i.opt = false) (hD : i.xD = 0) (hi : i.imm = 0)
    (hsalvo : s.noSalvo i.th) : GoesTo i s (.nop i) (s.thn i.th Lamp.PC + 1) thRunning (Tbl.get ⟨i.th, 0⟩ [] s.calls) := by
  obtain ⟨hpc, hpast⟩ := pc_next s i .other hp hx.params
  refine goesTo_of_act h rfl rfl rfl rfl ?_ (no_salvoChecks hsalvo) (goesOn_in_ledger hpast (facing_not_in_errand s i .other hp))
    (State.sameUnits_refl _ _) hpc (facing_running s i .other h) ?_
  · simp [judgeNop, fmtX_of_control hx, ho, hD, hi]
  · rw [State.facing_calls]

/-- Outside an errand HALT is allowed, inside a salvo too (R106). -/
theorem halt_passes (h : s.mayIssue i 2) (hp : s.inProgram i.th) (hx : ControlX i) (ho : i.opt = false) (hD : i.xD = 0) (hi : i.imm = 0) :
    s.passes i .ends (judgeHalt i) := by
  refine State.passes_of s i .ends (judgeHalt i) h (by simp [judgeHalt]) ?_ (salvoChecks_outside s i _ hp)
  simp [judgeHalt, fmtX_of_control hx, ho, hD, hi, facing_no_errand s i .ends hp]

theorem halt_goesTo (h : s.mayIssue i 2) (hp : s.inProgram i.th) (hx : ControlX i) (ho : i.opt = false) (hD : i.xD = 0) (hi : i.imm = 0) :
    GoesTo i s (.halt i) (s.thn i.th Lamp.PC + 1) thHalted (Tbl.get ⟨i.th, 0⟩ [] s.calls) := by
  obtain ⟨hst, hpc, hcalls, -⟩ := halt_upd (s.facing i .ends) i.th h.1
  refine goes_of _ i .ends s _ (judgeHalt i) _ _ _ rfl (halt_passes h hp hx ho hD hi) rfl rfl (goesOn_not_running hst)
    (State.halt_same _ _) (hpc.trans (pc_next s i .ends hp hx.params).1) hst ?_
  rw [hcalls, State.facing_calls]

theorem halt_noSalvo {t : State} (h : s.mayIssue i 2) (hp : s.inProgram i.th) (hx : ControlX i) (ho : i.opt = false) (hD : i.xD = 0)
    (hi : i.imm = 0) (ht : exec (.halt i) s = .next t) : t.noSalvo i.th := by
  obtain ⟨hst, -, -, hno⟩ := halt_upd (s.facing i .ends) i.th h.1
  obtain ⟨-, -, hsalvos, -⟩ := State.issue_act_thread s i .ends (judgeHalt i) _ (halt_passes h hp hx ho hD hi) rfl rfl (goesOn_not_running hst)
  rw [exec_judged _ i .ends (judgeHalt i) s rfl] at ht
  obtain rfl := Host.Outcome.next.inj ht
  unfold State.noSalvo at hno ⊢
  rw [hsalvos]
  exact hno

/-- The program counter set to a place of the Ledger, outside any errand. -/
theorem toLedger_upd (x : State) (t : Nat) {pc : Nat} (h : pc < 65536) :
    let y := x.wrs (U.thread t) [(Lamp.PC, (pc : Int)), (Lamp.IN_ERRAND, 0), (Lamp.past, 0)]
    y.thn t Lamp.PC = pc ∧ y.rb (U.thread t) Lamp.past = false ∧ y.rb (U.thread t) Lamp.IN_ERRAND = false ∧
      y.th t Lamp.STATE = x.th t Lamp.STATE ∧ y.calls = x.calls := by
  have hnd : (([(Lamp.PC, (pc : Int)), (Lamp.IN_ERRAND, 0), (Lamp.past, 0)] : List (Field × Int)).map fun e => e.1.pos).Nodup := by
    simp [Lamp.PC, Lamp.IN_ERRAND, Lamp.past]
  refine ⟨?_, ?_, ?_, ?_, (wrs_upd x _ _).2⟩
  · unfold State.thn State.rn
    rw [wrs_at x _ _ Lamp.PC pc (by simp) hnd, pc_norm pc h, Int.toNat_natCast]
  · unfold State.rb
    rw [wrs_at x _ _ Lamp.past 0 (by simp) hnd]
    rfl
  · unfold State.rb
    rw [wrs_at x _ _ Lamp.IN_ERRAND 0 (by simp) hnd]
    rfl
  · exact State.wrs_ne x _ _ _ Lamp.STATE (by simp [Lamp.PC, Lamp.IN_ERRAND, Lamp.past, Lamp.STATE])

/-- A return to a saved index of the Ledger. -/
theorem popCall_ledger {x : State} {t pc : Nat} {rest : List (Nat × Bool)} (hc : Tbl.get ⟨t, 0⟩ [] x.calls = (pc, false) :: rest)
    (hpc : pc < 65536) :
    (x.popCall t).thn t Lamp.PC = pc ∧ (x.popCall t).rb (U.thread t) Lamp.past = false ∧ (x.popCall t).rb (U.thread t) Lamp.IN_ERRAND = false ∧
      (x.popCall t).th t Lamp.STATE = x.th t Lamp.STATE ∧ Tbl.get ⟨t, 0⟩ [] (x.popCall t).calls = rest := by
  have hge : ¬ 65536 ≤ pc := by omega
  simp only [State.popCall, hc, Bool.false_eq_true, if_false, Bool.not_false, Bool.true_and, hge, decide_false]
  obtain ⟨h1, h2, h3, h4, h5⟩ := toLedger_upd { x with calls := Tbl.set ⟨t, 0⟩ [] rest x.calls } t hpc
  exact ⟨h1, h2, h3, h4, by rw [h5]; exact Tbl.get_set_same _ _ _ _⟩

theorem ret_goesTo {rest : List (Nat × Bool)} (h : s.mayIssue i 2) (hx : ControlX i) (ho : i.opt = false) (hD : i.xD = 0) (hi : i.imm = 0)
    (hsalvo : s.noSalvo i.th) (hpc : pc < 65536) (hcalls : Tbl.get ⟨i.th, 0⟩ [] s.calls = (pc, false) :: rest) :
    GoesTo i s (.ret i) pc thRunning rest := by
  have hcalls : Tbl.get ⟨i.th, 0⟩ [] (s.facing i .other).calls = (pc, false) :: rest := by rw [State.facing_calls]; exact hcalls
  obtain ⟨h1, hpast, hin, hst, hrest⟩ := popCall_ledger hcalls hpc
  refine goesTo_of_act (e := (s.facing i .other).popCall i.th) h rfl (by simp [judgeRet, hcalls]) rfl rfl ?_ (no_salvoChecks hsalvo)
    (goesOn_in_ledger hpast hin) (State.popCall_same _ _) h1 (hst.trans (facing_running s i .other h)) hrest
  simp [judgeRet, fmtX_of_control hx, ho, hD, hi, hcalls]

/-! ### Branches -/

theorem branchTarget_in_ledger {v : State} {t imm : Nat} (hin : v.rb (U.thread t) Lamp.IN_ERRAND = false) (himm : imm ≤ 65535)
    (hsalvo : v.noSalvo t ∨ v.thn t Lamp.PC ≤ imm) :
    (∀ x ∈ (branchTarget v t imm).1, x.2 = false) ∧ (branchTarget v t imm).2 = imm := by
  have hback : (v.salvos.any (·.th == t) && decide (imm < v.thn t Lamp.PC)) = false := by
    rcases hsalvo with hs | hs
    · rw [show v.salvos.any (·.th == t) = false from hs, Bool.false_and]
    · rw [decide_eq_false (by omega), Bool.and_false]
  simp [branchTarget, hin, hback, himm]

/-- Where a branch to IMM in a Ledger program leads. -/
theorem jump_goesTo (h : s.mayIssue i 2) (hp : s.inProgram i.th) (hc : judged c = some (i, .register, f)) (himm : i.imm ≤ 65535)
    (hv : (f (s.facing i .register)).verdict = .act ((s.facing i .register).jump i.th i.imm)) (hd : (f (s.facing i .register)).data = [])
    (hperm : (f (s.facing i .register)).permit = 2) (hck : ∀ x ∈ (f (s.facing i .register)).checks, x.2 = false) :
    GoesTo i s c i.imm thRunning (Tbl.get ⟨i.th, 0⟩ [] s.calls) := by
  obtain ⟨hpc, hst, hcalls, hpast, hin, hsame⟩ := jump_upd (s.facing i .register) i.th i.imm (by omega)
  refine goesTo_of_act h hc hv hd hperm hck ?_ (goesOn_in_ledger hpast (hin.trans (facing_not_in_errand s i .register hp))) hsame hpc
    (hst.trans (facing_running s i .register h)) ?_
  · rw [salvoChecks_register_act]
    exact List.forall_mem_nil _
  · rw [hcalls, State.facing_calls]

theorem facing_branchTarget (hp : s.inProgram i.th) (hpar : i.params = []) (himm : i.imm ≤ 65535)
    (hsalvo : s.noSalvo i.th ∨ s.thn i.th Lamp.PC + 1 ≤ i.imm) (use : Use) :
    (∀ x ∈ (branchTarget (s.facing i use) i.th i.imm).1, x.2 = false) ∧ (branchTarget (s.facing i use) i.th i.imm).2 = i.imm :=
  branchTarget_in_ledger (facing_not_in_errand s i use hp) himm
    (hsalvo.imp (facing_noSalvo s i use i.th) fun hle => (pc_next s i use hp hpar).1.trans_le hle)

theorem br_goesTo (h : s.mayIssue i 2) (hp : s.inProgram i.th) (hx : ControlX i) (ho : i.opt = false) (hD : i.xD = 0) (himm : i.imm ≤ 65535)
    (hsalvo : s.noSalvo i.th ∨ s.thn i.th Lamp.PC + 1 ≤ i.imm) :
    GoesTo i s (.br i) i.imm thRunning (Tbl.get ⟨i.th, 0⟩ [] s.calls) := by
  obtain ⟨hck, htarget⟩ := facing_branchTarget hp hx.params himm hsalvo .register
  refine jump_goesTo h hp rfl himm ?_ rfl rfl ?_
  · simp only [judgeBr, htarget]
  · exact List.forall_mem_cons.mpr ⟨by rw [fmtX_of_control (useImm := true) hx (fun _ => ho) (fun _ => hD) nofun], hck⟩

theorem bp_taken_goesTo (h : s.mayIssue i 2) (hp : s.inProgram i.th) (hx : ControlX i) (hD : i.xD ≤ 7) (htaken : s.pget i.th i.xD ≠ i.opt)
    (himm : i.imm ≤ 65535) (hsalvo : s.noSalvo i.th ∨ s.thn i.th Lamp.PC + 1 ≤ i.imm) :
    GoesTo i s (.bp i) i.imm thRunning (Tbl.get ⟨i.th, 0⟩ [] s.calls) := by
  obtain ⟨hck, htarget⟩ := facing_branchTarget hp hx.params himm hsalvo .register
  have htaken : ((s.facing i .register).pget i.th i.xD != i.opt) = true := by
    unfold State.pget
    rw [State.facing_preds]
    exact bne_iff_ne.mpr htaken
  refine jump_goesTo h hp rfl himm ?_ rfl rfl ?_
  · simp only [judgeBp, htaken, htarget, if_true]
  · simp only [judgeBp, htaken, if_true, fmtX_of_control hx (d := true) (opt := true) (useImm := true) nofun nofun nofun]
    intro x hm
    rcases List.mem_append.mp hm with hm | hm
    · simp only [List.mem_cons, List.not_mem_nil, or_false] at hm
      rcases hm with rfl | rfl
      · rfl
      · simpa using hD
    · exact hck x hm

theorem bp_passed_goesTo (h : s.mayIssue i 2) (hp : s.inProgram i.th) (hx : ControlX i) (hD : i.xD ≤ 7) (hnot : s.pget i.th i.xD = i.opt) :
    GoesTo i s (.bp i) (s.thn i.th Lamp.PC + 1) thRunning (Tbl.get ⟨i.th, 0⟩ [] s.calls) := by
  obtain ⟨hpc, hpast⟩ := pc_next s i .register hp hx.params
  have hnot : ((s.facing i .register).pget i.th i.xD != i.opt) = false := by
    unfold State.pget
    rw [State.facing_preds]
    exact bne_eq_false_iff_eq.mpr hnot
  refine goesTo_of_act (e := s.facing i .register) h rfl ?_ rfl rfl ?_ ?_ (goesOn_in_ledger hpast (facing_not_in_errand s i .register hp))
    (State.sameUnits_refl _ _) hpc (facing_running s i .register h) ?_
  · simp [judgeBp, hnot]
  · simp [judgeBp, hnot, fmtX_of_control hx, hD]
  · rw [salvoChecks_register_act]
    exact List.forall_mem_nil _
  · rw [State.facing_calls]

/-! ### `call` -/

/-- The state a `call` of a Ledger program leaves: the return index kept, the program counter at IMM. -/
def callEffect (i : Issue) (v : State) : State :=
  State.wrs { v with calls := Tbl.set ⟨i.th, 0⟩ [] ((v.thn i.th Lamp.PC, false) :: Tbl.get ⟨i.th, 0⟩ [] v.calls) v.calls } (U.thread i.th)
    [(Lamp.PC, i.imm), (Lamp.IN_ERRAND, 0), (Lamp.past, 0)]

theorem judgeCall_verdict (hp : s.inProgram i.th) (hpar : i.params = []) :
    (judgeCall i (s.facing i .other)).verdict = .act (callEffect i (s.facing i .other)) := by
  have hin := facing_not_in_errand s i .other hp
  have hnone := errandOf_none (s.facing i .other) i.th (facing_no_errand s i .other hp)
  have hpast : (s.facing i .other).thn i.th Lamp.past = 0 := by
    have := (pc_next s i .other hp hpar).2
    unfold State.rb at this
    simp only [bne_eq_false_iff_eq] at this
    unfold State.thn State.rn
    rw [this]
    rfl
  simp only [judgeCall, hin, hnone, hpast, callEffect, Nat.mul_zero, Nat.add_zero]

theorem callEffect_upd (i : Issue) (v : State) (himm : i.imm ≤ 65535) :
    (callEffect i v).thn i.th Lamp.PC = i.imm ∧ (callEffect i v).rb (U.thread i.th) Lamp.past = false ∧
      (callEffect i v).rb (U.thread i.th) Lamp.IN_ERRAND = false ∧ (callEffect i v).th i.th Lamp.STATE = v.th i.th Lamp.STATE ∧
      Tbl.get ⟨i.th, 0⟩ [] (callEffect i v).calls = (v.thn i.th Lamp.PC, false) :: Tbl.get ⟨i.th, 0⟩ [] v.calls ∧
      State.sameUnits i.th (callEffect i v) v := by
  obtain ⟨h1, h2, h3, h4, h5⟩ := toLedger_upd
    { v with calls := Tbl.set ⟨i.th, 0⟩ [] ((v.thn i.th Lamp.PC, false) :: Tbl.get ⟨i.th, 0⟩ [] v.calls) v.calls } i.th
    (Nat.lt_succ_of_le himm)
  unfold callEffect
  exact ⟨h1, h2, h3, h4, by rw [h5]; exact Tbl.get_set_same (⟨i.th, 0⟩ : Key) [] ((v.thn i.th Lamp.PC, false) :: Tbl.get ⟨i.th, 0⟩ [] v.calls) v.calls,
    State.sameUnits_trans (State.wrs_same _ _ _ _ (.inl rfl)) (State.calls_then _ (State.sameUnits_refl _ v))⟩

theorem call_goesTo (h : s.mayIssue i 2) (hp : s.inProgram i.th) (hx : ControlX i) (ho : i.opt = false) (hD : i.xD = 0) (himm : i.imm ≤ 65535)
    (hsalvo : s.noSalvo i.th) (hlen : (Tbl.get ⟨i.th, 0⟩ [] s.calls).length < 8) :
    GoesTo i s (.call i) i.imm thRunning ((s.thn i.th Lamp.PC + 1, false) :: Tbl.get ⟨i.th, 0⟩ [] s.calls) := by
  obtain ⟨hpc, hpast, hin, hst, hcalls, hsame⟩ := callEffect_upd i (s.facing i .other) himm
  refine goesTo_of_act h rfl (judgeCall_verdict hp hx.params) rfl rfl ?_ (no_salvoChecks hsalvo) (goesOn_in_ledger hpast hin) hsame hpc
    (hst.trans (facing_running s i .other h)) ?_
  · simp [judgeCall, fmtX_of_control hx, ho, hD, himm, State.facing_calls, hlen]
  · rw [hcalls, (pc_next s i .other hp hx.params).1, State.facing_calls]

end

/-- Settles O15, one instruction at a time. -/
theorem controlFlowInPrograms : Obligations.ControlFlowInPrograms := by
  intro i s h hp hpar hf hri hg hres hA hB hc
  have hx : ControlX i := ⟨⟨hpar, hres, hf, hg⟩, hri, hA, hB, hc⟩
  refine ⟨fun ho hD hi => ⟨nop_goesTo h hp hx ho hD hi, ⟨halt_goesTo h hp hx ho hD hi, fun t => halt_noSalvo h hp hx ho hD hi⟩,
    fun pc rest hsalvo hpc => ret_goesTo h hx ho hD hi hsalvo hpc⟩,
    fun ho hD himm => ⟨br_goesTo h hp hx ho hD himm, call_goesTo h hp hx ho hD himm⟩,
    bp_passed_goesTo h hp hx, bp_taken_goesTo h hp hx⟩

end Sys2Proof.Laws
end

section
/-!
The edges of control flow (R88, R90, R450): a `ret` with nothing to return to, and a branch inside an errand.
-/
namespace Sys2Proof.Laws
open Sys2Proof Sys2Proof.Machine

section
variable {i : Issue} {s : State}

/-- A `ret` with an empty stack halts its Ledger thread with FORMAT. -/
theorem ret_empty_halts (h : s.mayIssue i 2) (hp : s.inProgram i.th) (hsalvo : s.noSalvo i.th) (hx : ControlX i) (ho : i.opt = false)
    (hD : i.xD = 0) (hi : i.imm = 0) (hcalls : Tbl.get ⟨i.th, 0⟩ [] s.calls = []) :
    ∃ t, exec (.ret i) s = .next t ∧ t.th i.th Lamp.STATE = thHalted ∧ t.th i.th Lamp.LAST_CODE = Code.format.num ∧
      t.pget i.th 0 = false ∧ State.sameUnits i.th t (s.after i.dt) := by
  have hcalls : Tbl.get ⟨i.th, 0⟩ [] (s.facing i .other).calls = [] := by rw [State.facing_calls]; exact hcalls
  have hv : (judgeRet i (s.facing i .other)).verdict = .actCode ((s.facing i .other).halt i.th) .format := by simp [judgeRet, hcalls]
  have hpass : s.passes i .other (judgeRet i) := by
    refine State.passes_of s i .other (judgeRet i) h (by simp [hv]) ?_ (no_salvoChecks hsalvo)
    simp [judgeRet, fmtX_of_control hx, ho, hD, hi, facing_no_errand s i .other hp]
  obtain ⟨hst, -⟩ := halt_upd (s.facing i .other) i.th h.1
  obtain ⟨hreg, hlast, hp0, hsame⟩ := State.issue_actCode s i .other (judgeRet i) _ .format hpass hv rfl (goesOn_not_running hst)
  exact ⟨_, exec_judged _ i .other (judgeRet i) s rfl, (hreg Lamp.STATE (by decide)).trans hst, hlast, hp0,
    State.sameUnits_trans hsame (State.sameUnits_trans (State.halt_same _ _) (State.facing_same s i .other))⟩

/-! ### A branch inside an errand -/

theorem facing_pc_in_errand (hin : s.rb (U.thread i.th) Lamp.IN_ERRAND = true) (hlt : s.thn i.th Lamp.PC + (1 + i.params.length) < 65536)
    (use : Use) : (s.facing i use).thn i.th Lamp.PC = s.thn i.th Lamp.PC + (1 + i.params.length) := by
  have hadv : (s.facing i use).rd (U.thread i.th) Lamp.PC = ((s.after i.dt).advancePc i.th (1 + i.params.length)).rd (U.thread i.th) Lamp.PC := rfl
  have hin' : (s.after i.dt).rb (U.thread i.th) Lamp.IN_ERRAND = true := hin
  have hpc : (s.after i.dt).thn i.th Lamp.PC = s.thn i.th Lamp.PC := rfl
  unfold State.thn State.rn at *
  rw [hadv]
  unfold State.advancePc State.thn State.rn
  rw [hin', if_pos rfl, State.setTh, State.rd_wr_same, hpc, pc_norm _ hlt, Int.toNat_natCast]

/-- The errand's execution ends: its thread waits on its queue again (R90). -/
theorem endErrand_waits {x : State} {t : Nat} {e : Errand} (ht : t < 64) (he : x.errandOf t = some e)
    (hstop : x.rb (U.thread t) Lamp.stopAtEnd = false) :
    (x.endErrand t).th t Lamp.STATE = thQueueWait ∧ (x.endErrand t).inErrand t = false := by
  let cleared : List (Field × Int) := [(Lamp.errand, 0), (Lamp.IN_ERRAND, 0), (Lamp.TARGET, 0), (Lamp.tMode, 0), (Lamp.callIdx, 0), (Lamp.PC, 0)]
  let y := ((x.discardSalvo t Code.format.num).setErrand { e with phase := 2 }).wrs (U.thread t) cleared
  have hstop' : y.rb (U.thread t) Lamp.stopAtEnd = false := by
    have : y.rd (U.thread t) Lamp.stopAtEnd = x.rd (U.thread t) Lamp.stopAtEnd :=
      (State.wrs_ne _ _ _ cleared _ (by decide)).trans (State.discardSalvo_rd x t _ t _ ht (by decide))
    unfold State.rb at *
    rw [this, hstop]
  have herr : y.rd (U.thread t) Lamp.errand = 0 := wrs_at _ _ cleared Lamp.errand 0 (by simp [cleared]) (by decide)
  have heq : x.endErrand t = State.setTh { y with calls := Tbl.set ⟨t, 0⟩ [] [] y.calls } t Lamp.STATE thQueueWait := by
    have hif : State.rb { y with calls := Tbl.set ⟨t, 0⟩ [] [] y.calls } (U.thread t) Lamp.stopAtEnd = false := hstop'
    simp only [State.endErrand, he]
    exact if_neg (by rw [hif]; exact Bool.false_ne_true)
  rw [heq]
  refine ⟨State.rd_wr_same _ _ _ _, ?_⟩
  unfold State.inErrand State.rb State.setTh
  rw [State.rd_wr_ne _ _ _ _ _ _ (.inr (by decide))]
  exact bne_eq_false_iff_eq.mpr herr

/-- Where the program counter stands past the errand's words, execution of the errand ends. -/
theorem settle_of_errand_done {x : State} {t : Nat} {e : Errand} (hrun : x.th t Lamp.STATE = thRunning)
    (hin : x.rb (U.thread t) Lamp.IN_ERRAND = true) (he : x.errandOf t = some e) (hpc : e.head + e.words.length ≤ x.thn t Lamp.PC) :
    x.settle t = x.endErrand t := by
  unfold State.settle
  rw [if_neg (not_not.mpr hrun), hin, Bool.not_true, Bool.and_false, if_neg Bool.false_ne_true, if_pos rfl, he]
  exact if_pos hpc

/-- The outcome of an instruction leaves alone what decides where its thread goes on. -/
theorem done_thread (x : State) (t pid c : Nat) (b : Bool) (ht : t < 64) :
    (∀ g : Field, g.pos ≠ Lamp.LAST_CODE.pos → ((x.outcome t c b).closePart pid c).rd (U.thread t) g = x.rd (U.thread t) g) ∧
      ((x.outcome t c b).closePart pid c).errandOf t = x.errandOf t := by
  have hreg : ∀ g : Field, g.pos ≠ Lamp.LAST_CODE.pos → ((x.outcome t c b).closePart pid c).rd (U.thread t) g = x.rd (U.thread t) g :=
    fun g hg => by rw [State.closePart_thread _ t _ _ _ ht, State.outcome_thread _ _ _ _ _ hg]
  refine ⟨hreg, ?_⟩
  unfold State.errandOf State.thn State.rn
  rw [hreg Lamp.errand (by decide), (State.closePart_upd _ _ _).2.2]
  rfl

theorem branchTarget_in_errand {v : State} {t imm : Nat} {e : Errand} (hin : v.rb (U.thread t) Lamp.IN_ERRAND = true)
    (he : v.errandOf t = some e) {target : Nat} (htarget : v.thn t Lamp.PC - 1 + imm = target) (himm : 1 ≤ imm)
    (hle : target ≤ e.head + e.words.length) (hstart : startsAt e.words 0 (target - e.head) = true) :
    branchTarget v t imm = ([(.format, false)], target) := by
  have h0 : (imm == 0) = false := by simp; omega
  have hlt : decide (e.head + e.words.length < target) = false := by simp; omega
  simp only [branchTarget, hin, he, htarget, h0, hlt, hstart, if_true, Bool.not_true, Bool.or_self]

/-- A branch of an errand to a place `target` of the errand or to its CRC word. -/
theorem br_in_errand {e : Errand} {target : Nat} (h : s.mayIssue i 2) (hin : s.rb (U.thread i.th) Lamp.IN_ERRAND = true)
    (he : s.errandOf i.th = some e) (hstop : s.rb (U.thread i.th) Lamp.stopAtEnd = false) (hx : ControlX i) (ho : i.opt = false)
    (hD : i.xD = 0) (himm : 1 ≤ i.imm) (htarget : s.thn i.th Lamp.PC + i.imm = target) (hle : target ≤ e.head + e.words.length)
    (hlt : target < 65536) (hstart : startsAt e.words 0 (target - e.head) = true) :
    ∃ t, exec (.br i) s = .next t ∧ t.pget i.th 0 = true ∧ State.sameUnits i.th t (s.after i.dt) ∧
      (target < e.head + e.words.length → t.thn i.th Lamp.PC = target ∧ t.th i.th Lamp.STATE = thRunning) ∧
      (target = e.head + e.words.length → t.th i.th Lamp.STATE = thQueueWait ∧ t.inErrand i.th = false) := by
  have hpar := hx.params
  let v := s.facing i .register
  have hvin : v.rb (U.thread i.th) Lamp.IN_ERRAND = true := by
    unfold State.rb
    rw [State.facing_rd s i .register _ _ (.inr (by decide))]
    exact hin
  have hve : v.errandOf i.th = some e := (State.facing_errandOf s i .register i.th).trans he
  have hvpc : v.thn i.th Lamp.PC - 1 + i.imm = target := by
    rw [facing_pc_in_errand hin (by rw [hpar, List.length_nil]; omega), hpar, List.length_nil]
    omega
  have hb := branchTarget_in_errand hvin hve hvpc himm hle hstart
  have hv : (judgeBr i v).verdict = .act (v.jump i.th target) := by simp only [judgeBr, hb]
  have hpass : s.passes i .register (judgeBr i) := by
    refine State.passes_of s i .register (judgeBr i) h (by simp [show s.facing i .register = v from rfl, hv]) ?_ ?_
    · simp only [judgeBr, show s.facing i .register = v from rfl, hb, fmtX_of_control (useImm := true) hx (fun _ => ho) (fun _ => hD) nofun]
      simp
    · rw [show s.facing i .register = v from rfl, hv, salvoChecks_register_act]
      exact List.forall_mem_nil _
  obtain ⟨jpc, jst, -, -, jin, jsame⟩ := jump_upd v i.th target hlt
  have jother : ∀ g : Field, g.pos ≠ Lamp.PC.pos → g.pos ≠ Lamp.past.pos → (v.jump i.th target).rd (U.thread i.th) g = v.rd (U.thread i.th) g :=
    fun g h1 h2 => State.wrs_ne v _ _ _ g (by simp [h1, h2])
  have jerr : (v.jump i.th target).errandOf i.th = some e := by
    rw [← hve]
    unfold State.errandOf State.thn State.rn
    rw [jother Lamp.errand (by decide) (by decide)]
    rfl
  have jrun : (v.jump i.th target).th i.th Lamp.STATE = thRunning := jst.trans (facing_running s i .register h)
  obtain ⟨hp0, -, hsame⟩ := State.issue_act s i .register (judgeBr i) _ hpass hv
  refine ⟨_, exec_judged _ i .register (judgeBr i) s rfl, hp0,
    State.sameUnits_trans hsame (State.sameUnits_trans jsame (State.facing_same s i .register)), fun hin_errand => ?_, fun hcrc => ?_⟩
  · have hg : (v.jump i.th target).goesOn i.th := .inr (.inr ⟨jin.trans hvin, e, jerr, jpc.trans_lt hin_errand⟩)
    obtain ⟨hreg, -⟩ := State.issue_act_thread s i .register (judgeBr i) _ hpass hv rfl hg
    refine ⟨?_, (hreg Lamp.STATE (by decide)).trans jrun⟩
    unfold State.thn State.rn at jpc ⊢
    rw [hreg Lamp.PC (by decide), jpc]
  · obtain ⟨hreg, herr⟩ := done_thread (v.jump i.th target) i.th (s.after i.dt).nextId 0 true h.1
    let y := ((v.jump i.th target).outcome i.th 0 true).closePart (s.after i.dt).nextId 0
    have heq : s.issue i .register (judgeBr i) = y.settle i.th := by
      rw [State.issue_passes s i .register (judgeBr i) hpass (by simp [show s.facing i .register = v from rfl, hv])]
      unfold State.finish
      rw [hv]
      rfl
    have yrun : y.th i.th Lamp.STATE = thRunning := (hreg Lamp.STATE (by decide)).trans jrun
    have yin : y.rb (U.thread i.th) Lamp.IN_ERRAND = true := by
      rw [← hvin, ← jin]
      unfold State.rb
      rw [hreg Lamp.IN_ERRAND (by decide)]
    have ypc : y.thn i.th Lamp.PC = target := by
      rw [← jpc]
      unfold State.thn State.rn
      rw [hreg Lamp.PC (by decide)]
    have ystop : y.rb (U.thread i.th) Lamp.stopAtEnd = false := by
      rw [← hstop]
      unfold State.rb
      rw [hreg Lamp.stopAtEnd (by decide), jother Lamp.stopAtEnd (by decide) (by decide),
        State.facing_rd s i .register _ _ (.inr (by decide))]
    rw [heq, settle_of_errand_done yrun yin (herr.trans jerr) (ypc ▸ hcrc.ge)]
    exact endErrand_waits h.1 (herr.trans jerr) ystop

end

/-- Settles O16. -/
theorem returnsAndBranchesAtTheEdge : Obligations.ReturnsAndBranchesAtTheEdge := by
  refine ⟨fun i s h hp hsalvo hpar hf hri hg ho hres hD hA hB hc hi hcalls => ?_,
    fun i s e h hin he hstop hpar hf hri hg ho hD hres hA hB hc himm hle hlt hstart => ?_⟩
  · exact ret_empty_halts h hp hsalvo ⟨⟨hpar, hres, hf, hg⟩, hri, hA, hB, hc⟩ ho hD hi hcalls
  · exact br_in_errand h hin he hstop ⟨⟨hpar, hres, hf, hg⟩, hri, hA, hB, hc⟩ ho hD himm rfl hle hlt hstart

end Sys2Proof.Laws
end

section
/-!
Waits of a Ledger program (Table 16.4, R106, R409, R452): when `waittick`, `waittime`, `waitcapt` and `sync` begin to wait, and what `target`
sets.
-/
namespace Sys2Proof.Laws
open Sys2Proof Sys2Proof.Machine

/-- Command `c` passes, leaves its thread in state `st` at the next word with no salvo open, and changes nothing else but its thread's
own registers and reports. -/
def Waits (i : Issue) (s : State) (c : Instr) (st : Int) : Prop :=
  ∃ t, exec c s = .next t ∧ t.pget i.th 0 = true ∧ t.noSalvo i.th ∧ t.thn i.th Lamp.PC = s.thn i.th Lamp.PC + 1 ∧
    t.rd (U.thread i.th) Lamp.STATE = st ∧ State.sameUnits i.th t (s.after i.dt)

/-- After command `c` the field of its thread holds `v`. -/
def ThreadShows (i : Issue) (s : State) (c : Instr) (f : Field) (v : Int) : Prop :=
  ∀ t, exec c s = .next t → t.rd (U.thread i.th) f = v

/-- The act of a waiting instruction: it leaves its thread in state `st` with no salvo open, and lets execution go on from the place it
had reached. -/
structure WaitAct (t : Nat) (v e : State) (st : Int) : Prop where
  place : ∀ g : Field, g.pos = Lamp.PC.pos ∨ g.pos = Lamp.past.pos ∨ g.pos = Lamp.IN_ERRAND.pos → e.rd (U.thread t) g = v.rd (U.thread t) g
  state : e.th t Lamp.STATE = st
  noSalvo : e.noSalvo t
  same : State.sameUnits t e v

theorem discardSalvo_waitAct {v : State} {t : Nat} (ht : t < 64) (hrun : v.th t Lamp.STATE = thRunning) :
    WaitAct t v (v.discardSalvo t Code.format.num) thRunning := by
  obtain ⟨hreg, hno⟩ := discardSalvo_upd v t Code.format.num ht
  refine ⟨fun g hg => hreg g ?_, (hreg Lamp.STATE (by decide)).trans hrun, hno, State.discardSalvo_same _ _ _⟩
  rcases hg with hg | hg | hg <;> rw [hg] <;> decide

theorem beginWait_waitAct {v : State} {t : Nat} {st : Int} (k : Nat) (val : Int) (ht : t < 64) (hst : Lamp.STATE.norm st = st) :
    WaitAct t v (v.beginWait t st k val) st := by
  obtain ⟨hstate, -, hno, hsame, hreg⟩ := wait_upd v t st k val ht hst
  refine ⟨fun g hg => hreg g ?_ ?_ ?_ ?_, hstate, hno, hsame⟩ <;> rcases hg with hg | hg | hg <;> rw [hg] <;> decide

/-- Writes to the thread's own fields of a wait leave a waiting act one. -/
theorem WaitAct.wrs {t : Nat} {v e : State} {st : Int} (h : WaitAct t v e st) (l : List (Field × Int))
    (hl : ∀ x ∈ l, x.1.pos ∉ [Lamp.PC.pos, Lamp.past.pos, Lamp.IN_ERRAND.pos, Lamp.STATE.pos]) : WaitAct t v (e.wrs (U.thread t) l) st := by
  have hne : ∀ g : Field, g.pos ∈ [Lamp.PC.pos, Lamp.past.pos, Lamp.IN_ERRAND.pos, Lamp.STATE.pos] →
      (e.wrs (U.thread t) l).rd (U.thread t) g = e.rd (U.thread t) g :=
    fun g hg => State.wrs_ne e _ _ l g fun x hx hgx => hl x hx (hgx ▸ hg)
  refine ⟨fun g hg => (hne g ?_).trans (h.place g hg), (hne Lamp.STATE (by simp)).trans h.state, ?_,
    State.sameUnits_trans (State.wrs_same _ _ _ _ (.inl rfl)) h.same⟩
  · rcases hg with hg | hg | hg <;> simp [hg]
  · have := h.noSalvo
    unfold State.noSalvo at *
    rw [(wrs_upd e _ l).1, this]

section
variable {i : Issue} {s : State} {c : Instr} {use : Use} {f : State → Judged} {e : State} {st : Int}

theorem waits_of_act (h : s.mayIssue i 2) (hp : s.inProgram i.th) (hpar : i.params = []) (hc : judged c = some (i, use, f))
    (hv : (f (s.facing i use)).verdict = .act e) (hd : (f (s.facing i use)).data = []) (hperm : (f (s.facing i use)).permit = 2)
    (hck : ∀ x ∈ (f (s.facing i use)).checks, x.2 = false) (hsal : ∀ x ∈ salvoChecks (s.facing i use) i.th use (.act e), x.2 = false)
    (he : WaitAct i.th (s.facing i use) e st) :
    Waits i s c st ∧ ∀ (g : Field) (v : Int), g.pos ≠ Lamp.LAST_CODE.pos → e.rd (U.thread i.th) g = v → ThreadShows i s c g v :=
  waits_of c i use s e f st hc (State.passes_of s i use f (hperm.symm ▸ h) (by simp [hv]) hck (by rw [hv]; exact hsal)) hp hpar hv hd
    he.place he.state he.noSalvo he.same

/-! ### `waittick` -/

/-- The tick that `waittick` with ABS names has come. -/
theorem facing_tickCome (use : Use) (p : Nat) (n : Int) :
    ((s.facing i use).planOn p && decide (n ≤ (s.facing i use).rd (U.plan p) Plan.TICK)) =
      (s.planOn p && decide (n ≤ s.rd (U.plan p) Plan.TICK)) := by
  unfold State.planOn State.planState
  rw [State.facing_rd s i use _ _ (.inr (by decide)), State.facing_rd s i use _ _ (.inr (by decide))]

theorem facing_thn (use : Use) {g : Field} (h1 : g.pos ≠ Lamp.PC.pos) (h2 : g.pos ≠ Lamp.past.pos) (t : Nat) :
    (s.facing i use).thn t g = s.thn t g := by
  unfold State.thn State.rn
  rw [State.facing_rd s i use _ _ (.inr ⟨h1, h2⟩)]

/-! ### Checks -/

theorem target_checks (hp : s.inProgram i.th) (hx : PlainX i) (hri : i.regImm = false) (hc : i.xCond = 0) (hD : i.xD = 0) (hB : i.xB = 0) (hi : i.imm = 0)
    (hA : i.opt = true → i.xA = 0) :
    ∀ x ∈ (judgeTarget i (s.facing i .other)).checks, x.2 = false := by
  have hfmt : fmtX i false true false (!i.opt) false false false = (.format, false) :=
    fmtX_of_unused_zero hx (fun _ => hri) nofun (fun _ => hD) (by simpa using hA) (fun _ => hB) (fun _ => hc) (fun _ => hi)
  simp [judgeTarget, hfmt, facing_no_errand s i .other hp]

theorem sync_checks (hx : PlainX i) (hri : i.regImm = false) (hc : i.xCond = 0) (ho : i.opt = false) (hD : i.xD = 0) (hA : i.xA = 0) (hB : i.xB = 0)
    (hi : i.imm = 0) :
    ∀ x ∈ (judgeSync i (s.facing i .other)).checks, x.2 = false := by
  simp [judgeSync, fmtX_of_unused_zero hx, hri, ho, hD, hA, hB, hc, hi]

theorem facing_bgOf (use : Use) (t : Nat) : (s.facing i use).bgOf t = s.bgOf t := by
  have hbg : ((s.after i.dt).advancePc i.th (1 + i.params.length)).bg = s.bg := by
    unfold State.advancePc
    split <;> rfl
  exact congrArg (List.filter _) hbg

/-- An instruction allowed outside a salvo only, which leaves its thread running. -/
theorem wrs_waitAct (h : s.mayIssue i 2) (l : List (Field × Int)) (hsalvo : s.noSalvo i.th)
    (hl : ∀ x ∈ l, x.1.pos ∉ [Lamp.PC.pos, Lamp.past.pos, Lamp.IN_ERRAND.pos, Lamp.STATE.pos]) :
    WaitAct i.th (s.facing i .other) ((s.facing i .other).wrs (U.thread i.th) l) thRunning :=
  WaitAct.wrs ⟨fun _ _ => rfl, facing_running s i .other h, facing_noSalvo s i .other i.th hsalvo, State.sameUnits_refl _ _⟩ l hl

section
variable (h : s.mayIssue i 2) (hp : s.inProgram i.th) (hx : PlainX i) (hri : i.regImm = false) (hc : i.xCond = 0)
include h hp hx hri hc

/-- What `waittick` does where its act is a waiting one. -/
theorem waittick_waits (hD : i.xD = 0) (hB : i.xB = 0) (hA : i.opt = false → i.xA = 0) (hi : i.opt = true → i.imm = 0)
    (hv : (judgeWaittick i (s.facing i .ends)).verdict = .act e) (he : WaitAct i.th (s.facing i .ends) e st) :
    Waits i s (.waittick i) st ∧ ∀ (g : Field) (v : Int), g.pos ≠ Lamp.LAST_CODE.pos → e.rd (U.thread i.th) g = v → ThreadShows i s (.waittick i) g v := by
  refine waits_of_act h hp hx.params rfl hv rfl rfl ?_ (salvoChecks_outside s i _ hp) he
  have hfmt : fmtX i false true false i.opt false false (!i.opt) = (.format, false) :=
    fmtX_of_unused_zero hx (fun _ => hri) nofun (fun _ => hD) hA (fun _ => hB) (fun _ => hc) (by simpa using hi)
  simp [judgeWaittick, hfmt, facing_no_errand s i .ends hp]

theorem waittick_zero (hD : i.xD = 0) (hB : i.xB = 0) (ho : i.opt = false) (hA : i.xA = 0) (hi : i.imm = 0) : Waits i s (.waittick i) thRunning :=
  (waittick_waits h hp hx hri hc hD hB (fun _ => hA) (fun _ => hi) (by simp [judgeWaittick, ho, hi])
    (discardSalvo_waitAct h.1 (facing_running s i .ends h))).1

theorem waittick_ticks (hD : i.xD = 0) (hB : i.xB = 0) (ho : i.opt = false) (hA : i.xA = 0) (hi : i.imm ≠ 0) :
    Waits i s (.waittick i) thTickWait ∧ ThreadShows i s (.waittick i) Lamp.waitVal i.imm := by
  obtain ⟨hw, hshow⟩ := waittick_waits h hp hx hri hc hD hB (fun _ => hA) (by simp [ho]) (by simp [judgeWaittick, ho, hi]; rfl)
    (beginWait_waitAct 1 i.imm h.1 (by decide))
  exact ⟨hw, hshow Lamp.waitVal _ (by decide) (wait_upd _ _ _ _ _ h.1 (by decide)).2.1⟩

theorem waittick_abs_come (hD : i.xD = 0) (hB : i.xB = 0) (ho : i.opt = true) (hi : i.imm = 0)
    (hcome : (s.planOn (s.thn i.th Lamp.PLAN) && decide (((s.gget i.th i.xA).toNat : Int) ≤ s.rd (U.plan (s.thn i.th Lamp.PLAN)) Plan.TICK)) = true) :
    Waits i s (.waittick i) thRunning := by
  refine (waittick_waits h hp hx hri hc hD hB (by simp [ho]) (fun _ => hi) ?_ (discardSalvo_waitAct h.1 (facing_running s i .ends h))).1
  simp only [judgeWaittick, ho, if_true, facing_tickCome, facing_gget_any, facing_thn .ends (g := Lamp.PLAN) (by decide) (by decide), hcome]

theorem waittick_abs_ahead (hD : i.xD = 0) (hB : i.xB = 0) (ho : i.opt = true) (hi : i.imm = 0)
    (hahead : (s.planOn (s.thn i.th Lamp.PLAN) && decide (((s.gget i.th i.xA).toNat : Int) ≤ s.rd (U.plan (s.thn i.th Lamp.PLAN)) Plan.TICK)) = false) :
    Waits i s (.waittick i) thTickWait ∧ ThreadShows i s (.waittick i) Lamp.waitVal (s.gget i.th i.xA).toNat := by
  obtain ⟨hw, hshow⟩ := waittick_waits h hp hx hri hc hD hB (by simp [ho]) (fun _ => hi)
    (by simp only [judgeWaittick, ho, if_true, facing_tickCome, facing_gget_any, facing_thn .ends (g := Lamp.PLAN) (by decide) (by decide), hahead,
          Bool.false_eq_true, if_false]; rfl)
    (beginWait_waitAct 5 (s.gget i.th i.xA).toNat h.1 (by decide))
  exact ⟨hw, hshow Lamp.waitVal _ (by decide) (wait_upd _ _ _ _ _ h.1 (by decide)).2.1⟩

/-! ### `waittime`, `waitcapt` -/

theorem waittime_waits (ho : i.opt = false) (hD : i.xD = 0) (hi : i.imm = 0) (hsec : (s.gget i.th i.xA).toNat < 2 ^ 48)
    (hns : (s.gget i.th i.xB).toNat < 1000000000) (hv : (judgeWaittime i (s.facing i .ends)).verdict = .act e)
    (he : WaitAct i.th (s.facing i .ends) e st) :
    Waits i s (.waittime i) st ∧ ∀ (g : Field) (v : Int), g.pos ≠ Lamp.LAST_CODE.pos → e.rd (U.thread i.th) g = v → ThreadShows i s (.waittime i) g v := by
  refine waits_of_act h hp hx.params rfl hv rfl rfl ?_ (salvoChecks_outside s i _ hp) he
  have hfmt : fmtX i false false false true true false false = (.format, false) :=
    fmtX_of_unused_zero hx (fun _ => hri) (fun _ => ho) (fun _ => hD) nofun nofun (fun _ => hc) (fun _ => hi)
  simp only [judgeWaittime, hfmt, facing_no_errand s i .ends hp, facing_gget_any, decide_eq_false (Nat.not_le.mpr hsec),
    decide_eq_false (Nat.not_le.mpr hns)]
  simp

theorem waittime_come (ho : i.opt = false) (hD : i.xD = 0) (hi : i.imm = 0) (hsec : (s.gget i.th i.xA).toNat < 2 ^ 48)
    (hns : (s.gget i.th i.xB).toNat < 1000000000)
    (hcome : ((s.gget i.th i.xA).toNat % 2 ^ 48) * Config.second + (s.gget i.th i.xB).toNat * Config.ns ≤ (s.after i.dt).now) :
    Waits i s (.waittime i) thRunning := by
  refine (waittime_waits h hp hx hri hc ho hD hi hsec hns ?_ (discardSalvo_waitAct h.1 (facing_running s i .ends h))).1
  simp only [judgeWaittime, facing_gget_any, now_facing]
  rw [if_pos (by exact_mod_cast hcome)]

theorem waittime_ahead (ho : i.opt = false) (hD : i.xD = 0) (hi : i.imm = 0) (hsec : (s.gget i.th i.xA).toNat < 2 ^ 48)
    (hns : (s.gget i.th i.xB).toNat < 1000000000)
    (hahead : (s.after i.dt).now < ((s.gget i.th i.xA).toNat % 2 ^ 48) * Config.second + (s.gget i.th i.xB).toNat * Config.ns) :
    Waits i s (.waittime i) thTickWait ∧ ThreadShows i s (.waittime i) Lamp.waitVal
      (((s.gget i.th i.xA).toNat % 2 ^ 48) * Config.second + (s.gget i.th i.xB).toNat * Config.ns : Nat) := by
  obtain ⟨hw, hshow⟩ := waittime_waits h hp hx hri hc ho hD hi hsec hns
    (by simp only [judgeWaittime, facing_gget_any, now_facing]; rw [if_neg (by omega)])
    (beginWait_waitAct 3 _ h.1 (by decide))
  exact ⟨hw, hshow Lamp.waitVal _ (by decide) (wait_upd _ _ _ _ _ h.1 (by decide)).2.1⟩

theorem waitcapt_waits (ho : i.opt = false) (hA : i.xA = 0) (hB : i.xB = 0) (himm : i.imm ≤ 3) :
    Waits i s (.waitcapt i) thEventWait ∧ ThreadShows i s (.waitcapt i) Lamp.waitVal i.imm ∧ ThreadShows i s (.waitcapt i) Lamp.waitReg i.xD ∧
      ThreadShows i s (.waitcapt i) Lamp.waitSeq (s.rd (U.capt i.imm) Capt.WRITE_SEQ) := by
  let noted : List (Field × Int) := [(Lamp.waitReg, i.xD), (Lamp.waitSeq, (s.facing i .ends).rd (U.capt i.imm) Capt.WRITE_SEQ)]
  have hnd : (noted.map fun x => x.1.pos).Nodup := by simp [noted, Lamp.waitReg, Lamp.waitSeq]
  have he : WaitAct i.th (s.facing i .ends) (((s.facing i .ends).beginWait i.th thEventWait 4 i.imm).wrs (U.thread i.th) noted) thEventWait :=
    (beginWait_waitAct 4 i.imm h.1 (by decide)).wrs noted (by simp [noted, Lamp.waitReg, Lamp.waitSeq, Lamp.PC, Lamp.past, Lamp.IN_ERRAND, Lamp.STATE])
  have hfmt : fmtX i false false true false false false true = (.format, false) :=
    fmtX_of_unused_zero hx (fun _ => hri) (fun _ => ho) nofun (fun _ => hA) (fun _ => hB) (fun _ => hc) nofun
  obtain ⟨hw, hshow⟩ := waits_of_act (c := .waitcapt i) (f := judgeWaitcapt i) h hp hx.params rfl rfl rfl rfl
    (by simp [judgeWaitcapt, hfmt, facing_no_errand s i .ends hp, himm]) (salvoChecks_outside s i _ hp) he
  refine ⟨hw, hshow Lamp.waitVal _ (by decide) ?_, hshow Lamp.waitReg _ (by decide) ?_, hshow Lamp.waitSeq _ (by decide) ?_⟩
  · exact (State.wrs_ne _ _ _ _ _ (by simp [Lamp.waitReg, Lamp.waitSeq, Lamp.waitVal])).trans (wait_upd _ _ _ _ _ h.1 (by decide)).2.1
  · exact wrs_at _ _ noted Lamp.waitReg i.xD (by simp [noted]) hnd
  · rw [wrs_at _ _ noted Lamp.waitSeq _ (List.mem_cons_of_mem _ (List.mem_singleton_self _)) hnd,
      State.facing_rd s i .ends _ _ (.inr (by decide))]
    rfl

/-! ### `target`, `sync` -/

theorem target_sets (hD : i.xD = 0) (hB : i.xB = 0) (hi : i.imm = 0) (hsalvo : s.noSalvo i.th) (ho : i.opt = false) :
    Waits i s (.target i) thRunning ∧ ThreadShows i s (.target i) Lamp.TARGET (s.gget i.th i.xA).toNat ∧ ThreadShows i s (.target i) Lamp.tMode 1 := by
  let set : List (Field × Int) :=
    [(Lamp.tMode, 1), (Lamp.tPlan, (s.facing i .other).th i.th Lamp.PLAN), (Lamp.TARGET, ((s.facing i .other).gget i.th i.xA).toNat)]
  have hnd : (set.map fun x => x.1.pos).Nodup := by simp [set, Lamp.tMode, Lamp.tPlan, Lamp.TARGET]
  have hnorm : ∀ w : Word, Lamp.TARGET.norm (w.toNat : Int) = w.toNat := fun w => by
    have := w.isLt
    rw [show Lamp.TARGET.norm (w.toNat : Int) = (w.toNat : Int) % 2 ^ 64 from rfl]
    omega
  obtain ⟨hw, hshow⟩ := waits_of_act (c := .target i) (f := judgeTarget i) h hp hx.params rfl (by simp only [judgeTarget, ho, Bool.false_eq_true, if_false]; rfl) rfl rfl
    (target_checks hp hx hri hc hD hB hi (by simp [ho])) (no_salvoChecks hsalvo)
    (wrs_waitAct h set hsalvo (by simp [set, Lamp.tMode, Lamp.tPlan, Lamp.TARGET, Lamp.PC, Lamp.past, Lamp.IN_ERRAND, Lamp.STATE]))
  refine ⟨hw, hshow Lamp.TARGET _ (by decide) ?_, hshow Lamp.tMode _ (by decide) ?_⟩
  · rw [wrs_at _ _ set Lamp.TARGET ((s.facing i .other).gget i.th i.xA).toNat (by simp [set]) hnd, hnorm, facing_gget_any]
  · exact wrs_at _ _ set Lamp.tMode 1 (by simp [set]) hnd

theorem target_clears (hD : i.xD = 0) (hB : i.xB = 0) (hi : i.imm = 0) (hsalvo : s.noSalvo i.th) (ho : i.opt = true) (hA : i.xA = 0) :
    Waits i s (.target i) thRunning ∧ ThreadShows i s (.target i) Lamp.TARGET 0 ∧ ThreadShows i s (.target i) Lamp.tMode 0 := by
  let cleared : List (Field × Int) := [(Lamp.tMode, 0), (Lamp.TARGET, 0)]
  have hnd : (cleared.map fun x => x.1.pos).Nodup := by simp [cleared, Lamp.tMode, Lamp.TARGET]
  obtain ⟨hw, hshow⟩ := waits_of_act (c := .target i) (f := judgeTarget i) h hp hx.params rfl (by simp only [judgeTarget, ho, if_true]; rfl) rfl rfl
    (target_checks hp hx hri hc hD hB hi fun _ => hA) (no_salvoChecks hsalvo)
    (wrs_waitAct h cleared hsalvo (by simp [cleared, Lamp.tMode, Lamp.TARGET, Lamp.PC, Lamp.past, Lamp.IN_ERRAND, Lamp.STATE]))
  exact ⟨hw, hshow Lamp.TARGET _ (by decide) (wrs_at _ _ cleared Lamp.TARGET 0 (by simp [cleared]) hnd),
    hshow Lamp.tMode _ (by decide) (wrs_at _ _ cleared Lamp.tMode 0 (by simp [cleared]) hnd)⟩

theorem sync_done (ho : i.opt = false) (hD : i.xD = 0) (hA : i.xA = 0) (hB : i.xB = 0) (hi : i.imm = 0) (hsalvo : s.noSalvo i.th)
    (hbg : (s.bgOf i.th).isEmpty = true) : Waits i s (.sync i) thRunning := by
  have hbg : ((s.facing i .other).bgOf i.th).isEmpty = true := (congrArg List.isEmpty (facing_bgOf .other i.th)).trans hbg
  exact (waits_of_act (c := .sync i) (f := judgeSync i) h hp hx.params rfl (by simp only [judgeSync, hbg, if_true]; rfl) rfl rfl
    (sync_checks hx hri hc ho hD hA hB hi) (no_salvoChecks hsalvo) (wrs_waitAct h [] hsalvo (by simp))).1

theorem sync_waits (ho : i.opt = false) (hD : i.xD = 0) (hA : i.xA = 0) (hB : i.xB = 0) (hi : i.imm = 0) (hsalvo : s.noSalvo i.th)
    (hbg : (s.bgOf i.th).isEmpty = false) : Waits i s (.sync i) thEventWait := by
  have hbg : ((s.facing i .other).bgOf i.th).isEmpty = false := (congrArg List.isEmpty (facing_bgOf .other i.th)).trans hbg
  let waiting : List (Field × Int) := [(Lamp.STATE, thEventWait), (Lamp.waitKind, 6)]
  let e := (s.facing i .other).wrs (U.thread i.th) waiting
  have hv : (judgeSync i (s.facing i .other)).verdict = .start e 0x0C 0 0 [] 0 := by
    simp only [judgeSync, hbg, Bool.false_eq_true, if_false]
    rfl
  have hpass : s.passes i .other (judgeSync i) :=
    State.passes_of s i .other (judgeSync i) h (by simp [hv]) (sync_checks hx hri hc ho hD hA hB hi) (no_salvoChecks hsalvo)
  have hst : e.th i.th Lamp.STATE = thEventWait := wrs_at _ _ waiting Lamp.STATE thEventWait (by simp [waiting]) (by decide)
  have hpc : e.rd (U.thread i.th) Lamp.PC = (s.facing i .other).rd (U.thread i.th) Lamp.PC := State.wrs_ne _ _ _ waiting _ (by decide)
  have hgo : e.goesOn i.th := .inl (by rw [hst]; decide)
  obtain ⟨hp0, hsame, -⟩ := State.issue_start s i .other (judgeSync i) e _ _ _ _ _ hpass hv
  obtain ⟨hreg, hsalvos⟩ := issue_start_thread s i .other (judgeSync i) e _ _ _ _ _ hpass hv rfl hgo
  refine ⟨_, exec_judged _ i .other (judgeSync i) s rfl, hp0, ?_, ?_, (hreg Lamp.STATE (by decide)).trans hst,
    State.sameUnits_trans hsame (State.sameUnits_trans (State.wrs_same _ _ _ _ (.inl rfl)) (State.facing_same s i .other))⟩
  · have := facing_noSalvo s i .other i.th hsalvo
    unfold State.noSalvo at *
    rw [hsalvos, (wrs_upd _ _ _).1, this]
  · have := (pc_next s i .other hp hx.params).1
    unfold State.thn State.rn at *
    rw [hreg Lamp.PC (by decide), hpc, this]

end
end

/-- Settles O17, one instruction at a time. -/
theorem waitsInPrograms : Obligations.WaitsInPrograms := by
  intro i s h hp hpar hf hri hg hres hc
  have hx : PlainX i := ⟨hpar, hres, hf, hg⟩
  refine ⟨fun hD hB => ⟨waittick_zero h hp hx hri hc hD hB, waittick_ticks h hp hx hri hc hD hB,
      waittick_abs_come h hp hx hri hc hD hB, waittick_abs_ahead h hp hx hri hc hD hB⟩,
    fun ho hD hi hsec hns => ⟨waittime_come h hp hx hri hc ho hD hi hsec hns, waittime_ahead h hp hx hri hc ho hD hi hsec hns⟩,
    waitcapt_waits h hp hx hri hc,
    fun hD hB hi hsalvo => ⟨target_sets h hp hx hri hc hD hB hi hsalvo, target_clears h hp hx hri hc hD hB hi hsalvo, fun ho hA => ?_⟩⟩
  cases hbg : (s.bgOf i.th).isEmpty
  · exact sync_waits h hp hx hri hc ho hD hA hB hi hsalvo hbg
  · exact sync_done h hp hx hri hc ho hD hA hB hi hsalvo hbg

end Sys2Proof.Laws
end

section
/-!
The brackets of a salvo (R99, R106 to R108): what `salvo` opens, and what `endsalvo` stages of the salvo it closes.
-/
namespace Sys2Proof.Laws
open Sys2Proof Sys2Proof.Machine

section
variable {i : Issue} {s : State}

/-- `salvo` opens a salvo without members, strict under its flag. -/
theorem salvo_opens (h : s.mayIssue i 2) (hp : s.inProgram i.th) (hsalvo : s.noSalvo i.th) (hx : ControlX i) (hD : i.xD = 0) (hi : i.imm = 0) :
    ∃ t, exec (.salvo i) s = .next t ∧ t.pget i.th 0 = true ∧ t.th i.th Lamp.SALVO = (if i.opt then 2 else 1) ∧
      (∃ o ∈ t.salvos, o.th = i.th ∧ o.strict = i.opt ∧ o.members = [] ∧ o.failed = none) ∧ State.sameUnits i.th t (s.after i.dt) := by
  let v := s.facing i .bracket
  let o : OpenSalvo := ⟨i.th, (s.after i.dt).nextId, i.opt, [], none⟩
  let y := State.setTh { v with salvos := v.salvos ++ [o] } i.th Lamp.SALVO (if i.opt then 2 else 1)
  have hpass : s.passes i .bracket (judgeSalvo i) := by
    refine State.passes_of s i .bracket (judgeSalvo i) h (by simp [judgeSalvo]) ?_ (no_salvoChecks hsalvo)
    have hno : v.salvos.any (·.th == i.th) = false := facing_noSalvo s i .bracket i.th hsalvo
    simp only [judgeSalvo, fmtX_of_control (opt := true) hx nofun (fun _ => hD) (fun _ => hi), show s.facing i .bracket = v from rfl, hno]
    simp
  have hreg : ∀ g : Field, g.pos ≠ Lamp.SALVO.pos → y.rd (U.thread i.th) g = v.rd (U.thread i.th) g := fun g hg => State.rd_wr_ne _ _ _ _ _ _ (.inr hg)
  have hgo : y.goesOn i.th := by
    refine goesOn_in_ledger ?_ ?_
    · have := (pc_next s i .bracket hp hx.params).2
      unfold State.rb at *
      rw [hreg Lamp.past (by decide), this]
    · have := facing_not_in_errand s i .bracket hp
      unfold State.rb at *
      rw [hreg Lamp.IN_ERRAND (by decide), this]
  have hgo : (y.outcome i.th 0 true).goesOn i.th := State.goesOn_of _ y i.th rfl (fun g hg => State.outcome_thread y _ _ _ g hg _) hgo
  have heq : s.issue i .bracket (judgeSalvo i) = y.outcome i.th 0 true := by
    rw [State.issue_passes s i .bracket (judgeSalvo i) hpass (by simp [judgeSalvo])]
    exact State.settle_id _ _ hgo
  refine ⟨_, (exec_judged _ i .bracket (judgeSalvo i) s rfl).trans (congrArg Host.Outcome.next heq), State.pget_outcome _ _ _ _, ?_,
    ⟨o, List.mem_append_right v.salvos (List.mem_singleton_self o), rfl, rfl, rfl, rfl⟩, ?_⟩
  · refine (State.outcome_thread y i.th 0 true Lamp.SALVO (by decide) _).trans ((State.rd_wr_same _ _ _ _).trans ?_)
    cases i.opt <;> decide
  · refine State.sameUnits_trans (State.outcome_same _ _ _ _) (State.sameUnits_trans (State.setTh_same _ _ _ _) ?_)
    exact State.facing_same s i .bracket

end

/-! ### What closing a salvo stages -/

/-- The members of a salvo and its two brackets staged, `v` being the state with the salvo closed. -/
def stagedSalvo (v : State) (t pid : Nat) (o : OpenSalvo) : State :=
  (o.members.foldl (fun a m => if m.2.isEmpty then a else a.stageAll t m.1 (some o.pid) o.strict v.now m.2)
    (v.stageOne t o.pid (some o.pid) o.strict v.now (bracket (v.salvoPlan t)))).stageOne t pid (some o.pid) o.strict v.now (bracket (v.salvoPlan t))

section
variable {v : State} {t pid : Nat} {o : OpenSalvo}

theorem stagedSalvo_noSalvo (hv : v.noSalvo t) : (stagedSalvo v t pid o).noSalvo t := by
  have : (stagedSalvo v t pid o).salvos = v.salvos := (stageOne_salvos ..).trans ((members_salvos ..).trans (stageOne_salvos ..))
  unfold State.noSalvo at *
  rw [this, hv]

theorem stagedSalvo_thread (ht : t < 64) {g : Field} (h200 : g.pos ≠ 200) (h202 : g.pos ≠ 202) :
    (stagedSalvo v t pid o).rd (U.thread t) g = v.rd (U.thread t) g :=
  (State.stageOne_thread _ _ _ _ _ _ _ _ ht h200 h202).trans
    ((members_thread _ _ _ _ _ _ _ ht h200 h202).trans (State.stageOne_thread _ _ _ _ _ _ _ _ ht h200 h202))

theorem tMode_eq_of_rd {a b : State} (h : a.rd (U.thread t) Lamp.tMode = b.rd (U.thread t) Lamp.tMode) : a.thn t Lamp.tMode = b.thn t Lamp.tMode :=
  congrArg Int.toNat h

/-- Outside STROBE the members and both brackets are staged, and what was staged stays. -/
theorem stagedSalvo_stages (ht : t < 64) (hmode : v.thn t Lamp.tMode ≠ 2) :
    (∀ p ∈ o.members, ∀ m ∈ p.2, (stagedSalvo v t pid o).stagedIn t p.1 (some o.pid) o.strict false m) ∧
      (stagedSalvo v t pid o).stagedIn t o.pid (some o.pid) o.strict false (bracket (v.salvoPlan t)) ∧
      (stagedSalvo v t pid o).stagedIn t pid (some o.pid) o.strict false (bracket (v.salvoPlan t)) ∧
      ∀ e ∈ v.staged, e ∈ (stagedSalvo v t pid o).staged := by
  have hfree : (v.thn t Lamp.tMode == 2) = false := beq_eq_false_iff_ne.mpr hmode
  obtain ⟨hopen, hkeep1⟩ := State.stageOne_stagedIn v t o.pid (some o.pid) o.strict v.now (bracket (v.salvoPlan t))
  have hmode2 := tMode_eq_of_rd (State.stageOne_thread v t o.pid (some o.pid) o.strict v.now (bracket (v.salvoPlan t)) Lamp.tMode ht (by decide) (by decide))
  obtain ⟨hmembers, hkeep2, hmode3⟩ := members_fold t (some o.pid) o.strict v.now ht o.members _ (hmode2.trans_ne hmode)
  obtain ⟨hclose, hkeep3⟩ := State.stageOne_stagedIn _ t pid (some o.pid) o.strict v.now (bracket (v.salvoPlan t))
  have hkeep3 := hkeep3 (beq_eq_false_iff_ne.mpr hmode3)
  rw [hfree] at hopen
  rw [beq_eq_false_iff_ne.mpr hmode3] at hclose
  exact ⟨fun p hpm m hm => stagedIn_mono _ _ _ _ _ _ _ m hkeep3 (hmembers p hpm m hm),
    stagedIn_mono _ _ _ _ _ _ _ _ hkeep3 (stagedIn_mono _ _ _ _ _ _ _ _ hkeep2 hopen), hclose,
    fun e he => hkeep3 e (hkeep2 e (hkeep1 hfree e he))⟩

/-- Under STROBE the last effect of the salvo is armed. -/
theorem stagedSalvo_arms {p : Nat} {ms : List Member} {m : Member} (ht : t < 64) (hmode : v.thn t Lamp.tMode = 2)
    (hp : o.members.getLast? = some (p, ms)) (hm : ms.getLast? = some m) : (stagedSalvo v t pid o).stagedIn t p (some o.pid) o.strict true m := by
  obtain ⟨l, hl⟩ := List.getLast?_eq_some_iff.mp hp
  have hne : ms.isEmpty = false := by
    cases ms
    · cases hm
    · rfl
  unfold stagedSalvo
  rw [hl, List.foldl_append, List.foldl_cons, List.foldl_nil, hne, if_neg Bool.false_ne_true]
  refine bracket_keeps _ _ _ _ _ _ _ _ _ (stageAll_last _ _ _ _ _ _ _ _ ht ?_ hm)
  exact (tMode_eq_of_rd ((members_thread _ _ _ _ _ _ _ ht (by decide) (by decide)).trans
    (State.stageOne_thread _ _ _ _ _ _ _ _ ht (by decide) (by decide)))).trans hmode

end

/-! ### The ways a salvo closes -/

section
variable {x : State} {t pid : Nat} {o : OpenSalvo}

/-- The salvo's effects would miss the curfew of their tick. -/
def closesLate (v : State) (t : Nat) : Bool := v.wouldBeLate t v.now (bracket (v.salvoPlan t))

theorem closeSalvo_stages (ho : x.salvos.find? (·.th == t) = some o) (hon : (x.shutSalvo t).planOn ((x.shutSalvo t).salvoPlan t) = true)
    (hok : o.strict = false ∨ (o.failed = none ∧ closesLate (x.shutSalvo t) t = false)) :
    x.closeSalvo t pid = (if closesLate (x.shutSalvo t) t then Code.late.num else Code.done.num, stagedSalvo (x.shutSalvo t) t pid o) := by
  unfold closesLate State.shutSalvo at *
  simp only [State.closeSalvo, ho, hon]
  rcases hok with hs | ⟨hf, hl⟩
  · simp only [hs, stagedSalvo]
  · cases hs : o.strict <;> simp only [hf, hl, hs, stagedSalvo]

theorem closeSalvo_member_failed {cp c : Nat} (ho : x.salvos.find? (·.th == t) = some o) (hs : o.strict = true) (hf : o.failed = some (cp, c)) :
    x.closeSalvo t pid = (c, (x.shutSalvo t).dropSalvo (o.pid :: o.members.map (·.1) ++ [pid]) o.pid cp c) := by
  simp only [State.closeSalvo, ho, hs, hf, State.shutSalvo]

theorem closeSalvo_late (ho : x.salvos.find? (·.th == t) = some o) (hs : o.strict = true) (hf : o.failed = none)
    (hon : (x.shutSalvo t).planOn ((x.shutSalvo t).salvoPlan t) = true) (hl : closesLate (x.shutSalvo t) t = true) :
    x.closeSalvo t pid = (Code.late.num, (x.shutSalvo t).dropSalvo (o.pid :: o.members.map (·.1) ++ [pid]) o.pid pid Code.late.num) := by
  unfold closesLate State.shutSalvo at *
  simp only [State.closeSalvo, ho, hs, hf, hon, hl]

/-- A salvo whose reference plan is OFF is dropped with NOUNIT. -/
theorem closeSalvo_planOff (ho : x.salvos.find? (·.th == t) = some o) (hoff : (x.shutSalvo t).planOn ((x.shutSalvo t).salvoPlan t) = false)
    (hok : o.strict = false ∨ o.failed = none) : ∃ y, x.closeSalvo t pid = (Code.nounit.num, y) ∧ y.salvos = (x.shutSalvo t).salvos ∧
      y.staged = (x.shutSalvo t).staged ∧ ∀ n < 64, ∀ g, y.rd (U.thread n) g = (x.shutSalvo t).rd (U.thread n) g := by
  unfold State.shutSalvo at *
  cases hs : o.strict
  · simp only [State.closeSalvo, ho, hs, hoff]
    exact ⟨_, rfl, ends_upd _ _ _⟩
  · obtain hf := hok.resolve_left (by simp [hs])
    simp only [State.closeSalvo, ho, hs, hf, hoff]
    exact ⟨_, rfl, dropSalvo_upd _ _ _ _ _⟩

end

section
variable {i : Issue} {s : State} {o : OpenSalvo}

theorem shutSalvo_noSalvo (x : State) (t : Nat) : (x.shutSalvo t).noSalvo t := filter_noSalvo x.salvos t

theorem shutSalvo_facing_staged (use : Use) (t : Nat) : ((s.facing i use).shutSalvo t).staged = s.staged := by
  obtain ⟨-, -, -, -, -, -, -, hstaged, -⟩ := State.facing_same s i use
  exact hstaged

/-- `endsalvo` that passes ends with the code of the salvo's closing. -/
def EndsSalvo (i : Issue) (s : State) (good : Bool) (code : Nat) (P : State → Prop) : Prop :=
  ∃ t, exec (.endsalvo i) s = .next t ∧ t.pget i.th 0 = good ∧
    (((s.facing i .bracket).shutSalvo i.th).rb (U.thread i.th) Lamp.past = false → t.th i.th Lamp.LAST_CODE = code) ∧ t.noSalvo i.th ∧ P t

/-- A salvo that is dropped stages nothing. -/
theorem endsSalvo_of_dropped (h : s.passes i .bracket (judgeEndsalvo i)) {code : Nat} {y : State} (hlt : code < 16)
    (hc : (s.facing i .bracket).closeSalvo i.th s.nextId = (code, y)) (hsalvos : y.salvos = ((s.facing i .bracket).shutSalvo i.th).salvos)
    (hstaged : y.staged = ((s.facing i .bracket).shutSalvo i.th).staged)
    (hreg : ∀ n < 64, ∀ g, y.rd (U.thread n) g = ((s.facing i .bracket).shutSalvo i.th).rd (U.thread n) g) :
    EndsSalvo i s (code == 0 || code == 2) code fun t => t.staged = s.staged := by
  refine endsalvo_of i s h code y _ hc ?_ (hreg _ h.1 _) hlt fun t ht => ht.trans (hstaged.trans (shutSalvo_facing_staged .bracket i.th))
  have := shutSalvo_noSalvo (s.facing i .bracket) i.th
  unfold State.noSalvo at *
  rw [hsalvos, this]

theorem endsSalvo_staged (h : s.passes i .bracket (judgeEndsalvo i)) (ho : (s.facing i .bracket).salvos.find? (·.th == i.th) = some o)
    (hon : ((s.facing i .bracket).shutSalvo i.th).planOn (((s.facing i .bracket).shutSalvo i.th).salvoPlan i.th) = true)
    (hok : o.strict = false ∨ (o.failed = none ∧ closesLate ((s.facing i .bracket).shutSalvo i.th) i.th = false)) (P : State → Prop)
    (hP : ∀ t : State, t.staged = (stagedSalvo ((s.facing i .bracket).shutSalvo i.th) i.th s.nextId o).staged → P t) :
    EndsSalvo i s true (if closesLate ((s.facing i .bracket).shutSalvo i.th) i.th then Code.late.num else Code.done.num) P := by
  have hend := endsalvo_of i s h _ _ P (closeSalvo_stages ho hon hok) (stagedSalvo_noSalvo (shutSalvo_noSalvo _ _))
    (stagedSalvo_thread h.1 (by decide) (by decide)) (by split <;> decide) hP
  have hgood : ((if closesLate ((s.facing i .bracket).shutSalvo i.th) i.th then Code.late.num else Code.done.num) == 0 ||
      (if closesLate ((s.facing i .bracket).shutSalvo i.th) i.th then Code.late.num else Code.done.num) == 2) = true := by split <;> rfl
  rwa [hgood] at hend

end

theorem num_of_failed {k : Code} (hdone : k ≠ .done) (hlate : k ≠ .late) : (k.num == 0 || k.num == 2) = false := by
  revert hdone hlate
  cases k <;> decide

/-- Settles O18: the ways a salvo closes, each by its own lemma. -/
theorem salvoBrackets : Obligations.SalvoBrackets := by
  refine ⟨fun i s h hp hsalvo hpar hf hri hg hres hD hA hB hc hi => salvo_opens h hp hsalvo ⟨⟨hpar, hres, hf, hg⟩, hri, hA, hB, hc⟩ hD hi, ?_⟩
  intro i s o h ho
  have ho : (s.facing i .bracket).salvos.find? (·.th == i.th) = some o := by rw [State.facing_salvos]; exact ho
  refine ⟨fun hon hok => ?_, fun cp k hs hf hdone hlate => ?_, fun hs hf hon hl => ?_, fun hoff hok => ?_⟩
  · refine endsSalvo_staged h ho hon hok _ fun t ht => ⟨fun hmode => ?_, fun hmode p ms m hp hm => ?_⟩
    · obtain ⟨hmembers, hopen, hclose, hkeep⟩ := stagedSalvo_stages (pid := s.nextId) (o := o) h.1 hmode
      have hmono : ∀ e ∈ (stagedSalvo ((s.facing i .bracket).shutSalvo i.th) i.th s.nextId o).staged, e ∈ t.staged := fun e he => ht ▸ he
      exact ⟨fun p hp m hm => stagedIn_mono _ _ _ _ _ _ _ m hmono (hmembers p hp m hm), stagedIn_mono _ _ _ _ _ _ _ _ hmono hopen,
        stagedIn_mono _ _ _ _ _ _ _ _ hmono hclose, fun e he => hmono e (hkeep e ((shutSalvo_facing_staged .bracket i.th).symm ▸ he))⟩
    · exact stagedIn_mono _ _ _ _ _ _ _ m (fun e he => ht ▸ he) (stagedSalvo_arms (pid := s.nextId) h.1 hmode hp hm)
  · obtain ⟨hsalvos, hstaged, hreg⟩ := dropSalvo_upd (o.pid :: o.members.map (·.1) ++ [s.nextId]) ((s.facing i .bracket).shutSalvo i.th) o.pid cp k.num
    have hend := endsSalvo_of_dropped h (by cases k <;> decide) (closeSalvo_member_failed ho hs hf) hsalvos hstaged hreg
    rwa [num_of_failed hdone hlate] at hend
  · obtain ⟨hsalvos, hstaged, hreg⟩ := dropSalvo_upd (o.pid :: o.members.map (·.1) ++ [s.nextId]) ((s.facing i .bracket).shutSalvo i.th) o.pid
      s.nextId Code.late.num
    exact endsSalvo_of_dropped h (by decide) (closeSalvo_late ho hs hf hon hl) hsalvos hstaged hreg
  · obtain ⟨y, hy, hsalvos, hstaged, hreg⟩ := closeSalvo_planOff (pid := s.nextId) ho hoff hok
    exact endsSalvo_of_dropped h (by decide) hy hsalvos hstaged hreg

end Sys2Proof.Laws
end

section
/-!
The routes: `take`, `taker` and `btake` stage a selection per destination (O19).
-/
namespace Sys2Proof.Laws
open Sys2Proof Sys2Proof.Machine

/-- The destinations that `taker` counts from its first one are all Cells, once its RANGE check passed. -/
theorem taker_dests_below {i : Issue} {s : State} (h : s.passes i (.ticked 0x21) (judgeTaker i)) :
    ∀ n < i.rCount, (takeOps (s.facing i (.ticked 0x21)) i).dest % 4096 + n < 2688 := by
  have hr := checks_hold h (.range, _) (List.mem_append_left _ (List.mem_cons_of_mem _ List.mem_cons_self))
  simp only [Bool.or_eq_false_iff, decide_eq_false_iff_not] at hr
  omega

theorem take_staged (i : Issue) (s : State) (ds : List Nat) (h : s.passes i (.ticked 0x20) (judgeTake i))
    (hds : (takeDests i (takeOps (s.facing i (.ticked 0x20)) i).dest).1 = some ds) (hlt : ∀ d ∈ ds, d < 2688) :
    let v := s.facing i (.ticked 0x20)
    let o := takeOps v i
    s.stages (.take i) i (.ticked 0x20) (ds.map fun d => takeMember v d (takeDests i o.dest).2 o.source o.stream) := by
  refine stages_of _ i _ s _ _ rfl h ?_
  simp only [judgeTake, hds, Option.getD_some, filter_below ds hlt]

theorem taker_staged (i : Issue) (s : State) (h : s.passes i (.ticked 0x21) (judgeTaker i)) :
    let v := s.facing i (.ticked 0x21)
    let o := takeOps v i
    s.stages (.taker i) i (.ticked 0x21) ((List.range i.rCount).map fun n =>
      takeMember v (o.dest % 4096 + n) (if v.cellMulti (o.dest % 4096 + n) then bitsAt o.dest 14 12 else 0) o.source o.stream) := by
  intro v o
  refine stages_of _ i _ s _ _ rfl h ?_
  have hlt := taker_dests_below h
  have hds : ((List.range i.rCount).map (· + o.dest % 4096)).filter (· < 2688) = (List.range i.rCount).map (o.dest % 4096 + ·) := by
    rw [filter_below]
    · exact List.map_congr_left fun n _ => Nat.add_comm ..
    · simp only [List.mem_map, List.mem_range, forall_exists_index, and_imp]
      rintro d n hn rfl
      exact Nat.add_comm n _ ▸ hlt n hn
  simp only [judgeTaker, v, o] at hds ⊢
  rw [hds, List.map_map]
  rfl

/-- Settles O19: the destinations that pass RANGE are kept whole, and each stages `takeMember` (`btake`: one effect). -/
theorem routesAreStaged : Obligations.RoutesAreStaged := by
  refine ⟨fun i s ds h hds hlt => take_staged i s ds h hds hlt, fun i s h => taker_staged i s h, ?_⟩
  rintro i s ds ss v field h rfl rfl
  exact stages_of _ i _ s _ _ rfl h rfl

end Sys2Proof.Laws
end

section
/-!
The configurations of Cells, Bundles, returns, generators, probes, Kerbs and plans are staged for the elements they replace (O20).
Each judge reads its elements and parameters as options, which have a value once the checks pass.
-/
namespace Sys2Proof.Laws
open Sys2Proof Sys2Proof.Machine

theorem cellcfg_staged (i : Issue) (s : State) (ds : List Nat) (vs : List Int) (h : s.passes i (.ticked 0x51) (judgeCellcfg i))
    (hds : (if i.group then cellsOf i.index else some [i.index]) = some ds) (hlt : ∀ d ∈ ds, d < 2688)
    (hvs : getParams Cell.cellcfgParams false i = some vs) :
    s.stages (.cellcfg i) i (.ticked 0x51) (ds.map fun d => ⟨(s.facing i (.ticked 0x51)).cellN d Cell.PLAN, 1,
      (List.range (if isGranSeat d then 8 else 1)).map fun j => ⟨U.cell d, j⟩, [U.cell d], .cfg 0x51 d 0 vs⟩) :=
  stages_of _ i _ s _ _ rfl h (by simp only [judgeCellcfg, hds, hvs, Option.getD_some, filter_below ds hlt])

/-- A source Bundle stages itself on the plan of the thread. -/
theorem bundlecfg_source_staged (i : Issue) (s : State) (b : Nat) (vs : List Int) (h : s.passes i (.ticked 0x53) (judgeBundlecfg i))
    (hvs : getParams Bundle.bundlecfgParams true i = some vs) (hsub : i.sub = 0) (hb : targets i 0x35 (U.sbundle 0) 512 = some [b]) :
    s.stages (.bundlecfg i) i (.ticked 0x53)
      [⟨(s.facing i (.ticked 0x53)).thn i.th Lamp.PLAN, 2, [⟨U.sbundle b, 0⟩], [], .cfg 0x53 b 0 vs⟩] :=
  stages_of _ i _ s _ _ rfl h (by
    simp only [judgeBundlecfg, hsub, hb, hvs, Option.getD_some, Nat.zero_mod, if_true, List.headD_cons])

/-- A destination Bundle stages the Cells it had and gets, on the plan of the first of them. -/
theorem bundlecfg_dest_staged (i : Issue) (s : State) (b : Nat) (vs : List Int) (h : s.passes i (.ticked 0x53) (judgeBundlecfg i))
    (hvs : getParams Bundle.bundlecfgParams true i = some vs) (hsub : i.sub = 1) (hb : targets i 0x36 (U.dbundle 0) 512 = some [b]) :
    let v := s.facing i (.ticked 0x53)
    let ps := Bundle.bundlecfgParams
    let ms := ([Bundle.M0, Bundle.M1, Bundle.M2, Bundle.M3].map (pn ps vs)).take (pn ps vs Bundle.COUNT)
    let old := v.bundleMembers (U.dbundle b)
    s.stages (.bundlecfg i) i (.ticked 0x53) [⟨v.cellN (ms.headD (old.headD 0)) Cell.PLAN, 2,
      (old ++ ms).eraseDups.map fun d => ⟨U.cell d, 0⟩, [], .cfg 0x53 b 1 vs⟩] :=
  stages_of _ i _ s _ _ rfl h (by
    simp only [judgeBundlecfg, hsub, hb, hvs, Option.getD_some, Nat.reduceMod, Nat.one_ne_zero, if_false, List.headD_cons])

theorem retcfg_staged (i : Issue) (s : State) (rs : List Nat) (h : s.passes i (.ticked 0x56) (judgeRetcfg i))
    (hrs : targets i 0x34 (U.ret 0) 192 = some rs) (hsub : i.sub < 4096) : let v := s.facing i (.ticked 0x56)
    s.stages (.retcfg i) i (.ticked 0x56) (rs.map fun r => ⟨if i.sub < 2688 then v.cellN i.sub Cell.PLAN else v.thn i.th Lamp.PLAN, 0,
      [⟨U.ret r, 0⟩], [U.ret r], .cfg 0x56 r 0 [(i.sub : Int)]⟩) :=
  stages_of _ i _ s _ _ rfl h (by simp only [judgeRetcfg, hrs, Option.getD_some, Nat.mod_eq_of_lt hsub])

theorem signcfg_staged (i : Issue) (s : State) (gs : List Nat) (vs : List Int) (h : s.passes i (.ticked 0x54) (judgeSigncfg i))
    (hgs : targets i 0x33 (U.sign 0) 48 = some gs) (hvs : getParams Sign.signcfgParams false i = some vs) : let v := s.facing i (.ticked 0x54)
    s.stages (.signcfg i) i (.ticked 0x54) (gs.map fun g => ⟨if v.rb (U.sign g) Sign.ENABLE then v.rn (U.sign g) Sign.PLAN
      else pn Sign.signcfgParams vs Sign.PLAN, 0, [⟨U.sign g, 0⟩], [U.sign g], .cfg 0x54 g 0 vs⟩) :=
  stages_of _ i _ s _ _ rfl h (by simp only [judgeSigncfg, hgs, hvs, Option.getD_some])

theorem watchcfg_staged (i : Issue) (s : State) (p : Nat) (vs : List Int) (h : s.passes i (.ticked 0x55) (judgeWatchcfg i))
    (hp : elements i 64 = some [p]) (hvs : getParams Probe.watchcfgParams false i = some vs) :
    s.stages (.watchcfg i) i (.ticked 0x55) [⟨(s.facing i (.ticked 0x55)).cellN (2624 + p) Cell.PLAN, 0, [⟨U.probe p, 0⟩],
      [U.cell (2624 + p)], .cfg 0x55 p 0 vs⟩] :=
  stages_of _ i _ s _ _ rfl h (by simp only [judgeWatchcfg, hp, hvs, Option.getD_some, List.headD_cons])

theorem kerbcfg_staged (i : Issue) (s : State) (ks : List Nat) (vs : List Int) (h : s.passes i (.ticked 0x52) (judgeKerbcfg i))
    (hks : targets i 0x05 (U.kerb 0) 2304 = some ks) (hvs : getParams Kerb.kerbcfgParams false i = some vs) :
    s.stages (.kerbcfg i) i (.ticked 0x52) (ks.map fun k =>
      ⟨(s.facing i (.ticked 0x52)).rn (U.kerb k) Kerb.PLAN, 0, [⟨U.kerb k, 0⟩], [U.kerb k], .cfg 0x52 k 0 vs⟩) :=
  stages_of _ i _ s _ _ rfl h (by simp only [judgeKerbcfg, hks, hvs, Option.getD_some])

section
variable {i : Issue} {s : State} {p : Nat} {vs : List Int}

/-- Where `plancfg` puts the settings: on the plan itself, else on the plan of its thread, else at once. -/
theorem plancfg_verdict (v : State) (hp : targets i 0x32 (U.plan 0) 16 = some [p]) (hvs : getParams Plan.plancfgParams false i = some vs) :
    (judgePlancfg i v).verdict = if v.planOn p then .stage [⟨p, 0, [⟨U.plan p, 0⟩], [], .cfg 0x50 p 0 vs⟩]
      else if v.planOn (v.thn i.th Lamp.PLAN) then .stage [⟨v.thn i.th Lamp.PLAN, 0, [⟨U.plan p, 0⟩], [], .cfg 0x50 p 0 vs⟩]
      else .act (v.commitPlancfg p 0 vs) := by
  simp only [judgePlancfg, hp, hvs, Option.getD_some, List.headD_cons]

theorem plancfg_at_once (h : s.passes i (.ticked 0x50) (judgePlancfg i)) (hp : targets i 0x32 (U.plan 0) 16 = some [p])
    (hvs : getParams Plan.plancfgParams false i = some vs) (hoff : (s.facing i (.ticked 0x50)).planOn p = false)
    (htoff : (s.facing i (.ticked 0x50)).planOn ((s.facing i (.ticked 0x50)).thn i.th Lamp.PLAN) = false) :
    ∃ t, exec (.plancfg i) s = .next t ∧ t.pget i.th 0 = true ∧
      State.sameUnits i.th t ((s.facing i (.ticked 0x50)).commitPlancfg p 0 vs) := by
  have hv := plancfg_verdict (s.facing i (.ticked 0x50)) hp hvs
  simp only [hoff, htoff, Bool.false_eq_true, if_false] at hv
  obtain ⟨hp0, -, hsame⟩ := State.issue_act s i _ _ _ h hv
  exact ⟨_, exec_judged _ i _ _ s rfl, hp0, hsame⟩

end

/-- Settles O20: one staged effect per element replaced, on the plan its kind names; a plan that is OFF, as `plancfg_verdict` splits. -/
theorem routeConfigurationsAreStaged : Obligations.RouteConfigurationsAreStaged := by
  refine ⟨fun i s ds vs => cellcfg_staged i s ds vs, ?_, fun i s rs => retcfg_staged i s rs, fun i s gs vs => signcfg_staged i s gs vs,
    fun i s p vs => watchcfg_staged i s p vs, fun i s ks vs => kerbcfg_staged i s ks vs, ?_⟩
  · exact fun i s b vs h hvs => ⟨bundlecfg_source_staged i s b vs h hvs, bundlecfg_dest_staged i s b vs h hvs⟩
  · intro i s p vs v tp h hp hvs
    refine ⟨fun hon => ?_, fun hoff hon => ?_, fun hoff htoff => plancfg_at_once h hp hvs hoff htoff⟩
    · exact stages_of _ i _ s _ _ rfl h ((plancfg_verdict v hp hvs).trans (by rw [hon]; rfl))
    · exact stages_of _ i _ s _ _ rfl h ((plancfg_verdict v hp hvs).trans (by rw [hoff, hon]; rfl))

end Sys2Proof.Laws
end

section
/-!
The configurations of heads, Granary slots and streams, of the Sheaf and its slots, of the other audio elements, of the flows, the timed
outputs and the pair are staged (O21 to O24): each clause is the judge's verdict with its options and remainders computed.
-/
namespace Sys2Proof.Laws
open Sys2Proof Sys2Proof.Machine

/-- A mask that passes RANGE names a head, so the plan of the first one is what `headcommit` compares the others with. -/
theorem headcommit_names_a_head {i : Issue} {s : State} {hs : List Nat} (h : s.passes i (.ticked 0x42) (judgeHeadcommit i))
    (hm : headMask i = some hs) : hs ≠ [] := by
  have hr := checks_hold h (.range, _) (List.mem_cons_of_mem _ List.mem_cons_self)
  simp only [hm, Option.getD_some, Bool.or_eq_false_iff, List.isEmpty_eq_false_iff] at hr
  exact hr.1

theorem headD_map_of_ne_nil {α β : Type} (f : α → β) (l : List α) (a : α) (b : β) (h : l ≠ []) : (l.map f).headD b = f (l.headD a) := by
  cases l with
  | nil => exact absurd rfl h
  | cons x xs => rfl

/-- Settles O21. -/
theorem pictureConfigurationsAreStaged : Obligations.PictureConfigurationsAreStaged := by
  refine ⟨fun i s hs h hm => stages_of _ i _ s _ _ rfl h ?headcommit,
    fun i s ls vs h hls hvs => stages_of _ i _ s _ _ rfl h ?grancfg,
    fun i s ls vs h hls hsub hvs => stages_of _ i _ s _ _ rfl h ?subcfg⟩
  case headcommit =>
    have hplan := headD_map_of_ne_nil (fun k => (s.facing i (.ticked 0x42)).rn (U.head k) Head.PLAN) hs 0 0 (headcommit_names_a_head h hm)
    simp only [judgeHeadcommit, hm, Option.getD_some]
    rw [hplan]
  case grancfg => simp only [judgeGrancfg, hls, hvs, Option.getD_some]
  case subcfg => simp only [judgeSubcfg, hls, hvs, Option.getD_some, Nat.mod_eq_of_lt hsub]

/-- An index below the number of elements names one element, where the judge refuses a group that is too long. -/
theorem elements_named {i : Issue} {use : Use} {s : State} {f : State → Judged} {n : Nat} {fc : Code × Bool} {g : Nat → Checks}
    (h : s.passes i use f) (hc : (f (s.facing i use)).checks = fc :: eachTarget (elements i n) g) : elements i n = some [i.index] :=
  targets_element i n s fc g (hc ▸ checks_hold h)

theorem elements_named_after_two {i : Issue} {use : Use} {s : State} {f : State → Judged} {n : Nat} {a b : Code × Bool} {g : Nat → Checks}
    (h : s.passes i use f) (hc : (f (s.facing i use)).checks = a :: b :: eachTarget (elements i n) g) : elements i n = some [i.index] :=
  targets_element_append i n [a, b] g fun x hx => checks_hold h x (hc ▸ hx)

/-- The first place without an active entry is the one `sheafadd` finds. -/
theorem sheafadd_finds (v : State) (t sl e : Nat) (he : e < 32) (hfree : entActive (v.entryFor t sl e) = false)
    (hbelow : ∀ k < e, entActive (v.entryFor t sl k) = true) :
    (List.range 32).find? (fun k => !entActive (v.entryFor t sl k)) = some e :=
  find_first_in_range _ 32 e he (by rw [hfree]; rfl) fun k hk => by rw [hbelow k hk]; rfl

/-- Settles O22. -/
theorem mixConfigurationsAreStaged : Obligations.MixConfigurationsAreStaged := by
  refine ⟨fun i s h hsub => stages_of _ i _ s _ _ rfl h ?sheafset,
    fun i s e h ⟨he, hfree, hbelow⟩ => stages_of _ i _ s _ _ rfl h ?sheafadd,
    fun i s h hsub => stages_of _ i _ s _ _ rfl h ?sheafclr,
    fun i s h _ => stages_of _ i _ s _ _ rfl h ?loudreset,
    fun i s vs _ => ⟨fun h hvs => stages_of _ i _ s _ _ rfl h ?slotcfg, fun h hvs => stages_of _ i _ s _ _ rfl h ?limcfg,
      fun h hvs => stages_of _ i _ s _ _ rfl h ?delaycfg, fun h => stages_of _ i _ s _ _ rfl h ?cscfg⟩,
    fun i s vs h _ hvs => stages_of _ i _ s _ _ rfl h ?compcfg⟩
  case sheafset => simp only [judgeSheafset, Nat.mod_eq_of_lt hsub]
  case sheafadd => simp only [judgeSheafadd, sheafadd_finds _ _ _ _ he hfree hbelow, Option.getD_some]
  case sheafclr => simp only [judgeSheafclr, Nat.mod_eq_of_lt hsub]
  case loudreset => simp only [judgeLoudreset, elements_named h rfl, Option.getD_some, List.map_cons, List.map_nil]
  case slotcfg => simp only [judgeSlotcfg, elements_named h rfl, hvs, Option.getD_some, List.map_cons, List.map_nil]
  case limcfg => simp only [judgeLimcfg, elements_named h rfl, hvs, Option.getD_some, List.map_cons, List.map_nil]
  case delaycfg => simp only [judgeDelaycfg, elements_named_after_two h rfl, hvs, Option.getD_some, List.map_cons, List.map_nil]
  case cscfg => simp only [judgeCscfg, elements_named_after_two h rfl, Option.getD_some, List.map_cons, List.map_nil]
  case compcfg => simp only [judgeCompcfg, elements_named h rfl, hvs, Option.getD_some, List.map_cons, List.map_nil]

/-- Settles O23. -/
theorem audioConfigurationsAreStaged : Obligations.AudioConfigurationsAreStaged := by
  refine ⟨fun i s ks vs h hks hvs => stages_of _ i _ s _ _ rfl h ?deembcfg,
    fun i s gs vs h hgs hvs => stages_of _ i _ s _ _ rfl h ?tonecfg,
    fun i s vs h _ hvs => stages_of _ i _ s _ _ rfl h ?afvcfg,
    fun i s ds vs h hds hvs => stages_of _ i _ s _ _ rfl h ?embcfg,
    fun i s ns vs h hns hsub hvs => stages_of _ i _ s _ _ rfl h ?stookcfg,
    fun i s ks h hks => stages_of _ i _ s _ _ rfl h ?asrccfg,
    fun i s ns vs h hns hvs => stages_of _ i _ s _ _ rfl h ?tapcfg⟩
  case deembcfg => simp only [judgeDeembcfg, hks, hvs, Option.getD_some]
  case tonecfg => simp only [judgeTonecfg, hgs, hvs, Option.getD_some]
  case afvcfg => simp only [judgeAfvcfg, elements_named_after_two h rfl, hvs, Option.getD_some, List.map_cons, List.map_nil]
  case embcfg => simp only [judgeEmbcfg, hds, hvs, Option.getD_some]
  case stookcfg => simp only [judgeStookcfg, hns, hvs, Option.getD_some, Nat.mod_eq_of_lt hsub]
  case asrccfg => simp only [judgeAsrccfg, hks, Option.getD_some]
  case tapcfg => simp only [judgeTapcfg, hns, hvs, Option.getD_some]

/-- Settles O24. -/
theorem flowAndTimeConfigurationsAreStaged : Obligations.FlowAndTimeConfigurationsAreStaged := by
  refine ⟨fun i s cs vs h hcs hvs => stages_of _ i _ s _ _ rfl h ?rxflow,
    fun i s cs vs h hcs hvs => stages_of _ i _ s _ _ rfl h ?txflow,
    fun i s os vs h hos hvs => stages_of _ i _ s _ _ rfl h ?fwdcfg,
    fun i s ns h hns => stages_of _ i _ s _ _ rfl h ?ttset,
    fun i s h => stages_of _ i _ s _ _ rfl h rfl⟩
  case rxflow => simp only [judgeRxflow, hcs, hvs, Option.getD_some]
  case txflow => simp only [judgeTxflow, hcs, hvs, Option.getD_some]
  case fwdcfg => simp only [judgeFwdcfg, hos, hvs, Option.getD_some]
  case ttset => simp only [judgeTtset, hns, Option.getD_some]

end Sys2Proof.Laws
end

section
/-!
The settings taken at once (O25, O26): an instruction that writes one list of field values into each element it names.
-/
namespace Sys2Proof.Laws
open Sys2Proof Sys2Proof.Machine

/-- An unsigned field holds a number of its width as it is. -/
theorem norm_natCast {f : Field} {n : Nat} (hs : f.signed = false) (h : n < 2 ^ f.width) : f.norm (n : Int) = n := by
  unfold Field.norm
  have hp : ((2 ^ f.width : Nat) : Int) = 2 ^ f.width := by norm_cast
  split
  · rfl
  · rw [hs, if_neg Bool.false_ne_true, ← hp]
    exact Int.emod_eq_of_lt (by omega) (by omega)

/-- Units below the threads, between them and the Crier, and above the host port. -/
theorem unit_apart {u th : Nat} (h : u < 33792 ∨ (33856 ≤ u ∧ u < 35586) ∨ 35589 ≤ u) (hth : th < 64) :
    u ≠ U.thread th ∧ u ≠ U.crier ∧ u ≠ U.host := by
  simp only [U.thread, U.crier, U.host]
  omega

section
variable (base : Nat → Nat) (l : List (Field × Int)) (ts : List Nat)

/-- The same values written into each of a list of units. -/
def writeEach (s : State) : State := ts.foldl (fun a n => a.wrs (base n) l) s

variable {base l ts}

theorem writeEach_shows (hl : (l.map fun e => e.1.pos).Nodup) {n : Nat} (hn : n ∈ ts) {f : Field} {v : Int} (hm : (f, v) ∈ l) (s : State) :
    (writeEach base l ts s).rd (base n) f = f.norm v := by
  refine fold_mem (fun a => a.rd (base n) f = f.norm v) _ ts s n hn (fun a => wrs_at a _ l f v hm hl) fun a m ha => ?_
  by_cases hu : base n = base m
  · rw [hu, wrs_at a _ l f v hm hl]
  · rw [wrs_unit _ _ _ _ _ hu, ha]

theorem writeEach_ne {u : Nat} {f : Field} (h : ¬ ((∃ n ∈ ts, u = base n) ∧ ∃ e ∈ l, e.1.pos = f.pos)) (s : State) :
    (writeEach base l ts s).rd u f = s.rd u f := by
  induction ts generalizing s with
  | nil => rfl
  | cons m ts ih =>
    refine (ih (fun ⟨⟨n, hn, hu⟩, he⟩ => h ⟨⟨n, List.mem_cons_of_mem _ hn, hu⟩, he⟩) _).trans ?_
    by_cases hu : u = base m
    · exact State.wrs_ne s _ u l f fun e he hp => h ⟨⟨m, List.mem_cons_self, hu⟩, e, he, hp.symm⟩
    · exact wrs_unit s _ u f l hu

theorem writeEach_only (s : State) : ∃ r, writeEach base l ts s = { s with regs := r } :=
  fold_only (fun a n => a.wrs (base n) l) (fun a _ => wrs_only a _ _) ts s

/-- An immediate setting that writes the same values into each unit it names, and what it leaves. -/
theorem wroteEach_of {c : Instr} {i : Issue} {s : State} {f : State → Judged} (hl : (l.map fun e => e.1.pos).Nodup)
    (hc : judged c = some (i, .other, f)) (h : s.passes i .other f)
    (hb : ∀ n ∈ ts, base n ≠ U.thread i.th ∧ base n ≠ U.crier ∧ base n ≠ U.host)
    (hv : (f (s.facing i .other)).verdict = .act (writeEach base l ts (s.facing i .other))) :
    s.does c i fun t => (∀ n ∈ ts, ∀ e ∈ l, t.rd (base n) e.1 = e.1.norm e.2) ∧ State.sameUnits i.th t { s.after i.dt with regs := t.regs } ∧
      ∀ u g, u ≠ U.thread i.th → u ≠ U.crier → u ≠ U.host → ¬ ((∃ n ∈ ts, u = base n) ∧ ∃ e ∈ l, e.1.pos = g.pos) →
        t.rd u g = (s.after i.dt).rd u g := by
  refine does_act c i _ s _ f _ hc h hv fun t ht => ⟨fun n hn e he => ?_, ?_, fun u g h1 h2 h3 h4 => ?_⟩
  · obtain ⟨h1, h2, h3⟩ := hb n hn
    rw [same_rd ht _ _ h1 h2 h3, writeEach_shows hl hn he]
  · obtain ⟨r, hr⟩ := writeEach_only (base := base) (l := l) (ts := ts) (s.facing i .other)
    exact frame_regs ht r _ _ hr (State.facing_same s i .other)
  · rw [same_rd ht u g h1 h2 h3, writeEach_ne h4, facing_unit s i _ u g h1 h2 h3]

end

theorem does_mono {s : State} {c : Instr} {i : Issue} {P Q : State → Prop} (h : s.does c i P) (hPQ : ∀ t, P t → Q t) : s.does c i Q := by
  obtain ⟨t, hexec, hp, hP⟩ := h
  exact ⟨t, hexec, hp, hPQ t hP⟩

/-- What a lock instruction writes into each Cell it names. -/
def lockFields (th target : Nat) : List (Field × Int) := [(Cell.LOCK, target), (Cell.OWNER, th)]

theorem lock_takes {i : Issue} {s : State} {c : Instr} {target : Nat} {ds : List Nat}
    (hc : judged c = some (i, .other, judgeLock i target)) (htarget : target ≤ 2) (h : s.passes i .other (judgeLock i target))
    (hds : (let dest := if i.regImm then ((s.facing i .other).gget i.th (i.dest % 16)).toNat % 2 ^ 16 else i.dest
      if i.group then cellsOf dest else some [dest]) = some ds) (hlt : ∀ d ∈ ds, d < 2688) :
    s.does c i fun t => (∀ d ∈ ds, t.cellN d Cell.LOCK = target ∧ t.cellN d Cell.OWNER = i.th) ∧
      State.sameUnits i.th t { s.after i.dt with regs := t.regs } ∧
      (∀ u f, u ≠ U.thread i.th → u ≠ U.crier → u ≠ U.host → (∀ d ∈ ds, u ≠ U.cell d) ∨ (f.pos ≠ Cell.LOCK.pos ∧ f.pos ≠ Cell.OWNER.pos) →
        t.rd u f = (s.after i.dt).rd u f) := by
  have hapart : ∀ d ∈ ds, U.cell d ≠ U.thread i.th ∧ U.cell d ≠ U.crier ∧ U.cell d ≠ U.host := fun d hd =>
    unit_apart (.inl (by have := hlt d hd; simp only [U.cell]; omega)) h.1
  have hv : (judgeLock i target (s.facing i .other)).verdict = .act (writeEach U.cell (lockFields i.th target) ds (s.facing i .other)) := by
    simp only [judgeLock, hds, Option.getD_some, filter_below ds hlt]
    rfl
  refine does_mono (wroteEach_of (by simp [lockFields, Cell.LOCK, Cell.OWNER]) hc h hapart hv) fun t ⟨hshows, hsame, helse⟩ =>
    ⟨fun d hd => ?_, hsame, fun u f h1 h2 h3 hne => helse u f h1 h2 h3 ?_⟩
  · have hlock := hshows d hd (Cell.LOCK, target) List.mem_cons_self
    have howner := hshows d hd (Cell.OWNER, i.th) (List.mem_cons_of_mem _ List.mem_cons_self)
    rw [norm_natCast rfl (by show target < 4; omega)] at hlock
    rw [norm_natCast rfl h.1] at howner
    exact ⟨by rw [State.cellN, State.rn, hlock, Int.toNat_natCast], by rw [State.cellN, State.rn, howner, Int.toNat_natCast]⟩
  · rintro ⟨⟨d, hd, hu⟩, e, he, hp⟩
    rcases hne with hne | ⟨hlock, howner⟩
    · exact hne d hd hu
    · simp only [lockFields, List.mem_cons, List.not_mem_nil, or_false] at he
      rcases he with rfl | rfl
      · exact hlock hp.symm
      · exact howner hp.symm

/-- Settles O25. -/
theorem locksTaken : Obligations.LocksTaken := by
  rintro i s c target ds hc v dest h hds hlt
  rcases hc with ⟨rfl, rfl⟩ | ⟨rfl, rfl⟩ | ⟨rfl, rfl⟩ <;> exact lock_takes rfl (by decide) h hds hlt

/-- An immediate setting that writes its parameters into units apart from the thread, the Crier and the host port (`writes2_of`). -/
theorem parameters_written {c : Instr} {i : Issue} {s : State} {f : State → Judged} {base : Nat → Nat} {ps : List Param} {vs : List Int}
    {ts : List Nat} {k : Nat} (hd : (ps.map (·.fld.pos)).Nodup) (hc : judged c = some (i, .other, f)) (h : s.passes i .other f)
    (hlt : ∀ n ∈ ts, n < k) (hb : ∀ n < k, base n < 33792 ∨ (33856 ≤ base n ∧ base n < 35586) ∨ 35589 ≤ base n)
    (hv : (f (s.facing i .other)).verdict = .act (ts.foldl (fun a n => a.wrParams (base n) ps vs) (s.facing i .other))) :
    s.does c i fun t => (∀ n ∈ ts, t.shows (base n) ps vs) ∧ State.sameUnits i.th t { s.after i.dt with regs := t.regs } ∧
      ∀ u f, u ≠ U.thread i.th → u ≠ U.crier → u ≠ U.host → ¬ ((∃ n ∈ ts, u = base n) ∧ ∃ p ∈ ps, p.fld.pos = f.pos) →
        t.rd u f = (s.after i.dt).rd u f :=
  writes2_of c i s f base ps vs ts hd hc h (fun n hn => unit_apart (hb n (hlt n hn)) h.1) hv

theorem elements_lt {i : Issue} {n : Nat} {ts : List Nat} (h : elements i n = some ts) : ∀ x ∈ ts, x < n := by
  unfold elements at h
  split at h
  case isTrue hlt =>
    obtain rfl := Option.some.inj h
    simp only [Bool.and_eq_true, decide_eq_true_eq] at hlt
    exact fun x hx => List.mem_singleton.1 hx ▸ hlt.2
  case isFalse => cases h

theorem layers_of_same {th : Nat} {t e : State} (h : State.sameUnits th t e) : t.layers = e.layers := by
  unfold State.sameUnits at h
  simp only [h]

/-- `tccfg` writes MODE of its group. -/
theorem tccfg_writes {i : Issue} {s : State} (h : s.passes i .other (judgeTccfg i)) (hlt : i.index < 15) :
    s.does (.tccfg i) i fun t => t.rd (U.tcGroup i.index) TcGroup.MODE = i.sub ∧
      State.sameUnits i.th t { s.after i.dt with regs := t.regs } ∧ ∀ u f, u ≠ U.thread i.th → u ≠ U.crier → u ≠ U.host →
        ¬ (u = U.tcGroup i.index ∧ f.pos = TcGroup.MODE.pos) → t.rd u f = (s.after i.dt).rd u f := by
  have hsub : i.sub < 2 := by
    have hf := checks_hold h (.format, _) List.mem_cons_self
    simp only [Bool.or_eq_false_iff, decide_eq_false_iff_not] at hf
    omega
  have hv : (judgeTccfg i (s.facing i .other)).verdict =
      .act (writeEach U.tcGroup [(TcGroup.MODE, (i.sub : Int))] [i.index] (s.facing i .other)) := by
    simp only [judgeTccfg, elements_named h rfl]
    rfl
  refine does_mono (wroteEach_of (by simp) rfl h ?_ hv) fun t ⟨hshows, hsame, helse⟩ => ⟨?_, hsame, fun u f h1 h2 h3 hne => helse u f h1 h2 h3 ?_⟩
  · simp only [List.mem_singleton, forall_eq]
    exact unit_apart (by simp only [U.tcGroup]; omega) h.1
  · have hmode := hshows i.index (List.mem_singleton.2 rfl) _ (List.mem_singleton.2 rfl)
    rwa [norm_natCast rfl hsub] at hmode
  · rintro ⟨⟨n, hn, hu⟩, e, he, hp⟩
    rw [List.mem_singleton] at hn he
    subst hn he
    exact hne ⟨hu, hp.symm⟩

/-- `captcfg` writes the edges and the event of each input. -/
theorem captcfg_writes {i : Issue} {s : State} {ts : List Nat} (h : s.passes i .other (judgeCaptcfg i))
    (hts : targets i 0x44 (U.capt 0) 4 = some ts) :
    s.does (.captcfg i) i fun t => (∀ n ∈ ts, t.rd (U.capt n) Capt.EDGES = (i.sub % 4 : Nat) ∧ t.rd (U.capt n) Capt.EVENT = (i.sub / 4 : Nat)) ∧
      State.sameUnits i.th t { s.after i.dt with regs := t.regs } ∧ ∀ u f, u ≠ U.thread i.th → u ≠ U.crier → u ≠ U.host →
        ¬ ((∃ n ∈ ts, u = U.capt n) ∧ (f.pos = Capt.EDGES.pos ∨ f.pos = Capt.EVENT.pos)) → t.rd u f = (s.after i.dt).rd u f := by
  have hsub : i.sub < 8 := by
    have hf := checks_hold h (.format, _) List.mem_cons_self
    simp only [Bool.or_eq_false_iff, decide_eq_false_iff_not] at hf
    omega
  have hlt := targets_lt i 0x44 _ 4 ts U.class_capt hts
  have hv : (judgeCaptcfg i (s.facing i .other)).verdict =
      .act (writeEach U.capt [(Capt.EDGES, ((i.sub % 4 : Nat) : Int)), (Capt.EVENT, ((i.sub / 4 : Nat) : Int))] ts (s.facing i .other)) := by
    simp only [judgeCaptcfg, hts]
    rfl
  refine does_mono (wroteEach_of (by simp [Capt.EDGES, Capt.EVENT]) rfl h ?_ hv) fun t ⟨hshows, hsame, helse⟩ =>
    ⟨fun n hn => ?_, hsame, fun u f h1 h2 h3 hne => helse u f h1 h2 h3 ?_⟩
  · exact fun n hn => unit_apart (by have := hlt n hn; simp only [U.capt]; omega) h.1
  · have hedges := hshows n hn _ List.mem_cons_self
    have hevent := hshows n hn _ (List.mem_cons_of_mem _ List.mem_cons_self)
    rw [norm_natCast rfl (by show i.sub % 4 < 4; omega)] at hedges
    rw [norm_natCast rfl (by show i.sub / 4 < 2; omega)] at hevent
    exact ⟨hedges, hevent⟩
  · rintro ⟨hn, e, he, hp⟩
    simp only [List.mem_cons, List.not_mem_nil, or_false] at he
    rcases he with rfl | rfl
    · exact hne ⟨hn, .inl hp.symm⟩
    · exact hne ⟨hn, .inr hp.symm⟩

/-- `layerset` puts its four words into the shadow descriptor of each head. -/
theorem layerset_writes {i : Issue} {s : State} {ts : List Nat} (h : s.passes i .other (judgeLayerset i))
    (hts : targets i 0x16 (U.head 0) 16 = some ts) :
    s.does (.layerset i) i fun t => (∀ h ∈ ts, ∀ k < 4, Tbl.get ⟨h, 256 + 4 * i.sub + k⟩ 0 t.layers = i.params.getD k 0) ∧
      (∀ h k, ¬ (h ∈ ts ∧ 256 + 4 * i.sub ≤ k ∧ k < 256 + 4 * i.sub + 4) → Tbl.get ⟨h, k⟩ 0 t.layers = Tbl.get ⟨h, k⟩ 0 (s.after i.dt).layers) ∧
      State.sameUnits i.th t { s.after i.dt with layers := t.layers } := by
  have hsub : i.sub % 64 = i.sub := by
    have hf := checks_hold h (.format, _) List.mem_cons_self
    simp only [Bool.or_eq_false_iff, decide_eq_false_iff_not] at hf
    omega
  let w := fun k : Nat => ((i.params.drop k).headD 0).toNat
  have hv : (judgeLayerset i (s.facing i .other)).verdict =
      .act (ts.foldl (fun a h => a.putDesc h (256 + 4 * i.sub) ⟨w 0, w 1, w 2, w 3⟩) (s.facing i .other)) := by
    simp only [judgeLayerset, hts, hsub]
    rfl
  have hw : ∀ k < 4, BitVec.ofNat 64 ([w 0, w 1, w 2, w 3].getD k 0) = i.params.getD k 0 := by
    intro k hk
    have hword : BitVec.ofNat 64 (w k) = i.params.getD k 0 := by
      simp only [w, getD_param i k hk, BitVec.ofNat_toNat, BitVec.setWidth_eq]
    interval_cases k <;> exact hword
  refine does_act _ i _ s _ _ _ rfl h hv fun t ht => ?_
  have hl := layers_of_same ht
  have hframe := layers_of_same (State.facing_same s i .other)
  refine ⟨fun h hh k hk => ?_, fun h k hne => ?_, ?_⟩
  · rw [hl, putDescs _ _ _ _ h k hk hh, hw k hk]
  · rw [hl, putDescs_frame _ _ _ _ h k hne, hframe]
  · obtain ⟨r, hr⟩ := putDescs_only (256 + 4 * i.sub) ⟨w 0, w 1, w 2, w 3⟩ ts (s.facing i .other)
    exact frame_layers ht r _ _ hr (State.facing_same s i .other)

/-- `detassign` puts its range behind those it does not cover. -/
theorem detassign_writes {i : Issue} {s : State} {vs : List Int} (h : s.passes i .other (judgeDetassign i))
    (hvs : getParams Assign.params false i = some vs) :
    let n := pn Assign.params vs
    let kept := (rangesOf ((s.facing i .other).buf U.detector (n Assign.SPACE))).filter fun r =>
      !(decide (n Assign.FIRST ≤ r.1) && decide (r.1 + r.2.1 ≤ n Assign.FIRST + n Assign.COUNT))
    s.does (.detassign i) i fun t => rangesOf (t.buf U.detector (n Assign.SPACE)) = kept ++ [(n Assign.FIRST, n Assign.COUNT, n Assign.PROFILE)] ∧
      (∀ u k, ¬ (u = U.detector ∧ k = n Assign.SPACE) → t.buf u k = (s.after i.dt).buf u k) ∧
      State.sameUnits i.th t { s.after i.dt with bufs := t.bufs } := by
  intro n kept
  have hv : (judgeDetassign i (s.facing i .other)).verdict = .act ((s.facing i .other).setBuf U.detector (n Assign.SPACE)
      ((kept ++ [(n Assign.FIRST, n Assign.COUNT, n Assign.PROFILE)]).flatMap fun r => [(r.1 : Int), (r.2.1 : Int), (r.2.2 : Int)])) := by
    simp only [judgeDetassign, hvs]
    rfl
  refine does_act _ i _ s _ _ _ rfl h hv fun t ht => ⟨?_, fun u k hne => ?_, ?_⟩
  · rw [State.buf, bufs_of ht, ← State.buf, buf_setBuf, if_pos ⟨rfl, rfl⟩, rangesOf_flat]
  · rw [State.buf, bufs_of ht, ← State.buf, buf_setBuf, if_neg hne, State.buf, facing_buf, ← State.buf]
  · exact frame_bufs ht _ _ _ rfl (State.facing_same s i .other)

/-- Settles O26: parameters written into each element named, and the four settings with a form of their own. -/
theorem settingsTakenAtOnce : Obligations.SettingsTakenAtOnce := by
  intro i s vs ts v before elsewhere writes
  refine ⟨fun h hts hvs => ?headset, fun h hts hvs => ?rampcfg, fun h hts hvs => ?detcfg, fun h hts hvs => ?clkoutcfg,
    fun h hts hvs => ?ptpport, tccfg_writes, captcfg_writes, layerset_writes, detassign_writes⟩
  case headset =>
    exact parameters_written (by decide) rfl h (targets_lt i 0x16 _ 16 ts U.class_head hts) (by simp only [U.head]; omega)
      (by simp only [judgeHeadset, hts, hvs, Option.getD_some])
  case rampcfg =>
    exact parameters_written (by decide) rfl h (elements_lt hts) (by simp only [U.ramp]; omega)
      (by simp only [judgeRampcfg, hts, hvs, Option.getD_some])
  case detcfg =>
    exact parameters_written (by decide) rfl h (elements_lt hts) (by simp only [U.detProf]; omega)
      (by simp only [judgeDetcfg, hts, hvs, Option.getD_some])
  case clkoutcfg =>
    exact parameters_written (by decide) rfl h (targets_lt i 0x46 _ 2 ts U.class_clkout hts) (by simp only [U.clkout]; omega)
      (by simp only [judgeClkoutcfg, hts, hvs, Option.getD_some])
  case ptpport =>
    exact parameters_written (by decide) rfl h (targets_lt i 0x0A _ 144 ts U.class_mac hts) (by simp only [U.mac]; omega)
      (by simp only [judgePtpport, hts, hvs, Option.getD_some])

end Sys2Proof.Laws
end

section
/-!
Meters set afresh (O27), and the classifier's table after an instruction on it (O28).
-/
namespace Sys2Proof.Laws
open Sys2Proof Sys2Proof.Machine

/-- An immediate setting whose effect touches one unit's registers and buffers alone, over a state that was woken first. -/
theorem freshMeter_of {c : Instr} {i : Issue} {s woken e : State} {f : State → Judged} {u : Nat} {ps : List Param} {vs : List Int} {P : State → Prop}
    (hc : judged c = some (i, .other, f)) (h : s.passes i .other f) (hu : u ≠ U.thread i.th ∧ u ≠ U.crier ∧ u ≠ U.host)
    (hv : (f (s.facing i .other)).verdict = .act e) (honly : unitOnly u woken e) (hshows : e.shows u ps vs)
    (hP : ∀ t : State, (∀ g, t.rd u g = e.rd u g) → (∀ k, t.buf u k = e.buf u k) → P t) :
    s.does c i fun t => t.shows u ps vs ∧ P t ∧ State.sameUnits i.th t { woken with regs := t.regs, bufs := t.bufs } ∧
      (∀ w f, w ≠ u → w ≠ U.thread i.th → w ≠ U.crier → w ≠ U.host → t.rd w f = woken.rd w f) ∧ ∀ w k, w ≠ u → t.buf w k = woken.buf w k := by
  obtain ⟨h1, h2, h3⟩ := hu
  obtain ⟨⟨r, b, he⟩, hregs, hbufs⟩ := honly
  refine does_act c i _ s e f _ hc h hv fun t ht => ?_
  have hrd : ∀ g, t.rd u g = e.rd u g := fun g => same_rd ht u g h1 h2 h3
  have hbuf : ∀ w k, t.buf w k = e.buf w k := fun w k => by rw [State.buf, bufs_of ht, State.buf]
  refine ⟨shows_of hshows hrd, hP t hrd (hbuf u), frame_both ht r b woken he, fun w g hw w1 w2 w3 => ?_, fun w k hw => ?_⟩
  · rw [same_rd ht w g w1 w2 w3, hregs w g hw]
  · rw [hbuf, hbufs w k hw]

theorem loudcfg_fresh {i : Issue} {s : State} {vs : List Int} (h : s.passes i .other (judgeLoudcfg i))
    (hvs : getParams Loud.loudcfgParams false i = some vs) (woken : State)
    (hwoken : woken = if (List.range 8).any fun q => pn Loud.loudcfgParams vs (Loud.roleF q) != 0 then (s.facing i .other).wake U.detector
      else s.facing i .other) : let u := U.loud i.index
    s.does (.loudcfg i) i fun t => t.shows u Loud.loudcfgParams vs ∧
      (t.rd u Loud.since = -1 ∧ t.rd u Loud.acc = 0 ∧ t.rd u Loud.tpNow = 0 ∧ t.rd u Loud.tpAll = 0 ∧ t.buf u 0 = [] ∧ t.buf u 1 = [] ∧
        ∀ q < 8, t.buf u (10 + q) = [] ∧ t.buf u (20 + q) = []) ∧
      State.sameUnits i.th t { woken with regs := t.regs, bufs := t.bufs } ∧
      (∀ w f, w ≠ u → w ≠ U.thread i.th → w ≠ U.crier → w ≠ U.host → t.rd w f = woken.rd w f) ∧ ∀ w k, w ≠ u → t.buf w k = woken.buf w k := by
  intro u
  have hts := elements_named h rfl
  have hlt := elements_lt hts i.index List.mem_cons_self
  have hset : (woken.wrParams u Loud.loudcfgParams vs).shows u Loud.loudcfgParams vs := wrParams_shows _ _ _ _ (by decide)
  obtain ⟨hshows, hempty, honly⟩ := loud_eff _ u vs hset _ rfl
  refine freshMeter_of rfl h (unit_apart (by simp only [u, U.loud]; omega) h.1) ?_ (unitOnly_trans (unitOnly_wrs u woken _) honly) hshows
    fun t hrd hbuf => by simpa only [hrd, hbuf] using hempty
  simp only [judgeLoudcfg, hts, hvs, hwoken, Option.getD_some, List.foldl_cons, List.foldl_nil, u]

theorem corrcfg_fresh {i : Issue} {s : State} {vs : List Int} (h : s.passes i .other (judgeCorrcfg i))
    (hvs : getParams Corr.corrcfgParams false i = some vs) : let u := U.corr i.index; let woken := (s.facing i .other).wake U.detector
    s.does (.corrcfg i) i fun t => t.shows u Corr.corrcfgParams vs ∧
      (t.rd u Corr.set = 1 ∧ t.rd u Corr.n = 0 ∧ t.rd u Corr.xy = 0 ∧ t.rd u Corr.xx = 0 ∧ t.rd u Corr.yy = 0 ∧ ∀ k < 4, t.buf u k = []) ∧
      State.sameUnits i.th t { woken with regs := t.regs, bufs := t.bufs } ∧
      (∀ w f, w ≠ u → w ≠ U.thread i.th → w ≠ U.crier → w ≠ U.host → t.rd w f = woken.rd w f) ∧ ∀ w k, w ≠ u → t.buf w k = woken.buf w k := by
  intro u woken
  have hts := elements_named h rfl
  have hlt := elements_lt hts i.index List.mem_cons_self
  have hset : (woken.wrParams u Corr.corrcfgParams vs).shows u Corr.corrcfgParams vs := wrParams_shows _ _ _ _ (by decide)
  obtain ⟨hshows, hempty, honly⟩ := corr_eff _ u vs hset _ rfl
  refine freshMeter_of rfl h (unit_apart (by simp only [u, U.corr]; omega) h.1) ?_ (unitOnly_trans (unitOnly_wrs u woken _) honly) hshows
    fun t hrd hbuf => by simpa only [hrd, hbuf] using hempty
  simp only [judgeCorrcfg, hts, hvs, Option.getD_some, List.foldl_cons, List.foldl_nil, u, woken]

/-- Settles O27. -/
theorem metersConfigured : Obligations.MetersConfigured :=
  fun _ _ _ => ⟨fun h hvs => loudcfg_fresh h hvs _ rfl, corrcfg_fresh⟩

/-- Noting the membership reports that become due leaves the classifier. -/
theorem noteGroups_classifier (a b : State) : (State.noteGroups a b).classifier = a.classifier := by
  refine fold_keep (fun x => x.classifier = a.classifier) _ (List.range 144) a rfl fun x m hx => ?_
  simp only
  split
  · exact hx
  · exact hx

theorem classifier_of_same {th : Nat} {t e : State} (h : State.sameUnits th t e) : t.classifier = e.classifier := by
  unfold State.sameUnits at h
  simp only [h]

/-- An instruction that replaces the classifier's table and notes the reports that become due. -/
theorem classifier_becomes {c : Instr} {i : Issue} {s : State} {f : State → Judged} {tbl : Tbl (List Nat)} (hc : judged c = some (i, .other, f))
    (h : s.passes i .other f) (hv : (f (s.facing i .other)).verdict =
      .act (State.noteGroups { s.facing i .other with classifier := tbl } (s.facing i .other))) :
    s.does c i fun t => t.classifier = tbl ∧
      State.sameUnits i.th t (State.noteGroups { s.facing i .other with classifier := tbl } (s.facing i .other)) :=
  does_act c i _ s _ f _ hc h hv fun _ ht => ⟨(classifier_of_same ht).trans (noteGroups_classifier _ _), ht⟩

/-- Settles O28. -/
theorem classifierChanged : Obligations.ClassifierChanged := by
  refine fun i s => ⟨fun tbl h ht => classifier_becomes rfl h ?clsadd, fun ps h hps => classifier_becomes rfl h ?clsdel,
    fun h => classifier_becomes rfl h rfl⟩
  case clsadd => simp only [judgeClsadd, ht, Option.getD_some]
  case clsdel => simp only [judgeClsdel, hps, Option.getD_some]

end Sys2Proof.Laws
end

section
/-!
Lanes, tributaries, ports and PLLs after an instruction that names them (O29). `laneeq` writes one list of values into each lane;
`lanetest` works lane by lane with what the lane itself shows.
-/
namespace Sys2Proof.Laws
open Sys2Proof Sys2Proof.Machine

section
variable {i : Issue} {s : State} {ts : List Nat}

theorem actLanes_eq (hts : laneTargets i = some ts) (v : State) : v.actLanes i = (ts.flatMap v.portLanes).eraseDups := by
  rw [State.actLanes, hts, Option.getD_some]

theorem becomes_of {c : Instr} {e : State} {f : State → Judged} (hc : judged c = some (i, .other, f)) (h : s.passes i .other f)
    (hv : (f (s.facing i .other)).verdict = .act e) : s.does c i fun t => State.sameUnits i.th t e :=
  does_act c i _ s e f _ hc h hv fun _ ht => ht

/-- Where `pllcfg` leaves its PLL without a lock that it needs, it waits for the lock. -/
theorem pllcfg_verdict (v : State) (n : Nat) (hts : targets i 0x07 (U.avenue 0) 36 = some [n]) :
    let e := if v.rn (U.avenue n) (pllFamilyF (i.sub % 2)) ≠ bitsAt i.sub 3 1 then
      v.wrs (U.avenue n) [(pllFamilyF (i.sub % 2), (bitsAt i.sub 3 1 : Int)), (pllLockF (i.sub % 2), 0)] else v
    (judgePllcfg i v).verdict = if bitsAt i.sub 3 1 = 0 || e.rb (U.avenue n) (pllLockF (i.sub % 2)) then .act e
      else .start e 0x58 n (i.sub % 2) [] 0 := by
  simp only [judgePllcfg, hts, Option.getD_some, List.headD_cons, bne_iff_ne]

/-! ### laneeq -/

/-- What `laneeq` writes into each lane: the FFE where SUB names the TX side, and the mode, with CTLE and DFE where it is set by hand, where it
names the RX side. -/
def laneeqFields (sub : Nat) (h d : List Int) : List (Field × Int) :=
  (if bitAt sub 0 then [(Lane.FFE, ((h.headD 0).toNat : Int))] else []) ++
    if bitAt sub 1 then (Lane.EQ_MODE, h.getD 1 0) ::
      if h.getD 1 0 = 2 then eqDfe.zip d ++ [(Lane.CTLE_SET, h.getD 2 0), (Lane.CTLE, h.getD 2 0)] else []
    else []

theorem wrs_append (s : State) (u : Nat) (l m : List (Field × Int)) : s.wrs u (l ++ m) = (s.wrs u l).wrs u m := by
  induction l generalizing s with
  | nil => rfl
  | cons e l ih => exact ih _

theorem zip_fst_sublist {α β : Type} (l : List α) (m : List β) : ((l.zip m).map Prod.fst).Sublist l := by
  induction l generalizing m with
  | nil => exact List.Sublist.refl _
  | cons x l ih =>
    cases m with
    | nil => exact List.nil_sublist _
    | cons y m => exact (ih m).cons_cons x

theorem laneeqFields_nodup (sub : Nat) (h d : List Int) : ((laneeqFields sub h d).map fun e => e.1.pos).Nodup := by
  have hall : ([Lane.FFE.pos] ++ Lane.EQ_MODE.pos :: (eqDfe.map (·.pos) ++ [Lane.CTLE_SET.pos, Lane.CTLE.pos])).Nodup := by decide
  refine List.Sublist.nodup ?_ hall
  have hdfe : ((eqDfe.zip d).map fun e => e.1.pos).Sublist (eqDfe.map (·.pos)) := by
    have := (zip_fst_sublist eqDfe d).map (·.pos)
    rwa [List.map_map] at this
  rw [laneeqFields, List.map_append]
  refine List.Sublist.append ?_ ?_
  · split
    · exact List.Sublist.refl _
    · exact List.nil_sublist _
  · split
    · refine List.Sublist.cons_cons _ ?_
      split
      · rw [List.map_append]
        exact hdfe.append (List.Sublist.refl _)
      · exact List.nil_sublist _
    · exact List.nil_sublist _

theorem laneeqFields_tx {sub : Nat} (h d : List Int) (h0 : bitAt sub 0 = true) : (Lane.FFE, ((h.headD 0).toNat : Int)) ∈ laneeqFields sub h d := by
  rw [laneeqFields, if_pos h0]
  exact List.mem_append_left _ List.mem_cons_self

theorem laneeqFields_rx {sub : Nat} (h d : List Int) (h1 : bitAt sub 1 = true) : (Lane.EQ_MODE, h.getD 1 0) ∈ laneeqFields sub h d ∧
    (h.getD 1 0 = 2 → (Lane.CTLE, h.getD 2 0) ∈ laneeqFields sub h d ∧ ∀ e ∈ eqDfe.zip d, e ∈ laneeqFields sub h d) := by
  rw [laneeqFields, if_pos h1]
  refine ⟨List.mem_append_right _ List.mem_cons_self, fun h2 => ?_⟩
  rw [if_pos h2]
  refine ⟨?_, fun e he => ?_⟩
  · exact List.mem_append_right _ (List.mem_cons_of_mem _ (List.mem_append_right _ (List.mem_cons_of_mem _ List.mem_cons_self)))
  · exact List.mem_append_right _ (List.mem_cons_of_mem _ (List.mem_append_left _ he))

theorem laneeq_verdict (v : State) (hts : laneTargets i = some ts) {h d : List Int} (hp : laneeqParse i = some (h, d)) :
    (judgeLaneeq i v).verdict = .act (writeEach U.lane (laneeqFields i.sub h d) (ts.flatMap v.portLanes).eraseDups v) := by
  have hone : ∀ (a : State) (l : Nat), a.wrs (U.lane l) (laneeqFields i.sub h d) =
      (let a1 := if bitAt i.sub 0 then a.setLane l Lane.FFE (h.headD 0).toNat else a
       if bitAt i.sub 1 then
         let a2 := a1.setLane l Lane.EQ_MODE ((h.drop 1).headD 0)
         if (h.drop 1).headD 0 = 2 then (a2.wrs (U.lane l) (eqDfe.zip d)).wrs (U.lane l)
           [(Lane.CTLE_SET, (h.drop 2).headD 0), (Lane.CTLE, (h.drop 2).headD 0)] else a2
       else a1) := by
    intro a l
    rw [headD_drop_one, getD_drop_two, laneeqFields, wrs_append]
    by_cases h0 : bitAt i.sub 0 <;> by_cases h1 : bitAt i.sub 1 <;> by_cases h2 : h.getD 1 0 = 2 <;>
      simp only [h0, h1, h2, if_true, if_false, Bool.false_eq_true, wrs_append, State.wrs, State.setLane]
  simp only [judgeLaneeq, hp, Option.getD_some, actLanes_eq hts, writeEach, hone]

theorem laneeq_writes (hts : laneTargets i = some ts) {h d : List Int} (hpass : s.passes i .other (judgeLaneeq i))
    (hp : laneeqParse i = some (h, d)) : let ls := (ts.flatMap (s.facing i .other).portLanes).eraseDups
    s.does (.laneeq i) i fun t => (∀ l ∈ ls,
      (bitAt i.sub 0 = true → t.rd (U.lane l) Lane.FFE = Lane.FFE.norm ((h.headD 0).toNat : Int)) ∧
      (bitAt i.sub 1 = true → t.rd (U.lane l) Lane.EQ_MODE = Lane.EQ_MODE.norm (h.getD 1 0) ∧
        (h.getD 1 0 = 2 → t.rd (U.lane l) Lane.CTLE = Lane.CTLE.norm (h.getD 2 0) ∧ ∀ e ∈ eqDfe.zip d, t.rd (U.lane l) e.1 = e.1.norm e.2))) ∧
      (∀ u f, u ≠ U.thread i.th → u ≠ U.crier → u ≠ U.host → (∀ l ∈ ls, u ≠ U.lane l) → t.rd u f = (s.after i.dt).rd u f) ∧
      State.sameUnits i.th t { s.after i.dt with regs := t.regs } := by
  intro ls
  refine does_mono (wroteEach_of (laneeqFields_nodup i.sub h d) rfl hpass (lane_unit_ne ts _ i hts hpass.1) (laneeq_verdict _ hts hp))
    fun t ⟨hshows, hsame, helse⟩ => ⟨fun l hl => ?_, fun u f h1 h2 h3 hne => helse u f h1 h2 h3 ?_, hsame⟩
  · have hw := hshows l hl
    refine ⟨fun h0 => hw _ (laneeqFields_tx h d h0), fun h1 => ?_⟩
    obtain ⟨hmode, hhand⟩ := laneeqFields_rx h d h1
    exact ⟨hw _ hmode, fun h2 => ⟨hw _ (hhand h2).1, fun e he => hw e ((hhand h2).2 e he)⟩⟩
  · rintro ⟨⟨l, hl, hu⟩, -⟩
    exact hne l hl hu

/-! ### lanetest -/

/-- `b` is `a` with other registers of one unit, those at the places `W`, and other counters. -/
def unitWrites (u : Nat) (W : List Nat) (a b : State) : Prop :=
  (∃ r c, b = { a with regs := r, ctrs := c }) ∧ ∀ w f, w ≠ u ∨ f.pos ∉ W → b.rd w f = a.rd w f

variable {u : Nat} {W : List Nat}

theorem unitWrites_refl (a : State) : unitWrites u W a a := ⟨⟨a.regs, a.ctrs, rfl⟩, fun _ _ _ => rfl⟩

theorem unitWrites_trans {a b c : State} (hab : unitWrites u W a b) (hbc : unitWrites u W b c) : unitWrites u W a c := by
  obtain ⟨⟨r, k, rfl⟩, hr⟩ := hab
  obtain ⟨⟨r', k', rfl⟩, hr'⟩ := hbc
  exact ⟨⟨r', k', rfl⟩, fun w f hw => (hr' w f hw).trans (hr w f hw)⟩

theorem unitWrites_wrs (a : State) (l : List (Field × Int)) (hl : ∀ e ∈ l, e.1.pos ∈ W) : unitWrites u W a (a.wrs u l) := by
  obtain ⟨r, hr⟩ := wrs_only a u l
  refine ⟨⟨r, a.ctrs, hr⟩, fun w f hw => ?_⟩
  by_cases hu : w = u
  · have hf := hw.resolve_left fun h => h hu
    exact State.wrs_ne a u w l f fun e he hp => hf (hp ▸ hl e he)
  · exact wrs_unit a u w f l hu

theorem unitWrites_wr (a : State) (f : Field) (x : Int) (hf : f.pos ∈ W) : unitWrites u W a (a.wr u f x) :=
  unitWrites_wrs a [(f, x)] (by simpa using hf)

theorem unitWrites_ite {p : Prop} [Decidable p] {a b c : State} (hb : unitWrites u W a b) (hc : unitWrites u W a c) :
    unitWrites u W a (if p then b else c) := by
  split
  · exact hb
  · exact hc

/-- Whether two states show the same in fields of a lane. -/
def sameFields (a b : State) (l : Nat) (fs : List Field) : Bool := fs.all fun f => b.rd (U.lane l) f == a.rd (U.lane l) f

def testGenerator (a b : State) (l : Nat) : State :=
  if sameFields a b l [Lane.GEN_EN, Lane.GEN_PAT, Lane.GEN_INV] then b else b.setLane l Lane.genReg 0x7FFFFFFF

/-- The checker begins again where what it checks changed from `a` to `b`. -/
def testChecker (a b c : State) (l : Nat) : State :=
  if sameFields a b l [Lane.CHK_EN, Lane.CHK_PAT, Lane.CHK_INV] then c
  else c.wrs (U.lane l) [(Lane.PRBS_LOCK, 0), (Lane.chkRun, 0), (Lane.chkReg, 0)]

def testLoop (a : State) (l : Nat) : State :=
  if a.nearLoop l && a.laneN l Lane.TX_STATE == 0 && a.laneN l Lane.RX_STATE == 0 then a.wrs (U.lane l) [(Lane.SIGNAL, 1), (Lane.CDR_LOCK, 1)] else a

def testInject (a : State) (l : Nat) : State := if a.laneN l Lane.INJ = 1 then a.inject l else a

/-- What `lanetest` does on one lane. -/
def lanetestOne (vs : List Int) (a : State) (l : Nat) : State :=
  let b := a.wrParams (U.lane l) Lane.lanetestParams vs
  testInject (testLoop (testChecker a b (testGenerator a b l) l) l) l

theorem lanetest_verdict (v : State) (hts : laneTargets i = some ts) {vs : List Int} (hvs : getParams Lane.lanetestParams false i = some vs) :
    (judgeLanetest i v).verdict = .act ((ts.flatMap v.portLanes).eraseDups.foldl (lanetestOne vs) v) := by
  simp only [judgeLanetest, hvs, Option.getD_some, actLanes_eq hts]
  rfl

/-- The places that the steps after the parameters write, but for the checker's own. -/
def testPlaces : List Nat := [Lane.genReg.pos, Lane.SIGNAL.pos, Lane.CDR_LOCK.pos, Lane.flips.pos]

def checkerPlaces : List Nat := [Lane.PRBS_LOCK.pos, Lane.chkRun.pos, Lane.chkReg.pos]

theorem testGenerator_writes (a b : State) (l : Nat) : unitWrites (U.lane l) testPlaces b (testGenerator a b l) :=
  unitWrites_ite (unitWrites_refl b) (unitWrites_wr b _ _ (by decide))

theorem testChecker_writes (a b c : State) (l : Nat) : unitWrites (U.lane l) checkerPlaces c (testChecker a b c l) :=
  unitWrites_ite (unitWrites_refl c) (unitWrites_wrs c _ (by decide))

theorem testLoop_writes (a : State) (l : Nat) : unitWrites (U.lane l) testPlaces a (testLoop a l) :=
  unitWrites_ite (unitWrites_wrs a _ (by decide)) (unitWrites_refl a)

theorem inject_writes (a : State) (l : Nat) : unitWrites (U.lane l) testPlaces a (a.inject l) := by
  refine unitWrites_ite (unitWrites_refl a) ?_
  obtain ⟨⟨r, c, hr⟩, hf⟩ := unitWrites_wr (u := U.lane l) (W := testPlaces) a Lane.flips (a.rd (U.lane l) Lane.flips + 1) (by decide)
  exact ⟨⟨r, _, by rw [State.setLane, hr]; rfl⟩, fun w f hw => (hf w f hw)⟩

theorem testInject_writes (a : State) (l : Nat) : unitWrites (U.lane l) testPlaces a (testInject a l) :=
  unitWrites_ite (inject_writes a l) (unitWrites_refl a)

theorem unitWrites_mono {V : List Nat} (hVW : ∀ p ∈ V, p ∈ W) {a b : State} (h : unitWrites u V a b) : unitWrites u W a b :=
  ⟨h.1, fun w f hw => h.2 w f (hw.imp_right fun hf hV => hf (hVW _ hV))⟩

/-- The steps after the parameters. -/
theorem lanetestOne_tail (vs : List Int) (a : State) (l : Nat) :
    unitWrites (U.lane l) (testPlaces ++ checkerPlaces) (a.wrParams (U.lane l) Lane.lanetestParams vs) (lanetestOne vs a l) := by
  have ht : ∀ {x y : State}, unitWrites (U.lane l) testPlaces x y → unitWrites (U.lane l) (testPlaces ++ checkerPlaces) x y :=
    fun h => unitWrites_mono (fun p hp => List.mem_append_left _ hp) h
  have hc : ∀ {x y : State}, unitWrites (U.lane l) checkerPlaces x y → unitWrites (U.lane l) (testPlaces ++ checkerPlaces) x y :=
    fun h => unitWrites_mono (fun p hp => List.mem_append_right _ hp) h
  exact unitWrites_trans (ht (testGenerator_writes a _ l)) (unitWrites_trans (hc (testChecker_writes a _ _ l))
    (unitWrites_trans (ht (testLoop_writes _ l)) (ht (testInject_writes _ l))))

theorem lanetestOne_other (vs : List Int) (a : State) (l w : Nat) (f : Field) (hw : w ≠ U.lane l) : (lanetestOne vs a l).rd w f = a.rd w f := by
  rw [(lanetestOne_tail vs a l).2 w f (.inl hw), State.wrParams, wrs_unit _ _ _ _ _ hw]

theorem lanetestOne_only (vs : List Int) (a : State) (l : Nat) : ∃ r c, lanetestOne vs a l = { a with regs := r, ctrs := c } := by
  obtain ⟨⟨r, c, hone⟩, -⟩ := lanetestOne_tail vs a l
  obtain ⟨r', hr'⟩ := wrs_only a (U.lane l) ((Lane.lanetestParams.zip vs).map fun e => (e.1.fld, e.2))
  exact ⟨r, c, by rw [hone, State.wrParams, hr']⟩

theorem lanetestOne_shows (vs : List Int) (a : State) (l : Nat) : (lanetestOne vs a l).shows (U.lane l) Lane.lanetestParams vs := by
  have hapart : ∀ p ∈ Lane.lanetestParams, p.fld.pos ∉ testPlaces ++ checkerPlaces := by decide
  intro e he
  rw [(lanetestOne_tail vs a l).2 _ _ (.inr (hapart e.1 (List.of_mem_zip he).1))]
  exact wrParams_shows a _ _ vs (by decide) e he

/-- Where what is checked changes no PRBS lock stands, and else the lock stands as it did. -/
theorem lanetestOne_lock (vs : List Int) (a : State) (l : Nat) : (lanetestOne vs a l).rd (U.lane l) Lane.PRBS_LOCK = 0 ∨
    (∀ f ∈ [Lane.CHK_EN, Lane.CHK_PAT, Lane.CHK_INV], (lanetestOne vs a l).rd (U.lane l) f = a.rd (U.lane l) f) ∧
      (lanetestOne vs a l).rd (U.lane l) Lane.PRBS_LOCK = a.rd (U.lane l) Lane.PRBS_LOCK := by
  let b := a.wrParams (U.lane l) Lane.lanetestParams vs
  let c := testGenerator a b l
  have hlast : (lanetestOne vs a l).rd (U.lane l) Lane.PRBS_LOCK = (testChecker a b c l).rd (U.lane l) Lane.PRBS_LOCK :=
    (unitWrites_trans (testLoop_writes _ l) (testInject_writes _ l)).2 _ _ (.inr (by decide))
  by_cases hsame : sameFields a b l [Lane.CHK_EN, Lane.CHK_PAT, Lane.CHK_INV]
  · have hb : ∀ f ∈ [Lane.CHK_EN, Lane.CHK_PAT, Lane.CHK_INV], b.rd (U.lane l) f = a.rd (U.lane l) f := by
      simpa only [sameFields, List.all_eq_true, beq_iff_eq] using hsame
    have hchk : ∀ f ∈ [Lane.CHK_EN, Lane.CHK_PAT, Lane.CHK_INV], f.pos ∉ testPlaces ++ checkerPlaces := by decide
    refine .inr ⟨fun f hf => ((lanetestOne_tail vs a l).2 _ f (.inr (hchk f hf))).trans (hb f hf), ?_⟩
    rw [hlast, testChecker, if_pos hsame, (testGenerator_writes a b l).2 _ _ (.inr (by decide)), wrParams_ne _ _ _ _ _ (by decide)]
  · refine .inl ?_
    rw [hlast, testChecker, if_neg hsame]
    exact wrs_at _ _ _ _ 0 (by simp) (by decide)

/-- A lane after `lanetest`, seen from the state `v` before it. -/
def lanetestDone (v : State) (vs : List Int) (l : Nat) (a : State) : Prop :=
  a.shows (U.lane l) Lane.lanetestParams vs ∧
    ((∃ f ∈ [Lane.CHK_EN, Lane.CHK_PAT, Lane.CHK_INV], a.rd (U.lane l) f ≠ v.rd (U.lane l) f) → a.rd (U.lane l) Lane.PRBS_LOCK = 0)

theorem lanetestDone_of_eq {v a b : State} {vs : List Int} {l : Nat} (h : lanetestDone v vs l a)
    (hrd : ∀ f, b.rd (U.lane l) f = a.rd (U.lane l) f) : lanetestDone v vs l b := by
  unfold lanetestDone at *
  exact ⟨shows_of h.1 hrd, by simpa only [hrd] using h.2⟩

/-- A visit of a lane that shows the state before, or that was visited already. -/
theorem lanetestOne_done (v : State) (vs : List Int) (l : Nat) (a : State)
    (h : (∀ f, a.rd (U.lane l) f = v.rd (U.lane l) f) ∨ lanetestDone v vs l a) : lanetestDone v vs l (lanetestOne vs a l) := by
  refine ⟨lanetestOne_shows vs a l, fun ⟨f, hf, hne⟩ => ?_⟩
  rcases lanetestOne_lock vs a l with hlock | ⟨hchk, hlock⟩
  · exact hlock
  · rw [hchk f hf] at hne
    rcases h with hv | ⟨-, hdone⟩
    · exact absurd (hv f) hne
    · rw [hlock, hdone ⟨f, hf, hne⟩]

theorem lanes_tested (v : State) (vs : List Int) (ls : List Nat) (l : Nat) (hl : l ∈ ls) :
    lanetestDone v vs l (ls.foldl (lanetestOne vs) v) := by
  have hother : ∀ a y, y ≠ l → ∀ f, (lanetestOne vs a y).rd (U.lane l) f = a.rd (U.lane l) f := fun a y hy f =>
    lanetestOne_other vs a y _ f (by simp only [U.lane]; omega)
  exact fold_visit (fun a => ∀ f, a.rd (U.lane l) f = v.rd (U.lane l) f) (lanetestDone v vs l) _ ls l hl v (fun _ => rfl)
    (lanetestOne_done v vs l) (fun a y hy ha f => (hother a y hy f).trans (ha f)) fun a y hy ha => lanetestDone_of_eq ha (hother a y hy)

theorem lanetest_writes (hts : laneTargets i = some ts) {vs : List Int} (h : s.passes i .other (judgeLanetest i))
    (hvs : getParams Lane.lanetestParams false i = some vs) : let ls := (ts.flatMap (s.facing i .other).portLanes).eraseDups
    s.does (.lanetest i) i fun t => (∀ l ∈ ls, t.shows (U.lane l) Lane.lanetestParams vs ∧
      ((∃ f ∈ [Lane.CHK_EN, Lane.CHK_PAT, Lane.CHK_INV], t.rd (U.lane l) f ≠ (s.after i.dt).rd (U.lane l) f) →
        t.rd (U.lane l) Lane.PRBS_LOCK = 0)) ∧
      (∀ u f, u ≠ U.thread i.th → u ≠ U.crier → u ≠ U.host → (∀ l ∈ ls, u ≠ U.lane l) → t.rd u f = (s.after i.dt).rd u f) ∧
      State.sameUnits i.th t { s.after i.dt with regs := t.regs, ctrs := t.ctrs } := by
  intro ls
  have hapart := lane_unit_ne ts (s.facing i .other) i hts h.1
  refine does_act _ i _ s _ _ _ rfl h (lanetest_verdict _ hts hvs) fun t ht => ⟨fun l hl => ?_, fun w f h1 h2 h3 hne => ?_, ?_⟩
  · obtain ⟨h1, h2, h3⟩ := hapart l hl
    have hdone := lanetestDone_of_eq (lanes_tested (s.facing i .other) vs ls l hl) fun f => same_rd ht _ f h1 h2 h3
    simpa only [lanetestDone, facing_unit s i _ _ _ h1 h2 h3] using hdone
  · rw [same_rd ht w f h1 h2 h3, ← facing_unit s i .other w f h1 h2 h3]
    refine List.foldlRecOn (motive := fun a : State => a.rd w f = (s.facing i .other).rd w f) ls _ rfl fun a ha l hl => ?_
    rw [lanetestOne_other vs a l w f (hne l hl), ha]
  · obtain ⟨r, c, hr⟩ := fold_only2 (lanetestOne vs) (lanetestOne_only vs) ls (s.facing i .other)
    exact frame_rc ht r c _ _ hr (State.facing_same s i .other)

end

/-- Settles O29. -/
theorem lanesAndPortsConfigured : Obligations.LanesAndPortsConfigured := by
  refine ⟨fun i s vs ts => ⟨fun h hts hvs => becomes_of rfl h ?tribcfg, fun h hts hvs => becomes_of rfl h ?lanecfg,
    fun h hts hvs => becomes_of rfl h ?maccfg, fun h hts => becomes_of rfl h ?lanepwr, fun h hts => ?lanetrain, fun n h hn => ⟨?act, ?start⟩⟩,
    fun i s ts hts => ⟨fun h d hpass hp => laneeq_writes hts hpass hp, fun vs h hvs => lanetest_writes hts h hvs⟩⟩
  case tribcfg => simp only [judgeTribcfg, hts, hvs, Option.getD_some]
  case lanecfg => simp only [judgeLanecfg, hts, hvs, Option.getD_some]
  case maccfg => simp only [judgeMaccfg, hts, hvs, Option.getD_some]
  case lanepwr =>
    have hsides : bitAt (i.sub % 4) 0 = bitAt i.sub 0 ∧ bitAt (i.sub % 4) 1 = bitAt i.sub 1 := by
      unfold bitAt
      constructor <;> congr 1 <;> omega
    simp only [judgeLanepwr, actLanes_eq hts, hsides]
  case lanetrain =>
    exact does_start _ i _ s _ _ _ _ _ _ 0 rfl h (by simp only [judgeLanetrain, actLanes_eq hts])
  case act =>
    intro hlock
    refine becomes_of rfl h ((pllcfg_verdict _ n hn).trans (if_pos ?_))
    simpa only [Bool.or_eq_true, decide_eq_true_eq] using hlock
  case start =>
    intro hfam hlock
    refine does_start _ i _ s _ _ _ _ _ _ 0 rfl h ((pllcfg_verdict _ n hn).trans (if_neg ?_))
    simpa only [Bool.or_eq_true, decide_eq_true_eq, not_or, Bool.not_eq_true] using And.intro hfam hlock

end Sys2Proof.Laws
end

section
/-!
The Tower after `towersteer` (O30): its three parts, each where SUB names it.
-/
namespace Sys2Proof.Laws
open Sys2Proof Sys2Proof.Machine

section
variable (i : Issue) (vs : List Int) (v : State)

def steerTrim : State := if bitAt i.sub 0 then v.wr U.tower Tower.FREQ_TRIM (pv Steer.params vs Steer.TRIM) else v

/-- The phase that the step leaves pending, within the register's range. -/
def steeredPhase (a : State) : Int :=
  max (-(2 ^ 31)) (min (2 ^ 31 - 1) (a.settlePending.tower Tower.PHASE_PENDING + pv Steer.params vs Steer.STEP))

def steerStep (a : State) : State := if bitAt i.sub 1 then a.settlePending.wr U.tower Tower.PHASE_PENDING (steeredPhase vs a) else a

def steerSeconds (a : State) : State :=
  let left := Config.second - a.now % Config.second
  if bitAt i.sub 2 then { a with setAt := a.clk + left, setBy := ((pn Steer.params vs Steer.SECS : Int) - (a.nowS + 1 : Nat)) * Config.second }
  else a

variable {i vs v}

theorem steer_verdict (hvs : getParams Steer.params true i = some vs) :
    (judgeSteer i v).verdict = .act (steerSeconds i vs (steerStep i vs (steerTrim i vs v))) := by
  simp only [judgeSteer, hvs, Option.getD_some]
  rfl

theorem steerSeconds_rd (a : State) (u : Nat) (f : Field) : (steerSeconds i vs a).rd u f = a.rd u f := by
  unfold steerSeconds
  split
  · rfl
  · rfl

theorem settlePending_ne (a : State) (f : Field) (h : f.pos ≠ Tower.PHASE_PENDING.pos) (h' : f.pos ≠ Tower.pendAt.pos) (u : Nat) :
    a.settlePending.rd u f = a.rd u f := by
  refine State.wrs_ne _ _ _ _ f fun e he => ?_
  simp only [List.mem_cons, List.not_mem_nil, or_false] at he
  rcases he with rfl | rfl
  · exact h
  · exact h'

theorem steerStep_ne (a : State) (u : Nat) (f : Field) (h : u ≠ U.tower ∨ (f.pos ≠ Tower.PHASE_PENDING.pos ∧ f.pos ≠ Tower.pendAt.pos)) :
    (steerStep i vs a).rd u f = a.rd u f := by
  unfold steerStep
  split
  · rw [State.rd_wr_ne _ _ _ _ _ _ (h.imp_right And.left)]
    rcases h with hu | ⟨hf, hf'⟩
    · exact wrs_unit _ _ _ _ _ hu
    · exact settlePending_ne a f hf hf' u
  · rfl

theorem steerTrim_ne (u : Nat) (f : Field) (h : u ≠ U.tower ∨ f.pos ≠ Tower.FREQ_TRIM.pos) : (steerTrim i vs v).rd u f = v.rd u f := by
  unfold steerTrim
  split
  · exact State.rd_wr_ne _ _ _ _ _ _ h
  · rfl

/-- The first two parts write registers alone, so they leave the clock and the time. -/
theorem steered_only : ∃ r, steerStep i vs (steerTrim i vs v) = { v with regs := r } := by
  have htrim : ∃ r, steerTrim i vs v = { v with regs := r } := by
    unfold steerTrim
    split
    · exact wrs_only v U.tower [(Tower.FREQ_TRIM, pv Steer.params vs Steer.TRIM)]
    · exact ⟨v.regs, rfl⟩
  obtain ⟨r, hr⟩ := htrim
  unfold steerStep
  split
  · obtain ⟨r', hr'⟩ := wrs_only (steerTrim i vs v) U.tower
      [(Tower.PHASE_PENDING, (steerTrim i vs v).phasePending), (Tower.pendAt, (steerTrim i vs v).clk),
        (Tower.PHASE_PENDING, steeredPhase vs (steerTrim i vs v))]
    exact ⟨r', hr'.trans (by rw [hr])⟩
  · exact ⟨r, hr⟩

theorem steered_trim (h0 : bitAt i.sub 0 = true) : (steerSeconds i vs (steerStep i vs (steerTrim i vs v))).rd U.tower Tower.FREQ_TRIM =
    Tower.FREQ_TRIM.norm (pv Steer.params vs Steer.TRIM) := by
  rw [steerSeconds_rd, steerStep_ne _ _ _ (.inr (by decide)), steerTrim, if_pos h0, State.rd_wr_same]

theorem steered_phase (h1 : bitAt i.sub 1 = true) : (steerSeconds i vs (steerStep i vs (steerTrim i vs v))).rd U.tower Tower.PHASE_PENDING =
    Tower.PHASE_PENDING.norm (max (-(2 ^ 31)) (min (2 ^ 31 - 1)
      (Tower.PHASE_PENDING.norm (steerTrim i vs v).phasePending + pv Steer.params vs Steer.STEP))) := by
  have hpending : (steerTrim i vs v).settlePending.tower Tower.PHASE_PENDING = Tower.PHASE_PENDING.norm (steerTrim i vs v).phasePending :=
    wrs_at _ _ _ _ _ List.mem_cons_self (by simp [Tower.PHASE_PENDING, Tower.pendAt])
  rw [steerSeconds_rd, steerStep, if_pos h1, State.rd_wr_same, steeredPhase, hpending]

theorem steered_seconds (h2 : bitAt i.sub 2 = true) : let e := steerSeconds i vs (steerStep i vs (steerTrim i vs v))
    e.setAt = v.clk + (Config.second - v.now % Config.second) ∧
      e.setBy = ((pn Steer.params vs Steer.SECS : Int) - (v.nowS + 1 : Nat)) * Config.second := by
  obtain ⟨r, hr⟩ := steered_only (i := i) (vs := vs) (v := v)
  rw [hr, steerSeconds, if_pos h2]
  exact ⟨rfl, rfl⟩

theorem steered_no_seconds (h2 : bitAt i.sub 2 = false) : let e := steerSeconds i vs (steerStep i vs (steerTrim i vs v))
    e.setAt = v.setAt ∧ e.setBy = v.setBy := by
  obtain ⟨r, hr⟩ := steered_only (i := i) (vs := vs) (v := v)
  rw [hr, steerSeconds, if_neg (by simp [h2])]
  exact ⟨rfl, rfl⟩

end

/-- Settles O30. -/
theorem towerSteered : Obligations.TowerSteered := by
  intro i s c vs hc v ps h hvs
  obtain ⟨h1, h2, h3⟩ := tower_unit_ne i.th h.1
  have hjudged : judged c = some (i, .other, judgeSteer i) := by rcases hc with rfl | rfl | rfl <;> rfl
  refine does_act c i .other s _ (judgeSteer i) _ hjudged h (steer_verdict hvs) fun t ht => ?_
  have hrd : ∀ f, t.rd U.tower f = _ := fun f => same_rd ht U.tower f h1 h2 h3
  have hfacing : ∀ f, v.rd U.tower f = (s.after i.dt).rd U.tower f := fun f => facing_unit s i .other U.tower f h1 h2 h3
  obtain ⟨hat, hby⟩ := at_of_getD ht
  refine ⟨fun b0 => (hrd _).trans (steered_trim b0), fun b0 => ?_, fun b1 => (hrd _).trans (steered_phase b1), fun b1 => ?_, fun b2 => ?_,
    fun b2 => ?_, fun u f u1 u2 u3 hu => ?_⟩
  · rw [hrd, steerSeconds_rd, steerStep_ne _ _ _ (.inr (by decide)), steerTrim, if_neg (by simp [b0]), hfacing]
  · rw [hrd, steerSeconds_rd, steerStep, if_neg (by simp [b1]), steerTrim_ne _ _ (.inr (by decide)), hfacing]
  · rw [hat, hby]
    exact steered_seconds b2
  · rw [hat, hby]
    exact steered_no_seconds b2
  · rw [same_rd ht u f u1 u2 u3, steerSeconds_rd, steerStep_ne _ _ _ (.inl hu), steerTrim_ne _ _ (.inl hu), facing_unit s i _ u f u1 u2 u3]

end Sys2Proof.Laws
end

section
/-!
The references, tables and loop of the Tower, PTP clients, timed outputs, the pair and the Harvest as their instructions set them (O31 to O33).
-/
namespace Sys2Proof.Laws
open Sys2Proof Sys2Proof.Machine

section
variable {i : Issue} {s : State} {vs : List Int}

/-- What `towercand` leaves of a state: the reference out of use, MISSING, lost, or as it stood with its new settings. -/
def candConfigured (vs : List Int) (c : Nat) (v : State) : State :=
  let ps := Cand.towercandParams
  let b := v.wrParams (U.cand c) ps vs
  let hard := [Cand.FORMAT, Cand.RASTER, Cand.EDGE, Cand.SEAT].any fun f => pv ps vs f != v.rd (U.cand c) f
  if pv ps vs Cand.ENABLE = 0 then
    (((b.candLeave c cdDisabled 0).wrs (U.cand c) [(Cand.last, 0), (Cand.hasRel, 0)]).setBuf (U.cand c) 0 []).reselect false false
  else if v.candState c = cdDisabled then b.wr (U.cand c) Cand.STATE cdMissing else if hard then b.candLost c 0 else b

theorem towercand_verdict (v : State) {c : Nat} (hts : targets i 0x41 (U.cand 0) 12 = some [c])
    (hvs : getParams Cand.towercandParams false i = some vs) : (judgeTowercand i v).verdict = .act (candConfigured vs c v) := by
  simp only [judgeTowercand, hts, hvs, Option.getD_some, List.foldl_cons, List.foldl_nil]
  rfl

/-- An enabled reference that was not, or whose marks keep their source, shows its settings. -/
theorem candConfigured_shows (v : State) (c : Nat) (hen : pv Cand.towercandParams vs Cand.ENABLE ≠ 0)
    (h : v.candState c = cdDisabled ∨
      ([Cand.FORMAT, Cand.RASTER, Cand.EDGE, Cand.SEAT].any fun f => pv Cand.towercandParams vs f != v.rd (U.cand c) f) = false) :
    (candConfigured vs c v).shows (U.cand c) Cand.towercandParams vs := by
  have hset : (v.wrParams (U.cand c) Cand.towercandParams vs).shows (U.cand c) Cand.towercandParams vs := wrParams_shows _ _ _ _ (by decide)
  unfold candConfigured
  rw [if_neg hen]
  by_cases hdis : v.candState c = cdDisabled
  · rw [if_pos hdis]
    exact shows_wr1 _ _ _ _ _ _ hset (by decide)
  · rw [if_neg hdis, if_neg (by rw [h.resolve_left hdis]; exact Bool.false_ne_true)]
    exact hset

theorem candConfigured_missing (v : State) (c : Nat) (hen : pv Cand.towercandParams vs Cand.ENABLE ≠ 0) (h : v.candState c = cdDisabled) :
    (candConfigured vs c v).rd (U.cand c) Cand.STATE = cdMissing := by
  unfold candConfigured
  rw [if_neg hen, if_pos h, State.rd_wr_same]
  decide

theorem towercand_sets {c : Nat} (h : s.passes i .other (judgeTowercand i)) (hts : targets i 0x41 (U.cand 0) 12 = some [c])
    (hvs : getParams Cand.towercandParams false i = some vs) :
    let v := s.facing i .other
    let hard := [Cand.FORMAT, Cand.RASTER, Cand.EDGE, Cand.SEAT].any fun f => pv Cand.towercandParams vs f != v.rd (U.cand c) f
    s.does (.towercand i) i fun t => State.sameUnits i.th t (candConfigured vs c v) ∧
      (pv Cand.towercandParams vs Cand.ENABLE ≠ 0 → v.candState c = cdDisabled ∨ hard = false → t.shows (U.cand c) Cand.towercandParams vs) ∧
      (pv Cand.towercandParams vs Cand.ENABLE ≠ 0 → v.candState c = cdDisabled → t.candState c = cdMissing) := by
  intro v hard
  have hlt := classOf_one i 0x41 _ 12 c classOf_cand hts
  obtain ⟨h1, h2, h3⟩ := unit_apart (u := U.cand c) (by simp only [U.cand]; omega) h.1
  refine does_act _ i _ s _ _ _ rfl h (towercand_verdict v hts hvs) fun t ht => ⟨ht, fun hen hcase => ?_, fun hen hdis => ?_⟩
  · exact shows_of (candConfigured_shows v c hen hcase) fun f => same_rd ht _ f h1 h2 h3
  · exact (same_rd ht _ _ h1 h2 h3).trans (candConfigured_missing v c hen hdis)

theorem towertable_sets (h : s.passes i .other (judgeTowertable i)) (hvs : getParams TTab.towertableParams false i = some vs) :
    let v := s.facing i .other
    let e := (v.wrParams (U.towerTable i.index) TTab.towertableParams vs).showPriorities
    s.does (.towertable i) i fun t => State.sameUnits i.th t (if i.index = v.towerN Tower.ACTIVE_TABLE_CFG then e.reselect true false else e) ∧
      (i.index ≠ v.towerN Tower.ACTIVE_TABLE_CFG → t.shows (U.towerTable i.index) TTab.towertableParams vs) := by
  intro v e
  have hts := elements_named h rfl
  have hlt := elements_lt hts i.index List.mem_cons_self
  obtain ⟨h1, h2, h3⟩ := unit_apart (u := U.towerTable i.index) (by simp only [U.towerTable]; omega) h.1
  have hv : (judgeTowertable i v).verdict = .act (if i.index = v.towerN Tower.ACTIVE_TABLE_CFG then e.reselect true false else e) := by
    simp only [judgeTowertable, hts, hvs, Option.getD_some, List.headD_cons, e]
  refine does_act _ i _ s _ _ _ rfl h hv fun t ht => ⟨ht, fun hne => ?_⟩
  rw [if_neg hne] at ht
  have hset : e.shows (U.towerTable i.index) TTab.towertableParams vs :=
    shows_of (wrParams_shows v _ _ vs (by decide)) fun f => prios_written _ _ f fun c hc => by simp only [U.towerTable, U.cand]; omega
  exact shows_of hset fun f => same_rd ht _ f h1 h2 h3

/-- The loop's settings and the active table as `towercfg` takes them, before the bandwidth in use and a new selection. -/
def loopConfigured (vs : List Int) (v : State) : State :=
  ((v.settlePending.wrParams U.tower Tower.towercfgParams vs).wr U.tower Tower.ACTIVE_TABLE
    (pv Tower.towercfgParams vs Tower.ACTIVE_TABLE_CFG)).showPriorities

def towerBandwidth (a : State) : State :=
  a.wr U.tower Tower.BW_EFF (if a.towerN Tower.SELECTED < 12 then a.bwEffCode (a.towerN Tower.SELECTED) else a.towerN Tower.BW)

theorem towercfg_verdict (v : State) (hvs : getParams Tower.towercfgParams false i = some vs) : (judgeTowercfg i v).verdict =
    .act (if pv Tower.towercfgParams vs Tower.ACTIVE_TABLE_CFG = v.tower Tower.ACTIVE_TABLE_CFG then towerBandwidth (loopConfigured vs v)
      else (towerBandwidth (loopConfigured vs v)).reselect true false) := by
  simp only [judgeTowercfg, hvs, Option.getD_some]
  rfl

theorem tower_ne_cand : ∀ c < 12, U.tower ≠ U.cand c := fun c hc => by
  simp only [U.tower, U.cand]
  omega

theorem loopConfigured_shows (v : State) : (towerBandwidth (loopConfigured vs v)).shows U.tower Tower.towercfgParams vs := by
  have hset := wrParams_shows v.settlePending U.tower Tower.towercfgParams vs (by decide)
  have htable : (loopConfigured vs v).shows U.tower Tower.towercfgParams vs :=
    shows_of (shows_wr1 _ _ _ _ Tower.ACTIVE_TABLE _ hset (by decide)) fun f => prios_written _ _ f tower_ne_cand
  exact shows_wr1 _ _ _ _ Tower.BW_EFF _ htable (by decide)

theorem loopConfigured_table (v : State) : (towerBandwidth (loopConfigured vs v)).rd U.tower Tower.ACTIVE_TABLE =
    Tower.ACTIVE_TABLE.norm (pv Tower.towercfgParams vs Tower.ACTIVE_TABLE_CFG) := by
  rw [towerBandwidth, State.rd_wr_ne _ _ _ _ _ _ (.inr (by decide)), loopConfigured, prios_written _ _ _ tower_ne_cand, State.rd_wr_same]

end

/-- Settles O31. -/
theorem towerConfigured : Obligations.TowerConfigured := by
  refine fun i s vs => ⟨fun c h hts hvs => towercand_sets h hts hvs, fun h _ hvs => towertable_sets h hvs, fun h hvs hkept => ?_,
    fun h hvs hnew => ?_⟩
  · obtain ⟨h1, h2, h3⟩ := tower_unit_ne i.th h.1
    refine does_act _ i _ s _ _ _ rfl h ((towercfg_verdict _ hvs).trans (by rw [if_pos hkept])) fun t ht => ⟨?_, ?_⟩
    · exact shows_of (loopConfigured_shows _) fun f => same_rd ht _ f h1 h2 h3
    · exact (same_rd ht _ _ h1 h2 h3).trans (loopConfigured_table _)
  · exact becomes_of rfl h ((towercfg_verdict _ hvs).trans (by rw [if_neg hnew]; rfl))

theorem ttcfg_sets {i : Issue} {s : State} {vs : List Int} {n : Nat} (h : s.passes i .other (judgeTtcfg i))
    (hts : targets i 0x45 (U.tt 0) 4 = some [n]) (hvs : getParams Tt.ttcfgParams false i = some vs) :
    s.does (.ttcfg i) i fun t => t.shows (U.tt n) Tt.ttcfgParams vs ∧ t.rd (U.tt n) Tt.phase = 0 ∧
      (pn Tt.ttcfgParams vs Tt.MODE ≠ 1 → t.rb (U.tt n) Tt.active = false) ∧
      t.rd (U.tt n) Tt.armed = (if pn Tt.ttcfgParams vs Tt.MODE = 1 then 1 else 0) := by
  let v := s.facing i .other
  have hlt := classOf_one i 0x45 _ 4 n classOf_tt hts
  obtain ⟨h1, h2, h3⟩ := unit_apart (u := U.tt n) (by simp only [U.tt]; omega) h.1
  have harmed : Tt.armed.norm (if pn Tt.ttcfgParams vs Tt.MODE = 1 then 1 else 0) = (if pn Tt.ttcfgParams vs Tt.MODE = 1 then 1 else 0) := by
    split <;> decide
  obtain ⟨hshows, hphase, hidle, harm⟩ := tt_eff v (v.wrParams (U.tt n) Tt.ttcfgParams vs) n vs _ v.nextId
    (v.rb (U.tt n) Tt.POLARITY != (pn Tt.ttcfgParams vs Tt.POLARITY == 1)) (wrParams_shows _ _ _ _ (by decide)) harmed (wrs_act v n vs) _ rfl
  refine does_act _ i _ s _ _ _ rfl h (by simp only [judgeTtcfg, hts, hvs, Option.getD_some, List.foldl_cons, List.foldl_nil]; rfl) fun t ht => ?_
  have hrd : ∀ f, t.rd (U.tt n) f = _ := fun f => same_rd ht _ f h1 h2 h3
  exact ⟨shows_of hshows hrd, (hrd _).trans hphase, fun hm => by rw [State.rb, hrd]; exact hidle hm, (hrd _).trans harm⟩

/-- Settles O32. -/
theorem clientsOutputsAndPairConfigured : Obligations.ClientsOutputsAndPairConfigured := by
  refine fun i s vs => ⟨fun n h hts hvs => becomes_of rfl h ?ptpcfg, fun n h hts hvs => ttcfg_sets h hts hvs,
    fun h hvs => becomes_of rfl h ?twincfg⟩
  case ptpcfg => simp only [judgePtpcfg, hts, hvs, Option.getD_some, List.foldl_cons, List.foldl_nil]
  case twincfg => simp only [judgeTwincfg, hvs, Option.getD_some]

theorem twin_apart {th : Nat} (hth : th < 64) : U.twin ≠ U.thread th ∧ U.twin ≠ U.crier ∧ U.twin ≠ U.host :=
  unit_apart (by simp only [U.twin]; omega) hth

/-- The state that `twinmark` leaves before the two outputs are shown anew. -/
def twinmarked (sub : Nat) (v : State) : State :=
  let b := (v.twSet Twin.DECIDE 0).markSuspect (bitAt sub 0) (bitAt sub 1)
  if bitAt sub 2 then b.twSet Twin.UNREPLICATED 0 else b

theorem twinmarked_rd {sub : Nat} (v : State) (u : Nat) (f : Field) (h : u ≠ U.twin ∨ (f.pos ≠ Twin.okOut.pos ∧ f.pos ≠ Twin.UNREPLICATED.pos)) :
    (twinmarked sub v).rd u f = ((v.twSet Twin.DECIDE 0).wr U.twin (if bitAt sub 0 then Twin.SUSPECT_PARTNER else Twin.SUSPECT_SELF)
      (if bitAt sub 1 then 1 else 0)).rd u f := by
  rw [← mark_rd _ _ _ u f (h.imp_right And.left), twinmarked]
  split
  · exact State.rd_wr_ne _ _ _ _ _ _ (h.imp_right And.right)
  · rfl

theorem twinmarked_unreplicated (sub : Nat) (v : State) :
    (twinmarked sub v).rd U.twin Twin.UNREPLICATED = if bitAt sub 2 then 0 else v.rd U.twin Twin.UNREPLICATED := by
  have hsuspect : Twin.UNREPLICATED.pos ≠ (if bitAt sub 0 then Twin.SUSPECT_PARTNER else Twin.SUSPECT_SELF).pos := by split <;> decide
  unfold twinmarked
  split
  · exact (State.rd_wr_same _ _ _ _).trans (by decide)
  · rw [mark_rd _ _ _ _ _ (.inr (by decide)), State.rd_wr_ne _ _ _ _ _ _ (.inr hsuspect)]
    exact State.rd_wr_ne _ _ _ _ _ _ (.inr (by decide))

theorem twinmark_sets {i : Issue} {s : State} {c : Instr} (hc : judged c = some (i, .other, judgeTwinmark i)) (h : s.passes i .other (judgeTwinmark i)) :
    s.does c i fun t => t.rd U.twin Twin.DECIDE = 0 ∧
      t.rd U.twin (if bitAt i.sub 0 then Twin.SUSPECT_PARTNER else Twin.SUSPECT_SELF) = (if bitAt i.sub 1 then 1 else 0) ∧
      t.rd U.twin Twin.UNREPLICATED = (if bitAt i.sub 2 then 0 else (s.after i.dt).rd U.twin Twin.UNREPLICATED) ∧
      ∀ u f, u ≠ U.thread i.th → u ≠ U.crier → u ≠ U.host → u ≠ U.twin → t.rd u f = (s.after i.dt).rd u f := by
  obtain ⟨h1, h2, h3⟩ := twin_apart h.1
  have hplace : ∀ b : Bool, (if b then Twin.SUSPECT_PARTNER else Twin.SUSPECT_SELF).pos ≠ Twin.okOut.pos ∧
      (if b then Twin.SUSPECT_PARTNER else Twin.SUSPECT_SELF).pos ≠ Twin.UNREPLICATED.pos ∧
      Twin.DECIDE.pos ≠ (if b then Twin.SUSPECT_PARTNER else Twin.SUSPECT_SELF).pos := by decide
  obtain ⟨hok, hun, hdec⟩ := hplace (bitAt i.sub 0)
  refine does_act c i _ s (twinmarked i.sub (s.facing i .other)) _ _ hc h rfl fun t ht => ⟨?_, ?_, ?_, fun u f u1 u2 u3 hu => ?_⟩
  · rw [same_rd ht _ _ h1 h2 h3, twinmarked_rd _ _ _ (.inr (by decide)), State.rd_wr_ne _ _ _ _ _ _ (.inr hdec), State.twSet, State.rd_wr_same]
    decide
  · rw [same_rd ht _ _ h1 h2 h3, twinmarked_rd _ _ _ (.inr ⟨hok, hun⟩), State.rd_wr_same]
    cases bitAt i.sub 0 <;> cases bitAt i.sub 1 <;> decide
  · rw [same_rd ht _ _ h1 h2 h3, twinmarked_unreplicated, facing_unit s i _ _ _ h1 h2 h3]
  · rw [same_rd ht u f u1 u2 u3, twinmarked_rd _ u f (.inl hu), State.rd_wr_ne _ _ _ _ _ _ (.inl hu), State.twSet,
      State.rd_wr_ne _ _ _ _ _ _ (.inl hu), facing_unit s i _ u f u1 u2 u3]

theorem setTarget_ne (v : State) (n : Nat) (f : Field)
    (h : f.pos ∉ [Harv.target.pos, Harv.late.pos, Harv.ARMED_T_S.pos, Harv.ARMED_T_NS.pos]) :
    (v.setTarget n).rd U.harvest f = v.rd U.harvest f := by
  have hwrs : ∀ a b c d : Int, (State.wrs v U.harvest [(Harv.target, a), (Harv.late, b), (Harv.ARMED_T_S, c), (Harv.ARMED_T_NS, d)]).rd U.harvest f =
      v.rd U.harvest f := fun a b c d => State.wrs_ne _ _ _ _ f fun e he hp => h (by
    simp only [List.mem_cons, List.not_mem_nil, or_false] at he
    rcases he with rfl | rfl | rfl | rfl <;> simp [hp])
  have hcount : ∀ (late : Bool) (x : State), (if late then x.count U.harvest Ctr.Harv.HARVEST_LATE else x).rd U.harvest f = x.rd U.harvest f :=
    fun late x => by cases late <;> rfl
  exact (hcount _ _).trans (hwrs _ _ _ _)

/-- An armed capture shows its trigger, whatever its target. -/
theorem armHarvest_shows (v : State) (t trigger n : Nat) (htr : trigger < 4) : (v.armHarvest t trigger n).rd U.harvest Harv.ARMED = 1 ∧
    (v.armHarvest t trigger n).rd U.harvest Harv.ARMED_TRIGGER = (trigger : Nat) := by
  let s1 := v.supersedeHarvest.wrs U.harvest [(Harv.ARMED, 1), (Harv.ARMED_TRIGGER, trigger), (Harv.ARMED_T_S, 0),
    (Harv.ARMED_T_NS, 0), (Harv.target, 0), (Harv.late, 0)]
  have hsame : ∀ f : Field, f.pos ∉ [Harv.target.pos, Harv.late.pos, Harv.ARMED_T_S.pos, Harv.ARMED_T_NS.pos] →
      (v.armHarvest t trigger n).rd U.harvest f = s1.rd U.harvest f := fun f hf => by
    unfold State.armHarvest
    split
    · exact setTarget_ne s1 _ f hf
    · split
      · exact setTarget_ne s1 _ f hf
      · rfl
  constructor
  · rw [hsame _ (by decide), wrs_at _ _ _ Harv.ARMED 1 List.mem_cons_self (by simp [Harv.ARMED, Harv.ARMED_TRIGGER, Harv.ARMED_T_S, Harv.ARMED_T_NS, Harv.target, Harv.late])]
    decide
  · rw [hsame _ (by decide), wrs_at _ _ _ Harv.ARMED_TRIGGER trigger (List.mem_cons_of_mem _ List.mem_cons_self) (by simp [Harv.ARMED, Harv.ARMED_TRIGGER, Harv.ARMED_T_S, Harv.ARMED_T_NS, Harv.target, Harv.late]), norm_natCast rfl htr]

/-- Settles O33. -/
theorem marksAndHarvestArmed : Obligations.MarksAndHarvestArmed := by
  constructor
  · rintro i s c (rfl | rfl) h <;> exact twinmark_sets rfl h
  · intro i s v h
    obtain ⟨h1, h2, h3⟩ := unit_apart (u := U.harvest) (.inr (.inl (by decide))) h.1
    obtain ⟨harmed, htrigger⟩ := armHarvest_shows v i.th (i.sub % 4) _ (Nat.mod_lt _ (by decide))
    exact does_act _ i _ s _ _ _ rfl h rfl fun t ht =>
      ⟨(same_rd ht _ _ h1 h2 h3).trans harmed, (same_rd ht _ _ h1 h2 h3).trans htrigger, ht⟩

end Sys2Proof.Laws
end

section
/-!
The loads and the image instructions (O34): each begins a BACKGROUND operation with its words, or acts at once where it names the other device alone.
-/
namespace Sys2Proof.Laws
open Sys2Proof Sys2Proof.Machine

section
variable {i : Issue} {s : State}

/-- A BACKGROUND operation of thread `i.th` stands in the list with what was started. -/
theorem awaits_of {c : Instr} {e : State} {f : State → Judged} {op ix sub due : Nat} {l : List Int} (hc : judged c = some (i, .other, f))
    (h : s.passes i .other f) (hv : (f (s.facing i .other)).verdict = .start e op ix sub l due) :
    s.does c i fun t => State.sameUnits i.th t e ∧ ∃ b ∈ t.bg, b.th = i.th ∧ b.op = op ∧ b.index = ix ∧ b.sub = sub ∧ b.vals = l :=
  does_start c i _ s e f op ix sub l due hc h hv

theorem lutload_verdict (v : State) {l : Nat} (hts : targets i 0x11 (U.gran 0) 128 = some [l]) : (judgeLutload i v).verdict =
    .start ((v.wake (U.gran l)).wr (U.gran l) (lutStateF (i.sub % 2)) 1) 0xC2 l (i.sub % 2) [((i.params.headD 0).toNat : Int)] 0 := by
  simp only [judgeLutload, hts, Option.getD_some, List.headD_cons, List.foldl_cons, List.foldl_nil]

end

/-- Settles O34: each verdict splits on whether the instruction names this device, and `imgactivate` and `imgadvance` once more. -/
theorem loadsBegin : Obligations.LoadsBegin := by
  intro i s v named words becomes awaits
  have hwords : words.drop 1 = (i.params.drop 1).map fun w => (w.toNat : Int) := List.map_drop.symm
  have hother : named = false → (!named) = true := fun hn => by rw [hn]; rfl
  have hthis : named = true → ¬ (!named) = true := fun hn => by rw [hn]; decide
  refine ⟨fun h => awaits_of rfl h rfl, fun h => awaits_of rfl h rfl, fun l h hts => awaits_of rfl h (lutload_verdict v hts),
    fun h => ⟨fun hn => becomes_of rfl h (if_neg (Bool.eq_false_iff.1 hn)), fun hn => ?imgload⟩,
    fun h => ⟨fun hn => becomes_of rfl h (if_neg (Bool.eq_false_iff.1 hn)), fun hn => ?settings⟩,
    fun recoveryN pMin pMax env h => ⟨fun hn => ?otherOnly, fun hn hrec => ?recovery, fun hn hrec => ?activate⟩,
    fun h => becomes_of rfl h rfl,
    fun h => ⟨fun hn => ?otherFuses, fun hn hsvn => ?blown, fun hn hsvn => ?blow⟩⟩
  case imgload =>
    rw [hwords]
    exact awaits_of rfl h (if_pos hn)
  case settings =>
    rw [hwords]
    refine awaits_of (due := v.clk) rfl h ((if_pos hn).trans ?_)
    rw [List.map_map]
    rfl
  case otherOnly => exact becomes_of rfl h (if_pos (hother hn))
  case recovery => exact becomes_of rfl h ((if_neg (hthis hn)).trans (if_pos (beq_iff_eq.2 hrec)))
  case activate => exact awaits_of rfl h ((if_neg (hthis hn)).trans (if_neg fun hb => hrec (beq_iff_eq.1 hb)))
  case otherFuses => exact becomes_of rfl h (if_pos (hother hn))
  case blown => exact becomes_of rfl h ((if_neg (hthis hn)).trans (if_pos hsvn))
  case blow => exact awaits_of rfl h ((if_neg (hthis hn)).trans (if_neg (Nat.not_le.2 hsvn)))

end Sys2Proof.Laws
end

section
/-!
Queries (O35), the settings of another thread (O36), and ENABLE of units with the opcodes that are refused (O37).
-/
namespace Sys2Proof.Laws
open Sys2Proof Sys2Proof.Machine

section
variable {i : Issue} {s : State}

theorem gget_of_gregs {a b : State} (h : a.gregs = b.gregs) (t r : Nat) : a.gget t r = b.gget t r := by
  rw [State.gget, h, State.gget]

/-- A query that puts one word into a register of its thread and leaves the others. -/
theorem put_in_register {c : Instr} {e : State} {f : State → Judged} {r : Nat} {w : Word} (hc : judged c = some (i, .other, f))
    (h : s.passes i .other f) (hv : (f (s.facing i .other)).verdict = .act (e.gset i.th r w)) (he : e.gregs = s.gregs) :
    s.does c i fun t => t.gget i.th r = w ∧ ∀ n q, n ≠ i.th ∨ q % 16 ≠ r % 16 → t.gget n q = s.gget n q := by
  refine does_act c i _ s _ f _ hc h hv fun t ht => ⟨?_, fun n q hne => ?_⟩
  · rw [gget_of_gregs (gregs_of_same ht), gget_gset_same]
  · rw [gget_of_gregs (gregs_of_same ht), gset_ne _ _ _ _ _ _ hne, gget_of_gregs he]

theorem arcadeReads_head (x : State) (m a k : Nat) : (x.arcadeReads m a (k + 1)).1.headD 0 = (x.arcadeRead m a).1 := rfl

theorem rd_puts (h : s.passes i .other (judgeRd i)) (hn : i.qN ≠ 0) (hok : Machine.addrOk i.addr i.qN = true) :
    let a := (s.facing i .other).arcadeUse lampPort i.addr i.qN
    s.does (.rd i) i fun t => t.gget i.th i.qD = (a.arcadeRead lampPort i.addr).1 ∧
      ∀ n r, n ≠ i.th ∨ r % 16 ≠ i.qD % 16 → t.gget n r = s.gget n r := by
  intro a
  have hv : (judgeRd i (s.facing i .other)).verdict = .act ((a.arcadeReads lampPort i.addr i.qN).2.gset i.th i.qD
      ((a.arcadeReads lampPort i.addr i.qN).1.headD 0)) := by
    have hok' : (Machine.addrOk i.addr i.qN && i.qN != 0) = true := by simp [hok, hn]
    simp only [judgeRd, if_pos hok', a]
  obtain ⟨k, hk⟩ := Nat.exists_eq_succ_of_ne_zero hn
  rw [← arcadeReads_head a lampPort i.addr k, ← Nat.succ_eq_add_one, ← hk]
  exact put_in_register rfl h hv ((reads_gregs _ _ _ _).trans ((arcadeUse_gregs _ _ _ _).trans (State.facing_gregs s i .other)))

theorem arcadeRead_window (x : State) (m a : Nat) :
    (windowOf a = some 0 → (x.arcadeRead m a).1 = x.ldword ((a - 0x20000000) / 8)) ∧
      (windowOf a = some 1 → (x.arcadeRead m a).1 = BitVec.ofNat 64 (x.unitSpace (a - 0x40000000))) ∧
      (windowOf a = some 2 → (x.arcadeRead m a).1 = BitVec.ofNat 64 (x.entry ((a - 0x80000000) / 256) (a % 256 / 8))) := by
  refine ⟨fun h => ?_, fun h => ?_, fun h => ?_⟩ <;> simp only [State.arcadeRead, h]

theorem rdind_puts (h : s.passes i .other (judgeRdind i)) :
    let p := ((s.facing i .other).gget i.th i.xA).toNat
    s.does (.rdind i) i fun t => t.gget i.th i.xD = (((s.facing i .other).arcadeUse lampPort p 1).arcadeRead lampPort p).1 ∧
      ∀ n r, n ≠ i.th ∨ r % 16 ≠ i.xD % 16 → t.gget n r = s.gget n r := by
  intro p
  have hok : Machine.addrOk p 1 = true := by
    have hr := checks_hold h (.range, _) (List.mem_cons_of_mem _ List.mem_cons_self)
    simpa only [Bool.not_eq_eq_eq_not, Bool.not_false] using hr
  refine put_in_register rfl h ?_ ((read_gregs ((s.facing i .other).arcadeUse lampPort p 1) lampPort p).trans
    ((arcadeUse_gregs _ _ _ _).trans (State.facing_gregs s i .other)))
  simp only [judgeRdind, show Machine.addrOk ((s.facing i .other).gget i.th i.xA).toNat 1 = true from hok, if_true, p]

theorem rdtime_puts (h : s.passes i .other (judgeRdtime i)) (hD : i.xD < 15) : let v := s.facing i .other
    s.does (.rdtime i) i fun t => t.gget i.th i.xD = BitVec.ofNat 64 (v.nowS % 2 ^ 48 + v.nowSub % 2 ^ 16 * 2 ^ 48) ∧
      t.gget i.th (i.xD + 1) = BitVec.ofNat 64 (v.nowNs + v.milestone % 2 ^ 32 * 2 ^ 32) ∧
      ∀ n r, n ≠ i.th ∨ (r % 16 ≠ i.xD ∧ r % 16 ≠ i.xD + 1) → t.gget n r = s.gget n r := by
  intro v
  have hlow : i.xD % 16 = i.xD ∧ (i.xD + 1) % 16 = i.xD + 1 := by omega
  refine does_act _ i _ s _ _ _ rfl h rfl fun t ht => ⟨?_, ?_, fun n r hne => ?_⟩
  · rw [gget_of_gregs (gregs_of_same ht), gset_ne _ _ _ _ _ _ (.inr (by omega)), gget_gset_same]
  · rw [gget_of_gregs (gregs_of_same ht), gget_gset_same]
  · rw [gget_of_gregs (gregs_of_same ht), gset_ne _ _ _ _ _ _ (hne.imp_right fun hr => by omega),
      gset_ne _ _ _ _ _ _ (hne.imp_right fun hr => by omega), gget_of_gregs (State.facing_gregs s i .other)]

end

/-- Settles O35. -/
theorem queriesRead : Obligations.QueriesRead := by
  refine fun i s => ⟨fun h hn hok => ?_, rdind_puts, rdtime_puts⟩
  refine does_mono (rd_puts h hn hok) fun t ⟨hD, helse⟩ => ?_
  obtain ⟨hledger, hunits, hsheaf⟩ := arcadeRead_window ((s.facing i .other).arcadeUse lampPort i.addr i.qN) lampPort i.addr
  exact ⟨fun hw => hD.trans (hledger hw), fun hw => hD.trans (hunits hw), fun hw => hD.trans (hsheaf hw), helse⟩

theorem mem_eachTarget {ts : List Nat} {n : Nat} {x : Code × Bool} {f : Nat → Checks} (hn : n ∈ ts) (hx : x ∈ f n) : x ∈ eachTarget (some ts) f :=
  List.mem_cons_of_mem _ (List.mem_flatten.2 ⟨f n, List.mem_map.2 ⟨n, hn, rfl⟩, hx⟩)

section
variable {i : Issue} {s : State} {n : Nat}

/-- Another thread's registers are those the effect leaves. -/
theorem other_thread_rd {t e : State} (hn : n < 64) (hne : n ≠ i.th) (ht : State.sameUnits i.th t e) (f : Field) :
    t.rd (U.thread n) f = e.rd (U.thread n) f :=
  same_rd ht _ f (by simp only [U.thread]; omega) (by simp only [U.thread, U.crier]; omega) (by simp only [U.thread, U.host]; omega)

theorem thrcfg_other {action : Nat} (h : s.passes i .other (thrcfg i action)) (hts : targets i 0x30 (U.thread 0) 64 = some [n]) : n ≠ i.th := by
  have hlock := checks_hold h (.locked, _) (List.mem_append_right _ (hts ▸ mem_eachTarget List.mem_cons_self List.mem_cons_self))
  simp only [Bool.or_eq_false_iff, beq_eq_false_iff_ne] at hlock
  exact hlock.1.1

/-- The state that `thrcfg` puts its thread in. -/
def configuredState (action : Nat) (vs : List Int) : Int :=
  if action = 1 then thRunning else if pn Lamp.thrcfgParams vs Lamp.QUEUE = 15 then thIdle else thQueueWait

theorem thrcfg_verdict (v : State) {action : Nat} {vs : List Int} (hts : targets i 0x30 (U.thread 0) 64 = some [n])
    (hvs : getParams Lamp.thrcfgParams true i = some vs) :
    (thrcfg i action v).verdict = .act (v.configureThread n vs (configuredState action vs)) := by
  simp only [thrcfg, hts, hvs, Option.getD_some, List.foldl_cons, List.foldl_nil]
  rfl

/-- What a configured thread shows: its state, its settings, and its program counter at its entry. -/
theorem configured_shows (v : State) (vs : List Int) (st : Int) :
    let e := v.configureThread n vs st
    e.th n Lamp.STATE = Lamp.STATE.norm st ∧
      (∀ f ∈ [Lamp.PRIORITY, Lamp.PLAN, Lamp.QUEUE, Lamp.ENTRY, Lamp.REPORT], e.th n f = f.norm (pv Lamp.thrcfgParams vs f)) ∧
      e.th n Lamp.PC = Lamp.PC.norm (pv Lamp.thrcfgParams vs Lamp.ENTRY) ∧ e.th n Lamp.IN_ERRAND = 0 ∧ e.th n Lamp.TARGET = 0 := by
  intro e
  have hat : ∀ f w, (f, w) ∈ _ → e.th n f = f.norm w := fun f w hm =>
    (configure_rd v n vs st f).trans (wrs_at _ _ _ f w hm (by simp only [List.map_cons, List.map_nil]; decide))
  refine ⟨hat _ _ (by simp), fun f hf => ?_, hat _ _ (by simp), (hat _ 0 (by simp)).trans (by decide), (hat _ 0 (by simp)).trans (by decide)⟩
  simp only [List.mem_cons, List.not_mem_nil, or_false] at hf
  rcases hf with rfl | rfl | rfl | rfl | rfl <;> exact hat _ _ (by simp)

theorem thrcfg_sets {c : Instr} {action : Nat} {vs : List Int} (hc : judged c = some (i, .other, thrcfg i action))
    (h : s.passes i .other (thrcfg i action)) (hts : targets i 0x30 (U.thread 0) 64 = some [n])
    (hvs : getParams Lamp.thrcfgParams true i = some vs) :
    s.does c i fun t => t.th n Lamp.STATE = configuredState action vs ∧
      (∀ f ∈ [Lamp.PRIORITY, Lamp.PLAN, Lamp.QUEUE, Lamp.ENTRY, Lamp.REPORT], t.th n f = f.norm (pv Lamp.thrcfgParams vs f)) ∧
      t.th n Lamp.PC = Lamp.PC.norm (pv Lamp.thrcfgParams vs Lamp.ENTRY) ∧ t.th n Lamp.IN_ERRAND = 0 ∧ t.th n Lamp.TARGET = 0 := by
  have hn : n < 64 := classOf_one i 0x30 _ 64 n classOf_thread hts
  have hstate : Lamp.STATE.norm (configuredState action vs) = configuredState action vs := by
    unfold configuredState
    split
    · decide
    · split <;> decide
  obtain ⟨hst, hset, hpc, herr, htarget⟩ := configured_shows (n := n) (s.facing i .other) vs (configuredState action vs)
  refine does_act c i _ s _ _ _ hc h (thrcfg_verdict _ hts hvs) fun t ht => ?_
  have hrd : ∀ f, t.th n f = _ := fun f => other_thread_rd hn (thrcfg_other h hts) ht f
  exact ⟨(hrd _).trans (hst.trans hstate), fun f hf => (hrd f).trans (hset f hf), (hrd _).trans hpc, (hrd _).trans herr, (hrd _).trans htarget⟩

theorem thrstop_sets (h : s.passes i .other (judgeThrstop i)) (hts : targets i 0x30 (U.thread 0) 64 = some [n]) :
    s.does (.thrstop i) i fun t => n ≠ i.th ∧
      (s.th n Lamp.STATE = thIdle ∨ s.th n Lamp.STATE = thFault → t.th n Lamp.STATE = s.th n Lamp.STATE) ∧
      (s.th n Lamp.STATE ≠ thIdle → s.th n Lamp.STATE ≠ thFault → (s.facing i .other).inErrand n = false → t.th n Lamp.STATE = thHalted) ∧
      (s.th n Lamp.STATE ≠ thIdle → s.th n Lamp.STATE ≠ thFault → (s.facing i .other).inErrand n = true →
        t.th n Lamp.stopAtEnd = 1 ∧ t.th n Lamp.STATE = s.th n Lamp.STATE) := by
  let v := s.facing i .other
  have hn : n < 64 := classOf_one i 0x30 _ 64 n classOf_thread hts
  have hne : n ≠ i.th := by
    have hlock := checks_hold h (.locked, _) (List.mem_cons_of_mem _ (hts ▸ mem_eachTarget List.mem_cons_self List.mem_cons_self))
    exact beq_eq_false_iff_ne.1 hlock
  have hv : (judgeThrstop i v).verdict = .act (v.stopThread n) := by
    simp only [judgeThrstop, hts, Option.getD_some, List.foldl_cons, List.foldl_nil]
  have hst : v.th n Lamp.STATE = s.th n Lamp.STATE := State.facing_rd s i .other _ _ (.inr (by decide))
  refine does_act _ i _ s _ _ _ rfl h hv fun t ht => ?_
  have hrd : ∀ f, t.th n f = (v.stopThread n).rd (U.thread n) f := fun f => other_thread_rd hn hne ht f
  have hrest : ∀ f, s.th n Lamp.STATE ≠ thIdle → s.th n Lamp.STATE ≠ thFault →
      t.th n f = (if v.inErrand n then v.setTh n Lamp.stopAtEnd 1 else v.halt n).rd (U.thread n) f := fun f h1 h2 => by
    rw [hrd, State.stopThread, if_neg (by rw [hst]; exact fun h => h.elim h1 h2)]
  refine ⟨hne, fun hidle => ?_, fun h1 h2 hin => ?_, fun h1 h2 hin => ⟨?_, ?_⟩⟩
  · rw [hrd, State.stopThread, if_pos (by rw [hst]; exact hidle)]
    exact hst
  · rw [hrest _ h1 h2, if_neg (by rw [show v.inErrand n = false from hin]; exact Bool.false_ne_true)]
    exact (halt_upd v n hn).1
  · rw [hrest _ h1 h2, if_pos hin, State.setTh, State.rd_wr_same]
    decide
  · rw [hrest _ h1 h2, if_pos hin, State.setTh, State.rd_wr_ne _ _ _ _ _ _ (.inr (by decide))]
    exact hst

end

/-- Settles O36. -/
theorem threadsConfigured : Obligations.ThreadsConfigured := by
  constructor
  · rintro i s c action n vs (⟨rfl, rfl⟩ | ⟨rfl, rfl⟩) ps h hts hvs <;> exact thrcfg_sets rfl h hts hvs
  · exact fun i s n h hts => thrstop_sets h hts

/-- FORMAT is the first failing code of a list whose first check is FORMAT and fails, unless an INTEGRITY check fails too (R20). -/
theorem firstFail_format {l : Checks} (h : (Code.integrity, true) ∉ l) : firstFail ((.format, true) :: l) = some .format := by
  have hfirst : ∀ d : Code, d.order < Code.format.order → d = .integrity := by
    intro d
    cases d <;> decide
  simp only [firstFail, if_true]
  cases hl : firstFail l with
  | none => rfl
  | some d =>
    have hd : ¬ d.order < Code.format.order := fun hlt => h (hfirst d hlt ▸ firstFail_mem l d hl)
    simp only [if_neg hd]

theorem unlistedOpcode_refused {i : Issue} {s : State} (hth : i.th < 64) (hown : s.servesOwn i) (hrun : s.th i.th Lamp.STATE = thRunning) :
    ∃ t, exec (.unlistedOpcode i) s = .next t ∧ t.pget i.th 0 = false ∧ State.sameUnits i.th t (s.after i.dt) ∧
      ((s.facing i .other).rb (U.thread i.th) Lamp.past = false → t.th i.th Lamp.LAST_CODE = Code.format.num) := by
  have hfirst := firstFail_format (commonChecks_integrity (s.facing i .other) i.th)
  obtain ⟨hp, hrest⟩ := State.issue_fails s i .other judgeUnlistedOpcode .format hth hown hrun hfirst
  obtain ⟨hsame, hcode⟩ := hrest (by decide)
  exact ⟨_, exec_judged _ i .other judgeUnlistedOpcode s rfl, hp, hsame, hcode rfl⟩

theorem unitcfg_verdict {i : Issue} (v : State) {ts : List Nat} (hts : unitcfgTargets i.index = some ts) (hsub : i.sub < 2) :
    (judgeUnitcfg i v).verdict = .act (ts.foldl (fun a u => if i.sub = 0 then (a.wr u unitEnableF 0).powerOff u
      else if a.unitEnabled u || U.gated u then a.wr u unitEnableF 1 else (a.wr u unitEnableF 1).setUnitState u stReady) v) := by
  obtain h0 | h1 : i.sub = 0 ∨ i.sub = 1 := by omega
  · simp only [judgeUnitcfg, hts, h0, Option.getD_some, Nat.reduceBEq, Bool.false_eq_true, if_false, if_true]
  · simp only [judgeUnitcfg, hts, h1, Option.getD_some, BEq.rfl, if_true, Nat.one_ne_zero, if_false]

/-- Settles O37. -/
theorem unitsEnabledAndOpcodesRefused : Obligations.UnitsEnabledAndOpcodesRefused := by
  refine ⟨fun i s ts h hts => becomes_of rfl h (unitcfg_verdict _ hts ?_), fun i s => unlistedOpcode_refused⟩
  have hf := checks_hold h (.format, _) List.mem_cons_self
  simp only [Bool.or_eq_false_iff, decide_eq_false_iff_not] at hf
  omega

end Sys2Proof.Laws
end

section
/-!
The command codes of the host port (O38): each acts while the port heeds the bus, and lets the time pass while it does not.
-/
namespace Sys2Proof.Laws
open Sys2Proof Sys2Proof.Machine

section
variable {dt : Nat} {s : State}

/-- A command of the port acts where the port heeds the bus. -/
theorem port_heeds {w x t : State} (h : w.portHears = true) (hx : x = t) : (.next (if w.portHears then x else w) : Res) = .next t := by
  rw [if_pos h, hx]

theorem port_ignores {w x : State} (h : w.portHears = false) : (.next (if w.portHears then x else w) : Res) = .next w := by
  rw [if_neg (Bool.eq_false_iff.1 h)]

/-- ENTDAA and SETDASA take an address only where the device has none, SETNEWDA only where it has one. -/
theorem addresses_without (h : (s.after dt).portHears = true) (ha : (s.after dt).rb U.host Hostp.DYN_ADDR = false) (a : Nat) :
    let w := s.after dt
    let t := (w.wr U.host Hostp.DYN_ADDR a).wr U.host Hostp.MODE (if a % 128 = 0 then 0 else 1)
    exec (.entdaa dt a) s = .next t ∧ exec (.setdasa dt a) s = .next t ∧ exec (.setnewda dt a) s = .next w := by
  have hno : ¬ (s.after dt).rb U.host Hostp.DYN_ADDR = true := Bool.eq_false_iff.1 ha
  exact ⟨port_heeds h (if_neg hno), port_heeds h (if_neg hno), port_heeds h (if_neg hno)⟩

theorem addresses_with (h : (s.after dt).portHears = true) (ha : (s.after dt).rb U.host Hostp.DYN_ADDR = true) (a : Nat) :
    exec (.entdaa dt a) s = .next (s.after dt) ∧ exec (.setdasa dt a) s = .next (s.after dt) ∧
      exec (.setnewda dt a) s = .next ((s.after dt).wr U.host Hostp.DYN_ADDR a) :=
  ⟨port_heeds h (if_pos ha), port_heeds h (if_pos ha), port_heeds h (if_pos ha)⟩

theorem rstact_acts (h : (s.after dt).portHears = true) (a : Nat) :
    let w := s.after dt
    exec (.rstact dt a true) s = .next (w.answer 1 (w.rn U.host Hostp.action)) ∧
      exec (.rstact dt a false) s = .next (if a = 0 then w.wr U.host Hostp.action 0 else if a ≤ 2 then w.wr U.host Hostp.action 1 else w) :=
  ⟨port_heeds h rfl, port_heeds h rfl⟩

/-- GETSTATUS answers the number of pending interrupts, at most 15, and the protocol error flag. -/
theorem getstatus_answers (h : (s.after dt).portHears = true) : let w := s.after dt
    ∃ n, n ≤ 15 ∧ exec (.getstatus dt) s =
      .next ((w.wr U.host Hostp.protoErr 0).answer 2 (n + if w.rb U.host Hostp.protoErr then 32 else 0)) :=
  ⟨_, Nat.min_le_right _ 15, port_heeds h rfl⟩

/-- An unsupported broadcast code is counted, and outside the range of the HDR modes it changes nothing else. -/
theorem cccUnsupported_counts (h : (s.after dt).portHears = true) (c : Nat) (hc : c < 0x21 ∨ 0x27 < c) :
    exec (.cccUnsupported dt c false) s = .next ((s.after dt).hostBad Ctr.HostP.CCC_UNSUPPORTED evHostCcc) := by
  have hrange : ¬ (0x21 ≤ c ∧ c ≤ 0x27) := by omega
  exact port_heeds h (if_neg hrange)

/-- A port that ignores the bus lets the time pass. -/
theorem codes_ignored (h : (s.after dt).portHears = false) : ∀ c ∈ [Instr.rstdaa dt, .enthdr0 dt, .getmwl dt, .getmrl dt, .getpid dt, .getbcr dt,
    .getdcr dt, .getstatus dt, .getmxds dt, .getcaps dt, .unknownCommand dt], exec c s = .next (s.after dt) := by
  intro c hc
  simp only [List.mem_cons, List.not_mem_nil, or_false] at hc
  rcases hc with rfl | rfl | rfl | rfl | rfl | rfl | rfl | rfl | rfl | rfl | rfl <;> exact port_ignores h

end

/-- Settles O38. -/
theorem busCodesAct : Obligations.BusCodesAct := by
  intro dt s w h
  refine ⟨fun hears => ⟨fun e => port_heeds hears rfl, fun e => port_heeds hears rfl, port_heeds hears rfl,
    fun a ha => addresses_without hears ha a, fun a ha => addresses_with hears ha a, fun n => port_heeds hears rfl, fun n => port_heeds hears rfl,
    port_heeds hears rfl, rstact_acts hears, port_heeds hears rfl, port_heeds hears rfl, port_heeds hears rfl, port_heeds hears rfl,
    port_heeds hears rfl, port_heeds hears rfl, port_heeds hears rfl, getstatus_answers hears, cccUnsupported_counts hears,
    fun c => port_heeds hears rfl⟩, rfl, codes_ignored⟩

end Sys2Proof.Laws
end

section
/-!
The transfers, queues and interrupts of the host port (O39).
-/
namespace Sys2Proof.Laws
open Sys2Proof Sys2Proof.Machine

section
variable {dt : Nat} {s : State}

/-! ### Errands -/

theorem port_hears_not {w : State} (h : w.portHears = true) : ¬ (!w.portHears) = true := by
  rw [h]
  decide

/-- A transfer to a queue of this device without a bus error. -/
theorem errand_transfer {q : Nat} {bytes : List Byte} (h : (s.after dt).portHears = true) (hq : q ≤ 7) (hlen : 2 ≤ bytes.length)
    (hs : ((s.after dt).count U.host Ctr.HostP.WRITES).serves q = true) : let c := (s.after dt).count U.host Ctr.HostP.WRITES
    let ws := bytesToWords bytes
    exec (.errand dt q bytes none) s = .next (if ringWords < c.wordsQueued q + hLength (ws.headD 0) then c.hostBad Ctr.HostP.QUEUE_FULL evHostQueueFull
      else if c.replyRoom q < 3 then c.hostBad Ctr.HostP.REPLY_FULL evHostReplyFull
      else c.receiveErrand q 0 ws (bytes.length % 8 == 0)) := by
  show execErrand dt q bytes none s = _
  have hq' : ¬ 7 < q := by omega
  have hlen' : ¬ bytes.length < 2 := by omega
  simp only [execErrand, State.errandTransfer, h, hs, hq', hlen', decide_false, decide_eq_true_eq, Bool.not_true, Bool.or_self, Bool.false_or,
    Bool.false_eq_true, if_false, Option.isSome_none]

theorem errandPartner_sent {bytes : List Byte} (h : (s.after dt).portHears = true)
    (hint : integrityBad (bytesToWords bytes) (bytes.length % 8 == 0) = false) (hqueue : hQueue ((bytesToWords bytes).headD 0) = 8) :
    let c := (s.after dt).count U.host Ctr.HostP.WRITES
    c.alleyUp = true → c.rn U.twin Twin.ROLE ≠ 0 → c.serves 8 = true → exec (.errandPartner dt bytes none) s =
      .next (c.alleySend 4 (BitVec.ofNat 64 8 :: BitVec.ofNat 64 c.nowS :: BitVec.ofNat 64 c.nowNs :: bytesToWords bytes)) := by
  intro c hup hrole hserves
  show execErrandPartner dt bytes none s = _
  have hrefused : (!c.alleyUp || c.rn U.twin Twin.ROLE == 0 || !c.serves 8) = false := by
    rw [hup, hserves, beq_eq_false_iff_ne.2 hrole]
    rfl
  have hformat : (hQueue ((bytesToWords bytes).headD 0) != 8) = false := by rw [hqueue]; rfl
  simp only [c] at hrefused
  simp only [execErrandPartner, if_neg (port_hears_not h), hint, hformat, hrefused, Option.isSome_none, Bool.or_self, Bool.false_eq_true, if_false, c]

/-! ### Addresses and registers -/

theorem hostAddr_of_eight {bytes : List Byte} (hlen : bytes.length = 8) (hw : ((bytesToWords bytes).headD 0).toNat / 2 ^ 40 = 0) :
    hostAddr bytes = some ((bytesToWords bytes).headD 0).toNat := by
  have htake : bytes.take 8 = bytes := List.take_of_length_le (by omega)
  simp only [hostAddr, htake, hw, hlen]
  rfl

theorem setaddr_sets {bytes : List Byte} (h : (s.after dt).portHears = true) (hlen : bytes.length = 8)
    (hw : ((bytesToWords bytes).headD 0).toNat / 2 ^ 40 = 0) :
    exec (.setaddr dt bytes none) s = .next ((((s.after dt).count U.host Ctr.HostP.WRITES).wr U.host Hostp.addr
      ((bytesToWords bytes).headD 0).toNat).wr U.host Hostp.addrAt (s.after dt).clk) := by
  show execSetaddr dt bytes none s = _
  simp only [execSetaddr, hostAddr_of_eight hlen hw, if_neg (port_hears_not h), hlen, if_true, Option.isSome_none, Bool.false_eq_true, if_false]
  rfl

theorem regwr_writes {bytes : List Byte} {p : Nat} (h : (s.after dt).portHears = true) (hp : hostAddr bytes = some p)
    (hwhole : (bytes.drop 8).length % 8 = 0) (hsome : bytes.drop 8 ≠ []) (hmax : (bytes.drop 8).length ≤ 4096) (halign : p % 8 = 0)
    (hwin : windowOf p = some 1) : exec (.regwr dt bytes none) s =
      .next ((((s.after dt).count U.host Ctr.HostP.WRITES).arcadeUse (U.master 2) p ((bytes.drop 8).length / 8)).writeWords p
        (bytesToWords (bytes.drop 8))) := by
  show execRegwr dt bytes none s = _
  have hform : ¬ ((bytes.drop 8).length % 8 ≠ 0 ∨ bytes.drop 8 = [] ∨ 4096 < (bytes.drop 8).length) := by
    rintro (h1 | h2 | h3)
    · exact h1 hwhole
    · exact hsome h2
    · omega
  have hplace : ¬ (p % 8 ≠ 0 ∨ windowOf p ≠ some 1) := fun hbad => hbad.elim (fun h1 => h1 halign) fun h2 => h2 hwin
  simp only [execRegwr, hp, if_neg (port_hears_not h), if_neg hform, if_neg hplace, Option.isSome_none, Bool.false_eq_true, if_false]

/-- A read, with what `hostWords` reads for it, and the bytes put before it where it came too early. -/
theorem read_sends {n : Nat} {hdr : Bool} (h : (s.after dt).portHears = true) {ws : List Word} {y : State} {bad : Bool} :
    let w := s.after dt
    let a := w.rn U.host Hostp.addr
    let len := min n (w.rn U.host Hostp.MRL)
    ((w.count U.host Ctr.HostP.READS).arcadeUse (U.master 2) a ((len + 7) / 8)).hostWords a a ((len + 7) / 8) = (ws, y, bad) →
    let z := if bad then y.hostBad Ctr.HostP.BAD_ADDR evHostBadAddr else y
    let early := hdr = false ∧ (windowOf a = some 0 ∨ windowOf a = some 3) ∧ w.clk < w.rn U.host Hostp.addrAt + 2 * Config.us
    (¬ early → exec (.read dt n hdr) s = .next (z.emit (.host ((wordsToBytes ws).take len)))) ∧
      (early → let r := (z.hostBad Ctr.HostP.EARLY_READS 0).free (len + 1)
        exec (.read dt n hdr) s = .next (r.2.emit (.host ((List.replicate r.1 (0xFF : Byte) ++ wordsToBytes ws).take len)))) := by
  intro w a len hread z early
  let tooEarly : Bool := !hdr && (windowOf a == some 0 || windowOf a == some 3) && decide (w.clk < w.rn U.host Hostp.addrAt + 2 * Config.us)
  have hearly : tooEarly = true ↔ early := by
    simp only [tooEarly, early, Bool.and_eq_true, Bool.or_eq_true, Bool.not_eq_true', beq_iff_eq, decide_eq_true_eq, and_assoc]
  have hexec : exec (.read dt n hdr) s = .next (
      let r := if tooEarly then (z.hostBad Ctr.HostP.EARLY_READS 0).free (len + 1) else (0, z)
      r.2.emit (.host ((List.replicate r.1 (0xFF : Byte) ++ wordsToBytes ws).take len))) := by
    show execRead dt n hdr s = _
    have hread' : ((((s.after dt).count U.host Ctr.HostP.READS).arcadeUse (U.master 2)
      (((s.after dt).count U.host Ctr.HostP.READS).rn U.host Hostp.addr) ((min n (((s.after dt).count U.host Ctr.HostP.READS).rn U.host Hostp.MRL) + 7) / 8)).hostWords
      (((s.after dt).count U.host Ctr.HostP.READS).rn U.host Hostp.addr) (((s.after dt).count U.host Ctr.HostP.READS).rn U.host Hostp.addr)
      ((min n (((s.after dt).count U.host Ctr.HostP.READS).rn U.host Hostp.MRL) + 7) / 8)) = (ws, y, bad) := hread
    simp only [execRead, hread', if_neg (port_hears_not h)]
    rfl
  refine ⟨fun hno => ?_, fun hyes => ?_⟩
  · rw [hexec, if_neg fun ht => hno (hearly.1 ht)]
    rfl
  · rw [hexec, if_pos (hearly.2 hyes)]

/-! ### Single registers -/

/-- A write of a block that holds one writable register. -/
theorem writeBlock_one {x : State} {u : Nat} {f : Field} {w : Word} (hf : ((writable u).filter fun g => (placeOf u g).1 == (placeOf u f).1) = [f]) :
    x.writeBlock u (placeOf u f).1 w = x.writeField u f (bitsAt w.toNat ((placeOf u f).2 + f.width - 1) (placeOf u f).2) := by
  simp only [State.writeBlock, hf, List.foldl_cons, List.foldl_nil]

theorem writeAt_heeded {w : State} {u : Nat} {f : Field} {v : Word} (h : w.portHears = true) :
    w.writeAt u f v = ((w.count U.host Ctr.HostP.WRITES).arcadeUse (U.master 2) 0x40000000 1).writeBlock u (placeOf u f).1 v := by
  rw [State.writeAt, if_neg (port_hears_not h)]

theorem readPtr_writes (h : (s.after dt).portHears = true) (v : Word) : exec (.readPtr dt v) s =
    .next ((((s.after dt).count U.host Ctr.HostP.WRITES).arcadeUse (U.master 2) 0x40000000 1).writeReadPtr (bitsAt v.toNat 23 12)) := by
  show execReadPtr dt v s = _
  rw [execReadPtr, writeAt_heeded h, writeBlock_one (by decide)]
  rfl

theorem ibiMask_writes (h : (s.after dt).portHears = true) (v : Word) : exec (.ibiMask dt v) s =
    .next ((((s.after dt).count U.host Ctr.HostP.WRITES).arcadeUse (U.master 2) 0x40000000 1).wr U.host Hostp.IBI_MASK (bitsAt v.toNat 58 49)) := by
  show execIbiMask dt v s = _
  rw [execIbiMask, writeAt_heeded h, writeBlock_one (by decide)]
  rfl

theorem replyRdPtr_writes (h : (s.after dt).portHears = true) (q : Nat) (v : Word) (hq : q ≤ 8) : exec (.replyRdPtr dt q v) s =
    .next ((((s.after dt).count U.host Ctr.HostP.WRITES).arcadeUse (U.master 2) 0x40000000 1).writeReplyPtr q (bitsAt v.toNat 33 17)) := by
  show execReplyRdPtr dt q v s = _
  rw [execReplyRdPtr, if_neg (by omega), writeAt_heeded h]
  interval_cases q <;> (rw [writeBlock_one (by decide)]; rfl)

theorem ioSlew_writes (h : (s.after dt).portHears = true) (v : Word) : exec (.ioSlew dt v) s =
    .next (([Slew.TT, Slew.CLKOUT, Slew.STATUS, Slew.STOOK, Slew.QSPI].zip [0, 2, 4, 6, 8]).foldl
      (fun b e => if bitsAt v.toNat (e.2 + 1) e.2 = 3 then b else b.wr U.io e.1 (bitsAt v.toNat (e.2 + 1) e.2))
      (((s.after dt).count U.host Ctr.HostP.WRITES).arcadeUse (U.master 2) 0x40000000 1)) := by
  show execIoSlew dt v s = _
  have hfields : ((writable U.io).filter fun g => (placeOf U.io g).1 == (placeOf U.io Slew.TT).1) =
      [Slew.TT, Slew.CLKOUT, Slew.STATUS, Slew.STOOK, Slew.QSPI] := by decide
  rw [execIoSlew, writeAt_heeded h]
  simp only [State.writeBlock, hfields]
  rfl

/-! ### Resets and interrupts -/

theorem targetReset_resets (beats : Nat) (ha : (s.after dt).rn U.host Hostp.action = 1) : exec (.targetResetPattern dt beats) s =
    .next ((((s.after dt).wrs U.host [(Hostp.DYN_ADDR, 0), (Hostp.ENINT, 0), (Hostp.MRL, 4096), (Hostp.addr, 0), (Hostp.addrAt, 0),
      (Hostp.MODE, 0), (Hostp.ignoring, 0)]).drain (U.master 2) beats).hostBad Ctr.HostP.PORT_RESETS evHostTargetReset) :=
  congrArg Host.Outcome.next (if_neg fun hne => hne ha)

theorem ibiRequest_acts {src : Nat} (hsrc : (List.range 10).find? (bitAt ((s.after dt).rn U.host Hostp.IBI_PENDING)) = some src)
    (hen : (s.after dt).rb U.host Hostp.ENINT = true) (hdyn : (s.after dt).rb U.host Hostp.DYN_ADDR = true)
    (hnack : (s.after dt).rb U.host Hostp.nackAt = false) : let w := s.after dt
    exec (.ibiRequest dt true) s = .next ((((w.wr U.host Hostp.IBI_PENDING (clearBit (w.rn U.host Hostp.IBI_PENDING) src)).wr U.host Hostp.nackAt 0).count
      U.host Ctr.HostP.IBI_SENT).emit (.ibi src (w.ibiPayload src))) ∧
    exec (.ibiRequest dt false) s = .next ((w.wr U.host Hostp.nackAt (w.clk + 1)).hostBad Ctr.HostP.IBI_NACKED evHostIbiNack) := by
  constructor
  · show execIbiRequest dt true s = _
    simp only [execIbiRequest, hsrc, hen, hdyn, hnack, Bool.not_true, Bool.false_and, Bool.or_self, Bool.false_eq_true, if_false, if_true]
    rfl
  · show execIbiRequest dt false s = _
    simp only [execIbiRequest, hsrc, hen, hdyn, hnack, Bool.not_true, Bool.false_and, Bool.or_self, Bool.false_eq_true, if_false]

end

/-- Settles O39. -/
theorem hostTransfersAct : Obligations.HostTransfersAct := by
  intro dt s w h c x a
  refine ⟨fun hears => ⟨fun q bytes hq hlen hs => ⟨fun hfull => ?_, fun hroom hreply => ?_⟩, fun bytes hint hq => errandPartner_sent hears hint hq,
    fun bytes hlen hw => setaddr_sets hears hlen hw, fun bytes p hp h1 h2 h3 h4 h5 => regwr_writes hears hp h1 h2 h3 h4 h5,
    fun n hdr ws y bad => read_sends hears, readPtr_writes hears, fun q v hq => replyRdPtr_writes hears q v hq, ibiMask_writes hears,
    ioSlew_writes hears, port_heeds hears rfl⟩, targetReset_resets, fun src hsrc hen hdyn hnack => ibiRequest_acts hsrc hen hdyn hnack,
    fun hunread hptr hlast => congrArg Host.Outcome.next (if_pos ⟨hunread, hptr, hlast⟩)⟩
  · exact (errand_transfer hears hq hlen hs).trans (by rw [if_pos hfull])
  · exact (errand_transfer hears hq hlen hs).trans (by rw [if_neg (Nat.not_lt.2 hroom), if_neg (Nat.not_lt.2 hreply)])

end Sys2Proof.Laws
end

section
/-!
Effects that commit (O40): a configuration's element shows its parameters, and an effect with a unit in FAULT is dropped.
-/
namespace Sys2Proof.Laws
open Sys2Proof Sys2Proof.Machine

section
variable {s : State} {n : Int} {e : Staged} {op k sub : Nat} {vs : List Int} {u : Nat} {ps : List Param}

/-- The committed effect of a configuration leaves in its element what `commitCfg` leaves. -/
theorem commitOne_shows (he : e.eff = .cfg op k sub vs) (h55 : op ≠ 0x55) (hb : s.effectFault e = false)
    (hu : u < 33792 ∨ (33856 ≤ u ∧ u < 35586) ∨ 35589 ≤ u) (h : ∀ a : State, (a.commitCfg n op k sub vs).2.shows u ps vs) :
    (s.commitOne n e).shows u ps vs := by
  obtain ⟨-, hcrier, hhost⟩ := unit_apart (th := 0) hu (by decide)
  exact shows_of (h _) fun f => commitOne_rd s n e op k sub vs he h55 hb u f (by simp only [U.thread]; omega) hcrier hhost

theorem commitOne_of_fault (hb : s.effectFault e = true) :
    State.sameUnits e.th (s.commitOne n e) { s with staged := s.staged.filter (·.id != e.id) } := by
  unfold State.commitOne
  simp only [hb, if_true]
  exact State.closePart_same _ _ _ _

theorem commitKerbcfg_shows (a : State) (hk : k < 2304) : (a.commitKerbcfg k vs).shows (U.kerb k) Kerb.kerbcfgParams vs := by
  have hset := wrParams_shows a (U.kerb k) Kerb.kerbcfgParams vs (by decide)
  have hstate : ∀ q ∈ Kerb.kerbcfgParams, q.fld.pos ≠ Kerb.STATE.pos := by decide
  have hentered : ∀ b : State, b.shows (U.kerb k) Kerb.kerbcfgParams vs → (b.kerbEnter k kEmpty).shows (U.kerb k) Kerb.kerbcfgParams vs :=
    fun b hb p hp => (kerbEnter_rd b k _ hk (hstate _ (List.of_mem_zip hp).1)).trans (hb p hp)
  have hbufs : ∀ (b : State) f, ((b.setBuf (U.kerb k) kerbFifo []).setLines k 0 []).rd (U.kerb k) f = b.rd (U.kerb k) f := fun _ _ => rfl
  unfold State.commitKerbcfg
  simp only
  split
  · refine shows_of (shows_wrs _ _ _ _ _ (hentered _ hset) (by decide)) (hbufs _)
  · exact hset

theorem commitSigncfg_shows (a : State) : (a.commitSigncfg k vs).shows (U.sign k) Sign.signcfgParams vs := by
  have hset := wrParams_shows a (U.sign k) Sign.signcfgParams vs (by decide)
  unfold State.commitSigncfg
  simp only
  split
  · exact hset
  · exact shows_of hset fun f => followStop_rd _ _ (by simp only [U.sign, U.emb]; omega) _ _ _ _

theorem commitRxflow_shows (a : State) : (a.commitRxflow k vs).shows (U.rx k) Rx.rxflowParams vs := by
  have hset : ∀ o b : State, (State.seatRateMoved (1152 + pn Rx.rxflowParams vs Rx.SEAT) o (b.wrParams (U.rx k) Rx.rxflowParams vs)).shows
      (U.rx k) Rx.rxflowParams vs := fun o b =>
    shows_of (wrParams_shows b (U.rx k) Rx.rxflowParams vs (by decide)) fun f => seatRateMoved_rd _ _ _ _ _
  have hfresh : ∀ (fresh : Bool) (b : State), b.shows (U.rx k) Rx.rxflowParams vs → (if fresh then b.wrs (U.rx k)
      [(Rx.LEGS, 0), (Rx.legAt 0, 0), (Rx.legAt 1, 0), (Rx.accAt 0, 0), (Rx.accAt 1, 0), (Rx.lastAt, 0)] else b).shows (U.rx k) Rx.rxflowParams vs :=
    fun fresh b hb => by
      split
      · exact shows_wrs _ _ _ _ _ hb (by decide)
      · exact hb
  unfold State.commitRxflow
  simp only
  split
  · exact shows_wrs _ _ _ _ _ (hfresh _ _ (hset _ _)) (by simp only [List.map_cons, List.map_nil]; decide)
  · exact hfresh _ _ (hset _ _)

theorem commitFwdcfg_shows (a : State) : (a.commitFwdcfg k vs).shows (U.fwd k) Fwd.fwdcfgParams vs := by
  have hset := wrParams_shows a (U.fwd k) Fwd.fwdcfgParams vs (by decide)
  unfold State.commitFwdcfg
  simp only
  split
  · exact hset
  · split <;> exact shows_wrs _ _ _ _ _ hset (by simp only [List.map_cons, List.map_nil]; decide)

theorem retcfg_mirrors (he : e.eff = .cfg 0x56 k sub vs) (hb : s.effectFault e = false) (hk : k < 192) :
    (s.commitOne n e).rd (U.ret k) Ret.MIRROR = Ret.MIRROR.norm (vs.headD 0) := by
  obtain ⟨-, hcrier, hhost⟩ := unit_apart (u := U.ret k) (th := 0) (by simp only [U.ret]; omega) (by decide)
  rw [commitOne_rd s n e _ k sub vs he (by decide) hb _ _ (by simp only [U.ret, U.thread]; omega) hcrier hhost]
  exact State.rd_wr_same _ _ _ _

end

/-- Settles O40. -/
theorem committedSettingsStand : Obligations.CommittedSettingsStand := by
  refine fun s n e op k sub vs he => ⟨commitOne_of_fault, fun hb => ⟨?kerb, ?sign, ?tone, ?deemb, ?cs, ?lim, ?tap, ?rx, ?fwd, ?ret⟩⟩
  case kerb =>
    rintro rfl hk
    exact commitOne_shows he (by decide) hb (by simp only [U.kerb]; omega) fun a => commitKerbcfg_shows a hk
  case sign =>
    rintro rfl hk
    exact commitOne_shows he (by decide) hb (by simp only [U.sign]; omega) fun a => commitSigncfg_shows a
  case tone =>
    rintro rfl
    exact commitOne_shows he (by decide) hb (by simp only [U.tone]; omega) fun a => wrParams_shows a _ _ vs (by decide)
  case deemb =>
    rintro rfl hk
    exact commitOne_shows he (by decide) hb (by simp only [U.deemb]; omega) fun a =>
      shows_wrs _ _ _ _ _ (wrParams_shows a (U.deemb k) _ vs (by decide)) (by decide)
  case cs =>
    rintro rfl
    exact commitOne_shows he (by decide) hb (by simp only [U.slot]; omega) fun a =>
      shows_wr1 _ _ _ _ Slot.LAST_TICK n (wrParams_shows a (U.slot k) _ vs (by decide)) (by decide)
  case lim =>
    rintro rfl
    exact commitOne_shows he (by decide) hb (by simp only [U.slot]; omega) fun a =>
      shows_wr1 _ _ _ _ Slot.LAST_TICK n (wrParams_shows _ (U.slot k) _ vs (by decide)) (by decide)
  case tap =>
    rintro rfl hk
    exact commitOne_shows he (by decide) hb (by simp only [U.tap]; omega) fun a => wrParams_shows _ (U.tap k) _ vs (by decide)
  case rx =>
    rintro rfl hk
    exact commitOne_shows he (by decide) hb (by simp only [U.rx]; omega) fun a => commitRxflow_shows a
  case fwd =>
    rintro rfl hk
    exact commitOne_shows he (by decide) hb (by simp only [U.fwd]; omega) fun a => commitFwdcfg_shows a
  case ret =>
    rintro rfl hk
    exact retcfg_mirrors he hb hk

end Sys2Proof.Laws
end

section
/-!
Ticks, curfews, the end of a plan's slew and the ends of waits (O41), and the errands of a queue (O42).
-/
namespace Sys2Proof.Laws
open Sys2Proof Sys2Proof.Machine

section
variable {dt : Nat} {s : State}

/-- A step with a guard takes the branch that its guard selects. -/
theorem next_if_pos {p : Prop} [Decidable p] {a b t : State} (hp : p) (ha : a = t) : (.next (if p then a else b) : Res) = .next t := by
  rw [if_pos hp, ha]

theorem next_if_neg {p : Prop} [Decidable p] {a b t : State} (hp : ¬ p) (hb : b = t) : (.next (if p then a else b) : Res) = .next t := by
  rw [if_neg hp, hb]

theorem tick_enters {p : Nat} (hp : p < 16) (hon : (s.after dt).planOn p = true) :
    let w := s.after dt
    let n := w.tickAt p w.now
    w.rd (U.plan p) Plan.TICK < n → w.issuable p n ≤ n → w.unitState (U.plan p) ≠ stFault → exec (.tick dt p) s = .next (w.tickNow p n) := by
  intro w n hlater hmay hfault
  refine next_if_neg ?_ (if_neg hfault)
  rw [show (s.after dt).planOn p = true from hon]
  rintro (h | h | h | h)
  · omega
  · exact absurd h (by decide)
  · exact absurd hlater (not_lt.2 h)
  · exact absurd hmay (not_le.2 h)

theorem curfew_resolves {p : Nat} (hp : p < 16) (hon : (s.after dt).planOn p = true) :
    let w := s.after dt
    let n := w.tickAt p ((w.now : Int) + curfewLead)
    w.unitState (U.plan p) ≠ stFault → w.rd (U.plan p) Plan.resolved ≤ n → w.rd (U.plan p) Plan.TICK < n → w.followsDecisions = false →
      w.sendsDecisions = false → let r := w.resolveNew p n
      exec (.curfewResolution dt p) s =
        .next (r.setBuf (U.plan p) 60 (logInts ((r.planLog p).filter fun x => r.staged.any fun e => e.id == x.id && !e.won))) := by
  intro w n hfault hres hlater hfollows hsends r
  have hgo : ¬ (16 ≤ p ∨ (!w.planOn p) = true ∨ w.unitState (U.plan p) = stFault ∨ n < w.rd (U.plan p) Plan.resolved ∨ n ≤ w.rd (U.plan p) Plan.TICK ∨
      w.followsDecisions = true) := by
    rw [show w.planOn p = true from hon, hfollows]
    rintro (h | h | h | h | h | h)
    · omega
    · exact absurd h (by decide)
    · exact hfault h
    · exact absurd hres (not_le.2 h)
    · exact absurd hlater (not_lt.2 h)
    · exact absurd h (by decide)
  have hno : ¬ w.sendsDecisions = true := Bool.eq_false_iff.1 hsends
  refine next_if_neg hgo ((if_neg fun h => hno h.2.1).trans (if_neg hno))

theorem slew_ends {p : Nat} (hbad : (s.after dt).unitBad (U.plan p) = false) (hslew : (s.after dt).rb (U.plan p) Plan.slewing = true)
    (hthere : (s.after dt).phaseAt p (s.after dt).now = (s.after dt).rd (U.plan p) Plan.PHASE_TARGET * Config.ns) : let w := s.after dt
    exec (.planSlewComplete dt p) s = .next (w.wrs (U.plan p) [(Plan.STATE, if w.rb (U.plan p) Plan.stepped then planStepped else planAligned),
      (Plan.PHASE_NOW, w.rd (U.plan p) Plan.PHASE_TARGET), (Plan.slewing, 0)]) :=
  congrArg Host.Outcome.next ((ifUp_ok _ _ _ hbad).trans (if_pos ⟨hslew, hthere⟩))

/-- A thread of this device whose wait is over, as `f` decides, runs again from what `g` leaves. -/
theorem wait_ends {w : State} {th : Nat} {kinds : List Nat} {f : State → Bool} {g : State → State} (hshadow : w.shadow = none) (hth : th < 64)
    (hst : w.th th Lamp.STATE = thTickWait ∨ w.th th Lamp.STATE = thEventWait) (hkind : kinds.contains (w.thn th Lamp.waitKind) = true)
    (hf : f w = true) : w.resumeWait th kinds f g = ((g w).wrs (U.thread th) [(Lamp.STATE, thRunning), (Lamp.waitKind, 0)]).settle th := by
  have hwaits : (w.th th Lamp.STATE == thTickWait || w.th th Lamp.STATE == thEventWait) = true := by
    simpa only [Bool.or_eq_true, beq_iff_eq] using hst
  rw [State.resumeWait, onThreads_none _ _ hshadow]
  simp only [hth, hwaits, hkind, hf, decide_true, Bool.and_true, if_true]

theorem waits_end {th : Nat} (hth : th < 64) (hshadow : (s.after dt).shadow = none)
    (hst : (s.after dt).th th Lamp.STATE = thTickWait ∨ (s.after dt).th th Lamp.STATE = thEventWait) :
    let w := s.after dt
    let goes := fun (x : State) => (x.wrs (U.thread th) [(Lamp.STATE, thRunning), (Lamp.waitKind, 0)]).settle th
    let p := w.thn th Lamp.PLAN
    (w.thn th Lamp.waitKind = 1 → w.th th Lamp.waitVal = 0 → exec (.tickWaitResume dt th) s = .next (goes w)) ∧
    (w.thn th Lamp.waitKind = 5 → w.planOn p = true → w.th th Lamp.waitVal ≤ w.rd (U.plan p) Plan.TICK → exec (.tickWaitResume dt th) s = .next (goes w)) ∧
    (w.thn th Lamp.waitKind = 3 → w.th th Lamp.waitVal ≤ (w.now : Int) → exec (.timeWaitResume dt th) s = .next (goes w)) ∧
    (w.thn th Lamp.waitKind = 4 → w.rn (U.capt (w.thn th Lamp.waitVal)) Capt.WRITE_SEQ ≠ w.thn th Lamp.waitSeq →
      exec (.captWaitResume dt th) s = .next (goes (w.gset th (w.thn th Lamp.waitReg) (Tbl.get ⟨w.thn th Lamp.waitVal, w.thn th Lamp.waitSeq % 64⟩ 0 w.captRing)))) ∧
    (w.thn th Lamp.waitKind = 6 → w.bgOf th = [] → w.bgFirst 0x0C th = none → exec (.syncResume dt th) s = .next (goes w)) ∧
    (∀ b, w.thn th Lamp.waitKind = 6 → w.bgOf th = [] → w.bgFirst 0x0C th = some b → exec (.syncResume dt th) s = .next (goes (w.finishBg b 0))) ∧
    (w.thn th Lamp.waitKind = 2 → w.th th Lamp.waitVal ≤ w.rd (U.plan p) Plan.TICK → exec (.targetHoldRelease dt th) s = .next (goes w)) := by
  intro w goes p
  refine ⟨fun hk hv => ?ticks, fun hk hon hv => ?tickOf, fun hk hv => ?time, fun hk hv => ?capture, fun hk hbg hnone => ?sync, fun b hk hbg hb => ?syncOp,
    fun hk hv => ?target⟩
  case ticks =>
    refine congrArg Host.Outcome.next (wait_ends hshadow hth hst (by rw [hk]; decide) ?_)
    exact (if_pos hk).trans (beq_iff_eq.2 hv)
  case tickOf =>
    refine congrArg Host.Outcome.next (wait_ends hshadow hth hst (by rw [hk]; decide) ?_)
    exact (if_neg (by rw [hk]; decide)).trans (by rw [Bool.and_eq_true, decide_eq_true_eq]; exact ⟨hon, hv⟩)
  case time => exact congrArg Host.Outcome.next (wait_ends hshadow hth hst (by rw [hk]; decide) (decide_eq_true hv))
  case capture => exact congrArg Host.Outcome.next (wait_ends hshadow hth hst (by rw [hk]; decide) (bne_iff_ne.2 hv))
  case sync =>
    refine (congrArg Host.Outcome.next (wait_ends hshadow hth hst (by rw [hk]; decide) (by rw [hbg]; rfl))).trans ?_
    simp only [hnone, goes, w]
  case syncOp =>
    refine (congrArg Host.Outcome.next (wait_ends hshadow hth hst (by rw [hk]; decide) (by rw [hbg]; rfl))).trans ?_
    simp only [hb, goes, w]
  case target => exact congrArg Host.Outcome.next (wait_ends hshadow hth hst (by rw [hk]; decide) (decide_eq_true hv))

end

/-- Settles O41. -/
theorem ticksAndWaitsPass : Obligations.TicksAndWaitsPass :=
  fun _ _ => ⟨fun _ hp hon => tick_enters hp hon, fun _ hp hon => curfew_resolves hp hon, fun _ hbad hslew hthere => slew_ends hbad hslew hthere,
    fun _ hth hshadow hst => waits_end hth hshadow hst⟩

section
variable {dt : Nat} {s : State}

/-- An event of a thread on a device that holds no copy acts on the device itself. -/
theorem next_onThreads {f : State → State} {own : Bool} {t : State} (hshadow : s.shadow = none) (hf : f (s.after dt) = t) :
    (.next ((s.after dt).onThreads own f) : Res) = .next t := by
  rw [State.onThreads_own _ _ _ (.inl (show (s.after dt).shadow = none from hshadow)), hf]

theorem errand_starts (hshadow : s.shadow = none) {q : Nat} {e : Errand} {t : Nat} (he : (s.after dt).headErrand q = some e)
    (ht : (s.after dt).servingThread q = some t) (hphase : e.phase = 0) (hrel : (s.after dt).releases e = true)
    (hroom : (s.after dt).finalsDue q + maxFinal e.words ≤ (s.after dt).replyRoom q) : let w := s.after dt
    exec (.errandExecutionStart dt q) s = .next ((w.setErrand { e with phase := 1 }).wrs (U.thread t)
      [(Lamp.errand, e.id + 1), (Lamp.IN_ERRAND, 1), (Lamp.PC, e.head), (Lamp.STATE, thRunning), (Lamp.callIdx, 0), (Lamp.past, 0),
        (Lamp.tMode, if e.mode = 0 then 0 else if e.mode = 3 then 2 else 1), (Lamp.tPlan, e.plan), (Lamp.TARGET, (w.targetTick e).getD 0)]) := by
  have hgo : ¬ (e.phase ≠ 0 || !(s.after dt).releases e ||
      (decide (e.source ≤ 1) && decide ((s.after dt).replyRoom q < (s.after dt).finalsDue q + maxFinal e.words))) = true := by
    rw [hphase, hrel, decide_eq_false (Nat.not_lt.2 hroom)]
    simp
  refine next_onThreads hshadow ?_
  simp only [he, ht, if_neg hgo]

theorem final_posted (hshadow : s.shadow = none) {q : Nat} {e : Errand}
    (he : (s.after dt).errands.find? (fun e => e.queue == q && (s.after dt).finalReady e) = some e)
    (hroom : (1 + e.repeats) * (((s.after dt).finalWords e).length + 1) ≤ (s.after dt).replyRoom q) : let w := s.after dt
    let posted := ((List.range (1 + e.repeats)).foldl (fun a _ => a.postReply q e.source (w.finalWords e)) w).setErrand
      { e with phase := 3, repeats := 0, final := w.finalWords e }
    exec (.finalReply dt q) s = .next (State.dropFinished { posted with parts := posted.parts.filter fun p => p.errand != some e.id }) := by
  have hgo : ¬ (decide (e.source ≤ 1) && decide ((s.after dt).replyRoom q < (1 + e.repeats) * (((s.after dt).finalWords e).length + 1))) = true := by
    rw [decide_eq_false (Nat.not_lt.2 hroom), Bool.and_false]
    exact Bool.false_ne_true
  refine next_onThreads hshadow ?_
  simp only [he, if_neg hgo]

section
variable {q : Nat} {r e : Errand} (hr : (s.after dt).headErrand q = some r) (hrep : r.phase = 4)
  (he : (s.after dt).errands.find? (fun e => e.id == r.target) = some e)
include hr hrep he

/-- A retransmission of an errand that is done: both its replies are posted again. -/
theorem repost_done (hdone : e.phase = 3) (hroom : 3 + e.final.length + 1 ≤ (s.after dt).replyRoom q) : let w := s.after dt
    exec (.replyRepost dt q) s = .next (((({ w with errands := w.errands.filter fun x => x.id != r.id } : State).postReply q r.source
      (replyHead e.seq q 1 0 e.words.length 0 (BitVec.ofNat 64 e.acceptTick))).postReply q r.source e.final).dropFinished) := by
  show execReplyRepost dt q s = _
  simp only [execReplyRepost, hr, he, hrep, hdone, decide_eq_false (Nat.not_lt.2 hroom), Bool.and_false, Bool.false_eq_true, ne_eq,
    not_true_eq_false, if_false, if_true]

/-- A retransmission of an errand that is not done: its FINAL reply is owed once more. -/
theorem repost_later (hdone : e.phase ≠ 3) (hroom : 3 + maxFinal e.words ≤ (s.after dt).replyRoom q) : let w := s.after dt
    exec (.replyRepost dt q) s = .next ((({ w with errands := w.errands.filter fun x => x.id != r.id } : State).postReply q r.source
      (replyHead e.seq q 1 0 e.words.length 0 (BitVec.ofNat 64 e.acceptTick))).setErrand { e with repeats := e.repeats + 1 }) := by
  show execReplyRepost dt q s = _
  simp only [execReplyRepost, hr, he, hrep, hdone, decide_eq_false (Nat.not_lt.2 hroom), Bool.and_false, Bool.false_eq_true, ne_eq,
    not_true_eq_false, if_false]

end

theorem post_thread (x : State) (th u c d : Nat) (f : Field) (hth : th < 64) : (x.post u c d).rd (U.thread th) f = x.rd (U.thread th) f :=
  (State.post_same x (th + 1) u c d).1 _ f (by simp only [U.thread]; omega) (by simp only [U.thread, U.crier]; omega)
    (by simp only [U.thread, U.host]; omega)

theorem faultThread_faults (x : State) {th : Nat} (hth : th < 64) : (x.faultThread th).th th Lamp.STATE = thFault := by
  unfold State.faultThread
  split
  case isTrue h => exact h
  case isFalse =>
    refine (post_thread _ th _ _ _ _ hth).trans ((wrs_at _ _ _ Lamp.STATE thFault List.mem_cons_self (by decide)).trans (by decide))

theorem threadFault_faults (hshadow : s.shadow = none) {th : Nat} (hth : th < 64) :
    ∃ t, exec (.threadFault dt th) s = .next t ∧ t.th th Lamp.STATE = thFault :=
  ⟨_, next_onThreads hshadow (if_neg (by omega)), faultThread_faults _ hth⟩

end

/-- Settles O42. -/
theorem errandsServed : Obligations.ErrandsServed :=
  fun _ _ hshadow => ⟨fun _ _ _ he ht hphase hrel hroom => errand_starts hshadow he ht hphase hrel hroom,
    fun _ _ he hroom => final_posted hshadow he hroom,
    fun _ _ _ hr hrep he => ⟨repost_done hr hrep he, repost_later hr hrep he⟩, fun _ hth => threadFault_faults hshadow hth⟩

end Sys2Proof.Laws
end

section
/-!
Cells that follow, lose and regain their sources (O43), and the lines that reach Kerbs and leave through Cells (O44).
-/
namespace Sys2Proof.Laws
open Sys2Proof Sys2Proof.Machine

/-- An event of a unit that is in use and not in FAULT. -/
theorem next_ifUp {w x t : State} {u : Nat} (hu : w.unitBad u = false) (hx : x = t) : (.next (w.ifUp [u] x) : Res) = .next t := by
  rw [ifUp_ok w u x hu, hx]

section
variable {dt d : Nat} {s : State} (hu : (s.after dt).unitBad (U.cell d) = false)
include hu

theorem followCommit_takes (htimed : (s.after dt).cellTimed d = false) {j : Nat} (hpend : (s.after dt).rb (U.cell d) (Cell.pending j) = true)
    (hsrc : (s.after dt).rn (U.cell d) (Cell.msSource j) ≠ noSeat)
    (hcarries : (s.after dt).srcCarries ((s.after dt).rn (U.cell d) (Cell.msSource j)) ((s.after dt).rn (U.cell d) (Cell.msStream j)) = true) :
    let w := s.after dt
    let u := U.cell d
    exec (.followCommit dt d j) s = .next (if j = 0 then
        (((w.wr u (Cell.pending j) 0).count u Ctr.Cell.FOLLOW_CUTS).wr u Cell.OUTPUT (w.followOutput d)).audioSwitch d
      else (w.wr u (Cell.pending j) 0).count u Ctr.Cell.FOLLOW_CUTS) := by
  refine next_ifUp hu ((if_neg ?_).trans (if_pos hpend))
  rw [htimed, hcarries, beq_eq_false_iff_ne.2 hsrc]
  decide

theorem followTimeout_takes (htimed : (s.after dt).cellTimed d = false) {j : Nat} (hpend : (s.after dt).rb (U.cell d) (Cell.pending j) = true)
    (hdue : (s.after dt).rn (U.cell d) (Cell.pendAt j) + 256 * Config.us ≤ (s.after dt).clk) :
    let w := s.after dt
    let u := U.cell d
    let x := ((w.wr u (Cell.pending j) 0).count u Ctr.Cell.FOLLOW_TIMEOUTS).count u Ctr.Cell.FOLLOW_CUTS
    exec (.followTimeout dt d j) s = .next (if j = 0 then (x.wr u Cell.OUTPUT 0).audioSwitch d else x) := by
  refine next_ifUp hu (if_pos ?_)
  rw [htimed, hpend, decide_eq_true hdue]
  rfl

theorem lossEntry_enters (htimed : (s.after dt).cellTimed d = true) :
    let w := s.after dt
    let g := w.lossGroup d
    g.all (fun c => !w.rb (U.cell c) Cell.inLoss) = true → g.any (fun c => w.srcLost c && w.cellN c Cell.SOURCE != noSeat) = true →
      exec (.cellLossEntry dt d) s = .next ((g.foldl (fun a c => (a.wr (U.cell c) Cell.OUTPUT 2).audioSwitch c)
        (g.foldl (fun a c => (a.wr (U.cell c) Cell.inLoss 1).count (U.cell c) Ctr.Cell.LOSS_ENTRIES) w)).postEntry (w.lossUnit d) 2
          (w.cellN d Cell.OUTPUT) 0 (w.lossDetail d)) := by
  intro w g hnone hlost
  have hnew : g.filter (fun c => !w.rb (U.cell c) Cell.inLoss) = g := List.filter_eq_self.2 (List.all_eq_true.1 hnone)
  have hsome : ¬ g.isEmpty = true := fun h => by
    rw [List.isEmpty_iff.1 h] at hlost
    cases hlost
  have hnottimed : ¬ (!w.cellTimed d) = true := by
    rw [show w.cellTimed d = true from htimed]
    decide
  refine next_ifUp hu ((if_neg hnottimed).trans ((if_pos hlost).trans ?_))
  unfold State.settleLoss
  rw [if_neg hnottimed, if_pos (show (s.after dt).groupLost d = true from hlost)]
  simp only [hnew, g, w] at hsome ⊢
  rw [if_neg hsome]

theorem lossReturn_returns (htimed : (s.after dt).cellTimed d = true) (hin : (s.after dt).rb (U.cell d) Cell.inLoss = true) :
    let w := s.after dt
    let g := w.lossGroup d
    g.all (fun c => !w.srcLost c) = true → exec (.cellLossReturn dt d) s = .next ((g.foldl (fun a c =>
      ((a.wr (U.cell c) Cell.inLoss 0).wr (U.cell c) Cell.OUTPUT (w.timedOutput c)).audioSwitch c) w).postEntry (w.lossUnit d) 1 2 0 0) := by
  intro w g hback
  have hgroup : ¬ w.groupLost d = true := fun h => by
    obtain ⟨c, hc, hlost⟩ := List.any_eq_true.1 h
    rw [Bool.and_eq_true] at hlost
    have := List.all_eq_true.1 hback c hc
    rw [hlost.1] at this
    cases this
  have hnottimed : ¬ (!w.cellTimed d) = true := by
    rw [show w.cellTimed d = true from htimed]
    decide
  refine next_ifUp hu ((if_pos ?_).trans ?_)
  · rw [htimed, hin, show ((s.after dt).lossGroup d).all (fun c => !(s.after dt).srcLost c) = true from hback]
    rfl
  · unfold State.settleLoss
    rw [if_neg hnottimed, if_neg hgroup]

end

/-- Settles O43. -/
theorem cellsFollowAndLose : Obligations.CellsFollowAndLose :=
  fun _ _ _ hu => ⟨fun htimed _ hpend => ⟨followCommit_takes hu htimed hpend, followTimeout_takes hu htimed hpend⟩, lossEntry_enters hu,
    lossReturn_returns hu⟩

section
variable {dt : Nat} {s : State}

/-- A Kerb that runs and has begun a line judges it where its words hold the EAV. -/
theorem kerbEav_judges {w : State} {k line i : Nat} {edh : Bool} (hk : k < 2304) (hu : w.unitBad (U.kerb k) = false) (hfed : w.kerbFed k = true)
    (hbegun : w.rb (U.kerb k) Kerb.begun = true) (hempty : w.rd (U.kerb k) Kerb.STATE ≠ kEmpty) (hlost : w.rd (U.kerb k) Kerb.STATE ≠ kLost)
    {fifo : List Nat} (hfifo : (w.buf (U.kerb k) kerbFifo).map (·.toNat) = fifo)
    (heav : findEav fifo.length 4 ((fifo.map (· % 1024)).drop 4) = some i) : w.kerbEav k line edh =
      ((w.setBuf (U.kerb k) kerbFifo ((fifo.drop i).map fun (n : Nat) => (n : Int))).lineEnded k line (fifo.take i) edh).lineOneMarker k line := by
  have hon : ¬ (2304 ≤ k || w.unitBad (U.kerb k) || !w.kerbFed k) = true := by
    rw [hu, hfed, decide_eq_false (by omega)]
    decide
  have hrun : ¬ (w.rd (U.kerb k) Kerb.STATE = kEmpty ∨ w.rd (U.kerb k) Kerb.STATE = kLost ∨ (!w.rb (U.kerb k) Kerb.begun) = true) := by
    rw [hbegun]
    rintro (h | h | h)
    · exact hempty h
    · exact hlost h
    · cases h
  unfold State.kerbEav
  rw [if_neg hon]
  simp only [if_neg hrun, hfifo, List.length_map, heav]

/-- A seat that a context of TYPE 1 builds takes no such event. -/
theorem kerbEav_built {k line c : Nat} {edh : Bool} (hk : 1152 ≤ k) (hc : (s.after dt).rxOfSeat k = some c)
    (htype : (s.after dt).rn (U.rx c) Rx.TYPE = 1) : exec (.kerbEavArrival dt k line edh) s = .next (s.after dt) := by
  refine next_if_pos ?_ rfl
  rw [State.seatBuilt, hc, decide_eq_true hk]
  exact beq_iff_eq.2 htype

theorem kerb_aligns {k : Nat} (hk : k < 2304) (hmode : (s.after dt).rb (U.kerb k) Kerb.MODE = true) (hready : (s.after dt).rb (U.kerb k) Kerb.ready = true)
    (hst : (s.after dt).rd (U.kerb k) Kerb.STATE = kAcquiring ∨ (s.after dt).rd (U.kerb k) Kerb.STATE = kOutside ∨
      (s.after dt).rd (U.kerb k) Kerb.STATE = kRaster) (horigin : (s.after dt).nearOrigin ((s.after dt).rn (U.kerb k) Kerb.PLAN) = true)
    (hfed : (s.after dt).kerbFed k = true) (hu : (s.after dt).unitBad (U.kerb k) = false) :
    exec (.kerbAlign dt k) s = .next ((s.after dt).kerbEnter k kAligned) := by
  have hstate : ((s.after dt).rd (U.kerb k) Kerb.STATE == kAcquiring || (s.after dt).rd (U.kerb k) Kerb.STATE == kOutside ||
      (s.after dt).rd (U.kerb k) Kerb.STATE == kRaster) = true := by
    simpa only [Bool.or_eq_true, beq_iff_eq, or_assoc] using hst
  refine next_if_pos ?_ rfl
  rw [hmode, hready, hstate, horigin, hfed, hu, decide_eq_true hk]
  rfl

theorem kerb_loses {k : Nat} (hk : k < 2304) (hmode : (s.after dt).rb (U.kerb k) Kerb.MODE = true)
    (hst : (s.after dt).rd (U.kerb k) Kerb.STATE = kAligned) (hu : (s.after dt).unitBad (U.kerb k) = false) :
    let w := s.after dt
    let r := w.planRas (w.rn (U.kerb k) Kerb.PLAN)
    w.rn (U.kerb k) Kerb.lastEav + 2 * r.line ≤ w.clk →
      let c := if w.conceals k then (List.range (w.linesGone k)).foldl (fun (a : State) (j : Nat) =>
        a.concealLine k ((w.rn (U.kerb k) Kerb.cur + j - 1) % r.lines + 1) (w.tsOff + w.rn (U.kerb k) Kerb.lastEav + (j * r.line : Nat)) false) w else w
      exec (.kerbLossTimeout dt k) s =
        .next (((c.kerbEnter k kLost).wrs (U.kerb k) [(Kerb.ready, 0), (Kerb.begun, 0), (Kerb.lines, 0)]).setBuf (U.kerb k) kerbFifo []) := by
  intro w r hsilent c
  refine next_if_pos ?_ (if_neg ?_)
  · rw [show (s.after dt).rb (U.kerb k) Kerb.MODE = true from hmode, if_pos rfl, decide_eq_true hk, hst, hu, decide_eq_true hsilent]
    rfl
  · rw [show w.rd (U.kerb k) Kerb.STATE = kAligned from hst]
    decide

theorem timedCell_puts_out {d : Nat} {l : LineOut} (hd : d < 2688) (hu : (s.after dt).unitBad (U.cell d) = false)
    (htimed : (s.after dt).cellTimed d = true) (hends : (s.after dt).planLineEnds ((s.after dt).cellN d Cell.PLAN) l.line = true)
    (hout : (s.after dt).cellN d Cell.outAt ≠ (s.after dt).clk + 1) :
    let w := s.after dt
    let dur := (w.planRas (w.cellN d Cell.PLAN)).line
    let r := w.timedLine d l.line (w.clk - dur)
    exec (.cellLineOut dt d l) s = .next (r.2.emitLine d r.1 ((w.now : Int) - dur) dur) := by
  intro w dur r
  refine next_if_neg (by omega) ((ifUp_ok _ _ _ hu).trans ((if_pos htimed).trans (if_neg ?_)))
  rw [hends]
  exact fun h => h.elim (fun h => by cases h) hout

theorem followCell_puts_out {d : Nat} {l : LineOut} (hd : d < 2688) (hu : (s.after dt).unitBad (U.cell d) = false)
    (htimed : (s.after dt).cellTimed d = false) (hstream : l.stream = 0) (hout : (s.after dt).rd (U.cell d) Cell.OUTPUT ≠ 0) :
    let w := s.after dt
    ∀ y z, w.followLine d l = (some y, z) → let a := z.wr (U.cell d) (Cell.outTime 0) (y.time + 1)
      exec (.cellLineOut dt d l) s = .next ((a.emitLine d y ((w.now : Int) - l.age) (w.lineDur d y.words.length)).feedInput d l y) := by
  intro w y z hline a
  refine next_if_neg (by omega) ((ifUp_ok _ _ _ hu).trans ((if_neg (Bool.eq_false_iff.1 htimed)).trans ?_))
  have hgo : ¬ ((l.stream = 0 ∧ w.rd (U.cell d) Cell.OUTPUT = 0) ∨ (l.stream ≠ 0 ∧ modeStreams (w.granMode (d - 2304)) ≤ l.stream) ∨ 7 < l.stream ∨
      (l.stream ≠ 0 ∧ (!w.cellMulti d) = true)) := by
    rintro (h | h | h | h)
    · exact hout h.2
    · exact h.1 hstream
    · omega
    · exact h.1 hstream
  unfold State.followOut
  rw [if_neg hgo]
  simp only [show (s.after dt).followLine d l = (some y, z) from hline, hstream, if_true, a, w]

section
variable {t : Nat} (ht : t < 1152) (hlane : (s.after dt).rn (U.trib t) Trib.LANE ≠ 511) (hu : (s.after dt).unitBad (U.trib t) = false)
include ht hlane hu

theorem rateDeviation_marked (hdev : (s.after dt).rb (U.trib t) Trib.rateDev = false)
    (hoff : 120000 < ((s.after dt).rd (U.trib t) Trib.RATE_OFFSET).natAbs) : exec (.rateDeviation dt t) s =
      .next ((((s.after dt).wr (U.trib t) Trib.rateDev 1).count (U.trib t) Ctr.Trib.RATE_DEVIATIONS).post (U.trib t) 0x0305 0) := by
  refine next_ifUp hu ((if_neg ?_).trans ?_)
  · rw [hdev, decide_eq_false (by omega), decide_eq_true hoff, beq_eq_false_iff_ne.2 hlane]
    decide
  · rw [decide_eq_true hoff]
    rfl

theorem rateDeviation_unmarked (hdev : (s.after dt).rb (U.trib t) Trib.rateDev = true)
    (hoff : ((s.after dt).rd (U.trib t) Trib.RATE_OFFSET).natAbs ≤ 120000) :
    exec (.rateDeviation dt t) s = .next ((s.after dt).wr (U.trib t) Trib.rateDev 0) := by
  refine next_ifUp hu ((if_neg ?_).trans ?_)
  · rw [hdev, decide_eq_false (by omega), decide_eq_false (Nat.not_lt.2 hoff), beq_eq_false_iff_ne.2 hlane]
    decide
  · rw [decide_eq_false (Nat.not_lt.2 hoff)]
    rfl

end

end

/-- Settles O44. -/
theorem linesReachKerbsAndOutputs : Obligations.LinesReachKerbsAndOutputs :=
  fun _ _ => ⟨fun _ _ _ _ hk hbuilt hu hfed hbegun hempty hlost heav =>
      next_if_neg (Bool.eq_false_iff.1 hbuilt) (kerbEav_judges hk hu hfed hbegun hempty hlost rfl heav),
    fun _ _ _ _ hk hc htype => kerbEav_built hk hc htype,
    fun _ hk hmode hready hst horigin hfed hu => kerb_aligns hk hmode hready hst horigin hfed hu,
    fun _ hk hmode hst hu => kerb_loses hk hmode hst hu,
    fun _ _ hd hu => ⟨timedCell_puts_out hd hu, followCell_puts_out hd hu⟩,
    fun _ ht hlane hu => ⟨rateDeviation_marked ht hlane hu, rateDeviation_unmarked ht hlane hu⟩⟩

end Sys2Proof.Laws
end

section
/-!
Codewords, frames and lines on lanes (O45).
-/
namespace Sys2Proof.Laws
open Sys2Proof Sys2Proof.Machine

section
variable {dt l : Nat} {s : State} (hl : l < 288) (hu : (s.after dt).unitBad (U.lane l) = false)
include hl hu

theorem codeword_received (cw : CodewordIn) (hmode : (s.after dt).laneN l Lane.MODE = 1) (hrx : (s.after dt).laneN l Lane.RX_STATE = 0)
    (hlock : (s.after dt).rb (U.lane l) Lane.CDR_LOCK = true) (hloop : (s.after dt).nearLoop l = false) :
    let u := U.lane l
    let r := (s.after dt).laneReceive l cw.levels
    r.1.length = 5440 →
    let d := rsDecode ((chunks 10 5440 r.1).map ofBitsLsb) cw.fixes
    let syms := d.1.take 514
    let x := (r.2.count u Ctr.Lane.FEC_CODEWORDS).countBy u Ctr.Lane.FEC_CORRECTED_SYMBOLS d.2.1
    let y := if d.2.2 then (x.countLimited u Ctr.Lane.FEC_UNCORRECTABLE 0 0).evidence 1 u else x
    exec (.haywainCodewordRx dt l cw) s = .next (if r.2.rb u Lane.cwLock then y.cwLocked l (syms.headD 0 + 1024 * (syms.drop 1).headD 0) d.2.2 syms
      else y.cwHunt l (if d.2.2 then 2 else if d.2.1 = 0 then 0 else 1)) := by
  intro u r hlen d syms x y
  have hhears : ¬ (!(s.after dt).haywainRx l) = true := by
    rw [State.haywainRx, decide_eq_true hl, hmode, hrx, hlock]
    decide
  refine next_ifUp hu ((if_neg (Bool.eq_false_iff.1 hloop)).trans ((if_neg hhears).trans ((if_pos hlen).trans ?_)))
  unfold State.cwReceive
  rw [hlen]
  cases hcw : r.2.rb u Lane.cwLock
  · exact if_pos rfl
  · exact if_neg (by decide)

theorem frame_sent (hmode : (s.after dt).laneN l Lane.MODE = 1) (htx : (s.after dt).laneN l Lane.TX_STATE = 0) :
    exec (.haywainFrameTx dt l) s = .next ((s.after dt).txHaywain l) := by
  refine next_ifUp hu (if_neg ?_)
  rw [decide_eq_true hl, hmode, htx]
  decide

theorem sdi_received (levels : List Nat) (hmode : (s.after dt).laneN l Lane.MODE = 3) (hrx : (s.after dt).laneN l Lane.RX_STATE = 0)
    (hlock : (s.after dt).rb (U.lane l) Lane.CDR_LOCK = true) (hloop : (s.after dt).nearLoop l = false) :
    let r := (s.after dt).laneReceive l levels
    exec (.sdiTrsRx dt l levels) s = .next (r.2.sdiReceive l r.1) := by
  refine next_ifUp hu (if_neg ?_)
  rw [decide_eq_true hl, hmode, hrx, hlock, hloop]
  decide

end

theorem output_squelched {dt d : Nat} {s : State} (hd : d < 1152) (hu : (s.after dt).unitBad (U.trib d) = false)
    (hlane : (s.after dt).rn (U.trib d) Trib.LANE < 288) (hmode : (s.after dt).laneN ((s.after dt).rn (U.trib d) Trib.LANE) Lane.MODE = 3)
    (htx : (s.after dt).rn (U.trib d) Trib.TX_STATE = 1)
    (hsilent : (s.after dt).rn (U.trib d) Trib.lineAt + 2 * (s.after dt).rn (U.trib d) Trib.lineDur ≤ (s.after dt).clk) :
    exec (.txSquelch dt d) s = .next (((s.after dt).wr (U.trib d) Trib.TX_STATE 2).count (U.trib d) Ctr.Trib.TX_SQUELCH_ENTRIES) := by
  refine next_ifUp hu (if_pos ?_)
  rw [decide_eq_true hd, decide_eq_true hlane, hmode, htx, decide_eq_true hsilent]
  decide

/-- Settles O45. -/
theorem lanesCarryLines : Obligations.LanesCarryLines :=
  fun _ _ _ => ⟨fun hl hu => ⟨codeword_received hl hu, frame_sent hl hu, sdi_received hl hu⟩,
    fun _ hd hu hlane hmode htx hsilent => output_squelched hd hu hlane hmode htx hsilent⟩

end Sys2Proof.Laws
end

section
/-!
Signals, PLLs, training, waking and tests of a lane (O46): each event takes the branch that the lane's state selects.
-/
namespace Sys2Proof.Laws
open Sys2Proof Sys2Proof.Machine

/-! Closing a part posts and counts: the BACKGROUND operations stay. -/

theorem crierWrite_bg (s : State) (u c d : Nat) : (s.crierWrite u c d).bg = s.bg := by
  have hraise (x : State) (n : Nat) : (x.raiseIbi n).bg = x.bg := by
    unfold State.raiseIbi
    split <;> rfl
  simp only [State.crierWrite]
  split
  · rw [State.emit_bg, hraise, wrs_bg, State.count_bg, wrs_bg]
  · rw [State.count_bg, wrs_bg]

theorem post_bg (s : State) (u c d : Nat) : (s.post u c d).bg = s.bg := by
  unfold State.post State.crierFull
  split
  · rfl
  · split
    · rw [wrs_bg, crierWrite_bg, crierWrite_bg]
    · exact crierWrite_bg s u c d

theorem closePart_bg (s : State) (pid code : Nat) : (s.closePart pid code).bg = s.bg := by
  have hfinal (x : State) (p : Part) : (x.finalLedger p).bg = x.bg := by
    simp only [State.finalLedger]
    split
    · rw [post_bg, State.count_bg]
    · rfl
  simp only [State.closePart]
  split
  · rfl
  · split
    · exact hfinal _ _
    · rfl

theorem foldl_closePart_bg (s : State) (l : List BgOp) : (l.foldl (fun x b => x.closePart b.pid 0) s).bg = s.bg :=
  fold_keep (fun x => x.bg = s.bg) _ l s rfl fun x b hx => (closePart_bg x b.pid 0).trans hx

section
variable {dt a p : Nat} {s : State} (ha : a < 36) (hp : p < 2) (hu : (s.after dt).unitBad (U.avenue a) = false)
include ha hp hu

theorem pllLoss_acts (hlock : (s.after dt).rb (U.avenue a) (pllLockF p) = true) : exec (.pllLoss dt a p) s =
    let w := s.after dt
    let x := (w.wr (U.avenue a) (pllLockF p) 0).count (U.avenue a) Ctr.Avenue.PLL_LOSS
    .next ((x.pllLanes a p).foldl (fun x l => let y := x.post (U.lane l) evHardwareFault 0
      if y.laneN l Lane.RX_STATE = 0 then y.rxLost l (y.rb (U.lane l) Lane.SIGNAL) false else y) x) := by
  refine next_ifUp hu (if_neg ?_)
  rw [hlock, decide_eq_false (by omega), decide_eq_false (by omega)]
  decide

/-- With the lock, no operation waits for it any longer. -/
theorem pllLock_ends (hlock : (s.after dt).rb (U.avenue a) (pllLockF p) = false) (hfam : (s.after dt).rn (U.avenue a) (pllFamilyF p) ≠ 0) :
    ∃ t, exec (.pllLock dt a p) s = .next t ∧ ∀ b ∈ t.bg, ¬ (b.op = 0x58 ∧ b.index = a ∧ b.sub = p) := by
  refine ⟨_, next_ifUp hu (if_neg ?_), fun b hb ⟨hop, hix, hsub⟩ => ?_⟩
  · rw [hlock, decide_eq_false (by omega), decide_eq_false (by omega), beq_eq_false_iff_ne.2 hfam]
    decide
  · rw [foldl_closePart_bg] at hb
    have hmine := (List.mem_filter.1 hb).2
    simp only [hop, hix, hsub, BEq.rfl, Bool.and_self, Bool.not_true] at hmine
    cases hmine

end

section
variable {dt l : Nat} {s : State} (hl : l < 294) (hu : (s.after dt).unitBad (U.lane l) = false)
include hl hu

theorem signal_lost (hrx : (s.after dt).laneN l Lane.RX_STATE = 0) (hsig : (s.after dt).rb (U.lane l) Lane.SIGNAL = true)
    (hloop : (s.after dt).nearLoop l = false) : let w := s.after dt
    exec (.laneLos dt l none) s = .next ((((w.count (U.lane l) Ctr.Lane.LOS_ENTRIES).post (U.lane l) evHardwareFault 0).evidence 1 (U.lane l)).rxLost
      l false false) := by
  refine next_ifUp hu ((if_neg ?_).trans (if_pos hsig))
  rw [hrx, hloop, decide_eq_true hl]
  decide

theorem signal_returns {bps : Nat} (hrx : (s.after dt).laneN l Lane.RX_STATE = 0) (hsig : (s.after dt).rb (U.lane l) Lane.SIGNAL = false)
    (hloop : (s.after dt).nearLoop l = false) (hmode : (s.after dt).laneN l Lane.MODE ≠ 3) (hpll : (s.after dt).pllReady l = true) :
    let w := s.after dt
    exec (.laneLos dt l (some bps)) s =
      .next (((w.wrs (U.lane l) [(Lane.SIGNAL, 1), (Lane.CDR_LOCK, 1)]).post (U.lane l) evStateEntry 0).trainOnSignal l) := by
  have hsdi : (decide (l < 288) && (s.after dt).laneN l Lane.MODE == 3) = false := by
    rw [beq_eq_false_iff_ne.2 hmode, Bool.and_false]
  have hlive : (decide (l < 294) && (s.after dt).laneN l Lane.RX_STATE == 0 && !(s.after dt).nearLoop l) = true := by
    rw [hrx, hloop, decide_eq_true hl]
    rfl
  show execLaneLos dt l (some bps) s = _
  refine next_ifUp hu ?_
  simp only [hlive, hsdi, hpll, hsig, Bool.not_true, Bool.false_and, Bool.false_eq_true, if_false]
  rfl

section
variable (hrx : (s.after dt).laneN l Lane.RX_STATE = 0) (hsig : (s.after dt).rb (U.lane l) Lane.SIGNAL = true)
  (hloop : (s.after dt).nearLoop l = false)
include hrx hsig hloop

omit hu in
theorem cdr_heard : ¬ (294 ≤ l || (s.after dt).laneN l Lane.RX_STATE != 0 || !(s.after dt).rb (U.lane l) Lane.SIGNAL || (s.after dt).nearLoop l) = true := by
  rw [hrx, hsig, hloop, decide_eq_false (by omega)]
  decide

theorem cdr_lost (hlock : (s.after dt).rb (U.lane l) Lane.CDR_LOCK = true) : let w := s.after dt
    exec (.cdrLoss dt l true) s =
      .next ((((w.count (U.lane l) Ctr.Lane.CDR_LOSS).post (U.lane l) evHardwareFault 0).evidence 1 (U.lane l)).rxLost l true false) :=
  next_ifUp hu ((if_neg (cdr_heard hl hrx hsig hloop)).trans (if_pos hlock))

theorem cdr_locks (hlock : (s.after dt).rb (U.lane l) Lane.CDR_LOCK = false) (hpll : (s.after dt).pllReady l = true) : let w := s.after dt
    exec (.cdrLoss dt l false) s = .next (((w.setLane l Lane.CDR_LOCK 1).post (U.lane l) evStateEntry 0).trainOnSignal l) := by
  refine next_ifUp hu ((if_neg (cdr_heard hl hrx hsig hloop)).trans ((if_neg Bool.false_ne_true).trans (if_neg ?_)))
  rw [hlock, hpll]
  decide

end

theorem degrade_enters (hdeg : (s.after dt).rb (U.lane l) Lane.DEGRADED = false) : let w := s.after dt
    exec (.degrade dt l true) s =
      .next (((w.setLane l Lane.DEGRADED 1).count (U.lane l) Ctr.Lane.DEGRADE_ENTRIES).post (U.lane l) evHardwareFault 0) := by
  refine next_ifUp hu (if_neg ?_)
  rw [hdeg, decide_eq_false (by omega)]
  decide

theorem degrade_leaves (hdeg : (s.after dt).rb (U.lane l) Lane.DEGRADED = true) : let w := s.after dt
    exec (.degrade dt l false) s = .next ((w.setLane l Lane.DEGRADED 0).post (U.lane l) evStateEntry 0) := by
  refine next_ifUp hu (if_neg ?_)
  rw [hdeg, decide_eq_false (by omega)]
  decide

section
variable (ffe : BitVec 31) (ctle : BitVec 6) (snr : BitVec 10) (htrain : (s.after dt).rb (U.lane l) Lane.training = true)
include htrain

omit hl hu in
theorem training_heard : ¬ (!(s.after dt).rb (U.lane l) Lane.training) = true := by
  rw [htrain]
  decide

theorem training_first (hst : (s.after dt).laneN l Lane.TRAIN_STATE = 1) :
    exec (.trainingDone dt l true ffe ctle snr) s = .next ((s.after dt).setLane l Lane.TRAIN_STATE 2) :=
  next_ifUp hu ((if_neg (Nat.not_le.2 hl)).trans ((if_neg (training_heard htrain)).trans ((if_neg (by decide)).trans (if_pos hst))))

theorem training_second (hst : (s.after dt).laneN l Lane.TRAIN_STATE = 2) : let w := s.after dt
    let x := w.wrs (U.lane l) [(Lane.TRAIN_STATE, 3), (Lane.FFE, ffe.toNat), (Lane.RX_SNR, snr.toNat), (Lane.SIGNAL, 1), (Lane.CDR_LOCK, 1)]
    exec (.trainingDone dt l true ffe ctle snr) s = .next ((if w.laneN l Lane.EQ_MODE = 0 then x.setLane l Lane.CTLE ctle.toNat else x).evalLink l) :=
  next_ifUp hu ((if_neg (Nat.not_le.2 hl)).trans ((if_neg (training_heard htrain)).trans ((if_neg (by decide)).trans
    ((if_neg (by rw [hst]; decide)).trans (if_pos hst)))))

theorem training_failed (hlate : (s.after dt).laneN l Lane.trainAt + (s.after dt).trainLimit l ≤ (s.after dt).clk) : let w := s.after dt
    exec (.trainingDone dt l false ffe ctle snr) s = .next ((((w.wrs (U.lane l) [(Lane.training, 0), (Lane.TRAIN_STATE, 4), (Lane.trainBad, 1),
      (Lane.retrainAt, (w.clk + 100 * Config.ms : Nat))]).count (U.lane l) Ctr.Lane.TRAIN_FAILS).post (U.lane l) evHardwareFault 0).trainOver l false) :=
  next_ifUp hu ((if_neg (Nat.not_le.2 hl)).trans ((if_neg (training_heard htrain)).trans ((if_pos (by decide)).trans (if_neg (Nat.not_lt.2 hlate)))))

end

theorem retrain_starts (hre : (s.after dt).laneN l Lane.RETRAIN = 0) (hst : (s.after dt).laneN l Lane.TRAIN_STATE = 4)
    (hdue : (s.after dt).laneN l Lane.retrainAt ≤ (s.after dt).clk) (hrx : (s.after dt).laneN l Lane.RX_STATE = 0) :
    exec (.retrainTimer dt l) s = .next ((s.after dt).startTrain l) :=
  next_ifUp hu (if_pos ⟨hl, hre, hst, hdue, hrx⟩)

section
variable (hmust : (s.after dt).rb (U.lane l) Lane.mustTrain = false) (hpll : (s.after dt).pllReady l = true)
include hmust hpll

theorem tx_wakes (hwake : (s.after dt).rb (U.lane l) Lane.wakeTx = true) : let w := s.after dt
    exec (.laneWakeDone dt l 0) s =
      .next (((w.wrs (U.lane l) [(Lane.wakeTx, 0), (Lane.TX_STATE, 0)]).count (U.lane l) Ctr.Lane.WAKES).evalLink l) := by
  intro w
  have hkept : ((w.wrs (U.lane l) [(Lane.wakeTx, 0), (Lane.TX_STATE, 0)]).count (U.lane l) Ctr.Lane.WAKES).rb (U.lane l) Lane.mustTrain = false := by
    rw [rb_count, wrs_rb_ne _ _ _ _ _ (by decide)]
    exact hmust
  refine next_ifUp hu ((if_neg ?_).trans (congrArg (State.evalLink · l) (if_neg ?_)))
  · rw [BEq.rfl, if_pos rfl, hwake, hpll, decide_eq_false (by omega)]
    decide
  · rw [Bool.and_eq_true]
    exact fun h => Bool.false_ne_true (hkept.symm.trans h.2)

theorem rx_wakes (hwake : (s.after dt).rb (U.lane l) Lane.wakeRx = true) : let w := s.after dt
    exec (.laneWakeDone dt l 1) s = .next ((((w.wrs (U.lane l) [(Lane.wakeRx, 0), (Lane.RX_STATE, 0)]).count (U.lane l) Ctr.Lane.WAKES).wrs (U.lane l)
      [(Lane.SIGNAL, 1), (Lane.CDR_LOCK, 1)]).evalLink l) := by
  intro w
  have hkept : (((w.wrs (U.lane l) [(Lane.wakeRx, 0), (Lane.RX_STATE, 0)]).count (U.lane l) Ctr.Lane.WAKES).wrs (U.lane l)
      [(Lane.SIGNAL, 1), (Lane.CDR_LOCK, 1)]).rb (U.lane l) Lane.mustTrain = false := by
    rw [wrs_rb_ne _ _ _ _ _ (by decide), rb_count, wrs_rb_ne _ _ _ _ _ (by decide)]
    exact hmust
  refine next_ifUp hu ((if_neg ?_).trans (congrArg (State.evalLink · l) (if_neg ?_)))
  · rw [show (1 == 0) = false from rfl, if_neg Bool.false_ne_true, hwake, hpll, decide_eq_false (by omega)]
    decide
  · rw [Bool.and_eq_true]
    exact fun h => Bool.false_ne_true (hkept.symm.trans h.2)

end

theorem prbs_checked (levels : List Nat) (hchk : (s.after dt).rb (U.lane l) Lane.CHK_EN = true) (hrx : (s.after dt).laneN l Lane.RX_STATE = 0)
    (hloop : (s.after dt).nearLoop l = false) (hlock : (s.after dt).rb (U.lane l) Lane.CDR_LOCK = true) :
    let r := (s.after dt).laneReceive l levels
    exec (.prbsLock dt l levels) s = .next (r.2.prbsCheck l r.1) := by
  refine next_ifUp hu ((if_neg ?_).trans ((if_neg (Bool.eq_false_iff.1 hloop)).trans (if_neg ?_)))
  · rw [hchk, hrx, decide_eq_false (by omega)]
    decide
  · rw [hlock]
    decide

theorem error_injected (hinj : (s.after dt).laneN l Lane.INJ = 2) (hsends : (s.after dt).laneSends l = true) : let w := s.after dt
    exec (.errorInject dt l) s =
      .next ((w.setLane l Lane.flips (w.rd (U.lane l) Lane.flips + 1)).countBy (U.lane l) Ctr.Lane.INJECTED (w.injectBits l)) := by
  refine next_ifUp hu ((if_pos ⟨hl, hinj⟩).trans (if_neg ?_))
  rw [hsends]
  decide

end

/-- Settles O46. -/
theorem lanesRiseAndFall : Obligations.LanesRiseAndFall := by
  refine fun dt l s hl => ⟨fun a p ha hp hu => ⟨pllLoss_acts ha hp hu, pllLock_ends ha hp hu⟩, fun hu => ⟨fun hrx hsig hloop =>
    ⟨signal_lost hl hu hrx hsig hloop, cdr_lost hl hu hrx hsig hloop, cdr_locks hl hu hrx hsig hloop⟩,
    fun bps hrx hsig hloop hmode hpll => signal_returns hl hu hrx hsig hloop hmode hpll, degrade_enters hl hu, degrade_leaves hl hu,
    fun ffe ctle snr htrain => ⟨training_first hl hu ffe ctle snr htrain, fun hst heq => ?_, fun hst heq => ?_, training_failed hl hu ffe ctle snr htrain⟩,
    retrain_starts hl hu, fun hmust hpll => ⟨tx_wakes hl hu hmust hpll, rx_wakes hl hu hmust hpll⟩, prbs_checked hl hu, error_injected hl hu⟩⟩
  · exact (training_second hl hu ffe ctle snr htrain hst).trans (by rw [if_pos heq])
  · exact (training_second hl hu ffe ctle snr htrain hst).trans (by rw [if_neg heq])

end Sys2Proof.Laws
end

section
/-!
Frames on a MAC, forwarding cuts and the membership of a MAC's groups (O47).
-/
namespace Sys2Proof.Laws
open Sys2Proof Sys2Proof.Machine

section
variable {dt m : Nat} {s : State} (hm : m < 144) (hlane : (s.after dt).rn (U.mac m) Mac.LANE ≠ 511)
  (hlink : (s.after dt).rb (U.mac m) Mac.LINK = true) (hu : (s.after dt).unitBad (U.mac m) = false)
include hm hlane hlink

section
variable (fr : List Byte) (taken : Nat)
include hu

/-- A MAC whose link is up counts the frame and its octets, then judges it. -/
theorem frame_judged (fcs : Bool) {t : State} :
    let w := s.after dt
    let u := U.mac m
    let size := fr.length + 4
    let x := ((w.wr u Mac.stwQueue (w.rn u Mac.stwQueue - taken : Nat)).count u Ctr.Mac.RX_FRAMES).countBy u Ctr.Mac.RX_BYTES size
    let dst := be (fr.map (·.toNat)) 0 6
    (if !fcs then x.countLimited u Ctr.Mac.RX_FCS_ERRORS 0x0400 0
      else if size < 64 then x.countLimited u Ctr.Mac.RX_RUNTS 0x0400 0
      else if w.rn u Mac.MTU < size then x.countLimited u Ctr.Mac.RX_OVERSIZE 0x0400 0
      else if !(w.rb u Mac.ADDR && w.rn u Mac.ADDR == dst) && !bitAt dst 40 then x.count u Ctr.Mac.RX_DA_MISMATCH
      else x.ethFrame m (parseEth (fr.map (·.toNat)))) = t →
    exec (.macFrameRx dt m fcs fr taken) s = .next t := by
  intro w u size x dst ht
  have hup : ¬ (144 ≤ m ∨ w.rn u Mac.LANE = 511 ∨ w.rb u Mac.LINK = false ∨ w.unitBad u = true) := by
    rw [show w.rb u Mac.LINK = true from hlink, show w.unitBad u = false from hu]
    rintro (h | h | h | h)
    · omega
    · exact hlane h
    · cases h
    · cases h
  refine next_if_neg hup (Eq.trans ?_ ht)
  simp only [List.length_map]
  rfl

theorem frame_other (hmin : 64 ≤ fr.length + 4) (hmtu : fr.length + 4 ≤ (s.after dt).rn (U.mac m) Mac.MTU) {t : State} :
    let w := s.after dt
    let u := U.mac m
    let x := ((w.wr u Mac.stwQueue (w.rn u Mac.stwQueue - taken : Nat)).count u Ctr.Mac.RX_FRAMES).countBy u Ctr.Mac.RX_BYTES (fr.length + 4)
    let dst := be (fr.map (·.toNat)) 0 6
    (if !(w.rb u Mac.ADDR && w.rn u Mac.ADDR == dst) && !bitAt dst 40 then x.count u Ctr.Mac.RX_DA_MISMATCH
      else x.ethFrame m (parseEth (fr.map (·.toNat)))) = t →
    exec (.macFrameRx dt m true fr taken) s = .next t := fun ht =>
  frame_judged hm hlane hlink hu fr taken true <|
    (if_neg (by decide)).trans ((if_neg (not_lt.2 hmin)).trans ((if_neg (not_lt.2 hmtu)).trans ht))

theorem frame_counted :
    let w := s.after dt
    let u := U.mac m
    let size := fr.length + 4
    let x := ((w.wr u Mac.stwQueue (w.rn u Mac.stwQueue - taken : Nat)).count u Ctr.Mac.RX_FRAMES).countBy u Ctr.Mac.RX_BYTES size
    let dst := be (fr.map (·.toNat)) 0 6
    let own := w.rb u Mac.ADDR = true ∧ w.rn u Mac.ADDR = dst
    exec (.macFrameRx dt m false fr taken) s = .next (x.countLimited u Ctr.Mac.RX_FCS_ERRORS 0x0400 0) ∧
      (size < 64 → exec (.macFrameRx dt m true fr taken) s = .next (x.countLimited u Ctr.Mac.RX_RUNTS 0x0400 0)) ∧
      (64 ≤ size → w.rn u Mac.MTU < size → exec (.macFrameRx dt m true fr taken) s = .next (x.countLimited u Ctr.Mac.RX_OVERSIZE 0x0400 0)) ∧
      (64 ≤ size → size ≤ w.rn u Mac.MTU → ¬ own → bitAt dst 40 = false →
        exec (.macFrameRx dt m true fr taken) s = .next (x.count u Ctr.Mac.RX_DA_MISMATCH)) ∧
      (64 ≤ size → size ≤ w.rn u Mac.MTU → own ∨ bitAt dst 40 = true →
        exec (.macFrameRx dt m true fr taken) s = .next (x.ethFrame m (parseEth (fr.map (·.toNat))))) := by
  intro w u size x dst own
  have hown : (w.rb u Mac.ADDR && w.rn u Mac.ADDR == dst) = true ↔ own := by rw [Bool.and_eq_true, beq_iff_eq]
  have hjudged := @frame_judged dt m s hm hlane hlink hu fr taken
  refine ⟨hjudged false (if_pos (by decide)), fun hrunt => hjudged true ((if_neg (by decide)).trans (if_pos hrunt)),
    fun hmin hmtu => hjudged true ((if_neg (by decide)).trans ((if_neg (not_lt.2 hmin)).trans (if_pos hmtu))), fun hmin hmtu hnot hgroup => ?_,
    fun hmin hmtu hfor => ?_⟩
  · refine frame_other hm hlane hlink hu fr taken hmin hmtu (if_pos ?_)
    rw [Bool.and_eq_true, Bool.not_eq_true', Bool.not_eq_true']
    exact ⟨Bool.eq_false_iff.2 fun h => hnot (hown.1 h), hgroup⟩
  · refine frame_other hm hlane hlink hu fr taken hmin hmtu (if_neg ?_)
    rw [Bool.and_eq_true, Bool.not_eq_true', Bool.not_eq_true', not_and_or, Bool.not_eq_false, Bool.not_eq_false]
    exact hfor.imp_left hown.2

end

section
variable (q : QueryIn)
include hu

/-- A MAC whose link is up hears a query. -/
theorem query_heard {t : State} :
    let w := s.after dt
    let u := U.mac m
    let newest := if q.v6 then 2 else 3
    let rob := if newest ≤ q.version ∧ q.robust ≠ 0 then q.robust else 2
    let qi := if newest ≤ q.version ∧ q.interval ≠ 0 then q.interval else 125
    let cur := w.rn u (Mac.querier q.v6)
    let live := cur != 0 && decide (w.clk < w.rn u (Mac.querierAt q.v6) + (rob * qi * 1000 + q.resp / 2) * Config.ms)
    let x := w.wrs u [(Mac.querier q.v6, q.src + 1), (Mac.querierAt q.v6, w.clk), (Mac.robust, rob)]
    let aged := x.wr u (Mac.compatEnd q.v6) (w.clk + (rob * qi * 1000 + q.resp) * Config.ms + 1)
    let y := if !decide (q.version < newest) then x
      else if w.rb u (Mac.compatEnd q.v6) then aged else aged.countLimited u Ctr.Mac.MCAST_COMPAT_ENTRIES 0x0501 0
    (if !q.ok then w.countLimited u Ctr.Mac.MCAST_RX_ERRORS 0x0500 0
      else if live && decide (cur - 1 < q.src) then w.count u Ctr.Mac.MCAST_FOREIGN_QUERIES
      else y.sendReports m q.v6 (((y.groupsOf m).filter fun g => q.group == 0 || g.dst == q.group).map fun g => (true, g))) = t →
    exec (.mcastQueryRx dt m q) s = .next t := by
  intro w u newest rob qi cur live x aged y ht
  refine next_ifUp hu ((if_neg ?_).trans ht)
  rw [show (s.after dt).rb (U.mac m) Mac.LINK = true from hlink]
  rintro (h | h | h)
  · omega
  · exact hlane h
  · cases h

theorem query_acts : let w := s.after dt; let u := U.mac m
    (q.ok = false → exec (.mcastQueryRx dt m q) s = .next (w.countLimited u Ctr.Mac.MCAST_RX_ERRORS 0x0500 0)) ∧
      (q.ok = true → w.rn u (Mac.querier q.v6) = 0 → (if q.v6 then 2 else 3) ≤ q.version → q.robust ≠ 0 →
        let x := w.wrs u [(Mac.querier q.v6, q.src + 1), (Mac.querierAt q.v6, w.clk), (Mac.robust, q.robust)]
        exec (.mcastQueryRx dt m q) s =
          .next (x.sendReports m q.v6 (((x.groupsOf m).filter fun g => q.group == 0 || g.dst == q.group).map fun g => (true, g)))) ∧
      (q.ok = true → w.rn u (Mac.querier q.v6) ≠ 0 → w.rn u (Mac.querier q.v6) - 1 < q.src →
        w.clk < w.rn u (Mac.querierAt q.v6) + (2 * 125 * 1000 + q.resp / 2) * Config.ms → q.version < (if q.v6 then 2 else 3) →
        exec (.mcastQueryRx dt m q) s = .next (w.count u Ctr.Mac.MCAST_FOREIGN_QUERIES)) := by
  intro w u
  refine ⟨fun hbad => query_heard hm hlane hlink hu q (if_pos (by rw [hbad]; decide)), fun hok hcur hnew hrob => ?_, fun hok hcur hsrc hlive hold => ?_⟩
  · refine query_heard hm hlane hlink hu q ((if_neg (by rw [hok]; decide)).trans ((if_neg ?_).trans ?_))
    · rw [show (s.after dt).rn (U.mac m) (Mac.querier q.v6) = 0 from hcur]
      simp only [bne_self_eq_false, Bool.false_and, Bool.false_eq_true, not_false_eq_true]
    · rw [decide_eq_false (not_lt.2 hnew), if_pos (by decide), if_pos (show _ ∧ _ from ⟨hnew, hrob⟩)]
  · refine query_heard hm hlane hlink hu q ((if_neg (by rw [hok]; decide)).trans (if_pos ?_))
    rw [if_neg fun h => absurd h.1 (not_le.2 hold), if_neg fun h => absurd h.1 (not_le.2 hold), Bool.and_eq_true, Bool.and_eq_true]
    exact ⟨⟨bne_iff_ne.2 hcur, decide_eq_true hlive⟩, decide_eq_true hsrc⟩

end

end

section
variable {dt o : Nat} {s : State} (ho : o < 1024) (hu : (s.after dt).unitBad (U.fwd o) = false)
include ho hu

theorem cut_forced (hpend : (s.after dt).rb (U.fwd o) Fwd.PENDING = true) (hforced : (s.after dt).rb (U.fwd o) Fwd.forced = false)
    (hdue : (s.after dt).rn (U.fwd o) Fwd.cutAt - 1 + 100 * Config.ms ≤ (s.after dt).clk) : let w := s.after dt
    exec (.fwdForcedCut dt o) s = .next ((if w.rn (U.fwd o) Fwd.INPUT_CFG = 2047 then
      w.wrs (U.fwd o) [(Fwd.INPUT, 2047), (Fwd.PENDING, 0), (Fwd.oldDone, 0), (Fwd.cutAt, 0)]
      else w.wr (U.fwd o) Fwd.forced 1).countLimited (U.fwd o) Ctr.Fwd.FWD_FORCED_CUTS 0x0503 0) := by
  refine next_ifUp hu (if_neg ?_)
  rw [hpend, hforced]
  rintro (h | h | h | h)
  · omega
  · cases h
  · cases h
  · omega

theorem input_silent (hinput : (s.after dt).rn (U.fwd o) Fwd.INPUT ≠ 2047) (hseen : (s.after dt).rb (U.fwd o) Fwd.lossSeen = false)
    (hdue : (s.after dt).rn (U.fwd ((s.after dt).rn (U.fwd o) Fwd.INPUT)) Fwd.inLast - 1 + 10 * Config.ms ≤ (s.after dt).clk) :
    let w := s.after dt
    exec (.fwdInputLoss dt o) s = .next ((w.wr (U.fwd o) Fwd.lossSeen 1).countLimited (U.fwd o) Ctr.Fwd.FWD_INPUT_LOSS 0x0502 0) := by
  refine next_ifUp hu (if_neg ?_)
  rw [hseen]
  rintro (h | h | h | h)
  · omega
  · exact hinput h
  · cases h
  · omega

end

/-- What a sent report leaves: with a repetition left, the same report a second later. -/
def reportAfter (clk : Nat) (due : List Report) (r : Report) : Option Report :=
  if due.contains r then (if r.left ≤ 1 then none else some { r with left := r.left - 1, due := clk + 1000 * Config.ms }) else some r

theorem reportAfter_keeps {clk : Nat} {all : List Report} {r x : Report} (hx : x ∈ all)
    (hr : reportAfter clk (all.filter fun r => decide (r.due ≤ clk)) x = some r) :
    x.g = r.g ∧ x.join = r.join ∧ (clk < x.due ∧ r = x ∨ x.due ≤ clk ∧ 1 < x.left ∧ r.left + 1 = x.left ∧ r.due = clk + 1000 * Config.ms) := by
  have hdue : (all.filter fun r => decide (r.due ≤ clk)).contains x = true ↔ x.due ≤ clk := by
    rw [List.contains_iff_mem, List.mem_filter, decide_eq_true_iff]
    exact and_iff_right hx
  unfold reportAfter at hr
  split at hr
  next hin =>
    split at hr
    next => cases hr
    next hleft =>
      cases hr
      exact ⟨rfl, rfl, .inr ⟨hdue.1 hin, not_le.1 hleft, Nat.sub_add_cancel (le_of_lt (not_le.1 hleft)), rfl⟩⟩
  next hout =>
    cases hr
    exact ⟨rfl, rfl, .inl ⟨not_le.1 fun h => hout (hdue.2 h), rfl⟩⟩

theorem reports_sent {dt m : Nat} {s : State} (hm : m < 144) (hu : (s.after dt).unitBad (U.mac m) = false) (hbusy : (s.after dt).stewardBusy = false)
    (hlane : (s.after dt).rn (U.mac m) Mac.LANE ≠ 511)
    (hany : ((s.after dt).reports m).any (fun r => decide (r.due ≤ (s.after dt).clk)) = true) :
    let w := s.after dt
    let rs := ((w.reports m).filter fun r => decide (r.due ≤ w.clk)).map fun r => (r.join, r.g)
    ∃ l, exec (.mcastReport dt m) s = .next (((w.sendReports m false rs).sendReports m true rs).setBuf (U.mac m) 20 (unreports l)) ∧
      ∀ r ∈ l, (∃ x ∈ w.reports m, x.g = r.g ∧ x.join = r.join ∧
        (w.clk < x.due ∧ r = x ∨ x.due ≤ w.clk ∧ 1 < x.left ∧ r.left + 1 = x.left ∧ r.due = w.clk + 1000 * Config.ms)) := by
  intro w rs
  refine ⟨(w.reports m).filterMap (reportAfter w.clk ((w.reports m).filter fun r => decide (r.due ≤ w.clk))), next_ifUp hu (if_neg ?_), fun r hr => ?_⟩
  · rw [hbusy]
    rintro (h | h | h | h)
    · omega
    · exact hlane h
    · obtain ⟨x, hx, hdue⟩ := List.any_eq_true.1 hany
      exact List.not_mem_nil (List.isEmpty_iff.1 h ▸ List.mem_filter.2 ⟨hx, hdue⟩)
    · cases h
  · obtain ⟨x, hx, hxr⟩ := List.mem_filterMap.1 hr
    exact ⟨x, hx, reportAfter_keeps hx hxr⟩

theorem compat_over {dt m : Nat} {s : State} {v : Bool} (hm : m < 144) (hu : (s.after dt).unitBad (U.mac m) = false)
    (hon : (s.after dt).rb (U.mac m) (Mac.compatEnd v) = true) (hover : (s.after dt).rn (U.mac m) (Mac.compatEnd v) - 1 ≤ (s.after dt).clk) :
    exec (.mcastCompatExpiry dt m v) s = .next ((s.after dt).wr (U.mac m) (Mac.compatEnd v) 0) := by
  refine next_ifUp hu (if_neg ?_)
  rw [hon]
  rintro (h | h | h)
  · omega
  · cases h
  · omega

/-- Settles O47. -/
theorem framesAndMembership : Obligations.FramesAndMembership :=
  fun dt s => ⟨fun m fr taken hm hlane hlink hu => frame_counted hm hlane hlink hu fr taken,
    fun o ho hu hpend hforced hdue => ⟨fun hnew => (cut_forced ho hu hpend hforced hdue).trans (by rw [if_neg hnew]),
      fun hnone => (cut_forced ho hu hpend hforced hdue).trans (by rw [if_pos hnone])⟩,
    fun o ho hu hinput hseen hdue => input_silent ho hu hinput hseen hdue,
    fun m q hm hu hlane hlink => query_acts hm hlane hlink hu q,
    fun m hm hu hbusy hlane hany => reports_sent hm hu hbusy hlane hany,
    fun m v hm hu hon hover => compat_over hm hu hon hover⟩

end Sys2Proof.Laws
end

section
/-!
Receive contexts release, lose and relatch their flows, and show the second that ended (O48).
-/
namespace Sys2Proof.Laws
open Sys2Proof Sys2Proof.Machine

/-- The timeout of a receive context that carries no video, by its TYPE (R213). -/
def flowTimeout (w : State) (c : Nat) : Nat := match w.rn (U.rx c) Rx.TYPE with
  | 2 => 2 * packetSamples (w.rn (U.rx c) Rx.PTIME) * Config.second / 48000
  | 3 => 2 * packetSamples (w.rn (U.rx c) Rx.PTIME) * Config.second / 48000
  | 4 => 2 * Config.ms
  | _ => 2 * (raster (w.rn (U.rx c) Rx.RASTER)).line

theorem flowTimeout_audio {w : State} {c : Nat} (h : w.rn (U.rx c) Rx.TYPE = 2 ∨ w.rn (U.rx c) Rx.TYPE = 3) :
    flowTimeout w c = 2 * packetSamples (w.rn (U.rx c) Rx.PTIME) * Config.second / 48000 := by
  rcases h with h | h <;> simp only [flowTimeout, h]

theorem flowTimeout_anc {w : State} {c : Nat} (h : w.rn (U.rx c) Rx.TYPE = 4) : flowTimeout w c = 2 * Config.ms := by
  simp only [flowTimeout, h]

theorem flowTimeout_datagrams {w : State} {c : Nat} (h : w.rn (U.rx c) Rx.TYPE = 5) :
    flowTimeout w c = 2 * (raster (w.rn (U.rx c) Rx.RASTER)).line := by
  simp only [flowTimeout, h]

section
variable {dt c : Nat} {s : State} (hc : c < 8192) (hu : (s.after dt).unitBad (U.rx c) = false)
include hc hu

section
variable (hst : (s.after dt).rd (U.rx c) Rx.STATE = rxSync ∨ (s.after dt).rd (U.rx c) Rx.STATE = rxRunning)
include hst

omit hc hu in
theorem rx_runs : ¬ (!((s.after dt).rd (U.rx c) Rx.STATE == rxSync || (s.after dt).rd (U.rx c) Rx.STATE == rxRunning)) = true := by
  rw [Bool.not_eq_true', Bool.not_eq_false, Bool.or_eq_true, beq_iff_eq, beq_iff_eq]
  exact hst

theorem line_released (htype : (s.after dt).rn (U.rx c) Rx.TYPE = 1) (hany : (s.after dt).rb (U.rx c) Rx.any = true) :
    let w := s.after dt
    let u := U.rx c
    let k := if w.rn u Rx.relL = 0 then w.rd u Rx.firstK + 1 else w.rd u Rx.relK
    let line : Int := if w.rn u Rx.relL = 0 then 1 else w.rd u Rx.relL
    w.rxRelease c k line ≤ w.now → exec (.lineRelease dt c) s = .next (w.releaseLine c k line) := by
  intro w u k line hnow
  refine next_ifUp hu (if_neg ?_)
  rw [hany]
  rintro (h | h | h | h | h)
  · omega
  · exact h htype
  · exact rx_runs hst h
  · cases h
  · exact not_lt.2 hnow h

/-- What orders the datagrams that are due: their instant, or how far ahead of the last one their number is. -/
def releaseRank (last : Nat) (r : List Int) : Int := if last = 0 then at_ r 1 else aheadOf last (at_ r 0)

theorem datagram_released (htype : (s.after dt).rn (U.rx c) Rx.TYPE = 5) :
    let w := s.after dt
    let u := U.rx c
    let due := (w.rows u 0 4).filter fun r => decide (at_ r 1 ≤ w.now)
    let last := w.rn u Rx.relSeq
    due ≠ [] → ∃ r ∈ due, exec (.datagramRelease dt c) s = .next (w.releaseDatagram c r) ∧
      ∀ x ∈ due, if last = 0 then at_ r 1 ≤ at_ x 1 else aheadOf last (at_ r 0) ≤ aheadOf last (at_ x 0) := by
  intro w u due last hdue
  have hgo : ¬ (8192 ≤ c ∨ w.rn u Rx.TYPE ≠ 5 ∨ (!(w.rd u Rx.STATE == rxSync || w.rd u Rx.STATE == rxRunning)) = true) := by
    rintro (h | h | h)
    · omega
    · exact h htype
    · exact rx_runs hst h
  have hlast (b r : List Int) :
      (if (if last = 0 then at_ r 1 < at_ b 1 else aheadOf last (at_ r 0) < aheadOf last (at_ b 0)) then some r else some b) =
        if releaseRank last r < releaseRank last b then some r else some b := by
    unfold releaseRank
    split <;> rfl
  have hrank (r x : List Int) (h : releaseRank last r ≤ releaseRank last x) :
      if last = 0 then at_ r 1 ≤ at_ x 1 else aheadOf last (at_ r 0) ≤ aheadOf last (at_ x 0) := by
    unfold releaseRank at h
    split
    next h0 => rwa [if_pos h0, if_pos h0] at h
    next h0 => rwa [if_neg h0, if_neg h0] at h
  cases hbest : due.foldl (fun (a : Option (List Int)) r => match a with
      | none => some r
      | some b => if (if last = 0 then at_ r 1 < at_ b 1 else aheadOf last (at_ r 0) < aheadOf last (at_ b 0)) then some r else some b) none with
  | none => exact absurd (foldl_best_none (releaseRank last) _ (fun _ => rfl) hlast due none hbest).1 hdue
  | some r =>
    obtain ⟨hmem, hleast, -⟩ := foldl_best (releaseRank last) _ (fun _ => rfl) hlast due none r hbest
    refine ⟨r, hmem.resolve_right (nomatch ·), next_ifUp hu ((if_neg hgo).trans ?_), fun x hx => hrank r x (hleast x hx)⟩
    exact congrArg (fun o : Option (List Int) => match o with
      | none => w
      | some r => w.releaseDatagram c r) hbest

/-- What remains of a sample's release: the context with the sample taken out, and the instant's number moved on. -/
def sampleTaken (w : State) (c : Nat) : State :=
  (((w.setRows (U.rx c) 0 ((w.rows (U.rx c) 0 (1 + 2 * w.rn (U.rx c) Rx.CHANNELS)).filter fun r =>
    decide (w.rd (U.rx c) Rx.relIdx - 1 < at_ r 0))).winSettle c).rxEnter c rxRunning).wr (U.rx c) Rx.relIdx (w.rd (U.rx c) Rx.relIdx + 1)

section
variable {f : Feed} (htype : (s.after dt).rn (U.rx c) Rx.TYPE = 2 ∨ (s.after dt).rn (U.rx c) Rx.TYPE = 3)
  (hidx : (s.after dt).rd (U.rx c) Rx.relIdx ≠ 0) (hfeed : feedOf 0xA0 c 0 ((s.after dt).valsOf (U.rx c) Rx.rxflowParams) = some f)
  (hnow : sampleAt ((s.after dt).rd (U.rx c) Rx.relIdx - 1) + (s.after dt).rxOffset c ≤ (s.after dt).now)
include htype hidx hnow

omit hu in
theorem sample_due : ¬ (8192 ≤ c ∨ (!((s.after dt).rn (U.rx c) Rx.TYPE == 2 || (s.after dt).rn (U.rx c) Rx.TYPE == 3)) = true ∨
    (!((s.after dt).rd (U.rx c) Rx.STATE == rxSync || (s.after dt).rd (U.rx c) Rx.STATE == rxRunning)) = true ∨ (s.after dt).rd (U.rx c) Rx.relIdx = 0 ∨
    ((s.after dt).now : Int) < sampleAt ((s.after dt).rd (U.rx c) Rx.relIdx - 1) + (s.after dt).rxOffset c) := by
  rintro (h | h | h | h | h)
  · omega
  · rw [Bool.not_eq_true', Bool.or_eq_false_iff, beq_eq_false_iff_ne, beq_eq_false_iff_ne] at h
    exact htype.elim h.1 h.2
  · exact rx_runs hst h
  · exact hidx h
  · exact not_lt.2 hnow h

include hfeed

theorem sample_missing (hnone : ((s.after dt).rows (U.rx c) 0 (1 + 2 * (s.after dt).rn (U.rx c) Rx.CHANNELS)).find?
      (fun r => at_ r 0 == (s.after dt).rd (U.rx c) Rx.relIdx - 1) = none) :
    exec (.audioFlowRelease dt c) s = .next (sampleTaken (s.after dt) c) := by
  refine next_ifUp hu ((if_neg (sample_due hc hst htype hidx hnow)).trans ?_)
  simp only [hfeed, hnone]
  rfl

section
variable {r : List Int} (hrow : ((s.after dt).rows (U.rx c) 0 (1 + 2 * (s.after dt).rn (U.rx c) Rx.CHANNELS)).find?
    (fun r => at_ r 0 == (s.after dt).rd (U.rx c) Rx.relIdx - 1) = some r)
  (hvideo : ((s.after dt).groupVideo c).any (fun v => (s.after dt).rd (U.rx v) Rx.STATE != rxRunning) = false)
include hrow hvideo

theorem sample_released : let w := s.after dt
    let u := U.rx c
    let ch := w.rn u Rx.CHANNELS
    let y := (sampleTaken w c).tapSource f (sampleAt (w.rd u Rx.relIdx - 1) + w.rxOffset c + w.seatDelay (w.rn u Rx.SEAT))
      ((List.range ch).map fun q => some (at_ r (1 + q) * 16))
    (w.rn u Rx.TYPE = 2 → exec (.audioFlowRelease dt c) s = .next y) ∧
    (w.rn u Rx.TYPE = 3 → ∃ m, exec (.audioFlowRelease dt c) s = .next ((List.range ch).foldl (fun a q =>
      (a.rxChannelStatus u q (at_ r (1 + ch + q)).toNat).keepVU (f.first + q) m (bitAt (at_ r (1 + ch + q)).toNat 0) (bitAt (at_ r (1 + ch + q)).toNat 1)) y)) := by
  intro w u ch y
  let tau := sampleAt (w.rd u Rx.relIdx - 1) + w.rxOffset c + w.seatDelay (w.rn u Rx.SEAT)
  refine ⟨fun h2 => next_ifUp hu ((if_neg (sample_due hc hst htype hidx hnow)).trans ?_),
    fun h3 => ⟨if y.followsDecisions then gridCeil (tau + 250 * Config.us) 48000 else y.rd u Src.last - 1, next_ifUp hu ((if_neg (sample_due hc hst htype hidx hnow)).trans ?_)⟩⟩
  · simp only [hfeed, hrow, hvideo, show (s.after dt).rn (U.rx c) Rx.TYPE = 2 from h2]
    rfl
  · simp only [hfeed, hrow, hvideo, show (s.after dt).rn (U.rx c) Rx.TYPE = 3 from h3]
    rfl

end

end

theorem video_flow_lost (htype : (s.after dt).rn (U.rx c) Rx.TYPE = 1) (hnone : 2 ≤ (s.after dt).rn (U.rx c) Rx.noData) :
    exec (.flowLost dt c) s = .next ((s.after dt).rxEnter c rxGone) := by
  refine next_ifUp hu (if_neg ?_)
  rintro (h | h | h)
  · omega
  · exact rx_runs hst h
  · rw [if_pos htype] at h
    exact Bool.false_ne_true (h.symm.trans (decide_eq_true hnone))

/-- A context of another type is lost when it has accepted nothing for its timeout. -/
theorem silent_flow_lost {wait : Nat} (htype : (s.after dt).rn (U.rx c) Rx.TYPE ≠ 1)
    (hwait : flowTimeout (s.after dt) c = wait) (hsilent : (s.after dt).rn (U.rx c) Rx.lastAt - 1 + wait ≤ (s.after dt).clk) :
    exec (.flowLost dt c) s = .next ((s.after dt).rxEnter c rxGone) := by
  subst hwait
  refine next_ifUp hu (if_neg ?_)
  rintro (h | h | h)
  · omega
  · exact rx_runs hst h
  · rw [if_neg htype] at h
    exact Bool.false_ne_true (h.symm.trans (decide_eq_true hsilent))

end

theorem leg_goes_down {leg : Nat} (hleg : leg < 2) (hmerge : (s.after dt).rb (U.rx c) Rx.MERGE = true)
    (hup : bitAt ((s.after dt).rn (U.rx c) Rx.LEGS) leg = true) (hquiet : (s.after dt).rn (U.rx c) (Rx.legAt leg) - 1 + Config.ms ≤ (s.after dt).clk)
    (hother : bitAt ((s.after dt).rn (U.rx c) Rx.LEGS) (1 - leg) = true)
    (hheard : (s.after dt).clk < (s.after dt).rn (U.rx c) (Rx.legAt (1 - leg)) - 1 + Config.ms) : let w := s.after dt; let u := U.rx c
    exec (.legDown dt c leg) s = .next ((w.wr u Rx.LEGS (clearBit (w.rn u Rx.LEGS) leg)).post u 0x040C leg) := by
  refine next_ifUp hu (if_neg ?_)
  rw [hmerge, hup, hother, decide_eq_true hquiet, decide_eq_true hheard]
  rintro (h | h | h | h | h | h)
  · omega
  · omega
  all_goals cases h

theorem ssrc_relatches (hmode : (s.after dt).rn (U.rx c) Rx.SSRC_MODE = 1)
    (h0 : (s.after dt).rn (U.rx c) (Rx.accAt 0) - 1 + 10 * Config.ms ≤ (s.after dt).clk)
    (h1 : (s.after dt).rn (U.rx c) (Rx.accAt 1) - 1 + 10 * Config.ms ≤ (s.after dt).clk) :
    exec (.ssrcRelatch dt c) s = .next ((s.after dt).wrs (U.rx c) [(Rx.latched 0, 0), (Rx.latched 1, 0)]) := by
  have hquiet (leg : Nat) (hleg : (s.after dt).rn (U.rx c) (Rx.accAt leg) - 1 + 10 * Config.ms ≤ (s.after dt).clk) :
      (s.after dt).latchQuiet c leg = true := by
    simp only [State.latchQuiet, decide_eq_true_eq]
    split
    · exact hleg
    · omega
  refine next_ifUp hu ((if_neg ?_).trans ?_)
  · rintro (h | h)
    · omega
    · exact h hmode
  · rw [hquiet 0 h0, hquiet 1 h1]
    rfl

end

/-- Each second's peak load, skew and lead are shown, and gathering begins anew. -/
theorem second_shown {dt c : Nat} {s : State} (hc : c < 8192) (hnew : (s.after dt).rn U.mix Mix.secondAt ≠ (s.after dt).nowS + 1) :
    let w := s.after dt
    let u := U.rx c
    ∃ t, exec (.previousSecondUpdate dt) s = .next t ∧ t.rd U.mix Mix.LOAD_PEAK = Mix.LOAD_PEAK.norm (w.rd U.mix Mix.peak) ∧
      t.rd U.mix Mix.peak = Mix.peak.norm (w.rd U.mix Mix.LOAD) ∧
      ((w.regs.filter fun e => e.1.unit == u && e.1.pos == Rx.TYPE.pos).length = 1 → t.rd u Rx.SKEW_MAX = Rx.SKEW_MAX.norm (w.rd u Rx.skewNow) ∧
        t.rd u Rx.LEAD_MAX = Rx.LEAD_MAX.norm (if w.rb u Rx.haveLead then w.rd u Rx.maxNow else 0) ∧ t.rd u Rx.skewNow = 0) := by
  intro w u
  have hmix (f : Field) := flowSecond_other _ w U.mix (units_out w.regs Rx.TYPE.pos U.mix (U.rx 0) (U.rx 8192) (by decide)) f
  have hne : u ≠ U.mix := by
    show U.rx c ≠ U.mix
    unfold U.rx U.mix
    omega
  refine ⟨_, next_if_neg hnew rfl, ?_, ?_, fun hone => ?_⟩
  · refine (wrs_hit [] [(_, _), (_, _)] U.mix Mix.LOAD_PEAK _ ?_ _).trans (congrArg _ (hmix _))
    simp [Mix.LOAD_PEAK, Mix.peak, Mix.secondAt]
  · refine (wrs_hit [(_, _)] [(_, _)] U.mix Mix.peak _ ?_ _).trans (congrArg _ (hmix _))
    simp [Mix.peak, Mix.secondAt]
  · rw [wrs_unit _ _ _ _ _ hne, wrs_unit _ _ _ _ _ hne, wrs_unit _ _ _ _ _ hne]
    refine flowSecond_once _ w u ((count_units w.regs Rx.TYPE.pos u (U.rx 0) (U.rx 8192) ?_ ?_).trans hone)
    · show U.rx 0 ≤ U.rx c
      unfold U.rx
      omega
    · show U.rx c < U.rx 8192
      unfold U.rx
      omega

/-- Settles O48. -/
theorem flowsReleased : Obligations.FlowsReleased :=
  fun dt c s hc hu => ⟨fun hst => ⟨fun htype hany => line_released hc hu hst htype hany, fun htype => datagram_released hc hu hst htype,
      fun f htype hidx hfeed hnow => ⟨fun hnone => sample_missing hc hu hst htype hidx hfeed hnow hnone,
        fun r hrow hvideo => sample_released hc hu hst htype hidx hfeed hnow hrow hvideo⟩,
      fun htype hnone => video_flow_lost hc hu hst htype hnone,
      fun htype => silent_flow_lost hc hu hst (by omega) (flowTimeout_audio htype),
      fun htype => silent_flow_lost hc hu hst (by omega) (flowTimeout_anc htype),
      fun htype => silent_flow_lost hc hu hst (by omega) (flowTimeout_datagrams htype)⟩,
    fun leg hleg hmerge hup hquiet hother hheard => leg_goes_down hc hu hleg hmerge hup hquiet hother hheard,
    fun hmode h0 h1 => ssrc_relatches hc hu hmode h0 h1, fun hnew => second_shown hc hnew⟩

end Sys2Proof.Laws
end

section
/-!
Transmit contexts send their packets and go idle (O49).
-/
namespace Sys2Proof.Laws
open Sys2Proof Sys2Proof.Machine

section
variable {dt c : Nat} {s : State} (hc : c < 8192) (hu : (s.after dt).unitBad (U.tx c) = false) (hon : (s.after dt).rd (U.tx c) Tx.STATE ≠ txOff)
include hc hu hon

theorem video_packet_leaves (hbusy : (s.after dt).rd (U.tx c) Tx.STATE ≠ txIdle) (htype : (s.after dt).rn (U.tx c) Tx.TYPE = 1) {r : List Int}
    {rest : List (List Int)} (hrows : (s.after dt).rows (U.tx c) 1 8 = r :: rest) :
    let w := s.after dt
    let u := U.tx c
    let n := w.rn u Tx.n
    let total := (at_ r 4).toNat
    let srds := srdsOf (w.rn u Tx.RASTER) (w.rn u Tx.SAMPLING) (w.rn u Tx.DEPTH) (at_ r 6).toNat (at_ r 7).toNat n (at_ r 3).toNat
    let len : Nat := (srds.map fun x => x.2.2).foldl (· + ·) 0
    let due := at_ r 0 + trOffset (w.rn u Tx.RASTER) (w.rn u Tx.TR_OFFSET) + (trsGrains (w.rn u Tx.RASTER) (w.rn u Tx.SENDER) n total : Nat)
    due ≤ w.now → len ≤ (w.buf u 0).length → at_ r 5 ≠ 1 ∨ w.rb u Tx.tsDue = false →
    let q := ((at_ r 2 + n) % 2 ^ 32).toNat
    let x := w.txSend c ⟨n + 1 == total, w.rn u Tx.PT, q, (at_ r 1).toNat, w.rn u Tx.SSRC,
      toBe 2 (q / 65536) ++ srdHeaders (at_ r 3).toNat srds ++ ((w.buf u 0).take len).map Int.toNat⟩
    let y := (if due + Config.us < w.now then x.count u Ctr.Tx.TX_LATE_PACKETS else x).setBuf u 0 ((w.buf u 0).drop len)
    exec (.packetDeparture dt c) s = .next (if n + 1 = total then (y.setRows u 1 rest).wr u Tx.n 0 else y.wr u Tx.n (n + 1)) := by
  intro w u n total srds len due hdue hlen hts q x y
  refine next_ifUp hu ((if_neg ?_).trans ?_)
  · rintro (h | h | h | h)
    · omega
    · exact h htype
    · exact hon h
    · exact hbusy h
  · rw [hrows]
    refine if_neg ?_
    rintro (h | h | ⟨h5, h⟩)
    · exact not_lt.2 hdue h
    · exact not_lt.2 hlen h
    · exact hts.elim (· h5) fun hno => Bool.false_ne_true (hno.symm.trans h)

theorem audio_packet_leaves (htype : (s.after dt).rn (U.tx c) Tx.TYPE = 2 ∨ (s.after dt).rn (U.tx c) Tx.TYPE = 3)
    (hidx : (s.after dt).rd (U.tx c) Tx.idx ≠ 0) :
    let w := s.after dt
    let u := U.tx c
    let n := packetSamples (w.rn u Tx.PTIME)
    let idx := w.rd u Tx.idx - 1
    sampleAt (idx + n) + 10 * Config.us ≤ w.now →
    let r := w.audioOctets c idx
    exec (.audioPacketDeparture dt c) s = .next ((r.2.txSend c ⟨false, w.rn u Tx.PT, w.nextSeq c, ((idx + w.rd u Tx.TS_ADJ) % 2 ^ 32).toNat,
      w.rn u Tx.SSRC, r.1⟩).wr u Tx.idx (idx + n + 1)) := by
  intro w u n idx hnow r
  refine next_ifUp hu (if_neg ?_)
  rintro (h | h | h | h | h)
  · omega
  · rw [Bool.not_eq_true', Bool.or_eq_false_iff, beq_eq_false_iff_ne, beq_eq_false_iff_ne] at h
    exact htype.elim h.1 h.2
  · exact hon h
  · exact hidx h
  · exact not_lt.2 hnow h

section
variable (hbusy : (s.after dt).rd (U.tx c) Tx.STATE ≠ txIdle) (hts : (s.after dt).rb (U.tx c) Tx.tsDue = false) {r : List Int} {rest : List (List Int)}
include hbusy hts

omit hu in
/-- A context that is on, is not idle and owes no timestamp decision may send. -/
theorem tx_may_send {k : Nat} (htype : (s.after dt).rn (U.tx c) Tx.TYPE = k) :
    ¬ (8192 ≤ c ∨ (s.after dt).rn (U.tx c) Tx.TYPE ≠ k ∨ (s.after dt).rd (U.tx c) Tx.STATE = txOff ∨ (s.after dt).rd (U.tx c) Tx.STATE = txIdle ∨
      (s.after dt).rb (U.tx c) Tx.tsDue = true) := by
  rw [hts]
  rintro (h | h | h | h | h)
  · omega
  · exact h htype
  · exact hon h
  · exact hbusy h
  · cases h

theorem anc_packet_leaves (htype : (s.after dt).rn (U.tx c) Tx.TYPE = 4) (hrows : (s.after dt).rows (U.tx c) 2 6 = r :: rest) :
    let w := s.after dt
    let u := U.tx c
    let x := w.ancNext c (r :: rest)
    exec (.ancPacketDeparture dt c) s = .next ((w.txSend c ⟨x.2.2, w.rn u Tx.PT, w.nextSeq c, (at_ r 0).toNat, w.rn u Tx.SSRC,
      ancBody (w.nextSeq c) x.1⟩).setRows u 2 x.2.1) := by
  refine next_ifUp hu ((if_neg (tx_may_send hc hon hbusy hts htype)).trans ?_)
  rw [hrows]

theorem datagram_leaves (htype : (s.after dt).rn (U.tx c) Tx.TYPE = 5) (hrows : (s.after dt).rows (U.tx c) 1 3 = r :: rest) :
    let w := s.after dt
    let u := U.tx c
    let ras := raster (w.rn u Tx.RASTER)
    let all := (at_ r 2).toNat
    let n := (at_ r 1).toNat
    let len := min 11008 (all - n * 11008)
    len ≤ (w.buf u 0).length → w.followsDecisions = false ∨ w.rb u Tx.haveTs = true →
    let last := decide (all ≤ (n + 1) * 11008)
    let own := w.rtpTs c 27000000 (at_ r 0 + (n * 11008 / 10 * ras.line / ras.words : Nat))
    ∃ body, exec (.datagramDeparture dt c) s = .next ((((((w.decide_ 4 u own).txSend c
      ⟨last, w.rn u Tx.PT, w.nextSeq c, if w.rn u Tx.haveTs = 1 then w.rn u Tx.frameTs else own, w.rn u Tx.SSRC, body⟩).setBuf u 0 ((w.buf u 0).drop len)).setRows u 1
        (if last then rest else [at_ r 0, (n + 1 : Nat), at_ r 2] :: rest))).wr u Tx.haveTs 0) := by
  intro w u ras all n len hlen hpartner last own
  let data := ((w.buf u 0).take len).map (· != 0) ++ List.replicate (11008 - len) false
  let octets := (chunks 8 data.length data).map fun b => b.foldl (fun k x => 2 * k + if x then 1 else 0) 0
  refine ⟨[8, w.rn u Tx.frCount] ++ toBe 2 0 ++ toBe 3 (hbrmtCodes (w.rn u Tx.RASTER)) ++ [0] ++ octets,
    next_ifUp hu ((if_neg (tx_may_send hc hon hbusy hts htype)).trans ?_)⟩
  rw [hrows]
  refine (if_neg (not_lt.2 hlen)).trans (if_neg ?_)
  rintro ⟨hfollows, hnone⟩
  rcases hpartner with hno | hhave
  · exact Bool.false_ne_true (hno.symm.trans hfollows)
  · exact Bool.false_ne_true (hnone.symm.trans hhave)

end

end

theorem output_idles {dt c d : Nat} {s : State} (hc : c < 8192) (hd : 1152 ≤ d) (hd2 : d < 2304) (hu : (s.after dt).unitBad (U.cell d) = false)
    (hfollow : (s.after dt).cellTimed d = false) (hmem : c ∈ (s.after dt).txOf (d - 1152)) :
    let w := s.after dt
    let u := U.tx c
    let line := match (w.txOf (d - 1152)).find? fun v => w.rn (U.tx v) Tx.TYPE == 1 || w.rn (U.tx v) Tx.TYPE == 5 with
      | some v => (raster (w.rn (U.tx v) Tx.RASTER)).line
      | none => (w.planRas (w.cellN d Cell.PLAN)).line
    w.rn (U.cell d) Cell.outAt - 1 + 2 * line ≤ w.clk → ∃ t, exec (.txIdle dt d) s = .next t ∧
      (w.rn u Tx.TYPE = 2 ∨ w.rn u Tx.TYPE = 3 → t.rd u Tx.silent = 1) ∧
      (w.rn u Tx.TYPE ≠ 2 → w.rn u Tx.TYPE ≠ 3 → w.rn u Tx.STATE ≠ 0 → t.rd u Tx.STATE = txIdle) := by
  intro w u line hsilent
  refine ⟨_, next_ifUp hu (if_neg ?_), idle_fold c hc _ _ (fun _ _ => rfl) w hmem⟩
  rw [hfollow]
  rintro (h | h | h | h)
  · omega
  · omega
  · cases h
  · exact not_lt.2 hsilent h

/-- Settles O49. -/
theorem packetsLeave : Obligations.PacketsLeave :=
  fun _ c _ hc => ⟨fun x p => ⟨(txSend_facts x c p hc).1, (txSend_facts x c p hc).2.1⟩,
    fun hu hon => ⟨fun hbusy htype _ _ hrows => video_packet_leaves hc hu hon hbusy htype hrows,
      fun htype hidx => audio_packet_leaves hc hu hon htype hidx,
      fun hbusy htype hts _ _ hrows => anc_packet_leaves hc hu hon hbusy hts htype hrows,
      fun hbusy htype hts _ _ hrows => datagram_leaves hc hu hon hbusy hts htype hrows⟩,
    fun _ hd hd2 hu hfollow hmem => output_idles hc hd hd2 hu hfollow hmem⟩

end Sys2Proof.Laws
end

section
/-!
PTP messages act on the instances that hear them (O50).
-/
namespace Sys2Proof.Laws
open Sys2Proof Sys2Proof.Machine

section
variable {dt mac : Nat} {p : PtpIn} {s : State} (hu : (s.after dt).unitBad (U.mac mac) = false)
include hu

theorem sync_heard : let w := s.after dt
    ∃ f : State → Nat → State, exec (.ptpSyncRx dt mac p) s = .next ((w.instancesOn mac p).foldl f (w.tcForward mac 0 p)) ∧
      ∀ a i, let u := U.ptp i
        let b := (a.count u Ctr.Ptp.SYNC_RX).wr u Ptp.LOG_SYNC p.logInterval
        (∀ x, a.ptpReject i p = some x → f a i = x) ∧ (a.ptpReject i p = none →
          (a.fromParent i p = false → f a i = a) ∧
          (a.fromParent i p = true → b.rb u Ptp.syncSeq = false →
            f a i = if p.twoStep then b.wrs u [(Ptp.syncSeq, p.seq + 1), (Ptp.syncT2, w.ingressTs mac), (Ptp.syncCf, p.cf * subGrains)]
              else b.ptpMeasure i (ptpTime p) (p.cf * subGrains) (w.ingressTs mac))) := by
  refine ⟨_, next_ifUp hu rfl, fun a i => ⟨fun x hx => ?_, fun hnone => ⟨fun hother => ?_, fun hparent hseq => ?_⟩⟩⟩
  · simp only [hx]
  · simp only [hnone, hother, Bool.not_false, if_true]
  · simp only [hnone, hparent, hseq, Bool.not_true, Bool.false_eq_true, if_false]

theorem followUp_heard : let w := s.after dt
    ∃ f : State → Nat → State, exec (.ptpFollowUpRx dt mac p) s = .next ((w.instancesOn mac p).foldl f (w.tcForward mac 8 p)) ∧
      ∀ a i, let u := U.ptp i
        let b := a.count u Ctr.Ptp.FOLLOWUP_RX
        (∀ x, a.ptpReject i p = some x → f a i = x) ∧ (a.ptpReject i p = none →
          (a.fromParent i p = false → f a i = a) ∧
          (a.fromParent i p = true → b.rn u Ptp.syncSeq = p.seq + 1 → (b.now : Int) - b.rd u Ptp.syncT2 ≤ logInterval (b.rd u Ptp.LOG_SYNC) →
            f a i = b.ptpMeasure i (ptpTime p) (b.rd u Ptp.syncCf + p.cf * subGrains) (b.rd u Ptp.syncT2)) ∧
          (a.fromParent i p = true → b.rn u Ptp.syncSeq ≠ p.seq + 1 → f a i = (b.wr u Ptp.syncSeq 0).countLimited u Ctr.Ptp.PTP_UNMATCHED 0 0)) := by
  refine ⟨_, next_ifUp hu rfl, fun a i => ⟨fun x hx => ?_, fun hnone => ⟨fun hother => ?_, fun hparent hseq htime => ?_, fun hparent hseq => ?_⟩⟩⟩
  · simp only [hx]
  · simp only [hnone, hother, Bool.not_false, if_true]
  · simp only [hnone, hparent, Bool.not_true, Bool.false_eq_true, if_false]
    exact if_neg (not_or.2 ⟨not_not.2 hseq, not_lt.2 htime⟩)
  · simp only [hnone, hparent, Bool.not_true, Bool.false_eq_true, if_false]
    exact if_pos (.inl hseq)

theorem delayResp_heard : let w := s.after dt
    ∃ f : State → Nat → State, exec (.ptpDelayRespRx dt mac p) s = .next ((w.instancesOn mac p).foldl f (w.tcForward mac 9 p)) ∧
      ∀ a i, let u := U.ptp i
        let b := a.count u Ctr.Ptp.DELAY_RESP_RX
        (∀ x, a.ptpReject i p = some x → f a i = x) ∧ (a.ptpReject i p = none →
          (p.ours = false ∨ a.fromParent i p = false ∨ a.rb u Ptp.DELAY_MECH = true → f a i = a) ∧
          (p.ours = true → a.fromParent i p = true → a.rb u Ptp.DELAY_MECH = false →
            (b.rn u Ptp.reqSeq ≠ p.seq + 1 → f a i = b.countLimited u Ctr.Ptp.PTP_UNMATCHED 0 0) ∧
            (b.rn u Ptp.reqSeq = p.seq + 1 → let c := b.wr u Ptp.reqSeq 0
              let sample := (c.rd u Ptp.ms + (ptpTime p - c.rd u Ptp.t3 - p.cf * subGrains + c.macPs mac Mac.ASYM_PS)) / 2
              c.rb u Ptp.hasMs = true →
              (sample < 0 → f a i = c.countLimited u Ctr.Ptp.NEG_DELAY 0 0) ∧
              (0 ≤ sample → f a i = c.setBuf u 0 ((c.buf u 0 ++ [sample]).drop ((c.buf u 0 ++ [sample]).length - c.rn u Ptp.DELAY_WINDOW)))))) := by
  refine ⟨_, next_ifUp hu rfl, fun a i => ⟨fun x hx => ?_, fun hnone => ⟨fun hother => ?_, fun hours hparent hmech =>
    ⟨fun hseq => ?_, fun hseq hms => ⟨fun hneg => ?_, fun hpos => ?_⟩⟩⟩⟩⟩
  · simp only [hx]
  · simp only [hnone]
    refine if_pos ?_
    rcases hother with h | h | h
    · rw [h]
      rfl
    · rw [h, Bool.not_false, Bool.or_true, Bool.true_or]
    · rw [h, Bool.or_true]
  · simp only [hnone, hours, hparent, hmech, Bool.not_true, Bool.or_false, Bool.false_eq_true, if_false]
    exact if_pos hseq
  · simp only [hnone, hours, hparent, hmech, hms, Bool.not_true, Bool.or_false, Bool.false_eq_true, if_false]
    exact (if_neg (not_not.2 hseq)).trans (if_pos hneg)
  · simp only [hnone, hours, hparent, hmech, hms, Bool.not_true, Bool.or_false, Bool.false_eq_true, if_false]
    exact (if_neg (not_not.2 hseq)).trans (if_neg (not_lt.2 hpos))

theorem announce_heard : let w := s.after dt
    ∃ f : State → Nat → State, exec (.ptpAnnounceRx dt mac p) s = .next ((w.instancesOn mac p).foldl f (w.tcForward mac 11 p)) ∧
      ∀ a i, let u := U.ptp i
        let b := a.count u Ctr.Ptp.ANNOUNCE_RX
        (p.versionOk = false → f a i = a.countLimited u Ctr.Ptp.PTP_FORMAT 0x0700 0) ∧
        (p.versionOk = true → p.checksumOk = false → f a i = a.countLimited u Ctr.Ptp.PTP_CHECKSUM 0 0) ∧
        (p.versionOk = true → p.checksumOk = true → 255 ≤ p.steps ∨ p.domain ≠ a.rn u Ptp.DOMAIN → f a i = a.count u Ctr.Ptp.PTP_ANNOUNCE_REJECTS) ∧
        (p.versionOk = true → p.checksumOk = true → p.steps < 255 → p.domain = a.rn u Ptp.DOMAIN → b.ptpState i = ptListening →
          p.selected = true ∧ b.stewardBusy = false ∨ b.fromParent i p = true → b.rn u Ptp.ACCEPT_GM = 0 ∨ b.rn u Ptp.ACCEPT_GM = p.gm.toNat →
          f a i = b.wrs u [(Ptp.STATE, ptUncal), (Ptp.PARENT_PORT, p.port.toNat), (Ptp.GM_ID, p.gm.toNat), (Ptp.GM_CLASS, p.gmClass), (Ptp.GM_ACCURACY, p.gmAccuracy),
            (Ptp.STEPS_REMOVED, p.steps), (Ptp.UTC_OFFSET, p.utcOffset), (Ptp.UTC_FLAGS, p.utcFlags), (Ptp.annAt, b.clk + 1), (Ptp.annLog, p.logInterval), (Ptp.syncAt, b.clk)]) := by
  refine ⟨_, next_ifUp hu rfl, fun a i => ⟨fun hver => ?_, fun hver hsum => ?_, fun hver hsum hrej => ?_,
    fun hver hsum hsteps hdom hlisten hmine haccept => ?_⟩⟩
  · simp only [hver, Bool.not_false, if_true]
  · simp only [hver, hsum, Bool.not_true, Bool.not_false, Bool.false_eq_true, if_false, if_true]
  · simp only [hver, hsum, Bool.not_true, Bool.false_eq_true, if_false]
    exact if_pos hrej
  · have hidle : ¬ (!(p.selected && !(a.count (U.ptp i) Ctr.Ptp.ANNOUNCE_RX).stewardBusy) &&
        !(a.count (U.ptp i) Ctr.Ptp.ANNOUNCE_RX).fromParent i p) = true := by
      rcases hmine with ⟨hsel, hbusy⟩ | hparent
      · rw [hsel, hbusy]
        exact Bool.false_ne_true
      · rw [hparent, Bool.not_true, Bool.and_false]
        exact Bool.false_ne_true
    have hheld : ¬ ptListening = ptFaulty := by decide
    have hgm : ¬ ((a.count (U.ptp i) Ctr.Ptp.ANNOUNCE_RX).rn (U.ptp i) Ptp.ACCEPT_GM ≠ 0 ∧
        (a.count (U.ptp i) Ctr.Ptp.ANNOUNCE_RX).rn (U.ptp i) Ptp.ACCEPT_GM ≠ p.gm.toNat) :=
      fun h => haccept.elim h.1 h.2
    have hknown : ¬ (255 ≤ p.steps ∨ p.domain ≠ a.rn (U.ptp i) Ptp.DOMAIN) := not_or.2 ⟨not_le.2 hsteps, not_not.2 hdom⟩
    have hlive : (ptListening == ptUncal || ptListening == ptReceiver) = false := by decide
    simp only [hver, hsum, hheld, hidle, hgm, hknown, hlisten, hlive, Bool.not_true, false_and, Bool.false_and, Bool.false_eq_true, if_false, if_true]

section
variable (hmac : mac < 144)
include hmac

theorem pdelayReq_answered (htc : (s.after dt).rn (U.mac mac) Mac.TC_GROUP ≠ 15) (hver : p.versionOk = true) (hsum : p.checksumOk = true) :
    let w := s.after dt
    let x := (w.tcForward mac 2 p).count (U.mac mac) Ctr.Mac.PDELAY_RX
    let n : Nat := if x.rn (U.mac mac) Mac.pdSec = x.nowS + 1 then x.rn (U.mac mac) Mac.pdCount else 0
    (64 ≤ n → exec (.pdelayReqRx dt mac p) s = .next (x.countLimited (U.mac mac) Ctr.Mac.PDELAY_EXCESS 0 0)) ∧
    (n < 64 → let y := (x.wrs (U.mac mac) [(Mac.pdSec, x.nowS + 1), (Mac.pdCount, n + 1)]).free (65536 * 3000)
      exec (.pdelayReqRx dt mac p) s = .next (y.2.ptpSend mac 3 p.transport p.vlan 0 p.domain p.seq
        (p.cf + y.1 + Fx.round ((w.rd (U.mac mac) Mac.INGRESS_PS + w.rd (U.mac mac) Mac.EGRESS_PS) * 65536) 1000))) := by
  intro w x n
  have hhears : ¬ (144 ≤ mac ∨ w.rn (U.mac mac) Mac.TC_GROUP = 15) := not_or.2 ⟨not_le.2 hmac, htc⟩
  have hok : ¬ (!p.versionOk || !p.checksumOk) = true := by
    rw [hver, hsum]
    decide
  exact ⟨fun hmany => next_ifUp hu ((if_neg hhears).trans ((if_neg hok).trans (if_pos hmany))),
    fun hfew => next_ifUp hu ((if_neg hhears).trans ((if_neg hok).trans (if_neg (not_le.2 hfew))))⟩

theorem pdelayResp_measured (hours : p.ours = true) : let w := s.after dt
    (w.rn (U.mac mac) Mac.pdSeq = p.seq + 1 → 0 ≤ (w.ingressTs mac - w.rd (U.mac mac) Mac.pdT1 - p.cf * subGrains) / 2 → exec (.pdelayRespRx dt mac p) s =
      .next ((w.wr (U.mac mac) Mac.pdSeq 0).wr (U.mac mac) Mac.LINK_DELAY_PS ((w.ingressTs mac - w.rd (U.mac mac) Mac.pdT1 - p.cf * subGrains) / 2 / psGrains))) ∧
    (w.rn (U.mac mac) Mac.pdSeq ≠ p.seq + 1 → exec (.pdelayRespRx dt mac p) s =
      .next ((w.instancesOn mac p).foldl (fun a i => a.countLimited (U.ptp i) Ctr.Ptp.PTP_UNMATCHED 0 0) w)) := by
  intro w
  have hhears : ¬ (144 ≤ mac ∨ (!p.ours) = true) := by
    rw [hours]
    exact not_or.2 ⟨not_le.2 hmac, Bool.false_ne_true⟩
  exact ⟨fun hseq hpos => next_ifUp hu ((if_neg hhears).trans ((if_neg (not_not.2 hseq)).trans (if_neg (not_lt.2 hpos)))),
    fun hseq => next_ifUp hu ((if_neg hhears).trans (if_pos hseq))⟩

/-- The settings of the request are those of a client. -/
theorem pdelayReq_sent (hbusy : (s.after dt).stewardBusy = false) (hmeas : (s.after dt).measuresDelay mac = true)
    (hlink : (s.after dt).rb (U.mac mac) Mac.LINK = true) : let w := s.after dt; let q := w.rn (U.mac mac) Mac.pdTx
    ∃ i, exec (.delayReqSend dt 1 mac) s = .next ((w.wrs (U.mac mac) [(Mac.pdSeq, q + 1), (Mac.pdT1, w.egressTs mac), (Mac.pdTx, q + 1)]).ptpSend
      mac 2 (w.rn (U.ptp i) Ptp.TRANSPORT) (w.rn (U.ptp i) Ptp.VLAN) (w.rn (U.ptp i) Ptp.DSCP) (w.rn (U.ptp i) Ptp.DOMAIN) q 0) := by
  intro w q
  refine ⟨((List.range 2).find? fun i => w.rb (U.ptp i) Ptp.ENABLE && w.ptpMac i == mac && w.rb (U.ptp i) Ptp.DELAY_MECH).getD 0,
    next_ifUp hu ((if_neg (Bool.eq_false_iff.1 hbusy)).trans ((if_neg (by decide)).trans (if_neg ?_)))⟩
  rw [hmeas, hlink]
  exact not_or.2 ⟨not_le.2 hmac, by decide⟩

end

end

section
variable {dt n : Nat} {s : State} (hn : n < 2) (hu : (s.after dt).unitBad (U.ptp n) = false)
include hn hu

theorem delayReq_sent (hbusy : (s.after dt).stewardBusy = false) (hmech : (s.after dt).rb (U.ptp n) Ptp.DELAY_MECH = false)
    (hlive : (s.after dt).ptpState n = ptUncal ∨ (s.after dt).ptpState n = ptReceiver)
    (hlink : (s.after dt).rb (U.mac ((s.after dt).ptpMac n)) Mac.LINK = true) : let w := s.after dt; let u := U.ptp n; let q := w.rn u Ptp.txSeq
    exec (.delayReqSend dt 0 n) s = .next (((w.wrs u [(Ptp.reqSeq, q + 1), (Ptp.t3, w.egressTs (w.ptpMac n)), (Ptp.txSeq, q + 1)]).ptpSend
      (w.ptpMac n) 1 (w.rn u Ptp.TRANSPORT) (w.rn u Ptp.VLAN) (w.rn u Ptp.DSCP) (w.rn u Ptp.DOMAIN) q 0).count u Ctr.Ptp.DELAY_REQ_TX) := by
  refine next_ifUp hu ((if_neg (Bool.eq_false_iff.1 hbusy)).trans ((if_pos rfl).trans (if_neg ?_)))
  rw [hmech, hlink]
  rintro (h | h | h | h)
  · omega
  · cases h
  · rw [Bool.not_eq_true', Bool.or_eq_false_iff, beq_eq_false_iff_ne, beq_eq_false_iff_ne] at h
    exact hlive.elim h.1 h.2
  · cases h

section
variable (hon : (s.after dt).rb (U.ptp n) Ptp.ENABLE = true)
include hon

omit hu in
theorem client_watched : ¬ (2 ≤ n ∨ (!(s.after dt).rb (U.ptp n) Ptp.ENABLE) = true) := by
  rw [hon]
  exact not_or.2 ⟨not_le.2 hn, Bool.false_ne_true⟩

theorem link_loss_reported (hlink : (s.after dt).rb (U.mac ((s.after dt).ptpMac n)) Mac.LINK = false) (hst : (s.after dt).ptpState n ≠ ptFaulty) :
    exec (.announceTimeout dt n) s = .next ((s.after dt).ptpLoss n lostLink ptFaulty) :=
  next_ifUp hu ((if_neg (client_watched hn hon)).trans (if_pos ⟨by rw [hlink]; rfl, hst⟩))

theorem parent_late (hlink : (s.after dt).rb (U.mac ((s.after dt).ptpMac n)) Mac.LINK = true)
    (hlive : (s.after dt).ptpState n = ptUncal ∨ (s.after dt).ptpState n = ptReceiver) : let w := s.after dt; let u := U.ptp n
    let late := w.rb u Ptp.annAt = true ∧ w.rn u Ptp.annAt - 1 + w.rn u Ptp.ANNOUNCE_TIMEOUT * logInterval (w.rd u Ptp.annLog) ≤ w.clk
    (late → exec (.announceTimeout dt n) s = .next (((w.count u Ctr.Ptp.PTP_TIMEOUTS).wr u Ptp.annAt 0).ptpLoss n lostTimeout ptUncal)) ∧
    (¬ late → w.ptpState n = ptReceiver → w.rn u Ptp.syncAt + 3 * logInterval (w.rd u Ptp.LOG_SYNC) ≤ w.clk →
      exec (.announceTimeout dt n) s = .next (w.ptpLoss n lostSync ptUncal)) := by
  intro w u late
  have hup : ¬ ((!w.rb (U.mac (w.ptpMac n)) Mac.LINK) = true ∧ w.ptpState n ≠ ptFaulty) := by
    rw [show w.rb (U.mac (w.ptpMac n)) Mac.LINK = true from hlink]
    exact fun h => Bool.false_ne_true h.1
  have hruns : ¬ (!(w.ptpState n == ptUncal || w.ptpState n == ptReceiver)) = true := by
    rw [Bool.not_eq_true', Bool.not_eq_false, Bool.or_eq_true, beq_iff_eq, beq_iff_eq]
    exact hlive
  exact ⟨fun hlate => next_ifUp hu ((if_neg (client_watched hn hon)).trans ((if_neg hup).trans ((if_neg hruns).trans (if_pos hlate)))),
    fun hearly hrec hsync => next_ifUp hu ((if_neg (client_watched hn hon)).trans ((if_neg hup).trans ((if_neg hruns).trans
      ((if_neg hearly).trans (if_pos ⟨.inl hrec, hsync⟩)))))⟩

end

end

/-- Settles O50. -/
theorem ptpMessagesAct : Obligations.PtpMessagesAct :=
  fun _ _ _ _ => ⟨sync_heard, followUp_heard, delayResp_heard, announce_heard, fun hmac hu htc hver hsum => pdelayReq_answered hu hmac htc hver hsum,
    fun hmac hu hours => pdelayResp_measured hu hmac hours, fun _ hn hu hbusy hmech hlive hlink => delayReq_sent hn hu hbusy hmech hlive hlink,
    fun hmac hu hbusy hmeas hlink => pdelayReq_sent hu hmac hbusy hmeas hlink,
    fun _ hn hu hon => ⟨link_loss_reported hn hu hon, parent_late hn hu hon⟩⟩

end Sys2Proof.Laws
end

section
/-!
Edges on capture pins, timed outputs, the TAKE_IN pin and captures of the Harvest (O51).
-/
namespace Sys2Proof.Laws
open Sys2Proof Sys2Proof.Machine

theorem capture_edge {dt n : Nat} {s : State} {falling : Bool} (hn : n < 4) (hu : (s.after dt).unitBad (U.capt n) = false)
    (hedge : bitAt ((s.after dt).rn (U.capt n) Capt.EDGES) (if falling then 1 else 0) = true) : let w := s.after dt; let u := U.capt n
    (w.rb u Capt.last = true → w.clk + 1 < w.rn u Capt.last + 40 * Config.ns → exec (.captEdge dt n falling) s = .next (w.count u Ctr.Capt.CAPT_MISSED)) ∧
    (w.rb u Capt.last = false ∨ w.rn u Capt.last + 40 * Config.ns ≤ w.clk + 1 →
      let q := w.rn u Capt.WRITE_SEQ
      let x := { w with captRing := Tbl.set ⟨n, q % 64⟩ 0 (BitVec.ofNat 64 (w.milestone + (if falling then 2 ^ 32 else 0) + q % 65536 * 2 ^ 48)) w.captRing }
      let y := (x.wrs u [(Capt.WRITE_SEQ, q + 1), (Capt.last, w.clk + 1)]).count u Ctr.Capt.CAPTURES
      let m : Nat := if y.rn u Capt.evSec = y.nowS + 1 then y.rn u Capt.evCount else 0
      exec (.captEdge dt n falling) s = .next (if w.rb u Capt.EVENT = false then y else if 1000 ≤ m then y.count U.crier Ctr.Crier.EVENTS_SUPPRESSED
        else (y.wrs u [(Capt.evSec, y.nowS + 1), (Capt.evCount, m + 1)]).post u 0x0705 q)) := by
  intro w u
  have htaken : ¬ (4 ≤ n ∨ bitAt (w.rn u Capt.EDGES) (if falling then 1 else 0) = false) := by
    rw [show bitAt (w.rn u Capt.EDGES) (if falling then 1 else 0) = true from hedge]
    exact not_or.2 ⟨not_le.2 hn, Bool.noConfusion⟩
  refine ⟨fun hlast hnear => next_ifUp hu ((if_neg htaken).trans (if_pos ?_)), fun hfar => next_ifUp hu ((if_neg htaken).trans ((if_neg ?_).trans ?_))⟩
  · rw [Bool.and_eq_true, decide_eq_true_iff]
    exact ⟨hlast, hnear⟩
  · rw [Bool.and_eq_true, decide_eq_true_iff]
    rintro ⟨hlast, hnear⟩
    rcases hfar with hnone | hlong
    · exact Bool.false_ne_true (hnone.symm.trans hlast)
    · exact not_lt.2 hlong hnear
  · cases hev : w.rb u Capt.EVENT with
    | false => rfl
    | true => rfl

section
variable {dt n : Nat} {s : State} (hn : n < 4) (hu : (s.after dt).unitBad (U.tt n) = false)
include hn hu

theorem level_pulse_starts (hmode : (s.after dt).rn (U.tt n) Tt.MODE = 1) (harmed : (s.after dt).rb (U.tt n) Tt.armed = true)
    (hstart : (s.after dt).ttStart n ≤ (s.after dt).now) : let w := s.after dt; let u := U.tt n
    exec (.ttEdge dt n) s = .next ((w.wr u Tt.armed 0).ttChange n (w.ttStart n) (w.rn u Tt.stamp) (w.rb u Tt.LEVEL)) := by
  refine next_ifUp hu ((if_neg (not_le.2 hn)).trans ?_)
  simp only [hmode, harmed, hstart, decide_true, Bool.and_self, if_true]

theorem pulse_rises (hmode : (s.after dt).rn (U.tt n) Tt.MODE = 2) (hphase : (s.after dt).rn (U.tt n) Tt.phase = 0)
    (hstart : (s.after dt).ttStart n ≤ (s.after dt).now) : exec (.ttEdge dt n) s = .next (((s.after dt).wr (U.tt n) Tt.phase 1).ttDrive n true) := by
  refine next_ifUp hu ((if_neg (not_le.2 hn)).trans ?_)
  simp only [hmode, hphase, hstart, and_self, if_true]

theorem pulse_falls (hmode : (s.after dt).rn (U.tt n) Tt.MODE = 2) (hphase : (s.after dt).rn (U.tt n) Tt.phase = 1)
    (hend : (s.after dt).ttStart n + ((s.after dt).rn (U.tt n) Tt.WIDTH * Config.ns : Nat) ≤ (s.after dt).now) :
    exec (.ttEdge dt n) s = .next (((s.after dt).wr (U.tt n) Tt.phase 2).ttDrive n false) := by
  have hbegun : ¬ (1 = 0) := by decide
  refine next_ifUp hu ((if_neg (not_le.2 hn)).trans ?_)
  simp only [hmode, hphase, hend, hbegun, false_and, and_self, if_true, if_false]

theorem period_rises (hmode : (s.after dt).rn (U.tt n) Tt.MODE = 3) (hact : (s.after dt).rb (U.tt n) Tt.active = false)
    (hstart : (s.after dt).ttStart n ≤ (s.after dt).now)
    (hhigh : (((s.after dt).now : Int) - (s.after dt).ttStart n) % ((s.after dt).rn (U.tt n) Tt.PERIOD * Config.ns : Nat) <
      ((s.after dt).rn (U.tt n) Tt.WIDTH * Config.ns : Nat)) : exec (.ttEdge dt n) s = .next ((s.after dt).ttDrive n true) := by
  refine next_ifUp hu ((if_neg (not_le.2 hn)).trans ?_)
  simp only [hmode, hact, hstart, hhigh, decide_true, Bool.and_self, Bool.true_eq_false, if_false]

theorem period_falls (hmode : (s.after dt).rn (U.tt n) Tt.MODE = 3) (hact : (s.after dt).rb (U.tt n) Tt.active = true)
    (hlow : ((s.after dt).rn (U.tt n) Tt.WIDTH * Config.ns : Nat) ≤
      (((s.after dt).now : Int) - (s.after dt).ttStart n) % ((s.after dt).rn (U.tt n) Tt.PERIOD * Config.ns : Nat)) :
    exec (.ttEdge dt n) s = .next ((s.after dt).ttDrive n false) := by
  have hover := decide_eq_false (not_lt.2 hlow)
  refine next_ifUp hu ((if_neg (not_le.2 hn)).trans ?_)
  simp only [hmode, hact, hover, Bool.and_false, Bool.false_eq_true, if_false]

theorem tick_output_driven (hmode : (s.after dt).rn (U.tt n) Tt.MODE = 4) : let w := s.after dt; let u := U.tt n
    let x := (w.now : Int) - w.rd u Tt.TICK_OFFSET * Config.ns
    let want := w.planOn (w.rn u Tt.PLAN) &&
      decide (x - w.tickTime (w.rn u Tt.PLAN) (w.tickAt (w.rn u Tt.PLAN) x) x < (w.rn u Tt.WIDTH * Config.ns : Nat))
    want ≠ w.rb u Tt.active → exec (.ttEdge dt n) s = .next (w.ttDrive n want) := by
  intro w u x want hchange
  refine next_ifUp hu ((if_neg (not_le.2 hn)).trans ?_)
  simp only [hmode]
  exact if_neg hchange

end

/-- With one level due, that one changes the output. -/
theorem level_changes {dt n : Nat} {s : State} {x : Int × Nat × Nat} (hu : (s.after dt).unitBad (U.tt n) = false)
    (hdue : ((s.after dt).ttPending n).filter (fun x => decide (x.1 ≤ ((s.after dt).now : Int))) = [x]) :
    let y := (s.after dt).setTtPending n (((s.after dt).ttPending n).filter (· != x))
    exec (.ttLevelChange dt n) s = .next (if y.rn (U.tt n) Tt.MODE = 1 then y.ttChange n x.1 x.2.1 (x.2.2 == 1) else y) := by
  refine next_ifUp hu ?_
  simp only [hdue, List.foldl_nil]
  rfl

section
variable {dt : Nat} {s : State} (hu : (s.after dt).unitBad U.harvest = false)
include hu

theorem capture_marked (hcopy : (s.after dt).rb U.harvest Harv.copying = true) : let w := s.after dt
    let seq := w.rn U.harvest Harv.LAST_SEQ + 1
    let bank := seq % 2
    let x := { w with snapHdr := Tbl.set ⟨bank, 1⟩ 0 (BitVec.ofNat 64 ((Tbl.get ⟨bank, 1⟩ 0 w.snapHdr).toNat + 2 ^ 52)) (Tbl.set ⟨bank, 0⟩ 0 (BitVec.ofNat 64 seq) w.snapHdr)
                      snapCtrs := Tbl.set ⟨2, 0⟩ [] [] (Tbl.set ⟨bank, 0⟩ [] (Tbl.get ⟨2, 0⟩ [] w.snapCtrs) w.snapCtrs) }
    exec (.harvestDone dt) s = .next (((x.wrs U.harvest [(Harv.LAST_SEQ, seq), (Harv.copying, 0)]).count U.harvest Ctr.Harv.HARVESTS).post U.harvest 0x0020
      (seq % 2 ^ 32)) :=
  next_ifUp hu (if_pos hcopy)

end

/-- Settles O51. The number of counters stands in the capture's header: it is kept abstract, so that no step computes it. -/
theorem edgesAndCaptures : Obligations.EdgesAndCaptures := by
  refine fun dt n s => ⟨fun _ hn hu hedge => capture_edge hn hu hedge,
    fun hn hu => ⟨level_pulse_starts hn hu, pulse_rises hn hu, pulse_falls hn hu, period_rises hn hu, period_falls hn hu, tick_output_driven hn hu⟩,
    fun _ hu hdue => level_changes hu hdue, rfl, fun hu harmed hset hnow hcopy => ?_,
    fun hu hcopy => capture_marked hu hcopy⟩
  show execHarvestCapture dt s = _
  unfold execHarvestCapture
  generalize totalCtrs = counters
  exact next_ifUp hu (if_pos ⟨harmed, hset, hnow, hcopy⟩)

end Sys2Proof.Laws
end

section
/-!
The Tower qualifies, loses, selects and follows its references, and clocks stop (O52).
-/
namespace Sys2Proof.Laws
open Sys2Proof Sys2Proof.Machine

section
variable {dt n : Nat} {s : State} (hu : (s.after dt).unitBad U.tower = false)
include hu

theorem marker_taken (hn : n < 6) (hst : (s.after dt).tower Tower.STATE ≠ twFault) : exec (.refMarker dt n) s = .next ((s.after dt).marker n) :=
  next_ifUp hu (if_neg (not_or.2 ⟨not_le.2 hn, hst⟩))

/-- The selection at the end of a second, with the wait-to-restore that it leaves. -/
def secondSelection (x : State) : State := (x.reselect false true).wr U.tower Tower.WTR_LEFT (x.reselect false true).wtrLeft

theorem second_judged (hsec : (s.after dt).now % Config.second = 0) (hst : (s.after dt).tower Tower.STATE ≠ twFault) : let w := s.after dt
    let y := ((((List.range 12).foldl State.windowCand w).historySecond.loopSecond).settlePending)
    (12 ≤ y.towerN Tower.SELECTED ∨ candClass (y.towerN Tower.SELECTED) ≠ 2 →
      exec (.freqWindow dt) s = .next ((y.reselect false true).wr U.tower Tower.WTR_LEFT (y.reselect false true).wtrLeft)) ∧
    (y.towerN Tower.SELECTED < 12 → candClass (y.towerN Tower.SELECTED) = 2 →
      let e := y.candFreq (y.towerN Tower.SELECTED) + y.monitorBase - y.tower Tower.freq
      let z := (y.noteLock (decide (e.natAbs ≤ 10000)) (decide (100000 < e.natAbs))).reselect false true
      exec (.freqWindow dt) s = .next (z.wr U.tower Tower.WTR_LEFT z.wtrLeft)) := by
  have hgo := not_or.2 ⟨not_not.2 hsec, hst⟩
  refine ⟨fun hother => next_ifUp hu ((if_neg hgo).trans (congrArg secondSelection (if_neg ?_))),
    fun hsel hclass => next_ifUp hu ((if_neg hgo).trans (congrArg secondSelection (if_pos ⟨hsel, hclass⟩)))⟩
  exact fun h => hother.elim (not_le.2 h.1) (· h.2)

theorem candidate_qualifies (hn : n < 12) (hst : (s.after dt).candState n = cdQualifying) (hleft : (s.after dt).rn (U.cand n) Cand.QUAL_LEFT = 0) :
    let w := s.after dt
    let y := (((w.wrs (U.cand n) [(Cand.STATE, cdQualified), (Cand.qualAt, w.clk)]).count (U.cand n) Ctr.Cand.QUALIFICATIONS).post (U.cand n) 0x0804 0).reselect
      false false
    exec (.candQualified dt n) s = .next (y.wr U.tower Tower.WTR_LEFT y.wtrLeft) := by
  refine next_ifUp hu (if_neg ?_)
  rintro (h | h | h)
  · omega
  · exact h hst
  · exact h hleft

theorem candidate_lost (hn : n < 12) : let w := s.after dt
    let kerb := w.rd (U.kerb (w.rn (U.cand n) Cand.SEAT)) Kerb.STATE
    let reported := candClass n = 0 ∧ w.rb (U.ptp (n - 6)) Ptp.lost = true ∨ 8 ≤ n ∧ (kerb = 4 ∨ kerb = 5)
    (reported → exec (.candMissing dt n) s = .next (w.candLost n 4)) ∧
    (¬ reported → 8 ≤ n → w.seatShows (w.rn (U.cand n) Cand.SEAT) (w.rn (U.cand n) Cand.RASTER) = false → exec (.candMissing dt n) s = .next (w.candLost n 3)) ∧
    (¬ reported → n < 8 → w.rd (U.cand n) Cand.last ≠ 0 → 13 * (w.candP n : Int) ≤ 4 * ((w.now : Int) - (w.rd (U.cand n) Cand.last - 1)) →
      exec (.candMissing dt n) s = .next ((w.countBy (U.cand n) Ctr.Cand.MISSING_MARKERS 3).candLost n 1)) := by
  intro w kerb reported
  have hrep : ((candClass n == 0 && w.rb (U.ptp (n - 6)) Ptp.lost) || (decide (8 ≤ n) && (kerb == 4 || kerb == 5))) = true ↔ reported := by
    simp only [Bool.or_eq_true, Bool.and_eq_true, beq_iff_eq, decide_eq_true_iff]
    exact Iff.rfl
  refine ⟨fun hreported => next_ifUp hu ((if_neg (not_le.2 hn)).trans (if_pos (hrep.2 hreported))),
    fun hnot hseat hshows => next_ifUp hu ((if_neg (not_le.2 hn)).trans ((if_neg (hnot ∘ hrep.1)).trans (if_pos ?_))),
    fun hnot hseat hlast hlate => next_ifUp hu ((if_neg (not_le.2 hn)).trans ((if_neg (hnot ∘ hrep.1)).trans ((if_neg ?_).trans (if_pos ⟨hlast, hlate⟩))))⟩
  · rw [hshows, decide_eq_true hseat]
    rfl
  · rw [decide_eq_false (not_le.2 hseat)]
    exact Bool.false_ne_true

theorem wtr_ends : let y := (s.after dt).reselect false false
    exec (.wtrExpiry dt) s = .next (y.wr U.tower Tower.WTR_LEFT y.wtrLeft) := next_ifUp hu rfl

theorem tower_locks (hst : (s.after dt).tower Tower.STATE = twAcquire ∨ (s.after dt).tower Tower.STATE = twRefswitch) (hok : (s.after dt).towerN Tower.okSince ≠ 0)
    (hdue : (s.after dt).towerN Tower.okSince - 1 + (s.after dt).lockTime ((s.after dt).towerN Tower.SELECTED) ≤ (s.after dt).clk) :
    exec (.towerInLock dt) s = .next ((s.after dt).towerTo twLocked) := next_ifUp hu (if_pos ⟨hst, hok, hdue⟩)

theorem tower_reacquires (hst : (s.after dt).tower Tower.STATE = twLocked) (hbad : (s.after dt).towerN Tower.badSince ≠ 0)
    (hdue : (s.after dt).towerN Tower.badSince - 1 + Config.second ≤ (s.after dt).clk) : let w := s.after dt
    exec (.towerReacquire dt) s =
      .next (((w.leaveLocked.count U.tower Ctr.Tower.REACQUIRES).towerTo twAcquire).mayStep (w.towerN Tower.SELECTED) false) :=
  next_ifUp hu (if_pos ⟨hst, hbad, hdue⟩)

end

/-- Settles O52. -/
theorem towerFollowsReferences : Obligations.TowerFollowsReferences :=
  fun _ _ _ => ⟨fun hu => ⟨marker_taken hu, second_judged hu, candidate_qualifies hu, candidate_lost hu, wtr_ends hu, tower_locks hu, tower_reacquires hu⟩,
    fun hst => ⟨next_if_neg hst rfl, next_if_neg hst rfl⟩, fun hn => next_if_neg (not_le.2 hn) rfl⟩

end Sys2Proof.Laws
end

section
/-!
Granary frames are stored and decided, tables loaded, tiles taken and heads composed (O53).
-/
namespace Sys2Proof.Laws
open Sys2Proof Sys2Proof.Machine

section
variable {dt k j : Nat} {s : State} (hk : k < 128) (hj : j < 8) (hst : (s.after dt).rd (U.sub k j) Sub.STATE ≠ subOff)
  (hu : (s.after dt).unitBad (U.gran k) = false)
include hk hj hst

/-- A sub-slot that is not OFF heeds its input. -/
theorem subslot_heeds : (decide (128 ≤ k) || decide (8 ≤ j) || (s.after dt).rd (U.sub k j) Sub.STATE == subOff) = false := by
  rw [decide_eq_false (not_le.2 hk), decide_eq_false (not_le.2 hj), beq_eq_false_iff_ne.2 hst]
  rfl

include hu

theorem frame_under_way (hend : (s.after dt).unitEnded k j = false) : exec (.granaryFrameComplete dt k j) s = .next (s.after dt) :=
  next_ifUp hu ((if_neg (Bool.eq_false_iff.1 (subslot_heeds hk hj hst))).trans (if_neg (Bool.eq_false_iff.1 hend)))

theorem frame_written (hend : (s.after dt).unitEnded k j = true) : let r := (s.after dt).gathered k j
    exec (.granaryFrameComplete dt k j) s = .next ((r.2.setCaught (U.sub k j) []).writeFrame k j r.1) :=
  next_ifUp hu ((if_neg (Bool.eq_false_iff.1 (subslot_heeds hk hj hst))).trans (if_pos hend))

theorem granaryInput_lost (hin : (s.after dt).rb (U.sub k j) Sub.inAt = true)
    (hsilent : (s.after dt).rn (U.sub k j) Sub.inAt - 1 + 2 * ((s.after dt).planRas ((s.after dt).rn (U.gran k) Gran.PLAN)).line ≤ (s.after dt).clk) :
    exec (.granaryInputLoss dt k j) s = .next ((((s.after dt).takeUnit k j).wr (U.sub k j) Sub.inAt 0).declareLost k j false) := by
  refine next_ifUp hu (if_neg ?_)
  rw [subslot_heeds hk hj hst, hin, decide_eq_false (not_lt.2 hsilent)]
  decide

section
variable (hnow : (s.after dt).decisionNow ((s.after dt).rn (U.gran k) Gran.PLAN) = true) (hnew : (s.after dt).rn (U.sub k j) Sub.decidedAt ≠ (s.after dt).clk + 1)
include hnow hnew

/-- At its instant the sub-slot decides, or waits for its partner's decision. -/
theorem subslot_decides (ue : List Nat) {x : State} :
    let z := ((s.after dt).wr (U.sub k j) Sub.decidedAt ((s.after dt).clk + 1)).setBuf (U.sub k j) 5 (ue.map fun (x : Nat) => (x : Int))
    (if ue.isEmpty then z else ((z.countBy (U.sub k j) Ctr.Sub.ECC_LINES (ue.length - 1)).countEvent (U.sub k j) Ctr.Sub.ECC_LINES).barnError (U.sub k j) 1
      ((z.claimChan (U.gran k)).getD 0)) = x →
    exec (.granaryDecision dt k j ue) s = .next (if x.followsDecisions = true ∧ x.rd (U.sub k j) Sub.STATE = subRunning then
      x.wrs (U.sub k j) [(Sub.choiceDue, x.clk + 4 * Config.us + 1)] else x.subDecide k j none) := by
  intro z hx
  subst hx
  refine next_if_neg ?_ (if_congr (by rw [Bool.and_eq_true, beq_iff_eq]) rfl rfl)
  rw [subslot_heeds hk hj hst, hu, hnow, beq_eq_false_iff_ne.2 hnew]
  decide

end

end

theorem writeFrame_discards {y : State} {k j : Nat} {f : FrameIn}
    (hbad : (y.wr (U.sub k j) Sub.PAYLOAD_ID (f.pid.getD 0)).rn (U.gran k) Gran.BAD_LINES_MAX < f.broken.length) : y.writeFrame k j f =
      ((((y.wr (U.sub k j) Sub.PAYLOAD_ID (f.pid.getD 0)).count (U.sub k j) Ctr.Sub.DISCARDED_FRAMES).wr (U.sub k j) Sub.okRun 0).slipFrame k f.stamp) :=
  if_pos hbad

theorem lut_loaded {dt k j : Nat} {s : State} {b : BgOp} (hb : (s.after dt).bg.find? (fun b => b.op == 0xC2 && b.index == k && b.sub == j) = some b) :
    exec (.lutloadDone dt k j) s = .next (((s.after dt).endBg b.pid).lutEnd (U.gran k) j b.pid (b.vals.headD 0).toNat) := by
  show execLutloadDone dt k j s = _
  simp only [execLutloadDone, hb]

theorem tile_taken {dt k : Nat} {s : State} (hon : (s.after dt).scalerOn k = true) : let u := U.scaler k; let x := (s.after dt).makeTile k
    exec (.tileComplete dt k) s = .next (if x.caught u ≠ [] ∧ x.rn u Scaler.inAt - 1 + 2 * (raster 1).line ≤ x.clk then x.endInput k else x) := by
  refine next_if_neg ?_ rfl
  rw [hon]
  decide

theorem head_composes {dt k : Nat} {s : State} (ue : List (Nat × Nat)) (hlive : (s.after dt).headLive k = true)
    (hnow : (s.after dt).decisionNow ((s.after dt).rn (U.head k) Head.PLAN) = true) (hnew : (s.after dt).rn (U.head k) Head.decidedAt ≠ (s.after dt).clk + 1) :
    let w := s.after dt
    let u := U.head k
    let x := (List.range 64).foldl (fun a l => a.layerTurn k l) (w.wr u Head.decidedAt (w.clk + 1))
    exec (.headDecision dt k ue) s = .next (((((x.eccLines k ue).count u Ctr.Head.FRAMES).wrs u [(unitWorkF, x.clk), (Head.waiting, 1),
      (Head.origin, (x.headFrame (x.rn u Head.PLAN)).2), (Head.tick, x.frameTick (x.rn u Head.PLAN))]).setBuf u 1
        (ue.flatMap fun e => [(e.1 : Int), (e.2 : Int)])).composeHead k) := by
  refine next_if_neg ?_ rfl
  rw [hlive, hnow, beq_eq_false_iff_ne.2 hnew]
  decide

/-- Settles O53. -/
theorem framesStoredAndComposed : Obligations.FramesStoredAndComposed :=
  fun _ _ _ _ => ⟨fun hk hj hst hu => ⟨frame_under_way hk hj hst hu, fun hend => ⟨frame_written hk hj hst hu hend, fun hbad =>
      (frame_written hk hj hst hu hend).trans (congrArg Host.Outcome.next (writeFrame_discards hbad))⟩,
      granaryInput_lost hk hj hst hu, fun hnow hnew => ⟨subslot_decides hk hj hst hu hnow hnew [] rfl,
        fun a ue => subslot_decides hk hj hst hu hnow hnew (a :: ue) rfl⟩⟩,
    fun _ hb => lut_loaded hb, tile_taken, fun ue hlive hnow hnew => head_composes ue hlive hnow hnew⟩

end Sys2Proof.Laws
end

section
/-!
The Sheaf's block, the channels' detectors, the meters and the taps (O54).
-/
namespace Sys2Proof.Laws
open Sys2Proof Sys2Proof.Machine

section
variable {dt k ch : Nat} {s : State}

theorem sample_tapped {a : AudioIn} {f : Feed} (hk : k < 2304) (hfeed : feedOf 0x62 k 0 ((s.after dt).valsOf (U.deemb k) Deemb.deembcfgParams) = some f)
    (hu : (s.after dt).unitBad (U.deemb k) = false) (hsound : (s.after dt).seatSounds k = true) : let w := s.after dt; let u := U.deemb k
    exec (.audioSampleTap dt k a) s = .next (((w.countBy u Ctr.Deemb.GROUP_RATE_ERRORS a.wrongRate).countBy u Ctr.Deemb.SAMPLES
      ((a.samples.take f.count).filter Option.isSome).length).tapSource f w.now (a.samples.map fun v => v.map fun (x : Int) => x * 16)) := by
  refine next_if_neg (not_le.2 hk) ?_
  simp only [hfeed]
  refine if_neg ?_
  rw [hu, hsound]
  decide

section
variable (hk : k ≤ 1) (hch : ch < spaceSize k) (hu : (s.after dt).unitBad U.detector = false) (hon : (s.after dt).detectorOn = true)
include hk hch hu hon

theorem block_detected (hodd : (s.after dt).spaceOdd k ch = false) {t : State} :
    let w := s.after dt
    let u := chanUnit k ch
    w.rd u Det.block ≠ w.lastBlock + 1 →
    let xs := w.blockSamples k ch w.lastBlock
    let p := peakCdB (xs.foldl (fun m x => max m x.natAbs) 0)
    let sil := -(100 * (w.profN k ch DetProf.SIL_LEVEL : Int))
    let quiet := if p < sil then w.rn u Det.quiet + 1 else 0
    let r := clipRuns (levelOf (w.profN k ch DetProf.CLIP_LEVEL)) (w.profN k ch DetProf.CLIP_RUN) (w.rn u Det.run) 0 xs
    let x := (w.wrs u [(Det.PEAK, p), (Det.quiet, quiet), (Det.run, r.1), (Det.sum, w.rd u Det.sum + xs.foldl (· + ·) 0),
      (Det.count, w.rd u Det.count + (xs.length : Int)), (Det.block, w.lastBlock + 1)]).feedMeters k ch p
    let y := if w.rb u Det.SILENT = false ∧ w.profN k ch DetProf.SIL_TIME * 100 ≤ quiet then ((x.wr u Det.SILENT 1).count u (silentCtr k)).detEvent k ch 1 true
      else if w.rb u Det.SILENT = true ∧ sil + 300 ≤ p then (x.wr u Det.SILENT 0).detEvent k ch 1 false else x
    let z := (y.countBy u (clipsCtr k) r.2).wrs u [(Det.CLIPPED, 1), (Det.clipAt, w.clk)]
    (if r.2 = 0 then y else if w.rb u Det.CLIPPED then z else z.detEvent k ch 2 true) = t → exec (.blockPeak dt k ch) s = .next t := by
  intro w u hnew xs p sil quiet r x y z ht
  refine next_ifUp hu ((if_neg ?_).trans ht)
  rw [hon, hodd]
  rintro (h | h | h | h | h)
  · omega
  · omega
  · cases h
  · cases h
  · exact hnew h

theorem dc_second (hcount : (s.after dt).rd (chanUnit k ch) Det.count ≠ 0)
    (hnew : (s.after dt).rd (chanUnit k ch) Det.second ≠ ((s.after dt).now / Config.second : Nat)) (hnow : (s.after dt).now % Config.second < Config.ms) :
    let w := s.after dt
    let u := chanUnit k ch
    let above := decide (levelOf (100 * w.profN k ch DetProf.DC_LEVEL) * w.rd u Det.count < (w.rd u Det.sum).natAbs)
    let runs := if above then w.rn u Det.over + 1 else 0
    let x := w.wrs u [(Det.sum, 0), (Det.count, 0), (Det.over, runs), (Det.second, (w.now / Config.second : Nat))]
    exec (.dcSecond dt k ch) s = .next (if w.rb u Det.DC = false ∧ 2 ≤ runs then (x.wr u Det.DC 1).detEvent k ch 3 true
      else if w.rb u Det.DC = true ∧ runs = 0 then (x.wr u Det.DC 0).detEvent k ch 3 false else x) := by
  refine next_ifUp hu (if_neg ?_)
  rw [hon]
  rintro (h | h | h | h | h | h)
  · omega
  · omega
  · cases h
  · exact hcount h
  · exact hnew h
  · exact not_le.2 hnow h

end

/-- A meter that reports each 100 ms reports now. -/
theorem meter_reports {top at_ now : Nat} {shown : Int} (hk : k < top) (hnow : now % at_ = 0) (hnew : shown ≠ (now / Config.ms : Nat)) :
    ¬ (top ≤ k ∨ now % at_ ≠ 0 ∨ shown = (now / Config.ms : Nat)) := by
  rintro (h | h | h)
  · omega
  · exact h hnow
  · exact hnew h

section
variable (hk : k < 64) (hms : (s.after dt).now % Config.ms = 0) (hu : (s.after dt).unitBad (U.tap k) = false)
  (hnew : (s.after dt).rd (U.tap k) Tap.block ≠ (s.after dt).lastBlock + 1)
include hk hms hu hnew

theorem tap_records : let w := s.after dt; let u := U.tap k; let c := w.tapConfig u w.lastBlock
    (pv Tap.tapcfgParams c.1 Tap.ENABLE = 0 → exec (.tapRecord dt k) s = .next c.2) ∧
    (pv Tap.tapcfgParams c.1 Tap.ENABLE ≠ 0 → exec (.tapRecord dt k) s = .next (((w.tapStore c.2 u c.1 w.lastBlock).wrs u
      [(Tap.NEXT, ((c.2.rn u Tap.NEXT + 1) % pn Tap.tapcfgParams c.1 Tap.BLOCKS : Nat)), (Tap.SEQ, c.2.rn u Tap.written),
       (Tap.written, (c.2.rn u Tap.written + 1 : Nat)), (Tap.block, w.lastBlock + 1)]).count u Ctr.Tap.RECORDS)) := by
  have hdue : ¬ (64 ≤ k ∨ (s.after dt).now % Config.ms ≠ 0 ∨ (s.after dt).unitBad (U.tap k) = true ∨ (s.after dt).rd (U.tap k) Tap.block = (s.after dt).lastBlock + 1) := by
    rintro (h | h | h | h)
    · omega
    · exact h hms
    · exact Bool.false_ne_true (hu.symm.trans h)
    · exact hnew h
  refine ⟨fun hoff => next_if_neg hdue (if_pos hoff), fun hon => next_if_neg hdue ((if_neg hon).trans ?_)⟩
  push_cast
  rfl

end

end

/-- Settles O54. -/
theorem samplesMixedAndMeasured : Obligations.SamplesMixedAndMeasured := by
  refine fun dt k ch s => ⟨fun ue hu => ⟨fun hnew => next_ifUp hu (if_neg hnew), fun hdone => next_ifUp hu (if_pos hdone)⟩,
    fun a f hk hfeed hu hsound => sample_tapped hk hfeed hu hsound,
    fun hk hch hu => ⟨fun hon hodd hnew => ⟨fun hclips => block_detected hk hch hu hon hodd hnew (if_pos hclips),
      fun hclips => block_detected hk hch hu hon hodd hnew (if_neg hclips)⟩, fun hon => dc_second hk hch hu hon,
      fun hclip hold => next_ifUp hu (if_pos ⟨hclip, hold⟩)⟩,
    fun hnow hu => ⟨fun hk hnew => ⟨fun hrest => ?_, fun hon hchans => ?_⟩, fun hk hnew => ⟨fun hrest => ?_, fun hon hset => ?_⟩⟩,
    fun hk hms hu hnew => tap_records hk hms hu hnew⟩
  · exact next_ifUp hu ((if_neg (meter_reports hk hnow hnew)).trans (if_pos (hrest.imp_right List.isEmpty_iff.2)))
  · refine next_ifUp hu ((if_neg (meter_reports hk hnow hnew)).trans (if_neg ?_))
    rw [show (s.after dt).detectorOn = true from hon, List.isEmpty_iff]
    exact not_or.2 ⟨Bool.noConfusion, hchans⟩
  · exact next_ifUp hu ((if_neg (meter_reports hk hnow hnew)).trans (if_pos hrest))
  · refine next_ifUp hu ((if_neg (meter_reports hk hnow hnew)).trans (if_neg ?_))
    rw [show (s.after dt).detectorOn = true from hon, show (s.after dt).rb (U.corr k) Corr.set = true from hset]
    exact not_or.2 ⟨Bool.noConfusion, Bool.noConfusion⟩

end Sys2Proof.Laws
end

section
/-!
ASRCs and the sides of a Stook port: start, stop, lock, loss and frames (O55).
-/
namespace Sys2Proof.Laws
open Sys2Proof Sys2Proof.Machine

theorem asrc_shows {dt unit : Nat} {s : State} {lock range : Bool} (hu : (s.after dt).unitBad unit = false) (hasrc : (s.after dt).rb unit Src.asrc = true)
    (hnew : (s.after dt).rb unit Src.asrcLock ≠ lock) :
    let x := (s.after dt).wr unit Src.asrcLock (if lock then 1 else 0)
    let y := if U.stookSide 0 0 ≤ unit ∧ unit < U.stookSide 16 0 then x.wr unit Stook.ASRC_LOCK (if lock then 1 else 0) else x
    exec (.asrcLock dt unit lock range) s = .next (if lock then y
      else if range then (y.wr unit Src.last 0).countLimited unit (slipCtr unit + 3) 0x0605 0 else (y.wr unit Src.last 0).count unit (slipCtr unit + 3)) := by
  intro x y
  have hside : (if (decide (U.stookSide 0 0 ≤ unit) && decide (unit < U.stookSide 16 0)) = true then x.wr unit Stook.ASRC_LOCK (if lock then 1 else 0) else x) = y :=
    if_congr (by rw [Bool.and_eq_true, decide_eq_true_iff, decide_eq_true_iff]) rfl rfl
  rw [← hside]
  refine next_ifUp hu (if_neg ?_)
  rw [hasrc]
  exact not_or.2 ⟨Bool.noConfusion, hnew⟩

section
variable {dt p side : Nat} {s : State} (hp : p < 16) (hu : (s.after dt).unitBad (U.stookPort p) = false)
include hp hu

theorem side_starts (hst : (s.after dt).rd (U.stookSide p (side % 2)) Stook.STATE = stStarting)
    (hdue : (s.after dt).rn (U.stookSide p (side % 2)) Stook.since + 2 * Config.ms ≤ (s.after dt).clk) : let w := s.after dt; let u := U.stookSide p (side % 2)
    exec (.stookStart dt p side) s = .next (w.wrs u [(Stook.STATE, stRunS), (Stook.rampAt, w.rd u Src.last)]) :=
  next_ifUp hu (if_neg (not_or.2 ⟨not_le.2 hp, not_or.2 ⟨not_not.2 hst, not_lt.2 hdue⟩⟩))

theorem side_stops (hst : (s.after dt).rd (U.stookSide p (side % 2)) Stook.STATE = stStopping)
    (hdue : (s.after dt).rn (U.stookSide p (side % 2)) Stook.since + 3 * Config.ms ≤ (s.after dt).clk) : let w := s.after dt; let u := U.stookSide p (side % 2)
    let x := ((w.wrs u [(Stook.STATE, stOffS), (Src.last, 0)]).setBuf u 1 []).wr (U.stookPort p) unitWorkF w.clk
    exec (.stookStop dt p side) s = .next (if w.rb u Stook.again then x.startSide u else x) :=
  next_ifUp hu (if_neg (not_or.2 ⟨not_le.2 hp, not_or.2 ⟨not_not.2 hst, not_lt.2 hdue⟩⟩))

theorem slave_side_lost : let w := s.after dt; let u := U.stookSide p (side % 2)
    w.stookSlave u (side % 2) = true → w.rd u Stook.STATE ≠ stOffS → w.rd u Stook.STATE ≠ stLost → w.rd u Stook.STATE ≠ stStopping →
    2 * Config.second ≤ (w.clk - w.rn u Stook.edgeAt) * rateHz (w.rn u Stook.RATE) → exec (.stookClockLoss dt p side) s =
      .next ((w.wrs u [(Stook.STATE, stLost), (Stook.lostBy, 1), (Src.last, 0)]).countLimited u Ctr.Stook.CLOCK_LOSS 0x0600 0) := by
  intro w u hslave hoff hlost hstop hsilent
  refine next_ifUp hu (if_neg ?_)
  rintro (h | h | h | h | h | h)
  · omega
  · exact Bool.false_ne_true (h.symm.trans hslave)
  · exact hoff h
  · exact hlost h
  · exact hstop h
  · exact not_lt.2 hsilent h

section
variable (hon : (s.after dt).rd (U.stookSide p 0) Stook.STATE ≠ stOffS) (hstop : (s.after dt).rd (U.stookSide p 0) Stook.STATE ≠ stStopping)
include hon hstop

theorem aes_locks (preambles parity : Bool) (hmode : (s.after dt).rn (U.stookSide p 0) Stook.MODE = 2) : let w := s.after dt; let r := U.stookSide p 0
    let good := if preambles && parity then w.rn r Stook.aesGood + 1 else 0
    let bad := if preambles then 0 else w.rn r Stook.aesBad + 1
    let x := w.wrs r [(Stook.aesGood, good), (Stook.aesBad, bad)]
    (w.rb r Stook.aesLock = false → exec (.aes3Lock dt p preambles parity) s = .next (if good < 8 then x
      else if w.rd r Stook.STATE = stLost then (x.wr r Stook.aesLock 1).wr r Stook.STATE stRunS else x.wr r Stook.aesLock 1)) ∧
    (w.rb r Stook.aesLock = true → exec (.aes3Lock dt p preambles parity) s = .next (if bad < 2 then x
      else (x.wrs r [(Stook.aesLock, 0), (Stook.STATE, stLost), (Src.last, 0)]).countLimited r Ctr.Stook.AES_LOCK_LOSS 0x0604 0)) := by
  intro w r good bad x
  have hgo : ¬ (16 ≤ p ∨ w.rn r Stook.MODE ≠ 2 ∨ w.rd r Stook.STATE = stOffS ∨ w.rd r Stook.STATE = stStopping) :=
    not_or.2 ⟨not_le.2 hp, not_or.2 ⟨not_not.2 hmode, not_or.2 ⟨hon, hstop⟩⟩⟩
  refine ⟨fun hlock => next_ifUp hu ((if_neg hgo).trans ?_), fun hlock => next_ifUp hu ((if_neg hgo).trans ?_)⟩
  · by_cases hgood : good < 8
    · rw [if_pos hgood]
      exact (if_neg fun h => not_le.2 hgood h.2).trans (if_neg fun h => Bool.false_ne_true (hlock.symm.trans h.1))
    · rw [if_neg hgood]
      exact if_pos ⟨hlock, not_lt.1 hgood⟩
  · refine (if_neg fun h => Bool.false_ne_true (h.1.symm.trans hlock)).trans ?_
    by_cases hbad : bad < 2
    · rw [if_pos hbad]
      exact if_neg fun h => not_le.2 hbad h.2
    · rw [if_neg hbad]
      exact if_pos ⟨hlock, not_lt.1 hbad⟩

/-- A side that has lost its clock runs again with its first frame. -/
def sideHeard (w : State) (r : Nat) : State :=
  (if w.rd r Stook.STATE = stLost ∧ w.rn r Stook.lostBy = 1 then (w.wrs r [(Stook.STATE, stRunS), (Stook.lostBy, 0)]).post r 0x0601 0 else w).wr r Stook.edgeAt w.clk

section
variable {f : StookIn} {fd : Feed} (hfeed : feedOf 0x6E p 0 ((s.after dt).valsOf (U.stookSide p 0) Stook.stookcfgParams) = some fd)
  (hr : (s.after dt).unitBad (U.stookSide p 0) = false)
include hfeed hr

/-- A receive side takes the frame by its mode. -/
theorem stook_frame_heard {t : State} :
    let w := s.after dt
    let r := U.stookSide p 0
    let tau : Int := ((w.now : Int) - f.age) * 10 / (32 * Config.ns) * (32 * Config.ns) / 10
    let b := sideHeard w r
    let n := slotBits (w.rn r Stook.SLOTW)
    let y := (b.aesStatus r f).tapSource fd tau (aesValues (w.rb r Stook.V_MUTE) f)
    let m := if y.followsDecisions then -(-((tau + 250 * Config.us) * rateHz fd.rate) / Config.second) else y.rd r Src.last - 1
    (if w.rn r Stook.MODE = 1 then
        if f.bits ≠ fd.count * n then b.countLimited r Ctr.Stook.FRAMING_ERRORS 0x0602 0
        else State.sideRated b (b.tapSource fd tau ((f.words.take fd.count).map fun x => some (slotValue n x))) r
      else if w.rb r Stook.aesLock = false then b
      else State.sideRated b ([0, 1].foldl (fun a q => a.keepVU (fd.first + q * (1 + fd.rate)) m ((f.v.drop q).headD false) ((f.u.drop q).headD false)) y) r) = t →
    exec (.stookRxFrame dt p f) s = .next t := by
  intro w r tau b n y m ht
  have hgo : ¬ (16 ≤ p ∨ w.rd r Stook.STATE = stOffS ∨ w.rd r Stook.STATE = stStopping ∨ w.unitBad r = true ∨ w.unitBad (U.stookPort p) = true) :=
    not_or.2 ⟨not_le.2 hp, not_or.2 ⟨hon, not_or.2 ⟨hstop, not_or.2 ⟨Bool.eq_false_iff.1 hr, Bool.eq_false_iff.1 hu⟩⟩⟩⟩
  have hb : (if (w.rd r Stook.STATE = stLost && w.rn r Stook.lostBy == 1) = true then (w.wrs r [(Stook.STATE, stRunS), (Stook.lostBy, 0)]).post r 0x0601 0
      else w).wr r Stook.edgeAt w.clk = b :=
    congrArg (State.wr · r Stook.edgeAt w.clk) (if_congr (by rw [Bool.and_eq_true, decide_eq_true_iff, beq_iff_eq]) rfl rfl)
  show execStookRxFrame dt p f s = _
  simp only [execStookRxFrame, hfeed]
  refine next_if_neg hgo ?_
  rw [hb]
  exact ht

end

end

theorem stook_frame_sent : let w := s.after dt; let t := U.stookSide p 1
    w.rd t Stook.STATE ≠ stOffS → w.unitBad t = false →
    let vs := if w.rd t Stook.STATE = stStopping then w.buf t 1 else w.valsOf t Stook.stookcfgParams
    let n := pn Stook.stookcfgParams vs
    let q := w.stookOut t vs
    n Stook.CLOCK = 1 ∨ w.masterEdge t (n Stook.RATE) w.now = true →
    exec (.stookTxFrame dt p) s = .next (q.2.stookFrame p (n Stook.MODE) (n Stook.SLOTW) (n Stook.FIRST) (n Stook.RATE) q.1.2.1 q.1.2.2 q.1.1) := by
  intro w t hon ht vs n q hedge
  refine next_if_neg ?_ rfl
  rintro (h | h | h | h | ⟨hclock, hno⟩)
  · omega
  · exact hon h
  · exact Bool.false_ne_true (ht.symm.trans h)
  · exact Bool.false_ne_true (hu.symm.trans h)
  · exact hedge.elim hclock fun hyes => Bool.false_ne_true (hno.symm.trans hyes)

end

/-- Settles O55. -/
theorem stooksRun : Obligations.StooksRun :=
  fun _ _ _ _ _ => ⟨fun _ _ hu hasrc hnew => asrc_shows hu hasrc hnew, fun hp hu => ⟨side_starts hp hu, side_stops hp hu, slave_side_lost hp hu,
    fun preambles parity hmode hon hstop => aes_locks hp hu hon hstop preambles parity hmode,
    fun _ _ hfeed hon hstop hr => ⟨fun htdm => ⟨fun hlen => stook_frame_heard hp hu hon hstop hfeed hr ((if_pos htdm).trans (if_pos hlen)),
        fun hlen => stook_frame_heard hp hu hon hstop hfeed hr ((if_pos htdm).trans (if_neg (not_not.2 hlen)))⟩,
      fun haes hlock => stook_frame_heard hp hu hon hstop hfeed hr ((if_neg haes).trans (if_pos hlock)),
      fun haes hlock => stook_frame_heard hp hu hon hstop hfeed hr ((if_neg haes).trans (if_neg (Bool.eq_false_iff.not_left.2 hlock)))⟩,
    stook_frame_sent hp hu⟩⟩

end Sys2Proof.Laws
end

section
/-!
Bulk loads end; units, channels and telemetry change (O56).
-/
namespace Sys2Proof.Laws
open Sys2Proof Sys2Proof.Machine

section
variable {dt n : Nat} {s : State}

section
variable {b : BgOp} (hshadow : s.shadow = none)
include hshadow

theorem ledger_loaded (hb : (s.after dt).bgFirst 0xC0 n = some b) :
    exec (.ldloadDone dt n) s = .next (((s.after dt).ldputs b.index (b.vals.map fun (v : Int) => BitVec.ofInt 64 v)).finishBg b 0) := by
  refine next_onThreads hshadow ?_
  simp only [hb]

theorem barn_written (hb : (s.after dt).bgFirst 0xC1 n = some b) : let w := s.after dt; let off := (b.vals.headD 0).toNat
    let ws := (b.vals.drop 1).map fun (v : Int) => BitVec.ofInt 64 v
    exec (.barnwrDone dt n) s = .next ((w.barnWrites off ws).finishBg b (if (chansOf off (8 * ws.length)).any w.chanFault then Code.fault.num else 0)) := by
  refine next_onThreads hshadow ?_
  simp only [hb]

end

theorem probe_second (hn : n < 64) (hsec : (s.after dt).now % Config.second = 0) (hfun : (s.after dt).rn (U.probe n) Probe.FUNCTION = 1)
    (hu : (s.after dt).unitBad (U.cell (2624 + n)) = false) : let w := s.after dt; let u := U.probe n
    exec (.watchSecond dt n) s = .next (w.wrs u [(Probe.OFFSET_MIN, if w.rb u Probe.hasNow then w.rd u Probe.minNow else 0),
      (Probe.OFFSET_MAX, if w.rb u Probe.hasNow then w.rd u Probe.maxNow else 0), (Probe.hasNow, 0)]) :=
  next_ifUp hu (if_neg (not_or.2 ⟨not_le.2 hn, not_or.2 ⟨not_not.2 hsec, not_not.2 hfun⟩⟩))

theorem capture_ends {b : BgOp} (hb : (s.after dt).bg.find? (fun b => b.op == 0x55 && b.index == n) = some b)
    (hcap : 3 ≤ (s.after dt).rn (U.probe n) Probe.cap) : let w := s.after dt; let u := U.probe n
    exec (.captureDone dt n) s = .next (((w.wrs u [(Probe.cap, 0), (Probe.CAPT_BUSY, 0)]).setClaims u []).finishBg b
      (if w.rn u Probe.cap = 3 then 0 else Code.fault.num)) := by
  show execCaptureDone dt n s = _
  simp only [execCaptureDone, hb]
  exact next_if_neg (not_lt.2 hcap) rfl

theorem unit_wakes (hgated : U.gated n = true) (hst : (s.after dt).unitState n = stWaking) : let w := s.after dt
    exec (.unitWakeDone dt n) s = .next ((w.setUnitState n stReady).wr n unitReadyF w.clk) := by
  refine next_if_pos ?_ rfl
  rw [hgated, hst]
  rfl

theorem idle_unit_off (hgated : U.gated n = true) (hlane : U.classOf n ≠ 0x08) (hchan : U.classOf n ≠ 0x19) (hst : (s.after dt).unitState n = stReady)
    (hcarry : (s.after dt).carries n = false) (hnamed : (s.after dt).named n = false)
    (hready : (s.after dt).rn n unitReadyF + Config.second ≤ (s.after dt).clk) (hwork : (s.after dt).rn n unitWorkF + Config.second ≤ (s.after dt).clk) :
    exec (.unitIdleOff dt n) s = .next ((s.after dt).powerOff n) := by
  have hidle : max ((s.after dt).rn n unitReadyF) ((s.after dt).rn n unitWorkF) + Config.second ≤ (s.after dt).clk := by
    rw [max_add_add_right _ _ Config.second |>.symm]
    exact max_le hready hwork
  refine next_if_pos ?_ rfl
  rw [hgated, hst, hcarry, hnamed, bne_iff_ne.2 hlane, bne_iff_ne.2 hchan, decide_eq_true hidle]
  rfl

section
variable (hn : n < 24)
include hn

theorem channel_refreshes (hst : (s.after dt).unitState (U.chan n) = stReady) (hcarry : (s.after dt).carries (U.chan n) = false)
    (hidle : (s.after dt).rn (U.chan n) unitWorkF + Config.second ≤ (s.after dt).clk) :
    exec (.selfRefreshEntry dt n) s = .next ((s.after dt).wr (U.chan n) Chan.SELF_REFRESH 1) :=
  next_if_neg (not_or.2 ⟨not_le.2 hn, not_or.2 ⟨not_not.2 hst, not_or.2 ⟨Bool.eq_false_iff.1 hcarry, not_lt.2 hidle⟩⟩⟩) rfl

section
variable (hup : (s.after dt).chanFault n = false)
include hup

theorem scrub_counts (o : Nat) (last : Bool) : let w := s.after dt; let u := U.chan n
    exec (.barnScrub dt n o 0 last) s = .next (if last then w.count u Ctr.Chan.SCRUB_PASSES else w) ∧
      exec (.barnScrub dt n o 1 last) s = .next (if last then (w.count u Ctr.Chan.CE_READS).count u Ctr.Chan.SCRUB_PASSES else w.count u Ctr.Chan.CE_READS) ∧
      (let x := w.barnError u 10 n
        let y := if o < 0x10000000 then x.setNv nvBadBurst ((n * 0x10000000 + o) / 64) 0 1 else x
        exec (.barnScrub dt n o 2 last) s = .next (if last then y.count u Ctr.Chan.SCRUB_PASSES else y)) :=
  have hgo := not_or.2 ⟨not_le.2 hn, Bool.eq_false_iff.1 hup⟩
  ⟨next_if_neg hgo rfl, next_if_neg hgo rfl, next_if_neg hgo rfl⟩

theorem channel_fails {cause : Nat} (hcause : cause ≠ 3 ∨ 64 < ((s.after dt).burstsOfSecond n).length) : let w := s.after dt; let u := U.chan n
    let x := ((w.setUnitState u stFault).postEntry u 7 (w.unitState u).toNat cause 0).evidence 4 u
    exec (.barnChannelFault dt n cause) s = .next (((List.range 128).filter fun sl => x.claims.any fun y => y.unit == U.gran sl && y.chan == n).foldl
      (fun a sl => (List.range 8).foldl (fun b j => if b.rb (U.sub sl j) Sub.ENABLE then b.subEnter sl j subLost 0 else b) (a.faultAccess (U.gran sl) 1 n)) x) :=
  next_if_neg (not_or.2 ⟨not_le.2 hn, not_or.2 ⟨Bool.eq_false_iff.1 hup, fun h => hcause.elim (· h.1) (not_lt.2 h.2)⟩⟩) rfl

end

end

end

/-- Settles O56. -/
theorem bulkEndsAndUnitsChange : Obligations.BulkEndsAndUnitsChange :=
  fun _ _ _ => ⟨fun _ hshadow hb => ledger_loaded hshadow hb, fun _ hshadow hb => barn_written hshadow hb, probe_second,
    fun _ hb hcap => capture_ends hb hcap, unit_wakes, idle_unit_off, fun _ hclass hst => next_if_neg (not_or.2 ⟨hclass, hst⟩) rfl, fun _ _ _ => rfl,
    fun hn => ⟨channel_refreshes hn, fun hup => ⟨scrub_counts hn hup, fun _ hcause => channel_fails hn hup hcause⟩⟩⟩

end Sys2Proof.Laws
end

section
/-!
Stores in the Barn: every byte outside the place computed reads as before (O57).
-/
namespace Sys2Proof.Laws
open Sys2Proof Sys2Proof.Machine

section
variable {dt n : Nat} {s t : State}

theorem barnwrDone_outside {b : BgOp} (hshadow : s.shadow = none) (hb : s.bgFirst 0xC1 n = some b) (h : exec (.barnwrDone dt n) s = .next t) {a : Nat}
    (ha : a < (b.vals.headD 0).toNat ∨ (b.vals.headD 0).toNat + 8 * (b.vals.length - 1) ≤ a) : barnGet t.barn a = barnGet s.barn a := by
  rw [barn_written hshadow hb] at h
  cases h
  rw [kept_barn (State.finishBg_kept _ _ _), barnGet_writes _ _ _ _ (by rwa [List.length_map, List.length_drop])]
  rfl

theorem barnwrDone_none (hb : s.bgFirst 0xC1 n = none) (h : exec (.barnwrDone dt n) s = .next t) : t.barn = s.barn := by
  have hnone : (s.after dt).bgFirst 0xC1 n = none := hb
  cases h
  unfold State.onThreads
  split
  · simp only [hnone, State.after_barn]
  · split
    · simp only [hnone, State.after_barn]
    · rfl

theorem tapRecord_outside (h : exec (.tapRecord dt n) s = .next t) : let w := s.after dt
    let c := w.tapConfig (U.tap n) w.lastBlock
    let at_ := pn Tap.tapcfgParams c.1 Tap.BASE * 4096 + c.2.rn (U.tap n) Tap.NEXT * w.tapSize c.1
    ∀ a, a < at_ ∨ at_ + max 32 (w.tapSize c.1) ≤ a → barnGet t.barn a = barnGet s.barn a := by
  intro w c at_ a ha
  have hconfig : barnGet c.2.barn a = barnGet s.barn a := congrArg (barnGet · a) (tapConfig_barn w (U.tap n) w.lastBlock)
  cases h
  dsimp only [execTapRecord]
  split
  · rfl
  · split
    · exact hconfig
    · rw [State.count_barn, kept_barn (State.wrs_kept _ _ _)]
      exact (tapStore_get w c.2 (U.tap n) c.1 w.lastBlock a ha).trans hconfig

theorem jtagAccess_outside {addr : Nat} {v : Option Word} (h : exec (.jtagAccess dt addr n v) s = .next t) {a : Nat}
    (ha : addr - 0x100000000 + 8 ≤ a ∨ a < addr - 0x100000000 ∨ v = none) : barnGet t.barn a = barnGet s.barn a := by
  have hused (x : State) (m k : Nat) : (x.arcadeUse m addr k).barn = x.barn := kept_barn (State.arcadeUse_kept x m addr k)
  cases h
  dsimp only [execJtagAccess]
  split
  · rfl
  · split
    case h_1 => rfl
    case h_2 =>
      split
      · exact congrArg (barnGet · a) ((jtagWords_barn n _ addr).trans (hused _ _ _))
      · rfl
    case h_3 w d _ =>
      split
      · rfl
      · split
        · exact congrArg (barnGet · a) ((kept_barn (State.ldput_kept _ _ _)).trans (hused _ _ _))
        · split
          · exact congrArg (barnGet · a) ((kept_barn (State.writeWord_kept _ _ _)).trans (hused _ _ _))
          · split
            · have hout : a < addr - 0x100000000 ∨ addr - 0x100000000 + 8 * [d].length ≤ a := by
                rcases ha with ha | ha | ha
                · exact .inr ha
                · exact .inl ha
                · cases ha
              exact (barnGet_writes _ _ _ _ hout).trans (congrArg (barnGet · a) (hused _ _ _))
            · exact congrArg (barnGet · a) (hused _ _ _)

theorem captureBytes_outside {p o a : Nat} {bs : List Nat} (ha : a < o ∨ o + bs.length ≤ a) : barnGet (s.captureBytes p o bs).barn a = barnGet s.barn a := by
  have htouched : ((chansOf o bs.length).foldl (fun a c => (a.faultAccess (U.cell (2624 + p)) 6 c).chanTouch c) s).barn = s.barn :=
    fold_barn _ _ _ fun x c => (kept_barn (State.chanTouch_kept _ c)).trans (faultAccess_barn x _ _ c)
  dsimp only [State.captureBytes]
  split
  · exact congrArg (barnGet · a) htouched
  · exact (barnPut_fold bs _ o a ha).trans (congrArg (barnGet · a) htouched)

end

/-- Settles O57. -/
theorem barnStoresLandWhereComputed : Obligations.BarnStoresLandWhereComputed :=
  fun _ _ _ _ => ⟨fun _ hshadow hb h _ ha => barnwrDone_outside hshadow hb h ha, barnwrDone_none, fun _ h => tapRecord_outside h,
    fun _ _ h _ ha => jtagAccess_outside h ha, fun _ _ _ _ ha => captureBytes_outside ha, fun _ _ _ _ _ _ ha => barnGet_stores _ _ _ _ ha,
    fun _ _ _ _ ha => picture_get _ _ _ _ _ ha⟩

end Sys2Proof.Laws
end

section
/-!
Reset, images, activation, fuses, the watchdog and the debug master (O58).
-/
namespace Sys2Proof.Laws
open Sys2Proof Sys2Proof.Machine

section
variable {dt n : Nat} {s : State}

theorem reset_left {r : ResetIn} (hgood : r.pwrgood = true) (hheld : s.rb U.boot Boot.released = false) : exec (.resetRelease dt r) s = .next (s.releaseReset r) := by
  refine next_if_neg ?_ rfl
  rw [hgood, hheld]
  decide

section
variable {b : BgOp} (hb : (s.after dt).bgFirst 0xF3 n = some b)
include hb

theorem settings_merged (ok : Bool) (hset : bitAt b.sub 0 = true) : let w := s.after dt
    let r := if w.bootN Boot.setRegion = 0 then 0 else 2 - w.bootN Boot.setRegion
    let f := if w.bootN Boot.setRegion = 0 then w.bootN Boot.setFormat else w.bootN Boot.SETTINGS_FORMAT
    let ws := (b.vals.drop 2).map Int.toNat
    exec (.imgloadDone dt n ok) s = .next (((w.writeCopy r f (w.bootN Boot.SETTINGS_SEQ + 1) (w.bootN Boot.RUN_VERSION) 0
      (mergeRecords w.recordsInUse ((recordsOf ws.length ws).getD []))).useCopy r).finishBg b 0) := by
  show execImgloadDone dt n ok s = _
  simp only [execImgloadDone, hb]
  exact next_if_pos hset rfl

theorem segment_stored (ok : Bool) (hseg : bitAt b.sub 0 = false) : let w := s.after dt
    let x := (w.flashPutWords (slotBase w.loadSlot + (b.vals.headD 0).toNat) ((b.vals.drop 2).map Int.toNat)).count U.boot Ctr.Boot.IMAGE_SEGMENTS
    (bitAt b.sub 3 = false → exec (.imgloadDone dt n ok) s = .next (x.finishBg b 0)) ∧
    (bitAt b.sub 3 = true → b.vals.getD 1 (-1) < 0 → exec (.imgloadDone dt n ok) s = .next ((x.finishImage ok).2.2.finishBg b (x.finishImage ok).2.1)) ∧
    (bitAt b.sub 3 = true → 0 ≤ b.vals.getD 1 (-1) → let y := (x.finishImage ok).2.2
      exec (.imgloadDone dt n ok) s = .next ((y.sendReport (b.vals.getD 1 (-1)).toNat b.index (if y.bootN Boot.ringCode ≠ 0 then y.bootN Boot.ringCode
        else (x.finishImage ok).2.1) (x.finishImage ok).1).finishBg b (x.finishImage ok).2.1)) := by
  have hno := Bool.eq_false_iff.1 hseg
  refine ⟨fun hmore => ?_, fun hlast hhost => ?_, fun hlast hring => ?_⟩
  · show execImgloadDone dt n ok s = _
    simp only [execImgloadDone, hb]
    exact next_if_neg hno (if_neg (Bool.eq_false_iff.1 hmore))
  · show execImgloadDone dt n ok s = _
    simp only [execImgloadDone, hb, not_le.2 hhost, false_and, if_false]
    exact next_if_neg hno (if_pos hlast)
  · show execImgloadDone dt n ok s = _
    simp only [execImgloadDone, hb, hring, true_and, if_true]
    exact next_if_neg hno (if_pos hlast)

end

section
variable {b : BgOp} (hb : (s.after dt).activation = some b)
include hb

theorem activation_loads (hst : (s.after dt).bootN Boot.ACT_STATE = 1) : let w := s.after dt
    (∀ ok, ok = true ∧ w.payloadOk w.loadSlot = true → exec (.activationLoaded dt ok) s = .next (w.bootSet [(Boot.ACT_STATE, 2)])) ∧
    (∀ ok, ok = false ∨ w.payloadOk w.loadSlot = false → exec (.activationLoaded dt ok) s = .next (w.endActivation b Code.fault.num)) := by
  refine ⟨fun ok hgood => ?_, fun ok hbad => ?_⟩
  · show execActivationLoaded dt ok s = _
    simp only [execActivationLoaded, hb]
    exact next_if_neg (not_not.2 hst) (if_pos (Bool.and_eq_true_iff.2 hgood))
  · show execActivationLoaded dt ok s = _
    simp only [execActivationLoaded, hb]
    exact next_if_neg (not_not.2 hst) (if_neg (Bool.eq_false_iff.1 (Bool.and_eq_false_iff.2 hbad)))

theorem activation_prepares (hst : (s.after dt).bootN Boot.ACT_STATE = 2) : let w := s.after dt
    exec (.activationPrepared dt false) s = .next (w.endActivation b Code.version.num) ∧ exec (.activationPrepared dt true) s = .next (w.prepare b) := by
  constructor
  · show execActivationPrepared dt false s = _
    simp only [execActivationPrepared, hb]
    exact next_if_neg (not_not.2 hst) rfl
  · show execActivationPrepared dt true s = _
    simp only [execActivationPrepared, hb]
    exact next_if_neg (not_not.2 hst) rfl

theorem activation_hands_over (hst : (s.after dt).bootN Boot.ACT_STATE = 3)
    (htick : (s.after dt).bootN Boot.ACT_TICK ≤ (s.after dt).rd (U.plan (bitsAt b.sub 6 3)) Plan.TICK) : let w := s.after dt
    exec (.activationHandover dt) s =
      .next (w.bootSet [(Boot.ACT_STATE, 4), (Boot.handAt, w.clk), (Boot.oldVersion, w.bootN Boot.RUN_VERSION), (Boot.BANK, (1 - w.bootN Boot.BANK : Nat)),
        (Boot.RUN_VERSION, w.hdrVersion w.loadSlot)]) := by
  show execActivationHandover dt s = _
  simp only [execActivationHandover, hb]
  exact next_if_neg (not_or.2 ⟨not_not.2 hst, not_lt.2 htick⟩) rfl

section
variable (hst : (s.after dt).bootN Boot.ACT_STATE = 4)
include hst

theorem activation_resumes (hnow : (s.after dt).clk ≤ (s.after dt).bootN Boot.handAt + 20 * Config.ms) : let w := s.after dt
    let x := (w.writeRecord w.loadSlot 1 3).bootSet [(Boot.ACT_STATE, 0), (Boot.SLOT_RUNNING, w.loadSlot), (Boot.runSvn, w.hdrSvn w.loadSlot),
      (Boot.setFormat, w.hdrFormat w.loadSlot), (Boot.setMin, w.hdrSetMin w.loadSlot), (Boot.twMajor, bitsAt (w.hdr w.loadSlot 2) 3 0),
      (Boot.twMin, bitsAt (w.hdr w.loadSlot 2) 7 4), (Boot.twMax, bitsAt (w.hdr w.loadSlot 2) 11 8)]
    let code := if b.vals.getD 1 0 = 1 then Code.late.num else 0
    (x.pickCopy (· == w.hdrFormat w.loadSlot) = none →
      exec (.activationResumed dt) s = .next (((x.count U.boot Ctr.Boot.ACTIVATIONS).post U.boot evFwActivated 0).finishBg b code)) ∧
    (∀ r, x.pickCopy (· == w.hdrFormat w.loadSlot) = some r →
      exec (.activationResumed dt) s = .next ((((x.useCopy r).count U.boot Ctr.Boot.ACTIVATIONS).post U.boot evFwActivated 0).finishBg b code)) := by
  refine ⟨fun hnone => ?_, fun r hr => ?_⟩
  · show execActivationResumed dt s = _
    simp only [execActivationResumed, hb, hnone]
    exact next_if_neg (not_or.2 ⟨not_not.2 hst, not_lt.2 hnow⟩) rfl
  · show execActivationResumed dt s = _
    simp only [execActivationResumed, hb, hr]
    exact next_if_neg (not_or.2 ⟨not_not.2 hst, not_lt.2 hnow⟩) rfl

theorem activation_aborts (hlate : (s.after dt).bootN Boot.handAt + 20 * Config.ms ≤ (s.after dt).clk) : let w := s.after dt
    let x := w.bootSet [(Boot.BANK, (1 - w.bootN Boot.BANK : Nat)), (Boot.RUN_VERSION, w.bootN Boot.oldVersion)]
    (x.pickCopy (· == x.bootN Boot.setFormat) = none →
      exec (.activationAbort dt) s = .next ((x.post U.boot evFwAborted 0).endActivation b Code.fault.num)) ∧
    (∀ r, x.pickCopy (· == x.bootN Boot.setFormat) = some r →
      exec (.activationAbort dt) s = .next (((x.useCopy r).post U.boot evFwAborted 0).endActivation b Code.fault.num)) := by
  refine ⟨fun hnone => ?_, fun r hr => ?_⟩
  · show execActivationAbort dt s = _
    simp only [execActivationAbort, hb, hnone]
    exact next_if_neg (not_or.2 ⟨not_not.2 hst, not_lt.2 hlate⟩) rfl
  · show execActivationAbort dt s = _
    simp only [execActivationAbort, hb, hr]
    exact next_if_neg (not_or.2 ⟨not_not.2 hst, not_lt.2 hlate⟩) rfl

end

end

theorem fuse_blown (hmine : (s.after dt).bg.filter (·.op == 0xF5) ≠ []) : let w := s.after dt
    let mine := w.bg.filter (·.op == 0xF5)
    exec (.fuseBlown dt false) s = .next (mine.foldl (fun a b => a.finishBg b Code.fault.num) w) ∧
    (let x := (w.setNv nvOtp 1 0 (w.fuses + 1)).bootSet [(Boot.OTP_SVN, (w.fuses + 1 : Nat))];
      exec (.fuseBlown dt true) s = .next (if w.fuses + 1 < x.bootN Boot.runSvn then x
        else mine.foldl (fun a b => a.finishBg b 0) (x.post U.boot evFwSvn ((w.fuses + 1) % 256)))) :=
  have hwaits := mt List.isEmpty_iff.1 hmine
  ⟨next_if_neg hwaits rfl, next_if_neg hwaits rfl⟩

theorem watchdog_expires (hst : (s.after dt).bootN Boot.STAGE = 3) : let w := s.after dt
    let x := (w.count U.boot Ctr.Boot.WATCHDOG_RESETS).post U.boot evFwWatchdog 0
    exec (.watchdogExpiry dt) s = .next (x.bootSet [(Boot.dog2, w.bootN Boot.dog1), (Boot.dog1, (w.clk + 1 : Nat)),
      (Boot.STAGE, if w.rb U.boot Boot.dog2 = true ∧ w.clk + 1 ≤ w.bootN Boot.dog2 + 60 * Config.second then 6 else 3)]) := by
  intro w x
  have hthird : (if (w.rb U.boot Boot.dog2 && decide (w.clk + 1 ≤ w.bootN Boot.dog2 + 60 * Config.second)) = true then (6 : Int) else 3) =
      if w.rb U.boot Boot.dog2 = true ∧ w.clk + 1 ≤ w.bootN Boot.dog2 + 60 * Config.second then 6 else 3 :=
    if_congr (by rw [Bool.and_eq_true, decide_eq_true_iff]) rfl rfl
  rw [← hthird]
  exact next_if_neg (not_not.2 hst) rfl

section
variable {a k : Nat} (ha : a % 8 = 0) (hk : windowOf a = some k)
include ha hk

theorem debug_reads (hend : windowOf (a + 8 * (n - 1)) = some k) : let w := s.after dt
    exec (.jtagAccess dt a n none) s =
      .next (((w.arcadeUse (U.master 7) a n).jtagWords a n).2.emit (.jtag ((w.arcadeUse (U.master 7) a n).jtagWords a n).1)) := by
  show execJtagAccess dt a n none s = _
  simp only [execJtagAccess, hk]
  exact next_if_neg (not_not.2 ha) (if_pos hend)

theorem debug_write_ignored (v : Word) (hst : (s.after dt).bootN Boot.STAGE ≠ 5) : exec (.jtagAccess dt a n (some v)) s = .next (s.after dt) := by
  have hruns : (!((s.after dt).bootN Boot.STAGE == 5)) = true := by rw [beq_eq_false_iff_ne.2 hst, Bool.not_false]
  show execJtagAccess dt a n (some v) s = _
  simp only [execJtagAccess, hk]
  exact next_if_neg (not_not.2 ha) (if_pos hruns)

theorem debug_writes (v : Word) (hst : (s.after dt).bootN Boot.STAGE = 5) : let x := (s.after dt).arcadeUse (U.master 7) a 1
    (k = 0 → exec (.jtagAccess dt a n (some v)) s = .next (x.ldput ((a - 0x20000000) / 8) v)) ∧
    (k = 1 → exec (.jtagAccess dt a n (some v)) s = .next (x.writeWord a v)) := by
  have hhalted : ¬ (!((s.after dt).bootN Boot.STAGE == 5)) = true := by
    rw [hst]
    decide
  refine ⟨fun h0 => ?_, fun h1 => ?_⟩
  · show execJtagAccess dt a n (some v) s = _
    simp only [execJtagAccess, hk]
    exact next_if_neg (not_not.2 ha) ((if_neg hhalted).trans (if_pos h0))
  · show execJtagAccess dt a n (some v) s = _
    simp only [execJtagAccess, hk]
    exact next_if_neg (not_not.2 ha) ((if_neg hhalted).trans ((if_neg (by omega)).trans (if_pos h1)))

end

end

/-- Settles O58. -/
theorem bootProceeds : Obligations.BootProceeds :=
  fun _ _ _ => ⟨fun _ hgood hheld => reset_left hgood hheld, fun hshort => ⟨next_if_pos hshort rfl, next_if_pos hshort rfl⟩,
    fun hlong => ⟨next_if_neg (not_lt.2 hlong) rfl, next_if_neg (not_lt.2 hlong) rfl⟩, fun _ ok hb hseg => segment_stored hb ok hseg,
    fun _ ok hb hset => settings_merged hb ok hset,
    fun _ hb => ⟨activation_loads hb, activation_prepares hb, activation_hands_over hb, activation_resumes hb, activation_aborts hb⟩, fuse_blown,
    watchdog_expires, fun _ _ ha hk => ⟨debug_reads ha hk, debug_write_ignored ha hk, fun v hst => (debug_writes ha hk v hst).1,
      fun v hst => (debug_writes ha hk v hst).2⟩⟩

end Sys2Proof.Laws
end

section
/-!
Messages of the Footpath and of the Alley act once, pass on or are refused (O59).
-/
namespace Sys2Proof.Laws
open Sys2Proof Sys2Proof.Machine

section
variable {dt link : Nat} {m : LinkMsg} {s : State} (hlink : link = 1 ∨ link = 2)
include hlink

theorem footpath_link : ¬ (link ≠ 1 ∧ link ≠ 2) := fun h => hlink.elim h.1 h.2

theorem hello_heard (hruns : (s.after dt).fpRuns = true) : let w := s.after dt; let h := (m.body.headD 0).toNat
    (goodCrc m = false ∨ m.typ ≠ 1 ∨ m.body.length ≠ 1 ∨ bitsAt h 63 51 ≠ 0 → exec (.helloRx dt link m) s = .next (w.fpBad link m false)) ∧
    (goodCrc m = true → m.typ = 1 → m.body.length = 1 → bitsAt h 63 51 = 0 →
      let x := w.bootSet [(Fp.up link, 1), (Fp.helloAt link, (w.clk + 1 : Nat)), (Boot.nbNode link, (bitsAt h 15 0 : Nat)),
        (Boot.nbVersion link, (bitsAt h 47 16 : Nat)), (Boot.nbStage link, (bitsAt h 50 48 : Nat))]
      let y := if w.fpUp link then x else (x.post U.boot 0x0B11 (link - 1)).resendKept link
      exec (.helloRx dt link m) s =
        .next (if bitsAt h 15 0 = w.bootN Boot.NODE then y.countLimited U.boot (Fp.ctr link Ctr.FpLink.FP_NODE_CLASHES) 0x0B13 0 else y)) := by
  intro w h
  have hgo : ¬ ((link ≠ 1 ∧ link ≠ 2) ∨ w.fpRuns = false) :=
    not_or.2 ⟨footpath_link hlink, fun hno => Bool.false_ne_true (hno.symm.trans hruns)⟩
  have hbad : (!goodCrc m || m.typ != 1 || m.body.length != 1 || bitsAt h 63 51 != 0) = true ↔
      goodCrc m = false ∨ m.typ ≠ 1 ∨ m.body.length ≠ 1 ∨ bitsAt h 63 51 ≠ 0 := by
    simp only [Bool.or_eq_true, Bool.not_eq_true', bne_iff_ne, or_assoc]
  refine ⟨fun hsome => next_if_neg hgo (if_pos (hbad.2 hsome)), fun hcrc htyp hlen hres => next_if_neg hgo (if_neg fun h => ?_)⟩
  rcases hbad.1 h with h | h | h | h
  · exact Bool.false_ne_true (h.symm.trans hcrc)
  · exact h htyp
  · exact h hlen
  · exact h hres

theorem link_goes_down (hup : (s.after dt).fpUp link = true) (hdue : (s.after dt).bootN (Fp.helloAt link) + 3 * Config.ms ≤ (s.after dt).clk + 1) :
    exec (.fpLinkDown dt link) s =
      .next (((s.after dt).bootSet [(Fp.up link, 0)]).countLimited U.boot (Fp.ctr link Ctr.FpLink.FP_LINK_DOWNS) 0x0B10 (link - 1)) :=
  next_if_neg (not_or.2 ⟨footpath_link hlink, not_or.2 ⟨fun h => Bool.false_ne_true (h.symm.trans hup), not_lt.2 hdue⟩⟩) rfl

theorem held_dropped (hdown : (s.after dt).fpUp link = false) : let w := s.after dt
    exec (.fpHoldDiscard dt link) s =
      .next (((Tbl.get ⟨link, 0⟩ [] w.links).filter fun m => decide (w.cellNv (nvSentAt link) m.seq 0 + 100 * Config.ms ≤ w.clk + 1)).foldl
        (fun a m => a.release link m.seq) w) :=
  next_if_neg (not_or.2 ⟨footpath_link hlink, Bool.eq_false_iff.1 hdown⟩) rfl

theorem nak_resends {x : LinkMsg} (hcrc : goodCrc m = true) (htyp : m.typ = 0x7F) (hruns : (s.after dt).fpRuns = true) (hup : (s.after dt).fpUp link = true)
    (hkept : (s.after dt).keptMsg link (ackSeq m) = some x) : exec (.fpNak dt link m) s = .next ((s.after dt).resend link x) := by
  refine next_if_pos ⟨hlink, hcrc, htyp, hruns, hup⟩ ?_
  simp only [hkept]

theorem unanswered_resent {x : LinkMsg} (hold : (s.after dt).oldestKept link = some x) (hup : (s.after dt).rb U.boot (Fp.up link) = true) : let w := s.after dt
    exec (.retransmitTimeout dt link) s =
      .next (if 7 ≤ w.cellNv (nvAttempts link) x.seq 0 then
        ((w.release link x.seq).wr U.boot (Fp.up link) 0).countLimited U.boot (Fp.ctr link Ctr.FpLink.FP_RETRY_FAILS) 0x0B10 (link - 1)
      else w.resend link x) := by
  show execRetransmitTimeout dt link s = _
  simp only [execRetransmitTimeout, hold]
  refine next_if_neg (by omega) (if_neg ?_)
  rw [hup]
  exact not_or.2 ⟨by omega, Bool.false_ne_true⟩

end

section
variable {dt : Nat} {m : LinkMsg} {s : State} (hruns : (s.after dt).fpRuns = true) (hup : (s.after dt).fpUp 1 = true)
include hruns hup

theorem bad_refused {typ least : Nat} {busy : Bool} {f : State → State} (hleast : 2 ≤ least) (hbad : goodCrc m = false ∨ m.body.length < 2) :
    (.next ((s.after dt).ringTake m typ least busy f) : Res) = .next ((s.after dt).fpBad 1 m true) := by
  refine ringTake_bad _ m typ least busy f hruns hup ?_
  simp only [Bool.or_eq_true, Bool.not_eq_true', decide_eq_true_iff]
  exact hbad.elim (fun h => .inl (.inl (.inl h))) fun h => .inl (.inr (h.trans_le hleast))

section
variable (hcrc : goodCrc m = true) (hres : bitsAt (m.body.headD 0).toNat 47 38 = 0)
  (hnew : (((s.after dt).footSend 1 0x7E [BitVec.ofNat 64 m.seq]).buf U.boot 53).contains (m.seq : Int) = false)
include hcrc hres hnew

/-- The state in which a new ring message acts: acknowledged and remembered. -/
def ringHeard (w : State) (m : LinkMsg) : State :=
  let x := w.footSend 1 0x7E [BitVec.ofNat 64 m.seq]
  x.setBuf U.boot 53 ((x.buf U.boot 53).drop ((x.buf U.boot 53).length - 255) ++ [(m.seq : Int)])

theorem ring_acts {typ least : Nat} {busy : Bool} {f : State → State} {t : State} (htyp : m.typ = typ) (hlen : least ≤ m.body.length) (hbusy : busy = false)
    (ht : f (ringHeard (s.after dt) m) = t) : (.next ((s.after dt).ringTake m typ least busy f) : Res) = .next t :=
  congrArg Host.Outcome.next ((ringTake_new (s.after dt) m typ least busy f hruns hup hcrc htyp hlen hres hbusy hnew).trans ht)

theorem reply_returns (hown : ringOrigin (m.body.headD 0).toNat = (ringHeard (s.after dt) m).bootN Boot.NODE) (htyp : m.typ = 5) (hlen : 3 ≤ m.body.length) :
    exec (.fpReply dt m) s = .next ((ringHeard (s.after dt) m).fpCount 1 Ctr.FpLink.FP_DELIVERED) :=
  ring_acts hruns hup hcrc hres hnew htyp hlen rfl (ringRoute_own _ m _ hown)

theorem report_returns (hown : ringOrigin (m.body.headD 0).toNat = (ringHeard (s.after dt) m).bootN Boot.NODE) (htyp : m.typ = 0x51)
    (hlen : m.body.length = 2) (hzero : bitsAt (m.body.getD 1 0).toNat 31 28 = 0) :
    exec (.reportMsg dt m) s = .next (((ringHeard (s.after dt) m).takeReport m).fpCount 1 Ctr.FpLink.FP_DELIVERED) := by
  refine ring_acts hruns hup hcrc hres hnew htyp ?_ rfl (ringRoute_own _ m _ hown)
  rw [hzero, hlen]
  decide

theorem reply_passes (hother : ¬ ringOrigin (m.body.headD 0).toNat = (ringHeard (s.after dt) m).bootN Boot.NODE)
    (hhops : ringHops (m.body.headD 0).toNat ≠ 0) (htyp : m.typ = 5) (hlen : 3 ≤ m.body.length) : let h := (m.body.headD 0).toNat
    exec (.fpReply dt m) s = .next (((ringHeard (s.after dt) m).footSend 2 m.typ
      (ringWord (ringOrigin h) (ringDest h) (ringHops h - 1) (ringDist h) :: m.body.drop 1)).fpCount 1 Ctr.FpLink.FP_FORWARDED) :=
  ring_acts hruns hup hcrc hres hnew htyp hlen rfl (ringRoute_pass _ m _ hother hhops)

section
variable (hother : ¬ ringOrigin (m.body.headD 0).toNat = (ringHeard (s.after dt) m).bootN Boot.NODE)
  (hmine : ringDest (m.body.headD 0).toNat = (ringHeard (s.after dt) m).bootN Boot.NODE)
include hother hmine

theorem ring_errand_received (htyp : m.typ = 4) (hlen : 2 ≤ m.body.length) (hroom : (s.after dt).wordsQueued 9 + (m.body.length - 1) ≤ ringWords) :
    exec (.fpErrand dt m) s = .next (((ringHeard (s.after dt) m).receiveErrand 9 (3 + ringOrigin (m.body.headD 0).toNat) (m.body.drop 1) true).fpCount 1
      Ctr.FpLink.FP_DELIVERED) := by
  refine ring_acts hruns hup hcrc hres hnew htyp hlen ?_ (ringRoute_mine _ m _ hother hmine)
  rw [decide_eq_false (not_lt.2 (by rwa [List.length_drop])), Bool.and_false]

theorem ring_bulk_stored (htyp : m.typ = 0x40) (hlen : 3 ≤ m.body.length) (hfits : (m.body.getD 1 0).toNat + (m.body.length - 2) ≤ 65536)
    (hstage : (ringHeard (s.after dt) m).bootN Boot.STAGE ≠ 4) :
    exec (.fpBulk dt m) s =
      .next (((ringHeard (s.after dt) m).ldputs (m.body.getD 1 0).toNat (m.body.drop 2)).fpCount 1 Ctr.FpLink.FP_DELIVERED) := by
  refine ring_acts hruns hup hcrc hres hnew htyp hlen rfl ((ringRoute_mine _ m _ hother hmine).trans ?_)
  exact congrArg (State.fpCount · 1 Ctr.FpLink.FP_DELIVERED) (if_neg (not_or.2 ⟨hstage, not_lt.2 (by rwa [List.length_drop])⟩))

theorem ring_segment_taken (htyp : m.typ = 0x50) (hlen : 4 ≤ m.body.length) :
    exec (.segment dt m) s = .next (((ringHeard (s.after dt) m).takeSegment m).fpCount 1 Ctr.FpLink.FP_DELIVERED) :=
  ring_acts hruns hup hcrc hres hnew htyp hlen rfl (ringRoute_mine _ m _ hother hmine)

end

end

end

section
variable {dt : Nat} {m : LinkMsg} {s : State} (hu : (s.after dt).unitBad U.twin = false)
include hu

theorem alley_refused (hbad : goodCrc m = false) :
    let bad := ((s.after dt).countLimited U.twin Ctr.Twin.ALLEY_RETRANSMITS 0 0).alleySend 0x7F [BitVec.ofNat 64 m.seq]
    exec (.alleyErrand dt m) s = .next bad ∧ exec (.alleyReply dt m) s = .next bad ∧ exec (.alleyBulk dt m) s = .next bad := by
  refine ⟨congrArg Host.Outcome.next (alley_bad _ m _ hu hbad), next_ifUp hu ((if_neg ?_).trans (alley_bad _ m _ hu hbad)),
    congrArg Host.Outcome.next (alley_bad _ m _ hu hbad)⟩
  rw [hbad]
  exact Bool.false_ne_true

section
variable (hcrc : goodCrc m = true)
include hcrc

theorem alley_repeated (hseen : (s.after dt).seenMsg m.seq = true) : let x := (s.after dt).alleySend 0x7E [BitVec.ofNat 64 m.seq]
    exec (.alleyErrand dt m) s = .next x ∧ exec (.alleyReply dt m) s = .next x ∧ exec (.alleyBulk dt m) s = .next x := by
  refine ⟨congrArg Host.Outcome.next (alley_again _ m _ hu hcrc hseen), next_ifUp hu ((if_neg ?_).trans (alley_again _ m _ hu hcrc hseen)),
    congrArg Host.Outcome.next (alley_again _ m _ hu hcrc hseen)⟩
  rw [hseen, Bool.not_true, Bool.and_false]
  exact Bool.false_ne_true

section
variable (hnew : (s.after dt).seenMsg m.seq = false)
include hnew

/-- The state in which a new Alley message acts: acknowledged and remembered. -/
def alleyHeard (w : State) (m : LinkMsg) : State :=
  let x := w.alleySend 0x7E [BitVec.ofNat 64 m.seq]
  x.setBuf U.twin 53 ((x.buf U.twin 53).drop ((x.buf U.twin 53).length - 255) ++ [(m.seq : Int)])

theorem alley_acts {f : State → State} {t : State} (ht : f (alleyHeard (s.after dt) m) = t) :
    (.next ((s.after dt).alleyTake m f) : Res) = .next t :=
  congrArg Host.Outcome.next ((alleyTake_new (s.after dt) m f hu hcrc hnew).trans ht)

theorem returned_errand_queued (hq : m.body.getD 0 0 = 8) (hroom : (alleyHeard (s.after dt) m).wordsQueued 8 + (m.body.length - 3) ≤ ringWords) :
    exec (.alleyErrand dt m) s = .next ((alleyHeard (s.after dt) m).receiveErrand 8 2 (m.body.drop 3) true) := by
  refine alley_acts hu hcrc hnew ((if_pos ?_).trans (if_neg ?_))
  · rw [hq]
    rfl
  · exact not_lt.2 (by rwa [List.length_drop])

theorem forwarded_errand_queued (hq : (m.body.getD 0 0).toNat ≤ 7 ∨ m.body.getD 0 0 = 9) (hrole : (alleyHeard (s.after dt) m).tw Twin.ROLE = roleStandby)
    (hpair : (alleyHeard (s.after dt) m).tw Twin.PAIR ≠ prReplicating) (hshadow : (alleyHeard (s.after dt) m).shadow = none)
    (hroom : (alleyHeard (s.after dt) m).wordsQueued (m.body.getD 0 0).toNat + (m.body.length - 3) ≤ ringWords) : let y := alleyHeard (s.after dt) m
    exec (.alleyErrand dt m) s = .next ((y.receiveErrand (m.body.getD 0 0).toNat 1 (m.body.drop 3) true).arrivedAt y.nextId
      ((m.body.getD 1 0).toNat * Config.second + (m.body.getD 2 0).toNat * Config.ns)) := by
  have hqueue : (m.body.getD 0 0).toNat ≠ 8 ∧ (m.body.getD 0 0).toNat ≤ 9 := by
    rcases hq with h | h
    · omega
    · rw [h]
      decide
  refine alley_acts hu hcrc hnew ((if_neg hqueue.1).trans ((if_neg ?_).trans ((onThreads_none _ _ hshadow).trans (if_neg ?_))))
  · exact not_or.2 ⟨not_lt.2 hqueue.2, not_or.2 ⟨not_not.2 hrole, fun h => hpair h.1⟩⟩
  · exact not_lt.2 (by rwa [List.length_drop])

theorem alley_reply_ringed (hbody : m.body ≠ []) (hroom : m.body.length + 1 ≤ (s.after dt).replyRoom 8) :
    exec (.alleyReply dt m) s = .next ((alleyHeard (s.after dt) m).ringReply 8 m.body) := by
  refine next_ifUp hu ((if_neg ?_).trans ((alleyTake_new (s.after dt) m _ hu hcrc hnew).trans (if_neg (mt List.isEmpty_iff.1 hbody))))
  rw [decide_eq_false (not_lt.2 hroom), Bool.and_false, Bool.false_and]
  exact Bool.false_ne_true

theorem alley_bulk_stored (hrole : (alleyHeard (s.after dt) m).tw Twin.ROLE = roleStandby) (hshadow : (alleyHeard (s.after dt) m).shadow = none)
    (hfits : (m.body.headD 0).toNat + (m.body.length - 1) ≤ 65536) :
    exec (.alleyBulk dt m) s = .next ((alleyHeard (s.after dt) m).ldputs (m.body.headD 0).toNat (m.body.drop 1)) :=
  alley_acts hu hcrc hnew ((if_neg (not_or.2 ⟨not_not.2 hrole, not_lt.2 hfits⟩)).trans (onThreads_none _ _ hshadow))

end

theorem alley_ack_frees (htyp : m.typ = 0x7E) : exec (.alleyAck dt m) s = .next ((s.after dt).release 0 (ackSeq m)) := by
  refine next_ifUp hu (if_pos ?_)
  rw [hcrc, htyp]
  rfl

theorem alley_nak_resends {x : LinkMsg} (hkept : (s.after dt).keptMsg 0 (ackSeq m) = some x) (htyp : m.typ = 0x7F) (hup : (s.after dt).alleyUp = true) :
    exec (.alleyNak dt m) s = .next (((s.after dt).resend 0 x).count U.twin Ctr.Twin.ALLEY_RETRANSMITS) := by
  refine next_ifUp hu ?_
  simp only [hkept]
  refine if_pos ?_
  rw [hcrc, htyp, hup]
  rfl

end

theorem alley_unanswered_resent {x : LinkMsg} (hold : (s.after dt).oldestKept 0 = some x) (hup : (s.after dt).alleyUp = true)
    (hmay : x.typ ≠ 0x30 ∨ (s.after dt).cellNv (nvAttempts 0) x.seq 0 < 8) :
    exec (.retransmitTimeout dt 0) s = .next (((s.after dt).resend 0 x).count U.twin Ctr.Twin.ALLEY_RETRANSMITS) := by
  show execRetransmitTimeout dt 0 s = _
  simp only [execRetransmitTimeout, hold]
  refine next_if_pos trivial ((if_neg ?_).trans (if_neg fun h => hmay.elim (· h.1) (not_lt.2 h.2)))
  rw [hu, hup]
  decide

theorem alley_goes_down (hdown : (s.after dt).alleyUp = false) (hwas : (s.after dt).rb U.twin Twin.wasDown = false) :
    exec (.alleyDown dt) s = .next ((((s.after dt).twSet Twin.wasDown 1).count U.twin Ctr.Twin.ALLEY_DOWN_ENTRIES).post U.twin 0x0906 0) := by
  refine next_ifUp hu (if_neg ?_)
  rw [hdown, hwas]
  decide

end

/-- Settles O59. -/
theorem linkMessagesAct : Obligations.LinkMessagesAct :=
  fun _ _ _ _ => ⟨fun hruns => next_if_pos hruns rfl,
    fun hlink => ⟨fun hruns => hello_heard hlink hruns, link_goes_down hlink, held_dropped hlink,
      fun hcrc htyp hruns => next_if_pos ⟨hlink, hcrc, htyp, hruns⟩ rfl,
      fun _ hcrc htyp hruns hup hkept => nak_resends hlink hcrc htyp hruns hup hkept, fun _ hold hup => unanswered_resent hlink hold hup⟩,
    fun hruns hup => ⟨fun hbad => ⟨bad_refused hruns hup (by decide) hbad, bad_refused hruns hup (by decide) hbad, bad_refused hruns hup (by decide) hbad,
        bad_refused hruns hup (by decide) hbad⟩,
      fun hcrc hres hnew => ⟨reply_returns hruns hup hcrc hres hnew, report_returns hruns hup hcrc hres hnew, reply_passes hruns hup hcrc hres hnew,
        fun hother hmine => ⟨fun htyp hlen hroom _ => ring_errand_received hruns hup hcrc hres hnew hother hmine htyp hlen hroom,
          ring_bulk_stored hruns hup hcrc hres hnew hother hmine, ring_segment_taken hruns hup hcrc hres hnew hother hmine⟩⟩⟩,
    fun hu => ⟨alley_refused hu, alley_repeated hu, fun hcrc hnew => ⟨returned_errand_queued hu hcrc hnew,
        fun hq hrole hpair hshadow hroom => forwarded_errand_queued hu hcrc hnew hq hrole hpair hshadow hroom, alley_reply_ringed hu hcrc hnew,
        alley_bulk_stored hu hcrc hnew⟩,
      fun hcrc htyp => alley_ack_frees hu hcrc htyp, fun _ hkept hcrc htyp hup => alley_nak_resends hu hcrc hkept htyp hup,
      fun _ hold hup hmay => alley_unanswered_resent hu hold hup hmay, alley_goes_down hu⟩⟩

end Sys2Proof.Laws
end

section
/-!
Heartbeats, takeover, manifests, decisions and replication of the pair (O60).
-/
namespace Sys2Proof.Laws
open Sys2Proof Sys2Proof.Machine

section
variable {dt : Nat} {m : LinkMsg} {s : State} (hu : (s.after dt).unitBad U.twin = false)
include hu

section
variable {roleIn : Bool} (hmode : (s.after dt).tw Twin.MODE ≠ 0)
include hmode

theorem heartbeat_sent (hnew : (s.after dt).twN Twin.hbSlot ≠ (s.after dt).now / slotLen + 1) : let w := s.after dt
    let slot := w.now / slotLen
    let z := ((if w.alleyUp then w.twSet Twin.wasDown 0 else w).pruneEvidence.sendEvidence).sampleRoleIn roleIn
    exec (.heartbeat dt roleIn) s = .next ((((z.alleySend 1 (z.heartbeatBody roleIn slot)).wrs U.twin [(Twin.hbSlot, slot + 1), (Twin.hbTx, w.tw Twin.hbTx + 1)]).count
      U.twin Ctr.Twin.HB_TX).showOk) := by
  refine next_ifUp hu (if_neg ?_)
  rw [decide_eq_false hmode, beq_eq_false_iff_ne.2 hnew]
  decide

theorem heartbeat_bad {late : Nat} (hbad : goodCrc m = false ∨ m.typ ≠ 1 ∨ m.body.length ≠ 3) :
    exec (.heartbeatRx dt m late roleIn) s = .next ((s.after dt).countLimited U.twin Ctr.Twin.HB_ERRORS 0 0) := by
  refine next_ifUp hu ((if_neg hmode).trans (if_pos ?_))
  simp only [Bool.or_eq_true, Bool.not_eq_true', bne_iff_ne, ne_eq, or_assoc]
  rcases hbad with h | h | h
  · exact .inl h
  · exact .inr (.inl h)
  · exact .inr (.inr (.inl h))

theorem heartbeat_heard {late : Nat} (hcrc : goodCrc m = true) (htyp : m.typ = 1) (hlen : m.body.length = 3) :
    let w := s.after dt
    let T := U.twin
    let w1 := (m.body.getD 0 0).toNat
    let w2 := (m.body.getD 1 0).toNat
    let w3 := (m.body.getD 2 0).toNat
    bitsAt w1 63 40 = 0 → bitsAt w2 63 48 = 0 →
    let err := (((w2 * Config.second + bitsAt w3 31 0 * Config.ns : Nat) : Int) - ((w.now : Int) - late)).natAbs
    let a := w.count T Ctr.Twin.HB_RX
    let b := if w.rb T Twin.hbAny = true ∧ bitsAt w1 23 8 ≠ (w.twN Twin.hbRx + 1) % 65536 then a.count T Ctr.Twin.HB_SEQ_GAPS else a
    let z := (((b.wrs T [(Twin.hbAt, ((w.clk - late) + 1 : Nat)), (Twin.hbAny, 1), (Twin.hbRx, bitsAt w1 23 8), (Twin.missRun, 0),
      (Twin.PARTNER_ROLE, bitsAt w1 25 24), (Twin.PARTNER_MAJOR, bitsAt w1 3 0), (Twin.pPair, bitsAt w1 30 28), (Twin.pSwitching, bitsAt w1 31 31)]).wr U.tower
      Tower.twinSel (bitsAt w1 36 33)).checkHeartbeat (decide (50 * Config.ns < err)) roleIn (bitsAt w1 25 24))
    let clash := bitsAt w1 26 26 = w.twN Twin.SIDE
    let old := bitsAt w1 3 0 < w.rn U.boot Boot.twMin ∨ w.rn U.boot Boot.twMax < bitsAt w1 3 0
    let c := z.twSet Twin.refused (if clash ∨ old then 1 else 0)
    let d := if clash then c.countLimited T Ctr.Twin.SIDE_CLASHES 0x0900 0 else c
    let e := if old then d.countLimited T Ctr.Twin.VERSION_REFUSALS 0x0901 0 else d
    exec (.heartbeatRx dt m late roleIn) s = .next (if w.tw Twin.PAIR = prSeeking then e else e.pairHeartbeat (bitsAt w1 25 24) (bitsAt w1 30 28)).showOk := by
  intro w T w1 w2 w3 h1 h2 err a b z clash old c d e
  have hgood : ¬ (!goodCrc m || m.typ != 1 || m.body.length != 3 || bitsAt w1 63 40 != 0 || bitsAt w2 63 48 != 0) = true := by
    rw [hcrc, htyp, hlen, h1, h2]
    decide
  refine next_ifUp hu ((if_neg hmode).trans ((if_neg hgood).trans ?_))
  simp only [Bool.and_eq_true, Bool.or_eq_true, bne_iff_ne, beq_iff_eq, decide_eq_true_eq]
  rfl

section
variable (hlate : 2 * Config.us ≤ (s.after dt).now % slotLen) (hnew : (s.after dt).twN Twin.missSlot ≠ (s.after dt).now / slotLen + 1)
  (hnone : (s.after dt).twN Twin.hbAt + Config.us < ((s.after dt).clk - (s.after dt).now % slotLen) + 1)
include hlate hnew hnone

/-- What a missing heartbeat leaves of the partner's state. -/
theorem heartbeat_missed {t : State} : let w := s.after dt
    let z := w.wrs U.twin [(Twin.missSlot, w.now / slotLen + 1), (Twin.missRun, (w.twN Twin.missRun + 1 : Nat))]
    let x := if w.twN Twin.missRun + 1 = 1 then z.twSet Twin.faultAtLoss (w.tw Twin.ROLE_FAULT) else z
    (if w.tw Twin.ROLE = roleActive ∧ 3 ≤ w.twN Twin.missRun + 1 then
      if x.rb U.twin Twin.faultAtLoss then x.twinLost else if roleIn then x else if w.tw Twin.PAIR = prTwinLost then x else x.setPair prPartnerLost
      else x) = t → exec (.heartbeatMissing dt roleIn) s = .next t.showOk := by
  intro w z x ht
  exact next_ifUp hu ((if_neg (not_or.2 ⟨hmode, not_or.2 ⟨not_lt.2 hlate, not_or.2 ⟨hnew, not_le.2 hnone⟩⟩⟩)).trans (congrArg State.showOk ht))

theorem heartbeat_missed_by_run : let w := s.after dt
    let z := w.wrs U.twin [(Twin.missSlot, w.now / slotLen + 1), (Twin.missRun, (w.twN Twin.missRun + 1 : Nat))]
    (w.twN Twin.missRun = 0 → exec (.heartbeatMissing dt roleIn) s = .next ((z.twSet Twin.faultAtLoss (w.tw Twin.ROLE_FAULT)).showOk)) ∧
    (w.twN Twin.missRun ≠ 0 → w.tw Twin.ROLE ≠ roleActive ∨ w.twN Twin.missRun < 2 → exec (.heartbeatMissing dt roleIn) s = .next z.showOk) ∧
    (2 ≤ w.twN Twin.missRun → w.tw Twin.ROLE = roleActive → exec (.heartbeatMissing dt roleIn) s =
      .next (if z.rb U.twin Twin.faultAtLoss then z.twinLost else if roleIn then z else if w.tw Twin.PAIR = prTwinLost then z else z.setPair prPartnerLost).showOk) := by
  refine ⟨fun hfirst => heartbeat_missed hu hmode hlate hnew hnone ((if_neg ?_).trans (if_pos ?_)),
    fun hmore hfew => heartbeat_missed hu hmode hlate hnew hnone ((if_neg ?_).trans (if_neg ?_)),
    fun hmany hrole => heartbeat_missed hu hmode hlate hnew hnone ((if_pos ⟨hrole, by omega⟩).trans ?_)⟩
  · omega
  · omega
  · omega
  · omega
  · rw [if_neg (show ¬ (s.after dt).twN Twin.missRun + 1 = 1 by omega)]

end

end

theorem standby_takes_over {roleIn : Bool} (hmode : (s.after dt).tw Twin.MODE = 1) (hrole : (s.after dt).tw Twin.ROLE = roleStandby)
    (hmiss : 3 ≤ (s.after dt).twN Twin.missRun) (hlate : (s.after dt).twN Twin.hbAt + 40 * Config.us ≤ (s.after dt).clk + 1)
    (hmay : (s.after dt).tw Twin.PAIR ≠ prAlleyDown ∨ roleIn = false) :
    let w := s.after dt
    let T := U.twin
    let part := w.tw Twin.PAIR == prReplicating
    let hold := w.twN Twin.TAKEOVER_HOLD
    let a : State := { w with shadow := none, held := if hold = 0 then w.held else some ⟨w.clk, w.tsOff, w.regs, w.staged, w.claims⟩ }
    let b := (a.wrs T [(Twin.holdEnd, if hold = 0 then 0 else (w.clk + hold * Config.ms + 1 : Nat)), (Twin.highRun, 0), (Twin.dualAt, 0)]).setRole roleActive
    let c := (if w.rb T Twin.faultAtLoss then b.twinLost else b.setPair prPartnerLost).count T Ctr.Twin.TAKEOVERS
    exec (.takeover dt roleIn) s = .next ((if part then (c.count T Ctr.Twin.REPLICATION_FAILS).twSet Twin.UNREPLICATED 1 else c).post T 0x090A
      (detail 0 0 0 (if part then 1 else 0))).showOk := by
  have hfree : ((s.after dt).tw Twin.PAIR == prAlleyDown && roleIn) = false :=
    Bool.and_eq_false_iff.2 (hmay.imp_left beq_eq_false_iff_ne.2)
  refine next_ifUp hu (if_neg ?_)
  rw [hmode, hrole, hfree, decide_eq_true hmiss, decide_eq_true hlate]
  decide

theorem hold_ends (hheld : (s.after dt).held.isSome = true) (hdue : (s.after dt).twN Twin.holdEnd ≤ (s.after dt).clk + 1) : let w := s.after dt
    exec (.takeoverHoldEnd dt) s =
      .next ((State.twSet { w with held := none } Twin.holdEnd 0).emit (.pin pinTowerSt (w.towerN Tower.STATE))) := by
  refine next_ifUp hu (if_neg (not_or.2 ⟨?_, not_lt.2 hdue⟩))
  rw [Option.isNone_iff_eq_none]
  exact Option.isSome_iff_ne_none.1 hheld

section
variable (hpair : (s.after dt).tw Twin.PAIR = prSeeking) (hdue : (s.after dt).twN Twin.seekAt + Config.ms ≤ (s.after dt).clk)
include hpair hdue

theorem unheard_takes_role (hnone : (s.after dt).rb U.twin Twin.hbAny = false ∨ 3 ≤ (s.after dt).twN Twin.missRun) : let w := s.after dt
    exec (.pairSeekTimeout dt true) s = .next ((w.setRole roleStandby).setPair prAlleyDown) ∧
    exec (.pairSeekTimeout dt false) s = .next ((w.setRole roleActive).setPair prPartnerLost) := by
  have hheard : ((s.after dt).rb U.twin Twin.hbAny && decide ((s.after dt).twN Twin.missRun < 3)) = false :=
    Bool.and_eq_false_iff.2 (hnone.imp_right fun h => decide_eq_false (not_lt.2 h))
  have hgo : ¬ ((s.after dt).tw Twin.PAIR ≠ prSeeking ∨ (s.after dt).clk < (s.after dt).twN Twin.seekAt + Config.ms ∨
      (((s.after dt).rb U.twin Twin.hbAny && decide ((s.after dt).twN Twin.missRun < 3)) && (s.after dt).rb U.twin Twin.refused) = true) := by
    rw [hheard, Bool.false_and]
    exact not_or.2 ⟨not_not.2 hpair, not_or.2 ⟨not_lt.2 hdue, Bool.false_ne_true⟩⟩
  have hquiet : (!((s.after dt).rb U.twin Twin.hbAny && decide ((s.after dt).twN Twin.missRun < 3))) = true := by rw [hheard, Bool.not_false]
  exact ⟨next_ifUp hu ((if_neg hgo).trans (if_pos hquiet)), next_ifUp hu ((if_neg hgo).trans (if_pos hquiet))⟩

theorem heard_takes_role {roleIn : Bool} (hany : (s.after dt).rb U.twin Twin.hbAny = true) (hmiss : (s.after dt).twN Twin.missRun < 3)
    (href : (s.after dt).rb U.twin Twin.refused = false) : let w := s.after dt
    (w.twN Twin.PARTNER_ROLE = 1 → exec (.pairSeekTimeout dt roleIn) s = .next ((w.setRole roleStandby).replicate)) ∧
    (w.twN Twin.PARTNER_ROLE = 0 → exec (.pairSeekTimeout dt roleIn) s =
      .next ((w.setRole (if w.tw Twin.SIDE = 0 then roleActive else roleStandby)).replicate)) := by
  have hheard : ((s.after dt).rb U.twin Twin.hbAny && decide ((s.after dt).twN Twin.missRun < 3)) = true := by
    rw [hany, decide_eq_true hmiss, Bool.and_self]
  have hgo : ¬ ((s.after dt).tw Twin.PAIR ≠ prSeeking ∨ (s.after dt).clk < (s.after dt).twN Twin.seekAt + Config.ms ∨
      (((s.after dt).rb U.twin Twin.hbAny && decide ((s.after dt).twN Twin.missRun < 3)) && (s.after dt).rb U.twin Twin.refused) = true) := by
    rw [href, Bool.and_false]
    exact not_or.2 ⟨not_not.2 hpair, not_or.2 ⟨not_lt.2 hdue, Bool.false_ne_true⟩⟩
  have hnoisy : ¬ (!((s.after dt).rb U.twin Twin.hbAny && decide ((s.after dt).twN Twin.missRun < 3))) = true := by
    rw [hheard]
    exact Bool.false_ne_true
  refine ⟨fun hstandby => next_ifUp hu ((if_neg hgo).trans ((if_neg hnoisy).trans (if_pos hstandby))),
    fun hactive => next_ifUp hu ((if_neg hgo).trans ((if_neg hnoisy).trans ((if_neg (by omega)).trans ((if_pos hactive).trans ?_))))⟩
  split <;> rfl

end

theorem records_kept : let w := s.after dt
    let T := U.twin
    let l50 := cmpRecs (w.buf T 50)
    let k50 := l50.filter fun r => decide (w.clk < r.at_ + Config.ms)
    let a := (w.setBuf T 50 (cmpInts k50)).countBy T Ctr.Twin.UNCOMPARED (l50.length - k50.length)
    let l51 := cmpRecs (a.buf T 51)
    let k51 := l51.filter fun r => decide (w.clk < r.at_ + Config.ms)
    exec (.uncompared dt) s = .next ((a.setBuf T 51 (cmpInts k51)).countBy T Ctr.Twin.UNCOMPARED (l51.length - k51.length)) := next_ifUp hu rfl

theorem records_unread (hnone : recHead m = none) : exec (.compareRx dt m) s = .next ((s.after dt).count U.twin Ctr.Twin.UNCOMPARED) := by
  refine next_ifUp hu ?_
  simp only [hnone]

theorem records_compared {item k line : Nat} (hrec : recHead m = some (item, k, 0, line)) : let w := s.after dt
    exec (.compareRx dt m) s = .next (((recCrcs k (m.body.drop 2)).zipIdx).foldl (fun (a : State) e =>
      a.compareAdd false (if m.typ = 0x20 then ⟨0, item, (m.body.getD 1 0).toNat, line + e.2, e.1, w.clk⟩
        else ⟨1, item + e.2, (m.body.getD 1 0).toNat, 0, e.1, w.clk⟩)) w) := by
  refine next_ifUp hu ?_
  simp only [hrec]
  by_cases htyp : m.typ = 0x20
  · simp only [htyp]
    rfl
  · simp only [htyp]
    rfl

section
variable (hcrc : goodCrc m = true) (hnew : (s.after dt).seenMsg m.seq = false)
include hcrc hnew

theorem suspect_judged : let y := alleyHeard (s.after dt) m
    (y.tw Twin.PAIR = prInStep → exec (.suspect dt m) s = .next ((y.setRows U.twin 55 (y.twRows 55 3 ++
      [[((m.body.getD 0 0).toNat : Int), ((m.body.getD 1 0).toNat : Int), ((m.body.getD 2 0).toNat % 32 : Nat)]])).concludeKnown)) ∧
    (y.tw Twin.PAIR ≠ prInStep → exec (.suspect dt m) s = .next y) :=
  ⟨fun hstep => alley_acts hu hcrc hnew (if_neg (not_not.2 hstep)), fun hother => alley_acts hu hcrc hnew (if_pos hother)⟩

theorem copy_taken (hrole : (alleyHeard (s.after dt) m).tw Twin.ROLE = roleStandby) (hpair : (alleyHeard (s.after dt) m).tw Twin.PAIR = prReplicating) :
    let z := (alleyHeard (s.after dt) m).loadItems (m.body.length + 1) m.body
    (z.shadow = none → exec (.replica dt m) s = .next z) ∧
    (∀ h, z.shadow = some h → exec (.replica dt m) s = .next { z with nextId := h.errands.foldl (fun n e => max n (e.id + 1)) z.nextId }) := by
  have hgo := not_or.2 ⟨not_not.2 hrole, not_not.2 hpair⟩
  refine ⟨fun hnone => alley_acts hu hcrc hnew ((if_neg hgo).trans ?_), fun h hsome => alley_acts hu hcrc hnew ((if_neg hgo).trans ?_)⟩
  · simp only [hnone]
  · simp only [hsome]

section
variable (hpair : (alleyHeard (s.after dt) m).tw Twin.PAIR = prReplicating)
include hpair

theorem step_sent (hrole : (alleyHeard (s.after dt) m).tw Twin.ROLE = roleActive) (hrepl : (alleyHeard (s.after dt) m).twN Twin.repl = 2) (hbody : m.body = [])
    (hon : (alleyHeard (s.after dt) m).planOn ((alleyHeard (s.after dt) m).twN Twin.TWIN_PLAN) = true) :
    let y := alleyHeard (s.after dt) m
    let j := y.firstTickFrom (y.twN Twin.TWIN_PLAN) ((y.now : Int) + curfewLead + Config.ms)
    let z := y.wrs U.twin [(Twin.repl, 3), (Twin.stepDue, j + 1)]
    exec (.stepMsg dt m) s = .next (z.alleySend 0x31 (BitVec.ofInt 64 j :: y.gainItems)) :=
  alley_acts hu hcrc hnew ((if_neg (not_not.2 hpair)).trans ((if_pos hrole).trans (if_pos ⟨hrepl, List.isEmpty_iff.2 hbody, hon⟩)))

theorem step_received (hrole : (alleyHeard (s.after dt) m).tw Twin.ROLE = roleStandby) (hload : (alleyHeard (s.after dt) m).rb U.twin Twin.loaded = true)
    (hbody : m.body ≠ []) : exec (.stepMsg dt m) s =
      .next (((alleyHeard (s.after dt) m).twSet Twin.stepDue ((m.body.headD 0).toInt + 1)).setBuf U.twin 60 (gainPairs (wordGroups 5 (m.body.drop 1)))) := by
  refine alley_acts hu hcrc hnew ((if_neg (not_not.2 hpair)).trans ((if_neg ?_).trans (if_pos ?_)))
  · rw [hrole]
    decide
  · rw [hload, Bool.true_and, Bool.not_eq_true']
    exact Bool.eq_false_iff.2 (mt List.isEmpty_iff.1 hbody)

end

theorem manifest_heard (htyp : m.typ = 3) (hplan : manPlan m < 16) (hfollows : (alleyHeard (s.after dt) m).followsDecisions = true) :
    let y := alleyHeard (s.after dt) m
    let p := manPlan m
    let rows := manifestRows (m.body.drop 2)
    (manTickOf m < y.rd (U.plan p) Plan.manTick → exec (.manifestRx dt m) s = .next y) ∧
    (y.rd (U.plan p) Plan.manTick ≤ manTickOf m → exec (.manifestRx dt m) s =
      .next (if y.manifestMet p rows then y.applyManifest p (manTickOf m) rows m.seq else y.setManifests p (y.manifests p ++ [m]))) := by
  have hgo := not_or.2 ⟨not_le.2 hplan, not_not.2 htyp⟩
  exact ⟨fun hold => alley_acts hu hcrc hnew ((if_neg hgo).trans ((if_pos hfollows).trans (if_pos hold))),
    fun hnext => alley_acts hu hcrc hnew ((if_neg hgo).trans ((if_pos hfollows).trans (if_neg (not_lt.2 hnext))))⟩

end

section
variable {n : Nat} (hfollows : (s.after dt).followsDecisions = true)
include hfollows

theorem manifest_missing_resolved (hn : n < 16) : let w := s.after dt
    let k := w.tickAt n ((w.now : Int) + curfewLead - 10 * Config.us)
    w.planOn n = true → w.rd (U.plan n) Plan.manTick ≤ k → w.rd (U.plan n) Plan.TICK < k → (w.manifests n).any (manTickOf · == k) = false →
    let z := ((w.resolveNew n k).wr (U.plan n) Plan.manTick (k + 1)).count U.twin Ctr.Twin.MANIFEST_OWN
    exec (.manifestOwn dt n) s = .next (z.setBuf (U.plan n) 60 (logInts ((z.planLog n).filter fun x => z.staged.any fun e => e.id == x.id && !e.won))) := by
  intro w k hon hman htick hany z
  refine next_ifUp hu (if_neg ?_)
  rintro (h | h | h | h | h | h)
  · omega
  · rw [show (s.after dt).planOn n = true from hon] at h
    cases h
  · rw [hfollows] at h
    cases h
  · exact not_lt.2 hman h
  · exact not_le.2 htick h
  · exact Bool.false_ne_true (hany.symm.trans h)

theorem manifest_waited {a : LinkMsg} {rest : List LinkMsg} (hn : n < 16) (hman : (s.after dt).manifests n = a :: rest) : let w := s.after dt
    let rows := manifestRows (a.body.drop 2)
    (w.manifestMet n rows = true → exec (.manifestLate dt n) s = .next ((w.setManifests n rest).applyManifest n (manTickOf a) rows a.seq)) ∧
    (w.manifestMet n rows = false → w.tickTime n (manTickOf a) w.now - curfewLead + 40 * Config.us ≤ w.now →
      exec (.manifestLate dt n) s = .next ((((w.setManifests n []).count U.twin Ctr.Twin.MANIFEST_LATE).post U.twin 0x0903 0).replicate)) := by
  have hgo : ¬ (16 ≤ n ∨ (!(s.after dt).followsDecisions) = true) := by
    rw [hfollows]
    exact not_or.2 ⟨not_le.2 hn, Bool.false_ne_true⟩
  refine ⟨fun hmet => next_ifUp hu ((if_neg hgo).trans ?_), fun hunmet hlate => next_ifUp hu ((if_neg hgo).trans ?_)⟩
  · simp only [hman]
    exact if_pos hmet
  · simp only [hman]
    exact (if_neg (Bool.eq_false_iff.1 hunmet)).trans (if_neg (not_lt.2 hlate))

theorem decision_heard (hcrc : goodCrc m = true) (htyp : m.typ = 2) : let w := s.after dt
    let kind := (m.body.headD 0).toNat % 256
    let u := bitsAt (m.body.headD 0).toNat 39 8
    decisionUnit kind u = true →
    exec (.decision dt m) s = .next (if w.decisionOpen kind u then w.applyDecision kind u (some (m.body.getD 1 0).toNat) else w) := by
  intro w kind u hunit
  refine next_ifUp hu ((if_neg ?_).trans (if_neg ?_))
  · rw [hfollows, hcrc, htyp]
    decide
  · rw [show decisionUnit ((m.body.headD 0).toNat % 256) (bitsAt (m.body.headD 0).toNat 39 8) = true from hunit]
    exact Bool.false_ne_true

end

/-- The instant up to which a decision of the kind is waited for decides whether it is made here. -/
theorem decision_made {n u : Nat} (hunit : decisionUnit n u = true) : let w := s.after dt
    (n = 0 → w.rn u Sub.choiceDue ≤ w.clk + 1) → (n = 1 → w.rn u Layer.choiceDue ≤ w.clk + 1) → (n = 4 → w.rn u Tx.tsDue ≤ w.clk + 1) →
    (n ≠ 0 → n ≠ 1 → n ≠ 4 → w.rd u Src.due ≤ w.now) → exec (.twinDecisionTimeout dt n u) s = .next (w.applyDecision n u none) := by
  intro w hsub hlayer htx hsrc
  refine next_ifUp hu (if_pos ?_)
  rw [hunit, Bool.and_true]
  split
  · exact decide_eq_true (hsub rfl)
  · exact decide_eq_true (hlayer rfl)
  · exact decide_eq_true (htx rfl)
  next h0 h1 h4 => exact decide_eq_true (hsrc h0 h1 h4)

theorem copy_caught_up (hcopy : (s.after dt).onCopy = true) : let w := s.after dt
    exec (.replicationCaughtUp dt) s = .next (if w.replayAll.copyBehind = true ∨ w.rb U.twin Twin.loaded = false ∨ w.rb U.twin Twin.stepDue = true
      then w.replayAll else w.replayAll.alleySend 0x31 []) := by
  refine next_ifUp hu ((if_neg ?_).trans (if_congr ?_ rfl rfl))
  · rw [hcopy]
    exact Bool.false_ne_true
  · rw [Bool.or_eq_true, Bool.or_eq_true, Bool.not_eq_true', or_assoc]

section
variable (hpair : (s.after dt).tw Twin.PAIR = prReplicating)
include hpair

theorem replication_restarts (hdue : (s.after dt).twN Twin.replAt - 1 + 2 * Config.second ≤ (s.after dt).clk) :
    exec (.replicationTimeout dt) s = .next (((s.after dt).count U.twin Ctr.Twin.REPLICATION_FAILS).replicate) :=
  next_ifUp hu (if_neg (not_or.2 ⟨not_not.2 hpair, not_lt.2 hdue⟩))

theorem step_made_current : let w := s.after dt
    let T := U.twin
    let p := w.twN Twin.TWIN_PLAN
    let j := w.tw Twin.stepDue - 1
    w.tw Twin.stepDue ≠ 0 → w.planOn p = true → j ≤ w.tickAt p w.now →
    let z := if w.tw Twin.ROLE = roleStandby then w.replayAll.makeCurrent else w
    exec (.stepCommit dt) s = .next (((((((z.forgetCompare).setBuf T 60 []).setPair prInStep).wrs T [(Twin.STEP_TICK, j), (Twin.stepAt, w.clk + 1)]).count T
      Ctr.Twin.REPLICATIONS).post T 0x090B 0).showOk) := by
  intro w T p j hstep hon htick z
  refine next_ifUp hu (if_neg (not_or.2 ⟨not_not.2 hpair, not_or.2 ⟨hstep, not_or.2 ⟨?_, not_lt.2 htick⟩⟩⟩))
  rw [show (s.after dt).planOn ((s.after dt).twN Twin.TWIN_PLAN) = true from hon]
  exact Bool.false_ne_true

end

end

/-- Settles O60. -/
theorem twinDecidesAndFollows : Obligations.TwinDecidesAndFollows :=
  fun _ _ _ _ hu => ⟨fun _ hmode => ⟨heartbeat_sent hu hmode, fun _ hbad => heartbeat_bad hu hmode hbad,
      fun _ hcrc htyp hlen h1 h2 => heartbeat_heard hu hmode hcrc htyp hlen h1 h2,
      fun hlate hnew hnone => heartbeat_missed_by_run hu hmode hlate hnew hnone⟩,
    fun _ hmode hrole hmiss hlate hmay => standby_takes_over hu hmode hrole hmiss hlate hmay, hold_ends hu,
    fun hpair hdue => ⟨unheard_takes_role hu hpair hdue, fun _ hany hmiss href => heard_takes_role hu hpair hdue hany hmiss href⟩, records_kept hu,
    records_unread hu, fun _ _ _ hrec => records_compared hu hrec,
    fun hcrc hnew => ⟨(suspect_judged hu hcrc hnew).1, (suspect_judged hu hcrc hnew).2, copy_taken hu hcrc hnew,
      fun hpair => ⟨step_sent hu hcrc hnew hpair, step_received hu hcrc hnew hpair⟩, manifest_heard hu hcrc hnew⟩,
    fun hn hfollows => ⟨manifest_missing_resolved hu hfollows hn, fun _ _ hman => manifest_waited hu hfollows hn hman⟩,
    fun hfollows hcrc htyp => decision_heard hu hfollows hcrc htyp, fun _ hunit => decision_made hu hunit, copy_caught_up hu,
    fun hpair => ⟨replication_restarts hu hpair, step_made_current hu hpair⟩⟩

end Sys2Proof.Laws
end
